-- ==== Sys2Proof/Word.lean ====
section
/-!
DEFINITION. The word and byte types of the block (R5: every register is 64 bits wide).
-/
namespace Sys2Proof

/-- A register, an instruction or a table word: 64 bits (R5). -/
abbrev Word := BitVec 64

/-- One byte of a tile, of the flash or of a message. -/
abbrev Byte := BitVec 8

end Sys2Proof
end

