-- ==== Sys2Proof/Terms.lean ====
section
/-!
DEFINITION. The operand types of the commands: who sends, what a register access carries, what a read
of protected storage met, packets and records as they arrive.
-/
namespace Sys2Proof

/-- Who makes a register access: the host through BAR0, or the sideband bus (R484, R485). -/
inductive Src where
  | host
  | sideband
  deriving DecidableEq, Repr

/-- A register access: a read, or a write of a value. -/
inductive Access where
  | read
  | write (v : Word)
  deriving DecidableEq, Repr

/-- What the error-correcting codes report while one command reads protected storage (R86, R114):
how many words and tags were corrected, and the tiles whose read met an uncorrectable error (bench tile
numbers for bench SRAM, Ruril tile numbers for Ruril). -/
structure Ecc where
  corrected : Nat
  bad : List Nat
  deriving DecidableEq, Repr

/-- A tile with its tag: the tag as a 128-bit little-endian value (R89), and the 4,096 payload bytes. -/
structure Tile where
  tag : BitVec 128
  payload : List Byte
  deriving DecidableEq, Repr

/-- A fabric packet as it stands on the wire (R263, R289, R274): the two network header words, the four
transport header words (empty in CONTROL and version 2 packets), the payload words of a CONTROL
packet, the tile of a CHUNK, and the cells of a version 2 packet as bytes. -/
structure Packet where
  h0 : Word
  h1 : Word
  t : List Word
  ctl : List Word
  tile : Option Tile
  cells : List Byte
  deriving DecidableEq, Repr

/-- How a booked copy or an external transfer ended. -/
inductive Done where
  | ok
  | failed
  deriving DecidableEq, Repr

/-- What a host configuration write sets (R443, R446, R456): HDM decoder 0, Cache_Enable of the CXL DVSEC, or
the enable bit of MSI-X. -/
inductive CfgWrite where
  | hdm (base size : Nat)
  | cacheEnable (on : Bool)
  | msixEnable (on : Bool)
  deriving DecidableEq, Repr

/-- A read of host memory by the device: an intake fetch of a ring, a resume copy of a slot, or a recovery read of
an object. -/
inductive HostRead where
  | intake (ring : Nat)
  | resume (slot : Nat)
  | recovery (obj : Nat)
  deriving DecidableEq, Repr

end Sys2Proof
end

