-- ==== Sys2Proof/Syntax.lean ====
section
/-!
DEFINITION. The commands of the block: one constructor for each row of spec/opcode_table.json, with the operands
that the environment supplies.
-/
namespace Sys2Proof

/-- A command or event of the block. Each constructor names the row of the table and its governing rule. -/
inductive Instr where
  /-- NOP (R49). -/
  | nop (b q : Nat)
  /-- PASS (R20). -/
  | pass (b q : Nat)
  /-- PASS_DISPATCH (R21). -/
  | passDispatch (b h : Nat) (e : Ecc)
  /-- PASS_ACCUMULATE (R76). -/
  | passAccumulate (b h : Nat)
  /-- SWAP (R23). -/
  | swap (b q : Nat)
  /-- SHAVE (R41). -/
  | shave (b q : Nat)
  /-- SHAVE_START (R29). -/
  | shaveStart (b h : Nat) (e : Ecc)
  /-- SHAVE_COMPLETE (R28). -/
  | shaveComplete (b h : Nat)
  /-- SAND (R31). -/
  | sand (b q : Nat)
  /-- SAND_START (R536). -/
  | sandStart (b h : Nat) (e : Ecc)
  /-- SAND_COMPLETE (R34). -/
  | sandComplete (b h : Nat)
  /-- LOAD_STILE (R25). -/
  | loadStile (b q : Nat)
  /-- LOAD_HOLD (R27). -/
  | loadHold (b q : Nat)
  /-- LOAD_UNIT_BEGIN (R25). -/
  | loadUnitBegin (b h : Nat) (e : Ecc)
  /-- LOAD_COMPLETE (R49). -/
  | loadComplete (b h : Nat)
  /-- STORE (R48). -/
  | store (b q : Nat)
  /-- STORE_START (R50). -/
  | storeStart (b h : Nat) (e : Ecc)
  /-- STORE_COMPLETE (R82). -/
  | storeComplete (b h : Nat)
  /-- MOVE_I_SET (R46). -/
  | moveISet (b q : Nat)
  /-- MOVE_I_ADD (R46). -/
  | moveIAdd (b q : Nat)
  /-- MOVE_I_SHL (R46). -/
  | moveIShl (b q : Nat)
  /-- MOVE_I_GET (R46). -/
  | moveIGet (b q : Nat)
  /-- MOVE_T_OUT (R104). -/
  | moveTOut (b q : Nat)
  /-- MOVE_T_IN (R104). -/
  | moveTIn (b q : Nat)
  /-- MOVE_T_COMPLETE (R105). -/
  | moveTComplete (b q : Nat) (e : Ecc)
  /-- SEND (R285). -/
  | send (b q : Nat)
  /-- RECV (R286). -/
  | recv (b q : Nat)
  /-- RECV_TAKE_MESSAGE (R286). -/
  | recvTakeMessage (b q : Nat)
  /-- RECV_COMPLETE (R215). -/
  | recvComplete (b q : Nat)
  /-- SEM_WAIT (R360). -/
  | semWait (b q : Nat)
  /-- SEM_WAIT_SERVED (R360). -/
  | semWaitServed (b q : Nat)
  /-- SEM_SIGNAL (R360). -/
  | semSignal (b q : Nat)
  /-- SYNC (R41). -/
  | sync (b q : Nat)
  /-- SYNC_RELEASE (R106). -/
  | syncRelease (b q : Nat)
  /-- LOOP (R42). -/
  | loop (b q : Nat)
  /-- BRANCH_EQ (R47). -/
  | branchEq (b q : Nat)
  /-- BRANCH_NE (R47). -/
  | branchNe (b q : Nat)
  /-- BRANCH_LT (R47). -/
  | branchLt (b q : Nat)
  /-- BRANCH_GE (R47). -/
  | branchGe (b q : Nat)
  /-- BRANCH_LTU (R47). -/
  | branchLtu (b q : Nat)
  /-- BRANCH_GEU (R47). -/
  | branchGeu (b q : Nat)
  /-- BRANCH_AL (R47). -/
  | branchAl (b q : Nat)
  /-- HALT (R26). -/
  | halt (b q : Nat)
  /-- TRAP (R53). -/
  | trap (b q : Nat)
  /-- EXECUTION_PAST_END (R40). -/
  | executionPastEnd (b q : Nat)
  /-- TILE_REFETCH_DONE (R96). -/
  | tileRefetchDone (b t : Nat) (e : Ecc)
  /-- BEN_CTL_WRITE (R37). -/
  | benCtlWrite (b : Nat) (v : Word) (src : Src)
  /-- BEN_IMEM_DATA_WRITE (R55). -/
  | benImemDataWrite (b : Nat) (v : Word) (src : Src)
  /-- BEN_IMEM_DATA_READ (R55). -/
  | benImemDataRead (b : Nat) (src : Src)
  /-- BEN_START_GO0 (R56). -/
  | benStartGo0 (b : Nat) (v : Word) (src : Src)
  /-- BEN_START_GO1 (R56). -/
  | benStartGo1 (b : Nat) (v : Word) (src : Src)
  /-- SEQUENCER_START (R56). -/
  | sequencerStart (b q : Nat)
  /-- BEN_RESET (R434). -/
  | benReset (b : Nat) (v : Word) (src : Src)
  /-- BENCH_RESET_SETTLE (R434). -/
  | benchResetSettle (b : Nat)
  /-- BEN_FAULT_CLEAR (R54). -/
  | benFaultClear (b q : Nat) (v : Word) (src : Src)
  /-- BEN_EXC_FIRST_CLEAR (R81). -/
  | benExcFirstClear (b : Nat) (v : Word) (src : Src)
  /-- BEN_CHECK_FIRST_CLEAR (R97). -/
  | benCheckFirstClear (b : Nat) (v : Word) (src : Src)
  /-- BEN_EXC_CTL_WRITE (R83). -/
  | benExcCtlWrite (b : Nat) (v : Word) (src : Src)
  /-- BEN_FDESC_DATA_ACCESS (R109). -/
  | benFdescDataAccess (b : Nat) (a : Access) (src : Src)
  /-- BEN_FLOOR_SYS_WRITE (R109). -/
  | benFloorSysWrite (b : Nat) (v : Word) (src : Src)
  /-- GLB_FLOOR_ARM (R108). -/
  | glbFloorArm (v : Word) (src : Src)
  /-- GLB_FLOOR_DISARM (R109). -/
  | glbFloorDisarm (v : Word) (src : Src)
  /-- FLOOR_ARM_CHECK_DONE (R108). -/
  | floorArmCheckDone
  /-- TIR_OBJ_DATA_ACCESS (R121). -/
  | tirObjDataAccess (a : Access) (src : Src)
  /-- TIR_POISON_FIRST_CLEAR (R136). -/
  | tirPoisonFirstClear (v : Word) (src : Src)
  /-- TIR_REQ_PROMOTE (R125). -/
  | tirReqPromote (c obj deadline sem signum : Nat)
  /-- TIR_REQ_EVICT (R130). -/
  | tirReqEvict (c obj : Nat)
  /-- TIR_REQ_FLUSH (R130). -/
  | tirReqFlush (c obj : Nat)
  /-- TIR_REQ_UNPIN (R125). -/
  | tirReqUnpin (c obj : Nat)
  /-- TIER_TILE_TRANSFER_DONE (R127). -/
  | tierTileTransferDone (j : Nat) (e : Ecc)
  /-- PROMOTION_COMPLETE (R130). -/
  | promotionComplete (o : Nat)
  /-- WRITEBACK_COMPLETE (R130). -/
  | writebackComplete (o : Nat)
  /-- FLUSH_COMPLETE (R130). -/
  | flushComplete (o : Nat)
  /-- RECOVERY_TILE_RECEIVE (R138). -/
  | recoveryTileReceive (o j : Nat) (x : Tile)
  /-- RECOVERY_SOURCE_TIMEOUT (R138). -/
  | recoverySourceTimeout (o : Nat)
  /-- RURIL_SCRUB (R115). -/
  | rurilScrub (rtn : Nat) (corrected : Nat) (bad : Bool)
  /-- BPM_ALLOC (R146). -/
  | bpmAlloc (h : Nat) (ok soft : Bool)
  /-- BPM_SHARE (R146). -/
  | bpmShare (h buf n newfinal : Nat) (soft : Bool)
  /-- BPM_DROP (R146). -/
  | bpmDrop (h buf : Nat) (soft : Bool)
  /-- BPM_FREE (R147). -/
  | bpmFree (h buf : Nat) (ok soft : Bool)
  /-- BPM_POOL_INIT (R150). -/
  | bpmPoolInit (v : Word) (src : Src)
  /-- POOL_INIT_DONE (R150). -/
  | poolInitDone
  /-- BPM_STEP_END (R159). -/
  | bpmStepEnd (v : Word) (src : Src)
  /-- STEP_BOUNDARY_BEGIN (R159). -/
  | stepBoundaryBegin
  /-- PARK_COPY_DONE (R163). -/
  | parkCopyDone (slot : Nat) (ok : Bool)
  /-- RESUME_COPY_DONE (R452). -/
  | resumeCopyDone (slot : Nat) (pages : Option (List Byte))
  /-- NEW_STEP_START (R159). -/
  | newStepStart
  /-- BPM_SLOT_REQ (R157). -/
  | bpmSlotReq (v : Word) (src : Src)
  /-- BPM_SLOT_DATA_READ (R165). -/
  | bpmSlotDataRead (src : Src)
  /-- DOV_CTL_EN_WRITE (R168). -/
  | dovCtlEnWrite (v : Word) (src : Src)
  /-- DOV_LAYER_DATA_ACCESS (R193). -/
  | dovLayerDataAccess (a : Access) (src : Src)
  /-- DOV_SEL_DATA_ACCESS (R169). -/
  | dovSelDataAccess (a : Access) (src : Src)
  /-- DOV_CTX_TOKENS_WRITE (R192). -/
  | dovCtxTokensWrite (c : Nat) (v : Word) (src : Src)
  /-- DOV_DISP_DATA_ACCESS (R227). -/
  | dovDispDataAccess (a : Access) (src : Src)
  /-- DOV_MAP_DATA_ACCESS (R229). -/
  | dovMapDataAccess (a : Access) (src : Src)
  /-- DOV_LOC_DATA_ACCESS (R230). -/
  | dovLocDataAccess (a : Access) (src : Src)
  /-- LAYER_DESCRIPTOR_START (R170). -/
  | layerDescriptorStart (d : Nat)
  /-- SCORE_TILE_ARRIVE (R173). -/
  | scoreTileArrive (b q : Nat) (e : Ecc)
  /-- GAUGE_TOKEN_START (R177). -/
  | gaugeTokenStart (d t : Nat)
  /-- SELECTION_READY (R180). -/
  | selectionReady (d t : Nat)
  /-- CAPACITY_WALK_ENTER (R188). -/
  | capacityWalkEnter (d t : Nat)
  /-- OUTBOX_READ (R216). -/
  | outboxRead (l : Nat)
  /-- DOVETAIL_TILE_TRANSFER_DONE (R201). -/
  | dovetailTileTransferDone (j : Nat) (e : Ecc)
  /-- FAB_PORT_ENABLE (R254). -/
  | fabPortEnable (n : Nat) (v : Word) (src : Src)
  /-- FAB_PORT_RESET (R254). -/
  | fabPortReset (n : Nat) (v : Word) (src : Src)
  /-- FAB_PORT_RETRAIN (R257). -/
  | fabPortRetrain (n : Nat) (v : Word) (src : Src)
  /-- FAB_LINK_CFG_WRITE (R259). -/
  | fabLinkCfgWrite (n : Nat) (v : Word) (src : Src)
  /-- LINK_SIGNAL_DETECT (R254). -/
  | linkSignalDetect (n half : Nat)
  /-- EQ_DONE (R254). -/
  | eqDone (n invert : Nat) (eyes : List Nat)
  /-- EQ_TIMEOUT (R254). -/
  | eqTimeout (n : Nat) (clean0 clean1 : Bool) (invert : Nat) (eyes : List Nat)
  /-- IDENT_EXCHANGE (R256). -/
  | identExchange (n : Nat) (ident : Word) (pools : List Nat)
  /-- IDENT_TIMEOUT (R254). -/
  | identTimeout (n : Nat)
  /-- ALIGN_LOCK (R254). -/
  | alignLock (n delay : Nat)
  /-- ALIGN_TIMEOUT (R254). -/
  | alignTimeout (n : Nat)
  /-- RETRAIN_PATTERN_DETECT (R255). -/
  | retrainPatternDetect (n : Nat)
  /-- RETRAIN_LOCK (R255). -/
  | retrainLock (n delay : Nat)
  /-- RETRAIN_TIMEOUT (R254). -/
  | retrainTimeout (n : Nat)
  /-- DOWN_RETRY_EXPIRE (R254). -/
  | downRetryExpire (n : Nat)
  /-- FEC_BLOCK_SEND (R245). -/
  | fecBlockSend (n : Nat)
  /-- FEC_BLOCK_RECEIVE (R239). -/
  | fecBlockReceive (n : Nat) (bytes : List Byte)
  /-- REPLAY_TIMER_EXPIRE (R250). -/
  | replayTimerExpire (n : Nat)
  /-- NAK_WAIT_EXPIRE (R249). -/
  | nakWaitExpire (n : Nat)
  /-- FAB_JOB_CTL_START (R275). -/
  | fabJobCtlStart (v : Word) (src : Src)
  /-- FAB_JOB_CTL_TEARDOWN (R276). -/
  | fabJobCtlTeardown (v : Word) (src : Src)
  /-- JOB_START (R274). -/
  | jobStart (n : Nat) (p : Packet)
  /-- TEARDOWN (R276). -/
  | teardown (n : Nat) (p : Packet)
  /-- START_PORTS_READY (R275). -/
  | startPortsReady
  /-- DRAIN_COMPLETE (R276). -/
  | drainComplete
  /-- DRAIN_TIMEOUT (R276). -/
  | drainTimeout
  /-- FAB_RANK_DATA_ACCESS (R268). -/
  | fabRankDataAccess (a : Access) (src : Src)
  /-- FAB_PLANE_DATA_ACCESS (R269). -/
  | fabPlaneDataAccess (a : Access) (src : Src)
  /-- FAB_TREE_DATA_ACCESS (R281). -/
  | fabTreeDataAccess (a : Access) (src : Src)
  /-- CHUNK (R295). -/
  | chunk (n : Nat) (p : Packet)
  /-- EMPTY (R295). -/
  | empty (n : Nat) (p : Packet)
  /-- ACK (R294). -/
  | ack (n : Nat) (p : Packet)
  /-- SNACK (R294). -/
  | snack (n : Nat) (p : Packet)
  /-- XPORT_SYNC (R306). -/
  | xportSync (n : Nat) (p : Packet)
  /-- V2_CELL_PACKET (R153). -/
  | v2CellPacket (n : Nat) (p : Packet)
  /-- XPORT_ACK_TIMER (R296). -/
  | xportAckTimer (r c : Nat)
  /-- RTO_EXPIRE (R294). -/
  | rtoExpire (r c : Nat)
  /-- FABRIC_TILE_TRANSFER_DONE (R537). -/
  | fabricTileTransferDone (j : Nat) (e : Ecc)
  /-- FAB_XDESC_DATA_ACCESS (R283). -/
  | fabXdescDataAccess (a : Access) (src : Src)
  /-- FAB_TREE_FAILED_CLEAR (R312). -/
  | fabTreeFailedClear (v : Word) (src : Src)
  /-- RESEND (R311). -/
  | resend (n : Nat) (p : Packet)
  /-- REATTACH (R311). -/
  | reattach (n : Nat) (p : Packet)
  /-- TREE_FAIL (R312). -/
  | treeFail (n : Nat) (p : Packet)
  /-- TREE_TIMEOUT (R310). -/
  | treeTimeout (t : Nat)
  /-- COL_START (R325). -/
  | colStart (v : Word) (src : Src)
  /-- COLLECTIVE_SLOT_GRANTED (R331). -/
  | collectiveSlotGranted (c : Nat)
  /-- SLOT_WAIT_TIMEOUT (R331). -/
  | slotWaitTimeout (c : Nat)
  /-- OPEN_LIMIT_TIMEOUT (R345). -/
  | openLimitTimeout (g gseq : Nat)
  /-- ABORT (R346). -/
  | abort (n : Nat) (p : Packet)
  /-- COL_GROUP_DATA_ACCESS (R317). -/
  | colGroupDataAccess (a : Access) (src : Src)
  /-- COL_LIST_DATA_ACCESS (R318). -/
  | colListDataAccess (a : Access) (src : Src)
  /-- COL_DESC_DATA_ACCESS (R320). -/
  | colDescDataAccess (a : Access) (src : Src)
  /-- COL_GSEQ_DATA_WRITE (R348). -/
  | colGseqDataWrite (v : Word) (src : Src)
  /-- CTX_CTL_START (R352). -/
  | ctxCtlStart (c : Nat) (v : Word) (src : Src)
  /-- CTX_CTL_TEARDOWN (R350). -/
  | ctxCtlTeardown (c : Nat) (v : Word) (src : Src)
  /-- TEARDOWN_SLOT_RELEASE (R366). -/
  | teardownSlotRelease (c : Nat)
  /-- HOLD_TIMEOUT (R364). -/
  | holdTimeout (c : Nat)
  /-- CTX_BENCH_DATA_ACCESS (R354). -/
  | ctxBenchDataAccess (a : Access) (src : Src)
  /-- CTX_SEM_DATA_WRITE (R359). -/
  | ctxSemDataWrite (v : Word) (src : Src)
  /-- DET_CLAMP_CTL_WRITE (R381). -/
  | detClampCtlWrite (v : Word) (src : Src)
  /-- CLAMP_PACKET_SEND (R383). -/
  | clampPacketSend
  /-- CLAMP (R384). -/
  | clamp (n : Nat) (p : Packet)
  /-- DET_CLAMP_FIRST_CLEAR (R384). -/
  | detClampFirstClear (v : Word) (src : Src)
  /-- DET_TCC_FIRST_CLEAR (R378). -/
  | detTccFirstClear (c : Nat) (v : Word) (src : Src)
  /-- DET_MARK_CFG_WRITE (R393). -/
  | detMarkCfgWrite (v : Word) (src : Src)
  /-- DET_MARK_CTL_ARRIVE (R387). -/
  | detMarkCtlArrive (v : Word) (src : Src)
  /-- DET_MARK_CTL_CANCEL (R392). -/
  | detMarkCtlCancel (v : Word) (src : Src)
  /-- ARRIVE (R387). -/
  | arrive (n : Nat) (p : Packet)
  /-- MARK (R388). -/
  | mark (n : Nat) (p : Packet)
  /-- TWIN_MARK (R389). -/
  | twinMark (n : Nat) (p : Packet)
  /-- MARK_RELEASE (R390). -/
  | markRelease
  /-- MARK_WAIT_TIMEOUT (R392). -/
  | markWaitTimeout
  /-- JIG_LOAD_COMPLETE (R399). -/
  | jigLoadComplete (readsOk : Bool)
  /-- JIG_CTL_PROGRAM (R401). -/
  | jigCtlProgram (v : Word) (src : Src)
  /-- PROGRAM_COMPLETE (R401). -/
  | programComplete (ok : Bool)
  /-- JIG_CTL_RESUME (R413). -/
  | jigCtlResume (v : Word) (src : Src)
  /-- JIG_GLUE_DRYFIT (R407). -/
  | jigGlueDryfit (v : Word) (src : Src)
  /-- DRYFIT_COMPLETE (R407). -/
  | dryfitComplete
  /-- JIG_GLUE_GO (R408). -/
  | jigGlueGo (v : Word) (src : Src)
  /-- GLUE_FETCH_DONE (R408). -/
  | glueFetchDone (tiles : Option (List Tile))
  /-- JIG_GLUE_CANCEL (R408). -/
  | jigGlueCancel (v : Word) (src : Src)
  /-- GLUE_STOP_DONE (R408). -/
  | glueStopDone
  /-- GLUE_STOP_TIMEOUT (R408). -/
  | glueStopTimeout
  /-- GLUE_VOTE_TIMEOUT (R408). -/
  | glueVoteTimeout
  /-- AUX_GOOD (R421). -/
  | auxGood (mv : Nat)
  /-- AUX_LOST (R423). -/
  | auxLost
  /-- MAIN_GOOD (R424). -/
  | mainGood (mv : Nat)
  /-- MAIN_LOST (R422). -/
  | mainLost (drop : Bool)
  /-- COLD_RESET_RELEASE (R428). -/
  | coldResetRelease (slot : Nat)
  /-- RURIL_TRAIN_DONE (R424). -/
  | rurilTrainDone
  /-- TRAIN_COMPLETE (R420). -/
  | trainComplete
  /-- TRAIN_TIMEOUT (R420). -/
  | trainTimeout
  /-- GLB_STATE_CTL_STOP (R420). -/
  | glbStateCtlStop (v : Word) (src : Src)
  /-- REF_LOST (R427). -/
  | refLost
  /-- ROOT_UNLOCK (R427). -/
  | rootUnlock
  /-- CLOCK_FAULT (R427). -/
  | clockFault (dom : Nat)
  /-- REGULATOR_FAULT (R420). -/
  | regulatorFault
  /-- LANE_PLL_UNLOCK (R427). -/
  | lanePllUnlock (n : Nat)
  /-- HOST_PLL_UNLOCK (R427). -/
  | hostPllUnlock
  /-- MOD_RESET_N_ASSERT (R429). -/
  | modResetNAssert
  /-- GLB_RESET_CTL_WARM (R429). -/
  | glbResetCtlWarm (v : Word) (src : Src)
  /-- WARM_RESET_RELEASE (R430). -/
  | warmResetRelease (slot : Nat)
  /-- PERST_N_ASSERT (R432). -/
  | perstNAssert
  /-- PERST_N_RELEASE (R432). -/
  | perstNRelease
  /-- GLB_SUPPLY_AUX_LOST_CLEAR (R423). -/
  | glbSupplyAuxLostClear (v : Word) (src : Src)
  /-- CTX_RESET (R433). -/
  | ctxReset (c : Nat) (v : Word) (src : Src)
  /-- CTX_RESET_COMPLETE (R433). -/
  | ctxResetComplete (c : Nat)
  /-- HOST_LINK_TRAINED (R439). -/
  | hostLinkTrained (rate width : Nat)
  /-- HOST_LINK_RETRY_TIMER (R439). -/
  | hostLinkRetryTimer
  /-- HOST_LINK_LOSS (R460). -/
  | hostLinkLoss
  /-- HOT_RESET (R459). -/
  | hotReset
  /-- LINK_DISABLE (R459). -/
  | linkDisable
  /-- FLR (R459). -/
  | flr
  /-- CXL_MEM_READ (R445). -/
  | cxlMemRead (addr : Nat) (e : Ecc)
  /-- CXL_MEM_WRITE (R443). -/
  | cxlMemWrite (addr : Nat) (data : List Byte) (be : Nat)
  /-- H2D_SNOOP (R446). -/
  | h2dSnoop
  /-- IR_TAIL (R449). -/
  | irTail (r : Nat) (v : Word) (src : Src)
  /-- INTAKE_FETCH_DONE (R450). -/
  | intakeFetchDone (r : Nat) (data : Option (List Byte))
  /-- CR_HEAD (R454). -/
  | crHead (r : Nat) (v : Word) (src : Src)
  /-- GLB_HIF_IR_CFG_WRITE (R448). -/
  | glbHifIrCfgWrite (r : Nat) (v : Word) (src : Src)
  /-- GLB_HIF_CR_CFG_WRITE (R454). -/
  | glbHifCrCfgWrite (r : Nat) (v : Word) (src : Src)
  /-- HOST_READ_TIMEOUT (R447). -/
  | hostReadTimeout (x : HostRead)
  /-- MSIX_COALESCE_EXPIRE (R456). -/
  | msixCoalesceExpire (r : Nat)
  /-- DOE_DISCOVERY (R457). -/
  | doeDiscovery (idx : Nat)
  /-- CDAT_TABLE_ACCESS (R457). -/
  | cdatTableAccess
  /-- GET_CERT (R494). -/
  | getCert (src : Src)
  /-- GET_REPORT (R495). -/
  | getReport (src : Src) (payload : List Byte)
  /-- KEM_START (R497). -/
  | kemStart (src : Src) (payload : List Byte)
  /-- KEM_FINISH (R497). -/
  | kemFinish (src : Src) (ct : List Byte)
  /-- KEM_KEY_EXPIRE (R497). -/
  | kemKeyExpire
  /-- IDE_MAC_FAIL (R458). -/
  | ideMacFail (stream : Nat)
  /-- KILN_CONTROL_PERIOD (R467). -/
  | kilnControlPeriod (power demand : Nat)
  /-- AVS_INTERVAL (R464). -/
  | avsInterval (margins powers : List Nat)
  /-- DROOP_DETECT (R468). -/
  | droopDetect (g : Nat)
  /-- DROOP_HOLD_END (R468). -/
  | droopHoldEnd
  /-- KILN_OVERPOWER (R470). -/
  | kilnOverpower
  /-- ESTORE_FORECAST_SEND (R472). -/
  | estoreForecastSend
  /-- ESTORE_CAP_FRAME (R472). -/
  | estoreCapFrame (bytes : List Byte)
  /-- ESTORE_LOSS_TIMEOUT (R472). -/
  | estoreLossTimeout
  /-- VALVE_LOOP_STEP (R475). -/
  | valveLoopStep (fb : Nat)
  /-- VALVE_FB_MISMATCH (R476). -/
  | valveFbMismatch (fb : Nat)
  /-- THERMAL_SAMPLE (R474). -/
  | thermalSample (inlet outlet jmax : Nat)
  /-- JUNCTION_TRIP (R474). -/
  | junctionTrip
  /-- COOLANT_TRIP (R474). -/
  | coolantTrip
  /-- KLN_WARN_CLEAR (R477). -/
  | klnWarnClear (v : Word) (src : Src)
  /-- KLN_REGISTER_WRITE (R478). -/
  | klnRegisterWrite (off : Nat) (v : Word) (src : Src)
  /-- ENTDAA (R481). -/
  | entdaa (addr : Nat)
  /-- RSTDAA (R481). -/
  | rstdaa
  /-- ENEC (R482). -/
  | enec (bits : Nat)
  /-- DISEC (R481). -/
  | disec (bits : Nat)
  /-- GETPID (R480). -/
  | getpid
  /-- GETBCR (R480). -/
  | getbcr
  /-- GETDCR (R480). -/
  | getdcr
  /-- GETSTATUS (R480). -/
  | getstatus
  /-- GETMWL (R480). -/
  | getmwl
  /-- GETMRL (R480). -/
  | getmrl
  /-- IBI_SEND (R482). -/
  | ibiSend (won : Bool)
  /-- REG_READ (R484). -/
  | regRead (off : Nat)
  /-- REG_WRITE (R484). -/
  | regWrite (off : Nat) (v : Word)
  /-- WIN_WRITE (R486). -/
  | winWrite (addr : Nat) (data : List Byte)
  /-- MBOX_WRITE (R483). -/
  | mboxWrite (addr : Nat) (data : List Byte)
  /-- MBOX_GO (R494). -/
  | mboxGo
  /-- MBOX_READ (R483). -/
  | mboxRead (addr : Nat)
  /-- SIDEBAND_PRIVATE_READ (R483). -/
  | sidebandPrivateRead (num : Nat)
  /-- MGT_TRAY_WRITE (R487). -/
  | mgtTrayWrite (v : Word) (src : Src)
  /-- SEC_FUSE_BURN_SVN (R489). -/
  | secFuseBurnSvn (v : Word) (src : Src)
  /-- SEC_FUSE_BURN_OWNER (R490). -/
  | secFuseBurnOwner (v : Word) (src : Src)
  /-- FUSE_BURN_DONE (R488). -/
  | fuseBurnDone (ok : Bool)
  /-- LOWER_TREE_BUILD_DONE (R493). -/
  | lowerTreeBuildDone
  /-- SIGN_TOKEN_REFILL (R493). -/
  | signTokenRefill (num : Nat)
  /-- ERR_HEAD_WRITE (R528). -/
  | errHeadWrite (v : Word) (src : Src)
  /-- GLB_BAD_FIRST_CLEAR (R523). -/
  | glbBadFirstClear (v : Word) (src : Src)
  /-- REGISTER_WRITE (R8). -/
  | registerWrite (off size : Nat) (v : Word) (src : Src)
  /-- LANE_LOCK_LOST (R257). -/
  | laneLockLost (n l : Nat)
  /-- CBL_3V3_OVERCURRENT (R510). -/
  | cbl3v3Overcurrent (n : Nat)
  /-- CBL_3V3_RETRY (R510). -/
  | cbl3v3Retry (n : Nat)
  /-- CTX_SEM_DATA_READ (R359). -/
  | ctxSemDataRead (src : Src)
  /-- COL_GSEQ_DATA_READ (R348). -/
  | colGseqDataRead (src : Src)
  /-- REGISTER_READ (R6). -/
  | registerRead (off size : Nat) (src : Src)
  /-- CONFIG_SPACE_WRITE (R446). -/
  | configSpaceWrite (x : CfgWrite)
  /-- MSIX_TABLE_WRITE (R456). -/
  | msixTableWrite (idx : Nat) (v : Word)
  /-- SIDEBAND_UNDEFINED_CMD (R483). -/
  | sidebandUndefinedCmd (cmd : Nat)
  deriving DecidableEq, Repr

end Sys2Proof
end

