-- ==== Sys2Proof/Decode.lean ====
section
/-!
DEFINITION. The command that a word spells: the table gives no row of this block any bits, so no word spells a
command.
-/
namespace Sys2Proof

/-- The command whose bits are `w`: none, since every row of the table has an empty list of fields. -/
def decodeTableWord (_nbits _w : Nat) : Option Instr := none

end Sys2Proof
end

