-- ==== Sys2Proof/Config.lean ====
section
/-!
DEFINITION. The values that the spec leaves open: constants without a body, so that no proof can see a value.
-/
namespace Sys2Proof

/-- The code that a codebook encoding writes for an element to which the spec gives no entry: a codebook
with no finite entry, or a CB256 value with no nearest entry beyond the side list's room (R74). Its argument
numbers the event. -/
opaque Config.freeCode : Nat → Nat

/-- The bytes that a transfer delivers from a tile whose stored words cannot be corrected (R86). Its argument
numbers the event. -/
opaque Config.spoiled : Nat → List Byte

/-- The LMS public key of the vendor root, which the boot ROM holds (R398). -/
opaque Config.vendorKey : List Byte

/-- The SHA-256 digest of the boot ROM (R496). -/
opaque Config.bootRomDigest : List Byte

/-- The device certificate at the end of the flash, written at manufacture (R491, R538). -/
opaque Config.certificate : List Byte

/-- The HSS signature that the fused private seed gives for a leaf over some bytes (R491). -/
opaque Config.hssSignature : Nat → List Byte → List Byte

/-- The ML-KEM-1024 encapsulation key of a fresh key pair, by the number of the event (R497). -/
opaque Config.kemKey : Nat → List Byte

/-- The shared secret that a key pair decapsulates from a ciphertext (R497). -/
opaque Config.kemShared : Nat → List Byte → List Byte

/-- RETRY_MS of an answer BUSY: the time until the request can be served (R493). Its argument numbers the event. -/
opaque Config.retryMs : Nat → Nat

/-- How many fuses a burn has blown when one of them fails to read 1 (R488). Its argument numbers the event. -/
opaque Config.fusesBlown : Nat → Nat

end Sys2Proof
end

