-- ==== Sys2Proof/Machine/Bits.lean ====
section
/-!
DEFINITION. Bit fields of words, sparse maps with a default, and byte helpers.
-/
namespace Sys2Proof.Machine

/-! ## Bit fields (R9: a field is written [msb:lsb], bit 0 the least significant) -/

/-- A bit field: its lowest bit and its width. -/
structure Fld where
  lo : Nat
  width : Nat
  deriving DecidableEq, Repr

/-- The value of field `f` in the word `w`. -/
def getF (f : Fld) (w : Word) : Nat := w.toNat / 2 ^ f.lo % 2 ^ f.width

/-- The bits of field `f` set, all others clear. -/
def maskF (f : Fld) : Word := BitVec.ofNat 64 ((2 ^ f.width - 1) * 2 ^ f.lo)

/-- The word `w` with field `f` holding `x` modulo the field's width. -/
def setF (f : Fld) (w : Word) (x : Nat) : Word :=
  (w &&& ~~~(maskF f)) ||| BitVec.ofNat 64 (x % 2 ^ f.width * 2 ^ f.lo)

/-- Whether a field holds a value other than 0. -/
def bitF (f : Fld) (w : Word) : Bool := getF f w != 0

/-- 1 for true, 0 for false. -/
def b2n (b : Bool) : Nat := if b then 1 else 0

/-- Bits `hi` to `lo` of a natural number. -/
def bitsOf (n hi lo : Nat) : Nat := n / 2 ^ lo % 2 ^ (hi + 1 - lo)

/-- Bit `i` of a natural number. -/
def bitAt (n i : Nat) : Bool := n / 2 ^ i % 2 == 1

/-- A `w`-bit field read as a two's complement number. -/
def signExt (w n : Nat) : Int := if n % 2 ^ w < 2 ^ (w - 1) then (n % 2 ^ w : Nat) else ((n % 2 ^ w : Nat) : Int) - (2 ^ w : Nat)

/-- An integer modulo 2^32. -/
def wrap32 (i : Int) : Nat := (i % (2 ^ 32 : Nat)).toNat

/-! ## Sparse maps

A map from natural numbers with a default value for every key: a list of (key, value) pairs with the
keys strictly rising and no value equal to its key's default. `smGet` and `smPut` obey the laws of
reading after writing on every list, and keep that form where it holds. -/

/-- A sparse map: (key, value) pairs, keys strictly rising, no value equal to the default. -/
abbrev SMap (α : Type) := List (Nat × α)

/-- The value at key `k`, or the default `d k` where the map lists none. -/
def smGet {α : Type} (d : Nat → α) (m : SMap α) (k : Nat) : α :=
  match m.find? (fun p => p.1 == k) with
  | some p => p.2
  | none => d k

/-- The map with value `v` at key `k`; the default value is not listed. -/
def smPut {α : Type} [DecidableEq α] (d : Nat → α) (m : SMap α) (k : Nat) (v : α) : SMap α :=
  m.filter (fun p => p.1 < k) ++ (if v = d k then [] else [(k, v)]) ++ m.filter (fun p => k < p.1)

/-- The canonical form of a sparse map. -/
def smWf {α : Type} [DecidableEq α] (d : Nat → α) (m : SMap α) : Bool :=
  decide (m.Pairwise (fun p q => p.1 < q.1)) && m.all (fun p => decide (p.2 ≠ d p.1))

/-- The map without the keys that `p` selects: each reads as its default again. -/
def smDrop {α : Type} (p : Nat → Bool) (m : SMap α) : SMap α := m.filter (fun x => !p x.1)

/-! ## Byte memories -/

/-- The cells of a run of bytes placed at `a`; bytes of value 0 are not listed. -/
def cellsOf (a : Nat) : List Byte → SMap Byte
  | [] => []
  | b :: bs => if b = 0 then cellsOf (a + 1) bs else (a, b) :: cellsOf (a + 1) bs

/-- One byte of a memory whose unlisted bytes read 0 (R87, R116: the device writes its memories to 0). -/
def memByte (m : SMap Byte) (a : Nat) : Byte := smGet (fun _ => 0) m a

/-- The memory with the bytes `bs` at `a` onward. -/
def memWrite (m : SMap Byte) (a : Nat) (bs : List Byte) : SMap Byte :=
  m.filter (fun p => p.1 < a) ++ cellsOf a bs ++ m.filter (fun p => a + bs.length ≤ p.1)

/-- Walk a rising list of cells and give the `n` bytes at `a` onward. -/
def walkBytes : Nat → Nat → SMap Byte → List Byte
  | 0, _, _ => []
  | n + 1, a, [] => 0 :: walkBytes n (a + 1) []
  | n + 1, a, (k, v) :: m => if k = a then v :: walkBytes n (a + 1) m else 0 :: walkBytes n (a + 1) ((k, v) :: m)

/-- The `n` bytes of a memory at `a` onward. -/
def memRead (m : SMap Byte) (a n : Nat) : List Byte :=
  walkBytes n a (m.filter (fun p => a ≤ p.1 && p.1 < a + n))

/-- Little-endian value of a byte list. -/
def leNat : List Byte → Nat
  | [] => 0
  | b :: bs => b.toNat + 256 * leNat bs

/-- The `n` little-endian bytes of a number. -/
def leBytes : Nat → Nat → List Byte
  | 0, _ => []
  | n + 1, v => BitVec.ofNat 8 v :: leBytes n (v / 256)

/-- Bytes `off` to `off + n - 1` of a byte list, 0 beyond its end. -/
def subBytes (bs : List Byte) (off n : Nat) : List Byte :=
  (bs.drop off).take n ++ List.replicate (n - (bs.drop off).length) 0

/-- A byte list with `new` written at offset `off`. -/
def putBytes (bs : List Byte) (off : Nat) (new : List Byte) : List Byte :=
  bs.take off ++ new ++ bs.drop (off + new.length)

/-- Little-endian number of `n` bytes at `off`. -/
def leAt (bs : List Byte) (off n : Nat) : Nat := leNat (subBytes bs off n)

/-- The first `n` numbers. -/
abbrev upto (n : Nat) : List Nat := List.range n

/-- Positions of the set bits of a mask below `n`, ascending. -/
def setBits (n mask : Nat) : List Nat := (upto n).filter (fun i => bitAt mask i)

/-! ## CRC-32C (R91) -/

/-- Eight steps of the reflected CRC-32C register. -/
def crcByte (c : Nat) (b : Nat) : Nat :=
  let step := fun (x : Nat) => if x % 2 == 1 then (x / 2) ^^^ 0x82F63B78 else x / 2
  step (step (step (step (step (step (step (step (c ^^^ b))))))))

/-- CRC-32C of a byte list (R91). -/
def crc32c (bs : List Byte) : Nat :=
  (bs.foldl (fun c b => crcByte c b.toNat) 0xFFFFFFFF) ^^^ 0xFFFFFFFF

end Sys2Proof.Machine
end

