-- ==== Sys2Proof/Machine/Num.lean ====
section
/-!
DEFINITION. Number formats, exact values and rounding (spec/02_number_formats.md, R57 to R77).
Every value is exact: a dyadic rational with its sign, an infinity or NaN.
-/
namespace Sys2Proof.Machine

/-- An exact value (R60): NaN, a signed infinity, or plus or minus `mant` times 2 to the `exp`.
A zero keeps its sign. -/
inductive FVal where
  | nan
  | inf (neg : Bool)
  | fin (neg : Bool) (mant : Nat) (exp : Int)
  deriving DecidableEq, Repr

/-! ## Exception flags (R78, R80): bit 0 INVALID, 1 DIVIDE_BY_ZERO, 2 OVERFLOW, 3 UNDERFLOW, 4 INEXACT,
5 FLUSH, 6 ESC_LOST -/

/-- INVALID. -/
def flInvalid : Nat := 1
/-- DIVIDE_BY_ZERO. -/
def flDivZero : Nat := 2
/-- OVERFLOW. -/
def flOverflow : Nat := 4
/-- UNDERFLOW. -/
def flUnderflow : Nat := 8
/-- INEXACT. -/
def flInexact : Nat := 16
/-- FLUSH (R69). -/
def flFlush : Nat := 32
/-- ESC_LOST (R74). -/
def flEscLost : Nat := 64

/-! ## Format codes (R57) -/

def fmtFP32 : Nat := 0x01
def fmtBF16 : Nat := 0x02
def fmtFP16 : Nat := 0x03
def fmtE4M3 : Nat := 0x04
def fmtE5M2 : Nat := 0x05
def fmtCB16 : Nat := 0x08
def fmtCB256 : Nat := 0x09
def fmtBSE4M3 : Nat := 0x0C
def fmtBSE5M2 : Nat := 0x0D

/-- Whether a format code is defined (R57). -/
def fmtDefined (f : Nat) : Bool := [0x01, 0x02, 0x03, 0x04, 0x05, 0x08, 0x09, 0x0C, 0x0D].contains f

/-- Row width of a format (R16); 0 for an undefined code. -/
def rowWidth (f : Nat) : Nat :=
  if f = fmtFP32 then 32
  else if f = fmtBF16 ∨ f = fmtFP16 ∨ f = fmtCB256 then 16
  else if f = fmtCB16 then 4
  else if fmtDefined f then 8 else 0

/-- Row width of a held vector: CB16 and CB256 are held as BF16 (R27). -/
def heldWidth (f : Nat) : Nat := if f = fmtCB16 then 16 else rowWidth f

/-- Elements that a 4 KiB tile holds in a format, `side` being its tag's byte 6 (R64, R73). -/
def tileElems (f side : Nat) : Nat :=
  if f = fmtFP32 then 1024
  else if f = fmtBF16 ∨ f = fmtFP16 then 2048
  else if f = fmtCB16 then 8192
  else if f = fmtCB256 then (if side = 0 then 4096 else side * 16)
  else if f = fmtBSE4M3 ∨ f = fmtBSE5M2 then 3968
  else if fmtDefined f then 4096 else 0

/-- Most elements that a tile of a destination format can hold (the capacity of DFMT, R47). -/
def fmtCapacity (f : Nat) : Nat := tileElems f 0

/-! ## Floating-point element formats (R58) -/

/-- A floating-point layout: exponent bits, fraction bits, bias, and whether it has infinities. -/
structure FFmt where
  eb : Nat
  mb : Nat
  bias : Nat
  hasInf : Bool
  deriving DecidableEq, Repr

def fp32 : FFmt := ⟨8, 23, 127, true⟩
def bf16 : FFmt := ⟨8, 7, 127, true⟩
def fp16 : FFmt := ⟨5, 10, 15, true⟩
def e4m3 : FFmt := ⟨4, 3, 7, false⟩
def e5m2 : FFmt := ⟨5, 2, 15, true⟩

/-- The layout of a format's elements; the block-scaled formats have those of their elements. -/
def layoutOf (f : Nat) : FFmt :=
  if f = fmtFP32 then fp32
  else if f = fmtBF16 ∨ f = fmtCB16 ∨ f = fmtCB256 then bf16
  else if f = fmtFP16 then fp16
  else if f = fmtE4M3 ∨ f = fmtBSE4M3 then e4m3
  else e5m2

/-- The canonical NaN of a layout (R59). -/
def qnan (f : FFmt) : Nat :=
  if f.hasInf && f.mb != 2 then (2 ^ f.eb - 1) * 2 ^ f.mb + 2 ^ (f.mb - 1) else 0x7F

/-- The bits of plus infinity. -/
def infBits (f : FFmt) : Nat := (2 ^ f.eb - 1) * 2 ^ f.mb

/-- The bits of the largest finite value (R58). -/
def maxBits (f : FFmt) : Nat := if f.hasInf then infBits f - 1 else 0x7E

/-- The overflow threshold of R62 as a mantissa and an exponent of 2. -/
def ovfThreshold (f : FFmt) : Nat × Int :=
  if f.hasInf then (2 ^ (f.mb + 2) - 1, (2 ^ f.eb - 1 - f.bias - 1 : Nat) - (f.mb + 1 : Nat))
  else (464, 0)

/-- Decode the bits of an element to its exact value (R60). -/
def decodeF (f : FFmt) (b : Nat) : FVal :=
  let s := b / 2 ^ (f.eb + f.mb) % 2 == 1
  let e := b / 2 ^ f.mb % 2 ^ f.eb
  let m := b % 2 ^ f.mb
  if f.hasInf && e == 2 ^ f.eb - 1 then (if m = 0 then .inf s else .nan)
  else if !f.hasInf && b % 128 == 127 then .nan
  else if e = 0 then .fin s m (1 - (f.bias : Int) - f.mb)
  else .fin s (m + 2 ^ f.mb) ((e : Int) - f.bias - f.mb)

/-- `m * 2^e ≥ n * 2^d`, for `m` and `n` not 0. -/
def dyGe (m : Nat) (e : Int) (n : Nat) (d : Int) : Bool :=
  if (Nat.log2 m : Int) + e > (Nat.log2 n : Int) + d then true
  else if (Nat.log2 m : Int) + e < (Nat.log2 n : Int) + d then false
  else if e ≥ d then decide (n ≤ m * 2 ^ (e - d).toNat) else decide (n * 2 ^ (d - e).toNat ≤ m)

/-- Round `m * 2^k` to the nearest integer, ties away from zero, and say whether that was exact. -/
def roundShift (m : Nat) (k : Int) : Nat × Bool :=
  if k ≥ 0 then (m * 2 ^ k.toNat, true)
  else if (-k).toNat ≥ Nat.log2 m + 2 then (0, m == 0)
  else
    let d := (-k).toNat
    ((m + 2 ^ (d - 1)) / 2 ^ d, m % 2 ^ d == 0)

/-- Encode a finite magnitude `m * 2^e` with sign `neg`: the bits and the flags (R63). -/
def encodeFin (f : FFmt) (neg : Bool) (m : Nat) (e : Int) : Nat × Nat :=
  let s := b2n neg * 2 ^ (f.eb + f.mb)
  let thr := ovfThreshold f
  if m = 0 then (s, 0)
  else if dyGe m e thr.1 thr.2 then
    ((if f.hasInf then s + infBits f else s + maxBits f), flOverflow + flInexact)
  else
    let lg : Int := (Nat.log2 m : Int) + e
    let lo : Int := 1 - (f.bias : Int)
    let ex := max lg lo
    let nq := roundShift m (e - (ex - f.mb))
    let fl := if nq.2 then 0 else flInexact + (if lg < lo then flUnderflow else 0)
    let (n, ex) := if nq.1 = 2 ^ (f.mb + 1) then (2 ^ f.mb, ex + 1) else (nq.1, ex)
    if n < 2 ^ f.mb then (s + n, fl)
    else (s + (ex + f.bias).toNat * 2 ^ f.mb + (n - 2 ^ f.mb), fl)

/-- Encode an exact value into a floating-point format: its bits and the flags raised (R63). -/
def encodeF (f : FFmt) : FVal → Nat × Nat
  | .nan => (qnan f, 0)
  | .inf neg => if f.hasInf then (b2n neg * 2 ^ (f.eb + f.mb) + infBits f, 0) else (qnan f, flInvalid)
  | .fin neg m e => encodeFin f neg m e

/-! ## Exact arithmetic -/

/-- The exact value times a power of 2. -/
def scaleF (k : Int) : FVal → FVal
  | .fin n m e => .fin n m (e + k)
  | v => v

/-- Minus the value; NaN keeps no sign. -/
def negF : FVal → FVal
  | .nan => .nan
  | .inf n => .inf (!n)
  | .fin n m e => .fin (!n) m e

/-- Whether a value is NaN. -/
def isNan : FVal → Bool
  | .nan => true
  | _ => false

/-- Whether a value is an infinity. -/
def isInf : FVal → Bool
  | .inf _ => true
  | _ => false

/-- The sign of a value. -/
def signF : FVal → Bool
  | .nan => false
  | .inf n => n
  | .fin n _ _ => n

/-- Whether a value is a zero of either sign. -/
def isZeroF : FVal → Bool
  | .fin _ 0 _ => true
  | _ => false

/-- The exact product, with NaN for 0 times infinity. -/
def mulExact : FVal → FVal → FVal
  | .nan, _ => .nan
  | _, .nan => .nan
  | .inf a, .inf b => .inf (a != b)
  | .inf a, .fin b m _ => if m = 0 then .nan else .inf (a != b)
  | .fin a m _, .inf b => if m = 0 then .nan else .inf (a != b)
  | .fin a m e, .fin b n d => .fin (a != b) (m * n) (e + d)

/-- Whether a product is 0 times infinity. -/
def zeroTimesInf (a b : FVal) : Bool := (isZeroF a && isInf b) || (isInf a && isZeroF b)

/-- The signed mantissa of a finite value at exponent `d`, which is not above its own. -/
def alignTo (d : Int) : FVal → Int
  | .fin n m e => (if n then -1 else 1) * ((m * 2 ^ (e - d).toNat : Nat) : Int)
  | _ => 0

/-- The exponent of a finite value. -/
def expF : FVal → Int
  | .fin _ _ e => e
  | _ => 0

/-- The exact sum of finite values: minus zero only when every term is minus zero (R76). -/
def sumFin (vs : List FVal) : FVal :=
  let d := vs.foldl (fun a v => min a (expF v)) 0
  let t := vs.foldl (fun a v => a + alignTo d v) 0
  if t = 0 then .fin (vs.all (fun v => signF v)) 0 0
  else .fin (decide (t < 0)) t.natAbs d

/-- Round an exact value to FP32 and read it back, with the flags (R61). -/
def rnta (v : FVal) : FVal × Nat :=
  let r := encodeF fp32 v
  (decodeF fp32 r.1, r.2)

/-- The sum rule of R76 over the exact terms, before rounding: the exact result and INVALID.
`bad` says that some product was 0 times infinity. -/
def sumTerms (bad : Bool) (terms : List FVal) : FVal × Nat :=
  let infs := terms.filter isInf
  let invalid := bad || (infs.any signF && infs.any (fun v => !signF v))
  if invalid then (.nan, flInvalid)
  else if terms.any isNan then (.nan, 0)
  else match infs with
    | v :: _ => (v, 0)
    | [] => (sumFin terms, 0)

/-- The sum of terms rounded once to FP32 bits, with the flags (R76). -/
def dotRound (bad : Bool) (terms : List FVal) : Nat × Nat :=
  let s := sumTerms bad terms
  let r := encodeF fp32 s.1
  (r.1, s.2 ||| r.2)

/-- One lane's accumulate: `acc` plus the products of the pairs, rounded once (R76). -/
def laneAdd (acc : FVal) (pairs : List (FVal × FVal)) : Nat × Nat :=
  dotRound (pairs.any (fun p => zeroTimesInf p.1 p.2)) (acc :: pairs.map (fun p => mulExact p.1 p.2))

/-- One FP32 basic step: the exact sum rounded (R32, R61). -/
def addStep (a b : FVal) : FVal × Nat :=
  let r := dotRound false [a, b]
  (decodeF fp32 r.1, r.2)

/-- One FP32 basic step: the exact difference rounded. -/
def subStep (a b : FVal) : FVal × Nat := addStep a (negF b)

/-- One FP32 basic step: the exact product rounded; 0 times infinity raises INVALID. -/
def mulStep (a b : FVal) : FVal × Nat :=
  if zeroTimesInf a b then (.nan, flInvalid) else rnta (mulExact a b)

/-- Numeric order of two values that are not NaN: `a < b`; zeros of either sign are equal. -/
def ltF (a b : FVal) : Bool :=
  match a, b with
  | .nan, _ => false
  | _, .nan => false
  | .inf x, .inf y => x && !y
  | .inf x, _ => x
  | _, .inf y => !y
  | .fin n m e, .fin k p d =>
    let q := min e d
    decide (alignTo q (.fin n m e) < alignTo q (.fin k p d))

/-- The larger value: NaN when either is NaN, and plus zero of two zeros of unlike sign (R179, R341). -/
def maxF (a b : FVal) : FVal :=
  if isNan a || isNan b then .nan
  else if ltF a b then b
  else if ltF b a then a
  else if signF a then b else a

/-- The smaller value: NaN when either is NaN, and minus zero of two zeros of unlike sign (R341). -/
def minF (a b : FVal) : FVal :=
  if isNan a || isNan b then .nan
  else if ltF a b then a
  else if ltF b a then b
  else if signF a then a else b

/-- The value of FP32 bits. -/
def f32 (b : Nat) : FVal := decodeF fp32 b

/-- The FP32 bits of a value that FP32 holds exactly, or its rounding. -/
def toF32 (v : FVal) : Nat := (encodeF fp32 v).1

/-- A natural number as an exact value. -/
def ofNatF (n : Nat) : FVal := .fin false n 0

/-! ## Block scales (R66 to R69) -/

/-- The value of a block-scaled element with scale code `c` (R67). -/
def bsValue (lay : FFmt) (c elem : Nat) : FVal :=
  if c = 0 then .fin false 0 0
  else if c = 0xFF then .nan
  else scaleF ((c : Int) - 127) (decodeF lay elem)

/-- Element bias em of R68: the exponent of the largest binade of the element format. -/
def bsEm (lay : FFmt) : Int := if lay.hasInf then 15 else 8

/-- A value's magnitude. -/
def absF : FVal → FVal
  | .nan => .nan
  | .inf _ => .inf false
  | .fin _ m e => .fin false m e

/-- floor(log2) of a finite non-zero magnitude. -/
def floorLog2 : FVal → Int
  | .fin _ m e => (Nat.log2 m : Int) + e
  | _ => 0

/-- The scale code of a block of 32 values and the flags (R68). -/
def blockScale (lay : FFmt) (xs : List FVal) : Nat × Nat :=
  if xs.any (fun x => isNan x || isInf x) then
    (0xFF, if xs.any isNan then 0 else flInvalid)
  else
    let amax := (xs.map absF).foldl maxF (.fin false 0 0)
    if isZeroF amax then (0, 0)
    else
      let e := floorLog2 amax - bsEm lay
      let thr := ovfThreshold lay
      let e := match scaleF (-e) amax with
        | .fin _ m x => if dyGe m x thr.1 thr.2 then e + 1 else e
        | _ => e
      let e := max e (-126)
      ((e + 127).toNat, 0)

/-- An encoded block: its scale code, its 32 element bytes (empty for a zero block), the flags of each
element, and how many elements were flushed (R68, R69). -/
structure BlockEnc where
  scale : Nat
  elems : List Nat
  flags : List Nat
  flushed : Nat
  deriving DecidableEq, Repr

/-- Encode a block of 32 values (R68, R69). -/
def encodeBlock (lay : FFmt) (xs : List FVal) : BlockEnc :=
  let sc := blockScale lay xs
  if sc.1 = 0xFF then
    let firstInf := xs.findIdx isInf
    ⟨0xFF, List.replicate 32 0, (upto 32).map (fun i => if i = firstInf then sc.2 else 0), 0⟩
  else if sc.1 = 0 then ⟨0, [], List.replicate 32 0, 0⟩
  else
    let e : Int := (sc.1 : Int) - 127
    let enc := xs.map (fun x => encodeF lay (scaleF (-e) x))
    let fl := (xs.zip enc).map (fun p => !isZeroF p.1 && p.2.1 % 128 == 0)
    ⟨sc.1, enc.map (·.1),
      (enc.zip fl).map (fun p => p.1.2 ||| (if p.2 then flUnderflow + flInexact + flFlush else 0)),
      (fl.filter id).length⟩

/-! ## Codebooks (R70 to R74) -/

/-- Entry `c` of a codebook held as BF16 values at byte `base` of its companion's payload. -/
def cbEntry (payload : List Byte) (base c : Nat) : FVal := decodeF bf16 (leAt payload (base + 2 * c) 2)

/-- The entries of a codebook: 16 for CB16 with its record, 255 for CB256. -/
def codebook (fmt rec : Nat) (payload : List Byte) : List FVal :=
  if fmt = fmtCB16 then (upto 16).map (cbEntry payload (64 * rec))
  else (upto 255).map (cbEntry payload 0)

/-- The exact distance of two finite values as a magnitude. -/
def distF (a b : FVal) : FVal := absF (sumFin [a, negF b])

/-- The code of the entry nearest to a finite `x`, a tie to the lower code; entries that are NaN or
infinite are passed over for a finite `x` (R74). `none` when no entry is finite. -/
def nearestCode (book : List FVal) (x : FVal) : Option Nat :=
  let cand := (book.zipIdx).filter (fun p => !isNan p.1 && !isInf p.1)
  (cand.foldl (fun (best : Option (FVal × Nat)) p =>
    let d := distF x p.1
    match best with
    | none => some (d, p.2)
    | some b => if ltF d b.1 then some (d, p.2) else best) none).map (·.2)

/-- The finite entry of largest magnitude among entries with sign `neg`, or any sign when `neg` is none,
lowest code on a tie. -/
def largestCode (book : List FVal) (neg : Option Bool) : Option Nat :=
  let cand := (book.zipIdx).filter (fun p => !isNan p.1 && !isInf p.1 &&
    (match neg with | none => true | some n => signF p.1 == n))
  (cand.foldl (fun (best : Option (FVal × Nat)) p =>
    match best with
    | none => some (absF p.1, p.2)
    | some b => if ltF b.1 (absF p.1) then some (absF p.1, p.2) else best) none).map (·.2)

end Sys2Proof.Machine
end

