-- ==== Sys2Proof/Machine/RegMap.lean ====
section
/-!
DEFINITION. The register index (R524), the fields of every register and table entry, their access codes
(R8) and reset values, as the spec's register tables give them.
-/
namespace Sys2Proof.Machine

/-! ## Register offsets in BAR0 (R521, R524) -/

/-- Mode control. -/
def Reg.BEN_CTL (i : Nat) : Nat := 0x2000000 + i * 0x1000
/-- Sequencer states and program counters. -/
def Reg.BEN_STATUS (i : Nat) : Nat := 0x2000008 + i * 0x1000
/-- Fault record of sequencer 0. -/
def Reg.BEN_FAULT0 (i : Nat) : Nat := 0x2000010 + i * 0x1000
/-- Fault record of sequencer 1. -/
def Reg.BEN_FAULT1 (i : Nat) : Nat := 0x2000018 + i * 0x1000
/-- Trap or continue per exception class; see Number Formats, Conversion and Rounding. -/
def Reg.BEN_EXC_CTL (i : Nat) : Nat := 0x2000020 + i * 0x1000
/-- First offending (bench, lane, token, pass); see Number Formats, Conversion and Rounding. -/
def Reg.BEN_EXC_FIRST (i : Nat) : Nat := 0x2000028 + i * 0x1000
/-- Instruction memory address. -/
def Reg.BEN_IMEM_ADDR (i : Nat) : Nat := 0x2000030 + i * 0x1000
/-- Instruction memory data. -/
def Reg.BEN_IMEM_DATA (i : Nat) : Nat := 0x2000038 + i * 0x1000
/-- Sequencer start. -/
def Reg.BEN_START (i : Nat) : Nat := 0x2000040 + i * 0x1000
/-- Bench reset. -/
def Reg.BEN_RESET (i : Nat) : Nat := 0x2000048 + i * 0x1000
/-- Cycles with any sequencer in RUN or WAIT. -/
def Reg.BEN_CYCLE_COUNT (i : Nat) : Nat := 0x2000050 + i * 0x1000
/-- PASS instructions dispatched. -/
def Reg.BEN_PASS_COUNT (i : Nat) : Nat := 0x2000058 + i * 0x1000
/-- Cycles with a PASS in the MU stage. -/
def Reg.BEN_ROW_BUSY (i : Nat) : Nat := 0x2000060 + i * 0x1000
/-- Cycles with the Shave path reading. -/
def Reg.BEN_SHAVE_BUSY (i : Nat) : Nat := 0x2000068 + i * 0x1000
/-- Cycles with the Sander unit accepting elements. -/
def Reg.BEN_SAND_BUSY (i : Nat) : Nat := 0x2000070 + i * 0x1000
/-- Gather points at which INVALID was raised (R79). -/
def Reg.CTX_EXC_INVALID (i : Nat) : Nat := 0x0C00400 + i * 0x1000
/-- Gather points at which DIVIDE_BY_ZERO was raised. -/
def Reg.CTX_EXC_DIVZERO (i : Nat) : Nat := 0x0C00408 + i * 0x1000
/-- Gather points at which OVERFLOW was raised. -/
def Reg.CTX_EXC_OVERFLOW (i : Nat) : Nat := 0x0C00410 + i * 0x1000
/-- Gather points at which UNDERFLOW was raised. -/
def Reg.CTX_EXC_UNDERFLOW (i : Nat) : Nat := 0x0C00418 + i * 0x1000
/-- Gather points at which INEXACT was raised. -/
def Reg.CTX_EXC_INEXACT (i : Nat) : Nat := 0x0C00420 + i * 0x1000
/-- Flushed block-scaled elements (R69). -/
def Reg.CTX_UNDERFLOW_FLUSH (i : Nat) : Nat := 0x0C00428 + i * 0x1000
/-- CB256 escapes not kept (R74). -/
def Reg.CTX_ESC_LOST (i : Nat) : Nat := 0x0C00430 + i * 0x1000
/-- Floor descriptor index. -/
def Reg.BEN_FDESC_ADDR (i : Nat) : Nat := 0x2000078 + i * 0x1000
/-- Floor descriptor at the index. -/
def Reg.BEN_FDESC_DATA (i : Nat) : Nat := 0x2000080 + i * 0x1000
/-- Corrections made by reads of SRAM and tags. -/
def Reg.BEN_SRAM_ECC_CORR (i : Nat) : Nat := 0x2000088 + i * 0x1000
/-- Checksum failures. -/
def Reg.BEN_TILE_CHECK_FAIL (i : Nat) : Nat := 0x2000090 + i * 0x1000
/-- Re-fetches started. -/
def Reg.BEN_TILE_REFETCH (i : Nat) : Nat := 0x2000098 + i * 0x1000
/-- First checksum failure. -/
def Reg.BEN_CHECK_FIRST (i : Nat) : Nat := 0x20000A0 + i * 0x1000
/-- System slots of the bench port. -/
def Reg.BEN_FLOOR_SYS (i : Nat) : Nat := 0x20000A8 + i * 0x1000
/-- Arm and disarm. -/
def Reg.GLB_FLOOR_CTL : Nat := 0x0000100
/-- Arming state and result. -/
def Reg.GLB_FLOOR_STATUS : Nat := 0x0000108
/-- Descriptor index and word. -/
def Reg.TIR_OBJ_ADDR : Nat := 0x0800000
/-- Descriptor word at TIR_OBJ_ADDR. -/
def Reg.TIR_OBJ_DATA : Nat := 0x0800008
/-- Request, first word. -/
def Reg.TIR_REQ0 : Nat := 0x0800010
/-- Request, second word; a write submits. -/
def Reg.TIR_REQ1 : Nat := 0x0800018
/-- Cycle in which the current step began. -/
def Reg.TIR_STEP_START : Nat := 0x0800020
/-- Recovery timeout. -/
def Reg.TIR_RECOVER_CTL : Nat := 0x0800028
/-- First poisoned tile. -/
def Reg.TIR_POISON_FIRST : Nat := 0x0800030
/-- PROMOTE requests accepted. -/
def Reg.TIR_PROMOTE_COUNT : Nat := 0x0800038
/-- Tiles promoted or re-fetched. -/
def Reg.TIR_TILES_IN : Nat := 0x0800040
/-- Tiles written back. -/
def Reg.TIR_TILES_OUT : Nat := 0x0800048
/-- Misses under R134. -/
def Reg.TIR_DEADLINE_MISS : Nat := 0x0800050
/-- Evictions deferred by pins. -/
def Reg.TIR_EVICT_DEFER : Nat := 0x0800058
/-- Refused requests and Mitre refusals. -/
def Reg.TIR_BAD_REQ : Nat := 0x0800060
/-- Poisoning events under R136. -/
def Reg.TIR_POISON_EVENTS : Nat := 0x0800068
/-- PROMOTE requests that found the object POISONED. -/
def Reg.TIR_POISON_MISS : Nat := 0x0800070
/-- Recoveries completed. -/
def Reg.TIR_RECOVERED : Nat := 0x0800078
/-- Writes lost under R132. -/
def Reg.TIR_LATE_WRITE : Nat := 0x0800080
/-- Host writes dropped under R123. -/
def Reg.TIR_HOST_WRITE_DROP : Nat := 0x0800088
/-- Corrected errors in stack s, s = 0–7. -/
def Reg.TIR_ECC_CORR (i : Nat) : Nat := 0x0800100 + i * 0x8
/-- Uncorrectable errors in stack s, s = 0–7. -/
def Reg.TIR_ECC_UNCORR (i : Nat) : Nat := 0x0800140 + i * 0x8
/-- Misses of PROMOTE requests with CTX = c. -/
def Reg.CTX_TIER_MISS (i : Nat) : Nat := 0x0C00438 + i * 0x1000
/-- Pool base, length and descriptor base. -/
def Reg.BPM_POOL : Nat := 0x0A00000
/-- Pool initialisation. -/
def Reg.BPM_POOL_CTL : Nat := 0x0A00008
/-- First free buffer. -/
def Reg.BPM_FREE_HEAD : Nat := 0x0A00010
/-- Free buffers. -/
def Reg.BPM_FREE_COUNT : Nat := 0x0A00018
/-- Buffer request, first word. -/
def Reg.BPM_REQ0 : Nat := 0x0A00020
/-- Buffer request, second word; a write submits. -/
def Reg.BPM_REQ1 : Nat := 0x0A00028
/-- Outcome of the last software request. -/
def Reg.BPM_RESULT : Nat := 0x0A00030
/-- Step boundary trigger. -/
def Reg.BPM_STEP_CTL : Nat := 0x0A00038
/-- Software boundary trigger. -/
def Reg.BPM_STEP_END : Nat := 0x0A00040
/-- Boundary state and step number. -/
def Reg.BPM_STEP_STATUS : Nat := 0x0A00048
/-- Next admission number. -/
def Reg.BPM_ADMIT_NEXT : Nat := 0x0A00050
/-- Slot record address. -/
def Reg.BPM_SLOT_ADDR : Nat := 0x0A00058
/-- Slot record word. -/
def Reg.BPM_SLOT_DATA : Nat := 0x0A00060
/-- Leave request. -/
def Reg.BPM_SLOT_REQ : Nat := 0x0A00068
/-- Free staging buffers. -/
def Reg.BPM_STAGE_FREE : Nat := 0x0A00070
/-- Refused frees under R147. -/
def Reg.BPM_FREE_REFUSED : Nat := 0x0A00080
/-- Other refused requests. -/
def Reg.BPM_BAD_REQ : Nat := 0x0A00088
/-- ALLOC on an empty pool. -/
def Reg.BPM_ALLOC_FAIL : Nat := 0x0A00090
/-- Joins admitted. -/
def Reg.BPM_JOIN_ADMITTED : Nat := 0x0A00098
/-- Joins posted DEFERRED. -/
def Reg.BPM_JOIN_DEFERRED : Nat := 0x0A000A0
/-- Slots left in phase 2. -/
def Reg.BPM_LEAVES : Nat := 0x0A000A8
/-- Slots parked. -/
def Reg.BPM_PARKED : Nat := 0x0A000B0
/-- TPB and G of context c. -/
def Reg.BPM_CTX_KV (i : Nat) : Nat := 0x0A00800 + i * 0x8
/-- Enable. -/
def Reg.DOV_CTL : Nat := 0x0400000
/-- Run state. -/
def Reg.DOV_STATUS : Nat := 0x0400008
/-- Layer descriptor index and word. -/
def Reg.DOV_LAYER_ADDR : Nat := 0x0400010
/-- Layer descriptor word. -/
def Reg.DOV_LAYER_DATA : Nat := 0x0400018
/-- Selection entry index and word. -/
def Reg.DOV_SEL_ADDR : Nat := 0x0400020
/-- Selection entry word. -/
def Reg.DOV_SEL_DATA : Nat := 0x0400028
/-- Tiles accepted by intake. -/
def Reg.DOV_SCORE_TILES : Nat := 0x0400080
/-- Tiles discarded. -/
def Reg.DOV_INTAKE_DISCARD : Nat := 0x0400088
/-- Tokens with a NaN raw score. -/
def Reg.DOV_SCORE_NAN : Nat := 0x0400090
/-- Tokens skipped. -/
def Reg.DOV_TOKEN_SKIP : Nat := 0x0400098
/-- Choices of a null expert. -/
def Reg.DOV_NULL_COPIES : Nat := 0x04000A0
/-- Copies admitted to a non-home instance. -/
def Reg.DOV_OVF_REPLICA : Nat := 0x04000A8
/-- Copies admitted to a NEXT candidate. -/
def Reg.DOV_OVF_NEXT : Nat := 0x04000B0
/-- Copies dropped. -/
def Reg.DOV_OVF_DROP : Nat := 0x04000B8
/-- Spill copies. -/
def Reg.DOV_OVF_SPILL : Nat := 0x04000C0
/-- Balance updates applied. -/
def Reg.DOV_BAL_UPDATES : Nat := 0x04000C8
/-- Bias updates clamped at BMAX. -/
def Reg.DOV_BIAS_CLAMP : Nat := 0x04000D0
/-- Dovetail ports of context c. -/
def Reg.DOV_CTX_PORTS (i : Nat) : Nat := 0x0400800 + i * 0x20
/-- Gauge units and store share of context c. -/
def Reg.DOV_CTX_GAUGE (i : Nat) : Nat := 0x0400808 + i * 0x20
/-- Tokens per step of context c. -/
def Reg.DOV_CTX_TOKENS (i : Nat) : Nat := 0x0400810 + i * 0x20
/-- Balance loop of context c. -/
def Reg.DOV_CTX_BAL (i : Nat) : Nat := 0x0400818 + i * 0x20
/-- Dispatch descriptor index and word. -/
def Reg.DOV_DISP_ADDR : Nat := 0x0400030
/-- Dispatch descriptor word. -/
def Reg.DOV_DISP_DATA : Nat := 0x0400038
/-- Replica map entry index and word. -/
def Reg.DOV_MAP_ADDR : Nat := 0x0400040
/-- Replica map entry word. -/
def Reg.DOV_MAP_DATA : Nat := 0x0400048
/-- Local expert entry index and word. -/
def Reg.DOV_LOC_ADDR : Nat := 0x0400050
/-- Local expert entry word. -/
def Reg.DOV_LOC_DATA : Nat := 0x0400058
/-- Proposal state. -/
def Reg.DOV_PLACE_STATUS : Nat := 0x0400060
/-- Copies dispatched. -/
def Reg.DOV_COPIES_OUT : Nat := 0x0400100
/-- Copies received. -/
def Reg.DOV_COPIES_IN : Nat := 0x0400108
/-- Parts sent with COUNT 0. -/
def Reg.DOV_HDR_EMPTY : Nat := 0x0400110
/-- Parts forwarded as landing device. -/
def Reg.DOV_FANOUT_PARTS : Nat := 0x0400118
/-- Copies redirected. -/
def Reg.DOV_REDIRECT : Nat := 0x0400120
/-- Copies resolved as SKIP after a miss. -/
def Reg.DOV_MISS_SKIP : Nat := 0x0400128
/-- Spill copies admitted. -/
def Reg.DOV_SPILL_SERVED : Nat := 0x0400130
/-- Spill copies refused. -/
def Reg.DOV_SPILL_REFUSED : Nat := 0x0400138
/-- Copies not placed under R211. -/
def Reg.DOV_INBOX_DROP : Nat := 0x0400140
/-- Tokens combined. -/
def Reg.DOV_COMBINE_TOKENS : Nat := 0x0400148
/-- Tokens with a NaN in the output row. -/
def Reg.DOV_COMBINE_NAN : Nat := 0x0400150
/-- Proposals written. -/
def Reg.DOV_PLACE_PROPOSALS : Nat := 0x0400158
/-- Parts discarded for a wrong STEP. -/
def Reg.DOV_STALE_PARTS : Nat := 0x0400160
/-- Dispatch group and slot mapping of context c. -/
def Reg.DOV_CTX_DISP (i : Nat) : Nat := 0x0400A00 + i * 0x20
/-- Placement loop of context c. -/
def Reg.DOV_CTX_PLACE (i : Nat) : Nat := 0x0400A08 + i * 0x20
/-- Placement constants of context c. -/
def Reg.DOV_CTX_PLACE2 (i : Nat) : Nat := 0x0400A10 + i * 0x20
/-- Enable, reset, retrain, width policy. -/
def Reg.FAB_PORT_CTL (i : Nat) : Nat := 0x1000000 + i * 0x10000
/-- State, width, lanes, cause. -/
def Reg.FAB_PORT_STATUS (i : Nat) : Nat := 0x1000008 + i * 0x10000
/-- Partner identity from IDENT. -/
def Reg.FAB_PORT_PARTNER (i : Nat) : Nat := 0x1000010 + i * 0x10000
/-- Timers and limits. -/
def Reg.FAB_LINK_CFG (i : Nat) : Nat := 0x1000018 + i * 0x10000
/-- State of lane l, l = 0–7. -/
def Reg.FAB_LANE_STATUS (i l : Nat) : Nat := 0x1000100 + i * 0x10000 + l * 8
/-- Corrected symbols on lane l. -/
def Reg.FAB_LANE_CORR (i l : Nat) : Nat := 0x1000140 + i * 0x10000 + l * 8
/-- DATA flits first sent. -/
def Reg.FAB_TX_FLITS (i : Nat) : Nat := 0x1000200 + i * 0x10000
/-- DATA flits accepted. -/
def Reg.FAB_RX_FLITS (i : Nat) : Nat := 0x1000208 + i * 0x10000
/-- Corrected symbols. -/
def Reg.FAB_FEC_CORR (i : Nat) : Nat := 0x1000210 + i * 0x10000
/-- Uncorrectable blocks. -/
def Reg.FAB_FEC_UNCORR (i : Nat) : Nat := 0x1000218 + i * 0x10000
/-- Flits failing the flit CRC. -/
def Reg.FAB_CRC_FAIL (i : Nat) : Nat := 0x1000220 + i * 0x10000
/-- NAKs sent. -/
def Reg.FAB_NAK_SENT (i : Nat) : Nat := 0x1000228 + i * 0x10000
/-- NAKs received. -/
def Reg.FAB_NAK_RCVD (i : Nat) : Nat := 0x1000230 + i * 0x10000
/-- Flits replayed. -/
def Reg.FAB_REPLAY_FLITS (i : Nat) : Nat := 0x1000238 + i * 0x10000
/-- RETRAINs completed. -/
def Reg.FAB_RETRAINS (i : Nat) : Nat := 0x1000240 + i * 0x10000
/-- Changes to width 4. -/
def Reg.FAB_DEGRADES (i : Nat) : Nat := 0x1000248 + i * 0x10000
/-- Entries to DOWN. -/
def Reg.FAB_DOWNS (i : Nat) : Nat := 0x1000250 + i * 0x10000
/-- Fabric cycles stalled on credit. -/
def Reg.FAB_CREDIT_STALL (i : Nat) : Nat := 0x1000258 + i * 0x10000
/-- Fabric cycles stalled on a full retry buffer. -/
def Reg.FAB_RETRY_STALL (i : Nat) : Nat := 0x1000260 + i * 0x10000
/-- Physical address. -/
def Reg.FAB_SELF : Nat := 0x1100000
/-- Job state, key and epoch. -/
def Reg.FAB_JOB : Nat := 0x1100008
/-- Own logical rank. -/
def Reg.FAB_RANK : Nat := 0x1100010
/-- Start and teardown. -/
def Reg.FAB_JOB_CTL : Nat := 0x1100018
/-- Key, epoch and tree for a START written by software. -/
def Reg.FAB_START : Nat := 0x1100020
/-- Drain time and twin routing. -/
def Reg.FAB_NET_CFG : Nat := 0x1100028
/-- Key of CONTROL packets. -/
def Reg.FAB_ADMIN_KEY : Nat := 0x1100030
/-- Partition key of version 2 packets. -/
def Reg.FAB_V2_KEY : Nat := 0x1100038
/-- Digest bytes 8i to 8i + 7, i = 0–3. -/
def Reg.FAB_DIGEST (i : Nat) : Nat := 0x1100040 + i * 0x8
/-- Expected digest bytes 8i to 8i + 7, i = 0–3. -/
def Reg.FAB_EXPECT (i : Nat) : Nat := 0x1100060 + i * 0x8
/-- Rank table index. -/
def Reg.FAB_RANK_ADDR : Nat := 0x1100100
/-- Rank table entry under R265. -/
def Reg.FAB_RANK_DATA : Nat := 0x1100108
/-- Plane table index. -/
def Reg.FAB_PLANE_ADDR : Nat := 0x1100110
/-- Masks of trays 8 × INDEX to 8 × INDEX + 7; tray 8 × INDEX + j in byte j. -/
def Reg.FAB_PLANE_DATA : Nat := 0x1100118
/-- Tree table index. -/
def Reg.FAB_TREE_ADDR : Nat := 0x1100120
/-- Tree entry. -/
def Reg.FAB_TREE_DATA : Nat := 0x1100128
/-- Packets dropped for their key. -/
def Reg.FAB_KEY_DROP : Nat := 0x1100200
/-- Packets dropped for their epoch. -/
def Reg.FAB_EPOCH_DROP : Nat := 0x1100208
/-- Packets dropped under check 7. -/
def Reg.FAB_SRC_DROP : Nat := 0x1100210
/-- Packets dropped under check 3. -/
def Reg.FAB_MISROUTE : Nat := 0x1100218
/-- Packets dropped for their version. -/
def Reg.FAB_VER_DROP : Nat := 0x1100220
/-- Packets that found no route. -/
def Reg.FAB_NOROUTE : Nat := 0x1100228
/-- Multicast copies forwarded. -/
def Reg.FAB_MC_FWD : Nat := 0x1100230
/-- Starts that reused the held tables. -/
def Reg.FAB_SETUP_REUSE : Nat := 0x1100238
/-- Rank entries changed from FAILED to LIVE. -/
def Reg.FAB_TAKEOVERS : Nat := 0x1100240
/-- Fabric descriptor index and word. -/
def Reg.FAB_XDESC_ADDR : Nat := 0x1120000
/-- Fabric descriptor word under R283. -/
def Reg.FAB_XDESC_DATA : Nat := 0x1120008
/-- Timers and retry limit. -/
def Reg.FAB_XPORT_CFG : Nat := 0x1120010
/-- Cut-list region. -/
def Reg.FAB_CUT : Nat := 0x1120018
/-- Records in use. -/
def Reg.FAB_CUT_USED : Nat := 0x1120020
/-- Last rank reported under R312. -/
def Reg.FAB_TREE_FAILED : Nat := 0x1120028
/-- CHUNK and EMPTY packets first sent. -/
def Reg.FAB_CHUNKS_SENT : Nat := 0x1120100
/-- Packets accepted. -/
def Reg.FAB_CHUNKS_RCVD : Nat := 0x1120108
/-- Resends under R294. -/
def Reg.FAB_RESENT_CHUNKS : Nat := 0x1120110
/-- Replays under R305. -/
def Reg.FAB_REPLAY_CHUNKS : Nat := 0x1120118
/-- Duplicates dropped. -/
def Reg.FAB_DUP_DROP : Nat := 0x1120120
/-- Header check failures. -/
def Reg.FAB_HCRC_FAIL : Nat := 0x1120128
/-- End-to-end check failures. -/
def Reg.FAB_E2E_FAIL : Nat := 0x1120130
/-- Chunks dropped on a full staging share. -/
def Reg.FAB_STAGE_DROP : Nat := 0x1120138
/-- Messages with no descriptor. -/
def Reg.FAB_NO_DESC : Nat := 0x1120140
/-- Cycles waiting for cut-list records. -/
def Reg.FAB_CUT_STALL : Nat := 0x1120148
/-- Records marked LOST. -/
def Reg.FAB_CUT_LOST : Nat := 0x1120150
/-- Pairs that became suspect. -/
def Reg.FAB_PEER_TIMEOUTS : Nat := 0x1120158
/-- REATTACH packets sent. -/
def Reg.FAB_TREE_REATTACH : Nat := 0x1120160
/-- Reports taken under R312. -/
def Reg.FAB_TREE_FAILS : Nat := 0x1120168
/-- Group index and word. -/
def Reg.COL_GROUP_ADDR : Nat := 0x1800000
/-- Group word under R316. -/
def Reg.COL_GROUP_DATA : Nat := 0x1800008
/-- Member list word index. -/
def Reg.COL_LIST_ADDR : Nat := 0x1800010
/-- Member list word under R318. -/
def Reg.COL_LIST_DATA : Nat := 0x1800018
/-- Collective descriptor index and word. -/
def Reg.COL_DESC_ADDR : Nat := 0x1800020
/-- Descriptor word under R321. -/
def Reg.COL_DESC_DATA : Nat := 0x1800028
/-- Software start. -/
def Reg.COL_START : Nat := 0x1800030
/-- Timers. -/
def Reg.COL_CFG : Nat := 0x1800038
/-- Slots open. -/
def Reg.COL_SLOT_USED : Nat := 0x1800040
/-- Group index. -/
def Reg.COL_GSEQ_ADDR : Nat := 0x1800048
/-- Next GSEQ and abort mark. -/
def Reg.COL_GSEQ_DATA : Nat := 0x1800050
/-- Instances started. -/
def Reg.COL_STARTED : Nat := 0x1800100
/-- Instances completed. -/
def Reg.COL_DONE : Nat := 0x1800108
/-- Instances ended in error. -/
def Reg.COL_ERRORS : Nat := 0x1800110
/-- Slots opened by arrival. -/
def Reg.COL_OPEN_BY_ARRIVAL : Nat := 0x1800118
/-- Arrivals refused for lack of a slot. -/
def Reg.COL_SLOT_WAIT : Nat := 0x1800120
/-- Slot waits that timed out. -/
def Reg.COL_EXHAUSTED : Nat := 0x1800128
/-- Messages dropped under R336. -/
def Reg.COL_DUP_MSG : Nat := 0x1800130
/-- Arrivals dropped under R332. -/
def Reg.COL_BAD_ARRIVAL : Nat := 0x1800138
/-- ABORT packets sent. -/
def Reg.COL_ABORTS : Nat := 0x1800140
/-- Start, teardown, priority. -/
def Reg.CTX_CTL (i : Nat) : Nat := 0x0C00000 + i * 0x1000
/-- State, refusal, cause. -/
def Reg.CTX_STATUS (i : Nat) : Nat := 0x0C00008 + i * 0x1000
/-- Slot range. -/
def Reg.CTX_SLOTS (i : Nat) : Nat := 0x0C00010 + i * 0x1000
/-- Ruril quota in tiles. -/
def Reg.CTX_RURIL_QUOTA (i : Nat) : Nat := 0x0C00018 + i * 0x1000
/-- Ruril charge under R355. -/
def Reg.CTX_RURIL_USED (i : Nat) : Nat := 0x0C00020 + i * 0x1000
/-- Pool, staging, collective slot and cut-list shares. -/
def Reg.CTX_FABRIC (i : Nat) : Nat := 0x0C00028 + i * 0x1000
/-- Intake limit. -/
def Reg.CTX_INTAKE (i : Nat) : Nat := 0x0C00030 + i * 0x1000
/-- Lock hold limit. -/
def Reg.CTX_HOLD (i : Nat) : Nat := 0x0C00038 + i * 0x1000
/-- Joins posted DEFERRED at arrival. -/
def Reg.CTX_SHED (i : Nat) : Nat := 0x0C00440 + i * 0x1000
/-- Deferrals of this context as holder. -/
def Reg.CTX_DEFERRALS (i : Nat) : Nat := 0x0C00448 + i * 0x1000
/-- Entries to TEARING. -/
def Reg.CTX_TEARDOWNS (i : Nat) : Nat := 0x0C00450 + i * 0x1000
/-- Saturated signals, and hardware signals on a lock. -/
def Reg.CTX_SEM_ERRORS (i : Nat) : Nat := 0x0C00458 + i * 0x1000
/-- Bench table index. -/
def Reg.CTX_BENCH_ADDR : Nat := 0x0C10000
/-- Bench table entry. -/
def Reg.CTX_BENCH_DATA : Nat := 0x0C10008
/-- Semaphore index. -/
def Reg.CTX_SEM_ADDR : Nat := 0x0C10010
/-- Semaphore entry under R359. -/
def Reg.CTX_SEM_DATA : Nat := 0x0C10018
/-- Arithmetic cycle counter. -/
def Reg.DET_CYCLE : Nat := 0x1C00000
/-- Clamp enable and policy. -/
def Reg.DET_CLAMP_CTL : Nat := 0x1C00008
/-- Clamp state. -/
def Reg.DET_CLAMP_STATUS : Nat := 0x1C00010
/-- First divergent record. -/
def Reg.DET_CLAMP_FIRST : Nat := 0x1C00018
/-- CRCs of the first divergence. -/
def Reg.DET_CLAMP_FIRST2 : Nat := 0x1C00020
/-- Mark tree, lead, sequencers and timeout. -/
def Reg.DET_MARK_CFG : Nat := 0x1C00028
/-- Software arrival and cancel. -/
def Reg.DET_MARK_CTL : Nat := 0x1C00030
/-- Last Mark. -/
def Reg.DET_MARK_STATUS : Nat := 0x1C00038
/-- DET_CYCLE at the last release. -/
def Reg.DET_MARK_CYCLE : Nat := 0x1C00040
/-- Timing choices of context c. -/
def Reg.DET_TCC (i : Nat) : Nat := 0x1C00100 + i * 0x8
/-- First timing choice of context c. -/
def Reg.DET_TCC_FIRST (i : Nat) : Nat := 0x1C00180 + i * 0x8
/-- Measured delay of port p. -/
def Reg.DET_PORT_DELAY (i : Nat) : Nat := 0x1C00200 + i * 0x8
/-- Records compared. -/
def Reg.DET_CLAMP_RECORDS : Nat := 0x1C00300
/-- Records that did not match. -/
def Reg.DET_CLAMP_MISMATCH : Nat := 0x1C00308
/-- Records discarded from a full queue. -/
def Reg.DET_CLAMP_SKIPPED : Nat := 0x1C00310
/-- Marks released. -/
def Reg.DET_MARK_COUNT : Nat := 0x1C00318
/-- Late releases. -/
def Reg.DET_MARK_LATE : Nat := 0x1C00320
/-- Load outcome. -/
def Reg.JIG_STATUS : Nat := 0x0100000
/-- Flash program and resume. -/
def Reg.JIG_CTL : Nat := 0x0100008
/-- Staged image location and length. -/
def Reg.JIG_IMG : Nat := 0x0100010
/-- Flash program outcome. -/
def Reg.JIG_PROG_STATUS : Nat := 0x0100018
/-- Change-set location. -/
def Reg.JIG_GLUE_SRC : Nat := 0x0100020
/-- Dry-fit, go and cancel. -/
def Reg.JIG_GLUE_CTL : Nat := 0x0100028
/-- Glue-up state and result. -/
def Reg.JIG_GLUE_STATUS : Nat := 0x0100030
/-- Stop and vote limits. -/
def Reg.JIG_GLUE_CFG : Nat := 0x0100038
/-- Journal use. -/
def Reg.JIG_JRNL : Nat := 0x0100040
/-- Glue-ups applied. -/
def Reg.JIG_GLUE_DONE : Nat := 0x0100100
/-- Glue-ups ended without an apply. -/
def Reg.JIG_GLUE_FAILED : Nat := 0x0100108
/-- Journal entries applied under R413. -/
def Reg.JIG_REAPPLIED : Nat := 0x0100110
/-- Device state and fault cause. -/
def Reg.GLB_STATE : Nat := 0x0000000
/-- Train limit and stop. -/
def Reg.GLB_STATE_CTL : Nat := 0x0000008
/-- Warm reset. -/
def Reg.GLB_RESET_CTL : Nat := 0x0000010
/-- Cause of the last reset. -/
def Reg.GLB_RESET_CAUSE : Nat := 0x0000018
/-- Supply state and voltages. -/
def Reg.GLB_SUPPLY : Nat := 0x0000020
/-- Clock state. -/
def Reg.GLB_CLK_STATUS : Nat := 0x0000028
/-- Warm resets. -/
def Reg.GLB_WARM_RESETS : Nat := 0x0000080
/-- PERST_N assertions. -/
def Reg.GLB_HOST_RESETS : Nat := 0x0000088
/-- Bench resets accepted. -/
def Reg.GLB_BENCH_RESETS : Nat := 0x0000090
/-- Context resets accepted. -/
def Reg.GLB_CTX_RESETS : Nat := 0x0000098
/-- Context reset. -/
def Reg.CTX_RESET (i : Nat) : Nat := 0x0C00040 + i * 0x1000
/-- Identity. -/
def Reg.GLB_HIF_ID : Nat := 0x0001000
/-- Link state. -/
def Reg.GLB_HIF_LINK : Nat := 0x0001008
/-- Access path. -/
def Reg.GLB_HIF_CTL : Nat := 0x0001010
/-- Overflow region. -/
def Reg.GLB_HIF_OVF : Nat := 0x0001018
/-- Unrequested link losses. -/
def Reg.GLB_HIF_LINK_DOWNS : Nat := 0x0001080
/-- Failed host transfers. -/
def Reg.GLB_HIF_XFER_FAIL : Nat := 0x0001088
/-- Malformed intake records. -/
def Reg.GLB_HIF_BAD_REC : Nat := 0x0001090
/-- Refused doorbell and ring writes. -/
def Reg.GLB_HIF_BAD_DB : Nat := 0x0001098
/-- Completion records discarded. -/
def Reg.GLB_HIF_CQ_LOST : Nat := 0x00010A0
/-- Poisoned CXL.mem reads. -/
def Reg.GLB_HIF_POISON_RD : Nat := 0x00010A8
/-- Intake ring base. -/
def Reg.GLB_HIF_IR_BASE (i : Nat) : Nat := 0x0002000 + i * 0x40
/-- Intake ring size and enable. -/
def Reg.GLB_HIF_IR_CFG (i : Nat) : Nat := 0x0002008 + i * 0x40
/-- Intake HEAD and TAIL. -/
def Reg.GLB_HIF_IR_STATE (i : Nat) : Nat := 0x0002010 + i * 0x40
/-- Completion ring base. -/
def Reg.GLB_HIF_CR_BASE (i : Nat) : Nat := 0x0002018 + i * 0x40
/-- Completion ring size, enable and interrupts. -/
def Reg.GLB_HIF_CR_CFG (i : Nat) : Nat := 0x0002020 + i * 0x40
/-- Completion HEAD, TAIL, PHASE and queued records. -/
def Reg.GLB_HIF_CR_STATE (i : Nat) : Nat := 0x0002028 + i * 0x40
/-- Loop enables. -/
def Reg.KLN_CTL : Nat := 0x0200000
/-- Level, holds and warnings. -/
def Reg.KLN_STATUS : Nat := 0x0200008
/-- Limit, ramp, ballast and floor. -/
def Reg.KLN_POWER_CFG : Nat := 0x0200010
/-- Measured power, ceiling, floor and cap. -/
def Reg.KLN_POWER : Nat := 0x0200018
/-- Voltage loop limits. -/
def Reg.KLN_AVS_CFG : Nat := 0x0200020
/-- Temperature target and thresholds. -/
def Reg.KLN_THERM_CFG : Nat := 0x0200028
/-- Coolant loop gains and duties. -/
def Reg.KLN_VALVE_CFG : Nat := 0x0200030
/-- Coolant and junction temperatures. -/
def Reg.KLN_TEMPS : Nat := 0x0200038
/-- Valve command and feedback. -/
def Reg.KLN_VALVE : Nat := 0x0200040
/-- Energy store link. -/
def Reg.KLN_ESTORE_CFG : Nat := 0x0200048
/-- Voltage group g, g = 0–83. -/
def Reg.KLN_GROUP (i : Nat) : Nat := 0x0200100 + i * 0x8
/-- Root periods held by the level. -/
def Reg.KLN_HELD_PERIODS : Nat := 0x0200400
/-- Droop holds. -/
def Reg.KLN_DROOP_EVENTS : Nat := 0x0200408
/-- Control periods limited. -/
def Reg.KLN_LIMIT_PERIODS : Nat := 0x0200410
/-- Cycles with ballast. -/
def Reg.KLN_BALLAST_CYCLES : Nat := 0x0200418
/-- Forecast frames sent. -/
def Reg.KLN_ESTORE_TX : Nat := 0x0200420
/-- Frames discarded. -/
def Reg.KLN_ESTORE_RX_BAD : Nat := 0x0200428
/-- Provisioned ID. -/
def Reg.MGT_PID : Nat := 0x3800000
/-- Bus and device state. -/
def Reg.MGT_SB_STATUS : Nat := 0x3800008
/-- Tray number. -/
def Reg.MGT_TRAY : Nat := 0x3800010
/-- Interrupt event mask. -/
def Reg.MGT_IBI_MASK : Nat := 0x3800018
/-- Sideband transfers. -/
def Reg.MGT_SB_XFERS : Nat := 0x3800080
/-- Refused and malformed transfers, tray conflicts. -/
def Reg.MGT_SB_ERRORS : Nat := 0x3800088
/-- In-band interrupts sent. -/
def Reg.MGT_IBI_SENT : Nat := 0x3800090
/-- Sideband and signing policy. -/
def Reg.SEC_POLICY : Nat := 0x3000000
/-- Active owner hash bytes 8i to 8i + 7, i = 0–3. -/
def Reg.SEC_OWNER (i : Nat) : Nat := 0x3000008 + i * 0x8
/-- Security version counter. -/
def Reg.SEC_SVN : Nat := 0x3000028
/-- Reservation and next leaf. -/
def Reg.SEC_LEAF : Nat := 0x3000030
/-- Staged owner hash bytes 8i to 8i + 7, i = 0–3. -/
def Reg.SEC_OWNER_STAGE (i : Nat) : Nat := 0x3000038 + i * 0x8
/-- Ruril tile of the transfer signature. -/
def Reg.SEC_OWNER_SIGTILE : Nat := 0x3000058
/-- Fuse burns. -/
def Reg.SEC_FUSE_CTL : Nat := 0x3000060
/-- Burn outcome. -/
def Reg.SEC_FUSE_STATUS : Nat := 0x3000068
/-- Reports signed. -/
def Reg.SEC_REPORTS : Nat := 0x3000080
/-- Requests answered BUSY. -/
def Reg.SEC_SIGN_REFUSED : Nat := 0x3000088
/-- Key sets installed. -/
def Reg.SEC_IDE_KEYS : Nat := 0x3000090
/-- Interrupt enable. -/
def Reg.ERR_CTL : Nat := 0x3C00000
/-- TAIL and HEAD. -/
def Reg.ERR_STATE : Nat := 0x3C00008
/-- Consumer position. -/
def Reg.ERR_HEAD : Nat := 0x3C00010
/-- Records written. -/
def Reg.ERR_WRITTEN : Nat := 0x3C00080
/-- Records discarded. -/
def Reg.ERR_LOST : Nat := 0x3C00088
/-- Word w of ring entry k, k = 0–4,095, w = 0–7. -/
def Reg.ERR_RECORD (k w : Nat) : Nat := 0x3C10000 + k * 0x40 + w * 8
/-- Bad accesses and refused writes. -/
def Reg.GLB_BAD_ACCESS : Nat := 0x00000A0
/-- First bad access. -/
def Reg.GLB_BAD_FIRST : Nat := 0x00000A8

/-! ## Fields of registers -/

-- BEN_CTL: R54 of 01_benches.md
abbrev Fld.BEN_CTL_SPLIT : Fld := ⟨0, 1⟩
-- BEN_STATUS: R54 of 01_benches.md
abbrev Fld.BEN_STATUS_STATE1 : Fld := ⟨29, 3⟩
abbrev Fld.BEN_STATUS_PC1 : Fld := ⟨16, 13⟩
abbrev Fld.BEN_STATUS_STATE0 : Fld := ⟨13, 3⟩
abbrev Fld.BEN_STATUS_PC0 : Fld := ⟨0, 13⟩
-- BEN_FAULT0: R54 of 01_benches.md
abbrev Fld.BEN_FAULT0_VALID : Fld := ⟨63, 1⟩
abbrev Fld.BEN_FAULT0_CODE : Fld := ⟨32, 16⟩
abbrev Fld.BEN_FAULT0_PC : Fld := ⟨16, 13⟩
abbrev Fld.BEN_FAULT0_CAUSE : Fld := ⟨0, 8⟩
-- BEN_FAULT1: R54 of 01_benches.md
abbrev Fld.BEN_FAULT1_VALID : Fld := ⟨63, 1⟩
abbrev Fld.BEN_FAULT1_CODE : Fld := ⟨32, 16⟩
abbrev Fld.BEN_FAULT1_PC : Fld := ⟨16, 13⟩
abbrev Fld.BEN_FAULT1_CAUSE : Fld := ⟨0, 8⟩
-- BEN_IMEM_ADDR: R54 of 01_benches.md
abbrev Fld.BEN_IMEM_ADDR_SEQ : Fld := ⟨13, 1⟩
abbrev Fld.BEN_IMEM_ADDR_ADDR : Fld := ⟨0, 13⟩
-- BEN_IMEM_DATA: R54 of 01_benches.md
abbrev Fld.BEN_IMEM_DATA_WORD : Fld := ⟨0, 64⟩
-- BEN_START: R55 of 01_benches.md
abbrev Fld.BEN_START_GO1 : Fld := ⟨29, 1⟩
abbrev Fld.BEN_START_PC1 : Fld := ⟨16, 13⟩
abbrev Fld.BEN_START_GO0 : Fld := ⟨13, 1⟩
abbrev Fld.BEN_START_PC0 : Fld := ⟨0, 13⟩
-- BEN_RESET: R55 of 01_benches.md
abbrev Fld.BEN_RESET_RESET : Fld := ⟨0, 1⟩
-- BEN_CYCLE_COUNT: R56 of 01_benches.md
abbrev Fld.BEN_CYCLE_COUNT_COUNT : Fld := ⟨0, 64⟩
-- BEN_PASS_COUNT: R56 of 01_benches.md
abbrev Fld.BEN_PASS_COUNT_COUNT : Fld := ⟨0, 64⟩
-- BEN_ROW_BUSY: R56 of 01_benches.md
abbrev Fld.BEN_ROW_BUSY_COUNT : Fld := ⟨0, 64⟩
-- BEN_SHAVE_BUSY: R56 of 01_benches.md
abbrev Fld.BEN_SHAVE_BUSY_COUNT : Fld := ⟨0, 64⟩
-- BEN_SAND_BUSY: R56 of 01_benches.md
abbrev Fld.BEN_SAND_BUSY_COUNT : Fld := ⟨0, 64⟩
-- BEN_EXC_CTL: R83 of 02_number_formats.md
abbrev Fld.BEN_EXC_CTL_RECORD : Fld := ⟨8, 5⟩
abbrev Fld.BEN_EXC_CTL_TRAP : Fld := ⟨0, 5⟩
-- BEN_EXC_FIRST: R83 of 02_number_formats.md
abbrev Fld.BEN_EXC_FIRST_VALID : Fld := ⟨63, 1⟩
abbrev Fld.BEN_EXC_FIRST_CLASS : Fld := ⟨60, 3⟩
abbrev Fld.BEN_EXC_FIRST_UNIT : Fld := ⟨58, 2⟩
abbrev Fld.BEN_EXC_FIRST_BENCH : Fld := ⟨47, 11⟩
abbrev Fld.BEN_EXC_FIRST_ELEM : Fld := ⟨34, 13⟩
abbrev Fld.BEN_EXC_FIRST_ACC : Fld := ⟨28, 6⟩
abbrev Fld.BEN_EXC_FIRST_PASS : Fld := ⟨0, 28⟩
-- BEN_FDESC_ADDR: R110 of 03_bench_memory_and_tiles.md
abbrev Fld.BEN_FDESC_ADDR_INDEX : Fld := ⟨0, 10⟩
-- BEN_FDESC_DATA: R110 of 03_bench_memory_and_tiles.md
abbrev Fld.BEN_FDESC_DATA_DESC : Fld := ⟨0, 64⟩
-- BEN_SRAM_ECC_CORR: R110 of 03_bench_memory_and_tiles.md
abbrev Fld.BEN_SRAM_ECC_CORR_COUNT : Fld := ⟨0, 64⟩
-- BEN_TILE_CHECK_FAIL: R110 of 03_bench_memory_and_tiles.md
abbrev Fld.BEN_TILE_CHECK_FAIL_COUNT : Fld := ⟨0, 64⟩
-- BEN_TILE_REFETCH: R110 of 03_bench_memory_and_tiles.md
abbrev Fld.BEN_TILE_REFETCH_COUNT : Fld := ⟨0, 64⟩
-- BEN_FLOOR_SYS: R110 of 03_bench_memory_and_tiles.md
abbrev Fld.BEN_FLOOR_SYS_SYS : Fld := ⟨0, 16⟩
-- BEN_CHECK_FIRST: R110 of 03_bench_memory_and_tiles.md
abbrev Fld.BEN_CHECK_FIRST_VALID : Fld := ⟨63, 1⟩
abbrev Fld.BEN_CHECK_FIRST_OUTCOME : Fld := ⟨61, 2⟩
abbrev Fld.BEN_CHECK_FIRST_UNIT : Fld := ⟨57, 4⟩
abbrev Fld.BEN_CHECK_FIRST_TILE : Fld := ⟨48, 9⟩
abbrev Fld.BEN_CHECK_FIRST_OBJECT : Fld := ⟨0, 40⟩
-- GLB_FLOOR_CTL: R110 of 03_bench_memory_and_tiles.md
abbrev Fld.GLB_FLOOR_CTL_DISARM : Fld := ⟨1, 1⟩
abbrev Fld.GLB_FLOOR_CTL_ARM : Fld := ⟨0, 1⟩
-- GLB_FLOOR_STATUS: R110 of 03_bench_memory_and_tiles.md
abbrev Fld.GLB_FLOOR_STATUS_ARMED : Fld := ⟨63, 1⟩
abbrev Fld.GLB_FLOOR_STATUS_RESULT : Fld := ⟨61, 2⟩
abbrev Fld.GLB_FLOOR_STATUS_BUSY : Fld := ⟨60, 1⟩
abbrev Fld.GLB_FLOOR_STATUS_ENDPOINT : Fld := ⟨36, 12⟩
abbrev Fld.GLB_FLOOR_STATUS_SLOT : Fld := ⟨32, 4⟩
abbrev Fld.GLB_FLOOR_STATUS_BENCH : Fld := ⟨21, 11⟩
abbrev Fld.GLB_FLOOR_STATUS_FDESC : Fld := ⟨0, 10⟩
-- TIR_OBJ_ADDR: R140 of 04_ruril_and_tiers.md
abbrev Fld.TIR_OBJ_ADDR_INDEX : Fld := ⟨3, 16⟩
abbrev Fld.TIR_OBJ_ADDR_WORD : Fld := ⟨0, 3⟩
-- TIR_OBJ_DATA: R140 of 04_ruril_and_tiers.md
abbrev Fld.TIR_OBJ_DATA_DATA : Fld := ⟨0, 64⟩
-- TIR_REQ0: R140 of 04_ruril_and_tiers.md
abbrev Fld.TIR_REQ0_OP : Fld := ⟨60, 4⟩
abbrev Fld.TIR_REQ0_CTX : Fld := ⟨56, 4⟩
abbrev Fld.TIR_REQ0_OBJECT : Fld := ⟨0, 40⟩
-- TIR_REQ1: R140 of 04_ruril_and_tiers.md
abbrev Fld.TIR_REQ1_DEADLINE : Fld := ⟨32, 32⟩
abbrev Fld.TIR_REQ1_SEM : Fld := ⟨20, 12⟩
abbrev Fld.TIR_REQ1_SIGNUM : Fld := ⟨12, 8⟩
-- TIR_STEP_START: R140 of 04_ruril_and_tiers.md
abbrev Fld.TIR_STEP_START_CYCLE : Fld := ⟨0, 64⟩
-- TIR_RECOVER_CTL: R140 of 04_ruril_and_tiers.md
abbrev Fld.TIR_RECOVER_CTL_TIMEOUT_US : Fld := ⟨0, 16⟩
-- TIR_POISON_FIRST: R140 of 04_ruril_and_tiers.md
abbrev Fld.TIR_POISON_FIRST_VALID : Fld := ⟨63, 1⟩
abbrev Fld.TIR_POISON_FIRST_STACK : Fld := ⟨56, 3⟩
abbrev Fld.TIR_POISON_FIRST_TILE : Fld := ⟨32, 24⟩
abbrev Fld.TIR_POISON_FIRST_INDEX : Fld := ⟨0, 16⟩
-- BPM_POOL: R165 of 05_buffer_pool_and_sequences.md
abbrev Fld.BPM_POOL_LEN : Fld := ⟨28, 28⟩
abbrev Fld.BPM_POOL_BASE : Fld := ⟨0, 28⟩
-- BPM_POOL_CTL: R165 of 05_buffer_pool_and_sequences.md
abbrev Fld.BPM_POOL_CTL_DBASE : Fld := ⟨28, 28⟩
abbrev Fld.BPM_POOL_CTL_BUSY : Fld := ⟨1, 1⟩
abbrev Fld.BPM_POOL_CTL_INIT : Fld := ⟨0, 1⟩
-- BPM_FREE_HEAD: R165 of 05_buffer_pool_and_sequences.md
abbrev Fld.BPM_FREE_HEAD_HEAD : Fld := ⟨0, 28⟩
-- BPM_FREE_COUNT: R165 of 05_buffer_pool_and_sequences.md
abbrev Fld.BPM_FREE_COUNT_COUNT : Fld := ⟨0, 64⟩
-- BPM_REQ0: R165 of 05_buffer_pool_and_sequences.md
abbrev Fld.BPM_REQ0_OP : Fld := ⟨60, 4⟩
abbrev Fld.BPM_REQ0_N : Fld := ⟨52, 8⟩
abbrev Fld.BPM_REQ0_HOLDER : Fld := ⟨28, 24⟩
abbrev Fld.BPM_REQ0_BUF : Fld := ⟨0, 28⟩
-- BPM_REQ1: R165 of 05_buffer_pool_and_sequences.md
abbrev Fld.BPM_REQ1_NEWFINAL : Fld := ⟨0, 24⟩
-- BPM_RESULT: R165 of 05_buffer_pool_and_sequences.md
abbrev Fld.BPM_RESULT_STATUS : Fld := ⟨60, 4⟩
abbrev Fld.BPM_RESULT_BUF : Fld := ⟨0, 28⟩
-- BPM_STEP_CTL: R165 of 05_buffer_pool_and_sequences.md
abbrev Fld.BPM_STEP_CTL_MODE : Fld := ⟨32, 1⟩
abbrev Fld.BPM_STEP_CTL_SEM : Fld := ⟨20, 12⟩
abbrev Fld.BPM_STEP_CTL_NUM : Fld := ⟨12, 8⟩
-- BPM_STEP_END: R165 of 05_buffer_pool_and_sequences.md
abbrev Fld.BPM_STEP_END_END : Fld := ⟨0, 1⟩
-- BPM_STEP_STATUS: R165 of 05_buffer_pool_and_sequences.md
abbrev Fld.BPM_STEP_STATUS_BUSY : Fld := ⟨63, 1⟩
abbrev Fld.BPM_STEP_STATUS_PHASE : Fld := ⟨60, 3⟩
abbrev Fld.BPM_STEP_STATUS_STEP : Fld := ⟨0, 32⟩
-- BPM_ADMIT_NEXT: R165 of 05_buffer_pool_and_sequences.md
abbrev Fld.BPM_ADMIT_NEXT_ADMIT : Fld := ⟨0, 40⟩
-- BPM_SLOT_ADDR: R165 of 05_buffer_pool_and_sequences.md
abbrev Fld.BPM_SLOT_ADDR_SLOT : Fld := ⟨3, 18⟩
abbrev Fld.BPM_SLOT_ADDR_WORD : Fld := ⟨0, 3⟩
-- BPM_SLOT_DATA: R165 of 05_buffer_pool_and_sequences.md
abbrev Fld.BPM_SLOT_DATA_DATA : Fld := ⟨0, 64⟩
-- BPM_SLOT_REQ: R165 of 05_buffer_pool_and_sequences.md
abbrev Fld.BPM_SLOT_REQ_STATUS : Fld := ⟨18, 8⟩
abbrev Fld.BPM_SLOT_REQ_SLOT : Fld := ⟨0, 18⟩
-- BPM_STAGE_FREE: R165 of 05_buffer_pool_and_sequences.md
abbrev Fld.BPM_STAGE_FREE_COUNT : Fld := ⟨0, 64⟩
-- BPM_CTX_KV: R165 of 05_buffer_pool_and_sequences.md
abbrev Fld.BPM_CTX_KV_G : Fld := ⟨32, 16⟩
abbrev Fld.BPM_CTX_KV_TPB : Fld := ⟨0, 32⟩
-- DOV_CTL: R192 of 06_dovetail_selection.md
abbrev Fld.DOV_CTL_EN : Fld := ⟨0, 1⟩
-- DOV_STATUS: R192 of 06_dovetail_selection.md
abbrev Fld.DOV_STATUS_RUN : Fld := ⟨63, 1⟩
abbrev Fld.DOV_STATUS_ACTIVE : Fld := ⟨0, 16⟩
-- DOV_LAYER_ADDR: R192 of 06_dovetail_selection.md
abbrev Fld.DOV_LAYER_ADDR_INDEX : Fld := ⟨2, 8⟩
abbrev Fld.DOV_LAYER_ADDR_WORD : Fld := ⟨0, 2⟩
-- DOV_LAYER_DATA: R192 of 06_dovetail_selection.md
abbrev Fld.DOV_LAYER_DATA_DATA : Fld := ⟨0, 64⟩
-- DOV_SEL_ADDR: R192 of 06_dovetail_selection.md
abbrev Fld.DOV_SEL_ADDR_INDEX : Fld := ⟨1, 20⟩
abbrev Fld.DOV_SEL_ADDR_WORD : Fld := ⟨0, 1⟩
-- DOV_SEL_DATA: R192 of 06_dovetail_selection.md
abbrev Fld.DOV_SEL_DATA_DATA : Fld := ⟨0, 64⟩
-- DOV_CTX_PORTS: R192 of 06_dovetail_selection.md
abbrev Fld.DOV_CTX_PORTS_PORTS : Fld := ⟨0, 64⟩
-- DOV_CTX_GAUGE: R192 of 06_dovetail_selection.md
abbrev Fld.DOV_CTX_GAUGE_STORE : Fld := ⟨32, 12⟩
abbrev Fld.DOV_CTX_GAUGE_GAUGES : Fld := ⟨0, 32⟩
-- DOV_CTX_TOKENS: R192 of 06_dovetail_selection.md
abbrev Fld.DOV_CTX_TOKENS_TOKENS : Fld := ⟨0, 15⟩
-- DOV_CTX_BAL: R192 of 06_dovetail_selection.md
abbrev Fld.DOV_CTX_BAL_COUNT : Fld := ⟨48, 16⟩
abbrev Fld.DOV_CTX_BAL_PERIOD : Fld := ⟨32, 16⟩
abbrev Fld.DOV_CTX_BAL_GROUP : Fld := ⟨0, 16⟩
-- DOV_DISP_ADDR: R226 of 07_dovetail_dispatch_combine.md
abbrev Fld.DOV_DISP_ADDR_INDEX : Fld := ⟨1, 8⟩
abbrev Fld.DOV_DISP_ADDR_WORD : Fld := ⟨0, 1⟩
-- DOV_DISP_DATA: R226 of 07_dovetail_dispatch_combine.md
abbrev Fld.DOV_DISP_DATA_DATA : Fld := ⟨0, 64⟩
-- DOV_MAP_ADDR: R226 of 07_dovetail_dispatch_combine.md
abbrev Fld.DOV_MAP_ADDR_INDEX : Fld := ⟨2, 20⟩
abbrev Fld.DOV_MAP_ADDR_WORD : Fld := ⟨0, 2⟩
-- DOV_MAP_DATA: R226 of 07_dovetail_dispatch_combine.md
abbrev Fld.DOV_MAP_DATA_DATA : Fld := ⟨0, 64⟩
-- DOV_LOC_ADDR: R226 of 07_dovetail_dispatch_combine.md
abbrev Fld.DOV_LOC_ADDR_INDEX : Fld := ⟨2, 12⟩
abbrev Fld.DOV_LOC_ADDR_WORD : Fld := ⟨0, 2⟩
-- DOV_LOC_DATA: R226 of 07_dovetail_dispatch_combine.md
abbrev Fld.DOV_LOC_DATA_DATA : Fld := ⟨0, 64⟩
-- DOV_PLACE_STATUS: R226 of 07_dovetail_dispatch_combine.md
abbrev Fld.DOV_PLACE_STATUS_READY : Fld := ⟨63, 1⟩
-- DOV_CTX_DISP: R226 of 07_dovetail_dispatch_combine.md
abbrev Fld.DOV_CTX_DISP_SLOTMAP : Fld := ⟨16, 1⟩
abbrev Fld.DOV_CTX_DISP_GROUP : Fld := ⟨0, 16⟩
-- DOV_CTX_PLACE: R226 of 07_dovetail_dispatch_combine.md
abbrev Fld.DOV_CTX_PLACE_COUNT : Fld := ⟨48, 16⟩
abbrev Fld.DOV_CTX_PLACE_PERIOD : Fld := ⟨32, 16⟩
abbrev Fld.DOV_CTX_PLACE_REPMAX : Fld := ⟨16, 3⟩
abbrev Fld.DOV_CTX_PLACE_GROUP : Fld := ⟨0, 16⟩
-- DOV_CTX_PLACE2: R226 of 07_dovetail_dispatch_combine.md
abbrev Fld.DOV_CTX_PLACE2_HOT : Fld := ⟨32, 32⟩
abbrev Fld.DOV_CTX_PLACE2_ALPHA : Fld := ⟨0, 32⟩
-- FAB_PORT_CTL: R259 of 08_fabric_link.md
abbrev Fld.FAB_PORT_CTL_AUTO : Fld := ⟨4, 1⟩
abbrev Fld.FAB_PORT_CTL_MINW : Fld := ⟨3, 1⟩
abbrev Fld.FAB_PORT_CTL_RETRAIN : Fld := ⟨2, 1⟩
abbrev Fld.FAB_PORT_CTL_RESET : Fld := ⟨1, 1⟩
abbrev Fld.FAB_PORT_CTL_ENABLE : Fld := ⟨0, 1⟩
-- FAB_PORT_STATUS: R259 of 08_fabric_link.md
abbrev Fld.FAB_PORT_STATUS_STATE : Fld := ⟨61, 3⟩
abbrev Fld.FAB_PORT_STATUS_WIDTH : Fld := ⟨59, 2⟩
abbrev Fld.FAB_PORT_STATUS_BAD : Fld := ⟨51, 8⟩
abbrev Fld.FAB_PORT_STATUS_UNACKED : Fld := ⟨32, 7⟩
abbrev Fld.FAB_PORT_STATUS_DOWN_CAUSE : Fld := ⟨0, 8⟩
-- FAB_PORT_PARTNER: R259 of 08_fabric_link.md
abbrev Fld.FAB_PORT_PARTNER_KIND : Fld := ⟨60, 4⟩
abbrev Fld.FAB_PORT_PARTNER_ID : Fld := ⟨48, 12⟩
abbrev Fld.FAB_PORT_PARTNER_SUB : Fld := ⟨40, 3⟩
abbrev Fld.FAB_PORT_PARTNER_PPORT : Fld := ⟨32, 8⟩
abbrev Fld.FAB_PORT_PARTNER_VMAX : Fld := ⟨28, 4⟩
abbrev Fld.FAB_PORT_PARTNER_VMIN : Fld := ⟨24, 4⟩
-- FAB_LINK_CFG: R259 of 08_fabric_link.md
abbrev Fld.FAB_LINK_CFG_REPLAY_NS : Fld := ⟨48, 16⟩
abbrev Fld.FAB_LINK_CFG_RETRY_MAX : Fld := ⟨40, 8⟩
abbrev Fld.FAB_LINK_CFG_ATTEMPTS : Fld := ⟨32, 8⟩
abbrev Fld.FAB_LINK_CFG_LANE_THRESH : Fld := ⟨16, 16⟩
abbrev Fld.FAB_LINK_CFG_DOWN_RETRY_MS : Fld := ⟨0, 16⟩
-- FAB_LANE_STATUS: R259 of 08_fabric_link.md
abbrev Fld.FAB_LANE_STATUS_LOCK : Fld := ⟨63, 1⟩
abbrev Fld.FAB_LANE_STATUS_INVERT : Fld := ⟨62, 1⟩
abbrev Fld.FAB_LANE_STATUS_BAD : Fld := ⟨61, 1⟩
abbrev Fld.FAB_LANE_STATUS_EYE : Fld := ⟨32, 8⟩
-- FAB_SELF: R281 of 09_fabric_network_and_jobs.md
abbrev Fld.FAB_SELF_VALID : Fld := ⟨63, 1⟩
abbrev Fld.FAB_SELF_TRAY : Fld := ⟨3, 12⟩
abbrev Fld.FAB_SELF_SLOT : Fld := ⟨0, 3⟩
-- FAB_JOB: R281 of 09_fabric_network_and_jobs.md
abbrev Fld.FAB_JOB_STATE : Fld := ⟨62, 2⟩
abbrev Fld.FAB_JOB_REASON : Fld := ⟨59, 3⟩
abbrev Fld.FAB_JOB_JOBTREE : Fld := ⟨48, 8⟩
abbrev Fld.FAB_JOB_EPOCH : Fld := ⟨32, 16⟩
abbrev Fld.FAB_JOB_KEY : Fld := ⟨0, 32⟩
-- FAB_RANK: R281 of 09_fabric_network_and_jobs.md
abbrev Fld.FAB_RANK_VALID : Fld := ⟨63, 1⟩
abbrev Fld.FAB_RANK_RANK : Fld := ⟨0, 15⟩
-- FAB_JOB_CTL: R281 of 09_fabric_network_and_jobs.md
abbrev Fld.FAB_JOB_CTL_TEARDOWN : Fld := ⟨1, 1⟩
abbrev Fld.FAB_JOB_CTL_START : Fld := ⟨0, 1⟩
-- FAB_START: R281 of 09_fabric_network_and_jobs.md
abbrev Fld.FAB_START_JOBTREE : Fld := ⟨48, 8⟩
abbrev Fld.FAB_START_EPOCH : Fld := ⟨32, 16⟩
abbrev Fld.FAB_START_KEY : Fld := ⟨0, 32⟩
-- FAB_NET_CFG: R281 of 09_fabric_network_and_jobs.md
abbrev Fld.FAB_NET_CFG_DRAIN_MS : Fld := ⟨48, 16⟩
abbrev Fld.FAB_NET_CFG_TWIN_ROUTE : Fld := ⟨0, 1⟩
-- FAB_ADMIN_KEY: R281 of 09_fabric_network_and_jobs.md
abbrev Fld.FAB_ADMIN_KEY_KEY : Fld := ⟨0, 32⟩
-- FAB_V2_KEY: R281 of 09_fabric_network_and_jobs.md
abbrev Fld.FAB_V2_KEY_KEY : Fld := ⟨0, 32⟩
-- FAB_DIGEST: R281 of 09_fabric_network_and_jobs.md
abbrev Fld.FAB_DIGEST_D : Fld := ⟨0, 64⟩
-- FAB_EXPECT: R281 of 09_fabric_network_and_jobs.md
abbrev Fld.FAB_EXPECT_D : Fld := ⟨0, 64⟩
-- FAB_RANK_ADDR: R281 of 09_fabric_network_and_jobs.md
abbrev Fld.FAB_RANK_ADDR_INDEX : Fld := ⟨0, 15⟩
-- FAB_RANK_DATA: R281 of 09_fabric_network_and_jobs.md
abbrev Fld.FAB_RANK_DATA_ENTRY : Fld := ⟨0, 64⟩
-- FAB_PLANE_ADDR: R281 of 09_fabric_network_and_jobs.md
abbrev Fld.FAB_PLANE_ADDR_INDEX : Fld := ⟨0, 9⟩
-- FAB_PLANE_DATA: R281 of 09_fabric_network_and_jobs.md
abbrev Fld.FAB_PLANE_DATA_MASKS : Fld := ⟨0, 64⟩
-- FAB_TREE_ADDR: R281 of 09_fabric_network_and_jobs.md
abbrev Fld.FAB_TREE_ADDR_INDEX : Fld := ⟨0, 8⟩
-- FAB_TREE_DATA: R281 of 09_fabric_network_and_jobs.md
abbrev Fld.FAB_TREE_DATA_VALID : Fld := ⟨63, 1⟩
abbrev Fld.FAB_TREE_DATA_FANOUT : Fld := ⟨59, 4⟩
abbrev Fld.FAB_TREE_DATA_GROUP : Fld := ⟨43, 16⟩
abbrev Fld.FAB_TREE_DATA_ROOT : Fld := ⟨28, 15⟩
-- FAB_XDESC_ADDR: R314 of 10_fabric_transport.md
abbrev Fld.FAB_XDESC_ADDR_INDEX : Fld := ⟨1, 12⟩
abbrev Fld.FAB_XDESC_ADDR_WORD : Fld := ⟨0, 1⟩
-- FAB_XDESC_DATA: R314 of 10_fabric_transport.md
abbrev Fld.FAB_XDESC_DATA_DATA : Fld := ⟨0, 64⟩
-- FAB_XPORT_CFG: R314 of 10_fabric_transport.md
abbrev Fld.FAB_XPORT_CFG_RTO_US : Fld := ⟨48, 16⟩
abbrev Fld.FAB_XPORT_CFG_XRETRY_MAX : Fld := ⟨40, 8⟩
abbrev Fld.FAB_XPORT_CFG_TREE_TIMEOUT_US : Fld := ⟨24, 16⟩
-- FAB_CUT: R314 of 10_fabric_transport.md
abbrev Fld.FAB_CUT_LEN : Fld := ⟨28, 28⟩
abbrev Fld.FAB_CUT_BASE : Fld := ⟨0, 28⟩
-- FAB_CUT_USED: R314 of 10_fabric_transport.md
abbrev Fld.FAB_CUT_USED_COUNT : Fld := ⟨0, 64⟩
-- FAB_TREE_FAILED: R314 of 10_fabric_transport.md
abbrev Fld.FAB_TREE_FAILED_VALID : Fld := ⟨63, 1⟩
abbrev Fld.FAB_TREE_FAILED_TREE : Fld := ⟨15, 8⟩
abbrev Fld.FAB_TREE_FAILED_RANK : Fld := ⟨0, 15⟩
-- COL_GROUP_ADDR: R348 of 11_collectives.md
abbrev Fld.COL_GROUP_ADDR_INDEX : Fld := ⟨1, 10⟩
abbrev Fld.COL_GROUP_ADDR_WORD : Fld := ⟨0, 1⟩
-- COL_GROUP_DATA: R348 of 11_collectives.md
abbrev Fld.COL_GROUP_DATA_DATA : Fld := ⟨0, 64⟩
-- COL_LIST_ADDR: R348 of 11_collectives.md
abbrev Fld.COL_LIST_ADDR_INDEX : Fld := ⟨0, 14⟩
-- COL_LIST_DATA: R348 of 11_collectives.md
abbrev Fld.COL_LIST_DATA_DATA : Fld := ⟨0, 64⟩
-- COL_DESC_ADDR: R348 of 11_collectives.md
abbrev Fld.COL_DESC_ADDR_INDEX : Fld := ⟨3, 10⟩
abbrev Fld.COL_DESC_ADDR_WORD : Fld := ⟨0, 3⟩
-- COL_DESC_DATA: R348 of 11_collectives.md
abbrev Fld.COL_DESC_DATA_DATA : Fld := ⟨0, 64⟩
-- COL_START: R348 of 11_collectives.md
abbrev Fld.COL_START_DESC : Fld := ⟨0, 10⟩
-- COL_CFG: R348 of 11_collectives.md
abbrev Fld.COL_CFG_SLOT_WAIT_US : Fld := ⟨48, 16⟩
abbrev Fld.COL_CFG_OPEN_LIMIT_MS : Fld := ⟨32, 16⟩
-- COL_SLOT_USED: R348 of 11_collectives.md
abbrev Fld.COL_SLOT_USED_COUNT : Fld := ⟨0, 9⟩
-- COL_GSEQ_ADDR: R348 of 11_collectives.md
abbrev Fld.COL_GSEQ_ADDR_INDEX : Fld := ⟨0, 10⟩
-- COL_GSEQ_DATA: R348 of 11_collectives.md
abbrev Fld.COL_GSEQ_DATA_ABORTED : Fld := ⟨63, 1⟩
abbrev Fld.COL_GSEQ_DATA_ABORT_FROM : Fld := ⟨32, 31⟩
abbrev Fld.COL_GSEQ_DATA_NEXT : Fld := ⟨0, 32⟩
-- CTX_CTL: R369 of 12_work_contexts.md
abbrev Fld.CTX_CTL_PRIORITY : Fld := ⟨4, 2⟩
abbrev Fld.CTX_CTL_TEARDOWN : Fld := ⟨1, 1⟩
abbrev Fld.CTX_CTL_START : Fld := ⟨0, 1⟩
-- CTX_STATUS: R369 of 12_work_contexts.md
abbrev Fld.CTX_STATUS_STATE : Fld := ⟨62, 2⟩
abbrev Fld.CTX_STATUS_REFUSE : Fld := ⟨58, 4⟩
abbrev Fld.CTX_STATUS_RESETTING : Fld := ⟨57, 1⟩
abbrev Fld.CTX_STATUS_CAUSE : Fld := ⟨0, 16⟩
-- CTX_SLOTS: R369 of 12_work_contexts.md
abbrev Fld.CTX_SLOTS_COUNT : Fld := ⟨18, 20⟩
abbrev Fld.CTX_SLOTS_FIRST : Fld := ⟨0, 18⟩
-- CTX_RURIL_QUOTA: R369 of 12_work_contexts.md
abbrev Fld.CTX_RURIL_QUOTA_TILES : Fld := ⟨0, 28⟩
-- CTX_RURIL_USED: R369 of 12_work_contexts.md
abbrev Fld.CTX_RURIL_USED_TILES : Fld := ⟨0, 28⟩
-- CTX_FABRIC: R369 of 12_work_contexts.md
abbrev Fld.CTX_FABRIC_POOL : Fld := ⟨52, 12⟩
abbrev Fld.CTX_FABRIC_STAGE : Fld := ⟨41, 11⟩
abbrev Fld.CTX_FABRIC_COLSLOTS : Fld := ⟨32, 9⟩
abbrev Fld.CTX_FABRIC_CUT : Fld := ⟨0, 32⟩
-- CTX_INTAKE: R369 of 12_work_contexts.md
abbrev Fld.CTX_INTAKE_MAX : Fld := ⟨0, 15⟩
-- CTX_HOLD: R369 of 12_work_contexts.md
abbrev Fld.CTX_HOLD_HOLD_MAX : Fld := ⟨0, 32⟩
-- CTX_BENCH_ADDR: R369 of 12_work_contexts.md
abbrev Fld.CTX_BENCH_ADDR_INDEX : Fld := ⟨0, 11⟩
-- CTX_BENCH_DATA: R369 of 12_work_contexts.md
abbrev Fld.CTX_BENCH_DATA_MODE : Fld := ⟨8, 2⟩
abbrev Fld.CTX_BENCH_DATA_CTXB : Fld := ⟨4, 4⟩
abbrev Fld.CTX_BENCH_DATA_CTXA : Fld := ⟨0, 4⟩
-- CTX_SEM_ADDR: R369 of 12_work_contexts.md
abbrev Fld.CTX_SEM_ADDR_INDEX : Fld := ⟨0, 12⟩
-- DET_CYCLE: R393 of 13_determinism.md
abbrev Fld.DET_CYCLE_CYCLE : Fld := ⟨0, 64⟩
-- DET_CLAMP_CTL: R393 of 13_determinism.md
abbrev Fld.DET_CLAMP_CTL_CTXMASK : Fld := ⟨48, 16⟩
abbrev Fld.DET_CLAMP_CTL_HALT : Fld := ⟨1, 1⟩
abbrev Fld.DET_CLAMP_CTL_EN : Fld := ⟨0, 1⟩
-- DET_CLAMP_STATUS: R393 of 13_determinism.md
abbrev Fld.DET_CLAMP_STATUS_DIVERGED : Fld := ⟨63, 1⟩
abbrev Fld.DET_CLAMP_STATUS_OVF : Fld := ⟨62, 1⟩
abbrev Fld.DET_CLAMP_STATUS_QUEUED : Fld := ⟨0, 14⟩
-- DET_CLAMP_FIRST: R393 of 13_determinism.md
abbrev Fld.DET_CLAMP_FIRST_VALID : Fld := ⟨63, 1⟩
abbrev Fld.DET_CLAMP_FIRST_BENCH : Fld := ⟨52, 11⟩
abbrev Fld.DET_CLAMP_FIRST_SEQ : Fld := ⟨51, 1⟩
abbrev Fld.DET_CLAMP_FIRST_TILE : Fld := ⟨42, 9⟩
abbrev Fld.DET_CLAMP_FIRST_PG : Fld := ⟨0, 32⟩
-- DET_CLAMP_FIRST2: R393 of 13_determinism.md
abbrev Fld.DET_CLAMP_FIRST2_REMOTE_CRC : Fld := ⟨32, 32⟩
abbrev Fld.DET_CLAMP_FIRST2_LOCAL_CRC : Fld := ⟨0, 32⟩
-- DET_MARK_CFG: R393 of 13_determinism.md
abbrev Fld.DET_MARK_CFG_TREE : Fld := ⟨56, 8⟩
abbrev Fld.DET_MARK_CFG_LEAD : Fld := ⟨44, 12⟩
abbrev Fld.DET_MARK_CFG_NSEQ : Fld := ⟨32, 12⟩
abbrev Fld.DET_MARK_CFG_TIMEOUT_MS : Fld := ⟨16, 16⟩
abbrev Fld.DET_MARK_CFG_TWIN : Fld := ⟨0, 1⟩
-- DET_MARK_CTL: R393 of 13_determinism.md
abbrev Fld.DET_MARK_CTL_CANCEL : Fld := ⟨1, 1⟩
abbrev Fld.DET_MARK_CTL_ARRIVE : Fld := ⟨0, 1⟩
-- DET_MARK_STATUS: R393 of 13_determinism.md
abbrev Fld.DET_MARK_STATUS_VALID : Fld := ⟨63, 1⟩
abbrev Fld.DET_MARK_STATUS_LATE : Fld := ⟨62, 1⟩
abbrev Fld.DET_MARK_STATUS_CANCELLED : Fld := ⟨61, 1⟩
abbrev Fld.DET_MARK_STATUS_WAITING : Fld := ⟨60, 1⟩
abbrev Fld.DET_MARK_STATUS_MARK : Fld := ⟨32, 16⟩
abbrev Fld.DET_MARK_STATUS_STRETCH : Fld := ⟨0, 8⟩
-- DET_MARK_CYCLE: R393 of 13_determinism.md
abbrev Fld.DET_MARK_CYCLE_CYCLE : Fld := ⟨0, 64⟩
-- DET_TCC: R393 of 13_determinism.md
abbrev Fld.DET_TCC_COUNT : Fld := ⟨0, 64⟩
-- DET_TCC_FIRST: R393 of 13_determinism.md
abbrev Fld.DET_TCC_FIRST_VALID : Fld := ⟨63, 1⟩
abbrev Fld.DET_TCC_FIRST_KIND : Fld := ⟨59, 4⟩
abbrev Fld.DET_TCC_FIRST_STEP : Fld := ⟨0, 32⟩
-- DET_PORT_DELAY: R393 of 13_determinism.md
abbrev Fld.DET_PORT_DELAY_VALID : Fld := ⟨63, 1⟩
abbrev Fld.DET_PORT_DELAY_DELAY_PS : Fld := ⟨0, 20⟩
-- JIG_STATUS: R417 of 14_jig_and_glueup.md
abbrev Fld.JIG_STATUS_LOADED : Fld := ⟨63, 1⟩
abbrev Fld.JIG_STATUS_OWNER_UNSET : Fld := ⟨62, 1⟩
abbrev Fld.JIG_STATUS_SOURCE : Fld := ⟨61, 1⟩
abbrev Fld.JIG_STATUS_FAIL : Fld := ⟨48, 4⟩
abbrev Fld.JIG_STATUS_SVN : Fld := ⟨0, 32⟩
-- JIG_CTL: R417 of 14_jig_and_glueup.md
abbrev Fld.JIG_CTL_RESUME : Fld := ⟨1, 1⟩
abbrev Fld.JIG_CTL_PROGRAM : Fld := ⟨0, 1⟩
-- JIG_IMG: R417 of 14_jig_and_glueup.md
abbrev Fld.JIG_IMG_RBASE : Fld := ⟨17, 28⟩
abbrev Fld.JIG_IMG_TILES : Fld := ⟨0, 17⟩
-- JIG_PROG_STATUS: R417 of 14_jig_and_glueup.md
abbrev Fld.JIG_PROG_STATUS_BUSY : Fld := ⟨63, 1⟩
abbrev Fld.JIG_PROG_STATUS_RESULT : Fld := ⟨60, 3⟩
abbrev Fld.JIG_PROG_STATUS_FAIL : Fld := ⟨48, 4⟩
abbrev Fld.JIG_PROG_STATUS_TILES : Fld := ⟨0, 17⟩
-- JIG_GLUE_SRC: R417 of 14_jig_and_glueup.md
abbrev Fld.JIG_GLUE_SRC_RBASE : Fld := ⟨0, 28⟩
-- JIG_GLUE_CTL: R417 of 14_jig_and_glueup.md
abbrev Fld.JIG_GLUE_CTL_CANCEL : Fld := ⟨2, 1⟩
abbrev Fld.JIG_GLUE_CTL_GO : Fld := ⟨1, 1⟩
abbrev Fld.JIG_GLUE_CTL_DRYFIT : Fld := ⟨0, 1⟩
-- JIG_GLUE_STATUS: R417 of 14_jig_and_glueup.md
abbrev Fld.JIG_GLUE_STATUS_STATE : Fld := ⟨60, 4⟩
abbrev Fld.JIG_GLUE_STATUS_RESULT : Fld := ⟨56, 4⟩
abbrev Fld.JIG_GLUE_STATUS_FITCODE : Fld := ⟨52, 4⟩
abbrev Fld.JIG_GLUE_STATUS_ID : Fld := ⟨32, 16⟩
abbrev Fld.JIG_GLUE_STATUS_FIRST : Fld := ⟨0, 28⟩
-- JIG_GLUE_CFG: R417 of 14_jig_and_glueup.md
abbrev Fld.JIG_GLUE_CFG_STOP_MS : Fld := ⟨48, 16⟩
abbrev Fld.JIG_GLUE_CFG_VOTE_MS : Fld := ⟨32, 16⟩
-- JIG_JRNL: R417 of 14_jig_and_glueup.md
abbrev Fld.JIG_JRNL_SLOT : Fld := ⟨63, 1⟩
abbrev Fld.JIG_JRNL_ENTRIES : Fld := ⟨32, 20⟩
abbrev Fld.JIG_JRNL_TILES : Fld := ⟨0, 20⟩
-- GLB_STATE: R436 of 15_power_up_clocks_reset.md
abbrev Fld.GLB_STATE_STATE : Fld := ⟨60, 4⟩
abbrev Fld.GLB_STATE_FAULT_CAUSE : Fld := ⟨32, 16⟩
-- GLB_STATE_CTL: R436 of 15_power_up_clocks_reset.md
abbrev Fld.GLB_STATE_CTL_TRAIN_MS : Fld := ⟨48, 16⟩
abbrev Fld.GLB_STATE_CTL_STOP : Fld := ⟨0, 1⟩
-- GLB_RESET_CTL: R436 of 15_power_up_clocks_reset.md
abbrev Fld.GLB_RESET_CTL_KEY : Fld := ⟨16, 16⟩
abbrev Fld.GLB_RESET_CTL_WARM : Fld := ⟨0, 1⟩
-- GLB_RESET_CAUSE: R436 of 15_power_up_clocks_reset.md
abbrev Fld.GLB_RESET_CAUSE_LAST : Fld := ⟨61, 3⟩
-- GLB_SUPPLY: R436 of 15_power_up_clocks_reset.md
abbrev Fld.GLB_SUPPLY_MAIN_GOOD : Fld := ⟨63, 1⟩
abbrev Fld.GLB_SUPPLY_AUX_GOOD : Fld := ⟨62, 1⟩
abbrev Fld.GLB_SUPPLY_AUX_LOST : Fld := ⟨61, 1⟩
abbrev Fld.GLB_SUPPLY_MAIN_MV : Fld := ⟨32, 16⟩
abbrev Fld.GLB_SUPPLY_AUX_MV : Fld := ⟨16, 16⟩
-- GLB_CLK_STATUS: R436 of 15_power_up_clocks_reset.md
abbrev Fld.GLB_CLK_STATUS_REF_OK : Fld := ⟨63, 1⟩
abbrev Fld.GLB_CLK_STATUS_ROOT_LOCK : Fld := ⟨62, 1⟩
abbrev Fld.GLB_CLK_STATUS_DOM_OK : Fld := ⟨58, 4⟩
-- GLB_WARM_RESETS: R436 of 15_power_up_clocks_reset.md
abbrev Fld.GLB_WARM_RESETS_COUNT : Fld := ⟨0, 64⟩
-- CTX_RESET: R436 of 15_power_up_clocks_reset.md
abbrev Fld.CTX_RESET_RESET : Fld := ⟨0, 1⟩
-- GLB_HIF_ID: R461 of 16_host_cxl.md
abbrev Fld.GLB_HIF_ID_VENDOR : Fld := ⟨48, 16⟩
abbrev Fld.GLB_HIF_ID_DEVICE : Fld := ⟨32, 16⟩
abbrev Fld.GLB_HIF_ID_REV : Fld := ⟨0, 8⟩
-- GLB_HIF_LINK: R461 of 16_host_cxl.md
abbrev Fld.GLB_HIF_LINK_UP : Fld := ⟨63, 1⟩
abbrev Fld.GLB_HIF_LINK_RATE : Fld := ⟨60, 3⟩
abbrev Fld.GLB_HIF_LINK_WIDTH : Fld := ⟨55, 5⟩
abbrev Fld.GLB_HIF_LINK_IDE_CM : Fld := ⟨54, 1⟩
abbrev Fld.GLB_HIF_LINK_IDE_IO : Fld := ⟨53, 1⟩
-- GLB_HIF_CTL: R461 of 16_host_cxl.md
abbrev Fld.GLB_HIF_CTL_PATH : Fld := ⟨0, 1⟩
-- GLB_HIF_OVF: R461 of 16_host_cxl.md
abbrev Fld.GLB_HIF_OVF_LEN : Fld := ⟨28, 28⟩
abbrev Fld.GLB_HIF_OVF_BASE : Fld := ⟨0, 28⟩
-- GLB_HIF_IR_BASE: R461 of 16_host_cxl.md
abbrev Fld.GLB_HIF_IR_BASE_ADDR : Fld := ⟨6, 58⟩
-- GLB_HIF_IR_CFG: R461 of 16_host_cxl.md
abbrev Fld.GLB_HIF_IR_CFG_ENABLE : Fld := ⟨63, 1⟩
abbrev Fld.GLB_HIF_IR_CFG_START : Fld := ⟨16, 16⟩
abbrev Fld.GLB_HIF_IR_CFG_LOG2SIZE : Fld := ⟨0, 5⟩
-- GLB_HIF_IR_STATE: R461 of 16_host_cxl.md
abbrev Fld.GLB_HIF_IR_STATE_TAIL : Fld := ⟨16, 16⟩
abbrev Fld.GLB_HIF_IR_STATE_HEAD : Fld := ⟨0, 16⟩
-- GLB_HIF_CR_BASE: R461 of 16_host_cxl.md
abbrev Fld.GLB_HIF_CR_BASE_ADDR : Fld := ⟨6, 58⟩
-- GLB_HIF_CR_CFG: R461 of 16_host_cxl.md
abbrev Fld.GLB_HIF_CR_CFG_ENABLE : Fld := ⟨63, 1⟩
abbrev Fld.GLB_HIF_CR_CFG_IEN : Fld := ⟨62, 1⟩
abbrev Fld.GLB_HIF_CR_CFG_COAL_US : Fld := ⟨32, 16⟩
abbrev Fld.GLB_HIF_CR_CFG_LOG2SIZE : Fld := ⟨0, 5⟩
-- GLB_HIF_CR_STATE: R461 of 16_host_cxl.md
abbrev Fld.GLB_HIF_CR_STATE_PHASE : Fld := ⟨63, 1⟩
abbrev Fld.GLB_HIF_CR_STATE_QUEUED : Fld := ⟨32, 24⟩
abbrev Fld.GLB_HIF_CR_STATE_HEAD : Fld := ⟨16, 16⟩
abbrev Fld.GLB_HIF_CR_STATE_TAIL : Fld := ⟨0, 16⟩
-- IR_TAIL: R461 of 16_host_cxl.md
abbrev Fld.IR_TAIL_TAIL : Fld := ⟨0, 16⟩
-- CR_HEAD: R461 of 16_host_cxl.md
abbrev Fld.CR_HEAD_HEAD : Fld := ⟨0, 16⟩
-- KLN_CTL: R478 of 17_kiln.md
abbrev Fld.KLN_CTL_ESTORE_EN : Fld := ⟨3, 1⟩
abbrev Fld.KLN_CTL_BALLAST_EN : Fld := ⟨2, 1⟩
abbrev Fld.KLN_CTL_VALVE_AUTO : Fld := ⟨1, 1⟩
abbrev Fld.KLN_CTL_AVS_EN : Fld := ⟨0, 1⟩
-- KLN_STATUS: R478 of 17_kiln.md
abbrev Fld.KLN_STATUS_LEVEL : Fld := ⟨56, 8⟩
abbrev Fld.KLN_STATUS_DROOP : Fld := ⟨55, 1⟩
abbrev Fld.KLN_STATUS_LIMIT : Fld := ⟨54, 1⟩
abbrev Fld.KLN_STATUS_RAMP : Fld := ⟨53, 1⟩
abbrev Fld.KLN_STATUS_JWARN : Fld := ⟨52, 1⟩
abbrev Fld.KLN_STATUS_BALLAST : Fld := ⟨51, 1⟩
abbrev Fld.KLN_STATUS_CAP_VALID : Fld := ⟨50, 1⟩
abbrev Fld.KLN_STATUS_WARN : Fld := ⟨32, 5⟩
-- KLN_POWER_CFG: R478 of 17_kiln.md
abbrev Fld.KLN_POWER_CFG_PMAX : Fld := ⟨52, 12⟩
abbrev Fld.KLN_POWER_CFG_RAMP : Fld := ⟨36, 16⟩
abbrev Fld.KLN_POWER_CFG_BALLAST_MAX : Fld := ⟨24, 12⟩
abbrev Fld.KLN_POWER_CFG_FLOOR : Fld := ⟨12, 12⟩
abbrev Fld.KLN_POWER_CFG_HYST : Fld := ⟨0, 12⟩
-- KLN_POWER: R478 of 17_kiln.md
abbrev Fld.KLN_POWER_P_NOW : Fld := ⟨52, 12⟩
abbrev Fld.KLN_POWER_CEIL : Fld := ⟨40, 12⟩
abbrev Fld.KLN_POWER_FLOOR_NOW : Fld := ⟨28, 12⟩
abbrev Fld.KLN_POWER_CAP : Fld := ⟨16, 12⟩
-- KLN_AVS_CFG: R478 of 17_kiln.md
abbrev Fld.KLN_AVS_CFG_VMIN_MV : Fld := ⟨48, 16⟩
abbrev Fld.KLN_AVS_CFG_VMAX_MV : Fld := ⟨32, 16⟩
abbrev Fld.KLN_AVS_CFG_MARGIN_TGT : Fld := ⟨24, 8⟩
abbrev Fld.KLN_AVS_CFG_DROOP_MV : Fld := ⟨16, 8⟩
-- KLN_THERM_CFG: R478 of 17_kiln.md
abbrev Fld.KLN_THERM_CFG_OUT_TARGET : Fld := ⟨56, 8⟩
abbrev Fld.KLN_THERM_CFG_OUT_WARN : Fld := ⟨48, 8⟩
abbrev Fld.KLN_THERM_CFG_J_WARN : Fld := ⟨40, 8⟩
abbrev Fld.KLN_THERM_CFG_J_TRIP : Fld := ⟨24, 8⟩
abbrev Fld.KLN_THERM_CFG_OUT_TRIP : Fld := ⟨16, 8⟩
-- KLN_VALVE_CFG: R478 of 17_kiln.md
abbrev Fld.KLN_VALVE_CFG_KP : Fld := ⟨48, 16⟩
abbrev Fld.KLN_VALVE_CFG_KI : Fld := ⟨32, 16⟩
abbrev Fld.KLN_VALVE_CFG_KF : Fld := ⟨16, 16⟩
abbrev Fld.KLN_VALVE_CFG_MIN_DUTY : Fld := ⟨8, 8⟩
abbrev Fld.KLN_VALVE_CFG_MANUAL : Fld := ⟨0, 8⟩
-- KLN_TEMPS: R478 of 17_kiln.md
abbrev Fld.KLN_TEMPS_INLET : Fld := ⟨48, 16⟩
abbrev Fld.KLN_TEMPS_OUTLET : Fld := ⟨32, 16⟩
abbrev Fld.KLN_TEMPS_JMAX : Fld := ⟨16, 16⟩
-- KLN_VALVE: R478 of 17_kiln.md
abbrev Fld.KLN_VALVE_CMD : Fld := ⟨56, 8⟩
abbrev Fld.KLN_VALVE_FB : Fld := ⟨48, 8⟩
-- KLN_ESTORE_CFG: R478 of 17_kiln.md
abbrev Fld.KLN_ESTORE_CFG_LOSS_MS : Fld := ⟨48, 16⟩
-- KLN_GROUP: R478 of 17_kiln.md
abbrev Fld.KLN_GROUP_MV : Fld := ⟨48, 16⟩
abbrev Fld.KLN_GROUP_MARGIN : Fld := ⟨40, 8⟩
abbrev Fld.KLN_GROUP_POWER : Fld := ⟨24, 16⟩
-- MGT_PID: R498 of 18_management_and_security.md
abbrev Fld.MGT_PID_PID : Fld := ⟨0, 48⟩
-- MGT_SB_STATUS: R498 of 18_management_and_security.md
abbrev Fld.MGT_SB_STATUS_DA_VALID : Fld := ⟨63, 1⟩
abbrev Fld.MGT_SB_STATUS_DA : Fld := ⟨56, 7⟩
abbrev Fld.MGT_SB_STATUS_DSTATE : Fld := ⟨52, 4⟩
abbrev Fld.MGT_SB_STATUS_FAULT_CAUSE : Fld := ⟨36, 16⟩
abbrev Fld.MGT_SB_STATUS_LAST : Fld := ⟨34, 2⟩
-- MGT_TRAY: R498 of 18_management_and_security.md
abbrev Fld.MGT_TRAY_VALID : Fld := ⟨63, 1⟩
abbrev Fld.MGT_TRAY_TRAY : Fld := ⟨0, 12⟩
-- MGT_IBI_MASK: R498 of 18_management_and_security.md
abbrev Fld.MGT_IBI_MASK_MASK : Fld := ⟨5, 3⟩
-- SEC_POLICY: R499 of 18_management_and_security.md
abbrev Fld.SEC_POLICY_BURST : Fld := ⟨24, 8⟩
abbrev Fld.SEC_POLICY_RATE : Fld := ⟨16, 8⟩
abbrev Fld.SEC_POLICY_IDE_REQUIRED : Fld := ⟨2, 1⟩
abbrev Fld.SEC_POLICY_SB_ATTEST : Fld := ⟨1, 1⟩
abbrev Fld.SEC_POLICY_SB_WRITE : Fld := ⟨0, 1⟩
-- SEC_OWNER: R499 of 18_management_and_security.md
abbrev Fld.SEC_OWNER_HASH : Fld := ⟨0, 64⟩
-- SEC_SVN: R499 of 18_management_and_security.md
abbrev Fld.SEC_SVN_COUNT : Fld := ⟨0, 7⟩
-- SEC_LEAF: R499 of 18_management_and_security.md
abbrev Fld.SEC_LEAF_RES : Fld := ⟨52, 12⟩
abbrev Fld.SEC_LEAF_NEXT : Fld := ⟨0, 40⟩
-- SEC_OWNER_STAGE: R499 of 18_management_and_security.md
abbrev Fld.SEC_OWNER_STAGE_HASH : Fld := ⟨0, 64⟩
-- SEC_OWNER_SIGTILE: R499 of 18_management_and_security.md
abbrev Fld.SEC_OWNER_SIGTILE_TILE : Fld := ⟨0, 28⟩
-- SEC_FUSE_CTL: R499 of 18_management_and_security.md
abbrev Fld.SEC_FUSE_CTL_KEY : Fld := ⟨48, 16⟩
abbrev Fld.SEC_FUSE_CTL_BURN_SVN : Fld := ⟨1, 1⟩
abbrev Fld.SEC_FUSE_CTL_BURN_OWNER : Fld := ⟨0, 1⟩
-- SEC_FUSE_STATUS: R499 of 18_management_and_security.md
abbrev Fld.SEC_FUSE_STATUS_BUSY : Fld := ⟨63, 1⟩
abbrev Fld.SEC_FUSE_STATUS_RESULT : Fld := ⟨60, 3⟩
-- ERR_CTL: R534 of 20_address_map_and_errors.md
abbrev Fld.ERR_CTL_IEN : Fld := ⟨0, 1⟩
-- ERR_STATE: R534 of 20_address_map_and_errors.md
abbrev Fld.ERR_STATE_TAIL : Fld := ⟨32, 32⟩
abbrev Fld.ERR_STATE_HEAD : Fld := ⟨0, 32⟩
-- ERR_HEAD: R534 of 20_address_map_and_errors.md
abbrev Fld.ERR_HEAD_HEAD : Fld := ⟨0, 32⟩
-- ERR_RECORD: R534 of 20_address_map_and_errors.md
abbrev Fld.ERR_RECORD_WORD : Fld := ⟨0, 64⟩
-- GLB_BAD_FIRST: R534 of 20_address_map_and_errors.md
abbrev Fld.GLB_BAD_FIRST_VALID : Fld := ⟨63, 1⟩
abbrev Fld.GLB_BAD_FIRST_SOURCE : Fld := ⟨62, 1⟩
abbrev Fld.GLB_BAD_FIRST_KIND : Fld := ⟨60, 2⟩
abbrev Fld.GLB_BAD_FIRST_OFFSET : Fld := ⟨0, 26⟩

/-! ## Fields of table entries (name, word number, field) -/

-- OBJ0: R120 of 04_ruril_and_tiers.md
abbrev Fld.OBJ0_MITRE : Fld := ⟨58, 2⟩
abbrev Fld.OBJ0_MISS_PATH : Fld := ⟨56, 2⟩
abbrev Fld.OBJ0_MISS_CANCEL : Fld := ⟨55, 1⟩
abbrev Fld.OBJ0_EVICT_PENDING : Fld := ⟨54, 1⟩
abbrev Fld.OBJ0_SRAM : Fld := ⟨52, 2⟩
abbrev Fld.OBJ0_VALID : Fld := ⟨51, 1⟩
abbrev Fld.OBJ0_STATE : Fld := ⟨48, 3⟩
abbrev Fld.OBJ0_OWNER : Fld := ⟨44, 4⟩
abbrev Fld.OBJ0_OBJECT : Fld := ⟨0, 40⟩
-- OBJ1: R120 of 04_ruril_and_tiers.md
abbrev Fld.OBJ1_FORMAT : Fld := ⟨52, 8⟩
abbrev Fld.OBJ1_LEN : Fld := ⟨28, 24⟩
abbrev Fld.OBJ1_RBASE : Fld := ⟨0, 28⟩
-- OBJ2: R120 of 04_ruril_and_tiers.md
abbrev Fld.OBJ2_TFIRST : Fld := ⟨22, 9⟩
abbrev Fld.OBJ2_BCOUNT : Fld := ⟨11, 11⟩
abbrev Fld.OBJ2_BFIRST : Fld := ⟨0, 11⟩
-- OBJ3: R120 of 04_ruril_and_tiers.md
abbrev Fld.OBJ3_REP_OBJECT : Fld := ⟨16, 40⟩
abbrev Fld.OBJ3_REP_VALID : Fld := ⟨15, 1⟩
abbrev Fld.OBJ3_REP_RANK : Fld := ⟨0, 15⟩
-- OBJ4: R120 of 04_ruril_and_tiers.md
abbrev Fld.OBJ4_HOSTADDR : Fld := ⟨12, 52⟩
abbrev Fld.OBJ4_HOST_VALID : Fld := ⟨0, 1⟩
-- OBJ5: R120 of 04_ruril_and_tiers.md
abbrev Fld.OBJ5_SIGNUM : Fld := ⟨44, 8⟩
abbrev Fld.OBJ5_SEM : Fld := ⟨32, 12⟩
abbrev Fld.OBJ5_DEADLINE : Fld := ⟨0, 32⟩
-- LAYER0: R193 of 06_dovetail_selection.md
abbrev Fld.LAYER0_VALID : Fld := ⟨63, 1⟩
abbrev Fld.LAYER0_CTX : Fld := ⟨59, 4⟩
abbrev Fld.LAYER0_LAYER : Fld := ⟨51, 8⟩
abbrev Fld.LAYER0_E : Fld := ⟨37, 14⟩
abbrev Fld.LAYER0_K : Fld := ⟨32, 5⟩
abbrev Fld.LAYER0_DEPTH : Fld := ⟨28, 4⟩
abbrev Fld.LAYER0_NORM : Fld := ⟨26, 2⟩
abbrev Fld.LAYER0_SKIP_EN : Fld := ⟨25, 1⟩
abbrev Fld.LAYER0_LAYER_SKIP : Fld := ⟨24, 1⟩
abbrev Fld.LAYER0_SPILL : Fld := ⟨23, 1⟩
abbrev Fld.LAYER0_BAL_EN : Fld := ⟨22, 1⟩
abbrev Fld.LAYER0_TBASE : Fld := ⟨0, 20⟩
-- LAYER1: R193 of 06_dovetail_selection.md
abbrev Fld.LAYER1_WSCALE : Fld := ⟨32, 32⟩
abbrev Fld.LAYER1_ETA : Fld := ⟨0, 32⟩
-- LAYER2: R193 of 06_dovetail_selection.md
abbrev Fld.LAYER2_BMAX : Fld := ⟨32, 32⟩
-- LAYER3: R193 of 06_dovetail_selection.md
-- SEL0: R194 of 06_dovetail_selection.md
abbrev Fld.SEL0_BIAS : Fld := ⟨32, 32⟩
abbrev Fld.SEL0_CAP : Fld := ⟨16, 16⟩
abbrev Fld.SEL0_OVF : Fld := ⟨14, 2⟩
abbrev Fld.SEL0_NULL : Fld := ⟨13, 1⟩
abbrev Fld.SEL0_BAL : Fld := ⟨12, 1⟩
-- SEL1: R194 of 06_dovetail_selection.md
abbrev Fld.SEL1_LOAD : Fld := ⟨32, 32⟩
abbrev Fld.SEL1_OVFCNT : Fld := ⟨0, 32⟩
-- DISP0: R227 of 07_dovetail_dispatch_combine.md
abbrev Fld.DISP0_VALID : Fld := ⟨63, 1⟩
abbrev Fld.DISP0_REDIR_EN : Fld := ⟨62, 1⟩
abbrev Fld.DISP0_ARRIVAL : Fld := ⟨61, 1⟩
abbrev Fld.DISP0_PLACE_EN : Fld := ⟨60, 1⟩
abbrev Fld.DISP0_IFMT : Fld := ⟨52, 8⟩
abbrev Fld.DISP0_RFMT : Fld := ⟨44, 8⟩
abbrev Fld.DISP0_OFMT : Fld := ⟨36, 8⟩
abbrev Fld.DISP0_WB : Fld := ⟨30, 6⟩
abbrev Fld.DISP0_SRC_BFIRST : Fld := ⟨19, 11⟩
abbrev Fld.DISP0_SRC_TILE : Fld := ⟨10, 9⟩
-- DISP1: R227 of 07_dovetail_dispatch_combine.md
abbrev Fld.DISP1_OUT_BFIRST : Fld := ⟨53, 11⟩
abbrev Fld.DISP1_OUT_TILE : Fld := ⟨44, 9⟩
abbrev Fld.DISP1_CSEM : Fld := ⟨32, 12⟩
abbrev Fld.DISP1_CNUM : Fld := ⟨24, 8⟩
abbrev Fld.DISP1_LBASE : Fld := ⟨12, 12⟩
abbrev Fld.DISP1_LCOUNT : Fld := ⟨0, 12⟩
-- MAP0: R229 of 07_dovetail_dispatch_combine.md
abbrev Fld.MAP0_NM1 : Fld := ⟨60, 2⟩
abbrev Fld.MAP0_RANK3 : Fld := ⟨45, 15⟩
abbrev Fld.MAP0_RANK2 : Fld := ⟨30, 15⟩
abbrev Fld.MAP0_RANK1 : Fld := ⟨15, 15⟩
abbrev Fld.MAP0_RANK0 : Fld := ⟨0, 15⟩
-- MAP1: R229 of 07_dovetail_dispatch_combine.md
abbrev Fld.MAP1_STAGED : Fld := ⟨0, 64⟩
-- MAP2: R229 of 07_dovetail_dispatch_combine.md
abbrev Fld.MAP2_EMA : Fld := ⟨32, 32⟩
abbrev Fld.MAP2_DEMAND : Fld := ⟨0, 32⟩
-- MAP3: R229 of 07_dovetail_dispatch_combine.md
-- LOC0: R230 of 07_dovetail_dispatch_combine.md
abbrev Fld.LOC0_VALID : Fld := ⟨63, 1⟩
abbrev Fld.LOC0_LDESC : Fld := ⟨55, 8⟩
abbrev Fld.LOC0_EXPERT : Fld := ⟨42, 13⟩
abbrev Fld.LOC0_INST : Fld := ⟨40, 2⟩
abbrev Fld.LOC0_OBJECT : Fld := ⟨0, 40⟩
-- LOC1: R230 of 07_dovetail_dispatch_combine.md
abbrev Fld.LOC1_IN_BFIRST : Fld := ⟨53, 11⟩
abbrev Fld.LOC1_IN_BCOUNT : Fld := ⟨42, 11⟩
abbrev Fld.LOC1_NSLICE : Fld := ⟨36, 6⟩
abbrev Fld.LOC1_IN_TILE : Fld := ⟨27, 9⟩
abbrev Fld.LOC1_MAXC : Fld := ⟨11, 16⟩
-- LOC2: R230 of 07_dovetail_dispatch_combine.md
abbrev Fld.LOC2_OUT_BFIRST : Fld := ⟨53, 11⟩
abbrev Fld.LOC2_OUT_TILE : Fld := ⟨44, 9⟩
abbrev Fld.LOC2_RSEM : Fld := ⟨32, 12⟩
abbrev Fld.LOC2_RNUM : Fld := ⟨24, 8⟩
abbrev Fld.LOC2_SPILL_CAP : Fld := ⟨8, 16⟩
-- LOC3: R230 of 07_dovetail_dispatch_combine.md
abbrev Fld.LOC3_COUNT : Fld := ⟨32, 32⟩
-- XDESC0: R283 of 10_fabric_transport.md
abbrev Fld.XDESC0_VALID : Fld := ⟨63, 1⟩
abbrev Fld.XDESC0_CTX : Fld := ⟨59, 4⟩
abbrev Fld.XDESC0_KIND : Fld := ⟨56, 3⟩
abbrev Fld.XDESC0_ORDERED : Fld := ⟨55, 1⟩
abbrev Fld.XDESC0_LAND : Fld := ⟨54, 1⟩
abbrev Fld.XDESC0_PEER : Fld := ⟨35, 15⟩
abbrev Fld.XDESC0_CHAN : Fld := ⟨19, 16⟩
abbrev Fld.XDESC0_FORMAT : Fld := ⟨11, 8⟩
-- XDESC1: R283 of 10_fabric_transport.md
abbrev Fld.XDESC1_RBASE : Fld := ⟨36, 28⟩
abbrev Fld.XDESC1_SEM : Fld := ⟨24, 12⟩
abbrev Fld.XDESC1_SIGNUM : Fld := ⟨16, 8⟩
-- GROUP0: R316 of 11_collectives.md
abbrev Fld.GROUP0_VALID : Fld := ⟨63, 1⟩
abbrev Fld.GROUP0_CTX : Fld := ⟨59, 4⟩
abbrev Fld.GROUP0_MODE : Fld := ⟨58, 1⟩
abbrev Fld.GROUP0_N : Fld := ⟨42, 16⟩
abbrev Fld.GROUP0_FIRST : Fld := ⟨27, 15⟩
abbrev Fld.GROUP0_STRIDE : Fld := ⟨12, 15⟩
-- GROUP1: R316 of 11_collectives.md
abbrev Fld.GROUP1_LBASE : Fld := ⟨0, 16⟩
-- DESC0: R321 of 11_collectives.md
abbrev Fld.DESC0_VALID : Fld := ⟨63, 1⟩
abbrev Fld.DESC0_CTX : Fld := ⟨59, 4⟩
abbrev Fld.DESC0_PRIM : Fld := ⟨56, 3⟩
abbrev Fld.DESC0_OP : Fld := ⟨54, 2⟩
abbrev Fld.DESC0_IFMT : Fld := ⟨46, 8⟩
abbrev Fld.DESC0_OFMT : Fld := ⟨38, 8⟩
abbrev Fld.DESC0_GROUP : Fld := ⟨28, 10⟩
abbrev Fld.DESC0_ROOT : Fld := ⟨13, 15⟩
-- DESC1: R321 of 11_collectives.md
abbrev Fld.DESC1_COUNT : Fld := ⟨32, 32⟩
abbrev Fld.DESC1_TSEM : Fld := ⟨20, 12⟩
abbrev Fld.DESC1_TNUM : Fld := ⟨12, 8⟩
-- DESC2: R321 of 11_collectives.md
abbrev Fld.DESC2_SKIND : Fld := ⟨63, 1⟩
abbrev Fld.DESC2_SBFIRST : Fld := ⟨52, 11⟩
abbrev Fld.DESC2_SBCOUNT : Fld := ⟨41, 11⟩
abbrev Fld.DESC2_STILE : Fld := ⟨32, 9⟩
abbrev Fld.DESC2_SRBASE : Fld := ⟨0, 28⟩
-- DESC3: R321 of 11_collectives.md
-- DESC4: R321 of 11_collectives.md
abbrev Fld.DESC4_WBASE : Fld := ⟨36, 28⟩
abbrev Fld.DESC4_DSEM : Fld := ⟨24, 12⟩
abbrev Fld.DESC4_DNUM : Fld := ⟨16, 8⟩
-- SEM: R359 of 12_work_contexts.md
abbrev Fld.SEM_OWNER : Fld := ⟨60, 4⟩
abbrev Fld.SEM_PEER_EN : Fld := ⟨59, 1⟩
abbrev Fld.SEM_PEER : Fld := ⟨55, 4⟩
abbrev Fld.SEM_LOCK : Fld := ⟨54, 1⟩
abbrev Fld.SEM_HELD : Fld := ⟨53, 1⟩
abbrev Fld.SEM_HOLDER : Fld := ⟨49, 4⟩
abbrev Fld.SEM_VALUE : Fld := ⟨0, 16⟩

/-! ## Access codes and reset values -/

/-- A row of the register index: base offset, stride and count, the masks of its RW, RWS, RW1C, RO and WO fields
(R8) and its reset value. -/
structure RegRow where
  base : Nat
  stride : Nat
  count : Nat
  rw : Word
  rws : Word
  w1c : Word
  ro : Word
  wo : Word
  reset : Word
  deriving DecidableEq, Repr

/-- Register rows of 01_benches.md. -/
def regRows01_0 : List RegRow := [
  ⟨0x2000000, 0x1000, 1176, 0x1, 0, 0, 0, 0, 0⟩, -- BEN_CTL
  ⟨0x2000008, 0x1000, 1176, 0, 0, 0, 0xffffffff, 0, 0xa0000000⟩, -- BEN_STATUS
  ⟨0x2000010, 0x1000, 1176, 0, 0, 0x8000000000000000, 0xffff1fff00ff, 0, 0⟩, -- BEN_FAULT0
  ⟨0x2000018, 0x1000, 1176, 0, 0, 0x8000000000000000, 0xffff1fff00ff, 0, 0⟩, -- BEN_FAULT1
  ⟨0x2000020, 0x1000, 1176, 0x1f1f, 0, 0, 0, 0, 0x700⟩, -- BEN_EXC_CTL
  ⟨0x2000028, 0x1000, 1176, 0, 0, 0x8000000000000000, 0x7fffffffffffffff, 0, 0⟩, -- BEN_EXC_FIRST
  ⟨0x2000030, 0x1000, 1176, 0x3fff, 0, 0, 0, 0, 0⟩, -- BEN_IMEM_ADDR
  ⟨0x2000038, 0x1000, 1176, 0xffffffffffffffff, 0, 0, 0, 0, 0⟩, -- BEN_IMEM_DATA
  ⟨0x2000040, 0x1000, 1176, 0, 0, 0, 0, 0x3fff3fff, 0⟩, -- BEN_START
  ⟨0x2000048, 0x1000, 1176, 0, 0, 0, 0, 0x1, 0⟩, -- BEN_RESET
  ⟨0x2000050, 0x1000, 1176, 0, 0, 0, 0xffffffffffffffff, 0, 0⟩, -- BEN_CYCLE_COUNT
  ⟨0x2000058, 0x1000, 1176, 0, 0, 0, 0xffffffffffffffff, 0, 0⟩, -- BEN_PASS_COUNT
  ⟨0x2000060, 0x1000, 1176, 0, 0, 0, 0xffffffffffffffff, 0, 0⟩, -- BEN_ROW_BUSY
  ⟨0x2000068, 0x1000, 1176, 0, 0, 0, 0xffffffffffffffff, 0, 0⟩, -- BEN_SHAVE_BUSY
  ⟨0x2000070, 0x1000, 1176, 0, 0, 0, 0xffffffffffffffff, 0, 0⟩] -- BEN_SAND_BUSY
/-- Register rows of 02_number_formats.md. -/
def regRows02_0 : List RegRow := [
  ⟨0x0C00400, 0x1000, 16, 0, 0, 0, 0xffffffffffffffff, 0, 0⟩, -- CTX_EXC_INVALID
  ⟨0x0C00408, 0x1000, 16, 0, 0, 0, 0xffffffffffffffff, 0, 0⟩, -- CTX_EXC_DIVZERO
  ⟨0x0C00410, 0x1000, 16, 0, 0, 0, 0xffffffffffffffff, 0, 0⟩, -- CTX_EXC_OVERFLOW
  ⟨0x0C00418, 0x1000, 16, 0, 0, 0, 0xffffffffffffffff, 0, 0⟩, -- CTX_EXC_UNDERFLOW
  ⟨0x0C00420, 0x1000, 16, 0, 0, 0, 0xffffffffffffffff, 0, 0⟩, -- CTX_EXC_INEXACT
  ⟨0x0C00428, 0x1000, 16, 0, 0, 0, 0xffffffffffffffff, 0, 0⟩, -- CTX_UNDERFLOW_FLUSH
  ⟨0x0C00430, 0x1000, 16, 0, 0, 0, 0xffffffffffffffff, 0, 0⟩] -- CTX_ESC_LOST
/-- Register rows of 03_bench_memory_and_tiles.md. -/
def regRows03_0 : List RegRow := [
  ⟨0x2000078, 0x1000, 1176, 0x3ff, 0, 0, 0, 0, 0⟩, -- BEN_FDESC_ADDR
  ⟨0x2000080, 0x1000, 1176, 0xffffffffffffffff, 0, 0, 0, 0, 0⟩, -- BEN_FDESC_DATA
  ⟨0x2000088, 0x1000, 1176, 0, 0, 0, 0xffffffffffffffff, 0, 0⟩, -- BEN_SRAM_ECC_CORR
  ⟨0x2000090, 0x1000, 1176, 0, 0, 0, 0xffffffffffffffff, 0, 0⟩, -- BEN_TILE_CHECK_FAIL
  ⟨0x2000098, 0x1000, 1176, 0, 0, 0, 0xffffffffffffffff, 0, 0⟩, -- BEN_TILE_REFETCH
  ⟨0x20000A0, 0x1000, 1176, 0, 0, 0x8000000000000000, 0x7fff00ffffffffff, 0, 0⟩, -- BEN_CHECK_FIRST
  ⟨0x20000A8, 0x1000, 1176, 0xffff, 0, 0, 0, 0, 0xaaaa⟩, -- BEN_FLOOR_SYS
  ⟨0x0000100, 0, 1, 0, 0, 0, 0, 0x3, 0⟩, -- GLB_FLOOR_CTL
  ⟨0x0000108, 0, 1, 0, 0, 0, 0xf000ffffffe003ff, 0, 0⟩] -- GLB_FLOOR_STATUS
/-- Register rows of 04_ruril_and_tiers.md. -/
def regRows04_0 : List RegRow := [
  ⟨0x0800000, 0, 1, 0x7ffff, 0, 0, 0, 0, 0⟩, -- TIR_OBJ_ADDR
  ⟨0x0800008, 0, 1, 0xffffffffffffffff, 0, 0, 0, 0, 0⟩, -- TIR_OBJ_DATA
  ⟨0x0800010, 0, 1, 0, 0, 0, 0, 0xff0000ffffffffff, 0⟩, -- TIR_REQ0
  ⟨0x0800018, 0, 1, 0, 0, 0, 0, 0xfffffffffffff000, 0⟩, -- TIR_REQ1
  ⟨0x0800020, 0, 1, 0, 0, 0, 0xffffffffffffffff, 0, 0⟩, -- TIR_STEP_START
  ⟨0x0800028, 0, 1, 0xffff, 0, 0, 0, 0, 0x3e8⟩, -- TIR_RECOVER_CTL
  ⟨0x0800030, 0, 1, 0, 0, 0x8000000000000000, 0x7ffffff0000ffff, 0, 0⟩, -- TIR_POISON_FIRST
  ⟨0x0800038, 0, 1, 0, 0, 0, 0xffffffffffffffff, 0, 0⟩, -- TIR_PROMOTE_COUNT
  ⟨0x0800040, 0, 1, 0, 0, 0, 0xffffffffffffffff, 0, 0⟩, -- TIR_TILES_IN
  ⟨0x0800048, 0, 1, 0, 0, 0, 0xffffffffffffffff, 0, 0⟩, -- TIR_TILES_OUT
  ⟨0x0800050, 0, 1, 0, 0, 0, 0xffffffffffffffff, 0, 0⟩, -- TIR_DEADLINE_MISS
  ⟨0x0800058, 0, 1, 0, 0, 0, 0xffffffffffffffff, 0, 0⟩, -- TIR_EVICT_DEFER
  ⟨0x0800060, 0, 1, 0, 0, 0, 0xffffffffffffffff, 0, 0⟩, -- TIR_BAD_REQ
  ⟨0x0800068, 0, 1, 0, 0, 0, 0xffffffffffffffff, 0, 0⟩, -- TIR_POISON_EVENTS
  ⟨0x0800070, 0, 1, 0, 0, 0, 0xffffffffffffffff, 0, 0⟩, -- TIR_POISON_MISS
  ⟨0x0800078, 0, 1, 0, 0, 0, 0xffffffffffffffff, 0, 0⟩, -- TIR_RECOVERED
  ⟨0x0800080, 0, 1, 0, 0, 0, 0xffffffffffffffff, 0, 0⟩, -- TIR_LATE_WRITE
  ⟨0x0800088, 0, 1, 0, 0, 0, 0xffffffffffffffff, 0, 0⟩, -- TIR_HOST_WRITE_DROP
  ⟨0x0800100, 0x8, 8, 0, 0, 0, 0xffffffffffffffff, 0, 0⟩, -- TIR_ECC_CORR
  ⟨0x0800140, 0x8, 8, 0, 0, 0, 0xffffffffffffffff, 0, 0⟩, -- TIR_ECC_UNCORR
  ⟨0x0C00438, 0x1000, 16, 0, 0, 0, 0xffffffffffffffff, 0, 0⟩] -- CTX_TIER_MISS
/-- Register rows of 05_buffer_pool_and_sequences.md. -/
def regRows05_0 : List RegRow := [
  ⟨0x0A00000, 0, 1, 0xffffffffffffff, 0, 0, 0, 0, 0⟩, -- BPM_POOL
  ⟨0x0A00008, 0, 1, 0xfffffff0000000, 0, 0, 0x2, 0x1, 0⟩, -- BPM_POOL_CTL
  ⟨0x0A00010, 0, 1, 0, 0, 0, 0xfffffff, 0, 0xfffffff⟩, -- BPM_FREE_HEAD
  ⟨0x0A00018, 0, 1, 0, 0, 0, 0xffffffffffffffff, 0, 0⟩, -- BPM_FREE_COUNT
  ⟨0x0A00020, 0, 1, 0, 0, 0, 0, 0xffffffffffffffff, 0⟩, -- BPM_REQ0
  ⟨0x0A00028, 0, 1, 0, 0, 0, 0, 0xffffff, 0⟩, -- BPM_REQ1
  ⟨0x0A00030, 0, 1, 0, 0, 0, 0xf00000000fffffff, 0, 0⟩, -- BPM_RESULT
  ⟨0x0A00038, 0, 1, 0x1fffff000, 0, 0, 0, 0, 0x1000⟩, -- BPM_STEP_CTL
  ⟨0x0A00040, 0, 1, 0, 0, 0, 0, 0x1, 0⟩, -- BPM_STEP_END
  ⟨0x0A00048, 0, 1, 0, 0, 0, 0xf0000000ffffffff, 0, 0⟩, -- BPM_STEP_STATUS
  ⟨0x0A00050, 0, 1, 0, 0, 0, 0xffffffffff, 0, 0x1⟩, -- BPM_ADMIT_NEXT
  ⟨0x0A00058, 0, 1, 0x1fffff, 0, 0, 0, 0, 0⟩, -- BPM_SLOT_ADDR
  ⟨0x0A00060, 0, 1, 0, 0, 0, 0xffffffffffffffff, 0, 0⟩, -- BPM_SLOT_DATA
  ⟨0x0A00068, 0, 1, 0, 0, 0, 0, 0x3ffffff, 0⟩, -- BPM_SLOT_REQ
  ⟨0x0A00070, 0, 1, 0, 0, 0, 0xffffffffffffffff, 0, 0x400⟩, -- BPM_STAGE_FREE
  ⟨0x0A00080, 0, 1, 0, 0, 0, 0xffffffffffffffff, 0, 0⟩, -- BPM_FREE_REFUSED
  ⟨0x0A00088, 0, 1, 0, 0, 0, 0xffffffffffffffff, 0, 0⟩, -- BPM_BAD_REQ
  ⟨0x0A00090, 0, 1, 0, 0, 0, 0xffffffffffffffff, 0, 0⟩, -- BPM_ALLOC_FAIL
  ⟨0x0A00098, 0, 1, 0, 0, 0, 0xffffffffffffffff, 0, 0⟩, -- BPM_JOIN_ADMITTED
  ⟨0x0A000A0, 0, 1, 0, 0, 0, 0xffffffffffffffff, 0, 0⟩, -- BPM_JOIN_DEFERRED
  ⟨0x0A000A8, 0, 1, 0, 0, 0, 0xffffffffffffffff, 0, 0⟩, -- BPM_LEAVES
  ⟨0x0A000B0, 0, 1, 0, 0, 0, 0xffffffffffffffff, 0, 0⟩, -- BPM_PARKED
  ⟨0x0A00800, 0x8, 16, 0xffffffffffff, 0, 0, 0, 0, 0x100000010⟩] -- BPM_CTX_KV
/-- Register rows of 06_dovetail_selection.md. -/
def regRows06_0 : List RegRow := [
  ⟨0x0400000, 0, 1, 0x1, 0, 0, 0, 0, 0⟩, -- DOV_CTL
  ⟨0x0400008, 0, 1, 0, 0, 0, 0x800000000000ffff, 0, 0⟩, -- DOV_STATUS
  ⟨0x0400010, 0, 1, 0x3ff, 0, 0, 0, 0, 0⟩, -- DOV_LAYER_ADDR
  ⟨0x0400018, 0, 1, 0xffffffffffffffff, 0, 0, 0, 0, 0⟩, -- DOV_LAYER_DATA
  ⟨0x0400020, 0, 1, 0x1fffff, 0, 0, 0, 0, 0⟩, -- DOV_SEL_ADDR
  ⟨0x0400028, 0, 1, 0xffffffffffffffff, 0, 0, 0, 0, 0⟩, -- DOV_SEL_DATA
  ⟨0x0400080, 0, 1, 0, 0, 0, 0xffffffffffffffff, 0, 0⟩, -- DOV_SCORE_TILES
  ⟨0x0400088, 0, 1, 0, 0, 0, 0xffffffffffffffff, 0, 0⟩, -- DOV_INTAKE_DISCARD
  ⟨0x0400090, 0, 1, 0, 0, 0, 0xffffffffffffffff, 0, 0⟩, -- DOV_SCORE_NAN
  ⟨0x0400098, 0, 1, 0, 0, 0, 0xffffffffffffffff, 0, 0⟩, -- DOV_TOKEN_SKIP
  ⟨0x04000A0, 0, 1, 0, 0, 0, 0xffffffffffffffff, 0, 0⟩, -- DOV_NULL_COPIES
  ⟨0x04000A8, 0, 1, 0, 0, 0, 0xffffffffffffffff, 0, 0⟩, -- DOV_OVF_REPLICA
  ⟨0x04000B0, 0, 1, 0, 0, 0, 0xffffffffffffffff, 0, 0⟩, -- DOV_OVF_NEXT
  ⟨0x04000B8, 0, 1, 0, 0, 0, 0xffffffffffffffff, 0, 0⟩, -- DOV_OVF_DROP
  ⟨0x04000C0, 0, 1, 0, 0, 0, 0xffffffffffffffff, 0, 0⟩, -- DOV_OVF_SPILL
  ⟨0x04000C8, 0, 1, 0, 0, 0, 0xffffffffffffffff, 0, 0⟩, -- DOV_BAL_UPDATES
  ⟨0x04000D0, 0, 1, 0, 0, 0, 0xffffffffffffffff, 0, 0⟩, -- DOV_BIAS_CLAMP
  ⟨0x0400800, 0x20, 16, 0xffffffffffffffff, 0, 0, 0, 0, 0⟩, -- DOV_CTX_PORTS
  ⟨0x0400808, 0x20, 16, 0xfffffffffff, 0, 0, 0, 0, 0⟩, -- DOV_CTX_GAUGE
  ⟨0x0400810, 0x20, 16, 0x7fff, 0, 0, 0, 0, 0⟩, -- DOV_CTX_TOKENS
  ⟨0x0400818, 0x20, 16, 0xffff0000ffff, 0, 0, 0xffff000000000000, 0, 0⟩] -- DOV_CTX_BAL
/-- Register rows of 07_dovetail_dispatch_combine.md. -/
def regRows07_0 : List RegRow := [
  ⟨0x0400030, 0, 1, 0x1ff, 0, 0, 0, 0, 0⟩, -- DOV_DISP_ADDR
  ⟨0x0400038, 0, 1, 0xffffffffffffffff, 0, 0, 0, 0, 0⟩, -- DOV_DISP_DATA
  ⟨0x0400040, 0, 1, 0x3fffff, 0, 0, 0, 0, 0⟩, -- DOV_MAP_ADDR
  ⟨0x0400048, 0, 1, 0xffffffffffffffff, 0, 0, 0, 0, 0⟩, -- DOV_MAP_DATA
  ⟨0x0400050, 0, 1, 0x3fff, 0, 0, 0, 0, 0⟩, -- DOV_LOC_ADDR
  ⟨0x0400058, 0, 1, 0xffffffffffffffff, 0, 0, 0, 0, 0⟩, -- DOV_LOC_DATA
  ⟨0x0400060, 0, 1, 0, 0, 0, 0x8000000000000000, 0, 0⟩, -- DOV_PLACE_STATUS
  ⟨0x0400100, 0, 1, 0, 0, 0, 0xffffffffffffffff, 0, 0⟩, -- DOV_COPIES_OUT
  ⟨0x0400108, 0, 1, 0, 0, 0, 0xffffffffffffffff, 0, 0⟩, -- DOV_COPIES_IN
  ⟨0x0400110, 0, 1, 0, 0, 0, 0xffffffffffffffff, 0, 0⟩, -- DOV_HDR_EMPTY
  ⟨0x0400118, 0, 1, 0, 0, 0, 0xffffffffffffffff, 0, 0⟩, -- DOV_FANOUT_PARTS
  ⟨0x0400120, 0, 1, 0, 0, 0, 0xffffffffffffffff, 0, 0⟩, -- DOV_REDIRECT
  ⟨0x0400128, 0, 1, 0, 0, 0, 0xffffffffffffffff, 0, 0⟩, -- DOV_MISS_SKIP
  ⟨0x0400130, 0, 1, 0, 0, 0, 0xffffffffffffffff, 0, 0⟩, -- DOV_SPILL_SERVED
  ⟨0x0400138, 0, 1, 0, 0, 0, 0xffffffffffffffff, 0, 0⟩, -- DOV_SPILL_REFUSED
  ⟨0x0400140, 0, 1, 0, 0, 0, 0xffffffffffffffff, 0, 0⟩, -- DOV_INBOX_DROP
  ⟨0x0400148, 0, 1, 0, 0, 0, 0xffffffffffffffff, 0, 0⟩, -- DOV_COMBINE_TOKENS
  ⟨0x0400150, 0, 1, 0, 0, 0, 0xffffffffffffffff, 0, 0⟩, -- DOV_COMBINE_NAN
  ⟨0x0400158, 0, 1, 0, 0, 0, 0xffffffffffffffff, 0, 0⟩, -- DOV_PLACE_PROPOSALS
  ⟨0x0400160, 0, 1, 0, 0, 0, 0xffffffffffffffff, 0, 0⟩, -- DOV_STALE_PARTS
  ⟨0x0400A00, 0x20, 16, 0x1ffff, 0, 0, 0, 0, 0⟩, -- DOV_CTX_DISP
  ⟨0x0400A08, 0x20, 16, 0xffff0007ffff, 0, 0, 0xffff000000000000, 0, 0⟩, -- DOV_CTX_PLACE
  ⟨0x0400A10, 0x20, 16, 0xffffffffffffffff, 0, 0, 0, 0, 0⟩] -- DOV_CTX_PLACE2
/-- Register rows of 08_fabric_link.md. -/
def regRows08_0 : List RegRow := [
  ⟨0x1000000, 0x10000, 16, 0x19, 0, 0, 0, 0x6, 0x11⟩, -- FAB_PORT_CTL
  ⟨0x1000008, 0x10000, 16, 0, 0xff, 0, 0xfff8007f00000000, 0, 0⟩, -- FAB_PORT_STATUS
  ⟨0x1000010, 0x10000, 16, 0, 0, 0, 0xffff07ffff000000, 0, 0⟩, -- FAB_PORT_PARTNER
  ⟨0x1000018, 0x10000, 16, 0xffffffffffffffff, 0, 0, 0, 0, 0x7d00803100003e8⟩, -- FAB_LINK_CFG
  ⟨0x1000100, 0x10000, 16, 0, 0, 0, 0xe00000ff00000000, 0, 0⟩, -- FAB_LANE_STATUS[0]
  ⟨0x1000108, 0x10000, 16, 0, 0, 0, 0xe00000ff00000000, 0, 0⟩, -- FAB_LANE_STATUS[1]
  ⟨0x1000110, 0x10000, 16, 0, 0, 0, 0xe00000ff00000000, 0, 0⟩, -- FAB_LANE_STATUS[2]
  ⟨0x1000118, 0x10000, 16, 0, 0, 0, 0xe00000ff00000000, 0, 0⟩, -- FAB_LANE_STATUS[3]
  ⟨0x1000120, 0x10000, 16, 0, 0, 0, 0xe00000ff00000000, 0, 0⟩, -- FAB_LANE_STATUS[4]
  ⟨0x1000128, 0x10000, 16, 0, 0, 0, 0xe00000ff00000000, 0, 0⟩, -- FAB_LANE_STATUS[5]
  ⟨0x1000130, 0x10000, 16, 0, 0, 0, 0xe00000ff00000000, 0, 0⟩, -- FAB_LANE_STATUS[6]
  ⟨0x1000138, 0x10000, 16, 0, 0, 0, 0xe00000ff00000000, 0, 0⟩, -- FAB_LANE_STATUS[7]
  ⟨0x1000140, 0x10000, 16, 0, 0, 0, 0xffffffffffffffff, 0, 0⟩, -- FAB_LANE_CORR[0]
  ⟨0x1000148, 0x10000, 16, 0, 0, 0, 0xffffffffffffffff, 0, 0⟩, -- FAB_LANE_CORR[1]
  ⟨0x1000150, 0x10000, 16, 0, 0, 0, 0xffffffffffffffff, 0, 0⟩, -- FAB_LANE_CORR[2]
  ⟨0x1000158, 0x10000, 16, 0, 0, 0, 0xffffffffffffffff, 0, 0⟩, -- FAB_LANE_CORR[3]
  ⟨0x1000160, 0x10000, 16, 0, 0, 0, 0xffffffffffffffff, 0, 0⟩, -- FAB_LANE_CORR[4]
  ⟨0x1000168, 0x10000, 16, 0, 0, 0, 0xffffffffffffffff, 0, 0⟩, -- FAB_LANE_CORR[5]
  ⟨0x1000170, 0x10000, 16, 0, 0, 0, 0xffffffffffffffff, 0, 0⟩, -- FAB_LANE_CORR[6]
  ⟨0x1000178, 0x10000, 16, 0, 0, 0, 0xffffffffffffffff, 0, 0⟩, -- FAB_LANE_CORR[7]
  ⟨0x1000200, 0x10000, 16, 0, 0, 0, 0xffffffffffffffff, 0, 0⟩, -- FAB_TX_FLITS
  ⟨0x1000208, 0x10000, 16, 0, 0, 0, 0xffffffffffffffff, 0, 0⟩, -- FAB_RX_FLITS
  ⟨0x1000210, 0x10000, 16, 0, 0, 0, 0xffffffffffffffff, 0, 0⟩, -- FAB_FEC_CORR
  ⟨0x1000218, 0x10000, 16, 0, 0, 0, 0xffffffffffffffff, 0, 0⟩, -- FAB_FEC_UNCORR
  ⟨0x1000220, 0x10000, 16, 0, 0, 0, 0xffffffffffffffff, 0, 0⟩, -- FAB_CRC_FAIL
  ⟨0x1000228, 0x10000, 16, 0, 0, 0, 0xffffffffffffffff, 0, 0⟩, -- FAB_NAK_SENT
  ⟨0x1000230, 0x10000, 16, 0, 0, 0, 0xffffffffffffffff, 0, 0⟩, -- FAB_NAK_RCVD
  ⟨0x1000238, 0x10000, 16, 0, 0, 0, 0xffffffffffffffff, 0, 0⟩, -- FAB_REPLAY_FLITS
  ⟨0x1000240, 0x10000, 16, 0, 0, 0, 0xffffffffffffffff, 0, 0⟩, -- FAB_RETRAINS
  ⟨0x1000248, 0x10000, 16, 0, 0, 0, 0xffffffffffffffff, 0, 0⟩] -- FAB_DEGRADES
/-- Register rows of 08_fabric_link.md. -/
def regRows08_1 : List RegRow := [
  ⟨0x1000250, 0x10000, 16, 0, 0, 0, 0xffffffffffffffff, 0, 0⟩, -- FAB_DOWNS
  ⟨0x1000258, 0x10000, 16, 0, 0, 0, 0xffffffffffffffff, 0, 0⟩, -- FAB_CREDIT_STALL
  ⟨0x1000260, 0x10000, 16, 0, 0, 0, 0xffffffffffffffff, 0, 0⟩] -- FAB_RETRY_STALL
/-- Register rows of 09_fabric_network_and_jobs.md. -/
def regRows09_0 : List RegRow := [
  ⟨0x1100000, 0, 1, 0, 0, 0, 0x8000000000007fff, 0, 0⟩, -- FAB_SELF
  ⟨0x1100008, 0, 1, 0, 0, 0, 0xf8ffffffffffffff, 0, 0⟩, -- FAB_JOB
  ⟨0x1100010, 0, 1, 0, 0, 0, 0x8000000000007fff, 0, 0⟩, -- FAB_RANK
  ⟨0x1100018, 0, 1, 0, 0, 0, 0, 0x3, 0⟩, -- FAB_JOB_CTL
  ⟨0x1100020, 0, 1, 0xffffffffffffff, 0, 0, 0, 0, 0⟩, -- FAB_START
  ⟨0x1100028, 0, 1, 0xffff000000000001, 0, 0, 0, 0, 0x64000000000001⟩, -- FAB_NET_CFG
  ⟨0x1100030, 0, 1, 0, 0, 0, 0xffffffff, 0, 0⟩, -- FAB_ADMIN_KEY
  ⟨0x1100038, 0, 1, 0xffffffff, 0, 0, 0, 0, 0⟩, -- FAB_V2_KEY
  ⟨0x1100040, 0x8, 4, 0, 0, 0, 0xffffffffffffffff, 0, 0⟩, -- FAB_DIGEST
  ⟨0x1100060, 0x8, 4, 0xffffffffffffffff, 0, 0, 0, 0, 0⟩, -- FAB_EXPECT
  ⟨0x1100100, 0, 1, 0x7fff, 0, 0, 0, 0, 0⟩, -- FAB_RANK_ADDR
  ⟨0x1100108, 0, 1, 0xffffffffffffffff, 0, 0, 0, 0, 0⟩, -- FAB_RANK_DATA
  ⟨0x1100110, 0, 1, 0x1ff, 0, 0, 0, 0, 0⟩, -- FAB_PLANE_ADDR
  ⟨0x1100118, 0, 1, 0xffffffffffffffff, 0, 0, 0, 0, 0⟩, -- FAB_PLANE_DATA
  ⟨0x1100120, 0, 1, 0xff, 0, 0, 0, 0, 0⟩, -- FAB_TREE_ADDR
  ⟨0x1100128, 0, 1, 0xfffffffff0000000, 0, 0, 0, 0, 0⟩, -- FAB_TREE_DATA
  ⟨0x1100200, 0, 1, 0, 0, 0, 0xffffffffffffffff, 0, 0⟩, -- FAB_KEY_DROP
  ⟨0x1100208, 0, 1, 0, 0, 0, 0xffffffffffffffff, 0, 0⟩, -- FAB_EPOCH_DROP
  ⟨0x1100210, 0, 1, 0, 0, 0, 0xffffffffffffffff, 0, 0⟩, -- FAB_SRC_DROP
  ⟨0x1100218, 0, 1, 0, 0, 0, 0xffffffffffffffff, 0, 0⟩, -- FAB_MISROUTE
  ⟨0x1100220, 0, 1, 0, 0, 0, 0xffffffffffffffff, 0, 0⟩, -- FAB_VER_DROP
  ⟨0x1100228, 0, 1, 0, 0, 0, 0xffffffffffffffff, 0, 0⟩, -- FAB_NOROUTE
  ⟨0x1100230, 0, 1, 0, 0, 0, 0xffffffffffffffff, 0, 0⟩, -- FAB_MC_FWD
  ⟨0x1100238, 0, 1, 0, 0, 0, 0xffffffffffffffff, 0, 0⟩, -- FAB_SETUP_REUSE
  ⟨0x1100240, 0, 1, 0, 0, 0, 0xffffffffffffffff, 0, 0⟩] -- FAB_TAKEOVERS
/-- Register rows of 10_fabric_transport.md. -/
def regRows10_0 : List RegRow := [
  ⟨0x1120000, 0, 1, 0x1fff, 0, 0, 0, 0, 0⟩, -- FAB_XDESC_ADDR
  ⟨0x1120008, 0, 1, 0xffffffffffffffff, 0, 0, 0, 0, 0⟩, -- FAB_XDESC_DATA
  ⟨0x1120010, 0, 1, 0xffffffffff000000, 0, 0, 0, 0, 0x320600c8000000⟩, -- FAB_XPORT_CFG
  ⟨0x1120018, 0, 1, 0, 0xffffffffffffff, 0, 0, 0, 0⟩, -- FAB_CUT
  ⟨0x1120020, 0, 1, 0, 0xffffffffffffffff, 0, 0, 0, 0⟩, -- FAB_CUT_USED
  ⟨0x1120028, 0, 1, 0, 0, 0x8000000000000000, 0x7fffff, 0, 0⟩, -- FAB_TREE_FAILED
  ⟨0x1120100, 0, 1, 0, 0, 0, 0xffffffffffffffff, 0, 0⟩, -- FAB_CHUNKS_SENT
  ⟨0x1120108, 0, 1, 0, 0, 0, 0xffffffffffffffff, 0, 0⟩, -- FAB_CHUNKS_RCVD
  ⟨0x1120110, 0, 1, 0, 0, 0, 0xffffffffffffffff, 0, 0⟩, -- FAB_RESENT_CHUNKS
  ⟨0x1120118, 0, 1, 0, 0, 0, 0xffffffffffffffff, 0, 0⟩, -- FAB_REPLAY_CHUNKS
  ⟨0x1120120, 0, 1, 0, 0, 0, 0xffffffffffffffff, 0, 0⟩, -- FAB_DUP_DROP
  ⟨0x1120128, 0, 1, 0, 0, 0, 0xffffffffffffffff, 0, 0⟩, -- FAB_HCRC_FAIL
  ⟨0x1120130, 0, 1, 0, 0, 0, 0xffffffffffffffff, 0, 0⟩, -- FAB_E2E_FAIL
  ⟨0x1120138, 0, 1, 0, 0, 0, 0xffffffffffffffff, 0, 0⟩, -- FAB_STAGE_DROP
  ⟨0x1120140, 0, 1, 0, 0, 0, 0xffffffffffffffff, 0, 0⟩, -- FAB_NO_DESC
  ⟨0x1120148, 0, 1, 0, 0, 0, 0xffffffffffffffff, 0, 0⟩, -- FAB_CUT_STALL
  ⟨0x1120150, 0, 1, 0, 0, 0, 0xffffffffffffffff, 0, 0⟩, -- FAB_CUT_LOST
  ⟨0x1120158, 0, 1, 0, 0, 0, 0xffffffffffffffff, 0, 0⟩, -- FAB_PEER_TIMEOUTS
  ⟨0x1120160, 0, 1, 0, 0, 0, 0xffffffffffffffff, 0, 0⟩, -- FAB_TREE_REATTACH
  ⟨0x1120168, 0, 1, 0, 0, 0, 0xffffffffffffffff, 0, 0⟩] -- FAB_TREE_FAILS
/-- Register rows of 11_collectives.md. -/
def regRows11_0 : List RegRow := [
  ⟨0x1800000, 0, 1, 0x7ff, 0, 0, 0, 0, 0⟩, -- COL_GROUP_ADDR
  ⟨0x1800008, 0, 1, 0xffffffffffffffff, 0, 0, 0, 0, 0⟩, -- COL_GROUP_DATA
  ⟨0x1800010, 0, 1, 0x3fff, 0, 0, 0, 0, 0⟩, -- COL_LIST_ADDR
  ⟨0x1800018, 0, 1, 0xffffffffffffffff, 0, 0, 0, 0, 0⟩, -- COL_LIST_DATA
  ⟨0x1800020, 0, 1, 0x1fff, 0, 0, 0, 0, 0⟩, -- COL_DESC_ADDR
  ⟨0x1800028, 0, 1, 0xffffffffffffffff, 0, 0, 0, 0, 0⟩, -- COL_DESC_DATA
  ⟨0x1800030, 0, 1, 0, 0, 0, 0, 0x3ff, 0⟩, -- COL_START
  ⟨0x1800038, 0, 1, 0xffffffff00000000, 0, 0, 0, 0, 0x3e8000000000000⟩, -- COL_CFG
  ⟨0x1800040, 0, 1, 0, 0, 0, 0x1ff, 0, 0⟩, -- COL_SLOT_USED
  ⟨0x1800048, 0, 1, 0x3ff, 0, 0, 0, 0, 0⟩, -- COL_GSEQ_ADDR
  ⟨0x1800050, 0, 1, 0, 0xffffffffffffffff, 0, 0, 0, 0⟩, -- COL_GSEQ_DATA
  ⟨0x1800100, 0, 1, 0, 0, 0, 0xffffffffffffffff, 0, 0⟩, -- COL_STARTED
  ⟨0x1800108, 0, 1, 0, 0, 0, 0xffffffffffffffff, 0, 0⟩, -- COL_DONE
  ⟨0x1800110, 0, 1, 0, 0, 0, 0xffffffffffffffff, 0, 0⟩, -- COL_ERRORS
  ⟨0x1800118, 0, 1, 0, 0, 0, 0xffffffffffffffff, 0, 0⟩, -- COL_OPEN_BY_ARRIVAL
  ⟨0x1800120, 0, 1, 0, 0, 0, 0xffffffffffffffff, 0, 0⟩, -- COL_SLOT_WAIT
  ⟨0x1800128, 0, 1, 0, 0, 0, 0xffffffffffffffff, 0, 0⟩, -- COL_EXHAUSTED
  ⟨0x1800130, 0, 1, 0, 0, 0, 0xffffffffffffffff, 0, 0⟩, -- COL_DUP_MSG
  ⟨0x1800138, 0, 1, 0, 0, 0, 0xffffffffffffffff, 0, 0⟩, -- COL_BAD_ARRIVAL
  ⟨0x1800140, 0, 1, 0, 0, 0, 0xffffffffffffffff, 0, 0⟩] -- COL_ABORTS
/-- Register rows of 12_work_contexts.md. -/
def regRows12_0 : List RegRow := [
  ⟨0x0C00000, 0x1000, 16, 0x30, 0, 0, 0, 0x3, 0⟩, -- CTX_CTL
  ⟨0x0C00008, 0x1000, 16, 0, 0, 0, 0xfe0000000000ffff, 0, 0⟩, -- CTX_STATUS
  ⟨0x0C00010, 0x1000, 16, 0x3fffffffff, 0, 0, 0, 0, 0⟩, -- CTX_SLOTS
  ⟨0x0C00018, 0x1000, 16, 0xfffffff, 0, 0, 0, 0, 0⟩, -- CTX_RURIL_QUOTA
  ⟨0x0C00020, 0x1000, 16, 0, 0, 0, 0xfffffff, 0, 0⟩, -- CTX_RURIL_USED
  ⟨0x0C00028, 0x1000, 16, 0xffffffffffffffff, 0, 0, 0, 0, 0⟩, -- CTX_FABRIC
  ⟨0x0C00030, 0x1000, 16, 0x7fff, 0, 0, 0, 0, 0⟩, -- CTX_INTAKE
  ⟨0x0C00038, 0x1000, 16, 0xffffffff, 0, 0, 0, 0, 0xcf850⟩, -- CTX_HOLD
  ⟨0x0C00440, 0x1000, 16, 0, 0, 0, 0xffffffffffffffff, 0, 0⟩, -- CTX_SHED
  ⟨0x0C00448, 0x1000, 16, 0, 0, 0, 0xffffffffffffffff, 0, 0⟩, -- CTX_DEFERRALS
  ⟨0x0C00450, 0x1000, 16, 0, 0, 0, 0xffffffffffffffff, 0, 0⟩, -- CTX_TEARDOWNS
  ⟨0x0C00458, 0x1000, 16, 0, 0, 0, 0xffffffffffffffff, 0, 0⟩, -- CTX_SEM_ERRORS
  ⟨0x0C10000, 0, 1, 0x7ff, 0, 0, 0, 0, 0⟩, -- CTX_BENCH_ADDR
  ⟨0x0C10008, 0, 1, 0x3ff, 0, 0, 0, 0, 0⟩, -- CTX_BENCH_DATA
  ⟨0x0C10010, 0, 1, 0xfff, 0, 0, 0, 0, 0⟩, -- CTX_SEM_ADDR
  ⟨0x0C10018, 0, 1, 0xffc000000000ffff, 0, 0, 0x3e000000000000, 0, 0⟩] -- CTX_SEM_DATA
/-- Register rows of 13_determinism.md. -/
def regRows13_0 : List RegRow := [
  ⟨0x1C00000, 0, 1, 0, 0, 0, 0xffffffffffffffff, 0, 0⟩, -- DET_CYCLE
  ⟨0x1C00008, 0, 1, 0xffff000000000003, 0, 0, 0, 0, 0⟩, -- DET_CLAMP_CTL
  ⟨0x1C00010, 0, 1, 0, 0, 0, 0xc000000000003fff, 0, 0⟩, -- DET_CLAMP_STATUS
  ⟨0x1C00018, 0, 1, 0, 0, 0x8000000000000000, 0x7ffffc00ffffffff, 0, 0⟩, -- DET_CLAMP_FIRST
  ⟨0x1C00020, 0, 1, 0, 0, 0, 0xffffffffffffffff, 0, 0⟩, -- DET_CLAMP_FIRST2
  ⟨0x1C00028, 0, 1, 0xffffffffffff0001, 0, 0, 0, 0, 0x80000000000000⟩, -- DET_MARK_CFG
  ⟨0x1C00030, 0, 1, 0, 0, 0, 0, 0x3, 0⟩, -- DET_MARK_CTL
  ⟨0x1C00038, 0, 1, 0, 0, 0, 0xf000ffff000000ff, 0, 0⟩, -- DET_MARK_STATUS
  ⟨0x1C00040, 0, 1, 0, 0, 0, 0xffffffffffffffff, 0, 0⟩, -- DET_MARK_CYCLE
  ⟨0x1C00100, 0x8, 16, 0, 0, 0, 0xffffffffffffffff, 0, 0⟩, -- DET_TCC
  ⟨0x1C00180, 0x8, 16, 0, 0, 0x8000000000000000, 0x78000000ffffffff, 0, 0⟩, -- DET_TCC_FIRST
  ⟨0x1C00200, 0x8, 16, 0, 0, 0, 0x80000000000fffff, 0, 0⟩, -- DET_PORT_DELAY
  ⟨0x1C00300, 0, 1, 0, 0, 0, 0xffffffffffffffff, 0, 0⟩, -- DET_CLAMP_RECORDS
  ⟨0x1C00308, 0, 1, 0, 0, 0, 0xffffffffffffffff, 0, 0⟩, -- DET_CLAMP_MISMATCH
  ⟨0x1C00310, 0, 1, 0, 0, 0, 0xffffffffffffffff, 0, 0⟩, -- DET_CLAMP_SKIPPED
  ⟨0x1C00318, 0, 1, 0, 0, 0, 0xffffffffffffffff, 0, 0⟩, -- DET_MARK_COUNT
  ⟨0x1C00320, 0, 1, 0, 0, 0, 0xffffffffffffffff, 0, 0⟩] -- DET_MARK_LATE
/-- Register rows of 14_jig_and_glueup.md. -/
def regRows14_0 : List RegRow := [
  ⟨0x0100000, 0, 1, 0, 0, 0, 0xe00f0000ffffffff, 0, 0⟩, -- JIG_STATUS
  ⟨0x0100008, 0, 1, 0, 0, 0, 0, 0x3, 0⟩, -- JIG_CTL
  ⟨0x0100010, 0, 1, 0x1fffffffffff, 0, 0, 0, 0, 0⟩, -- JIG_IMG
  ⟨0x0100018, 0, 1, 0, 0, 0, 0xf00f00000001ffff, 0, 0⟩, -- JIG_PROG_STATUS
  ⟨0x0100020, 0, 1, 0xfffffff, 0, 0, 0, 0, 0⟩, -- JIG_GLUE_SRC
  ⟨0x0100028, 0, 1, 0, 0, 0, 0, 0x7, 0⟩, -- JIG_GLUE_CTL
  ⟨0x0100030, 0, 1, 0, 0xfff0ffff0fffffff, 0, 0, 0, 0⟩, -- JIG_GLUE_STATUS
  ⟨0x0100038, 0, 1, 0xffffffff00000000, 0, 0, 0, 0, 0x6400c800000000⟩, -- JIG_GLUE_CFG
  ⟨0x0100040, 0, 1, 0, 0, 0, 0x800fffff000fffff, 0, 0⟩, -- JIG_JRNL
  ⟨0x0100100, 0, 1, 0, 0, 0, 0xffffffffffffffff, 0, 0⟩, -- JIG_GLUE_DONE
  ⟨0x0100108, 0, 1, 0, 0, 0, 0xffffffffffffffff, 0, 0⟩, -- JIG_GLUE_FAILED
  ⟨0x0100110, 0, 1, 0, 0, 0, 0xffffffffffffffff, 0, 0⟩] -- JIG_REAPPLIED
/-- Register rows of 15_power_up_clocks_reset.md. -/
def regRows15_0 : List RegRow := [
  ⟨0x0000000, 0, 1, 0, 0, 0, 0xf000ffff00000000, 0, 0x2000000000000000⟩, -- GLB_STATE
  ⟨0x0000008, 0, 1, 0xffff000000000000, 0, 0, 0, 0x1, 0xc8000000000000⟩, -- GLB_STATE_CTL
  ⟨0x0000010, 0, 1, 0, 0, 0, 0, 0xffff0001, 0⟩, -- GLB_RESET_CTL
  ⟨0x0000018, 0, 1, 0, 0, 0, 0xe000000000000000, 0, 0⟩, -- GLB_RESET_CAUSE
  ⟨0x0000020, 0, 1, 0, 0, 0x2000000000000000, 0xc000ffffffff0000, 0, 0⟩, -- GLB_SUPPLY
  ⟨0x0000028, 0, 1, 0, 0, 0, 0xfc00000000000000, 0, 0⟩, -- GLB_CLK_STATUS
  ⟨0x0000080, 0, 1, 0, 0xffffffffffffffff, 0, 0, 0, 0⟩, -- GLB_WARM_RESETS
  ⟨0x0000088, 0, 1, 0, 0, 0, 0xffffffffffffffff, 0, 0⟩, -- GLB_HOST_RESETS
  ⟨0x0000090, 0, 1, 0, 0, 0, 0xffffffffffffffff, 0, 0⟩, -- GLB_BENCH_RESETS
  ⟨0x0000098, 0, 1, 0, 0, 0, 0xffffffffffffffff, 0, 0⟩, -- GLB_CTX_RESETS
  ⟨0x0C00040, 0x1000, 16, 0, 0, 0, 0, 0x1, 0⟩] -- CTX_RESET
/-- Register rows of 16_host_cxl.md. -/
def regRows16_0 : List RegRow := [
  ⟨0x0001000, 0, 1, 0, 0, 0, 0xffffffff000000ff, 0, 0x1f3a960000000010⟩, -- GLB_HIF_ID
  ⟨0x0001008, 0, 1, 0, 0, 0, 0xffe0000000000000, 0, 0⟩, -- GLB_HIF_LINK
  ⟨0x0001010, 0, 1, 0x1, 0, 0, 0, 0, 0⟩, -- GLB_HIF_CTL
  ⟨0x0001018, 0, 1, 0xffffffffffffff, 0, 0, 0, 0, 0⟩, -- GLB_HIF_OVF
  ⟨0x0001080, 0, 1, 0, 0, 0, 0xffffffffffffffff, 0, 0⟩, -- GLB_HIF_LINK_DOWNS
  ⟨0x0001088, 0, 1, 0, 0, 0, 0xffffffffffffffff, 0, 0⟩, -- GLB_HIF_XFER_FAIL
  ⟨0x0001090, 0, 1, 0, 0, 0, 0xffffffffffffffff, 0, 0⟩, -- GLB_HIF_BAD_REC
  ⟨0x0001098, 0, 1, 0, 0, 0, 0xffffffffffffffff, 0, 0⟩, -- GLB_HIF_BAD_DB
  ⟨0x00010A0, 0, 1, 0, 0, 0, 0xffffffffffffffff, 0, 0⟩, -- GLB_HIF_CQ_LOST
  ⟨0x00010A8, 0, 1, 0, 0, 0, 0xffffffffffffffff, 0, 0⟩, -- GLB_HIF_POISON_RD
  ⟨0x0002000, 0x40, 16, 0xffffffffffffffc0, 0, 0, 0, 0, 0⟩, -- GLB_HIF_IR_BASE
  ⟨0x0002008, 0x40, 16, 0x80000000ffff001f, 0, 0, 0, 0, 0x6⟩, -- GLB_HIF_IR_CFG
  ⟨0x0002010, 0x40, 16, 0, 0, 0, 0xffffffff, 0, 0⟩, -- GLB_HIF_IR_STATE
  ⟨0x0002018, 0x40, 16, 0xffffffffffffffc0, 0, 0, 0, 0, 0⟩, -- GLB_HIF_CR_BASE
  ⟨0x0002020, 0x40, 16, 0xc000ffff0000001f, 0, 0, 0, 0, 0x6⟩, -- GLB_HIF_CR_CFG
  ⟨0x0002028, 0x40, 16, 0, 0, 0, 0x80ffffffffffffff, 0, 0x8000000000000000⟩] -- GLB_HIF_CR_STATE
/-- Register rows of 17_kiln.md. -/
def regRows17_0 : List RegRow := [
  ⟨0x0200000, 0, 1, 0xf, 0, 0, 0, 0, 0xb⟩, -- KLN_CTL
  ⟨0x0200008, 0, 1, 0, 0, 0x1f00000000, 0xfffc000000000000, 0, 0⟩, -- KLN_STATUS
  ⟨0x0200010, 0, 1, 0xffffffffffffffff, 0, 0, 0, 0, 0x96000324b0000032⟩, -- KLN_POWER_CFG
  ⟨0x0200018, 0, 1, 0, 0, 0, 0xffffffffffff0000, 0, 0⟩, -- KLN_POWER
  ⟨0x0200020, 0, 1, 0xffffffffffff0000, 0, 0, 0, 0, 0x26c0384101e0000⟩, -- KLN_AVS_CFG
  ⟨0x0200028, 0, 1, 0xffffff0000000000, 0, 0, 0xffff0000, 0, 0x2d3c64006e460000⟩, -- KLN_THERM_CFG
  ⟨0x0200030, 0, 1, 0xffffffffffffffff, 0, 0, 0, 0, 0x80001000a001464⟩, -- KLN_VALVE_CFG
  ⟨0x0200038, 0, 1, 0, 0, 0, 0xffffffffffff0000, 0, 0⟩, -- KLN_TEMPS
  ⟨0x0200040, 0, 1, 0, 0, 0, 0xffff000000000000, 0, 0x6400000000000000⟩, -- KLN_VALVE
  ⟨0x0200048, 0, 1, 0xffff000000000000, 0, 0, 0, 0, 0x32000000000000⟩, -- KLN_ESTORE_CFG
  ⟨0x0200100, 0x8, 84, 0, 0, 0, 0xffffffffff000000, 0, 0⟩, -- KLN_GROUP
  ⟨0x0200400, 0, 1, 0, 0, 0, 0xffffffffffffffff, 0, 0⟩, -- KLN_HELD_PERIODS
  ⟨0x0200408, 0, 1, 0, 0, 0, 0xffffffffffffffff, 0, 0⟩, -- KLN_DROOP_EVENTS
  ⟨0x0200410, 0, 1, 0, 0, 0, 0xffffffffffffffff, 0, 0⟩, -- KLN_LIMIT_PERIODS
  ⟨0x0200418, 0, 1, 0, 0, 0, 0xffffffffffffffff, 0, 0⟩, -- KLN_BALLAST_CYCLES
  ⟨0x0200420, 0, 1, 0, 0, 0, 0xffffffffffffffff, 0, 0⟩, -- KLN_ESTORE_TX
  ⟨0x0200428, 0, 1, 0, 0, 0, 0xffffffffffffffff, 0, 0⟩] -- KLN_ESTORE_RX_BAD
/-- Register rows of 18_management_and_security.md. -/
def regRows18_0 : List RegRow := [
  ⟨0x3800000, 0, 1, 0, 0, 0, 0xffffffffffff, 0, 0x345700000001⟩, -- MGT_PID
  ⟨0x3800008, 0, 1, 0, 0, 0, 0xfffffffc00000000, 0, 0x10000000000000⟩, -- MGT_SB_STATUS
  ⟨0x3800010, 0, 1, 0, 0xfff, 0, 0x8000000000000000, 0, 0⟩, -- MGT_TRAY
  ⟨0x3800018, 0, 1, 0xe0, 0, 0, 0, 0, 0xe0⟩, -- MGT_IBI_MASK
  ⟨0x3800080, 0, 1, 0, 0, 0, 0xffffffffffffffff, 0, 0⟩, -- MGT_SB_XFERS
  ⟨0x3800088, 0, 1, 0, 0, 0, 0xffffffffffffffff, 0, 0⟩, -- MGT_SB_ERRORS
  ⟨0x3800090, 0, 1, 0, 0, 0, 0xffffffffffffffff, 0, 0⟩, -- MGT_IBI_SENT
  ⟨0x3000000, 0, 1, 0, 0, 0, 0xffff0007, 0, 0x40100002⟩, -- SEC_POLICY
  ⟨0x3000008, 0x8, 4, 0, 0, 0, 0xffffffffffffffff, 0, 0⟩, -- SEC_OWNER
  ⟨0x3000028, 0, 1, 0, 0, 0, 0x7f, 0, 0⟩, -- SEC_SVN
  ⟨0x3000030, 0, 1, 0, 0, 0, 0xfff000ffffffffff, 0, 0⟩, -- SEC_LEAF
  ⟨0x3000038, 0x8, 4, 0xffffffffffffffff, 0, 0, 0, 0, 0⟩, -- SEC_OWNER_STAGE
  ⟨0x3000058, 0, 1, 0xfffffff, 0, 0, 0, 0, 0⟩, -- SEC_OWNER_SIGTILE
  ⟨0x3000060, 0, 1, 0, 0, 0, 0, 0xffff000000000003, 0⟩, -- SEC_FUSE_CTL
  ⟨0x3000068, 0, 1, 0, 0, 0, 0xf000000000000000, 0, 0⟩, -- SEC_FUSE_STATUS
  ⟨0x3000080, 0, 1, 0, 0, 0, 0xffffffffffffffff, 0, 0⟩, -- SEC_REPORTS
  ⟨0x3000088, 0, 1, 0, 0, 0, 0xffffffffffffffff, 0, 0⟩, -- SEC_SIGN_REFUSED
  ⟨0x3000090, 0, 1, 0, 0, 0, 0xffffffffffffffff, 0, 0⟩] -- SEC_IDE_KEYS
/-- Register rows of 20_address_map_and_errors.md. -/
def regRows20_0 : List RegRow := [
  ⟨0x3C00000, 0, 1, 0x1, 0, 0, 0, 0, 0⟩, -- ERR_CTL
  ⟨0x3C00008, 0, 1, 0, 0, 0, 0xffffffffffffffff, 0, 0⟩, -- ERR_STATE
  ⟨0x3C00010, 0, 1, 0, 0xffffffff, 0, 0, 0, 0⟩, -- ERR_HEAD
  ⟨0x3C00080, 0, 1, 0, 0, 0, 0xffffffffffffffff, 0, 0⟩, -- ERR_WRITTEN
  ⟨0x3C00088, 0, 1, 0, 0, 0, 0xffffffffffffffff, 0, 0⟩, -- ERR_LOST
  ⟨0x00000A0, 0, 1, 0, 0, 0, 0xffffffffffffffff, 0, 0⟩, -- GLB_BAD_ACCESS
  ⟨0x00000A8, 0, 1, 0, 0, 0x8000000000000000, 0x7000000003ffffff, 0, 0⟩] -- GLB_BAD_FIRST

/-- Every row of the register index. -/
def regRows : List RegRow :=
  regRows01_0 ++ regRows02_0 ++ regRows03_0 ++ regRows04_0 ++ regRows05_0 ++ regRows06_0 ++ regRows07_0 ++ regRows08_0 ++ regRows08_1 ++ regRows09_0 ++ regRows10_0 ++ regRows11_0 ++ regRows12_0 ++ regRows13_0 ++ regRows14_0 ++ regRows15_0 ++ regRows16_0 ++ regRows17_0 ++ regRows18_0 ++ regRows20_0

/-- Whether an offset lies in a run of `count` registers from `base`, `stride` apart. -/
def inRun (base stride count off : Nat) : Bool :=
  base ≤ off && (if stride = 0 then off == base else (off - base) % stride == 0 && (off - base) / stride < count)

/-- The row of the index that places a register at an offset (R522). -/
def regRowAt (off : Nat) : Option RegRow :=
  regRows.find? (fun r => inRun r.base r.stride r.count off)

/-- The runs of registers whose reset value is not 0. -/
def nonzeroResets : List (Nat × Nat × Nat × Word) := [
  (0x2000008, 0x1000, 1176, 0xa0000000), -- BEN_STATUS
  (0x2000020, 0x1000, 1176, 0x700), -- BEN_EXC_CTL
  (0x20000A8, 0x1000, 1176, 0xaaaa), -- BEN_FLOOR_SYS
  (0x0800028, 0, 1, 0x3e8), -- TIR_RECOVER_CTL
  (0x0A00010, 0, 1, 0xfffffff), -- BPM_FREE_HEAD
  (0x0A00038, 0, 1, 0x1000), -- BPM_STEP_CTL
  (0x0A00050, 0, 1, 0x1), -- BPM_ADMIT_NEXT
  (0x0A00070, 0, 1, 0x400), -- BPM_STAGE_FREE
  (0x0A00800, 0x8, 16, 0x100000010), -- BPM_CTX_KV
  (0x1000000, 0x10000, 16, 0x11), -- FAB_PORT_CTL
  (0x1000018, 0x10000, 16, 0x7d00803100003e8), -- FAB_LINK_CFG
  (0x1100028, 0, 1, 0x64000000000001), -- FAB_NET_CFG
  (0x1120010, 0, 1, 0x320600c8000000), -- FAB_XPORT_CFG
  (0x1800038, 0, 1, 0x3e8000000000000), -- COL_CFG
  (0x0C00038, 0x1000, 16, 0xcf850), -- CTX_HOLD
  (0x1C00028, 0, 1, 0x80000000000000), -- DET_MARK_CFG
  (0x0100038, 0, 1, 0x6400c800000000), -- JIG_GLUE_CFG
  (0x0000000, 0, 1, 0x2000000000000000), -- GLB_STATE
  (0x0000008, 0, 1, 0xc8000000000000), -- GLB_STATE_CTL
  (0x0001000, 0, 1, 0x1f3a960000000010), -- GLB_HIF_ID
  (0x0002008, 0x40, 16, 0x6), -- GLB_HIF_IR_CFG
  (0x0002020, 0x40, 16, 0x6), -- GLB_HIF_CR_CFG
  (0x0002028, 0x40, 16, 0x8000000000000000), -- GLB_HIF_CR_STATE
  (0x0200000, 0, 1, 0xb), -- KLN_CTL
  (0x0200010, 0, 1, 0x96000324b0000032), -- KLN_POWER_CFG
  (0x0200020, 0, 1, 0x26c0384101e0000), -- KLN_AVS_CFG
  (0x0200028, 0, 1, 0x2d3c64006e460000), -- KLN_THERM_CFG
  (0x0200030, 0, 1, 0x80001000a001464), -- KLN_VALVE_CFG
  (0x0200040, 0, 1, 0x6400000000000000), -- KLN_VALVE
  (0x0200048, 0, 1, 0x32000000000000), -- KLN_ESTORE_CFG
  (0x3800000, 0, 1, 0x345700000001), -- MGT_PID
  (0x3800008, 0, 1, 0x10000000000000), -- MGT_SB_STATUS
  (0x3800018, 0, 1, 0xe0), -- MGT_IBI_MASK
  (0x3000000, 0, 1, 0x40100002)] -- SEC_POLICY

/-- The reset value of the register at an offset (R8). -/
def resetOf (off : Nat) : Word :=
  match nonzeroResets.find? (fun r => inRun r.1 r.2.1 r.2.2.1 off) with
  | some r => r.2.2.2
  | none => 0

/-! ## Tables

The tables of the spec are held in one sparse map of words; `tabKey` gives each its own range of keys. -/

/-- The key of word `i` of table number `t`. -/
def tabKey (t i : Nat) : Nat := t * 2 ^ 40 + i

/-- Object table word (R119): index * 8 + word. -/
def Tab.OBJ (i : Nat) : Nat := tabKey 1 i
/-- Layer descriptor word (R193): index * 4 + word. -/
def Tab.LAYER (i : Nat) : Nat := tabKey 2 i
/-- Selection entry word (R194): index * 2 + word. -/
def Tab.SEL (i : Nat) : Nat := tabKey 3 i
/-- Dispatch descriptor word (R227): index * 2 + word. -/
def Tab.DISP (i : Nat) : Nat := tabKey 4 i
/-- Replica map word (R229): index * 4 + word. -/
def Tab.MAP (i : Nat) : Nat := tabKey 5 i
/-- Local expert entry word (R230): index * 4 + word. -/
def Tab.LOC (i : Nat) : Nat := tabKey 6 i
/-- Instruction memory word (R39): (bench * 2 + sequencer) * 8192 + address. -/
def Tab.IMEM (i : Nat) : Nat := tabKey 7 i
/-- Floor descriptor (R103): bench * 1024 + index. -/
def Tab.FDESC (i : Nat) : Nat := tabKey 8 i
/-- Fabric descriptor word (R283): index * 2 + word. -/
def Tab.XDESC (i : Nat) : Nat := tabKey 9 i
/-- Rank table entry (R265). -/
def Tab.RANK (i : Nat) : Nat := tabKey 10 i
/-- Plane table word of 8 masks (R269). -/
def Tab.PLANE (i : Nat) : Nat := tabKey 11 i
/-- Tree table entry (R271). -/
def Tab.TREE (i : Nat) : Nat := tabKey 12 i
/-- Group entry word (R316): index * 2 + word. -/
def Tab.GROUP (i : Nat) : Nat := tabKey 13 i
/-- Member list word (R318). -/
def Tab.LIST (i : Nat) : Nat := tabKey 14 i
/-- Collective descriptor word (R321): index * 8 + word. -/
def Tab.DESC (i : Nat) : Nat := tabKey 15 i
/-- Next GSEQ and abort mark of a group (R348). -/
def Tab.GSEQ (i : Nat) : Nat := tabKey 16 i
/-- Semaphore entry (R359). -/
def Tab.SEM (i : Nat) : Nat := tabKey 17 i
/-- Bench table entry (R354). -/
def Tab.BENCHTAB (i : Nat) : Nat := tabKey 18 i
/-- Slot record word (R155): slot * 8 + word. -/
def Tab.SLOT (i : Nat) : Nat := tabKey 19 i
/-- ERR ring word (R527): entry * 8 + word. -/
def Tab.ERR (i : Nat) : Nat := tabKey 20 i

end Sys2Proof.Machine
end

