-- ==== Sys2Proof/Machine/State.lean ====
section
/-!
DEFINITION. The state of the block: every register, table, memory, queue, mode and pin that the spec gives
it, as plain data, and the state right after reset.
-/
namespace Sys2Proof.Machine

/-! ## Benches (spec/01_benches.md, 02, 03) -/

/-- A sequencer's own state (R54). OFF is not held: it is read where the mode or a bench reset gives it. -/
inductive SeqSt where
  | idle
  | run
  | wait
  | done
  | fault
  deriving DecidableEq, Repr

/-- One active loop (R42): first and last body address, passes still to run, and the two index steps. -/
structure LoopFrame where
  first : Nat
  last : Nat
  left : Nat
  xa : Nat
  sa : Int
  xb : Nat
  sb : Int
  deriving DecidableEq, Repr

/-- The units that instructions are queued for (R12, R41). -/
inductive UKind where
  | pass
  | stile
  | hold
  | shave
  | sand
  | store
  | moveOut
  | moveIn
  | send
  deriving DecidableEq, Repr

/-- An instruction that has issued into a unit's queue: its program-order number, its address, its word,
and its effective operands (R47): first tile, destination tile, count, a further operand and a scalar.
`passNo` is BEN_PASS_COUNT and `pg` the Clamp pass-group number at its issue (R83, R382), `when` the cycle
of its issue. -/
structure UOp where
  kind : UKind
  po : Nat
  pc : Nat
  word : Word
  tile : Nat
  dst : Nat
  num : Nat
  aux : Nat
  scalar : Nat
  passNo : Nat
  pg : Nat
  when : Nat
  deriving DecidableEq, Repr

/-- An instruction that its unit runs: when it began and when it completes, the format and values it
read, the second operand's values, the codebook of its destination, the flags so far, and how many of its
elements or tiles are done. -/
structure Run where
  op : UOp
  start : Nat
  due : Nat
  fmt : Nat
  vals : List FVal
  vals2 : List FVal
  book : List FVal
  flags : Nat
  prog : Nat
  deriving DecidableEq, Repr

/-- A lane's stationary operand in one stile bank: its row width and its values by depth (R14, R15). -/
structure LaneStile where
  width : Nat
  vals : List FVal
  deriving DecidableEq, Repr

/-- A dispatched PASS in the pipeline (R21): the stile captured at DS (R22), the rail values read at RD
(empty while a re-fetch of tile `held` holds it, R96), the cycle of its AC stage and the pass number. -/
structure Flight where
  op : UOp
  acAt : Nat
  rail : List FVal
  stile : List LaneStile
  held : Option Nat
  passNo : Nat
  deriving DecidableEq, Repr

/-- Half of the held-vector register (R27, R37): its row width and the elements it holds. -/
structure HeldHalf where
  width : Nat
  vals : List FVal
  deriving DecidableEq, Repr

/-- An accumulator of a lane: FP32 bits and its five sticky flags (R78). -/
structure Acc where
  bits : BitVec 32
  flags : BitVec 5
  deriving DecidableEq, Repr

/-- A RECV that blocks its sequencer (R286): its descriptor, landing tile, limit, result register, and,
once it has taken a message, the chunk count and how many chunks have landed. -/
structure RecvOp where
  desc : Nat
  tile : Nat
  maxt : Nat
  xr : Nat
  po : Nat
  pc : Nat
  taken : Bool
  nchunk : Nat
  landed : Nat
  deriving DecidableEq, Repr

/-- What a sequencer waits for (R41, R82); `marked` tells whether a SYNC's Mark has been released (R390). -/
inductive Blocked where
  | no
  | recv (r : RecvOp)
  | semWait (sem num since : Nat)
  | sync (mask po : Nat) (marked : Bool)
  | trapWait (po : Nat)
  deriving DecidableEq, Repr

/-- A SWAP that has issued and whose flip has not taken place (R23). -/
structure Swap where
  tag : Nat
  po : Nat
  deriving DecidableEq, Repr

/-- A sequencer (R39): index registers I1 to I15, loops innermost first, pending SWAPs, the next
program-order number, an accepted start as (address, first cycle it may take effect in) (R56), and the next
issue slot: its cycle and how many issues that cycle still takes (R40). -/
structure Seq where
  st : SeqSt
  pc : Nat
  idx : SMap Nat
  loops : List LoopFrame
  blocked : Blocked
  swaps : List Swap
  po : Nat
  startReq : Option (Nat × Nat)
  free : Nat
  left : Nat
  deriving DecidableEq, Repr

/-- What one sequencer uses of its bench: the unit queues (R41), the runs in progress with the cycle from
which each unit is free, the passes in the pipeline, the cycle from which the row is free, the flags raised
since the last row gather (R79), the converters' codebooks as (converter, companion tile) (R71), and the
SENDs not yet complete. -/
structure Side where
  rowQ : List UOp
  loadQ : List UOp
  shaveQ : List UOp
  sandQ : List UOp
  storeQ : List UOp
  moveQ : List Run
  loadRun : Option Run
  shaveRuns : List Run
  sandRuns : List Run
  storeRuns : List Run
  loadFree : Nat
  shaveFree : Nat
  sandFree : Nat
  storeFree : Nat
  flights : List Flight
  rowFree : Nat
  rowFlags : Nat
  cbs : List (Nat × Nat)
  sends : List Run
  deriving DecidableEq, Repr

/-- A tile whose re-fetch runs (R96): the bench tile, the readers it holds as (reader * 2 + sequencer),
where a reader is a UNIT code of R94, or 16 and more for the companion reads of a converter,
and the booked completion cycle, or none while recovery of its object holds it (R137). -/
structure Refetch where
  tile : Nat
  units : List Nat
  due : Option Nat
  deriving DecidableEq, Repr

/-- A bench (R12): sequencers, sides, the stile banks 0 and 1 and the second context's banks 2 and 3 (R356)
as lists of 256 lanes, which bank is active for lanes 0-127, lanes 128-255 and the second context, held
vector, accumulators by index as lists of 256 lanes, re-fetches, tiles re-fetched since they were last written,
the end of a bench reset and whether an
accepted one waits for the units (R434), the side each shared unit served last (R357), the cycle since which
BEN_CYCLE_COUNT runs, and the first cycle that it has not counted yet. -/
structure Bench where
  seq0 : Seq
  seq1 : Seq
  side0 : Side
  side1 : Side
  banks : SMap (List LaneStile)
  actLo : Bool
  actHi : Bool
  actB : Bool
  heldLo : HeldHalf
  heldHi : HeldHalf
  accs : SMap (List Acc)
  refetch : List Refetch
  refetched : List Nat
  resetDue : Option Nat
  resetWait : Bool
  served : SMap Nat
  runSince : Option Nat
  runNext : Nat
  deriving DecidableEq, Repr

/-! ## Tier manager (spec/04_ruril_and_tiers.md) -/

/-- What a booked tier transfer belongs to (R128, R130). -/
inductive XferKind where
  | promote
  | evict
  | flush
  | refetch
  deriving DecidableEq, Repr

/-- One booked tile transfer (R127): descriptor index, object tile, bench, bench tile, Ruril tile, the
cycle of its first slot, the cycle in which the tile is valid, and the tile as its first slot found it where
a write has landed since (R132). -/
structure TierXfer where
  kind : XferKind
  obj : Nat
  tile : Nat
  bench : Nat
  btile : Nat
  rtn : Nat
  first : Nat
  due : Nat
  saved : Option Tile
  deriving DecidableEq, Repr

/-- A PROMOTE request (R125): context, semaphore and count to signal, whether the Dovetail issued it, and
whether it has counted as a miss. -/
structure TierReq where
  ctx : Nat
  sem : Nat
  num : Nat
  dov : Bool
  missed : Bool
  deriving DecidableEq, Repr

/-- A booked promotion (R130): its completion cycle and the requests that share it; `dead` once poisoning
or a Mitre refusal has ended it and only the semaphores remain due (R137, R139). -/
structure Promo where
  obj : Nat
  due : Nat
  reqs : List TierReq
  dead : Bool
  deriving DecidableEq, Repr

/-- A booked write-back: of an eviction or of a flush (R130), its completion cycle and its tiles. -/
structure WriteBack where
  obj : Nat
  due : Nat
  tiles : List Nat
  flush : Bool
  deriving DecidableEq, Repr

/-- A software request written since the last boundary (R124): the words of TIR_REQ0 and TIR_REQ1. -/
structure SoftReq where
  w0 : Word
  w1 : Word
  deriving DecidableEq, Repr

/-- A recovery in progress (R138): object, poisoned tiles not yet recovered, the source being tried
(0 replica, 1 host) and since when, and whether every source failed. -/
structure Recovery where
  obj : Nat
  tiles : List Nat
  src : Nat
  since : Nat
  failed : Bool
  deriving DecidableEq, Repr

/-- The tier manager beyond its registers and object table: calendar (first free cycle per bench port and
direction, units per stack and cycle), transfers, bookings, requests, Dovetail pins to release at the next
boundary as (object, context), dirty bits by (descriptor * 2^24 + tile), recoveries. -/
structure Tier where
  inNext : SMap Nat
  outNext : SMap Nat
  units : SMap Nat
  xfers : List TierXfer
  promos : List Promo
  backs : List WriteBack
  soft : List SoftReq
  dovPins : List (Nat × Nat)
  dirty : List Nat
  recov : List Recovery
  deriving DecidableEq, Repr

/-! ## Buffer pool, slots and the step boundary (spec/05_buffer_pool_and_sequences.md) -/

/-- A join in the intake queue (R157). -/
structure Join where
  ctx : Nat
  length : Nat
  prefixHead : Nat
  prefixBufs : Nat
  parkAddr : Nat
  cookie : Nat
  resume : Bool
  deriving DecidableEq, Repr

/-- A buffer request held while a boundary runs (R164): operation, holder, buffer, N, new FINAL, whether software
wrote it, and whether the words that it reads are good (R149). -/
structure PoolReq where
  op : Nat
  holder : Nat
  buf : Nat
  n : Nat
  newFinal : Nat
  soft : Bool
  ok : Bool
  deriving DecidableEq, Repr

/-- A step boundary (R159): its phase, 6 where the new step is awaited; the cycle in which the work done so
far ends; what phase 1 waits for (bit 0 a glue-up, bit 1 a Dovetail update); whether phase 3 parked; the slots
whose parking copies run, the next to complete first (R163); the slot and join of a running resume copy
(R452); and the joins still to examine. -/
structure Boundary where
  phase : Nat
  endAt : Nat
  waits : Nat
  parked : Bool
  parking : List Nat
  resuming : Option (Nat × Join)
  joins : List Join
  deriving DecidableEq, Repr

/-- The pool manager beyond registers and slot records: the intake queue; leaves and buffer requests held while
a boundary runs (R164), a leave as (slot, status); the number of held step triggers; the boundary; and the
staging buffers in use per context (R151). -/
structure Pool where
  intake : List Join
  leaves : List (Nat × Nat)
  held : List PoolReq
  triggers : Nat
  bnd : Option Boundary
  stage : SMap Nat
  deriving DecidableEq, Repr

/-! ## Work contexts (spec/12_work_contexts.md) -/

/-- A deferral of a lock's holder (R362): the holder, the lock, the cycle in which it began and the lowest
priority number among its waiters. -/
structure Deferral where
  holder : Nat
  lock : Nat
  began : Nat
  prio : Nat
  deriving DecidableEq, Repr

/-- Contexts beyond registers and tables: deferrals, last holders by lock (context + 1, 0 for none, R539),
contexts whose slots step 7 of R366 has still to empty, those among them that end STOPPED because job state is
cleared (R350), and context resets running with the last cycle of their 2,048. -/
structure CtxSt where
  deferrals : List Deferral
  lastHolder : SMap Nat
  step7 : List Nat
  cleared : List Nat
  resets : List (Nat × Nat)
  deriving DecidableEq, Repr

/-! ## Fabric ports (spec/08_fabric_link.md) -/

/-- A DATA flit held by a port: its pool, whether it starts and ends a packet, and its payload bytes. -/
structure Flit where
  pool : Nat
  sop : Bool
  eop : Bool
  payload : List Byte
  deriving DecidableEq, Repr

/-- A packet waiting in a port to be sent: its pool, the payload of its flits and what it is. -/
structure TxItem where
  pool : Nat
  flits : List (List Byte)
  pkt : Packet
  deriving DecidableEq, Repr

/-- A packet that a port has received: its pool and number of flits, whether a flit of it came from a replay
(R388), the cycle of its arrival and its contents. -/
structure RxPkt where
  pool : Nat
  flits : Nat
  replayed : Bool
  when : Nat
  pkt : Packet
  deriving DecidableEq, Repr

/-- A port beyond its registers (R238 to R257). Sending: packets not yet started, flits of the packet being
sent, the pool that sent last, the retry buffer as (SEQ, flit) oldest first with the cycle from which its oldest
flit is held, the packets with a flit in it as (last SEQ, packet), flits still to replay and whether the next
starts the replay, next SEQ, flits sent and returned per pool, the partner's advertisement, the last ACK
received. Receiving: own advertisement, flits freed and held per pool, expected SEQ, since when NAK-wait
lasts, whether a NAK is owed, the last SEQ discarded as a gap, the SEQ up to which a replay runs, the flits of a
packet being received, and packets received and not yet taken. Further: the flit count k, the PRBS31 registers
of both directions, training attempts and RETRAIN tries, replays that started from one SEQ, start SEQ and cycle
of the last replay, uncorrectable blocks in a row, blocks received, corrections as (block, lane) within 2^20
blocks, the WIDTH to which a RETRAIN falls back after its first try, the cycle of entry to its state, and CBL_3V3 with its overcurrent (R510). -/
structure Port where
  txq : List TxItem
  sending : List Flit
  lastPool : Nat
  retry : List (Nat × Flit)
  since : Nat
  flying : List (Nat × TxItem)
  replay : List (Nat × Flit)
  replayFirst : Bool
  nextSeq : Nat
  sent : SMap Nat
  freed : SMap Nat
  adv : SMap Nat
  lastAck : Nat
  ownAdv : SMap Nat
  freedOwn : SMap Nat
  rxHeld : SMap Nat
  exp : Nat
  nakWait : Option Nat
  nakOwed : Bool
  gapSeq : Option Nat
  replayTo : Option Nat
  rx : List Flit
  rxReplayed : Bool
  arrived : List RxPkt
  k : Nat
  txPrbs : Nat
  rxPrbs : Nat
  attempts : Nat
  tries : Nat
  replays : Nat
  lastReplay : Option (Nat × Nat)
  badBlocks : Nat
  blocks : Nat
  laneHist : List (Nat × Nat)
  fallback : Nat
  entered : Nat
  cblOn : Bool
  deriving DecidableEq, Repr

/-! ## Network, transport (spec/09, spec/10) -/

/-- Where the tile of a sent chunk came from (R300, SRCKIND). -/
inductive SrcRef where
  | none
  | bench (b t : Nat)
  | ruril (t : Nat)
  | dovetail (msg chunk : Nat)
  deriving DecidableEq, Repr

/-- Who sent a message, and so what its acknowledgement completes: nobody waits for it, a SEND, a Dovetail
message, or a collective instance. -/
inductive MsgOwner where
  | free
  | bench (b q po : Nat)
  | dov (d : Nat)
  | col (g gseq : Nat)
  deriving DecidableEq, Repr

/-- A transport packet that a pair holds (R293, R294): its SEQ, its packet, its source, its owner, whether it is
the last of its message, and whether it replays a record of the cut list (R305). -/
structure TxPkt where
  seq : Nat
  pkt : Packet
  src : SrcRef
  owner : MsgOwner
  last : Bool
  again : Bool
  deriving DecidableEq, Repr

/-- The sending side of a pair (R293): destination rank and context, or a tree; next SEQ to assign and to send;
packets sent and not acknowledged, oldest first; packets not yet sent; packets outside the window that wait for a
route, with their destination (R299), and whether the first packet not yet sent waits for one; the retry count, suspect mark, RTO intervals passed while suspect and the cycle of the last advance. -/
structure TxPair where
  tree : Bool
  dst : Nat
  ctx : Nat
  next : Nat
  sendNext : Nat
  unack : List TxPkt
  waiting : List TxPkt
  ctl : List (Nat × Packet)
  noRoute : Bool
  retries : Nat
  suspect : Bool
  ticks : Nat
  advAt : Nat
  deriving DecidableEq, Repr

/-- The receiving side of a pair (R295, R296): expected SEQ, SEQs accepted beyond it, packets accepted since
the last ACK and the cycle of the oldest of them. -/
structure RxPair where
  src : Nat
  ctx : Nat
  e : Nat
  ahead : List Nat
  owed : Nat
  since : Nat
  deriving DecidableEq, Repr

/-- A message being received (R286): the KIND of descriptor that takes it, source rank, tree or PHYS, context,
channel, SEQ of its chunk 0, chunk count, STEP, the chunks held as (index, tile, charged to the staging share),
how many have landed, and the sequencer whose RECV has taken it. -/
structure RxMsg where
  kind : Nat
  src : Nat
  ctx : Nat
  chan : Nat
  base : Nat
  nchunk : Nat
  step : Nat
  held : List (Nat × Tile × Bool)
  landed : Nat
  taker : Option (Nat × Nat)
  deriving DecidableEq, Repr

/-- A cut-list record (R300): its place in the region and its contents, with the tile that the Dovetail can
rebuild. -/
structure CutRec where
  place : Nat
  t0 : Word
  t1 : Word
  t2 : Word
  crc : Nat
  src : SrcRef
  kept : Option Tile
  dst : Nat
  tree : Bool
  ctx : Nat
  ordered : Bool
  acked : Bool
  lost : Bool
  deriving DecidableEq, Repr

/-- A member's state of a tree (R310): E, current parent rank, 0 NORMAL, 1 ASK_PARENT, 2 ASK_UP, the failed
rank asked about, whether a message is open, the cycle of the last event, adopted children as (child, failed
rank), and the failed ranks reported to ROOT or by it. -/
structure TreeSt where
  tree : Nat
  e : Nat
  parent : Nat
  mode : Nat
  failed : Nat
  opened : Bool
  when : Nat
  adopted : List (Nat × Nat)
  reported : List Nat
  deriving DecidableEq, Repr

/-- A SEND in progress (R285): its sequencer, program order, address and context, the KIND, destination, class and
channel of its message, first tile, chunk count, the SEQ of its first chunk, and chunks read so far. -/
structure SendJob where
  b : Nat
  q : Nat
  po : Nat
  pc : Nat
  ctx : Nat
  kind : Nat
  dst : Nat
  ordered : Bool
  chan : Nat
  tile : Nat
  num : Nat
  base : Nat
  next : Nat
  tiles : List Tile
  deriving DecidableEq, Repr

/-- What a booked fabric engine transfer is for (R537): a read of a SEND's chunk, a write of a received chunk,
and the collective engine's reads and writes as (group, GSEQ). -/
inductive FabUse where
  | send (b q po : Nat)
  | recv (b q chunk : Nat) (tile : Tile) (charged : Option Nat)
  | colRead (g gseq i : Nat)
  | colWrite (g gseq i : Nat) (tile : Tile)
  deriving DecidableEq, Repr

/-- A booked fabric engine transfer: the bench tile, the cycle in which it is complete, and its use. -/
structure FabXfer where
  bench : Nat
  btile : Nat
  due : Nat
  use : FabUse
  deriving DecidableEq, Repr

/-- A version 2 chain being received from a PHYS (R152, R153): its payload so far and its cells. -/
structure V2Chain where
  src : Nat
  payload : List Byte
  cells : Nat
  deriving DecidableEq, Repr

/-- The network and transport layers beyond their registers and tables. `start` holds a START that waits for
ports (R275) as (KEY, EPOCH, JOBTREE, whether a packet brought it); `drainAt` is the cycle of entry to DRAINING;
`pendingClear` tells that job state is to be cleared when the device runs again (R278); `cutWait` holds, per
context, the cycle since which it waits for records (R301); the last two are the contexts that have had their
first such record in this step. -/
structure Xport where
  start : Option (Nat × Nat × Nat × Bool)
  drainAt : Nat
  pendingClear : Bool
  tx : List TxPair
  rx : List RxPair
  msgs : List RxMsg
  cut : List CutRec
  cutWait : SMap Nat
  trees : List TreeSt
  jobs : List SendJob
  xfers : List FabXfer
  v2 : List V2Chain
  noDescSeen : List Nat
  badArrSeen : List Nat
  deriving DecidableEq, Repr

/-! ## Collectives (spec/11_collectives.md) -/

/-- A message of a collective instance: its sender, its chunk count, the chunks held by index, and how many of them
are charged to the context's staging share. -/
structure ColMsg where
  src : Nat
  nchunk : Nat
  tiles : List (Nat × Tile)
  charged : Nat
  deriving DecidableEq, Repr

/-- An open collective instance (R329): its name and context, the cycle in which its slot opened, descriptor words
0 to 4 (none before the local start), a Dovetail start's code (0 for another start), the source tiles read so
far, whether they are all there, its messages, the levels whose partial is formed with the last one, the result,
the ranks it has sent to, messages not yet acknowledged, destination writes still due (none before they begin), and
the OR of the FLAGS of the result tiles. -/
structure ColInst where
  g : Nat
  gseq : Nat
  ctx : Nat
  since : Nat
  words : List Word
  desc : Nat
  dov : Nat
  src : List Tile
  srcDone : Bool
  msgs : List ColMsg
  levels : Nat
  part : List Tile
  result : Option (List Tile)
  sent : List Nat
  unacked : Nat
  writes : Option Nat
  flags : Nat
  deriving DecidableEq, Repr

/-- A local start that waits for a slot (R331). -/
structure ColWait where
  g : Nat
  gseq : Nat
  ctx : Nat
  since : Nat
  words : List Word
  desc : Nat
  dov : Nat
  src : List Tile
  deriving DecidableEq, Repr

/-- The collective engine beyond its registers and tables: open instances, waiting starts, per context the cycle
since which a refused arrival waits, the rank named by a group's earliest ABORT, and the pairs that a warm reset
has left to abort (R347). -/
structure ColSt where
  insts : List ColInst
  waits : List ColWait
  refused : SMap Nat
  abortRank : SMap Nat
  owedAborts : List (Nat × Nat)
  deriving DecidableEq, Repr

/-- The engine with no instance. -/
def ColSt.empty : ColSt := ⟨[], [], [], [], []⟩

/-! ## Values at reset of the parts -/

/-- A sequencer after reset. -/
def Seq.reset : Seq := ⟨.idle, 0, [], [], .no, [], 0, none, 0, 2⟩
/-- A side with nothing queued or running. -/
def Side.empty : Side :=
  ⟨[], [], [], [], [], [], none, [], [], [], 0, 0, 0, 0, [], 0, 0, [], []⟩
/-- An accumulator that holds +0 and no flag. -/
def Acc.zero : Acc := ⟨0, 0⟩
/-- A lane's stile after reset: eight zeros of 8-bit row form. -/
def LaneStile.zero : LaneStile := ⟨8, List.replicate 8 (.fin false 0 0)⟩
/-- A bench after reset: R434 gives the state it leaves. -/
def Bench.reset : Bench :=
  ⟨Seq.reset, Seq.reset, Side.empty, Side.empty, [], false, false, false, ⟨8, []⟩, ⟨8, []⟩, [], [], [], none, false, [], none, 0⟩
/-- The tier manager with nothing booked. -/
def Tier.empty : Tier := ⟨[], [], [], [], [], [], [], [], [], []⟩
/-- The pool with nothing queued. -/
def Pool.empty : Pool := ⟨[], [], [], 0, none, []⟩
/-- Contexts with nothing pending. -/
def CtxSt.empty : CtxSt := ⟨[], [], [], [], []⟩
/-- A port as after DISABLED is entered. -/
def Port.reset : Port where
  txq := []
  sending := []
  lastPool := 16
  retry := []
  since := 0
  flying := []
  replay := []
  replayFirst := false
  nextSeq := 0
  sent := []
  freed := []
  adv := []
  lastAck := 255
  ownAdv := []
  freedOwn := []
  rxHeld := []
  exp := 0
  nakWait := none
  nakOwed := false
  gapSeq := none
  replayTo := none
  rx := []
  rxReplayed := false
  arrived := []
  k := 0
  txPrbs := 0x7FFFFFFF
  rxPrbs := 0x7FFFFFFF
  attempts := 0
  tries := 0
  replays := 0
  lastReplay := none
  badBlocks := 0
  blocks := 0
  laneHist := []
  fallback := 3
  entered := 0
  cblOn := true
/-- The transport with no state held. -/
def Xport.empty : Xport := ⟨none, 0, false, [], [], [], [], [], [], [], [], [], [], []⟩

/-! ## Dovetail (spec/06_dovetail_selection.md, spec/07_dovetail_dispatch_combine.md) -/

/-- A token that its Gauge unit has taken (R177 to R180): whether it is skipped and whether a raw score is NaN, the
experts of its selection and its NEXT candidates, its weights as FP32 bits, the cycle after its last read, the
cycle in which its record is ready, and whether the record has been formed. -/
structure DovTok where
  t : Nat
  skip : Bool
  nan : Bool
  cand : List Nat
  ws : List Nat
  readEnd : Nat
  ready : Nat
  formed : Bool
  deriving DecidableEq, Repr

/-- A layer descriptor of the current step (R170): its index and context, T, STEP, the cycles in which it started and was done, tiles
accepted per expert group (32 for skip tiles), tiles held as (kind, index, tile), tokens taken, the number of tokens that
have entered the walk, the first cycle for the next one, copies per instance (expert * 4 + instance) and the ACTIVE slots at
step start (R198). -/
structure DovDesc where
  d : Nat
  ctx : Nat
  num : Nat
  step : Nat
  started : Option Nat
  done : Option Nat
  cnt : SMap Nat
  store : List (Nat × Nat × Tile)
  toks : List DovTok
  walked : Nat
  walkFree : Nat
  used : SMap Nat
  slots : List Nat
  deriving DecidableEq, Repr

/-- A copy of a token as its record carries it (R207), with its row and the SRC of the part that brought it. -/
structure DovCopy where
  tag : Nat
  expert : Nat
  inst : Nat
  fb : Option Nat
  status : Nat
  row : List Byte
  src : Nat
  deriving DecidableEq, Repr

/-- A part (R206, R207) with the cycle of its arrival. -/
structure DovPart where
  kind : Nat
  round : Nat
  layer : Nat
  src : Nat
  dst : Nat
  torn : Bool
  spills : Nat
  step : Nat
  copies : List DovCopy
  when : Nat
  deriving DecidableEq, Repr

/-- A copy that the source expects back (R218): token, rank, weight, destination rank, and its result as (STATUS, row,
cycle of arrival). -/
structure DovExp where
  t : Nat
  r : Nat
  w : Nat
  dst : Nat
  res : Option (Nat × List Byte × Nat)
  deriving DecidableEq, Repr

/-- A local entry in a step (R210 to R217): its number, expert and instance, copies with a row in row order, copies
resolved without one, whether a PROMOTE was issued, whether it missed, whether an overflow has been recorded, spill copies admitted, inbox
tiles still to land (none before they are booked), whether RSEM has been consumed, outbox tiles still to read, those
read, and whether the outbox has been read. -/
structure DovEnt where
  l : Nat
  expert : Nat
  inst : Nat
  rows : List DovCopy
  dead : List DovCopy
  promoted : Bool
  missed : Bool
  full : Bool
  spills : Nat
  left : Option Nat
  asked : Bool
  toRead : Nat
  tiles : List (Nat × Nat × List Byte)
  read : Bool
  deriving DecidableEq, Repr

/-- The exchange of a descriptor with a dispatch descriptor in one step: index, context, STEP, T; whether the walk is over; the
copies to send as (destination, copy) and the expected results; source tiles still to read and those read; which parts
are sent; dispatch parts received; whether round 0 and the last round have closed; local entries, copies of no
local entry, copies moved after a miss; result parts received, whether the result set has closed, the output tiles begun, and
whether CSEM has been signalled. -/
structure DovX where
  d : Nat
  ctx : Nat
  step : Nat
  num : Nat
  walked : Bool
  out : List (Nat × DovCopy)
  exp : List DovExp
  srcLeft : Nat
  srcTiles : List (Nat × Nat × List Byte)
  sent0 : Bool
  sent1 : Bool
  sentR : Bool
  parts : List DovPart
  closed0 : Bool
  final : Bool
  ents : List DovEnt
  others : List DovCopy
  moved : List (Nat × DovCopy)
  results : List DovPart
  closedR : Bool
  wrote : List Nat
  signalled : Bool
  deriving DecidableEq, Repr

/-- What a booked Dovetail transfer is for (R201): a source row tile, an inbox tile, an outbox tile, an output tile. -/
inductive DovUse where
  | source
  | inbox (l : Nat) (payload : List Byte)
  | outbox (l : Nat)
  | output (payload : List Byte) (flags : Nat)
  deriving DecidableEq, Repr

/-- A booked Dovetail transfer: descriptor, STEP, bench, tile, the cycle in which it is complete, and its use. -/
structure DovXfer where
  d : Nat
  step : Nat
  bench : Nat
  btile : Nat
  due : Nat
  use : DovUse
  deriving DecidableEq, Repr

/-- The Dovetail beyond its registers and tables: descriptors of the step, exchanges, transfers, the number of its next
message (R300), contexts that have had their first discard in the step, whether the step has had a TORN part, update all-reduces that
run, contexts whose placement update is still to start, and whether a glue-up that applies a proposal runs (R225). -/
structure Dov where
  descs : List DovDesc
  xs : List DovX
  xfers : List DovXfer
  msg : Nat
  disc : List Nat
  torn : Bool
  upd : List Nat
  place : List Nat
  applying : Bool
  deriving DecidableEq, Repr

/-- The Dovetail with no work. -/
def Dov.empty : Dov := ⟨[], [], [], 0, [], false, [], [], false⟩

/-! ## Determinism (spec/13_determinism.md) -/

/-- A Clamp record (R382). -/
structure ClampRec where
  bench : Nat
  seq : Nat
  tile : Nat
  crc : Nat
  pg : Nat
  ord : Nat
  deriving DecidableEq, Repr

/-- Clamp beyond its registers: pass groups and output ordinals per sequencer (bench * 2 + sequencer), the
record queue, the twin's records that came before their own, and the records still to be sent. -/
structure Clamp where
  pg : SMap Nat
  ord : SMap Nat
  queue : List ClampRec
  early : List ClampRec
  out : List ClampRec
  deriving DecidableEq, Repr

/-- How far a Mark has come on this device (R387 to R390): members still gather; a member awaits MARK; a ROOT
awaits its twin; the leader's GO has not left yet; ROOT's first copy has not left yet; the release is set. -/
inductive MarkPhase where
  | gather
  | awaitMark
  | awaitTwin
  | goSent
  | copiesSent
  | releaseSet
  deriving DecidableEq, Repr

/-- Mark beyond its registers: its phase; whether software has written ARRIVE; the ranks that have sent ARRIVE;
since when it waits and whether TIMEOUT_MS has been reported; whether the twin's ARRIVED has come; TWIN_MARK phases to send
on port 7; a cycle with the picoseconds from t0 to it, and whether a replay brought them; the release as
frame start, hold in eighths, MARK ID and LATE; and the cycles that droop holds had taken when it was chosen (R469). -/
structure MarkSt where
  phase : MarkPhase
  sw : Bool
  got : List Nat
  since : Nat
  timedOut : Bool
  twinGot : Bool
  owed : List Nat
  ref : Option (Nat × Nat)
  replayed : Bool
  rel : Option (Nat × Nat × Nat × Bool)
  stretch : Nat
  deriving DecidableEq, Repr

/-- No Mark in progress. -/
def MarkSt.empty : MarkSt := ⟨.gather, false, [], 0, false, false, [], none, false, none, 0⟩

/-! ## Work that a step leaves for the end of the same step -/

/-- A consequence that one part of a step hands to another, carried out before the step ends. -/
inductive Work where
  | semCheck (n : Nat)
  | teardown (c : Nat)
  | colStart (code g ctx : Nat) (tiles : List Tile)
  | colDone (code : Nat) (tiles : List Tile)
  | colError (code cause : Nat)
  | colCheck
  | glueVote (sum : Option Nat)
  | glueGo
  | dovMiss (obj path : Nat)
  | heldBook (obj : Nat)
  | heldFail (obj : Nat)
  | markCheck
  | boundary
  | giveBack (port : Nat) (pkts : List Packet)
  | colChunk (src ctx g gseq chunk : Nat) (p : Packet)
  | dovMsg (src ctx step : Nat) (tiles : List Tile)
  | acked (owner : MsgOwner)
  | dovPart (d : Nat) (p : DovPart)
  | dovRound (d stage : Nat)
  deriving DecidableEq, Repr

/-! ## Host attachment (spec/16_host_cxl.md) -/

/-- The host interface beyond its registers: outstanding intake fetches per ring as (first record, number),
oldest first (R450); rings whose last fetch failed; the place of the oldest record of each context's overflow
queue (R455); per completion ring the cycle from which the next message may go and the rings with records to
signal then (R456); Cache_Enable (R446); the base and size of HDM decoder 0 (R443); the cycle in which a disabled link trains
again (R439). -/
structure HostSt where
  fetch : SMap (List (Nat × Nat))
  ovfHead : SMap Nat
  coalEnd : SMap Nat
  coalPend : List Nat
  cacheEn : Bool
  hdmBase : Nat
  hdmSize : Nat
  retryAt : Option Nat
  deriving DecidableEq, Repr

/-- The host interface with nothing outstanding. -/
def HostSt.empty : HostSt := ⟨[], [], [], [], false, 0, 0, none⟩

/-! ## Jig and glue-up (spec/14_jig_and_glueup.md) -/

/-- The jig beyond its registers: the flash; the first 8,192 bytes of the image that the configuration comes from;
whether LOAD has completed since cold reset and whether the LOAD that runs is a rebuild (R430); a running PROGRAM
as (first tile, tiles, device state) (R401); the change set's first tile and header words as DRYFIT found them; the
RESULT of its own failure before the vote; the first record whose FETCH is not done; the next record to apply and the
context whose reset it waits for; whether it applied a FLOOR record and a fabric table record; the GSEQ of the vote;
the cycle of entry to STOPPING or VOTING; the header tile of its journal entry; the records of the job's fabric tables (R406); and
the measurement H of R496. -/
structure JigSt where
  flash : SMap Byte
  image : List Byte
  built : Bool
  rebuild : Bool
  prog : Option (Nat × Nat × Nat)
  base : Nat
  head : List Word
  bad : Nat
  fetch : Nat
  next : Nat
  wait : Option Nat
  floor : Bool
  fabric : Bool
  gseq : Nat
  since : Nat
  entry : Nat
  jobRecs : List (Nat × Word)
  meas : List Byte
  deriving DecidableEq, Repr

/-- The jig with nothing loaded and no glue-up. -/
def JigSt.empty : JigSt := ⟨[], [], false, false, none, 0, [], 0, 0, 0, none, false, false, 0, 0, 0, [], List.replicate 32 0⟩

/-! ## Supplies, clocks and resets (spec/15_power_up_clocks_reset.md) -/

/-- The supplies, clocks and resets: main and aux good; whether power-up runs (R424); the loss of main that the next cold
reset reports (0 none, 1 MAIN_LOST, 2 MAIN_OV); a running warm reset with its LAST code; whether PERST_N is asserted; whether the Ruril stacks are
up (R440); the reference, the root PLL and the domains (R427); the cycle of entry to TRAIN. -/
structure PowerSt where
  main : Bool
  aux : Bool
  ramp : Bool
  lost : Nat
  warm : Option Nat
  perst : Bool
  ruril : Bool
  refOk : Bool
  rootOk : Bool
  doms : Nat
  trainAt : Nat
  deriving DecidableEq, Repr

/-- Both supplies good and every clock locked. -/
def PowerSt.up : PowerSt := ⟨true, true, false, 0, none, false, false, true, true, 0xF, 0⟩

/-! ## Kiln (spec/17_kiln.md) -/

/-- Kiln beyond its registers: the ramp term in 1/100 W (none before its first period) and the ceiling of the period; the rail
of each group in half millivolts; consecutive intervals at VMAX_MV below the margin target per group and the groups whose AVS_LIMIT
condition holds (R464); the cycle from which a droop hold runs and the cycles that droop holds have taken; the cycles
since which power is over its limit, the junction and the outlet are over their trips; the profile of the step and of
the reference step, as bins, with the reference's length and the cycle of the step's start (R473); the integral of
R475 in 1/40960 %; the SEQ of the next forecast frame; the cycle of the last valid cap frame; whether VALVE_FAULT drives
the valve open (R476); the cycle of the last control period; and the configuration words that are in force (R478). -/
structure KilnSt where
  ramp : Option Nat
  ceil : Nat
  rail : SMap Nat
  atMax : SMap Nat
  limited : List Nat
  droop : Option Nat
  drooped : Nat
  overAt : Option Nat
  hotAt : Option Nat
  outAt : Option Nat
  bins : SMap Nat
  ref : SMap Nat
  refLen : Nat
  stepAt : Nat
  integ : Int
  seq : Nat
  capAt : Nat
  forced : Bool
  last : Nat
  ctl : Word
  pcfg : Word
  avs : Word
  est : Word
  therm : Word
  valve : Word
  deriving DecidableEq, Repr

/-- Kiln as LOAD begins: no period has run, and the reset values of its configuration are in force. -/
def KilnSt.empty : KilnSt where
  ramp := none
  ceil := 0
  rail := []
  atMax := []
  limited := []
  droop := none
  drooped := 0
  overAt := none
  hotAt := none
  outAt := none
  bins := []
  ref := []
  refLen := 0
  stepAt := 0
  integ := 0
  seq := 0
  capAt := 0
  forced := false
  last := 0
  ctl := resetOf Reg.KLN_CTL
  pcfg := resetOf Reg.KLN_POWER_CFG
  avs := resetOf Reg.KLN_AVS_CFG
  est := resetOf Reg.KLN_ESTORE_CFG
  therm := resetOf Reg.KLN_THERM_CFG
  valve := resetOf Reg.KLN_VALVE_CFG

/-! ## Sideband and security (spec/18_management_and_security.md) -/

/-- The sideband target: the data of the last command, the request and response buffers, and whether hot-join is
enabled (R481). -/
structure MgtSt where
  data : List Byte
  req : SMap Byte
  rsp : List Byte
  hotJoin : Bool
  deriving DecidableEq, Repr

/-- The sideband target with nothing held. -/
def MgtSt.empty : MgtSt := ⟨[], [], [], true⟩

/-- Security: the fuses (PID bits, SERIAL, the owner slots, blown SVN and RESV fuses) (R488); a running burn as
(kind, words), 0 SVN, 1 OWNER; whether this reset has taken a reservation and whether its first lower tree is
still being built (R492, R493); tokens in the bucket; the held ML-KEM key as (number, NONCE, cycle); the IDE keys
and the streams that a bad MAC has made Insecure (bit 0 CXL.io, 1 CXL.cachemem). -/
structure SecSt where
  pid : Nat
  serial : Nat
  owner : List (List Word)
  svn : Nat
  resv : Nat
  burn : Option (Nat × List Word)
  signing : Bool
  build : Bool
  tokens : Nat
  kem : Option (Nat × List Byte × Nat)
  ideKeys : List (List Byte)
  insecure : Nat
  deriving DecidableEq, Repr

/-- Four owner slots that are not burnt. -/
def noOwner : List (List Word) := List.replicate 4 [0, 0, 0, 0]

/-- Security as the module leaves manufacture (R538), with a full bucket. -/
def SecSt.made : SecSt := ⟨1, 1, noOwner, 0, 0, none, false, false, 64, none, [], 0⟩

/-! ## Outputs, faults and the whole state -/

/-- What the block sends to the outside; the model's own record of it, oldest last. -/
inductive Out where
  | mmio (v : Word)
  | msix (vector : Nat)
  | block (port : Nat) (bytes : List Byte)
  | hostWrite (addr : Nat) (bytes : List Byte)
  | hostRead (addr len : Nat)
  | sideband (bytes : List Byte)
  | ibi (events : Nat)
  | hotJoin
  | cxlData (bytes : List Byte) (poison : Bool)
  | cxlDone
  | snoopReply
  | doe (words : List Byte)
  | frame (bytes : List Byte)
  deriving DecidableEq, Repr

/-- The state of the block. -/
structure State where
  cycle : Nat
  dev : Nat
  regs : SMap Word
  tabs : SMap Word
  sram : SMap Byte
  stags : SMap (BitVec 128)
  sbad : List Nat
  ruril : SMap Byte
  rtags : SMap (BitVec 128)
  rbad : List Nat
  benches : SMap Bench
  tier : Tier
  pool : Pool
  ctxs : CtxSt
  ports : SMap Port
  xport : Xport
  col : ColSt
  dov : Dov
  clamp : Clamp
  mark : MarkSt
  host : HostSt
  jig : JigSt
  power : PowerSt
  kiln : KilnSt
  mgt : MgtSt
  sec : SecSt
  priv : Bool
  msixTab : SMap Word
  glueHold : Nat
  errPending : Nat
  v16Sent : Bool
  msixEn : Bool
  msixOpen : List Nat
  msixPba : List Nat
  ibiEn : Bool
  ibiPend : Nat
  work : List Work
  sent : List Out
  fresh : Nat
  pending : List Instr
  deriving DecidableEq, Repr

/-! ## Stops -/

/-- The reasons for which a command stops the model. All are safe: each command names a unit that the spec
says does not exist, and no state changes. -/
inductive Fault where
  /-- The command names a bench above 1175 (R4). Safe. -/
  | noSuchBench
  /-- The command names a sequencer above 1 (R12). Safe. -/
  | noSuchSequencer
  /-- The command names a context above 15 (R350). Safe. -/
  | noSuchContext
  /-- The command names a fabric port above 15 (R232). Safe. -/
  | noSuchPort
  /-- The command names an object descriptor above 65,535 (R119). Safe. -/
  | noSuchObject
  /-- The command names a sequence slot that does not exist (R156). Safe. -/
  | noSuchSlot
  /-- The command names a host ring above 15 (R448). Safe. -/
  | noSuchRing
  deriving DecidableEq, Repr

/-- The reasons for which the model refuses a command. -/
inductive Refusal where
  /-- Raised by an arm of exec whose command has no meaning yet. Safe: nothing changes. -/
  | notModelled (mnemonic : String)
  deriving DecidableEq, Repr

/-! ## Reset -/

/-- The block right after cold reset is released: the device is in LOAD, every register and table holds its
reset value, every memory the contents that reset writes, and no command waits. -/
def State.reset : State where
  cycle := 0
  dev := 2
  regs := []
  tabs := []
  sram := []
  stags := []
  sbad := []
  ruril := []
  rtags := []
  rbad := []
  benches := []
  tier := Tier.empty
  pool := Pool.empty
  ctxs := CtxSt.empty
  ports := []
  xport := Xport.empty
  col := ColSt.empty
  dov := Dov.empty
  host := HostSt.empty
  clamp := ⟨[], [], [], [], []⟩
  mark := MarkSt.empty
  jig := JigSt.empty
  power := PowerSt.up
  kiln := KilnSt.empty
  mgt := MgtSt.empty
  sec := SecSt.made
  priv := false
  msixTab := []
  glueHold := 0
  errPending := 0
  v16Sent := false
  msixEn := false
  msixOpen := []
  msixPba := []
  ibiEn := false
  ibiPend := 0
  work := []
  sent := []
  fresh := 0
  pending := []

end Sys2Proof.Machine
end

