-- ==== Sys2Proof/Machine/Ops.lean ====
section
/-!
DEFINITION. The named operations over registers, tables, benches, time and outputs that every command uses.
-/
namespace Sys2Proof.Machine

/-! ## Registers and tables -/

/-- The stored value of the register at a BAR0 offset. -/
def rd (off : Nat) (s : State) : Word := smGet resetOf s.regs off

/-- Store a register's value. -/
def wr (off : Nat) (v : Word) (s : State) : State := { s with regs := smPut resetOf s.regs off v }

/-- A field of a register. -/
def rdF (off : Nat) (f : Fld) (s : State) : Nat := getF f (rd off s)

/-- Store a field of a register. -/
def wrF (off : Nat) (f : Fld) (x : Nat) (s : State) : State := wr off (setF f (rd off s) x) s

/-- Add to a counter, modulo 2^64. -/
def bumpBy (n off : Nat) (s : State) : State := wr off (rd off s + BitVec.ofNat 64 n) s

/-- Add 1 to a counter, modulo 2^64. -/
def bump (off : Nat) (s : State) : State := bumpBy 1 off s

/-- A register back at its reset value. -/
def unwr (off : Nat) (s : State) : State := wr off (resetOf off) s

/-- A word of a table, 0 where nothing is written. -/
def tb (k : Nat) (s : State) : Word := smGet (fun _ => 0) s.tabs k

/-- Store a word of a table. -/
def tbW (k : Nat) (v : Word) (s : State) : State := { s with tabs := smPut (fun _ => 0) s.tabs k v }

/-- A field of a table word. -/
def tbF (k : Nat) (f : Fld) (s : State) : Nat := getF f (tb k s)

/-- Store a field of a table word. -/
def tbWF (k : Nat) (f : Fld) (x : Nat) (s : State) : State := tbW k (setF f (tb k s) x) s

/-- The keys from `lo` up to but not including `hi` that a table lists, ascending. -/
def tabKeys (lo hi : Nat) (s : State) : List Nat :=
  (s.tabs.filter (fun p => lo ≤ p.1 && p.1 < hi)).map (·.1)

/-- All keys from `lo` to `hi` back at 0. -/
def tabClear (lo hi : Nat) (s : State) : State :=
  { s with tabs := s.tabs.filter (fun p => !(lo ≤ p.1 && p.1 < hi)) }

/-! ## Time -/

/-- The state at cycle `c`, or as it is where `c` is past. -/
def advanceTo (c : Nat) (s : State) : State := { s with cycle := max s.cycle c }

/-- The first Floor frame start after cycle `c` (R56, R102). -/
def frameAfter (c : Nat) : Nat := (c / 16 + 1) * 16

/-- The first Floor frame start at or after cycle `c`. -/
def frameFrom (c : Nat) : Nat := (c + 15) / 16 * 16

/-- Cycles of the 850 MHz clock in `n` microseconds (R9). -/
def usCycles (n : Nat) : Nat := n * 850

/-! ## Outputs and free values -/

/-- Record an output. -/
def emit (o : Out) (s : State) : State := { s with sent := s.sent ++ [o] }

/-- Leave work for the end of this step. -/
def defer (w : Work) (s : State) : State := { s with work := s.work ++ [w] }

/-- Take the next number for a free value. -/
def nextFresh (s : State) : Nat × State := (s.fresh, { s with fresh := s.fresh + 1 })

/-! ## Benches -/

/-- Bench `b`. -/
def benchOf (b : Nat) (s : State) : Bench := smGet (fun _ => Bench.reset) s.benches b

/-- Store bench `b`. -/
def setBench (b : Nat) (x : Bench) (s : State) : State :=
  { s with benches := smPut (fun _ => Bench.reset) s.benches b x }

/-- Sequencer `q` of a bench. -/
def Bench.seq (x : Bench) (q : Nat) : Seq := if q = 0 then x.seq0 else x.seq1

/-- A bench with sequencer `q` replaced. -/
def Bench.setSeq (x : Bench) (q : Nat) (v : Seq) : Bench :=
  if q = 0 then { x with seq0 := v } else { x with seq1 := v }

/-- Side `q` of a bench. -/
def Bench.side (x : Bench) (q : Nat) : Side := if q = 0 then x.side0 else x.side1

/-- A bench with side `q` replaced. -/
def Bench.setSide (x : Bench) (q : Nat) (v : Side) : Bench :=
  if q = 0 then { x with side0 := v } else { x with side1 := v }

/-- Sequencer `q` of bench `b`. -/
def seqOf (b q : Nat) (s : State) : Seq := (benchOf b s).seq q

/-- Side `q` of bench `b`. -/
def sideOf (b q : Nat) (s : State) : Side := (benchOf b s).side q

/-- Store side `q` of bench `b`. -/
def setSide (b q : Nat) (v : Side) (s : State) : State := setBench b ((benchOf b s).setSide q v) s

/-- Whether a sequencer counts as running: RUN or WAIT. -/
def SeqSt.active (x : SeqSt) : Bool := x == .run || x == .wait

/-- Whether some sequencer of a bench is RUN or WAIT. -/
def Bench.active (x : Bench) : Bool := x.seq0.st.active || x.seq1.st.active

/-- Store sequencer `q` of bench `b`, keeping BEN_CYCLE_COUNT: it counts the cycles in which some
sequencer of the bench is RUN or WAIT (R56). -/
def setSeq (b q : Nat) (v : Seq) (s : State) : State :=
  let x := benchOf b s
  let y := x.setSeq q v
  match x.runSince, y.active with
  | none, true => setBench b { y with runSince := some (max s.cycle x.runNext) } s
  | some c, false =>
    bumpBy (s.cycle + 1 - c) (Reg.BEN_CYCLE_COUNT b) (setBench b { y with runSince := none, runNext := s.cycle + 1 } s)
  | _, _ => setBench b y s

/-- Whether bench `b` runs as two halves (R35). -/
def split (b : Nat) (s : State) : Bool := bitF Fld.BEN_CTL_SPLIT (rd (Reg.BEN_CTL b) s)

/-- The MODE of bench `b` in the bench table (R354). -/
def benchMode (b : Nat) (s : State) : Nat := tbF (Tab.BENCHTAB b) Fld.CTX_BENCH_DATA_MODE s

/-- Whether bench `b` is shared by two contexts (R356). -/
def shared (b : Nat) (s : State) : Bool := benchMode b s == 2

/-- The context that owns sequencer `q` of bench `b`, none on an unused bench (R354). -/
def ctxOf (b q : Nat) (s : State) : Option Nat :=
  let e := tb (Tab.BENCHTAB b) s
  let m := getF Fld.CTX_BENCH_DATA_MODE e
  if m = 0 then none
  else if q = 0 ∨ m = 1 then some (getF Fld.CTX_BENCH_DATA_CTXA e)
  else some (getF Fld.CTX_BENCH_DATA_CTXB e)

/-- Whether sequencer `q` of a bench exists in the bench's mode: sequencer 1 in split mode or on a SHARED
bench only (R54). -/
def seqOn (b q : Nat) (s : State) : Bool := q == 0 || (q == 1 && (split b s || shared b s))

/-- The code that BEN_STATUS reads for a sequencer's state (R54). -/
def seqCode (b q : Nat) (s : State) : Nat :=
  if (benchOf b s).resetDue.isSome || !seqOn b q s then 5
  else match (seqOf b q s).st with
    | .idle => 0
    | .run => 1
    | .wait => 2
    | .done => 3
    | .fault => 4

/-- Whether every sequencer of a bench is stopped: IDLE, DONE, FAULT or OFF (R37). -/
def benchStopped (b : Nat) (s : State) : Bool := !(benchOf b s).active

/-- Whether some sequencer of the device is RUN or WAIT. -/
def anyRunning (s : State) : Bool := s.benches.any (fun p => p.2.active)

/-- Lanes that side `q` of bench `b` uses: first lane and count (R35). -/
def laneBase (b q : Nat) (s : State) : Nat := if split b s && q == 1 then 128 else 0
/-- Number of lanes of a side (L of R28). -/
def laneCount (b : Nat) (s : State) : Nat := if split b s then 128 else 256

/-- The tiles of a side: first tile and count (R35, R356). -/
def tileBase (b q : Nat) (s : State) : Nat := if (split b s || shared b s) && q == 1 then 192 else 0
/-- Number of tiles of a side. -/
def tileCount (b : Nat) (s : State) : Nat := if split b s || shared b s then 192 else 384

/-- Whether the run of `n` tiles from `t` lies in the tiles of a side (R36, R47). -/
def runInTiles (b q t n : Nat) (s : State) : Bool :=
  tileBase b q s ≤ t && t + n ≤ tileBase b q s + tileCount b s

/-- Highest accumulator index a program may name plus 1 (R47, R356). -/
def accCount (b : Nat) (s : State) : Nat := if shared b s then 32 else 64

/-- The accumulator index that a program's index `a` names: the second context of a SHARED bench has its
accumulators in 32 to 63 (R356). -/
def accKey (b q a : Nat) (s : State) : Nat := if shared b s && q == 1 then 32 + a else a

/-- Accumulator `a` of all 256 lanes of a bench. -/
def Bench.accRow (x : Bench) (a : Nat) : List Acc := smGet (fun _ => List.replicate 256 Acc.zero) x.accs a

/-- Store accumulator `a` of all lanes. -/
def Bench.setAccRow (x : Bench) (a : Nat) (r : List Acc) : Bench :=
  { x with accs := smPut (fun _ => List.replicate 256 Acc.zero) x.accs a r }

/-- Bank `n` of all 256 lanes of a bench. -/
def Bench.bank (x : Bench) (n : Nat) : List LaneStile :=
  smGet (fun _ => List.replicate 256 LaneStile.zero) x.banks n

/-- Store bank `n` of all lanes. -/
def Bench.setBank (x : Bench) (n : Nat) (r : List LaneStile) : Bench :=
  { x with banks := smPut (fun _ => List.replicate 256 LaneStile.zero) x.banks n r }

/-! ## The device state, the ERR ring and interrupts -/

/-- Raise an MSI-X vector: sent when MSI-X is enabled and the vector unmasked, else its pending bit is set
(R456). -/
def msixRaise (v : Nat) (s : State) : State :=
  if s.msixEn && s.msixOpen.contains v then emit (.msix v) s
  else if s.msixPba.contains v then s else { s with msixPba := s.msixPba ++ [v] }

/-- An event for the in-band interrupt's data byte (R482). -/
def ibiEvent (bit : Nat) (s : State) : State :=
  if s.ibiEn && bitAt (rd Reg.MGT_IBI_MASK s).toNat bit then
    { s with ibiPend := s.ibiPend ||| 2 ^ bit }
  else s

/-- The eight words of an error record (R525), from its SEQ on. -/
def errWords (seq code kind index : Nat) (ctx : Option Nat) (ds : List Word) (dev cycle step : Nat) : List Word :=
  let w0 := seq * 2 ^ 32 + (match ctx with | some c => c % 16 * 2 ^ 28 + 2 ^ 27 | none => 0) + dev % 16 * 2 ^ 20 + code
  let w2 := kind * 2 ^ 60 + index % 2 ^ 32
  let body : List Word := [BitVec.ofNat 64 w0, BitVec.ofNat 64 cycle, BitVec.ofNat 64 w2] ++ (ds ++ [0, 0, 0, 0]).take 4
  let bytes := (body.map (fun w => leBytes 8 w.toNat)).flatten ++ leBytes 4 step
  body ++ [BitVec.ofNat 64 (crc32c bytes * 2 ^ 32 + step)]

/-- Store a list of words at consecutive table keys. -/
def tbWs (k : Nat) : List Word → State → State
  | [], s => s
  | w :: ws, s => tbWs (k + 1) ws (tbW k w s)

/-- Write one record into the ring at TAIL (R527, R532). -/
def errPut (code kind index : Nat) (ctx : Option Nat) (ds : List Word) (dev cycle step : Nat) (s : State) : State :=
  let tail := rdF Reg.ERR_STATE Fld.ERR_STATE_TAIL s
  let s := tbWs (Tab.ERR (tail % 4096 * 8)) (errWords tail code kind index ctx ds dev cycle step) s
  let s := wrF Reg.ERR_STATE Fld.ERR_STATE_TAIL (tail + 1) s
  let s := bump Reg.ERR_WRITTEN s
  let s := if bitF Fld.ERR_CTL_IEN (rd Reg.ERR_CTL s) && !s.v16Sent then
      msixRaise 16 { s with v16Sent := true } else s
  ibiEvent 7 s

/-- Whether the ring is full (R529). -/
def errFull (s : State) : Bool :=
  (rdF Reg.ERR_STATE Fld.ERR_STATE_TAIL s + 2 ^ 32 - rdF Reg.ERR_STATE Fld.ERR_STATE_HEAD s) % 2 ^ 32 == 4096

/-- Whether the reference is lost: only the sideband target runs (R427). -/
def dead (s : State) : Bool := s.dev == 8 && !s.power.refOk

/-- Make an error record with given STATE and CYCLE (R525, R529, R531). -/
def logAt (code kind index : Nat) (ctx : Option Nat) (ds : List Word) (dev cycle : Nat) (s : State) : State :=
  if s.dev < 2 || dead s then s
  else if errFull s then { bump Reg.ERR_LOST s with errPending := s.errPending + 1 }
  else errPut code kind index ctx ds dev cycle (rdF Reg.BPM_STEP_STATUS Fld.BPM_STEP_STATUS_STEP s) s

/-- Make an error record of an event in this cycle. -/
def log (code kind index : Nat) (ctx : Option Nat) (ds : List Word) (s : State) : State :=
  logAt code kind index ctx ds s.dev s.cycle s

/-- Subject kinds of R526. -/
def kNone : Nat := 0
def kBench : Nat := 1
def kPort : Nat := 2
def kObject : Nat := 3
def kContext : Nat := 4
def kLayer : Nat := 5
def kLocal : Nat := 6
def kGroup : Nat := 7
def kRank : Nat := 8
def kSlot : Nat := 9
def kBuffer : Nat := 10
def kRing : Nat := 11
def kGlue : Nat := 12
def kVgroup : Nat := 13
def kTree : Nat := 14

/-- A number as a word. -/
def w64 (n : Nat) : Word := BitVec.ofNat 64 n

/-- Change the device state (R420): GLB_STATE.STATE and MGT_SB_STATUS.DSTATE follow it (R498), the sideband
gets a STATE event (R482), and vector 17 is raised on entry to BARE, STOPPED or FAULT (R456). -/
def setDev (d : Nat) (s : State) : State :=
  let s := { s with dev := d }
  let s := wrF Reg.GLB_STATE Fld.GLB_STATE_STATE d s
  let s := wrF Reg.MGT_SB_STATUS Fld.MGT_SB_STATUS_DSTATE d s
  let s := ibiEvent 6 s
  if d = 3 ∨ d = 7 ∨ d = 8 then msixRaise 17 s else s

/-! ## Bad accesses (R523) -/

/-- Count a bad or refused access and record the first: kind 0 narrow, 1 unaligned, 2 undefined offset,
3 write refused by a rule. -/
def badAccess (src : Src) (kind off : Nat) (s : State) : State :=
  let s := bump Reg.GLB_BAD_ACCESS s
  if bitF Fld.GLB_BAD_FIRST_VALID (rd Reg.GLB_BAD_FIRST s) then s
  else
    wr Reg.GLB_BAD_FIRST (w64 (2 ^ 63 + (match src with | .host => 0 | .sideband => 2 ^ 62) + kind * 2 ^ 60 + off % 2 ^ 26)) s

/-- A write or read refused by a rule. -/
def refuse (src : Src) (off : Nat) (s : State) : State := badAccess src 3 off s

/-- Reply to a register read: on the host link at once; over the sideband the value waits for the private read that
follows (R483). -/
def reply (src : Src) (v : Word) (s : State) : State :=
  match src with
  | .host => emit (.mmio v) s
  | .sideband => { s with mgt := { s.mgt with data := leBytes 8 v.toNat } }

/-! ## Timing choices (R378) -/

/-- Count one timing choice of a context. -/
def tcc (c kind : Nat) (s : State) : State :=
  let s := bump (Reg.DET_TCC c) s
  if bitF Fld.DET_TCC_FIRST_VALID (rd (Reg.DET_TCC_FIRST c) s) then s
  else
    let step := rdF Reg.BPM_STEP_STATUS Fld.BPM_STEP_STATUS_STEP s
    wr (Reg.DET_TCC_FIRST c) (setF Fld.DET_TCC_FIRST_STEP (setF Fld.DET_TCC_FIRST_KIND (w64 (2 ^ 63)) kind) step) s

/-! ## Context faults (R350, R365, R367) -/

/-- The state of context `c`: 0 STOPPED, 1 RUNNING, 2 TEARING, 3 TORN. -/
def ctxState (c : Nat) (s : State) : Nat := rdF (Reg.CTX_STATUS c) Fld.CTX_STATUS_STATE s

/-- A fault of a context with error code `code` (0 for a software TEARDOWN): a RUNNING context enters
TEARING with its cause and one TORN_DOWN record, and its teardown runs in this step; any other context
does not change. -/
def ctxFault (c code : Nat) (s : State) : State :=
  if ctxState c s = 1 then
    let s := wrF (Reg.CTX_STATUS c) Fld.CTX_STATUS_STATE 2 s
    let s := wrF (Reg.CTX_STATUS c) Fld.CTX_STATUS_CAUSE code s
    let s := bump (Reg.CTX_TEARDOWNS c) s
    let s := log 0x0701 kContext c (some c) [w64 code] s
    defer (.teardown c) s
  else s

/-! ## Semaphores (R359 to R361) -/

/-- The entry of semaphore `n`. -/
def semEntry (n : Nat) (s : State) : Word := tb (Tab.SEM n) s
/-- The VALUE of semaphore `n`. -/
def semValue (n : Nat) (s : State) : Nat := getF Fld.SEM_VALUE (semEntry n s)
/-- Whether semaphore `n` is a lock. -/
def semLock (n : Nat) (s : State) : Bool := bitF Fld.SEM_LOCK (semEntry n s)
/-- The OWNER of semaphore `n`. -/
def semOwner (n : Nat) (s : State) : Nat := getF Fld.SEM_OWNER (semEntry n s)

/-- Whether context `c` may use semaphore `n` (R360). -/
def semMayUse (c n : Nat) (s : State) : Bool :=
  semOwner n s == c || (bitF Fld.SEM_PEER_EN (semEntry n s) && getF Fld.SEM_PEER (semEntry n s) == c)

/-- Add to VALUE with saturation at 65,535; `errCtx` counts a saturated signal (R360). -/
def semAdd (n num errCtx : Nat) (s : State) : State :=
  let v := semValue n s + num
  let s := tbWF (Tab.SEM n) Fld.SEM_VALUE (min v 65535) s
  let s := if v > 65535 then bump (Reg.CTX_SEM_ERRORS errCtx) s else s
  defer (.semCheck n) s

/-- A signal from the tier manager, the Dovetail or the collective engine (R360). -/
def semHw (n num : Nat) (s : State) : State :=
  if semLock n s then bump (Reg.CTX_SEM_ERRORS (semOwner n s)) s
  else semAdd n num (semOwner n s) s

/-- Release a lock: VALUE 1, HELD 0, and the deferral of its holder on it ends (R361, R363). -/
def lockRelease (n : Nat) (s : State) : State :=
  let s := tbW (Tab.SEM n) (setF Fld.SEM_HELD (setF Fld.SEM_VALUE (semEntry n s) 1) 0) s
  let s := { s with ctxs := { s.ctxs with deferrals := s.ctxs.deferrals.filter (fun d => d.lock != n) } }
  defer (.semCheck n) s

/-- The effective priority number of a context (R357, R362). -/
def effPrio (c : Nat) (s : State) : Nat :=
  (s.ctxs.deferrals.filter (fun d => d.holder == c)).foldl (fun p d => min p d.prio)
    (rdF (Reg.CTX_CTL c) Fld.CTX_CTL_PRIORITY s)

/-! ## How a meaning answers -/

/-- Stop with `f` unless `p` holds. -/
def check (p : Bool) (f : Fault) (k : Host.Outcome State Fault Refusal) : Host.Outcome State Fault Refusal :=
  if p then k else .fault f

end Sys2Proof.Machine
end

