-- ==== Sys2Proof/Machine/Tiles.lean ====
section
/-!
DEFINITION. Tiles, tags, checks and Ruril (spec/03_bench_memory_and_tiles.md, spec/04_ruril_and_tiers.md).
-/
namespace Sys2Proof.Machine

/-! ## Tags (R89) -/

/-- A field of a tag. -/
def tagF (f : Fld) (t : BitVec 128) : Nat := t.toNat / 2 ^ f.lo % 2 ^ f.width
def Fld.TAG_CRC : Fld := ⟨0, 32⟩
def Fld.TAG_FORMAT : Fld := ⟨32, 8⟩
def Fld.TAG_FLAGS : Fld := ⟨40, 8⟩
def Fld.TAG_SIDE : Fld := ⟨48, 8⟩
def Fld.TAG_CBDIST : Fld := ⟨56, 8⟩
def Fld.TAG_OBJECT : Fld := ⟨64, 40⟩
def Fld.TAG_INDEX : Fld := ⟨104, 24⟩
def Fld.TAG_ORIGIN : Fld := ⟨64, 64⟩

/-- A tag from its parts: CRC, FORMAT, FLAGS, byte 6, byte 7, ORIGIN. -/
def mkTag (crc fmt flags side cbdist origin : Nat) : BitVec 128 :=
  BitVec.ofNat 128 (crc % 2 ^ 32 + fmt % 256 * 2 ^ 32 + flags % 256 * 2 ^ 40 + side % 256 * 2 ^ 48 +
    cbdist % 256 * 2 ^ 56 + origin % 2 ^ 64 * 2 ^ 64)

/-- CRC-32C of 4,096 zero bytes. -/
def zeroCrc : Nat := 0x98F94189

/-- The tag of a tile that reset has written (R87): the CRC of an all-zero payload, the rest 0. -/
def blankTag : BitVec 128 := BitVec.ofNat 128 zeroCrc

/-- A tile as reset leaves it. -/
def Tile.blank : Tile := ⟨blankTag, List.replicate 4096 0⟩

/-! ## Bench SRAM -/

/-- The key of tile `t` of bench `b`. -/
def btKey (b t : Nat) : Nat := b * 384 + t

/-- Tile `t` of bench `b`. -/
def benchTile (b t : Nat) (s : State) : Tile :=
  ⟨smGet (fun _ => blankTag) s.stags (btKey b t), memRead s.sram (btKey b t * 4096) 4096⟩

/-- The tag of tile `t` of bench `b`. -/
def benchTag (b t : Nat) (s : State) : BitVec 128 := smGet (fun _ => blankTag) s.stags (btKey b t)

/-- Write a whole tile into bench SRAM: payload and tag. The tile is no longer BAD (R86), may be re-fetched
again (R96), and converters read it again as a companion (R71). -/
def setBenchTile (b t : Nat) (x : Tile) (s : State) : State :=
  let s := { s with
    sram := memWrite s.sram (btKey b t * 4096) (subBytes x.payload 0 4096)
    stags := smPut (fun _ => blankTag) s.stags (btKey b t) x.tag
    sbad := s.sbad.filter (· != btKey b t) }
  let y := benchOf b s
  let drop := fun (z : Side) => { z with cbs := z.cbs.filter (fun p => p.2 != t) }
  setBench b { y with refetched := y.refetched.filter (· != t), side0 := drop y.side0, side1 := drop y.side1 } s

/-! ## Ruril -/

/-- Highest Ruril tile number (R112). -/
def rtnMax : Nat := 0xBFFFFFF

/-- Ruril tile `n` with its tag. -/
def rurilTile (n : Nat) (s : State) : Tile :=
  ⟨smGet (fun _ => blankTag) s.rtags n, memRead s.ruril (n * 4096) 4096⟩

/-- Write a whole tile into Ruril: its bursts carry fresh codes. -/
def setRurilTile (n : Nat) (x : Tile) (s : State) : State :=
  { s with
    ruril := memWrite s.ruril (n * 4096) (subBytes x.payload 0 4096)
    rtags := smPut (fun _ => blankTag) s.rtags n x.tag
    rbad := s.rbad.filter (· != n) }

/-- The 64-bit word at byte `a` of Ruril. -/
def rurilWord (a : Nat) (s : State) : Nat := leNat (memRead s.ruril a 8)

/-- Write bytes into Ruril. -/
def setRurilBytes (a : Nat) (bs : List Byte) (s : State) : State := { s with ruril := memWrite s.ruril a bs }

/-- Mark every burst of a Ruril tile uncorrectable (R132). -/
def setRurilBad (n : Nat) (s : State) : State :=
  { s with rbad := if s.rbad.contains n then s.rbad else s.rbad ++ [n] }

/-- The stack of a Ruril tile (R112). -/
def stackOf (n : Nat) : Nat := n % 8

/-! ## Objects (R119 to R121) -/

/-- The key of word `w` of object descriptor `o`. -/
def objKey (o w : Nat) : Nat := Tab.OBJ (o * 8 + w)

/-- A field of word `w` of object descriptor `o`. -/
def objF (o w : Nat) (f : Fld) (s : State) : Nat := tbF (objKey o w) f s

/-- Store a field of word `w` of object descriptor `o`. -/
def objW (o w : Nat) (f : Fld) (x : Nat) (s : State) : State := tbWF (objKey o w) f x s

/-- The valid descriptors, ascending. -/
def validObjs (s : State) : List Nat :=
  ((tabKeys (Tab.OBJ 0) (Tab.OBJ (65536 * 8)) s).filter (fun k =>
    (k - Tab.OBJ 0) % 8 == 0 && bitF Fld.OBJ0_VALID (tb k s))).map (fun k => (k - Tab.OBJ 0) / 8)

/-- The descriptor of an object ID. -/
def objFind (id : Nat) (s : State) : Option Nat :=
  if id = 0 then none else (validObjs s).find? (fun o => objF o 0 Fld.OBJ0_OBJECT s == id)

/-- Object states of R120. -/
def osRuril : Nat := 0
def osPromoting : Nat := 1
def osBoth : Nat := 2
def osDirty : Nat := 3
def osEvicting : Nat := 4
def osPoisoned : Nat := 5

/-- STATE of an object. -/
def objState (o : Nat) (s : State) : Nat := objF o 0 Fld.OBJ0_STATE s
/-- SRAM of an object: 0 NONE, 1 LANDING, 2 FULL. -/
def objSram (o : Nat) (s : State) : Nat := objF o 0 Fld.OBJ0_SRAM s

/-- Where the bench copy of object tile `i` lies (R121): bench and bench tile. -/
def objPlace (o i : Nat) (s : State) : Nat × Nat :=
  let bc := objF o 2 Fld.OBJ2_BCOUNT s
  (objF o 2 Fld.OBJ2_BFIRST s + i % bc, objF o 2 Fld.OBJ2_TFIRST s + i / bc)

/-- The tile index of an object that a bench tile holds, if it lies in the object's placement. -/
def objTileAt (o b t : Nat) (s : State) : Option Nat :=
  let bf := objF o 2 Fld.OBJ2_BFIRST s
  let bc := objF o 2 Fld.OBJ2_BCOUNT s
  let tf := objF o 2 Fld.OBJ2_TFIRST s
  if bf ≤ b ∧ b < bf + bc ∧ tf ≤ t then
    let i := (t - tf) * bc + (b - bf)
    if i < objF o 1 Fld.OBJ1_LEN s then some i else none
  else none

/-- The object and tile index that a bench tile is mapped to (R131): a placement whose SRAM is LANDING or
FULL. -/
def mapOf (b t : Nat) (s : State) : Option (Nat × Nat) :=
  (validObjs s).findSome? (fun o =>
    if objSram o s = 0 then none else (objTileAt o b t s).map (fun i => (o, i)))

/-- The key of a dirty bit. -/
def dirtyKey (o i : Nat) : Nat := o * 2 ^ 24 + i
/-- Whether a dirty bit is set. -/
def isDirty (o i : Nat) (s : State) : Bool := s.tier.dirty.contains (dirtyKey o i)
/-- The tiles of an object whose dirty bit is set, ascending. -/
def dirtyTiles (o : Nat) (s : State) : List Nat :=
  ((s.tier.dirty.filter (fun k => k / 2 ^ 24 == o)).map (fun k => k % 2 ^ 24)).mergeSort (· ≤ ·)
/-- Clear the dirty bits of the tiles of `o` that `p` selects. -/
def clearDirty (o : Nat) (p : Nat → Bool) (s : State) : State :=
  { s with tier := { s.tier with dirty := s.tier.dirty.filter (fun k => !(k / 2 ^ 24 == o && p (k % 2 ^ 24))) } }

/-- The Ruril tile's object and tile index, if a valid object holds it (R121). -/
def objOfRtn (n : Nat) (s : State) : Option (Nat × Nat) :=
  (validObjs s).findSome? (fun o =>
    let r := objF o 1 Fld.OBJ1_RBASE s
    if r ≤ n ∧ n < r + objF o 1 Fld.OBJ1_LEN s then some (o, n - r) else none)

/-! ## Writes by agents other than the tier manager (R131, R132) -/

/-- Keep, for each write-back of object tile `i` whose first slot has passed, the tile as that slot found it. -/
def saveBacks (o i : Nat) (x : Tile) (s : State) : State :=
  { s with tier := { s.tier with xfers := s.tier.xfers.map (fun t =>
      if t.obj == o && t.tile == i && (t.kind == .evict || t.kind == .flush) && t.first ≤ s.cycle &&
        t.saved.isNone then { t with saved := some x } else t) } }

/-- Whether a write into tile `i` of an EVICTING object comes too late for its write-back (R132). -/
def lateWrite (o i : Nat) (s : State) : Bool :=
  s.tier.backs.all (fun w => w.obj != o || w.flush || !w.tiles.contains i) ||
    s.tier.xfers.all (fun x => !(x.obj == o && x.tile == i && x.kind == .evict && s.cycle < x.first))

/-- What a payload write into a mapped bench tile does to its object (R131, R132). -/
def markWritten (b t : Nat) (s : State) : State :=
  match mapOf b t s with
  | none => s
  | some (o, i) =>
    let st := objState o s
    if st = osEvicting then
      if lateWrite o i s then
        log 0x0506 kObject o (some (objF o 0 Fld.OBJ0_OWNER s)) [w64 i] (bump Reg.TIR_LATE_WRITE s)
      else s
    else
      let s := if isDirty o i s then s
        else { s with tier := { s.tier with dirty := s.tier.dirty ++ [dirtyKey o i] } }
      if st = osBoth then objW o 0 Fld.OBJ0_STATE osDirty s else s

/-- A tile that lands in bench SRAM from STORE, SAND, MOVE.T, RECV, the Dovetail or a fabric engine. -/
def landTile (b t : Nat) (x : Tile) (s : State) : State :=
  let s := match mapOf b t s with
    | some (o, i) => saveBacks o i (benchTile b t s) s
    | none => s
  markWritten b t (setBenchTile b t x s)

/-! ## Uses and their checks (R86, R92, R94 to R97) -/

/-- How a use of a tile ended: it passes, its re-fetch runs, it is a context fault, or its FORMAT is
undefined. -/
inductive UseRes where
  | pass
  | refetch
  | fault
  | badFormat
  deriving DecidableEq, Repr

/-- Count the words and tags that a read by an instruction of bench `b` corrects (R86). -/
def eccCount (b : Nat) (e : Ecc) (s : State) : State :=
  if e.corrected = 0 then s else bumpBy e.corrected (Reg.BEN_SRAM_ECC_CORR b) s

/-- Mark tile `t` of bench `b` BAD where its read met an uncorrectable error (R86). -/
def eccBad (b t : Nat) (e : Ecc) (s : State) : State :=
  if e.bad.contains t && !s.sbad.contains (btKey b t) then { s with sbad := s.sbad ++ [btKey b t] } else s

/-- Whether the checksum checks of a use pass: not BAD, and tag CRC equal to the live check (R92). -/
def checkOk (b t : Nat) (s : State) : Bool :=
  !s.sbad.contains (btKey b t) &&
    tagF Fld.TAG_CRC (benchTag b t s) == crc32c (benchTile b t s).payload

/-- Record a checksum failure (R97). -/
def countFail (b t unit : Nat) (s : State) : State :=
  let s := bump (Reg.BEN_TILE_CHECK_FAIL b) s
  if bitF Fld.BEN_CHECK_FIRST_VALID (rd (Reg.BEN_CHECK_FIRST b) s) then s
  else
    let w := setF Fld.BEN_CHECK_FIRST_UNIT (w64 (2 ^ 63)) unit
    let w := setF Fld.BEN_CHECK_FIRST_TILE w t
    wr (Reg.BEN_CHECK_FIRST b) (setF Fld.BEN_CHECK_FIRST_OBJECT w (tagF Fld.TAG_OBJECT (benchTag b t s))) s

/-- Set OUTCOME of BEN_CHECK_FIRST where it records tile `t` and reads PENDING (R97). -/
def setOutcome (b t o : Nat) (s : State) : State :=
  let w := rd (Reg.BEN_CHECK_FIRST b) s
  if bitF Fld.BEN_CHECK_FIRST_VALID w && getF Fld.BEN_CHECK_FIRST_OUTCOME w == 0 &&
      getF Fld.BEN_CHECK_FIRST_TILE w == t then
    wr (Reg.BEN_CHECK_FIRST b) (setF Fld.BEN_CHECK_FIRST_OUTCOME w o) s
  else s

/-- Whether the failed tile may be re-fetched (R95): a promoted copy with its dirty bit 0, not re-fetched
since it was last written. -/
def refetchable (b t : Nat) (s : State) : Bool :=
  tagF Fld.TAG_OBJECT (benchTag b t s) != 0 && !(benchOf b s).refetched.contains t &&
  (match mapOf b t s with
   | some (o, i) => !isDirty o i s &&
     !s.tier.xfers.any (fun x => x.obj == o && x.tile == i && x.kind == .promote)
   | none => false)

/-! ## Elements of tiles -/

/-- Where the side list of a CB256 tile starts and how many entries it has (R73). -/
def sideEntry (x : Tile) (k : Nat) : FVal :=
  let side := tagF Fld.TAG_SIDE x.tag
  if side = 0 then .nan
  else if side * 16 + 2 * k + 1 < 4096 then decodeF bf16 (leAt x.payload (side * 16 + 2 * k) 2) else .nan

/-- Walk the codes of a CB256 tile, giving each escape its entry of the side list (R73). -/
def cb256Walk (x : Tile) (book : List FVal) : Nat → List Byte → List FVal
  | _, [] => []
  | k, c :: cs =>
    if c.toNat = 255 then sideEntry x k :: cb256Walk x book (k + 1) cs
    else book.getD c.toNat .nan :: cb256Walk x book k cs

/-- Walk the blocks of a block-scaled tile; `off` is the byte of the next stored block (R66). -/
def bsWalk (lay : FFmt) (p : List Byte) : Nat → List Byte → List FVal
  | _, [] => []
  | off, c :: cs =>
    if c.toNat = 0 then List.replicate 32 (.fin false 0 0) ++ bsWalk lay p off cs
    else (subBytes p off 32).map (fun e => bsValue lay c.toNat e.toNat) ++ bsWalk lay p (off + 32) cs

/-- Group a byte list into little-endian numbers of `n` bytes. -/
def groupLe (n : Nat) : Nat → List Byte → List Nat
  | 0, _ => []
  | k + 1, bs => leNat (bs.take n) :: groupLe n k (bs.drop n)

/-- The element values of a tile in a format, `book` being the codebook of a codebook format (R60 to R73). -/
def tileVals (fmt : Nat) (x : Tile) (book : List FVal) : List FVal :=
  if fmt = fmtFP32 then (groupLe 4 1024 x.payload).map (decodeF fp32)
  else if fmt = fmtBF16 then (groupLe 2 2048 x.payload).map (decodeF bf16)
  else if fmt = fmtFP16 then (groupLe 2 2048 x.payload).map (decodeF fp16)
  else if fmt = fmtCB16 then
    (x.payload.map (fun b => [book.getD (b.toNat % 16) .nan, book.getD (b.toNat / 16) .nan])).flatten
  else if fmt = fmtCB256 then
    cb256Walk x book 0 (x.payload.take (tileElems fmtCB256 (tagF Fld.TAG_SIDE x.tag)))
  else if fmt = fmtBSE4M3 ∨ fmt = fmtBSE5M2 then bsWalk (layoutOf fmt) x.payload 128 (x.payload.take 124)
  else x.payload.map (fun b => decodeF (layoutOf fmt) b.toNat)

/-- Elements that tile `t` of bench `b` holds in its own format (R64). -/
def elemsOf (fmt : Nat) (tag : BitVec 128) : Nat := tileElems fmt (tagF Fld.TAG_SIDE tag)

/-- The companion of tile `t` (R70): none where it would lie before tile 0. -/
def companion (t : Nat) (tag : BitVec 128) : Option Nat :=
  let d := tagF Fld.TAG_CBDIST tag + 1
  if d ≤ t then some (t - d) else none

/-- Whether a format is a codebook format. -/
def isCb (fmt : Nat) : Bool := fmt == fmtCB16 || fmt == fmtCB256

/-! ## Encoding into a tile (R48, R66 to R69, R74, R80) -/

/-- The result of encoding values into a destination tile: payload, byte 5 flags, byte 6, the flags of each
element, flushed elements and lost escapes. -/
structure TileEnc where
  payload : List Byte
  flags : Nat
  side : Nat
  each : List Nat
  flushed : Nat
  lost : Nat
  deriving DecidableEq, Repr

/-- Pad a byte list with zeros to 4,096 bytes. -/
def padTile (bs : List Byte) : List Byte := bs ++ List.replicate (4096 - bs.length) 0

/-- The OR of a list of flags. -/
def orAll (l : List Nat) : Nat := l.foldl (· ||| ·) 0

/-- Encode one value of a codebook format where no escape is taken: code and flags (R74). `free` is the
free code for a value to which the spec gives none. -/
def cbEncode (fmt : Nat) (book : List FVal) (free : Nat) (x : FVal) : Nat × Nat :=
  match x with
  | .nan =>
    if fmt = fmtCB16 then
      (match (book.zipIdx).find? (fun p => isNan p.1) with
       | some p => (p.2, 0)
       | none => (0, flInvalid))
    else (free, 0)
  | .inf n =>
    if fmt = fmtCB16 then ((largestCode book (some n)).getD free, flOverflow + flInexact)
    else (free, flInexact)
  | .fin n m e =>
    let v : FVal := .fin n m e
    match nearestCode book v with
    | none => (free, flInexact)
    | some c =>
      let entry := book.getD c .nan
      let big := match largestCode book none with
        | some l => ltF (absF (book.getD l .nan)) (absF v)
        | none => false
      if fmt = fmtCB16 && big then (c, flOverflow + flInexact)
      else (c, if isZeroF (distF v entry) then 0 else flInexact)

/-- Whether a value is encoded as a CB256 escape (R74). -/
def cbEscapes (book : List FVal) (x : FVal) : Bool :=
  match x with
  | .nan => true
  | .inf _ => true
  | v =>
    let r := decodeF bf16 (encodeF bf16 v).1
    match largestCode book none with
    | some l => ltF (absF (book.getD l .nan)) (absF r)
    | none => true

/-- Encode values as CB256: codes, side-list values, flags, lost escapes; `room` is the room left in the
side list (R74). -/
def cb256Enc (book : List FVal) (free room : Nat) : List FVal → List Nat × List Nat × List Nat × Nat
  | [] => ([], [], [], 0)
  | x :: xs =>
    if cbEscapes book x then
      if room = 0 then
        let c := cbEncode fmtCB256 book free x
        let r := cb256Enc book free 0 xs
        (c.1 :: r.1, r.2.1, (c.2 ||| flEscLost) :: r.2.2.1, r.2.2.2 + 1)
      else
        let v := encodeF bf16 x
        let r := cb256Enc book free (room - 1) xs
        (255 :: r.1, v.1 :: r.2.1, v.2 :: r.2.2.1, r.2.2.2)
    else
      let c := cbEncode fmtCB256 book free x
      let r := cb256Enc book free room xs
      (c.1 :: r.1, r.2.1, c.2 :: r.2.2.1, r.2.2.2)

/-- Pack 4-bit codes two to a byte, the even one low (R72). -/
def packNibbles : List Nat → List Byte
  | [] => []
  | [a] => [BitVec.ofNat 8 (a % 16)]
  | a :: b :: r => BitVec.ofNat 8 (a % 16 + b % 16 * 16) :: packNibbles r

/-- Cut a list into `k` blocks of 32, padding with +0. -/
def blocks32 : Nat → List FVal → List (List FVal)
  | 0, _ => []
  | k + 1, l => ((l.take 32) ++ List.replicate (32 - (l.take 32).length) (.fin false 0 0)) :: blocks32 k (l.drop 32)

/-- Encode values from element 0 of a tile in format `fmt`, +0 beyond them. -/
def encodeTile (fmt free : Nat) (book : List FVal) (xs : List FVal) : TileEnc :=
  if fmt = fmtBSE4M3 ∨ fmt = fmtBSE5M2 then
    let bl := (blocks32 124 xs).map (encodeBlock (layoutOf fmt))
    let p := bl.map (fun b => BitVec.ofNat 8 b.scale) ++ List.replicate 4 0 ++
      (bl.map (fun b => b.elems.map (BitVec.ofNat 8))).flatten
    let each := (bl.map (·.flags)).flatten
    ⟨padTile p, orAll each, 0, each, (bl.map (·.flushed)).foldl (· + ·) 0, 0⟩
  else if fmt = fmtCB16 then
    let c := xs.map (cbEncode fmtCB16 book free)
    let pad := List.replicate (8192 - xs.length) ((cbEncode fmtCB16 book free (.fin false 0 0)).1)
    ⟨padTile (packNibbles (c.map (·.1) ++ pad)), orAll (c.map (·.2)), 0, c.map (·.2), 0, 0⟩
  else if fmt = fmtCB256 then
    let side := if xs.length ≥ 4096 then 0 else xs.length / 16
    let room := if side = 0 then 0 else (4096 - 16 * side) / 2
    let r := cb256Enc book free room (xs.take 4096)
    let p := r.1.map (BitVec.ofNat 8) ++ (r.2.1.map (leBytes 2)).flatten
    ⟨padTile p, orAll r.2.2.1, side, r.2.2.1, 0, r.2.2.2⟩
  else
    let n := if fmt = fmtFP32 then 4 else if fmt = fmtBF16 ∨ fmt = fmtFP16 then 2 else 1
    let c := xs.map (encodeF (layoutOf fmt))
    ⟨padTile ((c.map (fun p => leBytes n p.1)).flatten), orAll (c.map (·.2)), 0, c.map (·.2), 0, 0⟩

/-! ## The Mitre (R98) -/

/-- Elements of the payload as fixed-size groups: bytes, byte pairs, byte quads or nibbles. -/
def mitreElems (fmt : Nat) (p : List Byte) : List Nat :=
  if fmt = fmtFP32 then groupLe 4 1024 p
  else if fmt = fmtBF16 ∨ fmt = fmtFP16 then groupLe 2 2048 p
  else if fmt = fmtCB16 then (p.map (fun b => [b.toNat % 16, b.toNat / 16])).flatten
  else p.map (·.toNat)

/-- Whether the Mitre takes a format (R99). -/
def mitreTakes (fmt : Nat) : Bool :=
  [fmtFP32, fmtBF16, fmtFP16, fmtE4M3, fmtE5M2, fmtCB16].contains fmt

/-- Transpose the consecutive `b` by `b` blocks of a payload (R98). -/
def mitrePayload (mode fmt : Nat) (p : List Byte) : List Byte :=
  let b := if mode = 1 then 8 else 32
  let es := (mitreElems fmt p).toArray
  let out := (upto es.size).map (fun j =>
    let k := j % (b * b)
    es.getD (j / (b * b) * (b * b) + k % b * b + k / b) 0)
  if fmt = fmtFP32 then (out.map (leBytes 4)).flatten
  else if fmt = fmtBF16 ∨ fmt = fmtFP16 then (out.map (leBytes 2)).flatten
  else if fmt = fmtCB16 then packNibbles out
  else out.map (BitVec.ofNat 8)

/-- A tile passed through the Mitre: transposed payload, CRC recomputed, the other tag bytes copied (R93). -/
def mitreTile (mode : Nat) (x : Tile) : Tile :=
  let p := mitrePayload mode (tagF Fld.TAG_FORMAT x.tag) x.payload
  ⟨BitVec.ofNat 128 (x.tag.toNat / 2 ^ 32 * 2 ^ 32 + crc32c p), p⟩

end Sys2Proof.Machine
end

