-- ==== Sys2Proof/Machine/Rings.lean ====
section
/-!
DEFINITION. Completion rings, their overflow queues and the ring interrupts (spec/16_host_cxl.md).
-/
namespace Sys2Proof.Machine

/-- Whether the host link is in L0. -/
def linkUp (s : State) : Bool := bitF Fld.GLB_HIF_LINK_UP (rd Reg.GLB_HIF_LINK s)

/-! ## Completion rings (R453 to R455) -/

/-- Records that completion ring `r` holds. -/
def crSize (r : Nat) (s : State) : Nat := 2 ^ rdF (Reg.GLB_HIF_CR_CFG r) Fld.GLB_HIF_CR_CFG_LOG2SIZE s
/-- TAIL of completion ring `r`. -/
def crTail (r : Nat) (s : State) : Nat := rdF (Reg.GLB_HIF_CR_STATE r) Fld.GLB_HIF_CR_STATE_TAIL s
/-- HEAD of completion ring `r`. -/
def crHeadOf (r : Nat) (s : State) : Nat := rdF (Reg.GLB_HIF_CR_STATE r) Fld.GLB_HIF_CR_STATE_HEAD s
/-- Records in the overflow queue of context `r`. -/
def crQueued (r : Nat) (s : State) : Nat := rdF (Reg.GLB_HIF_CR_STATE r) Fld.GLB_HIF_CR_STATE_QUEUED s

/-- Whether a record can be written to ring `r` now: enabled, not full, and the link up (R455, R460). -/
def crReady (r : Nat) (s : State) : Bool :=
  bitF Fld.GLB_HIF_CR_CFG_ENABLE (rd (Reg.GLB_HIF_CR_CFG r) s) && linkUp s &&
    (crTail r s + 1) % crSize r s != crHeadOf r s

/-- Signal ring `r`: a message, unless one went out within COAL_US, after which it waits for the end of that
time (R456). -/
def crSignal (r : Nat) (s : State) : State :=
  if s.cycle < smGet (fun _ => 0) s.host.coalEnd r then
    if s.host.coalPend.contains r then s
    else { s with host := { s.host with coalPend := s.host.coalPend ++ [r] } }
  else
    let us := rdF (Reg.GLB_HIF_CR_CFG r) Fld.GLB_HIF_CR_CFG_COAL_US s
    msixRaise r { s with host := { s.host with
      coalEnd := smPut (fun _ => 0) s.host.coalEnd r (s.cycle + usCycles us) } }

/-- Write one record, given as its words 0 to 6, at TAIL of ring `r` with the current PHASE (R454). -/
def crPut (r : Nat) (bytes : List Byte) (s : State) : State :=
  let st := Reg.GLB_HIF_CR_STATE r
  let tail := crTail r s
  let phase := rdF st Fld.GLB_HIF_CR_STATE_PHASE s
  let addr := rdF (Reg.GLB_HIF_CR_BASE r) Fld.GLB_HIF_CR_BASE_ADDR s * 64 + tail * 64
  let s := emit (.hostWrite addr (bytes.take 56 ++ leBytes 8 (phase * 2 ^ 63))) s
  let next := (tail + 1) % crSize r s
  let s := wrF st Fld.GLB_HIF_CR_STATE_TAIL next s
  let s := if next = 0 then wrF st Fld.GLB_HIF_CR_STATE_PHASE (1 - phase) s else s
  if bitF Fld.GLB_HIF_CR_CFG_IEN (rd (Reg.GLB_HIF_CR_CFG r) s) then crSignal r s else s

/-- Tiles of the overflow region that each context takes (R455). -/
def ovfTiles (s : State) : Nat := rdF Reg.GLB_HIF_OVF Fld.GLB_HIF_OVF_LEN s / 16

/-- Byte address in Ruril of record `k` of context `c`'s overflow queue. -/
def ovfAddr (c k : Nat) (s : State) : Nat :=
  (rdF Reg.GLB_HIF_OVF Fld.GLB_HIF_OVF_BASE s + c * ovfTiles s) * 4096 +
    (smGet (fun _ => 0) s.host.ovfHead c + k) % (64 * ovfTiles s) * 64

/-- Append a record to context `c`'s overflow queue, or discard it where that is full (R455). -/
def ovfPut (c : Nat) (bytes : List Byte) (s : State) : State :=
  let n := crQueued c s
  if n < 64 * ovfTiles s then
    wrF (Reg.GLB_HIF_CR_STATE c) Fld.GLB_HIF_CR_STATE_QUEUED (n + 1) (setRurilBytes (ovfAddr c n s) bytes s)
  else
    log 0x010A kContext c (some c) [w64 (leAt bytes 0 8)] (bump Reg.GLB_HIF_CQ_LOST s)

/-- Write queued records to the ring, oldest first, while it takes them. -/
def crDrain (c : Nat) : Nat → State → State
  | 0, s => s
  | n + 1, s =>
    if crQueued c s != 0 && crReady c s then
      let bytes := memRead s.ruril (ovfAddr c 0 s) 64
      let head := (smGet (fun _ => 0) s.host.ovfHead c + 1) % (64 * ovfTiles s)
      let s := wrF (Reg.GLB_HIF_CR_STATE c) Fld.GLB_HIF_CR_STATE_QUEUED (crQueued c s - 1) s
      let s := { s with host := { s.host with ovfHead := smPut (fun _ => 0) s.host.ovfHead c head } }
      crDrain c n (crPut c bytes s)
    else s

/-- Drain the overflow queue of context `c` as far as its ring takes it. -/
def crDrainAll (c : Nat) (s : State) : State := crDrain c (crQueued c s) s

/-- Post a status of R158 for context `c` (R453). -/
def post (c status slot cookie pos pages : Nat) (s : State) : State :=
  let w0 := status * 2 ^ 60 + c % 16 * 2 ^ 56 + slot % 2 ^ 18
  let w2 := rdF Reg.BPM_STEP_STATUS Fld.BPM_STEP_STATUS_STEP s * 2 ^ 32 + pos % 2 ^ 32
  let bytes := leBytes 8 w0 ++ leBytes 8 cookie ++ leBytes 8 w2 ++ leBytes 8 pages ++ List.replicate 32 0
  if crQueued c s = 0 ∧ crReady c s = true then crPut c bytes s else ovfPut c bytes s

/-- Post a status for a join that holds no slot. -/
def postJoin (j : Join) (status : Nat) (s : State) : State := post j.ctx status 0x3FFFF j.cookie 0 0 s

/-- A write of GLB_HIF_CR_CFG (R454): with ENABLE = 1 it restarts the ring, and queued records follow. -/
def crCfgWrite (r : Nat) (v : Word) (s : State) : State :=
  let cfg := Reg.GLB_HIF_CR_CFG r
  let s := wr cfg (v &&& ~~~(maskF ⟨48, 14⟩) &&& ~~~(maskF ⟨5, 27⟩)) s
  if bitF Fld.GLB_HIF_CR_CFG_ENABLE v then
    let st := Reg.GLB_HIF_CR_STATE r
    let s := wrF st Fld.GLB_HIF_CR_STATE_HEAD 0 (wrF st Fld.GLB_HIF_CR_STATE_TAIL 0 s)
    crDrainAll r (wrF st Fld.GLB_HIF_CR_STATE_PHASE 1 s)
  else s

/-- A write of the completion doorbell of ring `r` (R454). -/
def crHeadWrite (r : Nat) (v : Word) (s : State) : State :=
  let h := getF Fld.CR_HEAD_HEAD v
  let n := crSize r s
  let old := crHeadOf r s
  if h < n ∧ (h + n - old) % n ≤ (crTail r s + n - old) % n then
    crDrainAll r (wrF (Reg.GLB_HIF_CR_STATE r) Fld.GLB_HIF_CR_STATE_HEAD h s)
  else bump Reg.GLB_HIF_BAD_DB s

/-- The end of COAL_US after a message of ring `r`: records written meanwhile are signalled (R456). -/
def coalExpire (r : Nat) (s : State) : State :=
  if s.host.coalPend.contains r then
    let s := advanceTo (smGet (fun _ => 0) s.host.coalEnd r) s
    crSignal r { s with host := { s.host with coalPend := s.host.coalPend.filter (· != r) } }
  else s

end Sys2Proof.Machine
end

