-- ==== Sys2Proof/Machine/Tier.lean ====
section
/-!
DEFINITION. The reservation calendar and the tier manager (spec/04_ruril_and_tiers.md).
-/
namespace Sys2Proof.Machine

/-! ## System slots of a bench port (R107, R127) -/

/-- The system slots of bench `b`'s port. -/
def sysMask (b : Nat) (s : State) : Nat := rdF (Reg.BEN_FLOOR_SYS b) Fld.BEN_FLOOR_SYS_SYS s

/-- The first cycle at or after `c` whose slot is in `mask`; `c` itself where the mask is empty. -/
def slotFrom (mask c : Nat) : Nat :=
  match (upto 16).find? (fun k => bitAt mask ((c + k) % 16)) with
  | some k => c + k
  | none => c

/-- The first `n` slots of `mask` at or after `c`. -/
def slotsFrom (mask : Nat) : Nat → Nat → List Nat
  | 0, _ => []
  | n + 1, c => slotFrom mask c :: slotsFrom mask n (slotFrom mask c + 1)

/-- The key of the units that a stack moves in a cycle. -/
def unitKey (stack c : Nat) : Nat := c * 8 + stack

/-- Units of ports 0 to 9 booked in a stack and cycle (R118). -/
def unitsAt (stack c : Nat) (s : State) : Nat := smGet (fun _ => 0) s.tier.units (unitKey stack c)

/-- The first free slot of a bench port in a direction. -/
def portNext (inb : Bool) (b : Nat) (s : State) : Nat :=
  smGet (fun _ => 0) (if inb then s.tier.inNext else s.tier.outNext) b

/-- Book a bench port up to but not including cycle `c` in a direction. -/
def setPortNext (inb : Bool) (b c : Nat) (s : State) : State :=
  { s with tier := if inb then { s.tier with inNext := smPut (fun _ => 0) s.tier.inNext b c }
      else { s.tier with outNext := smPut (fun _ => 0) s.tier.outNext b c } }

/-- Take one unit of a stack in each of the cycles. -/
def takeUnits (stack : Nat) (cs : List Nat) (s : State) : State :=
  { s with tier := { s.tier with units := cs.foldl (fun u c =>
      smPut (fun _ => 0) u (unitKey stack c) (smGet (fun _ => 0) u (unitKey stack c) + 1)) s.tier.units } }

/-- The first start at or after `c` whose sixteen slots find a free unit in the stack (R128); the fuel is the
horizon of R129. -/
def findSlots (mask stack : Nat) (s : State) : Nat → Nat → Option (List Nat)
  | 0, _ => none
  | fuel + 1, c =>
    let cs := slotsFrom mask 16 c
    if cs.all (fun x => unitsAt stack x s < 10) then some cs
    else findSlots mask stack s fuel (slotFrom mask (slotFrom mask c + 1))

/-- The horizon of R129. -/
def horizon : Nat := 1048576

/-- Latency of a tier transfer after its last slot (R127). -/
def tierLatency (o : Nat) (s : State) : Nat := if objF o 0 Fld.OBJ0_MITRE s = 0 then 24 else 32

/-- Book the tiles of object `o` one by one (R128): the completion cycle and the state with the bookings. -/
def bookTiles (kind : XferKind) (o tReady : Nat) : List Nat → Nat → State → Option (Nat × State)
  | [], done, s => some (done, s)
  | i :: is, done, s =>
    let inb := kind == .promote || kind == .refetch
    let (b, t) := objPlace o i s
    let rtn := objF o 1 Fld.OBJ1_RBASE s + i
    let mask := sysMask b s
    if mask = 0 then none
    else
      let c := slotFrom mask (max (portNext inb b s) (max (s.cycle + 40) tReady))
      match findSlots mask (stackOf rtn) s horizon c with
      | none => none
      | some cs =>
        let first := cs.headD c
        let last := cs.getLastD c
        let due := last + tierLatency o s + 1
        let s := takeUnits (stackOf rtn) cs s
        let s := setPortNext inb b (last + 1) s
        let s := { s with tier := { s.tier with
          xfers := s.tier.xfers ++ [⟨kind, o, i, b, t, rtn, first, due, none⟩] } }
        bookTiles kind o tReady is (max done due) s

/-- Book a list of tiles in this cycle: none where the horizon refuses it (R129). -/
def book (kind : XferKind) (o tReady : Nat) (tiles : List Nat) (s : State) : Option (Nat × State) :=
  match bookTiles kind o tReady tiles s.cycle s with
  | none => none
  | some (done, s') => if done > s.cycle + horizon then none else some (done, s')

/-- Book one tile of a bench port for an agent other than the tier manager (R537): the cycle in which a
written tile is valid, or from which the agent holds a tile that it reads. -/
def bookPort (b : Nat) (inb : Bool) (s : State) : Nat × State :=
  let mask := sysMask b s
  let cs := slotsFrom mask 16 (slotFrom mask (max (portNext inb b s) (s.cycle + 2)))
  let last := cs.getLastD s.cycle
  (if inb then last + 25 else last + 1, setPortNext inb b (last + 1) s)

/-! ## Pins -/

/-- The field of context `c`'s pin count in its descriptor word (R120). -/
def pinFld (c : Nat) : Fld := ⟨c % 8 * 8, 8⟩
/-- The pin count of context `c` on object `o`. -/
def pinOf (o c : Nat) (s : State) : Nat := objF o (6 + c / 8) (pinFld c) s
/-- Store a pin count. -/
def setPin (o c n : Nat) (s : State) : State := objW o (6 + c / 8) (pinFld c) n s
/-- Whether some pin count of an object is not 0. -/
def pinned (o : Nat) (s : State) : Bool := tb (objKey o 6) s != 0 || tb (objKey o 7) s != 0

/-! ## Records and misses -/

/-- An error record of the tier manager about object `o` with detail `d`. -/
def tierLog (code o d : Nat) (s : State) : State :=
  log code kObject o (some (objF o 0 Fld.OBJ0_OWNER s)) [w64 d] s

/-- Count a miss of a PROMOTE with CTX = `c` (R134, R378). -/
def countMiss (c : Nat) (s : State) : State :=
  tcc c 3 (bump (Reg.CTX_TIER_MISS c) (bump Reg.TIR_DEADLINE_MISS s))

/-- A miss: counted, and for a Dovetail request handed to the Dovetail with the object's MISS_PATH. -/
def miss (o c : Nat) (dov : Bool) (s : State) : State :=
  let s := countMiss c s
  if dov then defer (.dovMiss o (objF o 0 Fld.OBJ0_MISS_PATH s)) s else s

/-- Signal the semaphore of a request. -/
def signalReq (r : TierReq) (s : State) : State := semHw r.sem r.num s

/-! ## Poisoning and recovery (R136 to R138) -/

/-- SRAM of an object becomes NONE: its tiles are mapped no longer and carry no dirty bit. -/
def dropCopy (o : Nat) (s : State) : State := clearDirty o (fun _ => true) (objW o 0 Fld.OBJ0_SRAM 0 s)

/-- A booked promotion ends before its completion: its tiles are dropped, its requests that did not miss
at acceptance become misses, and only the signals at the booked completion remain (R137, R139). -/
def killPromo (o : Nat) (s : State) : State :=
  match s.tier.promos.find? (fun p => p.obj == o && !p.dead) with
  | none => s
  | some p =>
    let s := { s with tier := { s.tier with
      promos := s.tier.promos.map (fun q => if q.obj == o then { q with dead := true } else q)
      xfers := s.tier.xfers.filter (fun x => !(x.obj == o && x.kind == .promote)) } }
    p.reqs.foldl (fun s r => if r.missed then s else miss o r.ctx r.dov s) s

/-- The recovery of object `o`, if one runs or has failed. -/
def recovOf (o : Nat) (s : State) : Option Recovery := s.tier.recov.find? (fun r => r.obj == o)

/-- Replace the recovery of an object. -/
def setRecov (r : Recovery) (s : State) : State :=
  { s with tier := { s.tier with recov := s.tier.recov.filter (fun x => x.obj != r.obj) ++ [r] } }

/-- Start fetching from a source: the host copy is read over CXL (R138, R447). -/
def askSource (r : Recovery) (s : State) : State :=
  if r.src = 1 then
    r.tiles.foldl (fun s i => emit (.hostRead ((objF r.obj 4 Fld.OBJ4_HOSTADDR s + i) * 4096) 4096) s) s
  else s

/-- No source is left: the object stays POISONED and every held use faults (R138). -/
def recoverFail (r : Recovery) (s : State) : State :=
  let s := setRecov { r with failed := true } s
  let s := tierLog 0x0502 r.obj r.tiles.length s
  defer (.heldFail r.obj) s

/-- Move a recovery on to source `n` or a later one that is registered (R138). -/
def trySource (r : Recovery) (n : Nat) (s : State) : State :=
  if n = 0 ∧ objF r.obj 3 Fld.OBJ3_REP_VALID s = 1 then
    let r := { r with src := 0, since := s.cycle }
    askSource r (setRecov r s)
  else if n ≤ 1 ∧ objF r.obj 4 Fld.OBJ4_HOST_VALID s = 1 then
    let r := { r with src := 1, since := s.cycle }
    askSource r (setRecov r s)
  else recoverFail r s

/-- An uncorrectable error or checksum failure in a read of object tile `i` (R136). -/
def poison (o i : Nat) (s : State) : State :=
  if objState o s = osPoisoned then
    match recovOf o s with
    | some r => if r.tiles.contains i then s else setRecov { r with tiles := r.tiles ++ [i] } s
    | none => s
  else
    let wasLanding := objSram o s = 1
    let s := objW o 0 Fld.OBJ0_STATE osPoisoned s
    let s := if bitF Fld.TIR_POISON_FIRST_VALID (rd Reg.TIR_POISON_FIRST s) then s
      else
        let rtn := objF o 1 Fld.OBJ1_RBASE s + i
        let w := setF Fld.TIR_POISON_FIRST_STACK (w64 (2 ^ 63)) (stackOf rtn)
        wr Reg.TIR_POISON_FIRST (setF Fld.TIR_POISON_FIRST_INDEX (setF Fld.TIR_POISON_FIRST_TILE w i) o) s
    let s := bump Reg.TIR_POISON_EVENTS s
    let s := tierLog 0x0501 o (rd Reg.TIR_POISON_FIRST s).toNat s
    let s := killPromo o s
    let s := if wasLanding then dropCopy o s else s
    trySource ⟨o, [i], 0, s.cycle, false⟩ 0 s

/-- A read of Ruril tile `n` by the tier manager, a fabric engine or the host: corrections and uncorrectable
errors are counted in the stack, and an uncorrectable error poisons the tile (R114). -/
def rurilRead (n : Nat) (e : Ecc) (s : State) : Bool × State :=
  let s := if e.corrected = 0 then s else bumpBy e.corrected (Reg.TIR_ECC_CORR (stackOf n)) s
  if e.bad.contains n || s.rbad.contains n then
    let s := setRurilBad n (bump (Reg.TIR_ECC_UNCORR (stackOf n)) s)
    (false, match objOfRtn n s with
      | some (o, i) => poison o i s
      | none => s)
  else (true, s)

/-! ## Requests (R125, R126, R130) -/

/-- The tiles that object `o`'s placement takes on bench `b`: first tile and number. -/
def placeOn (o b : Nat) (s : State) : Nat × Nat :=
  let bf := objF o 2 Fld.OBJ2_BFIRST s
  let bc := objF o 2 Fld.OBJ2_BCOUNT s
  let len := objF o 1 Fld.OBJ1_LEN s
  if bf ≤ b ∧ b < bf + bc ∧ b - bf < len then
    (objF o 2 Fld.OBJ2_TFIRST s, (len - (b - bf) + bc - 1) / bc)
  else (0, 0)

/-- Whether the placements of two objects share a bench tile. -/
def placesMeet (o p : Nat) (s : State) : Bool :=
  (upto (objF o 2 Fld.OBJ2_BCOUNT s)).any (fun k =>
    let b := objF o 2 Fld.OBJ2_BFIRST s + k
    let x := placeOn o b s
    let y := placeOn p b s
    x.1 < y.1 + y.2 && y.1 < x.1 + x.2)

/-- The other valid objects whose placement meets that of `o`. -/
def neighbours (o : Nat) (s : State) : List Nat :=
  (validObjs s).filter (fun p => p != o && placesMeet o p s)

/-- The completion of the write-back of an EVICTING object, 0 for none. -/
def backDue (o : Nat) (s : State) : Nat :=
  ((s.tier.backs.filter (fun w => w.obj == o && !w.flush)).map (·.due)).foldl max 0

/-- The words of a request as D0 of a record shows the first of them. -/
def reqWord (op c id : Nat) : Nat := op * 2 ^ 60 + c % 16 * 2 ^ 56 + id % 2 ^ 40

/-- Book the dirty tiles of `o` outbound for an eviction or a flush (R128, R129, R130). -/
def writeBack (o : Nat) (flush : Bool) (w0 : Nat) (s : State) : State :=
  let tiles := dirtyTiles o s
  match book (if flush then .flush else .evict) o s.cycle tiles s with
  | none => tierLog 0x0504 o w0 (bump Reg.TIR_BAD_REQ s)
  | some (done, s) =>
    let s := { s with tier := { s.tier with backs := s.tier.backs ++ [⟨o, done, tiles, flush⟩] } }
    if flush then s else objW o 0 Fld.OBJ0_STATE osEvicting s

/-- An EVICT accepted for an object with no pin. -/
def evictNow (o w0 : Nat) (s : State) : State :=
  if objState o s = osBoth then objW o 0 Fld.OBJ0_STATE osRuril (dropCopy o s)
  else if objState o s = osDirty then writeBack o false w0 s
  else s

/-- A pin of `o` has been released: a pending eviction of an object that no pin holds acts now. -/
def pinReleased (o : Nat) (s : State) : State :=
  if !pinned o s && objF o 0 Fld.OBJ0_EVICT_PENDING s == 1 &&
      (objState o s == osBoth || objState o s == osDirty) then
    let s := objW o 0 Fld.OBJ0_EVICT_PENDING 0 s
    evictNow o (reqWord 2 (objF o 0 Fld.OBJ0_OWNER s) (objF o 0 Fld.OBJ0_OBJECT s)) s
  else s

/-- Refuse a request (R126, R129). -/
def refuseReq (code : Nat) (o : Option Nat) (w0 : Nat) (s : State) : State :=
  let s := bump Reg.TIR_BAD_REQ s
  match o with
  | some o => tierLog code o w0 s
  | none => log code kNone 0 none [w64 w0] s

/-- A refused PROMOTE: a miss whose semaphore is signalled in the acceptance cycle (R134). -/
def refusePromote (code : Nat) (o : Option Nat) (w0 : Nat) (r : TierReq) (s : State) : State :=
  let s := refuseReq code o w0 s
  let s := match o with
    | some o => miss o r.ctx r.dov s
    | none => countMiss r.ctx s
  signalReq r s

/-- Take a pin for a request; a Dovetail pin is released at the next boundary (R125). -/
def takePin (o : Nat) (r : TierReq) (s : State) : State :=
  let s := setPin o r.ctx (pinOf o r.ctx s + 1) s
  if r.dov then { s with tier := { s.tier with dovPins := s.tier.dovPins ++ [(o, r.ctx)] } } else s

/-- Whether a completion misses deadline `d` (R134). -/
def lateFor (due d : Nat) (s : State) : Bool :=
  d != 0 && decide (due > (rd Reg.TIR_STEP_START s).toNat + d)

/-- An accepted PROMOTE of a RESIDENT_RURIL object, or of an EVICTING one with no promotion booked; it waits for the write-backs of
EVICTING objects in its place (R133). -/
def promoteBook (o d w0 : Nat) (r : TierReq) (s : State) : State :=
  let own := if objState o s = osEvicting then backDue o s else 0
  let ready := ((neighbours o s).filter (fun p => objState p s == osEvicting)).foldl
    (fun m p => max m (backDue p s)) (max own s.cycle)
  match book .promote o ready (upto (objF o 1 Fld.OBJ1_LEN s)) s with
  | none => refusePromote 0x0504 (some o) w0 r s
  | some (due, s') =>
    let late := lateFor due d s
    if late && objF o 0 Fld.OBJ0_MISS_CANCEL s == 1 then
      signalReq r (miss o r.ctx r.dov (bump Reg.TIR_PROMOTE_COUNT s))
    else
      let s := takePin o r (bump Reg.TIR_PROMOTE_COUNT s')
      let s := { s with tier := { s.tier with promos := s.tier.promos ++ [⟨o, due, [{ r with missed := late }], false⟩] } }
      let s := if objState o s = osRuril then
          objW o 0 Fld.OBJ0_SRAM 1 (objW o 0 Fld.OBJ0_STATE osPromoting s) else s
      if late then miss o r.ctx r.dov s else s

/-- A PROMOTE of descriptor `o` that passes R126 (R130, R134, R137). -/
def promoteObj (o d w0 : Nat) (r : TierReq) (s : State) : State :=
  let st := objState o s
  if st = osPoisoned then
    let s := takePin o r (bump Reg.TIR_PROMOTE_COUNT s)
    signalReq r (miss o r.ctx r.dov (bump Reg.TIR_POISON_MISS s))
  else if st = osBoth ∨ st = osDirty then
    signalReq r (takePin o r (bump Reg.TIR_PROMOTE_COUNT s))
  else
    match s.tier.promos.find? (fun p => p.obj == o && !p.dead) with
    | none => promoteBook o d w0 r s
    | some p =>
      let late := lateFor p.due d s
      let s := takePin o r (bump Reg.TIR_PROMOTE_COUNT s)
      let s := { s with tier := { s.tier with promos := s.tier.promos.map (fun q =>
        if q.obj == o && !q.dead then { q with reqs := q.reqs ++ [{ r with missed := late }] } else q) } }
      if late then miss o r.ctx r.dov s else s

/-- A PROMOTE request (R125, R126). -/
def tierPromote (id d : Nat) (r : TierReq) (s : State) : State :=
  let w0 := reqWord 1 r.ctx id
  match objFind id s with
  | none => refusePromote 0x0503 none w0 r s
  | some o =>
    if objF o 2 Fld.OBJ2_BCOUNT s == 0 || pinOf o r.ctx s ≥ 255 || semOwner r.sem s != r.ctx ||
        (neighbours o s).any (fun p => objSram p s != 0 && objState p s != osEvicting) then
      refusePromote 0x0503 (some o) w0 r s
    else promoteObj o d w0 r s

/-- An EVICT request (R130). -/
def tierEvict (c id : Nat) (s : State) : State :=
  match objFind id s with
  | none => refuseReq 0x0503 none (reqWord 2 c id) s
  | some o =>
    let st := objState o s
    if st = osPromoting ∨ ((st = osBoth ∨ st = osDirty) ∧ pinned o s = true) then
      bump Reg.TIR_EVICT_DEFER (objW o 0 Fld.OBJ0_EVICT_PENDING 1 s)
    else if st = osPoisoned then objW o 0 Fld.OBJ0_EVICT_PENDING 1 s
    else evictNow o (reqWord 2 c id) s

/-- A FLUSH request (R130). -/
def tierFlush (c id : Nat) (s : State) : State :=
  match objFind id s with
  | none => refuseReq 0x0503 none (reqWord 3 c id) s
  | some o => if objState o s = osDirty then writeBack o true (reqWord 3 c id) s else s

/-- An UNPIN request (R125, R126). -/
def tierUnpin (c id : Nat) (s : State) : State :=
  match objFind id s with
  | none => refuseReq 0x0503 none (reqWord 4 c id) s
  | some o =>
    if pinOf o c s = 0 then refuseReq 0x0503 (some o) (reqWord 4 c id) s
    else pinReleased o (setPin o c (pinOf o c s - 1) s)

/-- A software request as its two register words (R124, R125). -/
def tierSoft (q : SoftReq) (s : State) : State :=
  let op := getF Fld.TIR_REQ0_OP q.w0
  let c := getF Fld.TIR_REQ0_CTX q.w0
  let id := getF Fld.TIR_REQ0_OBJECT q.w0
  if op = 1 then
    tierPromote id (getF Fld.TIR_REQ1_DEADLINE q.w1)
      ⟨c, getF Fld.TIR_REQ1_SEM q.w1, getF Fld.TIR_REQ1_SIGNUM q.w1, false, false⟩ s
  else if op = 2 then tierEvict c id s
  else if op = 3 then tierFlush c id s
  else if op = 4 then tierUnpin c id s
  else refuseReq 0x0503 (objFind id s) q.w0.toNat s

/-- A PROMOTE that the Dovetail issues for descriptor `o` (R125). -/
def tierPromoteDov (o : Nat) (s : State) : State :=
  tierPromote (objF o 0 Fld.OBJ0_OBJECT s) (objF o 5 Fld.OBJ5_DEADLINE s)
    ⟨objF o 0 Fld.OBJ0_OWNER s, objF o 5 Fld.OBJ5_SEM s, objF o 5 Fld.OBJ5_SIGNUM s, true, false⟩ s

/-! ## The step boundary (R124) -/

/-- Phase 1: release the ending step's Dovetail pins and start the evictions that this leaves unpinned, in
descriptor order. -/
def tierPhase1 (s : State) : State :=
  let pins := s.tier.dovPins
  let s := { s with tier := { s.tier with dovPins := [] } }
  let s := pins.foldl (fun s p => setPin p.1 p.2 (pinOf p.1 p.2 s - 1) s) s
  ((pins.map (·.1)).dedup.mergeSort (· ≤ ·)).foldl (fun s o => pinReleased o s) s

/-- Phase 5: accept the software requests in write order. -/
def tierPhase5 (s : State) : State :=
  let soft := s.tier.soft
  soft.foldl (fun s q => tierSoft q s) { s with tier := { s.tier with soft := [] } }

/-- Step 5 of R366: every pin count of context `c` becomes 0. -/
def tierTeardown (c : Nat) (s : State) : State :=
  let s := { s with tier := { s.tier with dovPins := s.tier.dovPins.filter (fun p => p.2 != c) } }
  (validObjs s).foldl (fun s o => if pinOf o c s = 0 then s else pinReleased o (setPin o c 0 s)) s

/-! ## Transfers and completions -/

/-- A promoted tile reaches the bench's inbound path (R127, R131, R136, R139). -/
def promoteTile (x : TierXfer) (e : Ecc) (s : State) : State :=
  let r := rurilRead x.rtn e s
  if !r.1 then r.2
  else
    let s := r.2
    let tile := rurilTile x.rtn s
    let mode := objF x.obj 0 Fld.OBJ0_MITRE s
    if mode = 0 then bump Reg.TIR_TILES_IN (setBenchTile x.bench x.btile tile s)
    else if tagF Fld.TAG_CRC tile.tag != crc32c tile.payload then poison x.obj x.tile s
    else if !mitreTakes (tagF Fld.TAG_FORMAT tile.tag) then
      let s := killPromo x.obj s
      let s := if objState x.obj s = osPromoting then
        objW x.obj 0 Fld.OBJ0_STATE osRuril (dropCopy x.obj s) else s
      tierLog 0x0505 x.obj x.tile (bump Reg.TIR_BAD_REQ s)
    else bump Reg.TIR_TILES_IN (setBenchTile x.bench x.btile (mitreTile mode tile) s)

/-- A written-back tile reaches Ruril (R132). -/
def backTile (x : TierXfer) (e : Ecc) (s : State) : State :=
  let s := eccBad x.bench x.btile e (eccCount x.bench e s)
  let src := x.saved.getD (benchTile x.bench x.btile s)
  let mode := objF x.obj 0 Fld.OBJ0_MITRE s
  let bad := s.sbad.contains (btKey x.bench x.btile) ||
    (mode != 0 && (tagF Fld.TAG_CRC src.tag != crc32c src.payload || !mitreTakes (tagF Fld.TAG_FORMAT src.tag)))
  let out := if mode = 0 || bad then src else mitreTile mode src
  let tag := mkTag (tagF Fld.TAG_CRC out.tag) (tagF Fld.TAG_FORMAT out.tag) (tagF Fld.TAG_FLAGS out.tag)
    (tagF Fld.TAG_SIDE out.tag) (tagF Fld.TAG_CBDIST out.tag) (objF x.obj 0 Fld.OBJ0_OBJECT s + x.tile * 2 ^ 40)
  let s := setRurilTile x.rtn ⟨tag, out.payload⟩ s
  let s := if bad then setRurilBad x.rtn s else s
  let s := bump Reg.TIR_TILES_OUT s
  if x.kind == .flush && x.saved.isNone then clearDirty x.obj (· == x.tile) s else s

/-- Remove a transfer from the list of those booked. -/
def dropXfer (x : TierXfer) (s : State) : State :=
  { s with tier := { s.tier with xfers := s.tier.xfers.filter (· != x) } }

/-- A booked transfer takes place (R127); the transfer of a re-fetch is TILE_REFETCH_DONE's. -/
def tierTransfer (i : Nat) (e : Ecc) (s : State) : State :=
  match s.tier.xfers[i]? with
  | none => s
  | some x =>
    if x.kind == .refetch then s
    else
      let s := dropXfer x (advanceTo x.due s)
      if x.kind == .promote then promoteTile x e s else backTile x e s

/-- Whether no transfer of a kind is left for an object. -/
def xfersDone (k : XferKind) (o : Nat) (s : State) : Bool :=
  !s.tier.xfers.any (fun x => x.obj == o && x.kind == k)

/-- The completion cycle of a booked promotion (R130, R137, R139). -/
def promotionDone (o : Nat) (s : State) : State :=
  match s.tier.promos.find? (fun p => p.obj == o) with
  | none => s
  | some p =>
    if !p.dead && (!xfersDone .promote o s || objState o s != osPromoting) then s
    else
      let s := advanceTo p.due s
      let s := { s with tier := { s.tier with promos := s.tier.promos.filter (· != p) } }
      let s := p.reqs.foldl (fun s r => signalReq r s) s
      if p.dead then s
      else
        let s := objW o 0 Fld.OBJ0_SRAM 2 s
        let s := objW o 0 Fld.OBJ0_STATE (if (dirtyTiles o s).isEmpty then osBoth else osDirty) s
        pinReleased o s

/-- The completion cycle of an eviction's write-back (R130). -/
def writebackDone (o : Nat) (s : State) : State :=
  match s.tier.backs.find? (fun w => w.obj == o && !w.flush) with
  | none => s
  | some w =>
    if !xfersDone .evict o s then s
    else
      let s := advanceTo w.due s
      let s := { s with tier := { s.tier with backs := s.tier.backs.filter (· != w) } }
      let s := dropCopy o s
      if objState o s != osEvicting then s
      else if s.tier.promos.any (fun p => p.obj == o && !p.dead) then
        objW o 0 Fld.OBJ0_SRAM 1 (objW o 0 Fld.OBJ0_STATE osPromoting s)
      else objW o 0 Fld.OBJ0_STATE osRuril s

/-- The completion cycle of a flush (R130). -/
def flushDone (o : Nat) (s : State) : State :=
  match s.tier.backs.find? (fun w => w.obj == o && w.flush) with
  | none => s
  | some w =>
    if w.tiles.any (fun i => s.tier.xfers.any (fun x => x.obj == o && x.tile == i && x.kind == .flush && x.due ≤ w.due)) then s
    else
      let s := advanceTo w.due s
      let s := { s with tier := { s.tier with backs := s.tier.backs.filter (· != w) } }
      if objState o s = osDirty ∧ (dirtyTiles o s).isEmpty then objW o 0 Fld.OBJ0_STATE osBoth s else s

/-- Every poisoned tile of `o` has been recovered (R138). -/
def recovered (o : Nat) (s : State) : State :=
  let s := { s with tier := { s.tier with recov := s.tier.recov.filter (fun r => r.obj != o) } }
  let s := bump Reg.TIR_RECOVERED s
  let st := if objSram o s = 0 then osRuril else if (dirtyTiles o s).isEmpty then osBoth else osDirty
  let s := objW o 0 Fld.OBJ0_STATE st s
  let s := defer (.heldBook o) s
  if st = osRuril then objW o 0 Fld.OBJ0_EVICT_PENDING 0 s else pinReleased o s

/-- A tile that a recovery source delivers (R138). -/
def recoveryTile (o i : Nat) (x : Tile) (s : State) : State :=
  match recovOf o s with
  | none => s
  | some r =>
    if r.failed || !r.tiles.contains i then s
    else if tagF Fld.TAG_CRC x.tag != crc32c (subBytes x.payload 0 4096) then trySource r (r.src + 1) s
    else
      let s := setRurilTile (objF o 1 Fld.OBJ1_RBASE s + i) x s
      let r := { r with tiles := r.tiles.filter (· != i) }
      if r.tiles.isEmpty then recovered o s else setRecov r s

/-- A recovery source has not delivered in time (R138). -/
def recoveryTimeout (o : Nat) (s : State) : State :=
  match recovOf o s with
  | none => s
  | some r =>
    if r.failed then s
    else
      let s := advanceTo (r.since + usCycles (rdF Reg.TIR_RECOVER_CTL Fld.TIR_RECOVER_CTL_TIMEOUT_US s)) s
      trySource r (r.src + 1) s

/-- Book the re-fetch of object tile `i` in this cycle (R95, R124): none where the use ends in a context
fault, and no cycle where recovery holds it (R137). -/
def refetchBook (o i : Nat) (s : State) : Option (Option Nat × State) :=
  match (if objState o s = osPoisoned then recovOf o s else none) with
  | some r =>
    if r.tiles.contains i then (if r.failed then none else some (none, s))
    else (book .refetch o s.cycle [i] s).map (fun p => (some p.1, p.2))
  | none => (book .refetch o s.cycle [i] s).map (fun p => (some p.1, p.2))

/-- Scrubbing reaches Ruril tile `n` (R115). -/
def scrub (n corrected : Nat) (bad : Bool) (s : State) : State :=
  let s := if corrected = 0 then s else bumpBy corrected (Reg.TIR_ECC_CORR (stackOf n)) s
  if bad then
    let s := setRurilBad n s
    match objOfRtn n s with
    | some (o, i) => poison o i s
    | none => s
  else s

/-! ## The object table through TIR_OBJ_DATA (R119 to R122, R140) -/

/-- The bits of word `w` of a descriptor that software writes (R120). -/
def objMask (w : Nat) : Word :=
  if w = 0 then 0x0F88F0FFFFFFFFFF
  else if w = 1 then 0x0FFFFFFFFFFFFFFF
  else if w = 2 then 0x000000007FFFFFFF
  else if w = 3 then 0x00FFFFFFFFFFFFFF
  else if w = 4 then 0xFFFFFFFFFFFFF001
  else if w = 5 then 0x000FFFFFFFFFFFFF
  else 0

/-- Whether descriptor `o` is legal with VALID 1 (R90, R119, R121). -/
def objLegal (o : Nat) (s : State) : Bool :=
  let id := objF o 0 Fld.OBJ0_OBJECT s
  let len := objF o 1 Fld.OBJ1_LEN s
  let bc := objF o 2 Fld.OBJ2_BCOUNT s
  id != 0 && !((validObjs s).any (fun p => p != o && objF p 0 Fld.OBJ0_OBJECT s == id)) && decide (1 ≤ len) &&
    (bc == 0 || (decide (objF o 2 Fld.OBJ2_BFIRST s + bc ≤ 1176) &&
      decide (objF o 2 Fld.OBJ2_TFIRST s + (len - 1) / bc ≤ 383))) &&
    decide (objF o 1 Fld.OBJ1_RBASE s + len - 1 ≤ rtnMax) &&
    objF o 0 Fld.OBJ0_MITRE s != 3 && objF o 0 Fld.OBJ0_MISS_PATH s != 3

/-- Whether the words of descriptor `o` may be written (R122): VALID 0, or RESIDENT_RURIL with no pin; an
object whose recovery failed counts as RESIDENT_RURIL (R138). -/
def objOpen (o : Nat) (s : State) : Bool :=
  objF o 0 Fld.OBJ0_VALID s == 0 ||
    (!pinned o s && (objState o s == osRuril ||
      (objState o s == osPoisoned && ((recovOf o s).map (·.failed)).getD false)))

/-- Advance TIR_OBJ_ADDR after an access. -/
def objNext (s : State) : State :=
  wr Reg.TIR_OBJ_ADDR (w64 (((rd Reg.TIR_OBJ_ADDR s).toNat + 1) % 2 ^ 19)) s

/-- A write of word `w` of descriptor `o`: none where a rule refuses it. -/
def objWrite (o w : Nat) (v : Word) (s : State) : Option State :=
  if w ≥ 6 then some s
  else if !s.priv && !objOpen o s then none
  else
    let old := tb (objKey o w) s
    let t := tbW (objKey o w) ((old &&& ~~~(objMask w)) ||| (v &&& objMask w)) s
    if objF o 0 Fld.OBJ0_VALID t == 1 && !objLegal o t then none
    else if objF o 0 Fld.OBJ0_VALID s == 1 && objState o t == osPoisoned then
      some (objW o 0 Fld.OBJ0_STATE osRuril
        { t with tier := { t.tier with recov := t.tier.recov.filter (fun r => r.obj != o) } })
    else some t

/-- An access to TIR_OBJ_DATA. -/
def objAccess (a : Access) (src : Src) (s : State) : State :=
  let o := rdF Reg.TIR_OBJ_ADDR Fld.TIR_OBJ_ADDR_INDEX s
  let w := rdF Reg.TIR_OBJ_ADDR Fld.TIR_OBJ_ADDR_WORD s
  match a with
  | .read => objNext (reply src (tb (objKey o w) s) s)
  | .write v => objNext ((objWrite o w v s).getD (refuse src Reg.TIR_OBJ_DATA s))

/-- A write of TIR_REQ1 submits the request in TIR_REQ0 for the next boundary (R124, R125). -/
def submitReq (w1 : Word) (s : State) : State :=
  { s with tier := { s.tier with soft := s.tier.soft ++ [⟨rd Reg.TIR_REQ0 s, w1⟩] } }

/-- A write of TIR_POISON_FIRST: 1 in VALID clears the register (R140). -/
def poisonFirstWrite (v : Word) (s : State) : State :=
  if bitF Fld.TIR_POISON_FIRST_VALID v then wr Reg.TIR_POISON_FIRST 0 s else s

end Sys2Proof.Machine
end

