-- ==== Sys2Proof/Machine/Pool.lean ====
section
/-!
DEFINITION. The buffer pool, sequence slots and the phases of the step boundary (spec/05_buffer_pool_and_sequences.md).
-/
namespace Sys2Proof.Machine

/-! ## Descriptors and link words (R143, R145) -/

/-- The end of a buffer list. -/
def bufEnd : Nat := 0xFFFFFFF

/-- Buffers in the pool. -/
def poolLen (s : State) : Nat := rdF Reg.BPM_POOL Fld.BPM_POOL_LEN s
/-- The first buffer of the pool. -/
def poolBase (s : State) : Nat := rdF Reg.BPM_POOL Fld.BPM_POOL_BASE s

/-- Whether a Ruril tile number names a buffer of the pool. -/
def isBuf (n : Nat) (s : State) : Bool := poolBase s ≤ n && n < poolBase s + poolLen s

/-- Ruril byte address of the descriptor of buffer `n`. -/
def bdAddr (n : Nat) (s : State) : Nat :=
  rdF Reg.BPM_POOL_CTL Fld.BPM_POOL_CTL_DBASE s * 4096 + (n - poolBase s) * 8

/-- Fields of a buffer descriptor (R143). -/
def BD.final : Fld := ⟨39, 24⟩
def BD.users : Fld := ⟨31, 8⟩
def BD.freeing : Fld := ⟨30, 1⟩
def BD.state : Fld := ⟨28, 2⟩
def BD.next : Fld := ⟨0, 28⟩

/-- A field of buffer `n`'s descriptor. -/
def bdF (n : Nat) (f : Fld) (s : State) : Nat := getF f (w64 (rurilWord (bdAddr n s) s))
/-- Store a field of buffer `n`'s descriptor. -/
def bdW (n : Nat) (f : Fld) (x : Nat) (s : State) : State :=
  setRurilBytes (bdAddr n s) (leBytes 8 (setF f (w64 (rurilWord (bdAddr n s) s)) x).toNat) s

/-- The link word of a free buffer. -/
def linkOf (n : Nat) (s : State) : Nat := rurilWord (n * 4096) s % 2 ^ 28

/-- Free buffers. -/
def freeCount (s : State) : Nat := (rd Reg.BPM_FREE_COUNT s).toNat
/-- The head of the free list. -/
def freeHead (s : State) : Nat := rdF Reg.BPM_FREE_HEAD Fld.BPM_FREE_HEAD_HEAD s

/-- Free buffer `n`: it becomes the head of the list (R145, R146). -/
def bufFree (n : Nat) (s : State) : State :=
  let s := setRurilBytes (n * 4096) (leBytes 8 (freeHead s)) s
  let s := bdW n BD.state 0 s
  bump Reg.BPM_FREE_COUNT (wrF Reg.BPM_FREE_HEAD Fld.BPM_FREE_HEAD_HEAD n s)

/-- The tag of a buffer that holds no valid tile: its CRC differs from that of its payload (R148). -/
def spoilTag (n : Nat) (s : State) : State :=
  let x := rurilTile n s
  let crc := (crc32c x.payload + 1) % 2 ^ 32
  let tag := BitVec.ofNat 128 (x.tag.toNat / 2 ^ 32 * 2 ^ 32 + crc)
  { s with rtags := smPut (fun _ => blankTag) s.rtags n tag }

/-- Allocate the head of the list to holder `h`: the buffer (R146). The caller has checked that there is one. -/
def bufAlloc (h : Nat) (s : State) : Nat × State :=
  let n := freeHead s
  let s := wrF Reg.BPM_FREE_HEAD Fld.BPM_FREE_HEAD_HEAD (linkOf n s) s
  let s := wr Reg.BPM_FREE_COUNT (rd Reg.BPM_FREE_COUNT s - 1) s
  let w := setF BD.final (setF BD.state (setF BD.next 0 bufEnd) 1) h
  (n, spoilTag n (setRurilBytes (bdAddr n s) (leBytes 8 w.toNat) s))

/-- DROP of one user (R146). The caller has checked STATE and USERS. -/
def bufDrop (n : Nat) (s : State) : State :=
  let u := bdF n BD.users s - 1
  let s := bdW n BD.users u s
  if u = 0 then
    let s := bdW n BD.state 1 s
    if bdF n BD.freeing s = 1 then bufFree n s else s
  else s

/-- Whether a FREE from `h` passes R146 and R147. -/
def freeOk (h n : Nat) (s : State) : Bool :=
  isBuf n s && (bdF n BD.state s == 1 || bdF n BD.state s == 2) && bdF n BD.final s == h && bdF n BD.freeing s == 0

/-- A FREE by holder `h` (R146, R147): whether it was accepted. -/
def poolFree (h n : Nat) (s : State) : Bool × State :=
  if freeOk h n s then
    (true, if bdF n BD.users s = 0 then bufFree n s else bdW n BD.freeing 1 s)
  else (false, log 0x0601 kBuffer n none [w64 h] (bump Reg.BPM_FREE_REFUSED s))

/-- A DROP (R146): whether it was accepted. -/
def poolDrop (n : Nat) (s : State) : Bool × State :=
  if isBuf n s && bdF n BD.state s == 2 && bdF n BD.users s > 0 then (true, bufDrop n s)
  else (false, bump Reg.BPM_BAD_REQ s)

/-- A SHARE by holder `h` (R146): whether it was accepted. -/
def poolShare (h n num newFinal : Nat) (s : State) : Bool × State :=
  if isBuf n s && (bdF n BD.state s == 1 || bdF n BD.state s == 2) && bdF n BD.final s == h &&
      bdF n BD.users s + num ≤ 255 then
    (true, bdW n BD.final newFinal (bdW n BD.users (bdF n BD.users s + num) (bdW n BD.state 2 s)))
  else (false, bump Reg.BPM_BAD_REQ s)

/-! ## Broken lists (R149) -/

/-- The last buffer of the free list from `n`; the fuel is BPM_FREE_COUNT. -/
def lastFree : Nat → Nat → State → Nat
  | 0, n, _ => n
  | k + 1, n, s => if linkOf n s = bufEnd then n else lastFree k (linkOf n s) s

/-- The record of a broken list. -/
def listBroken (n : Nat) (s : State) : State :=
  log 0x0602 kBuffer n none [rd Reg.BPM_FREE_COUNT s] s

/-! ## Requests (R146, R147, R164) -/

/-- The outcome of a software request in BPM_RESULT: 1 done, 2 refused, 3 empty. -/
def setResult (soft : Bool) (status n : Nat) (s : State) : State :=
  if soft then wr Reg.BPM_RESULT (w64 (status * 2 ^ 60 + n % 2 ^ 28)) s else s

/-- Carry out a buffer request. Where a word that it reads is bad (R149), an ALLOC still takes the head, whose
link cannot be followed, and a FREE does nothing. -/
def poolDo (r : PoolReq) (s : State) : State :=
  let fin := fun (n : Nat) (p : Bool × State) => setResult r.soft (if p.1 then 1 else 2) n p.2
  if r.op = 1 then
    if freeCount s = 0 then setResult r.soft 3 0 (bump Reg.BPM_ALLOC_FAIL s)
    else
      let (n, s) := bufAlloc r.holder s
      let s := if r.ok then s else
        listBroken n (wr Reg.BPM_FREE_COUNT 0 (wrF Reg.BPM_FREE_HEAD Fld.BPM_FREE_HEAD_HEAD bufEnd s))
      setResult r.soft 1 n s
  else if r.op = 2 then fin r.buf (poolShare r.holder r.buf r.n r.newFinal s)
  else if r.op = 3 then fin r.buf (poolDrop r.buf s)
  else if r.op = 4 then
    if r.ok then fin r.buf (poolFree r.holder r.buf s)
    else setResult r.soft 2 r.buf (listBroken (lastFree (freeCount s) (freeHead s) s) s)
  else setResult r.soft 2 r.buf (bump Reg.BPM_BAD_REQ s)

/-- Whether a step boundary runs, so that requests and leaves wait (R164). -/
def boundaryRuns (s : State) : Bool :=
  match s.pool.bnd with
  | some b => b.phase != 6
  | none => false

/-- A buffer request as it is written or issued. -/
def poolReq (r : PoolReq) (s : State) : State :=
  if boundaryRuns s then { s with pool := { s.pool with held := s.pool.held ++ [r] } } else poolDo r s

/-- A write of BPM_REQ1 submits the request in BPM_REQ0. -/
def poolSubmit (w1 : Word) (s : State) : State :=
  let w0 := rd Reg.BPM_REQ0 s
  poolReq ⟨getF Fld.BPM_REQ0_OP w0, getF Fld.BPM_REQ0_HOLDER w0, getF Fld.BPM_REQ0_BUF w0, getF Fld.BPM_REQ0_N w0,
    getF Fld.BPM_REQ1_NEWFINAL w1, true, true⟩ s

/-! ## Slots (R155 to R158) -/

/-- A word of slot `n`'s record. -/
def slotKey (n w : Nat) : Nat := Tab.SLOT (n * 8 + w)
/-- Fields of a slot record (R155). -/
def SL.born : Fld := ⟨24, 40⟩
def SL.ctx : Fld := ⟨4, 4⟩
def SL.state : Fld := ⟨0, 4⟩
def SL.tail : Fld := ⟨28, 28⟩
def SL.head : Fld := ⟨0, 28⟩
def SL.bufs : Fld := ⟨32, 32⟩
def SL.pos : Fld := ⟨0, 32⟩
def SL.pbufs : Fld := ⟨28, 20⟩
def SL.phead : Fld := ⟨0, 28⟩
def SL.park : Fld := ⟨12, 52⟩
def SL.status : Fld := ⟨0, 8⟩

/-- A field of word `w` of slot `n`. -/
def slF (n w : Nat) (f : Fld) (s : State) : Nat := tbF (slotKey n w) f s
/-- Store a field of word `w` of slot `n`. -/
def slW (n w : Nat) (f : Fld) (x : Nat) (s : State) : State := tbWF (slotKey n w) f x s
/-- STATE of slot `n`: 0 FREE, 1 ACTIVE, 2 LEAVING. -/
def slotState (n : Nat) (s : State) : Nat := slF n 0 SL.state s
/-- The context in slot `n`'s record. -/
def slotCtx (n : Nat) (s : State) : Nat := slF n 0 SL.ctx s
/-- The slots whose record lists a word, ascending: every slot that is not FREE is among them. -/
def usedSlots (s : State) : List Nat :=
  (((tabKeys (slotKey 0 0) (slotKey 262144 0) s).map (fun k => (k - slotKey 0 0) / 8)).dedup).filter
    (fun n => slotState n s != 0)
/-- Every word of a slot record to 0. -/
def slotZero (n : Nat) (s : State) : State := tabClear (slotKey n 0) (slotKey (n + 1) 0) s

/-- First slot of context `c`'s range. -/
def slotFirst (c : Nat) (s : State) : Nat := rdF (Reg.CTX_SLOTS c) Fld.CTX_SLOTS_FIRST s
/-- Number of slots in context `c`'s range. -/
def slotRange (c : Nat) (s : State) : Nat := rdF (Reg.CTX_SLOTS c) Fld.CTX_SLOTS_COUNT s
/-- Whether slot `n` lies in context `c`'s range. -/
def slotIn (c n : Nat) (s : State) : Bool := slotFirst c s ≤ n && n < slotFirst c s + slotRange c s

/-- Division that rounds up. -/
def ceilDiv (a b : Nat) : Nat := (a + b - 1) / b
/-- TPB of context `c` (R156). -/
def tpb (c : Nat) (s : State) : Nat := rdF (Reg.BPM_CTX_KV c) Fld.BPM_CTX_KV_TPB s
/-- G of context `c` (R156). -/
def growth (c : Nat) (s : State) : Nat := rdF (Reg.BPM_CTX_KV c) Fld.BPM_CTX_KV_G s

/-- The own-buffer need of slot `n` for the next step (R156): none where G is 0. -/
def need (n : Nat) (s : State) : Nat :=
  let c := slotCtx n s
  if growth c s = 0 then 0
  else ceilDiv (slF n 2 SL.pos s + growth c s) (tpb c s) - (slF n 2 SL.bufs s + slF n 3 SL.pbufs s)

/-- A list of `k` buffers in NEXT order from `n`. -/
def chain : Nat → Nat → State → List Nat
  | 0, _, _ => []
  | k + 1, n, s => n :: chain k (bdF n BD.next s) s

/-- A slot's own buffers. -/
def ownBufs (n : Nat) (s : State) : List Nat := chain (slF n 2 SL.bufs s) (slF n 1 SL.head s) s
/-- A slot's prefix buffers. -/
def prefixBufs (n : Nat) (s : State) : List Nat := chain (slF n 3 SL.pbufs s) (slF n 3 SL.phead s) s
/-- The holder identity of a slot (R144). -/
def slotHolder (n : Nat) : Nat := 2 ^ 20 + n

/-- The Ruril charge of context `c` (R355). -/
def rurilUsed (c : Nat) (s : State) : Nat :=
  let objs := ((validObjs s).filter (fun o => objF o 0 Fld.OBJ0_OWNER s == c)).map (fun o => objF o 1 Fld.OBJ1_LEN s)
  let bufs := (upto (poolLen s)).filter (fun k =>
    let n := poolBase s + k
    let h := bdF n BD.final s
    bdF n BD.state s != 0 && (h == c || (h / 2 ^ 20 == 1 && slotIn c (h % 2 ^ 20) s)))
  objs.foldl (· + ·) 0 + bufs.length

/-- The remaining Ruril quota of context `c`. -/
def quotaLeft (c : Nat) (s : State) : Nat :=
  rdF (Reg.CTX_RURIL_QUOTA c) Fld.CTX_RURIL_QUOTA_TILES s - rurilUsed c s

/-- FREE each own buffer and DROP each prefix buffer of a slot (R160). -/
def slotGive (n : Nat) (s : State) : State :=
  let own := ownBufs n s
  let pre := prefixBufs n s
  let s := own.foldl (fun s b => (poolFree (slotHolder n) b s).2) s
  pre.foldl (fun s b => (poolDrop b s).2) s

/-- Empty slot `n` as in R160, posting `status`. -/
def slotLeave (n status : Nat) (s : State) : State :=
  let c := slotCtx n s
  let cookie := (tb (slotKey n 5) s).toNat
  let pos := slF n 2 SL.pos s
  slotZero n (post c status n cookie pos 0 (slotGive n s))

/-- A leave of slot `n` (R157). -/
def leave (n status : Nat) (s : State) : State :=
  if slotState n s = 1 then slW n 6 SL.status status (slW n 0 SL.state 2 s) else bump Reg.BPM_BAD_REQ s

/-- A leave as it is written: held while a boundary runs (R164). -/
def leaveReq (n status : Nat) (s : State) : State :=
  if boundaryRuns s then { s with pool := { s.pool with leaves := s.pool.leaves ++ [(n, status)] } }
  else leave n status s

/-- A write of BPM_SLOT_REQ (R157): a leave with another status than COMPLETE or LEFT is refused. -/
def slotReq (v : Word) (s : State) : State :=
  let st := getF Fld.BPM_SLOT_REQ_STATUS v
  if st = 2 ∨ st = 3 then leaveReq (getF Fld.BPM_SLOT_REQ_SLOT v) st s else bump Reg.BPM_BAD_REQ s

/-- A read of BPM_SLOT_DATA: the addressed word, and the address increments. -/
def slotDataRead (src : Src) (s : State) : State :=
  let a := (rd Reg.BPM_SLOT_ADDR s).toNat % 2 ^ 21
  let v := tb (Tab.SLOT a) s
  reply src v (wr Reg.BPM_SLOT_ADDR (w64 ((a + 1) % 2 ^ 21)) s)

/-- Joins of context `c` that wait. -/
def joinsOf (c : Nat) (s : State) : Nat :=
  ((s.pool.intake ++ (match s.pool.bnd with | some b => b.joins | none => [])).filter (fun j => j.ctx == c)).length

/-- A join arrives (R368). -/
def joinArrive (j : Join) (s : State) : State :=
  if joinsOf j.ctx s ≥ rdF (Reg.CTX_INTAKE j.ctx) Fld.CTX_INTAKE_MAX s ∨ s.pool.intake.length ≥ 16384 then
    bump Reg.BPM_JOIN_DEFERRED (bump (Reg.CTX_SHED j.ctx) (postJoin j 1 s))
  else { s with pool := { s.pool with intake := s.pool.intake ++ [j] } }

/-! ## Initialisation (R150) -/

/-- A write of BPM_POOL_CTL (R150). -/
def poolCtlWrite (v : Word) (src : Src) (s : State) : State :=
  let busy := rdF Reg.BPM_POOL_CTL Fld.BPM_POOL_CTL_BUSY s
  if bitF Fld.BPM_POOL_CTL_INIT v then
    if busy = 1 ∨ !(usedSlots s).isEmpty then refuse src Reg.BPM_POOL_CTL s
    else
      wrF Reg.BPM_POOL_CTL Fld.BPM_POOL_CTL_BUSY 1
        (wrF Reg.BPM_POOL_CTL Fld.BPM_POOL_CTL_DBASE (getF Fld.BPM_POOL_CTL_DBASE v) s)
  else wrF Reg.BPM_POOL_CTL Fld.BPM_POOL_CTL_DBASE (getF Fld.BPM_POOL_CTL_DBASE v) s

/-- Initialisation completes (R150). -/
def poolInit (s : State) : State :=
  if rdF Reg.BPM_POOL_CTL Fld.BPM_POOL_CTL_BUSY s = 1 then
    let base := poolBase s
    let len := poolLen s
    let s := (upto len).foldl (fun s k =>
      let s := setRurilBytes ((base + k) * 4096) (leBytes 8 (if k + 1 = len then bufEnd else base + k + 1)) s
      setRurilBytes (bdAddr (base + k) s) (leBytes 8 0) s) s
    let s := wrF Reg.BPM_FREE_HEAD Fld.BPM_FREE_HEAD_HEAD (if len = 0 then bufEnd else base) s
    let s := wr Reg.BPM_FREE_COUNT (w64 len) s
    let s := tabClear (slotKey 0 0) (slotKey 262144 0) s
    wrF Reg.BPM_POOL_CTL Fld.BPM_POOL_CTL_BUSY 0 s
  else s

/-! ## Phases 2 to 5 of the boundary (R159 to R164) -/

/-- Run `f` as if in cycle `c`: what it records and books carries that cycle. -/
def atCycle (c : Nat) (f : State → State) (s : State) : State :=
  { f { s with cycle := max c s.cycle } with cycle := s.cycle }

/-- Store the boundary. -/
def setBnd (b : Boundary) (s : State) : State := { s with pool := { s.pool with bnd := some b } }
/-- Show a phase. -/
def showPhase (n : Nat) (s : State) : State := wrF Reg.BPM_STEP_STATUS Fld.BPM_STEP_STATUS_PHASE n s

/-- Phase 2: every LEAVING slot in ascending number (R160). -/
def phase2 (b : Boundary) (s : State) : Boundary × State :=
  let ls := (usedSlots s).filter (fun n => slotState n s == 2)
  let given := (ls.map (fun n => (ownBufs n s).length + (prefixBufs n s).length)).foldl (· + ·) 0
  let s := atCycle b.endAt (fun s => ls.foldl (fun s n =>
    bump Reg.BPM_LEAVES (slotLeave n (slF n 6 SL.status s) s)) s) s
  ({ b with phase := 3, endAt := b.endAt + 2 * ls.length + ceilDiv given 8 }, s)

/-- The slot of `l` with the highest admission number. -/
def youngest (l : List Nat) (s : State) : Option Nat :=
  l.foldl (fun o n => match o with
    | none => some n
    | some m => if slF n 0 SL.born s > slF m 0 SL.born s then some n else some m) none

/-- Own buffers that parking slot `n` would return to the list (R162). -/
def freedBy (n : Nat) (s : State) : Nat := ((ownBufs n s).filter (fun b => bdF b BD.users s == 0)).length

/-- Sum of a list. -/
def sum (l : List Nat) : Nat := l.foldl (· + ·) 0

/-- Park from the continuing slots `cont` that `p` selects while their need exceeds `avail` of the slots parked
so far (R162): the slots parked, in order. -/
def parkWhile (p : Nat → Bool) (avail : List Nat → Nat) (s : State) : Nat → List Nat → List Nat → List Nat
  | 0, _, parked => parked
  | k + 1, cont, parked =>
    if sum ((cont.filter p).map (fun n => need n s)) > avail parked then
      match youngest (cont.filter p) s with
      | none => parked
      | some n => parkWhile p avail s k (cont.filter (· != n)) (parked ++ [n])
    else parked

/-- The slots that phase 3 parks, in the order in which it chooses them (R162). -/
def chooseParks (cont : List Nat) (s : State) : List Nat :=
  let free := fun (l : List Nat) => freeCount s + sum (l.map (fun n => freedBy n s))
  let quota := fun (c : Nat) (l : List Nat) =>
    rdF (Reg.CTX_RURIL_QUOTA c) Fld.CTX_RURIL_QUOTA_TILES s -
      (rurilUsed c s - sum ((l.filter (fun n => slotCtx n s == c)).map (fun n => freedBy n s)))
  let perCtx := (upto 16).foldl (fun parked c =>
    parkWhile (fun n => slotCtx n s == c) (fun l => min (free l) (quota c l)) s cont.length
      (cont.filter (fun n => !parked.contains n)) parked) []
  parkWhile (fun _ => true) free s cont.length (cont.filter (fun n => !perCtx.contains n)) perCtx

/-- Start the parking copy of slot `n`: its KV goes to consecutive pages from PARKADDR (R163). -/
def parkCopy (n : Nat) (s : State) : State :=
  let pages := prefixBufs n s ++ ownBufs n s
  let addr := slF n 4 SL.park s * 4096
  (pages.zipIdx).foldl (fun s p => emit (.hostWrite (addr + p.2 * 4096) (rurilTile p.1 s).payload) s) s

/-- The parking copy of slot `n` meets a link that is down: the transfer is counted and recorded (R447). -/
def parkXferFail (n : Nat) (s : State) : State :=
  log 0x0108 kSlot n (some (slotCtx n s)) [w64 (slF n 4 SL.park s * 4096)] (bump Reg.GLB_HIF_XFER_FAIL s)

/-- Append a new own buffer to slot `n`. -/
def slotGrow (n : Nat) (s : State) : State :=
  if freeCount s = 0 then s
  else
    let (b, s) := bufAlloc (slotHolder n) s
    let k := slF n 2 SL.bufs s
    let s := if k = 0 then slW n 1 SL.head b s else bdW (slF n 1 SL.tail s) BD.next b s
    slW n 2 SL.bufs (k + 1) (slW n 1 SL.tail b s)

/-- Append `k` own buffers to slot `n`. -/
def slotGrowBy : Nat → Nat → State → State
  | 0, _, s => s
  | k + 1, n, s => slotGrowBy k n (slotGrow n s)

/-- Slots in ascending admission number. -/
def byAdmit (l : List Nat) (s : State) : List Nat :=
  l.mergeSort (fun a b => slF a 0 SL.born s ≤ slF b 0 SL.born s)

/-- The allocations of phase 3: every continuing slot in ascending admission number (R162). -/
def phase3Grow (b : Boundary) (s : State) : Boundary × State :=
  let cont := byAdmit ((usedSlots s).filter (fun n => slotState n s == 1)) s
  let total := sum (cont.map (fun n => need n s))
  let s := cont.foldl (fun s n =>
    let g := growth (slotCtx n s) s
    slW n 2 SL.pos (slF n 2 SL.pos s + g) (slotGrowBy (need n s) n s)) s
  ({ b with phase := 4, endAt := b.endAt + cont.length + ceilDiv total 8, joins := s.pool.intake },
    { s with pool := { s.pool with intake := [] } })

/-- The slot's `k` parking pages have been written, or their copy failed (R163). -/
def parkDone (n : Nat) (ok : Bool) (s : State) : State :=
  let c := slotCtx n s
  let cookie := (tb (slotKey n 5) s).toNat
  let pos := slF n 2 SL.pos s
  let pages := slF n 2 SL.bufs s + slF n 3 SL.pbufs s
  let s := slotGive n s
  if ok then
    bump Reg.BPM_PARKED (slotZero n (post c 4 n cookie pos pages s))
  else
    let s := slotZero n (post c 6 n cookie pos 0 s)
    log 0x0603 kSlot n (some c) [w64 pos] s

/-- Post every join of a list DEFERRED. -/
def deferJoins (js : List Join) (s : State) : State :=
  js.foldl (fun s j => bump Reg.BPM_JOIN_DEFERRED (postJoin j 1 s)) s

/-- The prefix buffers that a join names. -/
def joinPrefix (j : Join) (s : State) : List Nat := chain j.prefixBufs j.prefixHead s

/-- Whether a join is malformed (R161). -/
def joinBad (j : Join) (s : State) : Bool :=
  j.parkAddr == 0 || ctxState j.ctx s != 1 ||
    (joinPrefix j s).any (fun b => !isBuf b s || bdF b BD.state s != 2 || bdF b BD.users s ≥ 255)

/-- The lowest FREE slot of context `c`'s range. -/
def freeSlot (c : Nat) (s : State) : Option Nat :=
  ((upto (slotRange c s)).map (slotFirst c s + ·)).find? (fun n => slotState n s == 0)

/-- The own-buffer need of a join (R161). -/
def joinNeed (j : Join) (s : State) : Nat := ceilDiv j.length (tpb j.ctx s) - j.prefixBufs

/-- Admit a join to slot `n` (R161). -/
def admitJoin (j : Join) (n : Nat) (s : State) : State :=
  let a := rdF Reg.BPM_ADMIT_NEXT Fld.BPM_ADMIT_NEXT_ADMIT s
  let s := wrF Reg.BPM_ADMIT_NEXT Fld.BPM_ADMIT_NEXT_ADMIT (a + 1) s
  let k := joinNeed j s
  let s := slotZero n s
  let s := tbW (slotKey n 0) (w64 (a * 2 ^ 24 + j.ctx * 16 + 1)) s
  let s := tbW (slotKey n 1) (w64 bufEnd) s
  let s := slW n 2 SL.pos j.length s
  let s := slW n 3 SL.phead j.prefixHead (slW n 3 SL.pbufs j.prefixBufs s)
  let s := slW n 4 SL.park j.parkAddr s
  let s := tbW (slotKey n 5) (w64 j.cookie) s
  let s := (joinPrefix j s).foldl (fun s b => bdW b BD.users (bdF b BD.users s + 1) s) s
  slotGrowBy k n s

/-- Post an admitted join ADMITTED. -/
def admitted (j : Join) (n : Nat) (s : State) : State :=
  bump Reg.BPM_JOIN_ADMITTED (post j.ctx 0 n j.cookie (slF n 2 SL.pos s) 0 s)

/-- The first page that a resume reads: the KV of a parked sequence holds its prefix buffers first (R163). -/
def resumeAddr (j : Join) : Nat := (j.parkAddr + j.prefixBufs) * 4096

/-- Phase 4: examine the joins in intake order (R161). It ends, or waits for a resume copy (R452). -/
def phase4 (b : Boundary) : List Join → State → Boundary × State
  | [], s => ({ b with phase := 5, joins := [] }, s)
  | j :: js, s =>
    if b.parked then ({ b with phase := 5, joins := [] }, deferJoins (j :: js) s)
    else
      let b := { b with endAt := b.endAt + 2 }
      if joinBad j s then phase4 b js (postJoin j 5 s)
      else
        let k := joinNeed j s
        match freeSlot j.ctx s with
        | none => ({ b with phase := 5, joins := [] }, deferJoins (j :: js) s)
        | some n =>
          if k ≤ freeCount s ∧ k ≤ quotaLeft j.ctx s then
            let b := { b with endAt := b.endAt + ceilDiv k 8 }
            let s := admitJoin j n s
            if j.resume && k != 0 then
              ({ b with resuming := some (n, j), joins := js }, emit (.hostRead (resumeAddr j) (k * 4096)) s)
            else phase4 b js (admitted j n s)
          else ({ b with phase := 5, joins := [] }, deferJoins (j :: js) s)

/-- Phase 5 (R124), after which held leaves and requests take effect (R164). -/
def phase5 (b : Boundary) (s : State) : State :=
  let s := atCycle b.endAt tierPhase5 (showPhase 5 s)
  let leaves := s.pool.leaves
  let held := s.pool.held
  let s := setBnd { b with phase := 6, endAt := b.endAt + 4 }
    { s with pool := { s.pool with leaves := [], held := [] } }
  let s := held.foldl (fun s r => poolDo r s) s
  leaves.foldl (fun s l => leave l.1 l.2 s) s

/-- Phase 4 and, where it ends, phase 5. -/
def runPhase4 (b : Boundary) (s : State) : State :=
  let cyc := s.cycle
  let (b, s) := phase4 b b.joins { showPhase 4 s with cycle := max b.endAt cyc }
  let s := { s with cycle := cyc }
  if b.resuming.isSome then setBnd b s else phase5 b s

/-- Phase 3 once no parking copy runs, then phase 4. -/
def runPhase3 (b : Boundary) (s : State) : State :=
  let (b, s) := phase3Grow b (showPhase 3 s)
  runPhase4 b s

/-- The slots whose parking copies run, in ascending order. -/
def parksNow (s : State) : List Nat :=
  match s.pool.bnd with
  | some b => b.parking.mergeSort (fun a b => a ≤ b)
  | none => []

/-- Every parking copy that runs fails with the link: the records of the transfers (R447, R460). -/
def parksXferFail (s : State) : State := (parksNow s).foldl (fun s n => parkXferFail n s) s

/-- Every parking copy that runs has failed with the link: the slots end PARK_FAILED, and phase 3 goes on (R163, R460). -/
def parksEnd (s : State) : State :=
  match s.pool.bnd with
  | some b =>
    if b.parking.isEmpty then s
    else
      let s := (parksNow s).foldl (fun s n => parkDone n false s) s
      let b := { b with parking := [], endAt := max b.endAt s.cycle }
      runPhase3 b (setBnd b s)
  | none => s

/-- Phases 2 and 3 up to the parking copies. While the link is down each copy fails at its issue (R163, R447). -/
def runPhase2 (b : Boundary) (s : State) : State :=
  let (b, s) := phase2 b (showPhase 2 s)
  let cont := (usedSlots s).filter (fun n => slotState n s == 1)
  let parks := chooseParks cont s
  if parks.isEmpty then runPhase3 b s
  else
    let b := { b with parked := true, parking := parks }
    if linkUp s then setBnd b (parks.foldl (fun s n => parkCopy n s) (showPhase 3 s))
    else parksEnd (parksXferFail (setBnd b (showPhase 3 s)))

/-- The parking copy that completes next ends (R163). -/
def parkCopyDone (n : Nat) (ok : Bool) (s : State) : State :=
  match s.pool.bnd with
  | some b =>
    match b.parking with
    | m :: rest =>
      if m = n then
        let s := parkDone n (ok && linkUp s) s
        let b := { b with parking := rest, endAt := max b.endAt s.cycle }
        if rest.isEmpty then runPhase3 b (setBnd b s) else setBnd b s
      else s
    | [] => s
  | none => s

/-- The read of the resume copy that runs fails: the record (R447). -/
def resumeXferFail (s : State) : State :=
  match s.pool.bnd.bind (·.resuming) with
  | some (n, j) => log 0x0108 kSlot n (some j.ctx) [w64 (resumeAddr j)] (bump Reg.GLB_HIF_XFER_FAIL s)
  | none => s

/-- The read of the resume copy that runs has failed: the admission is undone, and phase 4 goes on (R452). -/
def resumeUndo (s : State) : State :=
  match s.pool.bnd with
  | some b =>
    match b.resuming with
    | some (n, j) =>
      let b := { b with resuming := none, endAt := max b.endAt s.cycle }
      runPhase4 b (bump Reg.BPM_JOIN_DEFERRED (postJoin j 1 (slotZero n (slotGive n s))))
    | none => s
  | none => s

/-- The pages of a resume arrive, or their read fails (R452). -/
def resumeCopyDone (n : Nat) (pages : Option (List Byte)) (s : State) : State :=
  match s.pool.bnd with
  | some b =>
    match b.resuming with
    | some (m, j) =>
      if m = n then
        match pages with
        | some bytes =>
          let b := { b with resuming := none, endAt := max b.endAt s.cycle }
          let s := ((ownBufs n s).zipIdx).foldl (fun s p =>
            let x := subBytes bytes (p.2 * 4096) 4096
            setRurilTile p.1 ⟨BitVec.ofNat 128 (crc32c x), x⟩ s) s
          runPhase4 b (admitted j n s)
        | none => resumeUndo (resumeXferFail s)
      else s
    | none => s
  | none => s

/-- What phase 1 waited for has ended: the boundary goes on where nothing else holds it. -/
def boundaryOn (bit : Nat) (s : State) : State :=
  match s.pool.bnd with
  | some b =>
    let b := { b with waits := b.waits &&& (3 - bit), endAt := max b.endAt s.cycle }
    if b.phase = 1 ∧ b.waits = 0 then runPhase2 { b with phase := 2 } s else setBnd b s
  | none => s

/-! ## The trigger and the new step (R159) -/

/-- Whether a semaphore trigger is due: MODE is 1 and SEM holds at least NUM. -/
def semTrigger (s : State) : Bool :=
  bitF Fld.BPM_STEP_CTL_MODE (rd Reg.BPM_STEP_CTL s) &&
    rdF Reg.BPM_STEP_CTL Fld.BPM_STEP_CTL_NUM s ≤ semValue (rdF Reg.BPM_STEP_CTL Fld.BPM_STEP_CTL_SEM s) s

/-- Enter phase 1; the rest of the boundary follows in the same step. -/
def boundaryEnter (s : State) : State :=
  let s := wrF Reg.BPM_STEP_STATUS Fld.BPM_STEP_STATUS_BUSY 1 (showPhase 1 s)
  defer .boundary (setBnd ⟨1, s.cycle, 0, false, [], none, []⟩ s)

/-- Begin a boundary where a trigger is due, none runs, no teardown still has slots to empty and the units run (R159, R366,
R419). -/
def boundaryTry (s : State) : State :=
  if s.pool.bnd.isSome || !s.ctxs.step7.isEmpty || decide (s.dev < 4) || decide (7 < s.dev) then s
  else if s.pool.triggers > 0 then
    boundaryEnter { s with pool := { s.pool with triggers := s.pool.triggers - 1 } }
  else if semTrigger s then
    let n := rdF Reg.BPM_STEP_CTL Fld.BPM_STEP_CTL_SEM s
    boundaryEnter (tbWF (Tab.SEM n) Fld.SEM_VALUE (semValue n s - rdF Reg.BPM_STEP_CTL Fld.BPM_STEP_CTL_NUM s) s)
  else s

/-- A write of BPM_STEP_END: with MODE 0 it triggers a boundary, held while one runs. -/
def stepEndWrite (v : Word) (s : State) : State :=
  if bitF Fld.BPM_STEP_END_END v && !bitF Fld.BPM_STEP_CTL_MODE (rd Reg.BPM_STEP_CTL s) then
    boundaryTry { s with pool := { s.pool with triggers := s.pool.triggers + 1 } }
  else s

/-- The new step begins at the first frame start after phase 5 (R159). -/
def newStep (s : State) : State :=
  match s.pool.bnd with
  | some b =>
    if b.phase = 6 then
      let s := advanceTo (frameFrom (max b.endAt s.cycle)) s
      let s := wr Reg.TIR_STEP_START (w64 s.cycle) { s with pool := { s.pool with bnd := none } }
      let n := rdF Reg.BPM_STEP_STATUS Fld.BPM_STEP_STATUS_STEP s
      wr Reg.BPM_STEP_STATUS (w64 ((n + 1) % 2 ^ 32)) s
    else s
  | none => s

/-- The slots and joins of a torn context are emptied (R366, step 7). -/
def slotsTorn (c : Nat) (s : State) : State :=
  let ls := (usedSlots s).filter (fun n => slotIn c n s)
  let s := ls.foldl (fun s n => slotLeave n 7 s) s
  let js := s.pool.intake.filter (fun j => j.ctx == c)
  let s := { s with pool := { s.pool with intake := s.pool.intake.filter (fun j => j.ctx != c) } }
  js.foldl (fun s j => postJoin j 7 s) s

end Sys2Proof.Machine
end

