-- ==== Sys2Proof/Machine/Sander.lean ====
section
/-!
DEFINITION. The Sander unit's functions (R31 to R33): table values computed exactly by integer
arithmetic in fixed point with 160 fraction bits, then rounded once to FP32.
-/
namespace Sys2Proof.Machine

/-! ## Fixed point with 160 fraction bits -/

/-- 1 in fixed point. -/
def fxOne : Nat := 2 ^ 160
/-- Product in fixed point. -/
def fxMul (a b : Nat) : Nat := a * b / 2 ^ 160
/-- Quotient in fixed point. -/
def fxDiv (a b : Nat) : Nat := a * 2 ^ 160 / b
/-- Square root in fixed point. -/
def fxSqrt (a : Nat) : Nat := Nat.sqrt (a * 2 ^ 160)

/-- Sum of `x^(2k+1)/(2k+1)` from term `k`, `p` being the current odd power of `x` and `x2` its square. -/
def fxAtanh : Nat → Nat → Nat → Nat → Nat
  | 0, _, _, _ => 0
  | n + 1, k, p, x2 => p / (2 * k + 1) + fxAtanh n (k + 1) (fxMul p x2) x2

/-- Natural logarithm of a fixed-point number in [1, 2). -/
def fxLn (a : Nat) : Nat :=
  let x := fxDiv (a - fxOne) (a + fxOne)
  2 * fxAtanh 64 0 x (fxMul x x)

/-- ln 2 in fixed point. -/
def fxLn2 : Nat :=
  let x := fxDiv fxOne (3 * fxOne)
  2 * fxAtanh 64 0 x (fxMul x x)

/-- The exponential series from term `k`, `t` being the current term. -/
def fxExpSeries : Nat → Nat → Nat → Nat → Nat
  | 0, _, _, _ => 0
  | n + 1, k, t, x => t + fxExpSeries n (k + 1) (fxMul t x / (k + 1)) x

/-- 2 to the power of a fixed-point number in [0, 1). -/
def fxExp2 (c : Nat) : Nat := fxExpSeries 60 0 fxOne (fxMul c fxLn2)

/-- A fixed-point number as an exact value with a sign. -/
def fxVal (neg : Bool) (a : Nat) : FVal := .fin neg a (-160)

/-- The values t0, t1, t2 of a table segment, each rounded once to FP32 (R32), from signed fixed-point numbers. -/
def tableRow (g0 g1 g2 : Bool × Nat) : FVal × FVal × FVal :=
  ((rnta (fxVal g0.1 g0.2)).1, (rnta (fxVal g1.1 g1.2)).1, (rnta (fxVal g2.1 g2.2)).1)

/-- Segment `i` of 2^x on [0, 1). -/
def tableExp (i : Nat) : FVal × FVal × FVal :=
  let g := fxExp2 ((2 * i + 1) * 2 ^ 151)
  tableRow (false, g) (false, fxMul g fxLn2) (false, fxMul (fxMul g fxLn2) fxLn2 / 2)

/-- Segment `i` of log2 on [1, 2). -/
def tableLog (i : Nat) : FVal × FVal × FVal :=
  let c := fxOne + (2 * i + 1) * 2 ^ 151
  let d := fxMul c fxLn2
  tableRow (false, fxDiv (fxLn c) fxLn2) (false, fxDiv fxOne d) (true, fxDiv fxOne (fxMul c d) / 2)

/-- Segment `i` of 1/m on [1, 2). -/
def tableRecip (i : Nat) : FVal × FVal × FVal :=
  let n := 512 + 2 * i + 1
  tableRow (false, 512 * fxOne / n) (true, 512 ^ 2 * fxOne / n ^ 2) (false, 512 ^ 3 * fxOne / n ^ 3)

/-- The centre of segment `i` on [1, 4) in fixed point. -/
def centre14 (i : Nat) : Nat := fxOne + 3 * (2 * i + 1) * 2 ^ 151

/-- Segment `i` of m^(-1/2) on [1, 4). -/
def tableRsqrt (i : Nat) : FVal × FVal × FVal :=
  let c := centre14 i
  let r := fxDiv fxOne (fxSqrt c)
  tableRow (false, r) (true, fxDiv r c / 2) (false, 3 * fxDiv (fxDiv r c) c / 8)

/-- Segment `i` of m^(1/2) on [1, 4). -/
def tableSqrt (i : Nat) : FVal × FVal × FVal :=
  let c := centre14 i
  let s := fxSqrt c
  tableRow (false, s) (false, fxDiv fxOne s / 2) (true, fxDiv (fxDiv fxOne s) c / 8)

/-- A result and its flags, threaded through basic steps. -/
abbrev FlVal := FVal × Nat

/-- The four steps of R32 in a segment: `d` is m minus the centre, rounded. -/
def evalTable (t : FVal × FVal × FVal) (m centre : FVal) : FlVal :=
  let d := subStep m centre
  let u := mulStep d.1 t.2.2
  let v := addStep t.2.1 u.1
  let w := mulStep d.1 v.1
  let y := addStep t.1 w.1
  (y.1, d.2 ||| u.2 ||| v.2 ||| w.2 ||| y.2)

/-- floor of a finite value times 2^k, for a value that is not negative. -/
def floorScaled (v : FVal) (k : Int) : Nat :=
  match v with
  | .fin _ m e => if e + k ≥ 0 then m * 2 ^ (e + k).toNat else m / 2 ^ (-(e + k)).toNat
  | _ => 0

/-- The segment of a reduced argument in [0, 1). -/
def segUnit (m : FVal) : Nat := floorScaled m 8
/-- The segment of a reduced argument in [1, 2). -/
def segOne (m : FVal) : Nat := floorScaled m 8 - 256
/-- The segment of a reduced argument in [1, 4): floor of (m - 1) * 256 / 3. -/
def segFour (m : FVal) : Nat :=
  match m with
  | .fin _ k e => if e ≥ 0 then (k * 2 ^ e.toNat * 256 - 256) / 3 else (k * 256 - 256 * 2 ^ (-e).toNat) / (3 * 2 ^ (-e).toNat)
  | _ => 0

/-- The centre of segment `i` on [lo, lo + 1). -/
def centreUnit (lo i : Nat) : FVal := .fin false (512 * lo + 2 * i + 1) (-9)
/-- The centre of segment `i` on [1, 4). -/
def centreFour (i : Nat) : FVal := .fin false (512 + 3 * (2 * i + 1)) (-9)

/-- Normalise a positive finite value: its mantissa in [1, 2) and its exponent. -/
def normOne (m : Nat) (e : Int) : FVal × Int := (.fin false m (-(Nat.log2 m : Int)), (Nat.log2 m : Int) + e)

/-- Normalise to a mantissa in [1, 4) and an even exponent. -/
def normFour (m : Nat) (e : Int) : FVal × Int :=
  let k : Int := (Nat.log2 m : Int) + e
  let ev : Int := if k % 2 = 0 then k else k - 1
  (.fin false m (e - ev), ev)

/-- log2 e rounded to FP32 (the constant L of R33). -/
def constL : FVal := (rnta (fxVal false (fxDiv fxOne fxLn2))).1
/-- ln 2 rounded to FP32 (the constant L2 of R33). -/
def constL2 : FVal := (rnta (fxVal false fxLn2)).1

/-- floor of a finite value as an integer. -/
def floorInt (v : FVal) : Int :=
  match v with
  | .fin n m e =>
    let s : Int := if n then -(m : Int) else m
    if e ≥ 0 then s * ((2 ^ e.toNat : Nat) : Int) else s / ((2 ^ (-e).toNat : Nat) : Int)
  | _ => 0

/-- An integer as an exact value. -/
def ofIntF (i : Int) : FVal := .fin (decide (i < 0)) i.natAbs 0

/-- EXP, 0x10 (R33). -/
def fnExp (x : FVal) : FlVal :=
  match x with
  | .nan => (.nan, 0)
  | .inf n => (if n then .fin false 0 0 else .inf false, 0)
  | .fin neg _ _ =>
    let t := mulStep x constL
    if isInf t.1 then
      (if neg then (.fin false 0 0, flUnderflow + flInexact) else (.inf false, flOverflow + flInexact))
    else
      let nn := floorInt t.1
      let f := subStep t.1 (ofIntF nn)
      let one := match f.1 with
        | .fin _ m e => decide (0 < m) && dyGe m e 1 0
        | _ => false
      let nn := if one then nn + 1 else nn
      let fr : FVal := if one then .fin false 0 0 else f.1
      let i := segUnit fr
      let g := evalTable (tableExp i) fr (centreUnit 0 i)
      let y := rnta (scaleF nn g.1)
      (y.1, t.2 ||| f.2 ||| g.2 ||| y.2)

/-- LOG, 0x11 (R33). -/
def fnLog (x : FVal) : FlVal :=
  match x with
  | .nan => (.nan, 0)
  | .inf n => if n then (.nan, flInvalid) else (.inf false, 0)
  | .fin neg m e =>
    if m = 0 then (.inf true, flDivZero)
    else if neg then (.nan, flInvalid)
    else
      let r := normOne m e
      let i := segOne r.1
      let g := evalTable (tableLog i) r.1 (centreUnit 1 i)
      let s := addStep (ofIntF r.2) g.1
      let y := mulStep s.1 constL2
      (y.1, g.2 ||| s.2 ||| y.2)

/-- RECIP, 0x12 (R33). -/
def fnRecip (x : FVal) : FlVal :=
  match x with
  | .nan => (.nan, 0)
  | .inf n => (.fin n 0 0, 0)
  | .fin neg m e =>
    if m = 0 then (.inf neg, flDivZero)
    else
      let r := normOne m e
      let i := segOne r.1
      let g := evalTable (tableRecip i) r.1 (centreUnit 1 i)
      let y := rnta (scaleF (-r.2) (if neg then negF g.1 else g.1))
      (y.1, g.2 ||| y.2)

/-- RSQRT, 0x13 (R33). -/
def fnRsqrt (x : FVal) : FlVal :=
  match x with
  | .nan => (.nan, 0)
  | .inf n => if n then (.nan, flInvalid) else (.fin false 0 0, 0)
  | .fin neg m e =>
    if m = 0 then (.inf neg, flDivZero)
    else if neg then (.nan, flInvalid)
    else
      let r := normFour m e
      let i := segFour r.1
      let g := evalTable (tableRsqrt i) r.1 (centreFour i)
      let y := rnta (scaleF (-(r.2 / 2)) g.1)
      (y.1, g.2 ||| y.2)

/-- SQRT, 0x14 (R33). -/
def fnSqrt (x : FVal) : FlVal :=
  match x with
  | .nan => (.nan, 0)
  | .inf n => if n then (.nan, flInvalid) else (.inf false, 0)
  | .fin neg m e =>
    if m = 0 then (.fin neg 0 0, 0)
    else if neg then (.nan, flInvalid)
    else
      let r := normFour m e
      let i := segFour r.1
      let g := evalTable (tableSqrt i) r.1 (centreFour i)
      let y := rnta (scaleF (r.2 / 2) g.1)
      (y.1, g.2 ||| y.2)

/-- LOGISTIC, 0x15 (R33). -/
def fnLogistic (x : FVal) : FlVal :=
  let e := fnExp (negF x)
  let s := addStep (.fin false 1 0) e.1
  let y := fnRecip s.1
  (y.1, e.2 ||| s.2 ||| y.2)

/-- TANH, 0x16 (R33). -/
def fnTanh (x : FVal) : FlVal :=
  let d := rnta (scaleF 1 x)
  let s := fnLogistic d.1
  let y := subStep (scaleF 1 s.1) (.fin false 1 0)
  (y.1, d.2 ||| s.2 ||| y.2)

/-- SILU, 0x17 (R33). -/
def fnSilu (x : FVal) : FlVal :=
  let s := fnLogistic x
  let y := mulStep x s.1
  (y.1, s.2 ||| y.2)

/-- Whether a Sander function code is defined (R33). -/
def sanderDefined (f : Nat) : Bool := f ≤ 0x07 || (0x10 ≤ f && f ≤ 0x17)

/-- One element of a SAND: the FP32 result and the flags of its steps (R31 to R33). -/
def sander (f : Nat) (x y : FVal) : FlVal :=
  if f = 0x00 then (x, 0)
  else if f = 0x01 ∨ f = 0x06 then addStep x y
  else if f = 0x02 then subStep x y
  else if f = 0x03 ∨ f = 0x07 then mulStep x y
  else if f = 0x04 then (maxF x y, 0)
  else if f = 0x05 then (minF x y, 0)
  else if f = 0x10 then fnExp x
  else if f = 0x11 then fnLog x
  else if f = 0x12 then fnRecip x
  else if f = 0x13 then fnRsqrt x
  else if f = 0x14 then fnSqrt x
  else if f = 0x15 then fnLogistic x
  else if f = 0x16 then fnTanh x
  else fnSilu x

end Sys2Proof.Machine
end

