-- ==== Sys2Proof/Machine/Flags.lean ====
section
/-!
DEFINITION. Exception flags: gathering them into the context's counters, recording the first event, and the
Clamp records that follow the row's gather points (R79, R81, R382 to R384).
-/
namespace Sys2Proof.Machine

/-- Add 1 to the counter of each class in `fl` of the context that owns the sequencer (R79). -/
def gather (b q fl : Nat) (s : State) : State :=
  match ctxOf b q s with
  | none => s
  | some c =>
    let s := if bitAt fl 0 then bump (Reg.CTX_EXC_INVALID c) s else s
    let s := if bitAt fl 1 then bump (Reg.CTX_EXC_DIVZERO c) s else s
    let s := if bitAt fl 2 then bump (Reg.CTX_EXC_OVERFLOW c) s else s
    let s := if bitAt fl 3 then bump (Reg.CTX_EXC_UNDERFLOW c) s else s
    if bitAt fl 4 then bump (Reg.CTX_EXC_INEXACT c) s else s

/-- The key of a sequencer in Clamp's numbers. -/
def seqKey (b q : Nat) : Nat := b * 2 + q

/-- A row gather point: the flags raised since the last one are gathered, and PG advances (R79, R382). -/
def rowGather (b q : Nat) (s : State) : State :=
  let sd := sideOf b q s
  let s := gather b q sd.rowFlags s
  let s := setSide b q { sd with rowFlags := 0 } s
  if bitF Fld.DET_CLAMP_CTL_EN (rd Reg.DET_CLAMP_CTL s) then
    { s with clamp := { s.clamp with
      pg := smPut (fun _ => 0) s.clamp.pg (seqKey b q) (smGet (fun _ => 0) s.clamp.pg (seqKey b q) + 1) } }
  else s

/-- The lowest class number of `fl` among the classes of `mask`. -/
def lowestClass (fl mask : Nat) : Option Nat := (upto 5).find? (fun k => bitAt fl k && bitAt mask k)

/-- Record the first event of a recorded class: the first of the elements, given as (element, flags) in the
order of R81, that raises one. -/
def excRecord (b unit acc pass : Nat) (events : List (Nat × Nat)) (s : State) : State :=
  if bitF Fld.BEN_EXC_FIRST_VALID (rd (Reg.BEN_EXC_FIRST b) s) then s
  else
    let mask := rdF (Reg.BEN_EXC_CTL b) Fld.BEN_EXC_CTL_RECORD s
    match events.findSome? (fun p => (lowestClass p.2 mask).map (fun k => (p.1, k))) with
    | none => s
    | some (el, k) =>
      let w := setF Fld.BEN_EXC_FIRST_CLASS (w64 (2 ^ 63)) k
      let w := setF Fld.BEN_EXC_FIRST_UNIT w unit
      let w := setF Fld.BEN_EXC_FIRST_BENCH w b
      let w := setF Fld.BEN_EXC_FIRST_ELEM w el
      let w := setF Fld.BEN_EXC_FIRST_ACC w acc
      wr (Reg.BEN_EXC_FIRST b) (setF Fld.BEN_EXC_FIRST_PASS w pass) s

/-- The classes that trap on bench `b` (R82). -/
def trapMask (b : Nat) (s : State) : Nat := rdF (Reg.BEN_EXC_CTL b) Fld.BEN_EXC_CTL_TRAP s

/-! ## Clamp (R382 to R384) -/

/-- Keep DET_CLAMP_STATUS.QUEUED equal to the queue's length. -/
def clampQueued (s : State) : State :=
  wrF Reg.DET_CLAMP_STATUS Fld.DET_CLAMP_STATUS_QUEUED s.clamp.queue.length s

/-- Compare a record with the twin's of the same BENCH, SEQ and ORD (R384). -/
def clampCompare (own twin : ClampRec) (s : State) : State :=
  let s := bump Reg.DET_CLAMP_RECORDS s
  if own.tile = twin.tile ∧ own.crc = twin.crc ∧ own.pg = twin.pg then s
  else
    let s := bump Reg.DET_CLAMP_MISMATCH s
    if bitF Fld.DET_CLAMP_STATUS_DIVERGED (rd Reg.DET_CLAMP_STATUS s) then s
    else
      let s := wrF Reg.DET_CLAMP_STATUS Fld.DET_CLAMP_STATUS_DIVERGED 1 s
      let w := setF Fld.DET_CLAMP_FIRST_BENCH (w64 (2 ^ 63)) own.bench
      let w := setF Fld.DET_CLAMP_FIRST_SEQ w own.seq
      let w := setF Fld.DET_CLAMP_FIRST_TILE w own.tile
      let s := wr Reg.DET_CLAMP_FIRST (setF Fld.DET_CLAMP_FIRST_PG w own.pg) s
      let s := wr Reg.DET_CLAMP_FIRST2 (w64 (twin.crc * 2 ^ 32 + own.crc)) s
      let c := ctxOf own.bench own.seq s
      let s := log 0x0A01 kBench (seqKey own.bench own.seq) c
        [rd Reg.DET_CLAMP_FIRST s, rd Reg.DET_CLAMP_FIRST2 s] s
      match c with
      | some c => if bitF Fld.DET_CLAMP_CTL_HALT (rd Reg.DET_CLAMP_CTL s) then ctxFault c 0x0A01 s else s
      | none => s

/-- Whether two records are partners (R384). -/
def ClampRec.partner (x y : ClampRec) : Bool := x.bench == y.bench && x.seq == y.seq && x.ord == y.ord

/-- A record made is sent, whether or not it has been compared by then. -/
def clampOut (x : ClampRec) (s : State) : State := { s with clamp := { s.clamp with out := s.clamp.out ++ [x] } }

/-- The oldest record of a full queue is discarded (R383). -/
def clampRoom (s : State) : State :=
  if s.clamp.queue.length < 8192 then s
  else
    let gone := s.clamp.queue.take 1
    let s := { s with clamp := { s.clamp with
      queue := s.clamp.queue.drop 1, out := s.clamp.out.filter (fun z => !gone.contains z) } }
    let s := bump Reg.DET_CLAMP_SKIPPED s
    if bitF Fld.DET_CLAMP_STATUS_OVF (rd Reg.DET_CLAMP_STATUS s) then s
    else log 0x0A02 kNone 0 none [rd Reg.DET_CLAMP_SKIPPED s]
      (wrF Reg.DET_CLAMP_STATUS Fld.DET_CLAMP_STATUS_OVF 1 s)

/-- Make the Clamp record of a tile that a STORE or SAND has written (R382, R383). A record whose partner has come
already is compared at once and still sent. -/
def clampMake (b q tile crc pg : Nat) (s : State) : State :=
  let ctl := rd Reg.DET_CLAMP_CTL s
  match ctxOf b q s with
  | none => s
  | some c =>
    if !(bitF Fld.DET_CLAMP_CTL_EN ctl && bitAt (getF Fld.DET_CLAMP_CTL_CTXMASK ctl) c) then s
    else
      let ord := smGet (fun _ => 0) s.clamp.ord (seqKey b q)
      let x : ClampRec := ⟨b, q, tile, crc, pg, ord⟩
      let s := { s with clamp := { s.clamp with ord := smPut (fun _ => 0) s.clamp.ord (seqKey b q) (ord + 1) } }
      match s.clamp.early.find? (x.partner ·) with
      | some y =>
        let s := clampOut x s
        clampCompare x y { s with clamp := { s.clamp with early := s.clamp.early.filter (fun z => !x.partner z) } }
      | none =>
        let s := clampOut x (clampRoom s)
        clampQueued { s with clamp := { s.clamp with queue := s.clamp.queue ++ [x] } }

/-- The twin's record arrives (R383, R384): compared with its partner, kept where its partner is still to be
made, dropped where its partner has been discarded. -/
def clampArrive (y : ClampRec) (s : State) : State :=
  match s.clamp.queue.find? (y.partner ·) with
  | some x =>
    clampCompare x y (clampQueued { s with clamp := { s.clamp with
      queue := s.clamp.queue.filter (fun z => !y.partner z) } })
  | none =>
    if y.ord < smGet (fun _ => 0) s.clamp.ord (seqKey y.bench y.seq) then s
    else { s with clamp := { s.clamp with early := s.clamp.early ++ [y] } }

end Sys2Proof.Machine
end

