-- ==== Sys2Proof/Machine/Operands.lean ====
section
/-!
DEFINITION. The Slasal words: opcodes, fields, reserved bits and effective operands (R45 to R47).
-/
namespace Sys2Proof.Machine

/-- The instructions of R45, MOVE.I and MOVE.T and BRANCH by their variant. -/
inductive Slasal where
  | nop | pass | swap | shave | sand | loadStile | loadHold | store
  | moveISet | moveIAdd | moveIShl | moveIGet | moveTOut | moveTIn
  | send | recv | semWait | semSignal | sync | loop
  | branchEq | branchNe | branchLt | branchGe | branchLtu | branchGeu | branchAl
  | halt | trap
  deriving DecidableEq, Repr

/-- The opcode of a word. -/
def slOpcode (w : Word) : Nat := getF ⟨56, 8⟩ w

/-- The bits that an instruction's fields take, opcode aside (R46). -/
def slUsed (k : Slasal) : Word :=
  match k with
  | .nop | .halt => 0
  | .pass => 0x00FFFFFFFFFFF000
  | .swap => 0x00FC000000000000
  | .shave => 0x0003FFFFFFFFFC00
  | .sand => 0x00FFFFFFFFFFFFFE
  | .loadStile | .loadHold => 0x00FFFE0000000000
  | .store => 0x00FFFFFFFFFC0000
  | .moveISet | .moveIAdd | .moveIShl | .moveIGet => 0x00FFC000FFFFFFFF
  | .moveTOut | .moveTIn => 0x00FFFFFFFFF00000
  | .send | .recv => 0x00FFF8FFFFFFE000
  | .semWait | .semSignal => 0x00FFFFFF00000000
  | .sync => 0x00FF000000000000
  | .loop => 0x00FFFFFFFFFFFFFF
  | .branchEq | .branchNe | .branchLt | .branchGe | .branchLtu | .branchGeu | .branchAl => 0x00FFFFFF80001FFF
  | .trap => 0x000000000000FFFF

/-- The instruction that an opcode with its variant bits names (R45, R46). -/
def slOp (w : Word) : Option Slasal :=
  let op := slOpcode w
  if op = 0x01 then some .nop
  else if op = 0x10 then some .pass
  else if op = 0x11 then some .swap
  else if op = 0x20 then some .shave
  else if op = 0x28 then some .sand
  else if op = 0x30 then some .loadStile
  else if op = 0x31 then some .loadHold
  else if op = 0x38 then some .store
  else if op = 0x40 then
    some (match getF ⟨46, 2⟩ w with | 0 => .moveISet | 1 => .moveIAdd | 2 => .moveIShl | _ => .moveIGet)
  else if op = 0x41 then some (if getF ⟨42, 1⟩ w = 0 then .moveTOut else .moveTIn)
  else if op = 0x50 then some .send
  else if op = 0x51 then some .recv
  else if op = 0x58 then some .semWait
  else if op = 0x59 then some .semSignal
  else if op = 0x60 then some .sync
  else if op = 0x70 then some .loop
  else if op = 0x78 then some .branchEq
  else if op = 0x79 then some .branchNe
  else if op = 0x7A then some .branchLt
  else if op = 0x7B then some .branchGe
  else if op = 0x7C then some .branchLtu
  else if op = 0x7D then some .branchGeu
  else if op = 0x7E then some .branchAl
  else if op = 0xF0 then some .halt
  else if op = 0xF1 then some .trap
  else none

/-- The instruction of a word: none for an undefined opcode or a non-zero reserved bit (R45, R46). -/
def slDecode (w : Word) : Option Slasal :=
  match slOp w with
  | none => none
  | some k => if w &&& 0x00FFFFFFFFFFFFFF &&& ~~~(slUsed k) = 0 then some k else none

/-! Fields, by instruction (R46). -/
def Sl.PASS_TAG : Fld := ⟨50, 6⟩
def Sl.PASS_ACC : Fld := ⟨44, 6⟩
def Sl.PASS_XA : Fld := ⟨40, 4⟩
def Sl.PASS_ZERO : Fld := ⟨39, 1⟩
def Sl.PASS_XT : Fld := ⟨35, 4⟩
def Sl.PASS_TILE : Fld := ⟨26, 9⟩
def Sl.PASS_XB : Fld := ⟨22, 4⟩
def Sl.PASS_BEAT : Fld := ⟨12, 10⟩
def Sl.SHAVE_HOFF : Fld := ⟨10, 12⟩
def Sl.SAND_FUNC : Fld := ⟨48, 8⟩
def Sl.SAND_XS : Fld := ⟨44, 4⟩
def Sl.SAND_SRC : Fld := ⟨35, 9⟩
def Sl.SAND_XU : Fld := ⟨31, 4⟩
def Sl.SAND_SRC2 : Fld := ⟨22, 9⟩
def Sl.SAND_XD : Fld := ⟨18, 4⟩
def Sl.SAND_DST : Fld := ⟨9, 9⟩
def Sl.SAND_DFMT : Fld := ⟨1, 8⟩
def Sl.XT : Fld := ⟨52, 4⟩
def Sl.TILE : Fld := ⟨43, 9⟩
def Sl.LOAD_PART : Fld := ⟨41, 2⟩
def Sl.STORE_ACC : Fld := ⟨50, 6⟩
def Sl.STORE_XA : Fld := ⟨46, 4⟩
def Sl.STORE_NACC : Fld := ⟨40, 6⟩
def Sl.STORE_XT : Fld := ⟨36, 4⟩
def Sl.STORE_TILE : Fld := ⟨27, 9⟩
def Sl.STORE_DFMT : Fld := ⟨19, 8⟩
def Sl.STORE_CLR : Fld := ⟨18, 1⟩
def Sl.MOVEI_XD : Fld := ⟨52, 4⟩
def Sl.MOVEI_XS : Fld := ⟨48, 4⟩
def Sl.MOVEI_IMM : Fld := ⟨0, 32⟩
def Sl.MOVET_FDESC : Fld := ⟨32, 10⟩
def Sl.MOVET_NT : Fld := ⟨24, 8⟩
def Sl.MOVET_XN : Fld := ⟨20, 4⟩
def Sl.SEND_DESC : Fld := ⟨28, 12⟩
def Sl.SEND_XN : Fld := ⟨24, 4⟩
def Sl.SEND_NT : Fld := ⟨13, 11⟩
def Sl.SEM_XS : Fld := ⟨52, 4⟩
def Sl.SEM_SEM : Fld := ⟨40, 12⟩
def Sl.SEM_NUM : Fld := ⟨32, 8⟩
def Sl.SYNC_MASK : Fld := ⟨48, 8⟩
def Sl.LOOP_CSEL : Fld := ⟨52, 4⟩
def Sl.LOOP_COUNT : Fld := ⟨39, 13⟩
def Sl.LOOP_END : Fld := ⟨26, 13⟩
def Sl.LOOP_XA : Fld := ⟨22, 4⟩
def Sl.LOOP_SA : Fld := ⟨13, 9⟩
def Sl.LOOP_XB : Fld := ⟨9, 4⟩
def Sl.LOOP_SB : Fld := ⟨0, 9⟩
def Sl.BRANCH_XA : Fld := ⟨52, 4⟩
def Sl.BRANCH_XB : Fld := ⟨48, 4⟩
def Sl.BRANCH_IMM : Fld := ⟨47, 1⟩
def Sl.BRANCH_IMMV : Fld := ⟨31, 16⟩
def Sl.BRANCH_TARGET : Fld := ⟨0, 13⟩
def Sl.TRAP_CODE : Fld := ⟨0, 16⟩

/-- Index register `x` of a sequencer; I0 reads 0 (R39). -/
def Seq.index (q : Seq) (x : Nat) : Nat := if x = 0 then 0 else smGet (fun _ => 0) q.idx x

/-- Write an index register, modulo 2^32; a write to I0 has no effect (R39). -/
def Seq.setIndex (q : Seq) (x v : Nat) : Seq :=
  if x = 0 then q else { q with idx := smPut (fun _ => 0) q.idx x (v % 2 ^ 32) }

/-- The effective operand: field plus index register, in unsigned 32-bit arithmetic (R47). -/
def effOp (f x : Fld) (w : Word) (q : Seq) : Nat := (getF f w + q.index (getF x w)) % 2 ^ 32

/-- Whether a taken comparison of BRANCH holds between two 32-bit values (R47). -/
def branchTest (k : Slasal) (a b : Nat) : Bool :=
  match k with
  | .branchEq => a == b
  | .branchNe => a != b
  | .branchLt => decide (signExt 32 a < signExt 32 b)
  | .branchGe => decide (signExt 32 b ≤ signExt 32 a)
  | .branchLtu => decide (a < b)
  | .branchGeu => decide (b ≤ a)
  | _ => true

/-- The address after the instruction at `pc` where no branch is taken, with the loops and index registers
after any loop return (R40, R42): the innermost loops that end at `pc` return or exit. -/
def loopReturn (pc : Nat) : List LoopFrame → Seq → Nat × Seq
  | [], q => (pc + 1, { q with loops := [] })
  | f :: fs, q =>
    if f.last = pc then
      let q := q.setIndex f.xa (wrap32 (q.index f.xa + f.sa))
      let q := q.setIndex f.xb (wrap32 (q.index f.xb + f.sb))
      if f.left > 0 then (f.first, { q with loops := { f with left := f.left - 1 } :: fs })
      else loopReturn pc fs q
    else (pc + 1, { q with loops := f :: fs })

/-- A sequencer moved on from the instruction at `pc`. -/
def Seq.advance (q : Seq) (pc : Nat) : Seq :=
  let r := loopReturn pc q.loops q
  { r.2 with pc := r.1 }

/-- The address of the instruction that a sequencer issues next, which lies past one that blocks it (R41, R54). -/
def Seq.shown (q : Seq) : Nat :=
  match q.blocked with
  | .recv _ => (q.advance q.pc).pc
  | .semWait _ _ _ => (q.advance q.pc).pc
  | .sync _ _ _ => (q.advance q.pc).pc
  | _ => q.pc

/-- A sequencer stopped in state `st`, blocked no more. -/
def Seq.stopped (q : Seq) (st : SeqSt) : Seq := { q with st := st, blocked := .no, pc := q.shown }

/-- The loops that stay active after a taken branch to `t`: a loop whose body does not hold the target ends
with every loop nested in it (R43). -/
def loopsAfter (t : Nat) : List LoopFrame → List LoopFrame
  | [] => []
  | f :: fs =>
    let rest := loopsAfter t fs
    if rest.length = fs.length ∧ f.first ≤ t ∧ t ≤ f.last then f :: rest else rest

/-- A sequencer after a taken branch to `t`. -/
def Seq.jump (q : Seq) (t : Nat) : Seq := { q with loops := loopsAfter t q.loops, pc := t }

end Sys2Proof.Machine
end

