-- ==== Sys2Proof/Machine/Units.lean ====
section
/-!
DEFINITION. What the units of a bench share: bench faults, uses of tiles, the interlocks of R50, and the choice
of a shared unit (R52, R53, R92 to R97, R357).
-/
namespace Sys2Proof.Machine

/-! ## Bench faults (R52, R53) -/

/-- Causes of R53. -/
def cIllegalOp : Nat := 1
def cBadTile : Nat := 2
def cBadOffset : Nat := 3
def cBadAcc : Nat := 4
def cBadFormat : Nat := 5
def cBadTarget : Nat := 6
def cChecksum : Nat := 7
def cArith : Nat := 8
def cTrap : Nat := 9
def cRecvOverflow : Nat := 10
def cSemOwner : Nat := 11

/-- The tag of a PASS or SWAP word. -/
def tagOf (w : Word) : Nat := getF Sl.PASS_TAG w

/-- The pending SWAPs whose tagged PASS has issued and waits in the row queue: each pass is matched to the
first pending SWAP before it with its tag (R23). -/
def matchedSwaps : List UOp → List Swap → List Swap
  | [], _ => []
  | p :: ps, sw =>
    match sw.find? (fun x => x.tag == tagOf p.word && x.po < p.po) with
    | some x => x :: matchedSwaps ps (sw.filter (· != x))
    | none => matchedSwaps ps sw

/-- Discard every pending SWAP whose tagged PASS has not issued (R26, R52). -/
def discardSwaps (b q : Nat) (s : State) : State :=
  let sq := seqOf b q s
  let keep := matchedSwaps (sideOf b q s).rowQ sq.swaps
  setSeq b q { sq with swaps := sq.swaps.filter (fun x => keep.contains x) } s

/-- The BEN_FAULT register of a sequencer. -/
def faultReg (b q : Nat) : Nat := if q = 0 then Reg.BEN_FAULT0 b else Reg.BEN_FAULT1 b

/-- A fault of sequencer `q` of bench `b` at address `pc`: issue stops, the fault is recorded, and the owning
context faults. A second fault of a stopped sequencer is not recorded. -/
def benchFault (b q cause code pc : Nat) (s : State) : State :=
  let sq := seqOf b q s
  if sq.st = .fault ∨ sq.st = .idle then s
  else
    let s := setSeq b q (sq.stopped .fault) s
    let s := discardSwaps b q s
    let w := setF Fld.BEN_FAULT0_CODE (w64 (2 ^ 63)) code
    let s := wr (faultReg b q) (setF Fld.BEN_FAULT0_CAUSE (setF Fld.BEN_FAULT0_PC w pc) cause) s
    let c := ctxOf b q s
    let ds := [rd (faultReg b q) s] ++
      (if cause = cChecksum then [rd (Reg.BEN_CHECK_FIRST b) s]
       else if cause = cArith then [rd (Reg.BEN_EXC_FIRST b) s] else [])
    let s := log (0x0B00 + cause) kBench (seqKey b q) c ds s
    match c with
    | some c => ctxFault c (0x0B00 + cause) s
    | none => s

/-- A unit's instruction faults (R52). -/
def opFault (b q cause : Nat) (op : UOp) (s : State) : State := benchFault b q cause 0 op.pc s

/-! ## Uses of tiles (R86, R92, R94 to R97) -/

/-- Start the re-fetch of a failed tile, or join the one that runs (R95, R96, R97). -/
def startRefetch (b t who : Nat) (s : State) : UseRes × State :=
  let y := benchOf b s
  match y.refetch.find? (fun r => r.tile == t) with
  | some _ =>
    (.refetch, setBench b { y with refetch := y.refetch.map (fun r =>
      if r.tile == t then { r with units := r.units ++ [who] } else r) } s)
  | none =>
    if !refetchable b t s then (.fault, s)
    else
      match mapOf b t s with
      | none => (.fault, s)
      | some (o, i) =>
        match refetchBook o i s with
        | none => (.fault, tierLog 0x0504 o (reqWord 1 (objF o 0 Fld.OBJ0_OWNER s) (objF o 0 Fld.OBJ0_OBJECT s))
            (bump Reg.TIR_BAD_REQ s))
        | some (due, s) =>
          let s := bump (Reg.BEN_TILE_REFETCH b) s
          let y := benchOf b s
          (.refetch, setBench b { y with refetch := y.refetch ++ [⟨t, [who], due⟩] } s)

/-- One use of tile `t` of bench `b` with UNIT code `unit`, on behalf of `who`. -/
def useTileAs (b t unit who : Nat) (e : Ecc) (s : State) : UseRes × State :=
  let s := eccBad b t e s
  if checkOk b t s then
    let s := if (benchOf b s).refetched.contains t then setOutcome b t 1 s else s
    if fmtDefined (tagF Fld.TAG_FORMAT (benchTag b t s)) then (.pass, s) else (.badFormat, s)
  else
    match startRefetch b t who (countFail b t unit s) with
    | (.refetch, s) => (.refetch, s)
    | (_, s) => (.fault, setOutcome b t 2 s)

/-- One use of tile `t` of bench `b` by the reader with UNIT code `unit` for sequencer `q`. -/
def useTile (b q t unit : Nat) (e : Ecc) (s : State) : UseRes × State := useTileAs b t unit (unit * 2 + q) e s

/-- The uses of a list of tiles in order; the first that does not pass ends them. -/
def useTiles (b q unit : Nat) (e : Ecc) : List Nat → State → UseRes × State
  | [], s => (.pass, s)
  | t :: ts, s =>
    match useTile b q t unit e s with
    | (.pass, s) => useTiles b q unit e ts s
    | r => r

/-- Whether a reader waits for a re-fetch (R96): a UNIT code, or 16 and more for companion reads. -/
def heldUnit (b q unit : Nat) (s : State) : Bool :=
  (benchOf b s).refetch.any (fun r => r.units.contains (unit * 2 + q))

/-- The FORMAT of a bench tile's tag. -/
def fmtOf (b t : Nat) (s : State) : Nat := tagF Fld.TAG_FORMAT (benchTag b t s)

/-- Elements that tile `t` holds in its own format. -/
def elemsIn (b t : Nat) (s : State) : Nat := elemsOf (fmtOf b t s) (benchTag b t s)

/-! ## Converters (R70, R71) -/

/-- Converters: rail, stile, Shave weights, held vector, Sander input, store encoder. -/
def convRail : Nat := 0
def convStile : Nat := 1
def convShave : Nat := 2
def convHeld : Nat := 3
def convSand : Nat := 4
def convStore : Nat := 5

/-- What a converter needs before it reads or writes a tile: nothing, a codebook with the cycles that reading
its companion adds, or a stop. -/
inductive CbRes where
  | none
  | book (vals : List FVal) (extra : Nat)
  | hold
  | stop (cause : Nat)
  deriving DecidableEq, Repr

/-- Read the companion `comp` for a converter, which keeps the last codebook it read (R71). -/
def readCompanion (b q conv who comp fmt record : Nat) (e : Ecc) (s : State) : CbRes × State :=
  let sd := sideOf b q s
  if sd.cbs.contains (conv, comp) then
    (.book (codebook fmt record (benchTile b comp s).payload) 0, s)
  else
    match useTileAs b comp 5 ((16 + who) * 2 + q) e s with
    | (.pass, s) =>
      let sd := sideOf b q s
      let s := setSide b q { sd with cbs := sd.cbs.filter (fun p => p.1 != conv) ++ [(conv, comp)] } s
      (.book (codebook fmt record (benchTile b comp s).payload) 8, s)
    | (.refetch, s) => (.hold, s)
    | (.fault, s) => (.stop cChecksum, s)
    | (.badFormat, s) => (.stop cBadFormat, s)

/-- The codebook that reading tile `t` takes (R70 to R73). -/
def bookFor (b q conv t : Nat) (e : Ecc) (s : State) : CbRes × State :=
  let tag := benchTag b t s
  let fmt := tagF Fld.TAG_FORMAT tag
  if !isCb fmt then (.none, s)
  else
    match companion t tag with
    | none => (.stop cBadTile, s)
    | some comp =>
      if !runInTiles b q comp 1 s then (.stop cBadTile, s)
      else readCompanion b q conv conv comp fmt (tagF Fld.TAG_SIDE tag % 64) e s

/-- The codebook that encoding into tile `dst` in format `fmt` takes: the companion is tile dst - 1 (R74). -/
def bookForEncode (b q who dst fmt : Nat) (e : Ecc) (s : State) : CbRes × State :=
  if !isCb fmt then (.none, s)
  else if dst = 0 then (.stop cBadTile, s)
  else if !runInTiles b q (dst - 1) 1 s then (.stop cBadTile, s)
  else readCompanion b q convStore who (dst - 1) fmt 0 e s

/-- The result of reading elements for a unit: values with the cycles that companions add, a hold on a
re-fetch, or a fault's cause. -/
inductive ReadRes where
  | vals (v : List FVal) (extra : Nat)
  | hold
  | stop (cause : Nat)
  deriving DecidableEq, Repr

/-- One use of a tile and its element values. -/
def readTile (b q unit conv t : Nat) (e : Ecc) (s : State) : ReadRes × State :=
  match useTile b q t unit e s with
  | (.refetch, s) => (.hold, s)
  | (.fault, s) => (.stop cChecksum, s)
  | (.badFormat, s) => (.stop cBadFormat, s)
  | (.pass, s) =>
    match bookFor b q conv t e s with
    | (.hold, s) => (.hold, s)
    | (.stop c, s) => (.stop c, s)
    | (.none, s) => (.vals (tileVals (fmtOf b t s) (benchTile b t s) []) 0, s)
    | (.book v x, s) => (.vals (tileVals (fmtOf b t s) (benchTile b t s) v) x, s)

/-- Exactly `n` values: the list cut or filled with +0. -/
def fitVals (n : Nat) (l : List FVal) : List FVal :=
  (l ++ List.replicate (n - l.length) (FVal.fin false 0 0)).take n

/-- The values of the tiles `ts` of a run in the run's format, `per` elements to a tile (R64, R535). -/
def readRun (b q unit conv fmt per : Nat) (e : Ecc) : List Nat → State → ReadRes × State
  | [], s => (.vals [] 0, s)
  | t :: ts, s =>
    match readTile b q unit conv t e s with
    | (.vals v x, s) =>
      if fmtOf b t s ≠ fmt then (.stop cBadFormat, s)
      else
        match readRun b q unit conv fmt per e ts s with
        | (.vals w y, s) => (.vals (fitVals per v ++ w) (x + y), s)
        | r => r
    | r => r

/-! ## Tiles that instructions read and write (R50) -/

/-- A run of tiles. -/
def tileRun (t n : Nat) : List Nat := (upto n).map (t + ·)

/-- A tile with its companion, where it has one. -/
def withCompanion (b t : Nat) (s : State) : List Nat :=
  if isCb (fmtOf b t s) then (match companion t (benchTag b t s) with | some c => [t, c] | none => [t]) else [t]

/-- Depth of a stile in a format (R14). -/
def depthOf (fmt : Nat) : Nat := if fmt = fmtCB16 then 16 else 8

/-- Capacity of the held vector of a side in elements of a row width (R27, R35, R356). -/
def heldCap (b width : Nat) (s : State) : Nat :=
  (if split b s || shared b s then 2048 else 4096) * 8 / width

/-- Elements that a LOAD reads: the first in its run, and their number (R15, R27). -/
def loadSpan (b : Nat) (op : UOp) (s : State) : Nat × Nat :=
  let fmt := fmtOf b op.tile s
  let n := if op.kind = .stile then laneCount b s * depthOf fmt else heldCap b (heldWidth fmt) s
  (op.aux * n, n)

/-- The tiles of a run that hold elements `a` to `a + n - 1`, `per` to a tile. -/
def spanTiles (t a n per : Nat) : List Nat :=
  if per = 0 ∨ n = 0 then [] else (upto ((a + n - 1) / per + 1 - a / per)).map (t + a / per + ·)

/-- The tiles from which a LOAD reads. -/
def loadTiles (b : Nat) (op : UOp) (s : State) : List Nat :=
  let sp := loadSpan b op s
  spanTiles op.tile sp.1 sp.2 (elemsIn b op.tile s)

/-- The Floor descriptor of a MOVE.T. -/
def fdescOf (b i : Nat) (s : State) : Word := tb (Tab.FDESC (b * 1024 + i)) s
def Fld.FDESC_MITRE : Fld := ⟨62, 2⟩
def Fld.FDESC_ENDPOINT : Fld := ⟨48, 12⟩
def Fld.FDESC_REMOTE : Fld := ⟨39, 9⟩
def Fld.FDESC_SLOTS : Fld := ⟨0, 16⟩

/-- FUNC of a SAND. -/
def sandFunc (op : UOp) : Nat := getF Sl.SAND_FUNC op.word
/-- DFMT of a SAND. -/
def sandDfmt (op : UOp) : Nat := getF Sl.SAND_DFMT op.word
/-- Whether a SAND's function is binary (R31). -/
def sandBinary (op : UOp) : Bool := 1 ≤ sandFunc op && sandFunc op ≤ 5
/-- DFMT of a STORE. -/
def storeDfmt (op : UOp) : Nat := getF Sl.STORE_DFMT op.word
/-- CLR of a STORE. -/
def storeClr (op : UOp) : Bool := bitF Sl.STORE_CLR op.word

/-- The tiles of the SRC2 run of a SAND (R31). -/
def src2Tiles (b : Nat) (op : UOp) (s : State) : List Nat :=
  if sandBinary op then spanTiles op.aux 0 (elemsIn b op.tile s) (elemsIn b op.aux s) else []

/-- The tiles of its own bench that an instruction reads, companions included. -/
def opReads (b : Nat) (op : UOp) (s : State) : List Nat :=
  let comps := fun l => (l.map (fun t => withCompanion b t s)).flatten
  match op.kind with
  | .pass | .shave => withCompanion b op.tile s
  | .stile | .hold => op.tile :: comps (loadTiles b op s)
  | .sand => comps (op.tile :: src2Tiles b op s) ++ (if sandBinary op then [op.aux] else []) ++
      (if isCb (sandDfmt op) then [op.dst - 1] else [])
  | .store => if isCb (storeDfmt op) then [op.dst - 1] else []
  | .moveOut | .send => tileRun op.tile op.num
  | .moveIn =>
    let d := fdescOf b op.aux s
    if getF Fld.FDESC_ENDPOINT d = b then tileRun (getF Fld.FDESC_REMOTE d) op.num else []

/-- The tiles of its own bench that an instruction writes. -/
def opWrites (b : Nat) (op : UOp) (s : State) : List Nat :=
  match op.kind with
  | .sand | .store => [op.dst]
  | .moveIn => tileRun op.tile op.num
  | .moveOut =>
    let d := fdescOf b op.aux s
    if getF Fld.FDESC_ENDPOINT d = b then tileRun (getF Fld.FDESC_REMOTE d) op.num else []
  | _ => []

/-- The instructions of a side whose write has not completed. -/
def writers (sd : Side) : List UOp :=
  sd.sandQ ++ sd.storeQ ++ sd.sandRuns.map (·.op) ++ sd.storeRuns.map (·.op) ++ sd.moveQ.map (·.op)

/-- The instructions of a side that have still to read a tile. -/
def readers (sd : Side) : List UOp :=
  sd.rowQ ++ (sd.flights.filter (·.held.isSome)).map (·.op) ++ sd.loadQ ++ sd.shaveQ ++ sd.sandQ ++ sd.storeQ ++
    (sd.moveQ.filter (fun r => r.prog < r.op.num)).map (·.op) ++
    (sd.sends.filter (fun r => r.prog < r.op.num)).map (·.op)

/-- Whether two tile lists meet. -/
def meet (a b : List Nat) : Bool := a.any (fun x => b.contains x)

/-- Whether an earlier write holds the read of `op` (R50). -/
def readHeld (b q : Nat) (op : UOp) (s : State) : Bool :=
  let r := opReads b op s
  (writers (sideOf b q s)).any (fun w => w.po < op.po && meet (opWrites b w s) r)

/-- Whether an earlier write or an earlier read holds the landing of `op`'s write (R50). -/
def writeHeld (b q : Nat) (op : UOp) (s : State) : Bool :=
  let t := opWrites b op s
  let sd := sideOf b q s
  (writers sd).any (fun w => w.po < op.po && meet (opWrites b w s) t) ||
    (readers sd).any (fun r => r.po < op.po && meet (opReads b r s) t)

/-! ## Shared units (R357, R358, R362) -/

/-- Units of a bench that a SHARED bench's contexts share. -/
def uRow : Nat := 0
def uLoad : Nat := 1
def uShave : Nat := 2
def uSand : Nat := 3
def uStore : Nat := 4

/-- Whether some sequencer of context `c` waits for lock `n`. -/
def waitsOn (c n : Nat) (s : State) : Bool :=
  s.benches.any (fun p => (upto 2).any (fun q =>
    ctxOf p.1 q s == some c && (match (p.2.seq q).blocked with | .semWait k _ _ => k == n | _ => false)))

/-- Whether context `l` wins ties against context `h` under R362. -/
def defersOver (l h : Nat) (s : State) : Bool :=
  s.ctxs.deferrals.any (fun d => d.holder == l && waitsOn h d.lock s)

/-- Whether a unit of bench `b` takes side `h` rather than the other side, `other` telling whether the other
side's head can start (R357). -/
def chosen (b h unit : Nat) (other : Bool) (s : State) : Bool :=
  if !shared b s || !other then true
  else
    match ctxOf b h s, ctxOf b (1 - h) s with
    | some c, some d =>
      if effPrio c s < effPrio d s then true
      else if effPrio d s < effPrio c s then false
      else if defersOver c d s then true
      else if defersOver d c s then false
      else smGet (fun _ => 2) (benchOf b s).served unit != h
    | _, _ => true

/-- Record which side a unit served. -/
def serve (b h unit : Nat) (s : State) : State :=
  let y := benchOf b s
  setBench b { y with served := smPut (fun _ => 2) y.served unit h } s

/-- The first cycle in which a unit of side `h` is free: on a SHARED bench both sides use one unit. -/
def freeAt (b h : Nat) (f : Side → Nat) (s : State) : Nat :=
  if shared b s then max (f (sideOf b 0 s)) (f (sideOf b 1 s)) else f (sideOf b h s)

/-- Whether a bench is in reset (R434). -/
def inReset (b : Nat) (s : State) : Bool := (benchOf b s).resetDue.isSome

end Sys2Proof.Machine
end

