-- ==== Sys2Proof/Machine/Row.lean ====
section
/-!
DEFINITION. The row, the load unit, the Shave path, the Sander unit and the store unit of a bench
(spec/01_benches.md, 02).
-/
namespace Sys2Proof.Machine

/-! ## Stile banks (R23, R35, R37, R356) -/

/-- The bank that is active for lanes 0 to 127 or 128 to 255 of side `q`. -/
def activeBank (b q : Nat) (hi : Bool) (s : State) : Nat :=
  let y := benchOf b s
  if shared b s && q == 1 then 2 + b2n y.actB else b2n (if hi then y.actHi else y.actLo)

/-- The other bank of a pair. -/
def otherBank (n : Nat) : Nat := if n % 2 = 0 then n + 1 else n - 1

/-- The stiles that the lanes of side `q` take from their active banks. -/
def activeStile (b q : Nat) (s : State) : List LaneStile :=
  let y := benchOf b s
  let all := (y.bank (activeBank b q false s)).take 128 ++ (y.bank (activeBank b q true s)).drop 128
  (all.drop (laneBase b q s)).take (laneCount b s)

/-- Exchange the banks' roles for the lanes of side `q`. -/
def flipBanks (b q : Nat) (s : State) : State :=
  let y := benchOf b s
  if shared b s && q == 1 then setBench b { y with actB := !y.actB } s
  else if split b s then
    setBench b (if q = 0 then { y with actLo := !y.actLo } else { y with actHi := !y.actHi }) s
  else setBench b { y with actLo := !y.actLo, actHi := !y.actHi } s

/-- Replace `new.length` entries of a list from place `k` on. -/
def putAt {α : Type} (l : List α) (k : Nat) (new : List α) : List α :=
  l.take k ++ new ++ l.drop (k + new.length)

/-- Cut a list into `n` groups of `k`. -/
def groupsOf {α : Type} (k : Nat) : Nat → List α → List (List α)
  | 0, _ => []
  | n + 1, l => l.take k :: groupsOf k n (l.drop k)

/-- Write a stile into the shadow banks of the lanes of side `q` (R15, R25). -/
def writeShadow (b q width : Nat) (vals : List FVal) (s : State) : State :=
  let n := laneCount b s
  let stiles := (groupsOf (vals.length / n) n vals).map (fun v => (⟨width, v⟩ : LaneStile))
  let base := laneBase b q s
  let lo := if base < 128 then stiles.take (128 - base) else []
  let hi := if base < 128 then stiles.drop (128 - base) else stiles
  let kl := otherBank (activeBank b q false s)
  let kh := otherBank (activeBank b q true s)
  let y := benchOf b s
  let y := y.setBank kl (putAt (y.bank kl) base lo)
  setBench b (y.setBank kh (putAt (y.bank kh) (max base 128) hi)) s

/-! ## The held vector (R27, R35, R37) -/

/-- Element `k` of the held vector of side `q`; a part never loaded holds +0. -/
def heldAt (b q k : Nat) (s : State) : FVal :=
  let y := benchOf b s
  if split b s || shared b s then ((if q = 0 then y.heldLo else y.heldHi).vals.getD k (.fin false 0 0))
  else
    let half := 2048 * 8 / y.heldLo.width
    if k < half then y.heldLo.vals.getD k (.fin false 0 0) else y.heldHi.vals.getD (k - half) (.fin false 0 0)

/-- The held row width of side `q`. -/
def heldWidthOf (b q : Nat) (s : State) : Nat :=
  let y := benchOf b s
  if (split b s || shared b s) && q == 1 then y.heldHi.width else y.heldLo.width

/-- Write the held vector of side `q`. -/
def writeHeldVec (b q width : Nat) (vals : List FVal) (s : State) : State :=
  let y := benchOf b s
  if split b s || shared b s then
    setBench b (if q = 0 then { y with heldLo := ⟨width, vals⟩ } else { y with heldHi := ⟨width, vals⟩ }) s
  else
    let half := 2048 * 8 / width
    setBench b { y with heldLo := ⟨width, vals.take half⟩, heldHi := ⟨width, vals.drop half⟩ } s

/-! ## Adds into accumulators -/

/-- One lane's add of products into an accumulator with its flags (R76 to R78); `zero` treats the
accumulator as +0 and clears its flags first. -/
def addLane (zero : Bool) (a : Acc) (pairs : List (FVal × FVal)) : Acc × Nat :=
  let r := laneAdd (if zero then .fin false 0 0 else f32 a.bits.toNat) pairs
  (⟨BitVec.ofNat 32 r.1, (if zero then 0 else a.flags) ||| BitVec.ofNat 5 r.2⟩, r.2)

/-- Products per cycle and lane at a row width (R17). -/
def lanesRate (width : Nat) : Nat := if width ≤ 4 then 16 else if width ≤ 8 then 8 else if width ≤ 16 then 4 else 1

/-- Elements per cycle of the Shave path in whole mode (R29). -/
def shaveRate (width : Nat) : Nat := if width ≤ 8 then 256 else if width ≤ 16 then 128 else 64

/-- Apply the adds of elements `k` onward of a SHAVE until `k = upto'` (R28, R77). -/
def shaveAdds (b q : Nat) (r : Run) : Nat → Nat → State → State × Nat
  | 0, _, s => (s, 0)
  | n + 1, k, s =>
    let L := laneCount b s
    let lane := k % L
    let y := benchOf b s
    let key := accKey b q r.op.dst s
    let j := laneBase b q s + lane
    let row := y.accRow key
    let zero := r.op.scalar == 1 && decide (k < L)
    let a := addLane zero (row.getD j Acc.zero) [(r.vals.getD k (.fin false 0 0), r.vals2.getD (k / L) (.fin false 0 0))]
    let s := setBench b (y.setAccRow key (putAt row j [a.1])) s
    let s := excRecord b 1 r.op.dst r.op.passNo [(j, a.2)] s
    let t := shaveAdds b q r n (k + 1) s
    (t.1, t.2 ||| a.2)

/-- Elements of a SHAVE whose adds fall before cycle `x`: element e is read at start + e / rate and added 3
cycles later (R29). -/
def shaveBefore (r : Run) (x : Nat) : Nat :=
  if r.start + 3 < x then min r.vals.length ((x - 3 - r.start) * r.fmt) else 0

/-- Bring a SHAVE's adds up to cycle `x`. -/
def shaveUpto (b q x : Nat) (r : Run) (s : State) : Run × State :=
  let k := max r.prog (shaveBefore r x)
  let t := shaveAdds b q r (k - r.prog) r.prog s
  ({ r with prog := k, flags := r.flags ||| t.2 }, t.1)

/-- Bring the SHAVEs of a side up to cycle `x`. -/
def shavesUpto (b q x : Nat) : List Run → State → List Run × State
  | [], s => ([], s)
  | r :: rs, s =>
    let t := shaveUpto b q x r s
    let u := shavesUpto b q x rs t.2
    (t.1 :: u.1, u.2)

/-- Bring the SHAVEs of side `q` up to cycle `x` and store them. -/
def syncShaves (b q x : Nat) (s : State) : State :=
  let t := shavesUpto b q x (sideOf b q s).shaveRuns s
  setSide b q { sideOf b q t.2 with shaveRuns := t.1 } t.2

/-- Read accumulators `k` onward of a STORE (R48): values and flags; CLR leaves +0 and no flag unless the
STORE may still trap (R82). -/
def storeReads (b q : Nat) (r : Run) : Nat → Nat → State → State × List FVal × Nat
  | 0, _, s => (s, [], 0)
  | n + 1, k, s =>
    let s := syncShaves b q (r.start + k) s
    let y := benchOf b s
    let key := accKey b q (r.op.aux + k) s
    let row := y.accRow key
    let base := laneBase b q s
    let mine := (row.drop base).take (laneCount b s)
    let s := if storeClr r.op && trapMask b s == 0 then
        setBench b (y.setAccRow key (putAt row base (List.replicate mine.length Acc.zero))) s else s
    let t := storeReads b q r n (k + 1) s
    (t.1, mine.map (fun a => f32 a.bits.toNat) ++ t.2.1,
      mine.foldl (fun f a => f ||| a.flags.toNat) 0 ||| t.2.2)

/-- Bring a STORE's reads up to and including cycle `x`: accumulator i is read at start + i (R49). -/
def storeUpto (b q x : Nat) (r : Run) (s : State) : Run × State :=
  let k := max r.prog (if r.start ≤ x then min r.op.num (x - r.start + 1) else 0)
  let t := storeReads b q r (k - r.prog) r.prog s
  ({ r with prog := k, vals := r.vals ++ t.2.1, flags := r.flags ||| t.2.2 }, t.1)

/-- Bring the STOREs of a side up to cycle `x`. -/
def storesUpto (b q x : Nat) : List Run → State → List Run × State
  | [], s => ([], s)
  | r :: rs, s =>
    let t := storeUpto b q x r s
    let u := storesUpto b q x rs t.2
    (t.1 :: u.1, u.2)

/-- Bring what the Shave path and the store unit of side `q` do to accumulators up to cycle `x`, at which the
row adds: reads of that cycle see the value before the row's add, and Shave adds of that cycle follow it
(R30). -/
def catchUp (b q x : Nat) (s : State) : State :=
  let t := storesUpto b q x (sideOf b q s).storeRuns s
  let s := setSide b q { sideOf b q t.2 with storeRuns := t.1 } t.2
  syncShaves b q x s

/-! ## The row (R20 to R24, R76) -/

/-- The pending SWAP that a PASS flips: the first with its tag before it in program order (R23). -/
def flipOf (b q : Nat) (op : UOp) (s : State) : Option Swap :=
  (seqOf b q s).swaps.find? (fun x => x.tag == tagOf op.word && x.po < op.po)

/-- Whether a LOAD.STILE before a SWAP has still to finish (R24). -/
def flipWaits (b q : Nat) (op : UOp) (s : State) : Bool :=
  match flipOf b q op s with
  | none => false
  | some x =>
    let sd := sideOf b q s
    (sd.loadQ ++ (sd.loadRun.map (·.op)).toList).any (fun o => o.kind == .stile && o.po < x.po)

/-- The passes that a re-fetch holds in the row of side `q`: one at RD, and one at DS behind it (R96). -/
def rowHeld (b q : Nat) (s : State) : List Flight :=
  let f := fun h => (sideOf b h s).flights.filter (fun x => x.held.isSome)
  if shared b s then f 0 ++ f 1 else f q

/-- Whether the row of side `q` is frozen by a re-fetch (R96): the cycle of the RD that failed still takes a PASS into DS. -/
def rowFrozen (b q : Nat) (s : State) : Bool :=
  match rowHeld b q s with
  | [] => false
  | [f] => max s.cycle (freeAt b q (·.rowFree) s) != f.acAt
  | _ => true

/-- Whether the head PASS of side `q` can be dispatched, the row being free. -/
def passCan (b q : Nat) (s : State) : Bool :=
  match (sideOf b q s).rowQ with
  | [] => false
  | op :: _ => !flipWaits b q op s && !readHeld b q op s

/-- Read a PASS's rail beats at RD in cycle `c` (R21, R47, R92): a fault, a flight held by a re-fetch, or a
flight with its AC cycle. A held flight stands in its place of the pipeline, with the cycle of its RD. -/
def railRead (b q : Nat) (op : UOp) (stile : List LaneStile) (passNo c : Nat) (e : Ecc) (s : State) : State :=
  let depth := if stile.any (·.width == 4) then 16 else 8
  let put := fun (f : Flight) (s : State) =>
    let sd := sideOf b q s
    setSide b q { sd with
      flights := sd.flights.filter (·.held.isNone) ++ [f] ++ (sd.flights.filter (·.held.isSome)).drop 1 } s
  let drop := fun (s : State) =>
    let sd := sideOf b q s
    setSide b q { sd with flights := sd.flights.filter (·.held.isNone) } s
  let stay := fun (s : State) =>
    let width := stile.foldl (fun w l => max w l.width) (rowWidth (fmtOf b op.tile s))
    let s := put ⟨op, c, [], stile, some op.tile, passNo⟩ s
    setSide b q { sideOf b q s with rowFree := c - 1 + depth / lanesRate width } s
  match useTile b q op.tile 0 e s with
  | (.refetch, s) => stay s
  | (.fault, s) => opFault b q cChecksum op (drop (advanceTo c s))
  | (.badFormat, s) => opFault b q cBadFormat op (drop (advanceTo c s))
  | (.pass, s) =>
    let fmt := fmtOf b op.tile s
    let beats := elemsIn b op.tile s / 8
    if op.num + depth / 8 > beats then opFault b q cBadOffset op (drop (advanceTo c s))
    else
      match bookFor b q convRail op.tile e s with
      | (.hold, s) => stay s
      | (.stop cause, s) => opFault b q cause op (drop (advanceTo c s))
      | (.none, s) =>
        let v := ((tileVals fmt (benchTile b op.tile s) []).drop (op.num * 8)).take depth
        let width := stile.foldl (fun w l => max w l.width) (rowWidth fmt)
        let n := depth / lanesRate width
        let s := put ⟨op, c + 3 + n, v, stile, none, passNo⟩ (bumpBy n (Reg.BEN_ROW_BUSY b) s)
        setSide b q { sideOf b q s with rowFree := c - 1 + n } s
      | (.book bk extra, s) =>
        let v := ((tileVals fmt (benchTile b op.tile s) bk).drop (op.num * 8)).take depth
        let width := stile.foldl (fun w l => max w l.width) (rowWidth fmt)
        let n := depth / lanesRate width
        let s := put ⟨op, c + 3 + n + extra, v, stile, none, passNo⟩ (bumpBy n (Reg.BEN_ROW_BUSY b) s)
        setSide b q { sideOf b q s with rowFree := c - 1 + n + extra } s

/-- Whether PASS_DISPATCH can take place for side `q`. -/
def passReady (b q : Nat) (s : State) : Bool :=
  !inReset b s && !rowFrozen b q s && passCan b q s && chosen b q uRow (passCan b (1 - q) s) s

/-- Dispatch the PASS at the head of side `q`'s row queue (R20 to R24). -/
def passDispatch (b q : Nat) (e : Ecc) (s : State) : State :=
  match (sideOf b q s).rowQ with
  | [] => s
  | op :: rest =>
    let s := advanceTo (freeAt b q (·.rowFree) s) s
    let c := s.cycle
    let s := serve b q uRow s
    let s := eccCount b e s
    let s := match flipOf b q op s with
      | none => s
      | some x =>
        let sq := seqOf b q s
        let s := setSeq b q { sq with swaps := sq.swaps.filter (· != x) } s
        rowGather b q (flipBanks b q s)
    let s := setSide b q { sideOf b q s with rowQ := rest, rowFree := c + 1 } s
    let passNo := (rd (Reg.BEN_PASS_COUNT b) s).toNat
    let s := bump (Reg.BEN_PASS_COUNT b) s
    if (rowHeld b q s).isEmpty then railRead b q op (activeStile b q s) passNo (c + 1) e s
    else
      let sd := sideOf b q s
      setSide b q { sd with flights := sd.flights ++ [⟨op, 0, [], activeStile b q s, some op.tile, passNo⟩] } s

/-- The AC stage of the oldest PASS in the pipeline (R76, R78). -/
def passAccumulate (b q : Nat) (s : State) : State :=
  match (sideOf b q s).flights with
  | [] => s
  | f :: rest =>
    if f.held.isSome then s
    else
      let s := advanceTo f.acAt s
      let s := catchUp b q f.acAt s
      let zero := f.op.scalar == 1
      let y := benchOf b s
      let key := accKey b q f.op.dst s
      let row := y.accRow key
      let base := laneBase b q s
      let mine := (row.drop base).take f.stile.length
      let out := (mine.zip f.stile).map (fun p => addLane zero p.1 (f.rail.zip p.2.vals))
      let s := setBench b (y.setAccRow key (putAt row base (out.map (·.1)))) s
      let fl := orAll (out.map (·.2))
      let sd := sideOf b q s
      let s := setSide b q { sd with flights := rest, rowFlags := sd.rowFlags ||| fl } s
      excRecord b 0 f.op.dst (f.passNo % 2 ^ 28) ((out.map (·.2)).zipIdx.map (fun p => (base + p.2, p.1))) s

/-! ## The load unit (R18, R25, R27) -/

/-- Cycles of a stile load at a row width (R18). -/
def stileCycles (width : Nat) : Nat := if width ≤ 8 then 4 else if width ≤ 16 then 8 else 16

/-- Whether the head LOAD of side `q` can begin, the load unit being free. -/
def loadCan (b q : Nat) (s : State) : Bool :=
  match (sideOf b q s).loadQ with
  | [] => false
  | op :: _ =>
    (op.kind != .stile || (seqOf b q s).swaps.all (fun x => op.po < x.po)) && !readHeld b q op s &&
      !heldUnit b q (if op.kind = .stile then 1 else 2) s &&
      !heldUnit b q (if op.kind = .stile then 16 + convStile else 16 + convHeld) s

/-- Whether the load unit is free for side `q`. -/
def loadFreeNow (b q : Nat) (s : State) : Bool :=
  if shared b s then (sideOf b 0 s).loadRun.isNone && (sideOf b 1 s).loadRun.isNone
  else (sideOf b q s).loadRun.isNone

/-- Whether LOAD_UNIT_BEGIN can take place. -/
def loadReady (b q : Nat) (s : State) : Bool :=
  !inReset b s && loadFreeNow b q s && loadCan b q s && chosen b q uLoad (loadCan b (1 - q) s) s

/-- The use of a tile whose FORMAT is undefined: its checksum is checked first (R92). -/
def undefinedUse (b q t unit : Nat) (e : Ecc) (op : UOp) (pop : State → State) (s : State) : State :=
  match useTile b q t unit e s with
  | (.refetch, s) => s
  | (.fault, s) => opFault b q cChecksum op (pop s)
  | (_, s) => opFault b q cBadFormat op (pop s)

/-- The load unit begins the LOAD at the head of side `q`'s queue: its checks, its reads and its time. -/
def loadBegin (b q : Nat) (e : Ecc) (s : State) : State :=
  match (sideOf b q s).loadQ with
  | [] => s
  | op :: rest =>
    let s := advanceTo (freeAt b q (·.loadFree) s) s
    let s := serve b q uLoad s
    let s := eccCount b e s
    let stile := op.kind == .stile
    let pop := fun (s : State) => setSide b q { sideOf b q s with loadQ := rest } s
    let fmt := fmtOf b op.tile s
    let width := if stile then rowWidth fmt else heldWidth fmt
    let sp := loadSpan b op s
    let ts := loadTiles b op s
    let per := elemsIn b op.tile s
    if !fmtDefined fmt then undefinedUse b q op.tile (if stile then 1 else 2) e op pop s
    else if stile && shared b s && width == 32 then opFault b q cBadFormat op (pop s)
    else if per == 0 || !(ts.all (fun t => runInTiles b q t 1 s)) then opFault b q cBadOffset op (pop s)
    else
      match readRun b q (if stile then 1 else 2) (if stile then convStile else convHeld) fmt per e ts s with
      | (.hold, s) => s
      | (.stop cause, s) => opFault b q cause op (pop s)
      | (.vals v extra, s) =>
        let vals := fitVals sp.2 (v.drop (sp.1 % per))
        let cycles := (if stile then stileCycles width else 8) + extra
        let run : Run := ⟨op, s.cycle, s.cycle + cycles, width, vals, [], [], 0, 0⟩
        setSide b q { sideOf b q (pop s) with loadRun := some run, loadFree := s.cycle + cycles } (pop s)

/-- The LOAD that the unit runs has written its last bytes. -/
def loadComplete (b q : Nat) (s : State) : State :=
  match (sideOf b q s).loadRun with
  | none => s
  | some r =>
    let s := advanceTo r.due s
    let s := if r.op.kind = .stile then writeShadow b q r.fmt r.vals s else writeHeldVec b q r.fmt r.vals s
    setSide b q { sideOf b q s with loadRun := none } s

/-! ## The Shave path (R27 to R30) -/

/-- Whether the head SHAVE of side `q` can start. -/
def shaveCan (b q : Nat) (s : State) : Bool :=
  let sd := sideOf b q s
  match sd.shaveQ with
  | [] => false
  | op :: _ =>
    (sd.loadQ ++ (sd.loadRun.map (·.op)).toList).all (fun o => o.kind != .hold || op.po < o.po) &&
      !readHeld b q op s && !heldUnit b q 3 s && !heldUnit b q (16 + convShave) s

/-- Whether SHAVE_START can take place. -/
def shaveReady (b q : Nat) (s : State) : Bool :=
  !inReset b s && shaveCan b q s && chosen b q uShave (shaveCan b (1 - q) s) s

/-- The rate of side `q` of a bench, half in split mode (R35). -/
def sideRate (b r : Nat) (s : State) : Nat := if split b s then r / 2 else r

/-- The Shave path begins the SHAVE at the head of side `q`'s queue. -/
def shaveStart (b q : Nat) (e : Ecc) (s : State) : State :=
  match (sideOf b q s).shaveQ with
  | [] => s
  | op :: rest =>
    let s := advanceTo (freeAt b q (·.shaveFree) s) s
    let s := serve b q uShave s
    let s := eccCount b e s
    let pop := fun (s : State) => setSide b q { sideOf b q s with shaveQ := rest } s
    match useTile b q op.tile 3 e s with
    | (.refetch, s) => s
    | (.fault, s) => opFault b q cChecksum op (pop s)
    | (.badFormat, s) => opFault b q cBadFormat op (pop s)
    | (.pass, s) =>
      let fmt := fmtOf b op.tile s
      let n := elemsIn b op.tile s
      let hw := heldWidthOf b q s
      let L := laneCount b s
      if op.num + (n - 1) / L ≥ heldCap b hw s then opFault b q cBadOffset op (pop s)
      else
        let run := fun (v : List FVal) (extra : Nat) (s : State) =>
          let rate := sideRate b (shaveRate (max (rowWidth fmt) hw)) s
          let occ := (n + rate - 1) / rate
          let h := (upto ((n + L - 1) / L)).map (fun k => heldAt b q (op.num + k) s)
          let st := s.cycle + extra
          let r : Run := ⟨op, st, st + occ - 1 + 3, rate, fitVals n v, h, [], 0, 0⟩
          let s := bumpBy occ (Reg.BEN_SHAVE_BUSY b) (pop s)
          let sd := sideOf b q s
          setSide b q { sd with shaveRuns := sd.shaveRuns ++ [r], shaveFree := st + occ } s
        match bookFor b q convShave op.tile e s with
        | (.hold, s) => s
        | (.stop cause, s) => opFault b q cause op (pop s)
        | (.none, s) => run (tileVals fmt (benchTile b op.tile s) []) 0 s
        | (.book v x, s) => run (tileVals fmt (benchTile b op.tile s) v) x s

/-- The oldest SHAVE's last add lands, and its flags are gathered (R79). -/
def shaveComplete (b q : Nat) (s : State) : State :=
  match (sideOf b q s).shaveRuns with
  | [] => s
  | r :: _ =>
    let s := advanceTo r.due s
    let t := shaveUpto b q (r.due + 1) r s
    let s := setSide b q { sideOf b q t.2 with shaveRuns := ((sideOf b q t.2).shaveRuns).drop 1 } t.2
    gather b q t.1.flags s

/-! ## The Sander unit (R31 to R34, R74, R80, R82) -/

/-- Whether the head SAND of side `q` can start. -/
def sandCan (b q : Nat) (s : State) : Bool :=
  match (sideOf b q s).sandQ with
  | [] => false
  | op :: _ => !readHeld b q op s && !heldUnit b q 4 s && !heldUnit b q (16 + convSand) s &&
    !heldUnit b q 22 s

/-- Whether SAND_START can take place. -/
def sandReady (b q : Nat) (s : State) : Bool :=
  !inReset b s && sandCan b q s && chosen b q uSand (sandCan b (1 - q) s) s

/-- The Sander unit begins the SAND at the head of side `q`'s queue: every check that depends on formats, the
reads, and its time. -/
def sandStart (b q : Nat) (e : Ecc) (s : State) : State :=
  match (sideOf b q s).sandQ with
  | [] => s
  | op :: rest =>
    let s := advanceTo (freeAt b q (·.sandFree) s) s
    let s := serve b q uSand s
    let s := eccCount b e s
    let pop := fun (s : State) => setSide b q { sideOf b q s with sandQ := rest } s
    let fmt := fmtOf b op.tile s
    let n := elemsIn b op.tile s
    match readTile b q 4 convSand op.tile e s with
    | (.hold, s) => s
    | (.stop cause, s) => opFault b q cause op (pop s)
    | (.vals v x, s) =>
      if fmtCapacity (sandDfmt op) < n then opFault b q cBadFormat op (pop s)
      else
        let fmt2 := fmtOf b op.aux s
        let per2 := elemsIn b op.aux s
        let ts := src2Tiles b op s
        if sandBinary op && (!fmtDefined fmt2) then undefinedUse b q op.aux 4 e op pop s
        else if sandBinary op && (per2 == 0 || !(ts.all (fun t => runInTiles b q t 1 s))) then
          opFault b q cBadTile op (pop s)
        else
          match readRun b q 4 convSand fmt2 per2 e ts s with
          | (.hold, s) => s
          | (.stop cause, s) => opFault b q cause op (pop s)
          | (.vals v2 y, s) =>
            let go := fun (bk : List FVal) (z : Nat) (s : State) =>
              let rate := sideRate b (if sandFunc op ≤ 0x14 then 32 else 16) s
              let occ := (n + rate - 1) / rate
              let st := s.cycle + x + y + z
              let r : Run := ⟨op, st, st + occ - 1 + 12, fmt, fitVals n v, v2.take n, bk, 0, 0⟩
              let s := bumpBy occ (Reg.BEN_SAND_BUSY b) (pop s)
              let sd := sideOf b q s
              setSide b q { sd with sandRuns := sd.sandRuns ++ [r], sandFree := st + occ } s
            match bookForEncode b q 6 op.dst (sandDfmt op) e s with
            | (.hold, s) => s
            | (.stop cause, s) => opFault b q cause op (pop s)
            | (.none, s) => go [] 0 s
            | (.book bk z, s) => go bk z s

/-- The results of a SAND: element values with the flags of each (R33). -/
def sandResults (r : Run) : List (FVal × Nat) :=
  let f := sandFunc r.op
  if sandBinary r.op then (r.vals.zip r.vals2).map (fun p => sander f p.1 p.2)
  else r.vals.map (fun x => sander f x (f32 r.op.scalar))

/-- Take a free value for a codebook encoding (R74): the code is below 255. -/
def takeCode (s : State) : Nat × State :=
  let p := nextFresh s
  (Config.freeCode p.1 % 255, p.2)

/-- Write an encoded tile with its tag (R80, R93): ORIGIN is kept from the tile overwritten. -/
def writeResult (b q pg dst fmt own : Nat) (x : TileEnc) (s : State) : State :=
  let fl := own ||| x.flags ||| (if x.flushed > 0 then flFlush else 0) ||| (if x.lost > 0 then flEscLost else 0)
  let crc := crc32c x.payload
  let tag := mkTag crc fmt fl x.side 0 (tagF Fld.TAG_ORIGIN (benchTag b dst s))
  let s := landTile b dst ⟨tag, x.payload⟩ s
  let s := match ctxOf b q s with
    | some c =>
      let s := if x.flushed > 0 then bumpBy x.flushed (Reg.CTX_UNDERFLOW_FLUSH c) s else s
      if x.lost > 0 then bumpBy x.lost (Reg.CTX_ESC_LOST c) s else s
    | none => s
  clampMake b q dst crc pg s

/-- Let issue go on after a STORE or SAND that blocked it (R82). -/
def endTrapWait (b q po : Nat) (s : State) : State :=
  let sq := seqOf b q s
  match sq.blocked with
  | .trapWait p => if p = po then setSeq b q { sq with blocked := .no, free := s.cycle + 1, left := 2 } s else s
  | _ => s

/-- The oldest SAND of side `q` becomes valid, or faults where a class that traps is found (R82). -/
def sandComplete (b q : Nat) (s : State) : State :=
  match (sideOf b q s).sandRuns with
  | [] => s
  | r :: rest =>
    if writeHeld b q r.op s then s
    else
      let s := advanceTo r.due s
      let res := sandResults r
      let (code, s) := takeCode s
      let enc := encodeTile (sandDfmt r.op) (if sandDfmt r.op = fmtCB16 then code % 16 else code) r.book (res.map (·.1))
      let each := (res.map (·.2)).zip (enc.each ++ List.replicate (res.length - enc.each.length) 0)
      let own := orAll (res.map (·.2))
      let all := own ||| enc.flags
      let s := setSide b q { sideOf b q s with sandRuns := rest } s
      let s := excRecord b 2 0 (r.op.passNo % 2 ^ 28) (each.zipIdx.map (fun p => (p.2, p.1.1 ||| p.1.2))) s
      if trapMask b s &&& all ≠ 0 then opFault b q cArith r.op s
      else
        let s := gather b q all (writeResult b q r.op.pg r.op.dst (sandDfmt r.op) own enc s)
        endTrapWait b q r.op.po s

/-! ## The store unit (R48 to R50, R79, R82) -/

/-- Whether an earlier PASS or SHAVE has still to add into an accumulator of a STORE (R50). -/
def addsPending (b q : Nat) (op : UOp) (s : State) : Bool :=
  let sd := sideOf b q s
  let hit := fun (o : UOp) => o.po < op.po && op.aux ≤ o.dst && o.dst < op.aux + op.num
  sd.rowQ.any hit || (sd.flights.map (·.op)).any hit || sd.shaveQ.any hit || (sd.shaveRuns.map (·.op)).any hit

/-- Whether the head STORE of side `q` can start. -/
def storeCan (b q : Nat) (s : State) : Bool :=
  match (sideOf b q s).storeQ with
  | [] => false
  | op :: _ => !addsPending b q op s && !readHeld b q op s && !heldUnit b q 21 s

/-- Whether STORE_START can take place. -/
def storeReady (b q : Nat) (s : State) : Bool :=
  !inReset b s && storeCan b q s && chosen b q uStore (storeCan b (1 - q) s) s

/-- The store unit begins the STORE at the head of side `q`'s queue. -/
def storeStart (b q : Nat) (e : Ecc) (s : State) : State :=
  match (sideOf b q s).storeQ with
  | [] => s
  | op :: rest =>
    let s := advanceTo (freeAt b q (·.storeFree) s) s
    let s := serve b q uStore s
    let s := eccCount b e s
    let pop := fun (s : State) => setSide b q { sideOf b q s with storeQ := rest } s
    let go := fun (bk : List FVal) (x : Nat) (s : State) =>
      let st := s.cycle + x
      let r : Run := ⟨op, st, st + op.num - 1 + 8, storeDfmt op, [], [], bk, 0, 0⟩
      let s := pop s
      let sd := sideOf b q s
      setSide b q { sd with storeRuns := sd.storeRuns ++ [r], storeFree := st + op.num } s
    match bookForEncode b q 5 op.dst (storeDfmt op) e s with
    | (.hold, s) => s
    | (.stop cause, s) => opFault b q cause op (pop s)
    | (.none, s) => go [] 0 s
    | (.book bk x, s) => go bk x s

/-- Clear the accumulators of a STORE with CLR that could have trapped and did not (R48, R82). -/
def clearAccs (b q : Nat) (op : UOp) (s : State) : State :=
  (upto op.num).foldl (fun s k =>
    let y := benchOf b s
    let key := accKey b q (op.aux + k) s
    setBench b (y.setAccRow key (putAt (y.accRow key) (laneBase b q s) (List.replicate (laneCount b s) Acc.zero))) s) s

/-- The oldest STORE of side `q` becomes valid, or faults where a class that traps is found (R82). -/
def storeComplete (b q : Nat) (s : State) : State :=
  match (sideOf b q s).storeRuns with
  | [] => s
  | r0 :: _ =>
    if writeHeld b q r0.op s then s
    else
      let s := advanceTo r0.due s
      let t := storeUpto b q r0.due r0 s
      let r := t.1
      let s := setSide b q { sideOf b q t.2 with storeRuns := ((sideOf b q t.2).storeRuns).drop 1 } t.2
      let (code, s) := takeCode s
      let enc := encodeTile r.fmt (if r.fmt = fmtCB16 then code % 16 else code) r.book r.vals
      let L := laneCount b s
      let ev := enc.each.zipIdx.map (fun p => (p.2, p.1))
      let s := match ev.find? (fun p => p.2 &&& rdF (Reg.BEN_EXC_CTL b) Fld.BEN_EXC_CTL_RECORD s != 0) with
        | some p => excRecord b 3 (r.op.aux + p.1 / L) (r.op.passNo % 2 ^ 28) [p] s
        | none => s
      if trapMask b s &&& (r.flags ||| enc.flags) ≠ 0 then opFault b q cArith r.op s
      else
        let s := if storeClr r.op && trapMask b s != 0 then clearAccs b q r.op s else s
        let s := gather b q enc.flags (writeResult b q r.op.pg r.op.dst r.fmt r.flags enc s)
        endTrapWait b q r.op.po s

/-! ## Faults of one cycle (R52) -/

/-- Whether sequencer `q` of bench `b` has stopped in a fault. -/
def seqFaulted (b q : Nat) (s : State) : Bool := (seqOf b q s).st == .fault

/-- An effect that takes place only where its unit is ready for it. -/
def guarded (p : State → Bool) (f : State → State) (s : State) : State := if p s then f s else s

/-- What the units of side `q` may do next, with the instruction that each is about (none where the unit has
none): the five that begin one, and the two that find an arithmetic fault at the end. -/
def unitActs (b q : Nat) (s : State) : List (Option UOp × (State → Bool) × (State → State)) :=
  let sd := sideOf b q s
  let e : Ecc := ⟨0, []⟩
  [(sd.rowQ.head?, passReady b q, passDispatch b q e), (sd.loadQ.head?, loadReady b q, loadBegin b q e),
    (sd.shaveQ.head?, shaveReady b q, shaveStart b q e), (sd.sandQ.head?, sandReady b q, sandStart b q e),
    (sd.storeQ.head?, storeReady b q, storeStart b q e),
    (sd.sandRuns.head?.map (·.op), fun _ => true, sandComplete b q),
    (sd.storeRuns.head?.map (·.op), fun _ => true, storeComplete b q)]

/-- A unit's act on an instruction. Where it stops its sequencer with a fault, and another unit finds a fault of an
earlier instruction in the same cycle, that fault comes first and is the one recorded (R52). -/
def unitAct (b q : Nat) (op : Option UOp) (p : State → Bool) (f : State → State) (s : State) : State :=
  let t := guarded p f s
  if seqFaulted b q s || !seqFaulted b q t then t
  else
    let at' := advanceTo t.cycle s
    let before := fun (a : Option UOp × (State → Bool) × (State → State)) =>
      match a.1, op with
      | some x, some y => decide (x.po < y.po) && a.2.1 at' && (a.2.2 at').cycle == t.cycle && seqFaulted b q (a.2.2 at')
      | _, _ => false
    let least := ((unitActs b q s).filter before).foldl (fun m a =>
      match m with
      | some x => if ((a.1.map (·.po)).getD 0) < ((x.1.map (·.po)).getD 0) then some a else m
      | none => some a) (none : Option (Option UOp × (State → Bool) × (State → State)))
    match least with
    | some a => guarded p f (a.2.2 at')
    | none => t

end Sys2Proof.Machine
end

