-- ==== Sys2Proof/Machine/Sequencer.lean ====
section
/-!
DEFINITION. The sequencers: issue of every Slasal instruction but SEND and RECV, waits, starts, bench resets and
the Floor's MOVE.T (spec/01_benches.md, 03).
-/
namespace Sys2Proof.Machine

/-! ## Issue (R40, R41, R47, R49, R536) -/

/-- The instruction word that sequencer `q` of bench `b` issues next. -/
def curWord (b q : Nat) (s : State) : Word := tb (Tab.IMEM (seqKey b q * 8192 + (seqOf b q s).pc)) s

/-- Whether a glue-up holds sequencer `q` of bench `b` at its next synchronization point (R372, R408). -/
def glueHeld (b q : Nat) (s : State) : Bool :=
  match ctxOf b q s with
  | some c => bitAt s.glueHold c
  | none => false

/-- Whether sequencer `q` of bench `b` may issue: it is RUN and not blocked. -/
def canIssue (b q : Nat) (s : State) : Bool :=
  let sq := seqOf b q s
  seqOn b q s && !inReset b s && sq.st == .run && sq.blocked == .no

/-- Use an issue slot (R40, R49): up to two in a cycle, and none after an instruction that `closes` it. -/
def Seq.slot (x : Seq) (c : Nat) (closes : Bool) : Seq :=
  let left := if c > x.free then 2 else x.left
  if closes || left ≤ 1 then { x with free := c + 1, left := 2 } else { x with free := c, left := 1 }

/-- An instruction of sequencer `q` has issued: it takes a slot and a program-order number, and `f` moves
the sequencer on. -/
def issued (b q : Nat) (closes : Bool) (f : Seq → Seq) (s : State) : State :=
  let sq := seqOf b q s
  setSeq b q (f { sq.slot s.cycle closes with po := sq.po + 1 }) s

/-- The sequencer moved on past the instruction it has issued. -/
def Seq.next (x : Seq) : Seq := x.advance x.pc

/-- A fault at issue: the instruction does not issue (R536). -/
def issueFault (b q cause code : Nat) (s : State) : State :=
  benchFault b q cause code (seqOf b q s).pc s

/-- Issue the next instruction of sequencer `q` where it is `k`: `f` gives the state after it, or none where
it stalls. A word that names no instruction faults (R45, R46). -/
def issue (k : Slasal) (f : Word → State → Option State) (b q : Nat) (s : State) : State :=
  if !canIssue b q s || decide ((seqOf b q s).pc ≥ 8192) then s
  else
    let w := curWord b q s
    let t := advanceTo (seqOf b q s).free s
    match slDecode w with
    | none => issueFault b q cIllegalOp 0 t
    | some k' => if k' = k then (f w t).getD s else s

/-- An instruction for a unit's queue. -/
def mkOp (kind : UKind) (b q : Nat) (w : Word) (tile dst num aux scalar : Nat) (s : State) : UOp :=
  let sq := seqOf b q s
  ⟨kind, sq.po, sq.pc, w, tile, dst, num, aux, scalar, (rd (Reg.BEN_PASS_COUNT b) s).toNat,
    smGet (fun _ => 0) s.clamp.pg (seqKey b q), s.cycle⟩

/-- NOP. -/
def issueNop (b q : Nat) (_w : Word) (s : State) : Option State := some (issued b q false Seq.next s)

/-- PASS (R20, R47). -/
def issuePass (b q : Nat) (w : Word) (s : State) : Option State :=
  let sd := sideOf b q s
  let sq := seqOf b q s
  if sd.rowQ.length ≥ 16 then none
  else
    let t := effOp Sl.PASS_TILE Sl.PASS_XT w sq
    let a := effOp Sl.PASS_ACC Sl.PASS_XA w sq
    if !runInTiles b q t 1 s then some (issueFault b q cBadTile 0 s)
    else if a ≥ accCount b s then some (issueFault b q cBadAcc 0 s)
    else
      let op := mkOp .pass b q w t a (effOp Sl.PASS_BEAT Sl.PASS_XB w sq) 0 (getF Sl.PASS_ZERO w) s
      some (issued b q false Seq.next (setSide b q { sd with rowQ := sd.rowQ ++ [op] } s))

/-- SWAP (R23). -/
def issueSwap (b q : Nat) (w : Word) (s : State) : Option State :=
  some (issued b q false (fun x => { x.next with swaps := x.swaps ++ [⟨tagOf w, x.po - 1⟩] }) s)

/-- SHAVE (R41, R47). -/
def issueShave (b q : Nat) (w : Word) (s : State) : Option State :=
  let sd := sideOf b q s
  let sq := seqOf b q s
  if sd.shaveQ.length ≥ 2 then none
  else
    let t := effOp Sl.PASS_TILE Sl.PASS_XT w sq
    let a := effOp Sl.PASS_ACC Sl.PASS_XA w sq
    if !runInTiles b q t 1 s then some (issueFault b q cBadTile 0 s)
    else if a ≥ accCount b s then some (issueFault b q cBadAcc 0 s)
    else
      let op := mkOp .shave b q w t a (effOp Sl.SHAVE_HOFF Sl.PASS_XB w sq) 0 (getF Sl.PASS_ZERO w) s
      some (issued b q false Seq.next (setSide b q { sd with shaveQ := sd.shaveQ ++ [op] } s))

/-- How a STORE or SAND moves its sequencer on: it blocks issue while some class traps (R82). -/
def afterResult (b : Nat) (s : State) (x : Seq) : Seq :=
  if trapMask b s = 0 then x.next else { x.next with blocked := .trapWait (x.po - 1) }

/-- SAND (R31, R47). -/
def issueSand (b q : Nat) (w : Word) (s : State) : Option State :=
  let sd := sideOf b q s
  let sq := seqOf b q s
  if sd.sandQ.length ≥ 2 then none
  else
    let f := getF Sl.SAND_FUNC w
    let src := effOp Sl.SAND_SRC Sl.SAND_XS w sq
    let src2 := effOp Sl.SAND_SRC2 Sl.SAND_XU w sq
    let dst := effOp Sl.SAND_DST Sl.SAND_XD w sq
    if !sanderDefined f then some (issueFault b q cIllegalOp 0 s)
    else if !runInTiles b q src 1 s || !runInTiles b q dst 1 s ||
        (decide (1 ≤ f) && decide (f ≤ 5) && !runInTiles b q src2 1 s) then some (issueFault b q cBadTile 0 s)
    else if !fmtDefined (getF Sl.SAND_DFMT w) then some (issueFault b q cBadFormat 0 s)
    else
      let op := mkOp .sand b q w src dst 1 src2 (sq.index (getF Sl.SAND_XU w)) s
      some (issued b q false (afterResult b s) (setSide b q { sd with sandQ := sd.sandQ ++ [op] } s))

/-- LOAD.STILE and LOAD.HOLD (R25, R27, R47). -/
def issueLoad (kind : UKind) (b q : Nat) (w : Word) (s : State) : Option State :=
  let sd := sideOf b q s
  let t := effOp Sl.TILE Sl.XT w (seqOf b q s)
  if sd.loadQ.length ≥ 2 then none
  else if !runInTiles b q t 1 s then some (issueFault b q cBadTile 0 s)
  else
    let op := mkOp kind b q w t 0 1 (getF Sl.LOAD_PART w) 0 s
    some (issued b q false Seq.next (setSide b q { sd with loadQ := sd.loadQ ++ [op] } s))

/-- STORE (R47, R48). -/
def issueStore (b q : Nat) (w : Word) (s : State) : Option State :=
  let sd := sideOf b q s
  let sq := seqOf b q s
  if sd.storeQ.length ≥ 2 then none
  else
    let t := effOp Sl.STORE_TILE Sl.STORE_XT w sq
    let a := effOp Sl.STORE_ACC Sl.STORE_XA w sq
    let n := getF Sl.STORE_NACC w
    let fmt := getF Sl.STORE_DFMT w
    if !runInTiles b q t 1 s then some (issueFault b q cBadTile 0 s)
    else if a + max n 1 > accCount b s then some (issueFault b q cBadAcc 0 s)
    else if !fmtDefined fmt then some (issueFault b q cBadFormat 0 s)
    else if n = 0 ∨ n * laneCount b s > fmtCapacity fmt then some (issueFault b q cBadAcc 0 s)
    else
      let op := mkOp .store b q w 0 t n a 0 s
      some (issued b q false (afterResult b s) (setSide b q { sd with storeQ := sd.storeQ ++ [op] } s))

/-- MOVE.I with a value for I[XD] (R46). -/
def issueMoveI (b q : Nat) (w : Word) (v : Nat) (s : State) : Option State :=
  some (issued b q false (fun x => ({ x with }.setIndex (getF Sl.MOVEI_XD w) v).next) s)

/-- The immediate of a MOVE.I. -/
def moveImm (w : Word) : Nat := getF Sl.MOVEI_IMM w
/-- The source register of a MOVE.I. -/
def moveSrc (b q : Nat) (w : Word) (s : State) : Nat := (seqOf b q s).index (getF Sl.MOVEI_XS w)

/-- MOVE.I GET: the logical bench number or the half number (R44, R46). -/
def issueMoveGet (b q : Nat) (w : Word) (s : State) : Option State :=
  if moveImm w = 0 then issueMoveI b q w b s
  else if moveImm w = 1 then issueMoveI b q w (if split b s then q else 0) s
  else some (issueFault b q cIllegalOp 0 s)

/-- The address after a taken LOOP or its skip (R42, R47). -/
def issueLoop (b q : Nat) (w : Word) (s : State) : Option State :=
  let sq := seqOf b q s
  let sel := getF Sl.LOOP_CSEL w
  let n := if sel = 0 then getF Sl.LOOP_COUNT w else sq.index sel
  let last := getF Sl.LOOP_END w
  if last ≤ sq.pc then some (issueFault b q cBadTarget 0 s)
  else if n = 0 then some (issued b q true (fun x => x.advance last) s)
  else if sq.loops.length ≥ 4 then some (issueFault b q cBadTarget 0 s)
  else
    let f : LoopFrame := ⟨sq.pc + 1, last, n - 1, getF Sl.LOOP_XA w, signExt 9 (getF Sl.LOOP_SA w),
      getF Sl.LOOP_XB w, signExt 9 (getF Sl.LOOP_SB w)⟩
    some (issued b q true (fun x => { x with loops := f :: x.loops, pc := x.pc + 1 }) s)

/-- BRANCH of kind `k` (R43, R47, R49). -/
def issueBranch (k : Slasal) (b q : Nat) (w : Word) (s : State) : Option State :=
  let sq := seqOf b q s
  let x := sq.index (getF Sl.BRANCH_XA w)
  let y := if getF Sl.BRANCH_IMM w = 1 then wrap32 (signExt 16 (getF Sl.BRANCH_IMMV w))
    else sq.index (getF Sl.BRANCH_XB w)
  if branchTest k x y then
    some (issued b q true (fun z => { z.jump (getF Sl.BRANCH_TARGET w) with free := s.cycle + 3, left := 2 }) s)
  else some (issued b q true Seq.next s)

/-- HALT (R26, R54, R79). -/
def issueHalt (b q : Nat) (_w : Word) (s : State) : Option State :=
  let s := rowGather b q (discardSwaps b q s)
  some (issued b q true (fun x => { x.next with st := .done }) s)

/-- TRAP (R53). -/
def issueTrap (b q : Nat) (w : Word) (s : State) : Option State :=
  some (issueFault b q cTrap (getF Sl.TRAP_CODE w) s)

/-- SYNC (R26, R41): blocks until the units of its mask are done. -/
def issueSync (b q : Nat) (w : Word) (s : State) : Option State :=
  let mask := getF Sl.SYNC_MASK w
  let s := if bitAt mask 0 then discardSwaps b q s else s
  let s := issued b q true (fun x => { x with st := .wait, blocked := .sync mask (x.po - 1) false }) s
  some (if bitAt mask 7 then defer .markCheck s else s)

/-- The state that resumes a blocked sequencer in this cycle: its next issue is in the next one. -/
def resume (b q : Nat) (f : Seq → Seq) (s : State) : State :=
  let sq := seqOf b q s
  setSeq b q (f { sq with st := .run, blocked := .no, free := s.cycle + 1, left := 2 }).next s

/-- Whether the units of a SYNC's mask are done for side `q`. -/
def syncDone (b q mask : Nat) (marked : Bool) (s : State) : Bool :=
  let sd := sideOf b q s
  (!bitAt mask 0 || (sd.rowQ.isEmpty && sd.flights.isEmpty)) &&
  (!bitAt mask 1 || (sd.shaveQ.isEmpty && sd.shaveRuns.isEmpty)) &&
  (!bitAt mask 2 || (sd.sandQ.isEmpty && sd.sandRuns.isEmpty)) &&
  (!bitAt mask 3 || (sd.loadQ.isEmpty && sd.loadRun.isNone)) &&
  (!bitAt mask 4 || (sd.storeQ.isEmpty && sd.storeRuns.isEmpty)) &&
  (!bitAt mask 5 || sd.moveQ.isEmpty) &&
  (!bitAt mask 6 || sd.sends.isEmpty) &&
  (!bitAt mask 7 || marked)

/-- The end of a SYNC (R41, R79, R106): one with FABRIC or MARK ends at a frame start. -/
def syncRelease (b q : Nat) (s : State) : State :=
  match (seqOf b q s).blocked with
  | .sync mask _ marked =>
    if !syncDone b q mask marked s || ((bitAt mask 6 || bitAt mask 7) && glueHeld b q s) then s
    else
      let s := if bitAt mask 6 || bitAt mask 7 then advanceTo (frameFrom s.cycle) s else s
      let s := if bitAt mask 0 then rowGather b q s else s
      resume b q id s
  | _ => s

/-- Running past address 8191 (R40). -/
def pastEnd (b q : Nat) (s : State) : State :=
  if canIssue b q s && decide ((seqOf b q s).pc ≥ 8192) then
    benchFault b q cBadTarget 0 8191 (advanceTo (seqOf b q s).free s)
  else s

/-! ## Semaphores (R360 to R363) -/

/-- The semaphore number of a SEM instruction (R47). -/
def semNum (b q : Nat) (w : Word) (s : State) : Nat := effOp Sl.SEM_SEM Sl.SEM_XS w (seqOf b q s)

/-- The cause for which a SEM instruction faults at issue, if it does (R47, R360, R361). -/
def semCause (b q : Nat) (w : Word) (wait : Bool) (s : State) : Option Nat :=
  let n := semNum b q w s
  let num := getF Sl.SEM_NUM w
  if num = 0 ∨ n > 4095 then some cIllegalOp
  else
    match ctxOf b q s with
    | none => some cSemOwner
    | some c =>
      if !semMayUse c n s then some cSemOwner
      else if semLock n s then
        if wait then (if num = 1 then none else some cIllegalOp)
        else if num = 1 ∧ bitF Fld.SEM_HELD (semEntry n s) = true ∧ getF Fld.SEM_HOLDER (semEntry n s) = c then none
        else some cSemOwner
      else none

/-- Context `h` starts to block on lock `n` (R362): a deferral of the lock's holder begins, or the running
one is joined. -/
def beginDeferral (h n : Nat) (s : State) : State :=
  let l := getF Fld.SEM_HOLDER (semEntry n s)
  let ph := rdF (Reg.CTX_CTL h) Fld.CTX_CTL_PRIORITY s
  if bitF Fld.SEM_HELD (semEntry n s) && l != h && decide (ph < rdF (Reg.CTX_CTL l) Fld.CTX_CTL_PRIORITY s) then
    if s.ctxs.deferrals.any (fun d => d.holder == l && d.lock == n) then
      { s with ctxs := { s.ctxs with deferrals := s.ctxs.deferrals.map (fun d =>
        if d.holder == l && d.lock == n then { d with prio := min d.prio ph } else d) } }
    else
      bump (Reg.CTX_DEFERRALS l)
        { s with ctxs := { s.ctxs with deferrals := s.ctxs.deferrals ++ [⟨l, n, s.cycle, ph⟩] } }
  else s

/-- SEM.WAIT (R360 to R362). -/
def issueSemWait (b q : Nat) (w : Word) (s : State) : Option State :=
  match semCause b q w true s with
  | some cause => some (issueFault b q cause 0 s)
  | none =>
    let n := semNum b q w s
    let s := issued b q true (fun x => { x with st := .wait, blocked := .semWait n (getF Sl.SEM_NUM w) s.cycle }) s
    some (match ctxOf b q s with
      | some c => if semLock n s then beginDeferral c n s else s
      | none => s)

/-- SEM.SIGNAL (R360, R361): its effect falls in the cycle after it issues. -/
def issueSemSignal (b q : Nat) (w : Word) (s : State) : Option State :=
  match semCause b q w false s with
  | some cause => some (issueFault b q cause 0 s)
  | none =>
    let n := semNum b q w s
    let s := advanceTo (s.cycle + 1) (issued b q true Seq.next s)
    some (if semLock n s then lockRelease n s else semAdd n (getF Sl.SEM_NUM w) ((ctxOf b q s).getD 0) s)

/-- Whether a sequencer before `b`, `q` in bench and sequencer order waits on semaphore `n` and could be
served (R360). -/
def earlierWaiter (b q n : Nat) (s : State) : Bool :=
  s.benches.any (fun p => (upto 2).any (fun k =>
    decide (seqKey p.1 k < seqKey b q) && !glueHeld p.1 k s && (match (p.2.seq k).blocked with
      | .semWait m num _ => m == n && decide (num ≤ semValue n s)
      | _ => false)))

/-- A blocked SEM.WAIT is served at a frame start (R106, R360, R361, R378). -/
def semServe (b q : Nat) (s : State) : State :=
  match (seqOf b q s).blocked with
  | .semWait n num since =>
    if semValue n s < num || earlierWaiter b q n s || glueHeld b q s then s
    else
      let s := advanceTo (frameFrom (max s.cycle (since + 1))) s
      let c := (ctxOf b q s).getD 0
      let s :=
        if semLock n s then
          let last := smGet (fun _ => 0) s.ctxs.lastHolder n
          let s := if last ≠ 0 ∧ last ≠ c + 1 then tcc c 6 s else s
          let e := setF Fld.SEM_HOLDER (setF Fld.SEM_HELD (setF Fld.SEM_VALUE (semEntry n s) 0) 1) c
          let s := tbW (Tab.SEM n) e s
          { s with ctxs := { s.ctxs with lastHolder := smPut (fun _ => 0) s.ctxs.lastHolder n (c + 1) } }
        else tbWF (Tab.SEM n) Fld.SEM_VALUE (semValue n s - num) s
      resume b q id s
  | _ => s

/-! ## MOVE.T and the Floor (R98 to R106) -/

/-- Whether the Floor is armed. -/
def floorArmed (s : State) : Bool := bitF Fld.GLB_FLOOR_STATUS_ARMED (rd Reg.GLB_FLOOR_STATUS s)

/-- Whether an endpoint number is a Dovetail port (R101). -/
def isDovPort (e : Nat) : Bool := decide (0x600 ≤ e) && decide (e ≤ 0x63F)

/-- Latency of a Floor transfer after its last slot (R105). -/
def floorLatency (d : Word) : Nat := if getF Fld.FDESC_MITRE d = 0 then 24 else 32

/-- The last slot that a scheduled MOVE.T uses. -/
def moveLast (b : Nat) (r : Run) (s : State) : Nat := r.due - 1 - floorLatency (fdescOf b r.op.aux s)

/-- Give each MOVE.T that no interlock holds its slots, in issue order (R104, R105). -/
def schedRuns (b q : Nat) : List Run → List Run → State → List Run
  | done, [], _ => done
  | done, r :: rs, s =>
    let before := done.filter (fun x => x.op.aux == r.op.aux)
    if r.due ≠ 0 ∨ before.any (·.due == 0) ∨ readHeld b q r.op s = true then schedRuns b q (done ++ [r]) rs s
    else
      let d := fdescOf b r.op.aux s
      let mask := getF Fld.FDESC_SLOTS d
      let from' := before.foldl (fun c x => max c (moveLast b x s + 1)) (max (r.op.when + 2) s.cycle)
      let first := slotFrom mask from'
      let last := (slotsFrom mask (16 * r.op.num) first).getLastD first
      schedRuns b q (done ++ [{ r with start := first, due := last + floorLatency d + 1 }]) rs s

/-- Schedule what can be scheduled of side `q`'s MOVE.Ts. -/
def sched (b q : Nat) (s : State) : State :=
  let sd := sideOf b q s
  setSide b q { sd with moveQ := schedRuns b q [] sd.moveQ s } s

/-- MOVE.T (R103, R104, R108). -/
def issueMoveT (out : Bool) (b q : Nat) (w : Word) (s : State) : Option State :=
  if !floorArmed s then none
  else
    let sq := seqOf b q s
    let t := effOp Sl.TILE Sl.XT w sq
    let n := effOp Sl.MOVET_NT Sl.MOVET_XN w sq
    let fd := getF Sl.MOVET_FDESC w
    let d := fdescOf b fd s
    let ep := getF Fld.FDESC_ENDPOINT d
    if !runInTiles b q t (max n 1) s then some (issueFault b q cBadTile 0 s)
    else if !out && isDovPort ep then some (issueFault b q cIllegalOp 0 s)
    else if !isDovPort ep && decide (getF Fld.FDESC_REMOTE d + n > 384) then some (issueFault b q cBadTile 0 s)
    else
      let s1 := issued b q false Seq.next s
      if n = 0 ∨ getF Fld.FDESC_SLOTS d = 0 then some s1
      else
        let op := mkOp (if out then .moveOut else .moveIn) b q w t 0 n fd 0 s
        let sd := sideOf b q s1
        some (sched b q (setSide b q { sd with moveQ := sd.moveQ ++ [⟨op, 0, 0, 0, [], [], [], 0, 0⟩] } s1))

/-- The source and the destination of tile `k` of a MOVE.T between benches: bench and tile each. -/
def movePlaces (b : Nat) (op : UOp) (k : Nat) (s : State) : (Nat × Nat) × (Nat × Nat) :=
  let d := fdescOf b op.aux s
  let here := (b, op.tile + k)
  let there := (getF Fld.FDESC_ENDPOINT d, getF Fld.FDESC_REMOTE d + k)
  if op.kind = .moveOut then (here, there) else (there, here)

/-- How the tiles of a MOVE.T fare: all landed, held by a re-fetch at a tile, or a fault at one. -/
inductive MoveRes where
  | landed
  | held (k : Nat)
  | stop (cause : Nat)
  deriving DecidableEq, Repr

/-- Move tiles `k` onward of a MOVE.T (R93, R98 to R100). -/
def moveTiles (b q : Nat) (op : UOp) (e : Ecc) : Nat → Nat → State → MoveRes × State
  | 0, _, s => (.landed, s)
  | n + 1, k, s =>
    let p := movePlaces b op k s
    let mode := getF Fld.FDESC_MITRE (fdescOf b op.aux s)
    if mode = 0 then
      let s := eccBad p.1.1 p.1.2 e s
      let x := benchTile p.1.1 p.1.2 s
      let (x, s) :=
        if s.sbad.contains (btKey p.1.1 p.1.2) then
          let f := nextFresh s
          (({ x with payload := subBytes (Config.spoiled f.1) 0 4096 } : Tile), f.2)
        else (x, s)
      moveTiles b q op e n (k + 1) (landTile p.2.1 p.2.2 x s)
    else
      match useTile p.1.1 q p.1.2 6 e s with
      | (.refetch, s) => (.held k, s)
      | (.fault, s) => (.stop cChecksum, s)
      | (.badFormat, s) => (.stop cBadFormat, s)
      | (.pass, s) =>
        let x := benchTile p.1.1 p.1.2 s
        if !mitreTakes (tagF Fld.TAG_FORMAT x.tag) then (.stop cBadFormat, s)
        else moveTiles b q op e n (k + 1) (landTile p.2.1 p.2.2 (mitreTile mode x) s)

/-- The MOVE.T of side `q` that completes first and that nothing holds. -/
def moveReady (b q : Nat) (s : State) : Option Run :=
  ((sideOf b q s).moveQ.filter (fun r =>
    let d := fdescOf b r.op.aux s
    let src := (movePlaces b r.op r.prog s).1
    r.due != 0 && !writeHeld b q r.op s &&
      (if isDovPort (getF Fld.FDESC_ENDPOINT d) then r.prog == r.op.num else !heldUnit src.1 q 6 s))).foldl
    (fun m r => match m with | none => some r | some x => if r.due < x.due then some r else some x) none

/-- Replace or remove a run of side `q`'s MOVE.Ts. -/
def setMove (b q : Nat) (r : Run) (new : Option Run) (s : State) : State :=
  let sd := sideOf b q s
  setSide b q { sd with moveQ := (sd.moveQ.map (fun x => if x.op.po = r.op.po then new.toList else [x])).flatten } s

/-- A MOVE.T completes (R105), faults, or waits for a re-fetch of a source tile. -/
def moveComplete (b q : Nat) (e : Ecc) (s : State) : State :=
  match moveReady b q s with
  | none => s
  | some r =>
    let s := advanceTo r.due s
    let s := eccCount (movePlaces b r.op r.prog s).1.1 e s
    match (if r.prog = r.op.num then (MoveRes.landed, s) else moveTiles b q r.op e (r.op.num - r.prog) r.prog s) with
    | (.landed, s) => sched b q (setMove b q r none s)
    | (.held k, s) => setMove b q r (some { r with prog := k }) s
    | (.stop cause, s) => sched b q (opFault b q cause r.op (setMove b q r none s))

/-! ## Re-fetches (R96, R137, R138) -/

/-- Repeat the RD stage of the first pass that a re-fetch held in the row of side `q`, in cycle `c`. -/
def retryFlight (b q c : Nat) (e : Ecc) (s : State) : State :=
  match (sideOf b q s).flights.find? (·.held.isSome) with
  | some f => if heldUnit b q 0 s || heldUnit b q (16 + convRail) s then s
    else railRead b q f.op f.stile f.passNo c e s
  | none => s

/-- Repeat the RD stage of the passes that a re-fetch held: the pass whose read failed, and then the one at DS behind it. -/
def retryFlights (b : Nat) (e : Ecc) (s : State) : State :=
  let first := fun (s : State) (q : Nat) => match (sideOf b q s).flights.find? (·.held.isSome) with
    | some f => f.acAt != 0
    | none => false
  let s := ((upto 2).filter (first s)).foldl (fun s q => retryFlight b q s.cycle e s) s
  if (upto 2).any (first s) then s
  else (upto 2).foldl (fun s q => retryFlight b q (freeAt b q (·.rowFree) s + 1) e s) s

/-- Put a re-fetch of bench tile `t` on hold until recovery of its object ends (R137). -/
def holdRefetch (b t : Nat) (s : State) : State :=
  let y := benchOf b s
  setBench b { y with refetch := y.refetch.map (fun r => if r.tile == t then { r with due := none } else r) } s

/-- A re-fetched tile has been rewritten from Ruril, and the held pass repeats its use (R95, R96). -/
def refetchDone (b t : Nat) (e : Ecc) (s : State) : State :=
  match (benchOf b s).refetch.find? (fun r => r.tile == t), s.tier.xfers.find? (fun x =>
      x.kind == .refetch && x.bench == b && x.btile == t) with
  | some _, some x =>
    let s := dropXfer x (advanceTo x.due s)
    let r := rurilRead x.rtn e s
    if !r.1 then holdRefetch b t r.2
    else
      let s := r.2
      let tile := rurilTile x.rtn s
      let mode := objF x.obj 0 Fld.OBJ0_MITRE s
      if mode ≠ 0 ∧ tagF Fld.TAG_CRC tile.tag ≠ crc32c tile.payload then holdRefetch b t (poison x.obj x.tile s)
      else
        let tile := if mode = 0 then tile else mitreTile mode tile
        let s := bump Reg.TIR_TILES_IN (setBenchTile b t tile s)
        let y := benchOf b s
        let s := setBench b { y with refetch := y.refetch.filter (fun r => r.tile != t), refetched := y.refetched ++ [t] } s
        retryFlights b e s
  | _, _ => s

/-- Recovery of object `o` has ended: the re-fetches that it held are booked in this cycle (R138). -/
def bookHeld (o : Nat) (s : State) : State :=
  s.benches.foldl (fun s p => p.2.refetch.foldl (fun s r =>
    match r.due, mapOf p.1 r.tile s with
    | none, some (o', i) =>
      if o' ≠ o then s
      else
        match refetchBook o i s with
        | some (due, s) =>
          let y := benchOf p.1 s
          setBench p.1 { y with refetch := y.refetch.map (fun x => if x.tile == r.tile then { x with due := due } else x) } s
        | none =>
          let y := benchOf p.1 s
          retryFlights p.1 ⟨0, []⟩ (setBench p.1 { y with refetch := y.refetch.filter (fun x => x.tile != r.tile) } s)
    | _, _ => s) s) s

/-- Recovery of object `o` has failed: every use that it held ends in a context fault (R138). The row's use
ends now; another unit's ends when the unit takes it up again. -/
def failHeld (o : Nat) (s : State) : State :=
  s.benches.foldl (fun s p => p.2.refetch.foldl (fun s r =>
    match r.due, mapOf p.1 r.tile s with
    | none, some (o', _) =>
      if o' ≠ o then s
      else
        let y := benchOf p.1 s
        retryFlights p.1 ⟨0, []⟩ (setBench p.1 { y with
          refetch := y.refetch.filter (fun x => x.tile != r.tile), refetched := y.refetched ++ [r.tile] } s)
    | _, _ => s) s) s

/-! ## Starts and bench resets (R37, R55, R56, R434) -/

/-- Whether the units of side `q` have finished every instruction. -/
def Side.quiet (x : Side) : Bool :=
  x.rowQ.isEmpty && x.loadQ.isEmpty && x.shaveQ.isEmpty && x.sandQ.isEmpty && x.storeQ.isEmpty && x.moveQ.isEmpty &&
    x.loadRun.isNone && x.shaveRuns.isEmpty && x.sandRuns.isEmpty && x.storeRuns.isEmpty && x.flights.isEmpty &&
    x.sends.isEmpty

/-- Whether a GO bit for sequencer `q` is accepted (R56, R434). -/
def goOk (b q : Nat) (s : State) : Bool :=
  !inReset b s && !(benchOf b s).resetWait && !(seqOf b q s).st.active && seqOn b q s

/-- Accept a start of sequencer `q` at `pc`: it takes effect at the first frame start after this cycle. -/
def acceptGo (b q pc : Nat) (s : State) : State :=
  setSeq b q { seqOf b q s with startReq := some (pc, frameAfter s.cycle) } s

/-- A write of BEN_START. -/
def benStartWrite (b : Nat) (v : Word) (src : Src) (s : State) : State :=
  let go0 := bitF Fld.BEN_START_GO0 v
  let go1 := bitF Fld.BEN_START_GO1 v
  if (go0 && !goOk b 0 s) || (go1 && !goOk b 1 s) || inReset b s then refuse src (Reg.BEN_START b) s
  else
    let s := if go0 then acceptGo b 0 (getF Fld.BEN_START_PC0 v) s else s
    if go1 then acceptGo b 1 (getF Fld.BEN_START_PC1 v) s else s

/-- An accepted start takes effect (R39, R56). -/
def seqStart (b q : Nat) (s : State) : State :=
  let sq := seqOf b q s
  match sq.startReq with
  | none => s
  | some (pc, c) =>
    if !(sideOf b q s).quiet || inReset b s || glueHeld b q s then s
    else
      let s := advanceTo (if s.cycle ≤ c then c else frameFrom s.cycle) s
      let s := wr (faultReg b q) 0 s
      setSeq b q { sq with
        st := .run, pc := pc, idx := [], loops := [], blocked := .no, swaps := [], startReq := none,
        free := s.cycle, left := 2 } s

/-- What a bench reset leaves (R87, R434). -/
def resetBench (b : Nat) (s : State) : State :=
  let s := { s with
    sram := s.sram.filter (fun p => !(btKey b 0 * 4096 ≤ p.1 && p.1 < btKey (b + 1) 0 * 4096))
    stags := s.stags.filter (fun p => !(btKey b 0 ≤ p.1 && p.1 < btKey (b + 1) 0))
    sbad := s.sbad.filter (fun k => !(btKey b 0 ≤ k && k < btKey (b + 1) 0)) }
  let y := benchOf b s
  let s := setBench b { Bench.reset with
    seq0 := { Seq.reset with pc := y.seq0.pc, po := y.seq0.po }
    seq1 := { Seq.reset with pc := y.seq1.pc, po := y.seq1.po }
    resetDue := some (s.cycle + 1536) } s
  [Reg.BEN_FAULT0 b, Reg.BEN_FAULT1 b, Reg.BEN_EXC_FIRST b, Reg.BEN_CHECK_FIRST b, Reg.BEN_CYCLE_COUNT b,
    Reg.BEN_PASS_COUNT b, Reg.BEN_ROW_BUSY b, Reg.BEN_SHAVE_BUSY b, Reg.BEN_SAND_BUSY b, Reg.BEN_SRAM_ECC_CORR b,
    Reg.BEN_TILE_CHECK_FAIL b, Reg.BEN_TILE_REFETCH b, Reg.BEN_IMEM_ADDR b, Reg.BEN_FDESC_ADDR b].foldl
    (fun s r => wr r 0 s) s

/-- Whether every context that bench `b`'s table entry names is STOPPED or TORN. -/
def benchCtxsIdle (b : Nat) (s : State) : Bool :=
  (upto 2).all (fun q =>
    match (if q = 1 ∧ benchMode b s = 1 then none else ctxOf b q s) with
    | some c => ctxState c s == 0 || ctxState c s == 3
    | none => true)

/-- Whether some valid object places tiles on bench `b` and has a bench copy. -/
def benchMapped (b : Nat) (s : State) : Bool :=
  (validObjs s).any (fun o => objSram o s != 0 && decide (objF o 2 Fld.OBJ2_BFIRST s ≤ b) &&
    decide (b < objF o 2 Fld.OBJ2_BFIRST s + objF o 2 Fld.OBJ2_BCOUNT s))

/-- A write of BEN_RESET (R434). -/
def benResetWrite (b : Nat) (v : Word) (src : Src) (s : State) : State :=
  if !bitF Fld.BEN_RESET_RESET v && !inReset b s then s
  else if inReset b s || (benchOf b s).resetWait || !benchStopped b s || !benchCtxsIdle b s || benchMapped b s then
    refuse src (Reg.BEN_RESET b) s
  else
    let s := bump Reg.GLB_BENCH_RESETS s
    if (sideOf b 0 s).quiet && (sideOf b 1 s).quiet then resetBench b s
    else setBench b { benchOf b s with resetWait := true } s

/-- A bench reset that waited for the units begins, and one whose time has passed ends (R52, R434). -/
def benchSettle (b : Nat) (s : State) : State :=
  let y := benchOf b s
  let s := if y.resetWait && y.side0.quiet && y.side1.quiet then resetBench b s else s
  match (benchOf b s).resetDue with
  | none => s
  | some c => let s := advanceTo c s
    setBench b { benchOf b s with resetDue := none } s

/-- A write of BEN_CTL (R37). -/
def benCtlWrite (b : Nat) (v : Word) (src : Src) (s : State) : State :=
  let new := getF Fld.BEN_CTL_SPLIT v
  if new = rdF (Reg.BEN_CTL b) Fld.BEN_CTL_SPLIT s then s
  else if !benchStopped b s && !s.priv then refuse src (Reg.BEN_CTL b) s
  else
    let s := wrF (Reg.BEN_CTL b) Fld.BEN_CTL_SPLIT new s
    if new = 1 then setSeq b 1 { seqOf b 1 s with st := .idle } s else s

/-- The sequencer and address of an access to BEN_IMEM_DATA. -/
def imemPlace (b : Nat) (s : State) : Nat × Nat :=
  (rdF (Reg.BEN_IMEM_ADDR b) Fld.BEN_IMEM_ADDR_SEQ s, rdF (Reg.BEN_IMEM_ADDR b) Fld.BEN_IMEM_ADDR_ADDR s)

/-- Advance BEN_IMEM_ADDR.ADDR, wrapping from 8191 to 0. -/
def imemNext (b : Nat) (s : State) : State :=
  wrF (Reg.BEN_IMEM_ADDR b) Fld.BEN_IMEM_ADDR_ADDR ((imemPlace b s).2 + 1) s

/-- A write of BEN_IMEM_DATA (R55). -/
def imemWrite (b : Nat) (v : Word) (src : Src) (s : State) : State :=
  let p := imemPlace b s
  if (seqOf b p.1 s).st.active && !s.priv then refuse src (Reg.BEN_IMEM_DATA b) s
  else imemNext b (tbW (Tab.IMEM (seqKey b p.1 * 8192 + p.2)) v s)

/-- A read of BEN_IMEM_DATA (R55). -/
def imemRead (b : Nat) (src : Src) (s : State) : State :=
  let p := imemPlace b s
  if (seqOf b p.1 s).st.active then reply src 0 (refuse src (Reg.BEN_IMEM_DATA b) s)
  else imemNext b (reply src (tb (Tab.IMEM (seqKey b p.1 * 8192 + p.2)) s) s)

/-- A write of a register whose bit 63 clears all of it when written 1. -/
def clearOnValid (off : Nat) (v : Word) (s : State) : State := if bitAt v.toNat 63 then wr off 0 s else s

/-- A write of BEN_EXC_CTL (R83). -/
def excCtlWrite (b : Nat) (v : Word) (src : Src) (s : State) : State :=
  if !benchStopped b s && !s.priv then refuse src (Reg.BEN_EXC_CTL b) s
  else wr (Reg.BEN_EXC_CTL b) (v &&& 0x1F1F) s

/-! ## The Floor schedule (R108, R109) -/

/-- Whether the Floor is armed or a check runs. -/
def floorBusy (s : State) : Bool := floorArmed s || bitF Fld.GLB_FLOOR_STATUS_BUSY (rd Reg.GLB_FLOOR_STATUS s)

/-- An access to BEN_FDESC_DATA (R103, R109). -/
def fdescAccess (b : Nat) (a : Access) (src : Src) (s : State) : State :=
  let i := rdF (Reg.BEN_FDESC_ADDR b) Fld.BEN_FDESC_ADDR_INDEX s
  let next := fun (s : State) => wrF (Reg.BEN_FDESC_ADDR b) Fld.BEN_FDESC_ADDR_INDEX (i + 1) s
  match a with
  | .read => next (reply src (fdescOf b i s) s)
  | .write v =>
    if floorBusy s && !s.priv then refuse src (Reg.BEN_FDESC_DATA b) s
    else next (tbW (Tab.FDESC (b * 1024 + i)) v s)

/-- A write of BEN_FLOOR_SYS (R109). -/
def floorSysWrite (b : Nat) (v : Word) (src : Src) (s : State) : State :=
  if floorBusy s && !s.priv then refuse src (Reg.BEN_FLOOR_SYS b) s else wr (Reg.BEN_FLOOR_SYS b) (v &&& 0xFFFF) s

/-- A write of GLB_FLOOR_CTL (R108, R109). -/
def floorCtlWrite (v : Word) (src : Src) (s : State) : State :=
  let arm := bitF Fld.GLB_FLOOR_CTL_ARM v
  let dis := bitF Fld.GLB_FLOOR_CTL_DISARM v
  let busy := bitF Fld.GLB_FLOOR_STATUS_BUSY (rd Reg.GLB_FLOOR_STATUS s)
  if !arm && !dis then s
  else if !s.priv && ((dis && (busy || anyRunning s)) || (!dis && arm && floorBusy s)) then refuse src Reg.GLB_FLOOR_CTL s
  else
    let s := if dis then wrF Reg.GLB_FLOOR_STATUS Fld.GLB_FLOOR_STATUS_ARMED 0 s else s
    if arm then wr Reg.GLB_FLOOR_STATUS (setF Fld.GLB_FLOOR_STATUS_BUSY 0 1) s else s

/-- The Floor descriptors that are not 0, in ascending bench and index: bench, index, descriptor. -/
def floorDescs (s : State) : List (Nat × Nat × Word) :=
  (tabKeys (Tab.FDESC 0) (Tab.FDESC (1176 * 1024)) s).map (fun k =>
    ((k - Tab.FDESC 0) / 1024, (k - Tab.FDESC 0) % 1024, tb k s))

/-- Whether the first pass of R108 refuses a descriptor. -/
def fdescBad (d : Word) : Bool :=
  let ep := getF Fld.FDESC_ENDPOINT d
  (!decide (ep ≤ 0x497) && !isDovPort ep) || getF Fld.FDESC_MITRE d == 3 ||
    (getF Fld.FDESC_MITRE d != 0 && isDovPort ep)

/-- The ports at which a descriptor owns its slots, that of its own bench first. -/
def fdescPorts (b : Nat) (d : Word) : List Nat :=
  let ep := getF Fld.FDESC_ENDPOINT d
  if ep = b then [b] else [b, ep]

/-- The first conflict of a descriptor with the slots already owned: port and lowest slot. -/
def fdescConflict (b : Nat) (d : Word) (owned : List (Nat × Nat)) (s : State) : Option (Nat × Nat) :=
  (fdescPorts b d).findSome? (fun p =>
    ((setBits 16 (getF Fld.FDESC_SLOTS d)).find? (fun k =>
      owned.contains (p, k) || (decide (p ≤ 0x497) && bitAt (sysMask p s) k))).map (fun k => (p, k)))

/-- The second pass of R108: the first descriptor in conflict with its port and slot. -/
def floorScan (s : State) : List (Nat × Nat × Word) → List (Nat × Nat) → Option (Nat × Nat × Nat × Nat)
  | [], _ => none
  | (b, i, d) :: ds, owned =>
    match fdescConflict b d owned s with
    | some (p, k) => some (b, i, p, k)
    | none => floorScan s ds (owned ++ ((fdescPorts b d).map (fun p =>
        (setBits 16 (getF Fld.FDESC_SLOTS d)).map (fun k => (p, k)))).flatten)

/-- The status that a check leaves: RESULT, port, slot, bench, descriptor. -/
def floorStatus (armed result ep slot b i : Nat) : Word :=
  let w := setF Fld.GLB_FLOOR_STATUS_RESULT (setF Fld.GLB_FLOOR_STATUS_ARMED 0 armed) result
  let w := setF Fld.GLB_FLOOR_STATUS_SLOT (setF Fld.GLB_FLOOR_STATUS_ENDPOINT w ep) slot
  setF Fld.GLB_FLOOR_STATUS_FDESC (setF Fld.GLB_FLOOR_STATUS_BENCH w b) i

/-- The check that ARM started ends (R108). -/
def floorCheckDone (s : State) : State :=
  if !bitF Fld.GLB_FLOOR_STATUS_BUSY (rd Reg.GLB_FLOOR_STATUS s) then s
  else
    let ds := floorDescs s
    match ds.find? (fun p => fdescBad p.2.2) with
    | some (b, i, d) => wr Reg.GLB_FLOOR_STATUS (floorStatus 0 3 (getF Fld.FDESC_ENDPOINT d) 0 b i) s
    | none =>
      match floorScan s ds [] with
      | some (b, i, p, k) => wr Reg.GLB_FLOOR_STATUS (floorStatus 0 2 p k b i) s
      | none => wr Reg.GLB_FLOOR_STATUS (floorStatus 1 1 0 0 0 0) s

end Sys2Proof.Machine
end

