-- ==== Sys2Proof/Machine/Contexts.lean ====
section
/-!
DEFINITION. Work contexts: starts and their checks, the bench and semaphore tables, deferrals, the parts of a
teardown, and context resets (spec/12_work_contexts.md, spec/15_power_up_clocks_reset.md).
-/
namespace Sys2Proof.Machine

/-- Whether context `c` is STOPPED or TORN. -/
def ctxIdle (c : Nat) (s : State) : Bool := ctxState c s == 0 || ctxState c s == 3

/-- Whether a reset of context `c` runs (R433). -/
def ctxResetting (c : Nat) (s : State) : Bool := bitF Fld.CTX_STATUS_RESETTING (rd (Reg.CTX_STATUS c) s)

/-- The RUNNING contexts. -/
def runningCtxs (s : State) : List Nat := (upto 16).filter (fun c => ctxState c s == 1)

/-- READY and RUN follow the contexts (R420). -/
def devFollow (s : State) : State :=
  if s.dev = 5 ∧ (runningCtxs s).isEmpty = false then setDev 6 s
  else if s.dev = 6 ∧ (runningCtxs s).isEmpty = true then setDev 5 s
  else s

/-! ## Starting (R350, R352) -/

/-- The contexts that a bench table entry names (R354). -/
def entryCtxs (e : Word) : List Nat :=
  let a := getF Fld.CTX_BENCH_DATA_CTXA e
  let b := getF Fld.CTX_BENCH_DATA_CTXB e
  match getF Fld.CTX_BENCH_DATA_MODE e with
  | 0 => []
  | 1 => [a]
  | _ => [a, b]

/-- Whether bench `b`'s entry agrees with R354. -/
def entryAgrees (b : Nat) (s : State) : Bool :=
  let e := tb (Tab.BENCHTAB b) s
  let m := benchMode b s
  (split b s == (m == 3)) && (m != 2 || getF Fld.CTX_BENCH_DATA_CTXA e != getF Fld.CTX_BENCH_DATA_CTXB e)

/-- The benches whose entry is not 0, ascending. -/
def tableBenches (s : State) : List Nat :=
  (tabKeys (Tab.BENCHTAB 0) (Tab.BENCHTAB 1176) s).map (· - Tab.BENCHTAB 0)

/-- Whether slot ranges, given as (first, count), lie within the slots and do not overlap. -/
def rangesOk (l : List (Nat × Nat)) : Bool :=
  l.all (fun p => p.1 + p.2 ≤ 262144) &&
    decide (l.Pairwise (fun p q => p.2 = 0 ∨ q.2 = 0 ∨ p.1 + p.2 ≤ q.1 ∨ q.1 + q.2 ≤ p.1))

/-- The REFUSE code of a START of context `c`, 0 where every check of R352 passes. -/
def startCode (c : Nat) (s : State) : Nat :=
  let cs := c :: (runningCtxs s).filter (· != c)
  let fab := fun (f : Fld) => cs.map (fun x => rdF (Reg.CTX_FABRIC x) f s)
  let pools := fab Fld.CTX_FABRIC_POOL
  if ctxState c s ≠ 0 then 1
  else if pools.any (fun p => p != 0 && (p < 32 || p > 3840)) || decide (sum pools > 3840) then 2
  else if sum (fab Fld.CTX_FABRIC_STAGE) > 1024 then 3
  else if sum (fab Fld.CTX_FABRIC_COLSLOTS) > 256 then 4
  else if sum (fab Fld.CTX_FABRIC_CUT) > 64 * rdF Reg.FAB_CUT Fld.FAB_CUT_LEN s then 5
  else if sum (cs.map (fun x => rdF (Reg.CTX_INTAKE x) Fld.CTX_INTAKE_MAX s)) > 16384 then 6
  else if !rangesOk (cs.map (fun x => (slotFirst x s, slotRange x s))) then 7
  else if (tableBenches s).any (fun b => (entryCtxs (tb (Tab.BENCHTAB b) s)).contains c && !entryAgrees b s) then 8
  else 0

/-- START of a STOPPED context. -/
def ctxStart (c : Nat) (s : State) : State :=
  let code := startCode c s
  if code ≠ 0 then wrF (Reg.CTX_STATUS c) Fld.CTX_STATUS_REFUSE code s
  else
    let s := wrF (Reg.DOV_CTX_BAL c) Fld.DOV_CTX_BAL_COUNT 0 s
    let s := wrF (Reg.DOV_CTX_PLACE c) Fld.DOV_CTX_PLACE_COUNT 0 s
    devFollow (wrF (Reg.CTX_STATUS c) Fld.CTX_STATUS_STATE 1 s)

/-- A write of CTX_CTL (R350, R353, R420, R433). -/
def ctxCtlWrite (c : Nat) (v : Word) (src : Src) (s : State) : State :=
  let start := bitF Fld.CTX_CTL_START v
  let tear := bitF Fld.CTX_CTL_TEARDOWN v
  let no := refuse src (Reg.CTX_CTL c) s
  if ctxResetting c s then no
  else if tear then (if !start && ctxState c s == 1 then ctxFault c 0 s else no)
  else if !ctxIdle c s || (start && (ctxState c s == 3 || s.dev == 7)) then no
  else
    let s := wrF (Reg.CTX_CTL c) Fld.CTX_CTL_PRIORITY (getF Fld.CTX_CTL_PRIORITY v) s
    if start then ctxStart c s else s

/-- Whether a write of a register of context `c` is allowed (R353, R410, R433). -/
def ctxRegOpen (c : Nat) (s : State) : Bool := s.priv || (ctxIdle c s && !ctxResetting c s)

/-! ## The bench table (R354) -/

/-- An access to CTX_BENCH_DATA. -/
def benchTabAccess (a : Access) (src : Src) (s : State) : State :=
  let i := rdF Reg.CTX_BENCH_ADDR Fld.CTX_BENCH_ADDR_INDEX s
  let s := wrF Reg.CTX_BENCH_ADDR Fld.CTX_BENCH_ADDR_INDEX (i + 1) s
  match a with
  | .read => if i < 1176 then reply src (tb (Tab.BENCHTAB i) s) s else reply src 0 (refuse src Reg.CTX_BENCH_DATA s)
  | .write v =>
    let new := v &&& w64 0x3FF
    if i < 1176 ∧ (s.priv || (entryCtxs (tb (Tab.BENCHTAB i) s) ++ entryCtxs new).all (fun c => ctxIdle c s)) = true then
      tbW (Tab.BENCHTAB i) new s
    else refuse src Reg.CTX_BENCH_DATA s

/-! ## The semaphore table (R359, R539) -/

/-- The contexts that a semaphore entry names. -/
def semCtxs (e : Word) : List Nat :=
  getF Fld.SEM_OWNER e :: (if bitF Fld.SEM_PEER_EN e then [getF Fld.SEM_PEER e] else [])

/-- The writable fields of a semaphore entry other than VALUE. -/
def semCfg (e : Word) : Nat := e.toNat / 2 ^ 54

/-- Store a semaphore entry's writable fields; the lock's last holder becomes none (R539). -/
def semStore (n : Nat) (v : Word) (s : State) : State :=
  let e := semEntry n s
  let new := setF ⟨54, 10⟩ (setF Fld.SEM_VALUE e (getF Fld.SEM_VALUE v)) (semCfg v)
  let s := tbW (Tab.SEM n) new s
  let s := { s with ctxs := { s.ctxs with lastHolder := smPut (fun _ => 0) s.ctxs.lastHolder n 0 } }
  defer (.semCheck n) s

/-- Move on CTX_SEM_ADDR. -/
def semNext (s : State) : State :=
  wrF Reg.CTX_SEM_ADDR Fld.CTX_SEM_ADDR_INDEX (rdF Reg.CTX_SEM_ADDR Fld.CTX_SEM_ADDR_INDEX s + 1) s

/-- A write of CTX_SEM_DATA (R359). -/
def semDataWrite (v : Word) (src : Src) (s : State) : State :=
  let n := rdF Reg.CTX_SEM_ADDR Fld.CTX_SEM_ADDR_INDEX s
  let s := semNext s
  let e := semEntry n s
  let cfgOk := semCfg e == semCfg v || (semCtxs e ++ semCtxs v).all (fun c => ctxIdle c s)
  let valOk := getF Fld.SEM_VALUE e == getF Fld.SEM_VALUE v || !bitF Fld.SEM_HELD e
  if s.priv || (cfgOk && valOk) then semStore n v s else refuse src Reg.CTX_SEM_DATA s

/-- A read of CTX_SEM_DATA. -/
def semDataRead (src : Src) (s : State) : State :=
  let n := rdF Reg.CTX_SEM_ADDR Fld.CTX_SEM_ADDR_INDEX s
  reply src (semEntry n s) (semNext s)

/-! ## Deferrals (R363, R364) -/

/-- The deferral of holder `c` that began first. -/
def oldestDeferral (c : Nat) (s : State) : Option Deferral :=
  (s.ctxs.deferrals.filter (fun d => d.holder == c)).foldl (fun o d =>
    match o with
    | none => some d
    | some x => if d.began < x.began then some d else some x) none

/-- A deferral of `c` has lasted HOLD_MAX cycles (R364). -/
def holdExpire (c : Nat) (s : State) : State :=
  let lim := rdF (Reg.CTX_HOLD c) Fld.CTX_HOLD_HOLD_MAX s
  match oldestDeferral c s with
  | some d =>
    if lim = 0 ∨ ctxState c s ≠ 1 then s
    else
      let s := advanceTo (d.began + lim) s
      ctxFault c 0x0702 (log 0x0702 kContext c (some c) [w64 d.lock] s)
  | none => s

/-! ## Teardown (R366) -/

/-- The sequencers that context `c` owns, as (bench, sequencer). -/
def seqsOf (c : Nat) (s : State) : List (Nat × Nat) :=
  ((tableBenches s).map (fun b => (upto 2).filterMap (fun q =>
    if seqOn b q s && ctxOf b q s == some c then some (b, q) else none))).flatten

/-- Step 1: a sequencer that did not fault stops issue and enters IDLE. -/
def seqIdle (b q : Nat) (s : State) : State :=
  let sq := seqOf b q s
  if sq.st = .fault then setSeq b q { sq with startReq := none } s
  else discardSwaps b q (setSeq b q { sq.stopped .idle with startReq := none } s)

/-- Step 1 for every sequencer of context `c`. -/
def ctxSeqsStop (c : Nat) (s : State) : State := (seqsOf c s).foldl (fun s p => seqIdle p.1 p.2 s) s

/-- Step 6: every lock that context `c` holds is released. -/
def ctxLocks (c : Nat) (s : State) : State :=
  let held := (tabKeys (Tab.SEM 0) (Tab.SEM 4096) s).filter (fun k =>
    let e := tb k s
    bitF Fld.SEM_LOCK e && bitF Fld.SEM_HELD e && getF Fld.SEM_HOLDER e == c)
  held.foldl (fun s k => lockRelease (k - Tab.SEM 0) s) s

/-- The deferrals of holder `c` end (R363). -/
def endDeferrals (c : Nat) (s : State) : State :=
  { s with ctxs := { s.ctxs with deferrals := s.ctxs.deferrals.filter (fun d => d.holder != c) } }

/-- Step 7, once no boundary runs: slots and joins of `c` are emptied, and `c` is TORN, or STOPPED where job
state was cleared (R350). -/
def ctxStep7 (c : Nat) (s : State) : State :=
  if s.ctxs.step7.contains c && !boundaryRuns s then
    let s := match s.pool.bnd with
      | some b => advanceTo b.endAt s
      | none => s
    let s := slotsTorn c s
    let clear := s.ctxs.cleared.contains c
    let s := { s with ctxs := { s.ctxs with
      step7 := s.ctxs.step7.filter (· != c), cleared := s.ctxs.cleared.filter (· != c) } }
    wrF (Reg.CTX_STATUS c) Fld.CTX_STATUS_STATE (if clear then 0 else 3) s
  else s

/-! ## Context resets (R433) -/

/-- A write of CTX_RESET. -/
def ctxResetWrite (c : Nat) (v : Word) (src : Src) (s : State) : State :=
  if ctxResetting c s then refuse src (Reg.CTX_RESET c) s
  else if !bitF Fld.CTX_RESET_RESET v then s
  else if !ctxIdle c s then refuse src (Reg.CTX_RESET c) s
  else
    let s := bump Reg.GLB_CTX_RESETS s
    let s := wrF (Reg.CTX_STATUS c) Fld.CTX_STATUS_RESETTING 1 s
    { s with ctxs := { s.ctxs with resets := s.ctxs.resets ++ [(c, s.cycle + 2048)] } }

/-- Replace entries `k` to `k + n - 1` of a list by `x`. -/
def fillAt {α : Type} (l : List α) (k n : Nat) (x : α) : List α := putAt l k (List.replicate n x)

/-- What a context reset does on sequencer `q` of bench `b`. -/
def ctxResetSeq (b q : Nat) (s : State) : State :=
  let s := setSeq b q { (seqOf b q s).stopped .idle with startReq := none } s
  let s := wr (faultReg b q) 0 s
  let y := benchOf b s
  let m := benchMode b s
  let base := if m = 3 then 128 * q else 0
  let n := if m = 3 then 128 else 256
  let accs := if m = 2 then (upto 32).map (32 * q + ·) else upto 64
  let banks := if m = 2 ∧ q = 1 then [2, 3] else [0, 1]
  let y := accs.foldl (fun y a => y.setAccRow a (fillAt (y.accRow a) base n Acc.zero)) y
  let y := banks.foldl (fun y k => y.setBank k (fillAt (y.bank k) base n LaneStile.zero)) y
  let y := if m = 1 then { y with heldLo := ⟨8, []⟩, heldHi := ⟨8, []⟩ }
    else if q = 0 then { y with heldLo := ⟨8, []⟩ } else { y with heldHi := ⟨8, []⟩ }
  setBench b y s

/-- The counters that a context reset sets to 0. -/
def ctxCounters (c : Nat) : List Nat :=
  [Reg.CTX_EXC_INVALID c, Reg.CTX_EXC_DIVZERO c, Reg.CTX_EXC_OVERFLOW c, Reg.CTX_EXC_UNDERFLOW c,
    Reg.CTX_EXC_INEXACT c, Reg.CTX_UNDERFLOW_FLUSH c, Reg.CTX_ESC_LOST c, Reg.CTX_TIER_MISS c, Reg.CTX_SHED c,
    Reg.CTX_DEFERRALS c, Reg.CTX_TEARDOWNS c, Reg.CTX_SEM_ERRORS c, Reg.DET_TCC c, Reg.DET_TCC_FIRST c]

/-- A context reset completes: every effect together. -/
def ctxResetDone (c : Nat) (s : State) : State :=
  if !s.ctxs.resets.any (fun p => p.1 == c) || (seqsOf c s).any (fun p => inReset p.1 s || (benchOf p.1 s).resetWait) then s
  else
    let alone := (tableBenches s).filter (fun b =>
      let l := entryCtxs (tb (Tab.BENCHTAB b) s)
      !l.isEmpty && l.all (· == c))
    let s := (seqsOf c s).foldl (fun s p => ctxResetSeq p.1 p.2 s) s
    let s := alone.foldl (fun s b => wr (Reg.BEN_EXC_FIRST b) 0 (wr (Reg.BEN_CHECK_FIRST b) 0 s)) s
    let s := (ctxCounters c).foldl (fun s r => wr r 0 s) s
    let sems := (tabKeys (Tab.SEM 0) (Tab.SEM 4096) s).filter (fun k => getF Fld.SEM_OWNER (tb k s) == c)
    let s := sems.foldl (fun s k =>
      let s := tbW k (setF Fld.SEM_HOLDER (setF Fld.SEM_HELD (setF Fld.SEM_VALUE (tb k s) 0) 0) 0) s
      { s with ctxs := { s.ctxs with lastHolder := smPut (fun _ => 0) s.ctxs.lastHolder (k - Tab.SEM 0) 0 } }) s
    let s := { s with ctxs := { s.ctxs with resets := s.ctxs.resets.filter (fun p => p.1 != c) } }
    wr (Reg.CTX_STATUS c) 0 s

end Sys2Proof.Machine
end

