-- ==== Sys2Proof/Machine/Packets.lean ====
section
/-!
DEFINITION. Packets, flits, FEC blocks and lane scrambling as bytes (spec/08, spec/09, spec/10).
-/
namespace Sys2Proof.Machine

/-! ## Network and transport headers (R263, R289) -/

def Pk.VER : Fld := ⟨60, 4⟩
def Pk.KIND : Fld := ⟨58, 2⟩
def Pk.ORDERED : Fld := ⟨57, 1⟩
def Pk.CTX : Fld := ⟨53, 4⟩
def Pk.DST : Fld := ⟨35, 15⟩
def Pk.SRC : Fld := ⟨20, 15⟩
def Pk.SRCRANK : Fld := ⟨5, 15⟩
def Pk.KEY : Fld := ⟨32, 32⟩
def Pk.EPOCH : Fld := ⟨16, 16⟩
def Pk.TTYPE : Fld := ⟨60, 4⟩
def Pk.FIRST : Fld := ⟨59, 1⟩
def Pk.LAST : Fld := ⟨58, 1⟩
def Pk.REPLAY : Fld := ⟨57, 1⟩
def Pk.WAIT : Fld := ⟨56, 1⟩
def Pk.CHAN : Fld := ⟨36, 16⟩
def Pk.CHUNK : Fld := ⟨16, 20⟩
def Pk.STEP : Fld := ⟨0, 16⟩
def Pk.SEQ : Fld := ⟨32, 32⟩
def Pk.NCHUNK : Fld := ⟨0, 20⟩
def Pk.GROUP : Fld := ⟨48, 16⟩
def Pk.GSEQ : Fld := ⟨16, 32⟩
def Pk.HCRC : Fld := ⟨48, 16⟩

/-- A field of network header word 0. -/
def pkN0 (p : Packet) (f : Fld) : Nat := getF f p.h0
/-- A field of network header word 1. -/
def pkN1 (p : Packet) (f : Fld) : Nat := getF f p.h1
/-- Transport header word `i`. -/
def pkTw (p : Packet) (i : Nat) : Word := p.t.getD i 0
/-- A field of transport header word `i`. -/
def pkT (p : Packet) (i : Nat) (f : Fld) : Nat := getF f (pkTw p i)
/-- Word `i` of a CONTROL packet's payload; word 0 is the type word (R274). -/
def pkC (p : Packet) (i : Nat) : Nat := (p.ctl.getD i 0).toNat

/-- The bytes of a list of words. -/
def wordBytes (ws : List Word) : List Byte := (ws.map (fun w => leBytes 8 w.toNat)).flatten

/-- One byte of the CRC-16 of R290. -/
def crc16Byte (c b : Nat) : Nat :=
  (upto 8).foldl (fun x _ => if x / 2 ^ 15 % 2 = 1 then (x * 2 % 2 ^ 16) ^^^ 0x1021 else x * 2 % 2 ^ 16) (c ^^^ (b * 256))

/-- CRC-16 of a byte list (R290). -/
def crc16 (bs : List Byte) : Nat := bs.foldl (fun c b => crc16Byte c b.toNat) 0xFFFF

/-- HCRC of a transport packet (R290). -/
def hcrc (p : Packet) : Nat := crc16 (wordBytes [p.h0, p.h1, pkTw p 0, pkTw p 1, pkTw p 2])

/-- Whether a transport packet passes its HCRC (R292). -/
def hcrcOk (p : Packet) : Bool := getF Pk.HCRC (pkTw p 3) == hcrc p

/-- A packet with its HCRC filled in. -/
def sealed (p : Packet) : Packet := { p with t := p.t.take 3 ++ [w64 (hcrc p * 2 ^ 48)] }

/-- The 16 bytes of a tag. -/
def tagBytes (t : BitVec 128) : List Byte := leBytes 16 t.toNat

/-- The bytes of a packet (R263, R289, R291). -/
def packetBytes (p : Packet) : List Byte :=
  wordBytes ([p.h0, p.h1] ++ p.t ++ p.ctl) ++
    (match p.tile with | some x => tagBytes x.tag ++ subBytes x.payload 0 4096 | none => []) ++ p.cells

/-- The words of a byte list. -/
def bytesWords (bs : List Byte) : List Word := (upto ((bs.length + 7) / 8)).map (fun i => w64 (leAt bs (8 * i) 8))

/-- The packet that a byte list holds. -/
def parsePacket (bs : List Byte) : Packet :=
  let h0 := w64 (leAt bs 0 8)
  let h1 := w64 (leAt bs 8 8)
  let rest := bs.drop 16
  if getF Pk.VER h0 = 2 then ⟨h0, h1, [], [], none, rest⟩
  else if getF Pk.KIND h0 = 2 then ⟨h0, h1, [], bytesWords rest, none, []⟩
  else
    let t := (upto 4).map (fun i => w64 (leAt rest (8 * i) 8))
    let body := rest.drop 32
    if getF Pk.TTYPE (t.getD 0 0) = 0 then
      ⟨h0, h1, t, [], some ⟨BitVec.ofNat 128 (leAt body 0 16), subBytes body 16 4096⟩, []⟩
    else ⟨h0, h1, t, [], none, []⟩

/-- Cut a byte list into runs of at most 240 bytes; the fuel bounds their number. -/
def runs240 : Nat → List Byte → List (List Byte)
  | 0, _ => []
  | k + 1, bs => if bs.length ≤ 240 then [bs] else bs.take 240 :: runs240 k (bs.drop 240)

/-- The payloads of a packet's flits (R242). -/
def packetFlits (p : Packet) : List (List Byte) := runs240 32 (packetBytes p)

/-! ## Flits (R240) -/

/-- The fields of a flit's header and its payload. -/
structure FlitHdr where
  type : Nat
  replay : Bool
  seq : Nat
  ack : Nat
  pools : Nat × Nat
  counts : Nat × Nat
  deriving DecidableEq, Repr

/-- The 256 bytes of a flit (R240). -/
def flitBytes (h : FlitHdr) (f : Flit) : List Byte :=
  let w0 := h.type * 2 ^ 60 + b2n f.sop * 2 ^ 59 + b2n f.eop * 2 ^ 58 + b2n h.replay * 2 ^ 57 + f.payload.length * 2 ^ 49 +
    f.pool * 2 ^ 44 + h.seq * 2 ^ 36 + h.ack * 2 ^ 28 + h.pools.1 * 2 ^ 23 + h.counts.1 * 2 ^ 11
  let w1 := h.pools.2 * 2 ^ 27 + h.counts.2 * 2 ^ 15
  let body := leBytes 8 w0 ++ leBytes 4 w1 ++ subBytes f.payload 0 240
  body ++ leBytes 4 (crc32c body)

/-- Whether a flit's CRC is right. -/
def flitCrcOk (bs : List Byte) : Bool := leAt bs 252 4 == crc32c (bs.take 252)

/-- The header of a received flit. -/
def flitHdr (bs : List Byte) : FlitHdr :=
  let w0 := leAt bs 0 8
  let w1 := leAt bs 8 4
  ⟨bitsOf w0 63 60, bitAt w0 57, bitsOf w0 43 36, bitsOf w0 35 28, (bitsOf w0 27 23, bitsOf w1 31 27),
    (bitsOf w0 22 11, bitsOf w1 26 15)⟩

/-- The payload part of a received flit. -/
def flitOf (bs : List Byte) : Flit :=
  let w0 := leAt bs 0 8
  ⟨bitsOf w0 48 44, bitAt w0 59, bitAt w0 58, subBytes (bs.drop 12) 0 (bitsOf w0 56 49)⟩

/-- Whether a flit follows R241. -/
def flitLegal (bs : List Byte) : Bool :=
  let w0 := leAt bs 0 8
  let len := bitsOf w0 56 49
  let ty := bitsOf w0 63 60
  ty ≤ 2 && bitsOf w0 10 0 == 0 && leAt bs 8 4 % 2 ^ 15 == 0 &&
    (if ty = 1 then 1 ≤ len && len ≤ 240 && bitsOf w0 48 44 ≤ 16 else len == 0)

/-! ## The Reed-Solomon code (R237) -/

/-- Product in GF(2^8) with polynomial 0x11D, by eight doublings. -/
def gfMul (a b : Nat) : Nat :=
  ((upto 8).foldl (fun (p : Nat × Nat) i =>
    (if bitAt b i then p.1 ^^^ p.2 else p.1,
      if p.2 ≥ 128 then (p.2 * 2) ^^^ 0x11D else p.2 * 2)) (0, a)).1

/-- α^k. -/
def gfPow : Nat → Nat
  | 0 => 1
  | k + 1 => gfMul (gfPow k) 2

/-- a^n by repeated squaring; the fuel bounds the bits of `n`. -/
def gfExp (a : Nat) : Nat → Nat → Nat
  | 0, _ => 1
  | k + 1, n => if n = 0 then 1 else
      let h := gfExp (gfMul a a) k (n / 2)
      if n % 2 = 1 then gfMul a h else h

/-- The inverse of a non-zero element. -/
def gfInv (a : Nat) : Nat := gfExp a 8 254

/-- The generator polynomial, highest degree first. -/
def rsGen : List Nat :=
  (upto 8).foldl (fun g i =>
    let r := gfPow i
    List.zipWith (· ^^^ ·) (g ++ [0]) (0 :: g.map (gfMul r))) [1]

/-- The parity symbols of a message, highest degree first: its remainder times x^8 modulo the generator. -/
def rsParity (msg : List Nat) : List Nat :=
  let tail := rsGen.drop 1
  msg.foldl (fun r m =>
    let f := m ^^^ r.headD 0
    List.zipWith (· ^^^ ·) (r.drop 1 ++ [0]) (tail.map (gfMul f))) (List.replicate 8 0)

/-- The value of a polynomial, highest degree first. -/
def gfEval (p : List Nat) (x : Nat) : Nat := p.foldl (fun a c => gfMul a x ^^^ c) 0

/-- The eight syndromes of a codeword. -/
def rsSyn (cw : List Nat) : List Nat := (upto 8).map (fun i => gfEval cw (gfPow i))

/-- Coefficient `i` of a polynomial, lowest degree first. -/
def co (p : List Nat) (i : Nat) : Nat := p.getD i 0

/-- Sum of two polynomials, lowest degree first. -/
def polyAdd (a b : List Nat) : List Nat := (upto (max a.length b.length)).map (fun i => co a i ^^^ co b i)

/-- The error locator of Berlekamp and Massey, lowest degree first, with its assumed degree. -/
def rsLocator (syn : List Nat) : List Nat × Nat :=
  let r := (upto 8).foldl (fun (st : List Nat × List Nat × Nat × Nat × Nat) n =>
    let (c, b, l, m, d0) := st
    let d := (upto (l + 1)).foldl (fun a i => a ^^^ gfMul (co c i) (co syn (n - i))) 0
    if d = 0 then (c, b, l, m + 1, d0)
    else
      let k := gfMul d (gfInv d0)
      let c' := polyAdd c (List.replicate m 0 ++ b.map (gfMul k))
      if 2 * l ≤ n then (c', c, n + 1 - l, 1, d) else (c', b, l, m + 1, d0)) ([1], [1], 0, 1, 1)
  (r.1, r.2.2.1)

/-- Decode a codeword of 200 symbols: the corrected codeword and the places corrected, or none. -/
def rsDecode (cw : List Nat) : Option (List Nat × List Nat) :=
  let syn := rsSyn cw
  if syn.all (· == 0) then some (cw, [])
  else
    let (loc, l) := rsLocator syn
    if l > 4 then none
    else
      let places := (upto 200).filter (fun j => gfEval loc.reverse (gfInv (gfPow (199 - j))) == 0)
      if places.length ≠ l then none
      else
        let omega := (upto 8).map (fun i => (upto (i + 1)).foldl (fun a j => a ^^^ gfMul (co syn j) (co loc (i - j))) 0)
        let deriv := (upto 8).map (fun i => if i % 2 = 0 then co loc (i + 1) else 0)
        let fixed := (cw.zipIdx).map (fun p =>
          if places.contains p.2 then
            let x := gfPow (199 - p.2)
            let xi := gfInv x
            p.1 ^^^ gfMul x (gfMul (gfEval omega.reverse xi) (gfInv (gfEval deriv.reverse xi)))
          else p.1)
        if (rsSyn fixed).all (· == 0) then some (fixed, places) else none

/-- Codeword `c` of a block of 800 bytes. -/
def blockWord (bs : Array Byte) (c : Nat) : List Nat := (upto 200).map (fun j => (bs.getD (4 * j + c) 0).toNat)

/-- A block of 800 bytes from three flits (R237). -/
def fecBlock (flits : List Byte) : List Byte :=
  let a := flits.toArray
  let par := (upto 4).map (fun c => rsParity ((upto 192).map (fun j => (a.getD (4 * j + c) 0).toNat)))
  flits ++ ((upto 8).map (fun j => par.map (fun p => BitVec.ofNat 8 (p.getD j 0)))).flatten

/-- The bytes of a block from its four codewords. -/
def interleave (cws : List (List Nat)) : List Byte :=
  ((upto 200).map (fun j => cws.map (fun c => BitVec.ofNat 8 (c.getD j 0)))).flatten

/-- Decode a block: its flit bytes and the block bytes corrected, or none where a codeword is uncorrectable. -/
def fecDecode (bs : List Byte) : Option (List Byte × List Nat) :=
  let a := bs.toArray
  let ds := (upto 4).map (fun c => rsDecode (blockWord a c))
  if ds.any (·.isNone) then none
  else
    let ok := ds.filterMap id
    some ((interleave (ok.map (·.1))).take 768,
      ((ok.zipIdx).map (fun p => p.1.2.map (fun j => 4 * j + p.2))).flatten)

/-! ## Lane scrambling (R238) -/

/-- One step of PRBS31: the bit that leaves the register and the register after it. The register's oldest bit
leaves first. -/
def prbsBit (r : Nat) : Nat × Nat :=
  let out := r / 2 ^ 30 % 2
  let fb := (r / 2 ^ 30 + r / 2 ^ 27) % 2
  (out, r * 2 % 2 ^ 31 + fb)

/-- The next byte of the sequence, its first bit the most significant (R234), and the register after it. -/
def prbsByte (r : Nat) : Nat × Nat :=
  (upto 8).foldl (fun (p : Nat × Nat) _ => let b := prbsBit p.2; (p.1 * 2 + b.1, b.2)) (0, r)

/-- The next `n` bytes of the sequence. -/
def prbsBytes : Nat → Nat → List Nat × Nat
  | 0, r => ([], r)
  | n + 1, r =>
    let b := prbsByte r
    let rest := prbsBytes n b.2
    (b.1 :: rest.1, rest.2)

/-- Scramble or unscramble a block on `w` active lanes: byte b of the block travels on lane b mod `w`, and every
lane has the same sequence. -/
def scramble (w r : Nat) (bs : List Byte) : List Byte × Nat :=
  let p := prbsBytes (800 / w) r
  let key := p.1.toArray
  ((bs.zipIdx).map (fun x => x.1 ^^^ BitVec.ofNat 8 (key.getD (x.2 / w) 0)), p.2)

end Sys2Proof.Machine
end

