-- ==== Sys2Proof/Machine/Net.lean ====
section
/-!
DEFINITION. The network layer: ports as the other layers see them, addresses, ranks, groups, trees, routes and the
checks of received packets (spec/09_fabric_network_and_jobs.md, spec/11_collectives.md for groups).
-/
namespace Sys2Proof.Machine

/-! ## Ports -/

/-- Port `n` beyond its registers; number 16 stands for the device's own delivery (route 1 of R270). -/
def portOf (n : Nat) (s : State) : Port := smGet (fun _ => Port.reset) s.ports n
/-- Store port `n`. -/
def setPort (n : Nat) (p : Port) (s : State) : State :=
  { s with ports := smPut (fun _ => Port.reset) s.ports n p }
/-- STATE of port `n` (R254, R259): 0 DISABLED, 1 DETECT, 2 EQ, 3 IDENT, 4 ALIGN, 5 ACTIVE, 6 RETRAIN, 7 DOWN. -/
def portState (n : Nat) (s : State) : Nat := rdF (Reg.FAB_PORT_STATUS n) Fld.FAB_PORT_STATUS_STATE s
/-- Whether port `n` is ACTIVE. -/
def portActive (n : Nat) (s : State) : Bool := portState n s == 5
/-- Whether the device is in TRAIN, READY, RUN or STOPPED. -/
def fabricOn (s : State) : Bool := s.dev == 4 || s.dev == 5 || s.dev == 6 || s.dev == 7

/-- Cycles of the 850 MHz clock in `n` ns, rounded up. -/
def nsCycles (n : Nat) : Nat := (n * 17 + 19) / 20
/-- Cycles in `n` ms. -/
def msCycles (n : Nat) : Nat := n * 850000

/-! ## Addresses, job and ranks (R261 to R266) -/

/-- Whether a tray number has been assigned. -/
def selfValid (s : State) : Bool := bitF Fld.FAB_SELF_VALID (rd Reg.FAB_SELF s)
/-- The device's PHYS. -/
def selfPhys (s : State) : Nat := (rd Reg.FAB_SELF s).toNat % 2 ^ 15
/-- STATE of the job: 0 NONE, 1 ACTIVE, 2 DRAINING. -/
def jobState (s : State) : Nat := rdF Reg.FAB_JOB Fld.FAB_JOB_STATE s
/-- The job's KEY. -/
def jobKey (s : State) : Nat := rdF Reg.FAB_JOB Fld.FAB_JOB_KEY s
/-- The job's EPOCH. -/
def jobEpoch (s : State) : Nat := rdF Reg.FAB_JOB Fld.FAB_JOB_EPOCH s
/-- STATE of rank `r`'s entry: 0 INVALID, 1 LIVE, 2 FAILED. -/
def rankState (r : Nat) (s : State) : Nat := tbF (Tab.RANK r) ⟨62, 2⟩ s
/-- PHYS of rank `r`'s entry. -/
def rankPhys (r : Nat) (s : State) : Nat := tbF (Tab.RANK r) ⟨0, 15⟩ s
/-- Whether rank `r`'s entry is LIVE. -/
def rankLive (r : Nat) (s : State) : Bool := rankState r s == 1
/-- The ranks whose entry lists a word, ascending. -/
def rankKeys (s : State) : List Nat := (tabKeys (Tab.RANK 0) (Tab.RANK 32768) s).map (· - Tab.RANK 0)
/-- The ranks whose LIVE entry holds FAB_SELF. -/
def selfRanks (s : State) : List Nat :=
  if selfValid s then (rankKeys s).filter (fun r => rankLive r s && rankPhys r s == selfPhys s) else []
/-- The device's own rank, where FAB_RANK.VALID is 1. -/
def ownRank (s : State) : Option Nat :=
  if bitF Fld.FAB_RANK_VALID (rd Reg.FAB_RANK s) then some (rdF Reg.FAB_RANK Fld.FAB_RANK_RANK s) else none
/-- FAB_RANK follows the rank table (R266). -/
def refreshRank (s : State) : State :=
  match selfRanks s with
  | r :: _ => wr Reg.FAB_RANK (w64 (2 ^ 63 + r)) s
  | [] => wr Reg.FAB_RANK 0 s

/-! ## Groups and trees (R271, R316 to R318) -/

/-- Word `w` of group `g`. -/
def groupWord (g w : Nat) (s : State) : Word := tb (Tab.GROUP (g * 2 + w)) s
/-- Whether group `g` is valid: entry 0 and IDs above 1,023 never are. -/
def groupValid (g : Nat) (s : State) : Bool := g != 0 && decide (g < 1024) && bitF Fld.GROUP0_VALID (groupWord g 0 s)
/-- Members of group `g`. -/
def groupN (g : Nat) (s : State) : Nat := getF Fld.GROUP0_N (groupWord g 0 s)
/-- Owning context of group `g`. -/
def groupCtx (g : Nat) (s : State) : Nat := getF Fld.GROUP0_CTX (groupWord g 0 s)
/-- Entry `k` of the member list (R318). -/
def listEntry (k : Nat) (s : State) : Nat := tbF (Tab.LIST (k / 4)) ⟨k % 4 * 16, 15⟩ s
/-- Rank of position `i` of the group with words `w0`, `w1`. -/
def memberOf (w0 w1 : Word) (i : Nat) (s : State) : Nat :=
  if bitF Fld.GROUP0_MODE w0 then listEntry (getF Fld.GROUP1_LBASE w1 + i) s
  else getF Fld.GROUP0_FIRST w0 + i * getF Fld.GROUP0_STRIDE w0
/-- Rank of position `i` of group `g` (R317). -/
def groupRank (g i : Nat) (s : State) : Nat := memberOf (groupWord g 0 s) (groupWord g 1 s) i s
/-- The ranks of group `g` in position order. -/
def groupRanks (g : Nat) (s : State) : List Nat := (upto (groupN g s)).map (fun i => groupRank g i s)
/-- Position of rank `r` in group `g`. -/
def groupPos (g r : Nat) (s : State) : Option Nat :=
  if groupValid g s then (upto (groupN g s)).find? (fun i => groupRank g i s == r) else none

/-- The entry of tree `t`. -/
def treeWord (t : Nat) (s : State) : Word := tb (Tab.TREE t) s
/-- GROUP of tree `t`. -/
def treeGroup (t : Nat) (s : State) : Nat := getF Fld.FAB_TREE_DATA_GROUP (treeWord t s)
/-- ROOT of tree `t`. -/
def treeRoot (t : Nat) (s : State) : Nat := getF Fld.FAB_TREE_DATA_ROOT (treeWord t s)
/-- FANOUT of tree `t`. -/
def treeFan (t : Nat) (s : State) : Nat := getF Fld.FAB_TREE_DATA_FANOUT (treeWord t s)
/-- Whether tree `t` is VALID. -/
def treeValid (t : Nat) (s : State) : Bool := decide (t < 256) && bitF Fld.FAB_TREE_DATA_VALID (treeWord t s)
/-- Tree position of rank `r`. -/
def treePos (t r : Nat) (s : State) : Option Nat :=
  if treeValid t s then
    match groupPos (treeGroup t s) r s, groupPos (treeGroup t s) (treeRoot t s) s with
    | some i, some j => some ((i + groupN (treeGroup t s) s - j) % groupN (treeGroup t s) s)
    | _, _ => none
  else none
/-- Rank at tree position `p`. -/
def treeRankAt (t p : Nat) (s : State) : Nat :=
  let g := treeGroup t s
  groupRank g ((p + (groupPos g (treeRoot t s) s).getD 0) % groupN g s) s
/-- The children of rank `r` on tree `t`, in ascending tree position. -/
def treeChildren (t r : Nat) (s : State) : List Nat :=
  match treePos t r s with
  | some p =>
    ((upto (treeFan t s)).map (fun k => treeFan t s * p + 1 + k)).filterMap (fun q =>
      if q < groupN (treeGroup t s) s then some (treeRankAt t q s) else none)
  | none => []
/-- The parent of rank `r` on tree `t`; none for ROOT. -/
def treeParent (t r : Nat) (s : State) : Option Nat :=
  match treePos t r s with
  | some p => if p = 0 then none else some (treeRankAt t ((p - 1) / treeFan t s) s)
  | none => none

/-! ## Routes (R269, R270, R298) -/

/-- The plane mask of a tray. -/
def planeMask (tray : Nat) (s : State) : Nat := tbF (Tab.PLANE (tray / 8)) ⟨tray % 8 * 8, 8⟩ s
/-- Whether plane `p` is usable toward a tray for a packet of version 2 or 3. -/
def planeUsable (v2 : Bool) (tray p : Nat) (s : State) : Bool :=
  bitAt (planeMask tray s) p && portActive (8 + p) s &&
    (!v2 || decide (rdF (Reg.FAB_PORT_PARTNER (8 + p)) Fld.FAB_PORT_PARTNER_VMIN s ≤ 2))

/-- The route of a packet to `dst`: a port, 16 for the device itself, or none; planes are tried from `h` (R270). -/
def route (v2 : Bool) (h dst : Nat) (s : State) : Option Nat :=
  let ty := dst / 8
  let ts := dst % 8
  let y := selfPhys s / 8
  let sl := selfPhys s % 8
  let mesh := (ts + 7 - sl) % 8
  if dst = selfPhys s then some 16
  else if ty = y ∧ portActive mesh s = true then some mesh
  else if ty = y ^^^ 1 ∧ ts = sl ∧ bitF Fld.FAB_NET_CFG_TWIN_ROUTE (rd Reg.FAB_NET_CFG s) = true ∧ portActive 7 s = true then some 7
  else ((upto 8).map (fun k => (h + k) % 8)).find? (fun p => planeUsable v2 ty p s) |>.map (8 + ·)

/-- Whether a packet is a CONTROL packet. -/
def isCtl (p : Packet) : Bool := pkN0 p Pk.VER == 3 && pkN0 p Pk.KIND == 2
/-- Whether a packet is a MULTICAST packet. -/
def isTree (p : Packet) : Bool := pkN0 p Pk.VER == 3 && pkN0 p Pk.KIND == 1

/-- The plane at which the choice of R298 starts. A version 2 packet, to which the rule gives no DSTRANK, is chosen
by PHYS values as CONTROL is (DEDUCED). -/
def planeHash (p : Packet) (dstRank : Nat) : Nat :=
  if pkN0 p Pk.VER = 2 ∨ isCtl p = true ∨ pkT p 0 Pk.TTYPE = 4 then (pkN0 p Pk.SRC + pkN0 p Pk.DST) % 8
  else
    let h := pkN0 p Pk.SRCRANK + dstRank + pkN0 p Pk.CTX
    if pkN0 p Pk.ORDERED = 1 then h % 8 else (h + pkT p 1 Pk.SEQ) % 8

/-- The credit pool of a packet (R243, R264, R291). -/
def poolFor (p : Packet) : Nat :=
  if pkN0 p Pk.VER = 2 ∨ isCtl p = true ∨ pkT p 0 Pk.TTYPE ≥ 2 then 16 else pkN0 p Pk.CTX

/-- Hand a packet to a port's sender, or deliver it to the device itself at once. -/
def pushPacket (n : Nat) (p : Packet) (s : State) : State :=
  let x := portOf n s
  if n = 16 then setPort 16 { x with arrived := x.arrived ++ [⟨poolFor p, 0, false, s.cycle, p⟩] } s
  else setPort n { x with txq := x.txq ++ [⟨poolFor p, packetFlits p, p⟩] } s

/-- Send a packet to the device at `dst` (R270): whether it found a route. -/
def netSend (p : Packet) (dst dstRank : Nat) (s : State) : Bool × State :=
  match route (pkN0 p Pk.VER == 2) (planeHash p dstRank) dst s with
  | some n => (true, pushPacket n p s)
  | none => (false, bump Reg.FAB_NOROUTE s)

/-! ## Building packets (R263, R274, R289) -/

/-- Network header word 0. -/
def netWord0 (ver kind ordered ctx dst src srcRank : Nat) : Word :=
  w64 (ver * 2 ^ 60 + kind * 2 ^ 58 + ordered * 2 ^ 57 + ctx % 16 * 2 ^ 53 + dst % 2 ^ 15 * 2 ^ 35 + src * 2 ^ 20 +
    srcRank % 2 ^ 15 * 2 ^ 5)

/-- A CONTROL packet to the device at `dst` with a type word and payload words. -/
def ctlPacket (dst type : Nat) (ws : List Nat) (s : State) : Packet where
  h0 := netWord0 3 2 0 0 dst (selfPhys s) 0
  h1 := w64 (rdF Reg.FAB_ADMIN_KEY Fld.FAB_ADMIN_KEY_KEY s * 2 ^ 32)
  t := []
  ctl := w64 type :: ws.map w64
  tile := none
  cells := []

/-- Network header words of a version 3 job packet; `kind` is 0 UNICAST or 1 MULTICAST. -/
def jobHeader (kind ordered ctx dst : Nat) (s : State) : Word × Word :=
  (netWord0 3 kind ordered ctx dst (selfPhys s) ((ownRank s).getD 0),
    w64 (jobKey s * 2 ^ 32 + jobEpoch s * 2 ^ 16))

/-- Send a CONTROL packet; one that finds no route is not sent (no pair holds it). -/
def sendCtl (dst type : Nat) (ws : List Nat) (s : State) : State := (netSend (ctlPacket dst type ws s) dst 0 s).2

/-- Send a CONTROL packet to a rank whose entry is LIVE. -/
def sendCtlRank (r type : Nat) (ws : List Nat) (s : State) : State :=
  if rankLive r s then sendCtl (rankPhys r s) type ws s else s

/-! ## The checks of a received packet (R264) -/

/-- Whether a MULTICAST packet names a VALID tree whose group holds the device's rank. -/
def treeHolds (t : Nat) (s : State) : Bool :=
  match ownRank s with
  | some r => treeValid t s && (groupPos (treeGroup t s) r s).isSome
  | none => false

/-- The first check that a packet fails, as the counter that it increments; none where it passes. -/
def netCheck (p : Packet) (s : State) : Option Nat :=
  let ver := pkN0 p Pk.VER
  let kind := pkN0 p Pk.KIND
  let key := pkN1 p Pk.KEY
  let v2 := rdF Reg.FAB_V2_KEY Fld.FAB_V2_KEY_KEY s
  if ver ≠ 2 ∧ ver ≠ 3 then some Reg.FAB_VER_DROP
  else if ver = 2 then (if v2 = 0 ∨ key ≠ v2 then some Reg.FAB_KEY_DROP else none)
  else if kind = 3 ∨ (kind = 1 ∧ treeHolds (pkN0 p Pk.DST) s = false) ∨
      (kind ≠ 1 ∧ (selfValid s = false ∨ pkN0 p Pk.DST ≠ selfPhys s)) then some Reg.FAB_MISROUTE
  else if kind = 2 then
    (if key ≠ rdF Reg.FAB_ADMIN_KEY Fld.FAB_ADMIN_KEY_KEY s then some Reg.FAB_KEY_DROP else none)
  else if jobState s = 0 ∨ key ≠ jobKey s then some Reg.FAB_KEY_DROP
  else if pkN1 p Pk.EPOCH ≠ jobEpoch s then some Reg.FAB_EPOCH_DROP
  else if !rankLive (pkN0 p Pk.SRCRANK) s || rankPhys (pkN0 p Pk.SRCRANK) s != pkN0 p Pk.SRC then some Reg.FAB_SRC_DROP
  else none

/-- Whether a packet follows a form that a command of the table takes. -/
def pktKnown (p : Packet) : Bool :=
  let ver := pkN0 p Pk.VER
  let kind := pkN0 p Pk.KIND
  if ver = 2 then true
  else if ver ≠ 3 ∨ kind = 3 then false
  else if kind = 2 then decide (1 ≤ pkC p 0 ∧ pkC p 0 ≤ 10)
  else decide (pkT p 0 Pk.TTYPE ≤ 4)

/-- The place of the packet that port `n` holds and a packet command takes: the oldest of its pool that equals
`p`. -/
def heldPacket (n : Nat) (p : Packet) (s : State) : Option RxPkt :=
  match (portOf n s).arrived.find? (fun a => a.pool == poolFor p) with
  | some a => if a.pkt = p then some a else none
  | none => none

/-- Take a packet out of port `n`: its credit is freed (R244). -/
def takePacket (n : Nat) (a : RxPkt) (s : State) : State :=
  let x := portOf n s
  let z := fun (_ : Nat) => 0
  setPort n { x with
    arrived := x.arrived.erase a
    freedOwn := smPut z x.freedOwn a.pool ((smGet z x.freedOwn a.pool + a.flits) % 4096)
    rxHeld := smPut z x.rxHeld a.pool (smGet z x.rxHeld a.pool - a.flits) } s

/-! ## Marks as they leave (R388 to R390) -/

/-- Picoseconds in `n` cycles of the 850 MHz clock, rounded. -/
def psOf (n : Nat) : Nat := (n * 20000 + 8) / 17

/-- The release that follows from LEAD and from `ps` picoseconds elapsed since t0 at cycle `c` (R390, R392): the frame
start, the hold in eighths of a cycle, the MARK ID and LATE. An instant that has passed is late; one whose frame
start has passed already takes the next one without a hold. -/
def relOf (c ps lead id : Nat) : Nat × Nat × Nat × Bool :=
  -- in units of 1/17 ps a cycle is 20,000
  let due := (c + lead) * 20000
  let late := due ≤ ps * 17 + c * 20000
  let f := (due - ps * 17) / 320000 * 16
  if late then (frameAfter c, 0, id, true)
  else if f ≤ c then (frameAfter c, 0, id, false)
  else (f, ((due - ps * 17 - f * 20000) * 8 + 10000) / 20000, id, false)

/-- LEAD of this device's DET_MARK_CFG. -/
def markLead (s : State) : Nat := rdF Reg.DET_MARK_CFG Fld.DET_MARK_CFG_LEAD s
/-- The MARK ID that ROOT sends: bits 15 to 0 of DET_MARK_COUNT. -/
def markId (s : State) : Nat := (rd Reg.DET_MARK_COUNT s).toNat % 65536

/-- Fix ROOT's t0 and with it its release. -/
def markT0 (s : State) : State :=
  { s with mark := { s.mark with
    ref := some (s.cycle, 0), phase := .releaseSet, stretch := s.kiln.drooped, rel := some (relOf s.cycle 0 (markLead s) (markId s)) } }

/-- A packet that starts to leave: a MARK copy takes its DELAY, and the first copy or the leader's GO fixes t0. -/
def markStamp (p : Packet) (s : State) : Packet × State :=
  if !isCtl p then (p, s)
  else if pkC p 0 = 7 then
    let s := if s.mark.phase = .copiesSent then markT0 s else s
    match s.mark.ref with
    | some (c, ps) =>
      let d := (ps + psOf (s.cycle - c)) % 2 ^ 40
      ({ p with ctl := p.ctl.set 2 (w64 (pkC p 2 / 2 ^ 63 * 2 ^ 63 + d)) }, s)
    | none => (p, s)
  else if pkC p 0 = 10 ∧ pkC p 1 % 2 = 1 ∧ s.mark.phase = .goSent then
    (p, defer .markCheck { s with mark := { s.mark with ref := some (s.cycle, 0) } })
  else (p, s)

end Sys2Proof.Machine
end

