-- ==== Sys2Proof/Machine/Link.lean ====
section
/-!
DEFINITION. The link layer of a fabric port: training, FEC blocks, flits, credits and retry (spec/08_fabric_link.md).
-/
namespace Sys2Proof.Machine

/-! ## States of a port (R254, R258) -/

/-- Store a field of FAB_PORT_STATUS. -/
def psW (n : Nat) (f : Fld) (x : Nat) (s : State) : State := wrF (Reg.FAB_PORT_STATUS n) f x s
/-- A field of FAB_PORT_STATUS. -/
def psF (n : Nat) (f : Fld) (s : State) : Nat := rdF (Reg.FAB_PORT_STATUS n) f s
/-- A field of FAB_LINK_CFG. -/
def lcF (n : Nat) (f : Fld) (s : State) : Nat := rdF (Reg.FAB_LINK_CFG n) f s
/-- Whether a bit of FAB_PORT_CTL is set. -/
def pcBit (n : Nat) (f : Fld) (s : State) : Bool := bitF f (rd (Reg.FAB_PORT_CTL n) s)

/-- An error record about a port (R533). -/
def portLog (code n : Nat) (s : State) : State :=
  log code kPort n none [rd (Reg.FAB_PORT_STATUS n) s, rd (Reg.FAB_PORT_PARTNER n) s] s

/-- Enter a state of R254 in this cycle. -/
def portEnter (n st : Nat) (s : State) : State :=
  let s := psW n Fld.FAB_PORT_STATUS_STATE st s
  let s := setPort n { portOf n s with entered := s.cycle } s
  if n = 7 ∧ st = 5 then defer .markCheck s else s

/-- The LOCK and BAD bits of the lanes follow two masks. -/
def lanesSet (n lock bad : Nat) (s : State) : State :=
  (upto 8).foldl (fun s l =>
    let r := Reg.FAB_LANE_STATUS n l
    wrF r Fld.FAB_LANE_STATUS_LOCK (b2n (bitAt lock l)) (wrF r Fld.FAB_LANE_STATUS_BAD (b2n (bitAt bad l)) s))
    (psW n Fld.FAB_PORT_STATUS_BAD bad s)

/-- What a port gives back when it enters DOWN or DISABLED: the packets with a flit in its retry buffer and those not
yet sent, in sending order. -/
def undelivered (p : Port) : List Packet := p.flying.map (fun x => x.2.pkt) ++ p.txq.map (·.pkt)

/-- A port after it has entered DOWN or DISABLED: what it received whole stays to be taken, without credit. -/
def portCleared (p : Port) (now : Nat) : Port :=
  { Port.reset with
    arrived := p.arrived.map (fun a => { a with flits := 0 })
    attempts := p.attempts, entered := now, cblOn := p.cblOn }

/-- Enter DOWN with a cause, or DISABLED (R258). -/
def portLeave (n st : Nat) (cause : Option Nat) (s : State) : State :=
  let p := portOf n s
  let back := undelivered p
  let s := setPort n (portCleared p s.cycle) s
  let s := lanesSet n 0 0 (psW n Fld.FAB_PORT_STATUS_WIDTH 0 (psW n Fld.FAB_PORT_STATUS_STATE st s))
  let s := bump (Reg.FAB_DOWNS n) s
  let s := match cause with
    | some c => portLog (0x0800 + c) n (psW n Fld.FAB_PORT_STATUS_DOWN_CAUSE c s)
    | none => s
  if back.isEmpty then s else defer (.giveBack n back) s

/-- Enter DOWN. -/
def portDown (n cause : Nat) (s : State) : State := portLeave n 7 (some cause) s

/-- Enter DISABLED, where the port is not already there. -/
def portDisable (n : Nat) (s : State) : State := if portState n s = 0 then s else portLeave n 0 none s

/-- Enter DETECT from DISABLED or DOWN with an attempt count of 0. -/
def portDetect (n : Nat) (s : State) : State :=
  let s := portEnter n 1 s
  setPort n { portOf n s with attempts := 0 } s

/-- Leave DISABLED where ENABLE is 1 and the device is in a running state. -/
def portWake (n : Nat) (s : State) : State :=
  if portState n s = 0 ∧ pcBit n Fld.FAB_PORT_CTL_ENABLE s = true ∧ fabricOn s = true then portDetect n s else s

/-- Every port follows the device state (R254). -/
def portsFollow (s : State) : State :=
  (upto 16).foldl (fun s n => if fabricOn s then portWake n s else portDisable n s) s

/-- A training attempt has failed: DETECT again, or DOWN at ATTEMPTS. -/
def attemptFailed (n : Nat) (s : State) : State :=
  let k := (portOf n s).attempts + 1
  let s := setPort n { portOf n s with attempts := k } s
  if k ≥ lcF n Fld.FAB_LINK_CFG_ATTEMPTS s then portDown n 0x01 s
  else portEnter n 1 (lanesSet n 0 0 (psW n Fld.FAB_PORT_STATUS_WIDTH 0 s))

/-- Enter RETRAIN, to which later tries fall back to the WIDTH code `fallback`. -/
def portRetrain (n fallback : Nat) (s : State) : State :=
  let s := portEnter n 6 s
  setPort n { portOf n s with tries := 0, fallback := fallback } s

/-- The BAD lanes of a port as a mask. -/
def badLanes (n : Nat) (s : State) : Nat := psF n Fld.FAB_PORT_STATUS_BAD s
/-- WIDTH of a port: 1 lanes 0-3, 2 lanes 4-7, 3 all. -/
def widthCode (n : Nat) (s : State) : Nat := psF n Fld.FAB_PORT_STATUS_WIDTH s
/-- The lanes of a WIDTH code as a mask. -/
def widthLanes (w : Nat) : Nat := if w = 3 then 0xFF else if w = 2 then 0xF0 else if w = 1 then 0x0F else 0
/-- Number of active lanes. -/
def laneNum (n : Nat) (s : State) : Nat := if widthCode n s = 3 then 8 else 4

/-- The port goes to width 4 on the half that `w` names, and records it. -/
def degrade (n w : Nat) (s : State) : State :=
  portLog 0x0803 n (bump (Reg.FAB_DEGRADES n) (psW n Fld.FAB_PORT_STATUS_WIDTH w s))

/-- An active lane of an ACTIVE port becomes BAD (R257). -/
def laneBad (n l : Nat) (s : State) : State :=
  if !portActive n s || !bitAt (widthLanes (widthCode n s)) l then s
  else
    let bad := badLanes n s ||| 2 ^ l
    let s := wrF (Reg.FAB_LANE_STATUS n l) Fld.FAB_LANE_STATUS_BAD 1 (psW n Fld.FAB_PORT_STATUS_BAD bad s)
    if pcBit n Fld.FAB_PORT_CTL_MINW s || (bad % 16 != 0 && bad / 16 != 0) then portDown n 0x06 s
    else
      let w := if bad % 16 = 0 then 1 else 2
      portRetrain n w (degrade n w s)

/-! ## Commands of software (R254, R257, R259) -/

/-- A write of FAB_PORT_CTL. -/
def portCtlWrite (n : Nat) (v : Word) (s : State) : State :=
  let s := wr (Reg.FAB_PORT_CTL n) (v &&& w64 0x19) s
  let s := if !bitF Fld.FAB_PORT_CTL_ENABLE v || bitF Fld.FAB_PORT_CTL_RESET v then portDisable n s else s
  let s := portWake n s
  if bitF Fld.FAB_PORT_CTL_RETRAIN v && portActive n s then
    let w := widthCode n s
    let s := psW n Fld.FAB_PORT_STATUS_WIDTH 3 (lanesSet n 0xFF 0 s)
    portRetrain n w s
  else s

/-- A write of FAB_LINK_CFG. -/
def linkCfgWrite (n : Nat) (v : Word) (src : Src) (s : State) : State :=
  if portState n s = 0 ∨ portState n s = 7 ∨ s.priv = true then wr (Reg.FAB_LINK_CFG n) v s else refuse src (Reg.FAB_LINK_CFG n) s

/-! ## Training (R254 to R256, R279) -/

/-- Signal is present on a half of a port in DETECT. -/
def signalDetect (n : Nat) (s : State) : State :=
  if portState n s = 1 ∧ (portOf n s).cblOn = true then portEnter n 2 s else s

/-- The measured polarity and eye heights of the lanes. -/
def lanesMeasured (n invert : Nat) (eyes : List Nat) (s : State) : State :=
  (upto 8).foldl (fun s l =>
    let r := Reg.FAB_LANE_STATUS n l
    wrF r Fld.FAB_LANE_STATUS_INVERT (b2n (bitAt invert l)) (wrF r Fld.FAB_LANE_STATUS_EYE (eyes.getD l 0) s)) s

/-- Every lane is clean within 50 ms. -/
def eqDone (n invert : Nat) (eyes : List Nat) (s : State) : State :=
  if portState n s = 2 ∧ s.cycle ≤ (portOf n s).entered + msCycles 50 then
    portEnter n 3 (lanesMeasured n invert eyes (lanesSet n 0xFF 0 (psW n Fld.FAB_PORT_STATUS_WIDTH 3 s)))
  else s

/-- 50 ms elapse in EQ: width 4 where one half is clean, else a failed attempt. -/
def eqTimeout (n : Nat) (clean0 clean1 : Bool) (invert : Nat) (eyes : List Nat) (s : State) : State :=
  if portState n s ≠ 2 then s
  else
    let s := advanceTo ((portOf n s).entered + msCycles 50) s
    if clean0 != clean1 && !pcBit n Fld.FAB_PORT_CTL_MINW s then
      let good := if clean0 then 0x0F else 0xF0
      let s := lanesMeasured n invert eyes (lanesSet n good (0xFF - good) s)
      portEnter n 3 (degrade n (if clean0 then 1 else 2) s)
    else attemptFailed n s

/-- Whether the partner's identity passes R256. -/
def partnerOk (n : Nat) (w : Word) (s : State) : Bool :=
  let kind := getF Fld.FAB_PORT_PARTNER_KIND w
  let id := getF Fld.FAB_PORT_PARTNER_ID w
  let sub := getF Fld.FAB_PORT_PARTNER_SUB w
  let pp := getF Fld.FAB_PORT_PARTNER_PPORT w
  let y := selfPhys s / 8
  let sl := selfPhys s % 8
  if n < 7 then kind == 1 && id == y && sub == (sl + 1 + n) % 8 && pp == 6 - n
  else if n = 7 then kind == 1 && id == y ^^^ 1 && sub == sl && pp == 7
  else kind == 2 && sub == n - 8

/-- Whether the versions of the partner have one in common with the device's (R279). -/
def versionOk (n : Nat) (w : Word) : Bool :=
  let lo := getF Fld.FAB_PORT_PARTNER_VMIN w
  let hi := getF Fld.FAB_PORT_PARTNER_VMAX w
  if n < 8 then lo ≤ 3 && 3 ≤ hi else 3 ≤ hi

/-- The pool sizes that the device advertises (R243): CTX_FABRIC.POOL and 256 flits of the system pool. -/
def ownPools (s : State) : SMap Nat :=
  ((upto 16).map (fun c => (c, rdF (Reg.CTX_FABRIC c) Fld.CTX_FABRIC_POOL s))).filter (fun p => p.2 != 0) ++ [(16, 256)]

/-- The sparse map of a list of numbers by place. -/
def numMap (l : List Nat) : SMap Nat := ((l.zipIdx).map (fun p => (p.2, p.1))).filter (fun p => p.2 != 0)

/-- Identities are exchanged within 1 ms; the port stays in IDENT while FAB_SELF.VALID is 0 (R261). -/
def identExchange (n : Nat) (w : Word) (pools : List Nat) (s : State) : State :=
  if portState n s ≠ 3 ∨ selfValid s = false ∨ s.cycle > (portOf n s).entered + msCycles 1 then s
  else
    let s := wr (Reg.FAB_PORT_PARTNER n) (w &&& ~~~(maskF ⟨43, 5⟩) &&& ~~~(maskF ⟨0, 24⟩)) s
    if !partnerOk n w s then portDown n 0x02 s
    else if !versionOk n w then portDown n 0x07 s
    else
      let s := setPort n { portOf n s with adv := numMap (pools.take 17), ownAdv := ownPools s } s
      portEnter n 4 s

/-- 1 ms elapses in IDENT or ALIGN. -/
def stageTimeout (n st : Nat) (s : State) : State :=
  if portState n s = st then attemptFailed n (advanceTo ((portOf n s).entered + msCycles 1) s) else s

/-- The delay that a port has measured (R385). -/
def delaySet (n delay : Nat) (s : State) : State := wr (Reg.DET_PORT_DELAY n) (w64 (2 ^ 63 + delay % 2 ^ 20)) s

/-- Deskew and block lock in ALIGN within 1 ms: every count starts at 0 and the lanes' sequences at all ones. -/
def alignLock (n delay : Nat) (s : State) : State :=
  let p := portOf n s
  if portState n s = 4 ∧ s.cycle ≤ p.entered + msCycles 1 then
    let q := { Port.reset with
      txq := p.txq, arrived := p.arrived, adv := p.adv, ownAdv := p.ownAdv, attempts := p.attempts, cblOn := p.cblOn }
    delaySet n delay (portEnter n 5 (setPort n q s))
  else s

/-- The partner starts RETRAIN. -/
def retrainPattern (n : Nat) (s : State) : State := if portActive n s then portRetrain n (widthCode n s) s else s

/-- Re-tune and block lock in RETRAIN: the side sends a NAK first (R254). -/
def retrainLock (n delay : Nat) (s : State) : State :=
  if portState n s = 6 ∧ s.cycle ≤ (portOf n s).entered + 17000 then
    let s := bump (Reg.FAB_RETRAINS n) (delaySet n delay (portEnter n 5 s))
    let p := portOf n s
    setPort n { p with
      txPrbs := 0x7FFFFFFF, rxPrbs := 0x7FFFFFFF, nakOwed := true, replay := [], badBlocks := 0, laneHist := [], blocks := 0 } s
  else s

/-- 20 µs elapse in RETRAIN: another try, at the width it falls back to, or DOWN after ATTEMPTS tries. -/
def retrainTimeout (n : Nat) (s : State) : State :=
  if portState n s ≠ 6 then s
  else
    let p := portOf n s
    let s := advanceTo (p.entered + 17000) s
    if p.tries + 1 ≥ lcF n Fld.FAB_LINK_CFG_ATTEMPTS s then portDown n 0x04 s
    else
      let s := psW n Fld.FAB_PORT_STATUS_WIDTH p.fallback s
      setPort n { p with tries := p.tries + 1, entered := s.cycle } s

/-- DOWN_RETRY_MS elapse in DOWN with AUTO = 1. -/
def downRetry (n : Nat) (s : State) : State :=
  if portState n s = 7 ∧ pcBit n Fld.FAB_PORT_CTL_AUTO s = true then
    portDetect n (advanceTo ((portOf n s).entered + msCycles (lcF n Fld.FAB_LINK_CFG_DOWN_RETRY_MS s)) s)
  else s

/-- A lane loses lock. -/
def laneLost (n l : Nat) (s : State) : State :=
  if l < 8 then laneBad n l (wrF (Reg.FAB_LANE_STATUS n l) Fld.FAB_LANE_STATUS_LOCK 0 s) else s

/-! ## Sending (R242 to R246, R248, R250) -/

/-- Credit of pool `q` (R244). -/
def credit (p : Port) (q : Nat) : Nat :=
  let g := fun (m : SMap Nat) => smGet (fun _ => 0) m q
  g p.adv - (g p.sent + 4096 - g p.freed) % 4096

/-- The oldest packet of pool `q` not yet started. -/
def readyIn (p : Port) (q : Nat) : Option TxItem := p.txq.find? (fun x => x.pool == q)

/-- Whether some pool holds a ready packet that lacks credit. -/
def creditLacks (p : Port) : Bool :=
  (upto 17).any (fun q => match readyIn p q with
    | some x => decide (credit p q < x.flits.length)
    | none => false)

/-- The pool that sends next: round robin from the one after the last (R246). -/
def nextPool (p : Port) : Option TxItem :=
  ((upto 17).map (fun k => (p.lastPool + 1 + k) % 17)).findSome? (fun q =>
    match readyIn p q with
    | some x => if x.flits.length ≤ credit p q then some x else none
    | none => none)

/-- The flits of a packet. -/
def itemFlits (x : TxItem) : List Flit :=
  (x.flits.zipIdx).map (fun y => ⟨x.pool, y.2 == 0, y.2 + 1 == x.flits.length, y.1⟩)

/-- Start the packet that the round robin chooses, where none is being sent. -/
def startPacket (p : Port) : Port :=
  if !p.sending.isEmpty then p
  else match nextPool p with
    | some x =>
      { p with
        txq := p.txq.erase x, sending := itemFlits x, lastPool := x.pool
        flying := p.flying ++ [((p.nextSeq + x.flits.length + 255) % 256, x)] }
    | none => p

/-- Stamp the packet that a port is about to start. -/
def stampNext (n : Nat) (s : State) : State :=
  let p := portOf n s
  if p.nakOwed || !p.replay.isEmpty || decide (p.retry.length ≥ 64) || !p.sending.isEmpty then s
  else match nextPool p with
    | some x =>
      let (k, s) := markStamp x.pkt s
      if k = x.pkt then s
      else setPort n { p with txq := p.txq.map (fun y => if y = x then ⟨x.pool, packetFlits k, k⟩ else y) } s
    | none => s

/-- The next flit of a port: a NAK that is owed, a replay, a new flit, or IDLE (R241, R245, R248 to R250). -/
def nextFlit (n : Nat) (s : State) : List Byte × State :=
  let s := stampNext n s
  let p := portOf n s
  let a := 2 * p.k % 17
  let b := (2 * p.k + 1) % 17
  let z := fun (_ : Nat) => 0
  let hdr := fun (ty : Nat) (rep : Bool) (seq : Nat) =>
    ({ type := ty, replay := rep, seq := seq, ack := (p.exp + 255) % 256, pools := (a, b)
       counts := (smGet z p.freedOwn a, smGet z p.freedOwn b) } : FlitHdr)
  let none' : Flit := ⟨0, false, false, []⟩
  let k := (p.k + 1) % 17
  let cyc := if laneNum n s = 8 then 2 else 4
  let s := if creditLacks p then bumpBy cyc (Reg.FAB_CREDIT_STALL n) s else s
  let s := if p.retry.length ≥ 64 then bumpBy cyc (Reg.FAB_RETRY_STALL n) s else s
  if p.nakOwed then
    (flitBytes (hdr 2 false 0) none', bump (Reg.FAB_NAK_SENT n) (setPort n { p with nakOwed := false, k := k } s))
  else match p.replay with
    | (seq, f) :: rest =>
      (flitBytes (hdr 1 p.replayFirst seq) f,
        bump (Reg.FAB_REPLAY_FLITS n) (setPort n { p with replay := rest, replayFirst := false, k := k } s))
    | [] =>
      let idle := (flitBytes (hdr 0 false 0) none', setPort n { p with k := k } s)
      if p.retry.length ≥ 64 then idle
      else
        let q := startPacket p
        match q.sending with
        | f :: rest =>
          let q := { q with
            sending := rest, retry := q.retry ++ [(q.nextSeq, f)], k := k
            since := if q.retry.isEmpty then s.cycle else q.since
            sent := smPut z q.sent f.pool ((smGet z q.sent f.pool + 1) % 4096)
            nextSeq := (q.nextSeq + 1) % 256 }
          (flitBytes (hdr 1 false p.nextSeq) f, bump (Reg.FAB_TX_FLITS n) (setPort n q s))
        | [] => idle

/-- A port sends one FEC block of three flits (R237, R238). -/
def blockSend (n : Nat) (s : State) : State :=
  if !portActive n s then s
  else
    let (f0, s) := nextFlit n s
    let (f1, s) := nextFlit n s
    let (f2, s) := nextFlit n s
    let p := portOf n s
    let (bytes, r) := scramble (laneNum n s) p.txPrbs (fecBlock (f0 ++ f1 ++ f2))
    emit (.block n bytes) (setPort n { p with txPrbs := r } s)

/-! ## Acknowledgement and retry (R249 to R252) -/

/-- Begin a replay of every unacknowledged flit; at RETRY_MAX replays from one SEQ the port enters RETRAIN. -/
def replayStart (n : Nat) (s : State) : State :=
  let p := portOf n s
  match p.retry with
  | [] => s
  | (seq, _) :: _ =>
    let k := p.replays + 1
    let s := setPort n { p with
      replay := p.retry, replayFirst := true, replays := k, lastReplay := some (seq, s.cycle), since := s.cycle } s
    if k = lcF n Fld.FAB_LINK_CFG_RETRY_MAX s then portRetrain n (widthCode n s) s else s

/-- An ACK releases every flit up to `a`. -/
def ackTake (n a : Nat) (s : State) : State :=
  let p := portOf n s
  match p.retry with
  | [] => s
  | (first, _) :: _ =>
    let d := (a + 257 - first) % 256
    if d = 0 ∨ d > p.retry.length then s
    else
      let retry := p.retry.drop d
      let live := fun (seq : Nat) => retry.any (fun x => x.1 == seq) || decide ((seq + 256 - p.nextSeq) % 256 < p.sending.length)
      setPort n { p with
        retry := retry, lastAck := a, since := s.cycle, replays := 0
        flying := p.flying.filter (fun x => live x.1)
        replay := p.replay.filter (fun x => retry.any (fun y => y.1 == x.1)) } s

/-- A NAK with ACK = `a` (R250). -/
def nakTake (n a : Nat) (s : State) : State :=
  let s := bump (Reg.FAB_NAK_RCVD n) s
  let recent := match (portOf n s).lastReplay with
    | some (q, c) => q == (a + 1) % 256 && decide (s.cycle < c + nsCycles (lcF n Fld.FAB_LINK_CFG_REPLAY_NS s))
    | none => false
  if recent then s else replayStart n s

/-- REPLAY_NS elapse with no advance of ACK (R250). -/
def replayTimer (n : Nat) (s : State) : State :=
  let p := portOf n s
  if portActive n s && !p.retry.isEmpty then
    replayStart n (advanceTo (p.since + nsCycles (lcF n Fld.FAB_LINK_CFG_REPLAY_NS s)) s)
  else s

/-- A gap (R249): outside NAK-wait a NAK is owed and NAK-wait begins. -/
def gap (n : Nat) (seq : Option Nat) (s : State) : State :=
  let p := portOf n s
  let p := match seq with | some q => { p with gapSeq := some q } | none => p
  match p.nakWait with
  | some _ => setPort n p s
  | none => setPort n { p with nakOwed := true, nakWait := some s.cycle } s

/-- NAK-wait has lasted REPLAY_NS. -/
def nakWaitExpire (n : Nat) (s : State) : State :=
  match portActive n s, (portOf n s).nakWait with
  | true, some t =>
    let s := advanceTo (t + nsCycles (lcF n Fld.FAB_LINK_CFG_REPLAY_NS s)) s
    setPort n { portOf n s with nakOwed := true, nakWait := some s.cycle } s
  | _, _ => s

/-! ## Receiving (R239, R241, R242, R247, R249) -/

/-- A packet is whole: it is held for its command, or, where no command takes its form, dropped with the counter of
the check that it fails (R264); the link frees its credit either way. -/
def packetWhole (n : Nat) (a : RxPkt) (s : State) : State :=
  let s := setPort n { portOf n s with arrived := (portOf n s).arrived ++ [a] } s
  if pktKnown a.pkt then s
  else
    let s := takePacket n a s
    match netCheck a.pkt s with
    | some r => bump r s
    | none => if pkN0 a.pkt Pk.VER = 3 ∧ isCtl a.pkt = false ∧ hcrcOk a.pkt = false then bump Reg.FAB_HCRC_FAIL s else s

/-- A DATA flit in order. -/
def flitAccept (n : Nat) (replay : Bool) (f : Flit) (s : State) : State :=
  let p := portOf n s
  let z := fun (_ : Nat) => 0
  let held := smGet z p.rxHeld f.pool
  if held + 1 > smGet z p.ownAdv f.pool then portDown n 0x05 s
  else if (p.rx.isEmpty != f.sop) || p.rx.any (fun g => g.pool != f.pool) || decide (p.rx.length ≥ 32) then portDown n 0x05 s
  else
    let ends := replay && p.nakWait.isSome
    let upTo := if ends then p.gapSeq else p.replayTo
    let fromReplay := replay || upTo.isSome
    let again := fromReplay || (!f.sop && p.rxReplayed)
    let rx := p.rx ++ [f]
    let p := { p with
      exp := (p.exp + 1) % 256, rxHeld := smPut z p.rxHeld f.pool (held + 1), rxReplayed := again
      nakWait := if ends then none else p.nakWait
      gapSeq := if ends then none else p.gapSeq
      replayTo := if upTo = some p.exp then none else upTo
      rx := if f.eop then [] else rx }
    let s := bump (Reg.FAB_RX_FLITS n) (setPort n p s)
    if f.eop then
      packetWhole n ⟨f.pool, rx.length, again, s.cycle, parsePacket ((rx.map (·.payload)).flatten)⟩ s
    else s

/-- A flit of a decodable block. -/
def flitReceive (n : Nat) (bs : List Byte) (s : State) : State :=
  if !portActive n s then s
  else if !flitCrcOk bs then gap n none (bump (Reg.FAB_CRC_FAIL n) s)
  else if !flitLegal bs then portDown n 0x05 s
  else
    let h := flitHdr bs
    let f := flitOf bs
    let p := portOf n s
    let z := fun (_ : Nat) => 0
    let put := fun (m : SMap Nat) (q c : Nat) => if q ≤ 16 then smPut z m q c else m
    let s := setPort n { p with freed := put (put p.freed h.pools.1 h.counts.1) h.pools.2 h.counts.2 } s
    let s := ackTake n h.ack s
    if h.type = 2 then nakTake n h.ack s
    else if h.type = 1 then
      let e := (portOf n s).exp
      if h.seq = e then flitAccept n h.replay f s
      else if 1 ≤ (e + 256 - h.seq) % 256 ∧ (e + 256 - h.seq) % 256 ≤ 64 then s
      else gap n (some h.seq) s
    else s

/-- A corrected symbol at block byte `b`: counted for its lane within a window of 2^20 blocks (R239, R257). -/
def symbolFixed (n b : Nat) (s : State) : State :=
  let w := laneNum n s
  let l := b % w + (if widthCode n s = 2 then 4 else 0)
  let s := bump (Reg.FAB_LANE_CORR n l) (bump (Reg.FAB_FEC_CORR n) s)
  let p := portOf n s
  setPort n { p with laneHist := p.laneHist ++ [(p.blocks, l)] } s

/-- Lanes with more corrections within the window than LANE_THRESH become BAD (R257). -/
def laneScan (n : Nat) (s : State) : State :=
  let p := portOf n s
  let hist := p.laneHist.filter (fun x => p.blocks < x.1 + 2 ^ 20)
  let s := setPort n { p with laneHist := hist } s
  let lim := lcF n Fld.FAB_LINK_CFG_LANE_THRESH s
  ((upto 8).filter (fun l => decide ((hist.filter (fun x => x.2 == l)).length > lim))).foldl (fun s l => laneBad n l s) s

/-- An FEC block arrives (R239). -/
def blockReceive (n : Nat) (bytes : List Byte) (s : State) : State :=
  if !portActive n s || bytes.length != 800 then s
  else
    let p := portOf n s
    let (raw, r) := scramble (laneNum n s) p.rxPrbs bytes
    let s := setPort n { p with rxPrbs := r, blocks := p.blocks + 1 } s
    match fecDecode raw with
    | none =>
      let s := gap n none (bump (Reg.FAB_FEC_UNCORR n) s)
      let p := portOf n s
      let s := setPort n { p with badBlocks := p.badBlocks + 1 } s
      if p.badBlocks + 1 = 8 then portRetrain n (widthCode n s) s else s
    | some (fl, fixed) =>
      let s := setPort n { portOf n s with badBlocks := 0 } s
      let s := fixed.foldl (fun s b => symbolFixed n b s) s
      let s := (upto 3).foldl (fun s i => flitReceive n ((fl.drop (256 * i)).take 256) s) s
      laneScan n s

end Sys2Proof.Machine
end

