-- ==== Sys2Proof/Machine/Transport.lean ====
section
/-!
DEFINITION. The transport's sending side: pairs, sequence numbers, the cut list, resends and acknowledgements
(spec/10_fabric_transport.md).
-/
namespace Sys2Proof.Machine

/-! ## Sequence numbers and pairs (R293, R294) -/

/-- 2^32, the modulus of SEQ. -/
def seqMod : Nat := 2 ^ 32
/-- `a - b` modulo 2^32. -/
def seqSub (a b : Nat) : Nat := (a + seqMod - b % seqMod) % seqMod
/-- Whether `a` comes before `b` in the order of a window of 2^31. -/
def seqLt (a b : Nat) : Bool := decide (2 ^ 31 ≤ seqSub a b)

/-- Change the transport's state. -/
def setX (f : Xport → Xport) (s : State) : State := { s with xport := f s.xport }

/-- A pair before its first packet. -/
def TxPair.new (tree : Bool) (dst ctx : Nat) : TxPair := ⟨tree, dst, ctx, 0, 0, [], [], [], false, 0, false, 0, 0⟩
/-- Whether a pair is the one named. -/
def TxPair.is (p : TxPair) (tree : Bool) (dst ctx : Nat) : Bool :=
  p.tree == tree && p.dst == dst && (tree || p.ctx == ctx)
/-- The pair named. -/
def txPair (tree : Bool) (dst ctx : Nat) (s : State) : TxPair :=
  (s.xport.tx.find? (fun p => p.is tree dst ctx)).getD (TxPair.new tree dst ctx)
/-- Store a pair. -/
def setTx (p : TxPair) (s : State) : State :=
  if s.xport.tx.any (fun q => q.is p.tree p.dst p.ctx) then
    setX (fun x => { x with tx := x.tx.map (fun q => if q.is p.tree p.dst p.ctx then p else q) }) s
  else setX (fun x => { x with tx := x.tx ++ [p] }) s

/-- The number by which a pair to a version 2 adapter at PHYS `p` is named beside the ranks. -/
def v2Dst (p : Nat) : Nat := 2 ^ 16 + p

/-- RTO_US in cycles. -/
def rtoCycles (s : State) : Nat := usCycles (rdF Reg.FAB_XPORT_CFG Fld.FAB_XPORT_CFG_RTO_US s)

/-! ## The cut list (R300 to R304) -/

/-- SRCKIND and its operand as bits 31 to 0 of record word 3. -/
def srcBits : SrcRef → Nat
  | .none => 0
  | .bench b t => 2 ^ 30 + b % 2 ^ 11 * 2 ^ 9 + t % 2 ^ 9
  | .ruril t => 2 * 2 ^ 30 + t % 2 ^ 28
  | .dovetail m c => 3 * 2 ^ 30 + m % 2 ^ 10 * 2 ^ 20 + c % 2 ^ 20

/-- The 64 bytes of a record. -/
def recBytes (r : CutRec) : List Byte :=
  let dst := if r.tree then r.dst % 256 * 2 ^ 49 + 2 ^ 48 else r.dst % 2 ^ 15 * 2 ^ 49
  leBytes 8 r.t0.toNat ++ leBytes 8 r.t1.toNat ++ leBytes 8 r.t2.toNat ++ leBytes 8 (r.crc * 2 ^ 32 + srcBits r.src) ++
    leBytes 8 (dst + r.ctx % 16 * 2 ^ 44 + b2n r.ordered * 2 ^ 43 + b2n r.acked * 2 ^ 42 + b2n r.lost * 2 ^ 41) ++
    List.replicate 24 0

/-- Ruril byte address of record place `k`. -/
def recAddr (k : Nat) (s : State) : Nat := rdF Reg.FAB_CUT Fld.FAB_CUT_BASE s * 4096 + k * 64

/-- Replace the list of records and FAB_CUT_USED. -/
def setCut (l : List CutRec) (s : State) : State := wr Reg.FAB_CUT_USED (w64 l.length) (setX (fun x => { x with cut := l }) s)

/-- The first free record place. -/
def freePlace (s : State) : Nat :=
  let used := s.xport.cut.map (·.place)
  ((upto (used.length + 1)).find? (fun k => !used.contains k)).getD 0

/-- Add a record and write it to Ruril. -/
def cutAdd (r : CutRec) (s : State) : State :=
  setRurilBytes (recAddr r.place s) (recBytes r) (setCut (s.xport.cut ++ [r]) s)

/-- Change the records that `p` selects, in the list and in Ruril. -/
def cutMap (p : CutRec → Bool) (f : CutRec → CutRec) (s : State) : State :=
  let hit := s.xport.cut.filter p
  let s := setCut (s.xport.cut.map (fun r => if p r then f r else r)) s
  hit.foldl (fun s r => setRurilBytes (recAddr r.place s) (recBytes (f r)) s) s

/-- Retire the records that `p` selects. -/
def cutRetire (p : CutRec → Bool) (s : State) : State := setCut (s.xport.cut.filter (fun r => !p r)) s

/-- SEQ of a record. -/
def CutRec.seq (r : CutRec) : Nat := getF Pk.SEQ r.t1
/-- Whether a record belongs to a pair. -/
def CutRec.ofPair (r : CutRec) (p : TxPair) : Bool := r.tree == p.tree && r.dst == p.dst && (p.tree || r.ctx == p.ctx)
/-- The record of a pair's SEQ. -/
def cutFind (p : TxPair) (seq : Nat) (s : State) : Option CutRec :=
  s.xport.cut.find? (fun r => r.ofPair p && r.seq == seq)

/-- Whether context `c` has a free record of its share (R301). -/
def cutRoom (c : Nat) (s : State) : Bool :=
  decide ((s.xport.cut.filter (fun r => r.ctx == c)).length < rdF (Reg.CTX_FABRIC c) Fld.CTX_FABRIC_CUT s)

/-- A chunk of context `c` waits for a record, or no longer does: the cycles of a wait count in FAB_CUT_STALL. -/
def cutStall (c : Nat) (on : Bool) (s : State) : State :=
  match s.xport.cutWait.find? (fun p => p.1 == c), on with
  | none, true => setX (fun x => { x with cutWait := smPut (fun _ => 0) x.cutWait c (s.cycle + 1) }) s
  | some p, false =>
    bumpBy (s.cycle + 1 - p.2) Reg.FAB_CUT_STALL
      (setX (fun x => { x with cutWait := smPut (fun _ => 0) x.cutWait c 0 }) s)
  | _, _ => s

/-- Whether tile `x` still is the chunk that was sent with check `crc` (R303). -/
def stillIs (x : Tile) (crc : Nat) : Bool := tagF Fld.TAG_CRC x.tag == crc && crc32c x.payload == crc

/-- The tile of a chunk read again from its source, where the source still holds it (R303). -/
def srcTile (src : SrcRef) (crc : Nat) (kept : Option Tile) (s : State) : Option Tile :=
  match src with
  | .none => none
  | .bench b t =>
    let x := benchTile b t s
    if s.sbad.contains (btKey b t) || !stillIs x crc then none else some x
  | .ruril t =>
    let x := rurilTile t s
    if s.rbad.contains t || !stillIs x crc then none else some x
  | .dovetail _ _ => kept

/-- Book the read of a resent chunk's bench tile (R537). -/
def bookSrc (src : SrcRef) (s : State) : State :=
  match src with
  | .bench b _ => if sysMask b s = 0 then s else (bookPort b false s).2
  | _ => s

/-! ## Sending (R285, R293, R294, R298, R299) -/

/-- The packet of a pair's transport packet as it goes out now: network header of the job, REPLAY, HCRC. -/
def outPacket (pair : TxPair) (pkt : Packet) (tile : Option Tile) (again : Bool) (s : State) : Packet :=
  let dst := if pair.tree then pair.dst else rankPhys pair.dst s
  let h := jobHeader (b2n pair.tree) (pkN0 pkt Pk.ORDERED) pair.ctx dst s
  let t0 := setF Pk.REPLAY (pkTw pkt 0) (b2n again)
  sealed { pkt with h0 := h.1, h1 := h.2, t := [t0, pkTw pkt 1, pkTw pkt 2, 0], tile := tile }

/-- Whether job packets may be sent: the job is ACTIVE and the device holds a rank (R266, R276). -/
def mayXmit (s : State) : Bool := jobState s == 1 && (ownRank s).isSome

/-- The children that a tree packet of this device goes to: its own whose entry is LIVE, then those it has adopted
(R272, R311). -/
def treeTargets (t : Nat) (s : State) : List Nat :=
  match ownRank s with
  | none => []
  | some r =>
    let pos := fun (x : Nat) => (treePos t x s).getD 0
    let own := (treeChildren t r s).filter (fun c => rankLive c s)
    let ad := ((s.xport.trees.filter (fun x => x.tree == t)).map (fun x => x.adopted.map (·.1))).flatten
    own ++ ((upto (groupN (treeGroup t s) s)).filterMap (fun p => ad.find? (fun c => pos c == p && rankLive c s)))

/-- Send one copy of a tree packet to child rank `c`; without a route the pair holds it (R299). -/
def treeCopy (t c : Nat) (p : Packet) (s : State) : State :=
  let (ok, s) := netSend p (rankPhys c s) c s
  if ok then s
  else
    let pair := txPair true t 0 s
    setTx { pair with ctl := pair.ctl ++ [(c, p)], advAt := if pair.ctl.isEmpty then s.cycle else pair.advAt } s

/-- Record a chunk or EMPTY packet as first sent. -/
def recordSent (pair : TxPair) (x : TxPkt) (acked : Bool) (s : State) : State :=
  let crc := match x.pkt.tile with | some y => tagF Fld.TAG_CRC y.tag | none => 0
  let kept := match x.src with | .dovetail _ _ => x.pkt.tile | _ => none
  cutAdd ⟨freePlace s, setF Pk.REPLAY (pkTw x.pkt 0) 0, pkTw x.pkt 1, pkTw x.pkt 2, crc, x.src, kept, pair.dst, pair.tree,
    pkN0 x.pkt Pk.CTX, pkN0 x.pkt Pk.ORDERED == 1, acked, false⟩ s

/-- A LOST chunk is needed: the sending context faults (R303). -/
def replayLost (pair : TxPair) (seq ctx : Nat) (s : State) : State :=
  ctxFault ctx 0x080B (log 0x080B kRank (if pair.tree then treeRoot pair.dst s else pair.dst) (some ctx) [w64 seq] s)

/-- A record becomes LOST (R303). -/
def markLost (pair : TxPair) (seq : Nat) (s : State) : State :=
  match cutFind pair seq s with
  | some r => if r.lost then s
    else bump Reg.FAB_CUT_LOST (cutMap (fun x => x.ofPair pair && x.seq == seq) (fun x => { x with lost := true }) s)
  | none => s

/-- The packet of a chunk to be sent again, with its source read afresh: none where the source no longer holds it. -/
def again (pair : TxPair) (x : TxPkt) (s : State) : Option Packet :=
  let lost := match cutFind pair x.seq s with | some r => r.lost | none => false
  match x.pkt.tile with
  | none => some (outPacket pair x.pkt none true s)
  | some y =>
    if lost then none
    else (srcTile x.src (tagF Fld.TAG_CRC y.tag) (some y) s).map (fun z => outPacket pair x.pkt (some z) true s)

/-- Send a packet of the window again (R294); `ctr` counts it. -/
def resendOne (pair : TxPair) (x : TxPkt) (ctr : Nat) (s : State) : State :=
  if !mayXmit s || !rankLive pair.dst s then s
  else
    match again pair x s with
    | none => replayLost pair x.seq pair.ctx (markLost pair x.seq s)
    | some p => bump ctr (netSend p (rankPhys pair.dst s) pair.dst (bookSrc x.src s)).2

/-- Send the next packet of a pair, if it may go now. -/
def pumpOne (tree : Bool) (dst ctx : Nat) (s : State) : Option State :=
  let pair := txPair tree dst ctx s
  match pair.waiting with
  | [] => none
  | x :: rest =>
    let c := pkN0 x.pkt Pk.CTX
    let root := ownRank s == some (treeRoot dst s)
    if !mayXmit s || pair.noRoute || ((!tree || root) && x.seq != pair.sendNext) then none
    else if !x.again && !cutRoom c s then some (cutStall c true s)
    else
      let s := cutStall c false s
      let next := if tree && !root then pair.sendNext else (x.seq + 1) % seqMod
      if tree then
        let p := if root then outPacket pair x.pkt x.pkt.tile false s else x.pkt
        let s := setTx { pair with waiting := rest, sendNext := next } s
        let s := recordSent pair x true s
        let l := treeTargets dst s
        let s := l.foldl (fun s c => treeCopy dst c p s) s
        let s := if root then bump Reg.FAB_CHUNKS_SENT s else bumpBy l.length Reg.FAB_MC_FWD s
        some (if x.last then defer (.acked x.owner) s else s)
      else if pair.unack.length ≥ 256 || !rankLive dst s then none
      else
        let go := fun (p : Packet) (s : State) =>
          let (ok, s) := netSend p (rankPhys dst s) dst s
          let adv := if pair.unack.isEmpty then s.cycle else pair.advAt
          if ok then
            let s := setTx { pair with waiting := rest, sendNext := next, unack := pair.unack ++ [x], advAt := adv } s
            if x.again then bump Reg.FAB_REPLAY_CHUNKS s
            else recordSent pair x false (bump Reg.FAB_CHUNKS_SENT s)
          else setTx { pair with noRoute := true, advAt := adv } s
        if x.again then
          match again pair x s with
          | some p => some (go p (bookSrc x.src s))
          | none => some (replayLost pair x.seq pair.ctx (markLost pair x.seq (setTx { pair with waiting := rest, sendNext := next } s)))
        else some (go (outPacket pair x.pkt x.pkt.tile false s) s)

/-- Send what a pair may send; the fuel bounds the packets. -/
def pumpN (tree : Bool) (dst ctx : Nat) : Nat → State → State
  | 0, s => s
  | k + 1, s =>
    match pumpOne tree dst ctx s with
    | none => s
    | some s' => if (txPair tree dst ctx s').waiting.length < (txPair tree dst ctx s).waiting.length then pumpN tree dst ctx k s' else s'

/-- Send what a pair may send. -/
def pump (tree : Bool) (dst ctx : Nat) (s : State) : State :=
  pumpN tree dst ctx (txPair tree dst ctx s).waiting.length s

/-- Send what every pair may send: records have retired, or the job or the ranks have changed. -/
def pumpAll (s : State) : State := s.xport.tx.foldl (fun s p => pump p.tree p.dst p.ctx s) s

/-- Put a packet among those not yet sent, in SEQ order. -/
def insertSeq (x : TxPkt) : List TxPkt → List TxPkt
  | [] => [x]
  | y :: ys => if seqLt x.seq y.seq then x :: y :: ys else y :: insertSeq x ys

/-- Reserve the SEQs of a message of `n` chunks (an EMPTY packet takes one): the first of them. -/
def msgOpen (tree : Bool) (dst ctx n : Nat) (s : State) : Nat × State :=
  let p := txPair tree dst ctx s
  (p.next, setTx { p with next := (p.next + max n 1) % seqMod } s)

/-- The packet of chunk `i` of a message of `n` chunks, or its EMPTY packet where `n` is 0 (R289). -/
def chunkPacket (tree : Bool) (ordered : Bool) (ctx chan i n seq : Nat) (w2 : Word) (tile : Option Tile) (s : State) : Packet :=
  let step := rdF Reg.BPM_STEP_STATUS Fld.BPM_STEP_STATUS_STEP s % 2 ^ 16
  let first := b2n (i == 0)
  let last := b2n (decide (n ≤ i + 1))
  let t0 := w64 (b2n (n == 0) * 2 ^ 60 + first * 2 ^ 59 + last * 2 ^ 58 + chan % 2 ^ 16 * 2 ^ 36 + i % 2 ^ 20 * 2 ^ 16 + step)
  ⟨netWord0 3 (b2n tree) (b2n ordered) ctx 0 0 0, 0, [t0, w64 (seq * 2 ^ 32 + n % 2 ^ 20), w2, 0], [], tile, []⟩

/-- A chunk of a message is ready to be sent. -/
def chunkReady (tree : Bool) (dst : Nat) (ordered : Bool) (ctx chan i n base : Nat) (w2 : Word) (tile : Option Tile)
    (src : SrcRef) (owner : MsgOwner) (s : State) : State :=
  let seq := (base + i) % seqMod
  let x : TxPkt := ⟨seq, chunkPacket tree ordered ctx chan i n seq w2 tile s, src, owner, decide (n ≤ i + 1), false⟩
  let p := txPair tree dst ctx s
  pump tree dst ctx (setTx { p with waiting := insertSeq x p.waiting } s)

/-- Send a whole message of tiles to a rank: the Dovetail's and the collective engine's messages. -/
def msgSend (dst : Nat) (ordered : Bool) (ctx chan : Nat) (w2 : Word) (tiles : List (Tile × SrcRef)) (owner : MsgOwner)
    (s : State) : State :=
  let (base, s) := msgOpen false dst ctx tiles.length s
  if tiles.isEmpty then chunkReady false dst ordered ctx chan 0 0 base w2 none .none owner s
  else
    (tiles.zipIdx).foldl (fun s x =>
      chunkReady false dst ordered ctx chan x.2 tiles.length base w2 (some x.1.1) x.1.2 owner s) s

/-! ## Replies (R292, R295, R296, R305) -/

/-- An ACK, SNACK or SYNC packet (TTYPE `ty`) to a rank. They are of the ordered class (DEDUCED). -/
def sysPacket (ty wait ctx dst seq : Nat) (s : State) : Packet :=
  let h := jobHeader 0 1 ctx (rankPhys dst s) s
  let step := rdF Reg.BPM_STEP_STATUS Fld.BPM_STEP_STATUS_STEP s % 2 ^ 16
  sealed ⟨h.1, h.2, [w64 (ty * 2 ^ 60 + wait * 2 ^ 56 + step), w64 (seq % seqMod * 2 ^ 32), 0, 0], [], none, []⟩

/-- Send a packet outside the window to a rank; without a route its pair holds it (R299). -/
def sysSend (dst ctx : Nat) (p : Packet) (s : State) : State :=
  if jobState s = 0 ∨ (ownRank s).isNone = true ∨ rankLive dst s = false then s
  else
    let (ok, s) := netSend p (rankPhys dst s) dst s
    if ok then s
    else
      let pair := txPair false dst ctx s
      setTx { pair with ctl := pair.ctl ++ [(dst, p)], advAt := if pair.unack.isEmpty && pair.ctl.isEmpty then s.cycle else pair.advAt } s

/-! ## Acknowledgements and timers (R294, R296, R297, R299) -/

/-- An ACK of SEQ `a` with its WAIT bit for a pair. -/
def ackReceive (dst ctx a : Nat) (wait : Bool) (s : State) : State :=
  let pair := txPair false dst ctx s
  let done := pair.unack.filter (fun x => !seqLt a x.seq)
  if done.isEmpty then
    if wait && s.xport.tx.any (fun q => q.is false dst ctx) then setTx { pair with retries := 0 } s else s
  else
    let s := setTx { pair with
      unack := pair.unack.filter (fun x => seqLt a x.seq), retries := 0, suspect := false, ticks := 0, advAt := s.cycle } s
    let s := cutMap (fun r => r.ofPair pair && done.any (fun x => x.seq == r.seq)) (fun r => { r with acked := true }) s
    let s := (done.filter (·.last)).foldl (fun s x => defer (.acked x.owner) s) s
    pump false dst ctx s

/-- A SNACK: the named chunk is sent again once. -/
def snackReceive (dst ctx seq : Nat) (s : State) : State :=
  let pair := txPair false dst ctx s
  match pair.unack.find? (fun x => x.seq == seq) with
  | some x => resendOne pair x Reg.FAB_RESENT_CHUNKS s
  | none => s

/-- Whether a pair has something for its timer. -/
def TxPair.timed (p : TxPair) : Bool := !p.unack.isEmpty || p.noRoute || !p.ctl.isEmpty

/-- Send again the packets outside the window that waited for a route. -/
def retryCtl (pair : TxPair) (s : State) : State :=
  let s := setTx { txPair pair.tree pair.dst pair.ctx s with ctl := [] } s
  pair.ctl.foldl (fun s x =>
    if pair.tree then treeCopy pair.dst x.1 x.2 s
    else if pair.dst ≥ 2 ^ 16 then
      let (ok, s) := netSend x.2 (pair.dst - 2 ^ 16) 0 s
      if ok then s else
        let p := txPair false pair.dst pair.ctx s
        setTx { p with ctl := p.ctl ++ [x] } s
    else sysSend x.1 pair.ctx x.2 s) s

/-- RTO_US pass for a pair with no advance. -/
def rtoExpire (tree : Bool) (dst ctx : Nat) (s : State) : State :=
  let pair := txPair tree dst ctx s
  if !pair.timed then s
  else
    let s := advanceTo (pair.advAt + rtoCycles s) s
    let s := setTx { pair with advAt := s.cycle } s
    if !tree && decide (dst < 2 ^ 15) && !rankLive dst s then s
    else
      let s := retryCtl (txPair tree dst ctx s) s
      let pair := txPair tree dst ctx s
      let tick := (pair.ticks + 1) % 16
      let act := !pair.suspect || tick == 0
      let s := setTx { pair with noRoute := false, ticks := if pair.suspect then tick else 0 } s
      let s := if act then pair.unack.foldl (fun s x => resendOne pair x Reg.FAB_RESENT_CHUNKS s) s else s
      let s := pump tree dst ctx s
      let pair := txPair tree dst ctx s
      if pair.unack.isEmpty && !pair.noRoute || tree || decide (dst ≥ 2 ^ 15) then s
      else
        let k := pair.retries + 1
        let s := setTx { pair with retries := k } s
        if k ≥ rdF Reg.FAB_XPORT_CFG Fld.FAB_XPORT_CFG_XRETRY_MAX s ∧ pair.suspect = false then
          let s := setTx { pair with retries := k, suspect := true, ticks := 0 } s
          log 0x080A kRank dst (some ctx) [w64 ctx] (bump Reg.FAB_PEER_TIMEOUTS s)
        else s

/-! ## Give-back (R258, R294) -/

/-- The rank whose LIVE entry holds a PHYS. -/
def rankAt (phys : Nat) (s : State) : Option Nat := (rankKeys s).find? (fun r => rankLive r s && rankPhys r s == phys)

/-- A job packet that a port gave back is sent again at once by a new route; a version 2 packet is lost (R307). -/
def giveBackJob (p : Packet) (s : State) : State :=
  let ctx := pkN0 p Pk.CTX
  if pkN0 p Pk.VER = 2 ∨ pkN1 p Pk.KEY ≠ jobKey s ∨ pkN1 p Pk.EPOCH ≠ jobEpoch s then s
  else if isTree p then
    let t := pkN0 p Pk.DST
    (treeTargets t s).foldl (fun s c => treeCopy t c (sealed { p with t := setF Pk.REPLAY (pkTw p 0) 1 :: p.t.drop 1 }) s) s
  else
    match rankAt (pkN0 p Pk.DST) s with
    | none => s
    | some r =>
      if pkT p 0 Pk.TTYPE ≥ 2 then sysSend r ctx p s
      else
        let pair := txPair false r ctx s
        match pair.unack.find? (fun x => x.seq == pkT p 1 Pk.SEQ) with
        | some x => resendOne pair x Reg.FAB_RESENT_CHUNKS s
        | none => s

/-! ## Step boundaries, takeover and teardown (R302, R304, R305, R366) -/

/-- Phase 1 of the boundary into step `new` retires records (R302). -/
def cutBoundary (new : Nat) (s : State) : State :=
  let old := fun (r : CutRec) =>
    let age := (new % 2 ^ 16 + 2 ^ 16 - getF Pk.STEP r.t0) % 2 ^ 16
    decide (2 ≤ age) && decide (age < 2 ^ 15)
  let dov := fun (r : CutRec) => match r.src with | .dovetail _ _ => true | _ => false
  pumpAll (cutRetire (fun r => old r && (dov r || (r.acked && (r.tree || rankState r.dst s != 2)))) s)

/-- What becomes of the sending side toward rank `r` when its entry goes from FAILED to LIVE (R305, step 2). -/
def takeoverPair (pair : TxPair) (s : State) : State :=
  let recs := s.xport.cut.filter (fun r => r.ofPair pair)
  let sorted := recs.foldl (fun l r =>
    let old := pair.unack.find? (fun x => x.seq == r.seq)
    let tile := match r.src with
      | .none => none
      | _ => some (⟨BitVec.ofNat 128 r.crc, (match r.kept with | some k => k.payload | none => [])⟩ : Tile)
    let tile := match r.kept with | some k => some k | none => tile
    let pkt : Packet := ⟨netWord0 3 0 (b2n r.ordered) r.ctx 0 0 0, 0, [r.t0, r.t1, r.t2, 0], [], tile, []⟩
    insertSeq ⟨r.seq, pkt, r.src, (match old with | some x => x.owner | none => .free), (match old with | some x => x.last | none => false), true⟩ l) []
  let base := match sorted with | x :: _ => x.seq | [] => pair.sendNext
  let s := cutMap (fun r => r.ofPair pair) (fun r => { r with acked := false }) s
  let s := setTx { pair with
    unack := [], waiting := sorted ++ pair.waiting, sendNext := base, noRoute := false, retries := 0
    suspect := false, ticks := 0, advAt := s.cycle } s
  pump false pair.dst pair.ctx (sysSend pair.dst pair.ctx (sysPacket 4 0 pair.ctx pair.dst base s) s)

/-- Whether a queued packet is a CHUNK or EMPTY packet of context `c` not yet started. -/
def unsentOf (c : Nat) (x : TxItem) : Bool :=
  pkN0 x.pkt Pk.VER == 3 && !isCtl x.pkt && pkN0 x.pkt Pk.CTX == c && decide (pkT x.pkt 0 Pk.TTYPE ≤ 1)

/-- Discard the packets that `p` selects from every port's queue: those discarded. -/
def dropUnsent (p : TxItem → Bool) (s : State) : List Packet × State :=
  let gone := ((upto 16).map (fun n => ((portOf n s).txq.filter p).map (·.pkt))).flatten
  (gone, (upto 16).foldl (fun s n => let x := portOf n s; setPort n { x with txq := x.txq.filter (fun i => !p i) } s) s)

/-- Step 4 of R366 for the sending side of context `c`: what was not sent is discarded, its SEQs are free again, and
its records retire. -/
def sendTeardown (c : Nat) (s : State) : State :=
  let (gone, s) := dropUnsent (unsentOf c) s
  let s := s.xport.tx.foldl (fun s pair =>
    if pair.tree ∨ pair.ctx ≠ c then setTx { pair with waiting := pair.waiting.filter (fun x => pkN0 x.pkt Pk.CTX != c) } s
    else
      let mine := gone.filterMap (fun p =>
        if !isTree p && pkN0 p Pk.DST == rankPhys pair.dst s then some (pkT p 1 Pk.SEQ) else none)
      let next := mine.foldl (fun m q => if seqLt q m then q else m) pair.sendNext
      setTx { TxPair.new false pair.dst c with next := next, sendNext := next } s) s
  let s := cutStall c false s
  let s := cutRetire (fun r => r.ctx == c) s
  setX (fun x => { x with jobs := x.jobs.filter (fun j => j.ctx != c) }) s

/-- After a warm reset every record of a BENCH or DOVETAIL source is LOST (R304). -/
def cutWarm (s : State) : State :=
  let hit := fun (r : CutRec) => !r.lost && (match r.src with | .bench _ _ => true | .dovetail _ _ => true | _ => false)
  let n := (s.xport.cut.filter hit).length
  bumpBy n Reg.FAB_CUT_LOST (cutMap hit (fun r => { r with lost := true }) s)

end Sys2Proof.Machine
end

