-- ==== Sys2Proof/Machine/Messages.lean ====
section
/-!
DEFINITION. Messages: SEND and RECV, the receiving side of a pair, version 2 chains, and broadcast trees with their
repair (spec/10_fabric_transport.md, spec/05 for version 2 cells).
-/
namespace Sys2Proof.Machine

/-! ## Fabric descriptors (R283, R284) -/

/-- Word `w` of fabric descriptor `d`. -/
def xdWord (d w : Nat) (s : State) : Word := tb (Tab.XDESC (d * 2 + w)) s
/-- A field of word 0 of fabric descriptor `d`. -/
def xdF (d : Nat) (f : Fld) (s : State) : Nat := getF f (xdWord d 0 s)
/-- Whether fabric descriptor `d` is VALID. -/
def xdValid (d : Nat) (s : State) : Bool := bitF Fld.XDESC0_VALID (xdWord d 0 s)
/-- KIND of a fabric descriptor: 0 POINT, 1 INBOX, 2 MULTICAST, 3 V2. -/
def xdKind (d : Nat) (s : State) : Nat := xdF d Fld.XDESC0_KIND s
/-- Tree of a MULTICAST descriptor. -/
def xdTree (d : Nat) (s : State) : Nat := xdF d ⟨35, 8⟩ s
/-- Local expert entry of an INBOX descriptor. -/
def xdLocal (d : Nat) (s : State) : Nat := xdF d ⟨35, 12⟩ s
/-- The source that a descriptor's PEER names: a rank, a tree or a PHYS. -/
def xdPeer (d : Nat) (s : State) : Nat := if xdKind d s = 2 then xdTree d s else xdF d Fld.XDESC0_PEER s
/-- Channel of a descriptor. -/
def xdChan (d : Nat) (s : State) : Nat := xdF d Fld.XDESC0_CHAN s
/-- Whether chunks of a descriptor land in Ruril. -/
def xdLand (d : Nat) (s : State) : Bool := bitF Fld.XDESC0_LAND (xdWord d 0 s)
/-- Ruril tile of chunk 0. -/
def xdBase (d : Nat) (s : State) : Nat := getF Fld.XDESC1_RBASE (xdWord d 1 s)

/-- Whether a SEND of `n` tiles or a RECV is refused (R284). -/
def fabricRefused (b q d n : Nat) (isSend : Bool) (s : State) : Bool :=
  let k := xdKind d s
  !xdValid d s || ctxOf b q s != some (xdF d Fld.XDESC0_CTX s) || xdLand d s || sysMask b s == 0 ||
    (isSend && (k == 1 || (k == 2 && ownRank s != some (treeRoot (xdTree d s) s)) || (k == 3 && decide (n > 16))))

/-! ## SEND (R285) -/

/-- Book the read of a SEND's next chunk. -/
def bookSend (j : SendJob) (s : State) : State :=
  let (due, s) := bookPort j.b false s
  setX (fun x => { x with xfers := x.xfers ++ [⟨j.b, j.tile + j.next, due, .send j.b j.q j.po⟩] }) s

/-- The SEND with its unit entry removed: it is complete. -/
def sendGone (b q po : Nat) (s : State) : State :=
  let sd := sideOf b q s
  setSide b q { sd with sends := sd.sends.filter (fun r => r.op.po != po) } s

/-- Hand a version 2 packet to a port; without a route its pair holds it. -/
def v2Out (phys ctx : Nat) (p : Packet) (s : State) : State :=
  let (ok, s) := netSend p phys 0 s
  if ok then s
  else
    let pair := txPair false (v2Dst phys) ctx s
    setTx { pair with ctl := pair.ctl ++ [(0, p)], advAt := if pair.ctl.isEmpty then s.cycle else pair.advAt } s

/-- The cells of a version 2 message: 248 payload bytes each, NEXT naming the cell that follows (R152, R154). -/
def v2Cells : Nat → Nat → List Byte → List (List Byte)
  | 0, _, _ => []
  | k + 1, i, bs =>
    let n := min 248 bs.length
    let last := decide (bs.length ≤ 248)
    let hdr := b2n (i == 0) * 2 ^ 63 + b2n last * 2 ^ 62 + n * 2 ^ 40 + (if last then 0 else (i + 1) % 2 ^ 14)
    let cell := leBytes 8 hdr ++ subBytes (bs.take n) 0 248
    if last then [cell] else cell :: v2Cells k (i + 1) (bs.drop n)

/-- Group cells into packets of at most 29, the most that 32 flits carry. -/
def v2Packets : Nat → List (List Byte) → List (List Byte)
  | 0, _ => []
  | k + 1, cs => if cs.length ≤ 29 then [cs.flatten] else (cs.take 29).flatten :: v2Packets k (cs.drop 29)

/-- Send the tiles of a version 2 message to the adapter at `phys` (R154, R263). -/
def v2Send (phys ctx : Nat) (tiles : List Tile) (s : State) : State :=
  let cells := v2Cells 265 0 ((tiles.map (·.payload)).flatten)
  let key := rdF Reg.FAB_V2_KEY Fld.FAB_V2_KEY_KEY s
  (v2Packets 16 cells).foldl (fun s body =>
    v2Out phys ctx ⟨netWord0 2 0 1 0 phys (selfPhys s) ((ownRank s).getD 0), w64 (key * 2 ^ 32), [], [], none, body⟩ s) s

/-- A SEND begins (R285): its SEQs are reserved, and its first chunk is booked, or its EMPTY packet sent. -/
def sendBegin (b q po pc d t n : Nat) (s : State) : State :=
  let k := xdKind d s
  let c := xdF d Fld.XDESC0_CTX s
  let ordered := k == 2 || xdF d Fld.XDESC0_ORDERED s == 1
  let dst := xdPeer d s
  let chan := xdChan d s
  let (base, s) := if k = 3 then (0, s) else msgOpen (k == 2) dst c n s
  if n = 0 then
    if k = 3 then sendGone b q po s
    else chunkReady (k == 2) dst ordered c chan 0 0 base 0 none .none (.bench b q po) s
  else
    let j : SendJob := ⟨b, q, po, pc, c, k, dst, ordered, chan, t, n, base, 0, []⟩
    bookSend j (setX (fun x => { x with jobs := x.jobs ++ [j] }) s)

/-- Issue of SEND (R47, R284, R285). -/
def issueSend (b q : Nat) (w : Word) (s : State) : Option State :=
  let sq := seqOf b q s
  let t := effOp Sl.TILE Sl.XT w sq
  let n := effOp Sl.SEND_NT Sl.SEND_XN w sq
  let d := getF Sl.SEND_DESC w
  if !runInTiles b q t (max n 1) s then some (issueFault b q cBadTile 0 s)
  else if fabricRefused b q d n true s then some (issueFault b q cIllegalOp 0 s)
  else
    let op := mkOp .send b q w t 0 n d 0 s
    let s := issued b q false Seq.next s
    let sd := sideOf b q s
    let s := setSide b q { sd with sends := sd.sends ++ [⟨op, 0, 0, 0, [], [], [], 0, 0⟩] } s
    some (sendBegin b q op.po op.pc d t n s)

/-- The SEND that a booked read belongs to. -/
def jobOf (b q po : Nat) (s : State) : Option SendJob := s.xport.jobs.find? (fun j => j.b == b && j.q == q && j.po == po)

/-- The unit entry of a SEND. -/
def sendRun (b q po : Nat) (s : State) : Option Run := (sideOf b q s).sends.find? (fun r => r.op.po == po)

/-- Remove a SEND in progress. -/
def dropJob (j : SendJob) (s : State) : State :=
  setX (fun x => { x with jobs := x.jobs.filter (fun k => !(k.b == j.b && k.q == j.q && k.po == j.po)) }) s

/-- Remove a booked fabric transfer. -/
def dropFab (x : FabXfer) (s : State) : State := setX (fun y => { y with xfers := y.xfers.erase x }) s

/-- A chunk of a SEND has been read: it is sent, or kept for its version 2 chain, and the next one is booked. -/
def sendChunk (j : SendJob) (x : Tile) (s : State) : State :=
  let sd := sideOf j.b j.q s
  let s := setSide j.b j.q { sd with sends := sd.sends.map (fun r => if r.op.po = j.po then { r with prog := j.next + 1 } else r) } s
  let j' := { j with next := j.next + 1, tiles := if j.kind = 3 then j.tiles ++ [x] else [] }
  let s := dropJob j s
  let s := if j.kind = 3 then s
    else chunkReady (j.kind == 2) j.dst j.ordered j.ctx j.chan j.next j.num j.base 0 (some x) (.bench j.b (j.tile + j.next))
      (.bench j.b j.q j.po) s
  if j'.next < j.num then bookSend j' (setX (fun y => { y with jobs := y.jobs ++ [j'] }) s)
  else if j.kind = 3 then sendGone j.b j.q j.po (v2Send j.dst j.ctx j'.tiles s)
  else s

/-- The booked read of a SEND's chunk ends: a use with UNIT 7 (R94, R95, R285). -/
def sendRead (x : FabXfer) (b q po : Nat) (e : Ecc) (s : State) : State :=
  match jobOf b q po s, sendRun b q po s with
  | some j, some r =>
    if readHeld b q r.op s || heldUnit b q 7 s then s
    else
      let s := eccCount b e (advanceTo x.due s)
      match useTile b q x.btile 7 e s with
      | (.refetch, s) => s
      | (.pass, s) => sendChunk j (benchTile b x.btile s) (dropFab x s)
      | (.fault, s) => opFault b q cChecksum r.op (sendGone b q po (dropJob j (dropFab x s)))
      | (.badFormat, s) => opFault b q cBadFormat r.op (sendGone b q po (dropJob j (dropFab x s)))
  | _, _ => dropFab x s

/-! ## Staging (R151, R286) -/

/-- Staging buffers that context `c` uses. -/
def staged (c : Nat) (s : State) : Nat := smGet (fun _ => 0) s.pool.stage c
/-- Take `n` staging buffers of context `c`. -/
def stageTake (c n : Nat) (s : State) : State :=
  { s with pool := { s.pool with stage := smPut (fun _ => 0) s.pool.stage c (staged c s + n) } }
/-- Free `n` staging buffers of context `c`. -/
def stageFree (c n : Nat) (s : State) : State :=
  { s with pool := { s.pool with stage := smPut (fun _ => 0) s.pool.stage c (staged c s - n) } }
/-- Whether context `c` has a free staging buffer of its share. -/
def stageRoom (c : Nat) (s : State) : Bool := decide (staged c s < rdF (Reg.CTX_FABRIC c) Fld.CTX_FABRIC_STAGE s)

/-! ## Messages being received (R286 to R288) -/

/-- Whether a message is the one named. -/
def RxMsg.is (m : RxMsg) (kind src ctx base : Nat) : Bool := m.kind == kind && m.src == src && m.ctx == ctx && m.base == base
/-- The message named. -/
def msgFind (kind src ctx base : Nat) (s : State) : Option RxMsg := s.xport.msgs.find? (fun m => m.is kind src ctx base)
/-- Store a message. -/
def setMsg (m : RxMsg) (s : State) : State :=
  if s.xport.msgs.any (fun x => x.is m.kind m.src m.ctx m.base) then
    setX (fun y => { y with msgs := y.msgs.map (fun x => if x.is m.kind m.src m.ctx m.base then m else x) }) s
  else setX (fun y => { y with msgs := y.msgs ++ [m] }) s
/-- Remove a message, freeing the staging buffers charged to it. -/
def dropMsg (m : RxMsg) (s : State) : State :=
  let n := (m.held.filter (fun h => h.2.2)).length
  stageFree m.ctx n (setX (fun y => { y with msgs := y.msgs.filter (fun x => !x.is m.kind m.src m.ctx m.base) }) s)

/-- The descriptor of a running context that receives messages of a kind from a source on a channel (R286, R351): the
lowest. -/
def descFor (kind src ctx chan : Nat) (s : State) : Option Nat :=
  if ctxState ctx s ≠ 1 then none
  else ((tabKeys (Tab.XDESC 0) (Tab.XDESC 8192) s).map (fun k => (k - Tab.XDESC 0) / 2)).find? (fun d =>
    xdValid d s && xdF d Fld.XDESC0_CTX s == ctx && xdKind d s == kind && xdPeer d s == src && xdChan d s == chan)

/-- The sequencer whose RECV waits, not having taken a message, on a descriptor that matches. -/
def recvFor (kind src ctx chan : Nat) (s : State) : Option (Nat × Nat × RecvOp) :=
  s.benches.findSome? (fun p => (upto 2).findSome? (fun q =>
    match (p.2.seq q).blocked with
    | .recv r =>
      if !r.taken && xdValid r.desc s && xdF r.desc Fld.XDESC0_CTX s == ctx && xdKind r.desc s == kind &&
        xdPeer r.desc s == src && xdChan r.desc s == chan then some (p.1, q, r) else none
    | _ => none))

/-- Book the landing of a received chunk in the bench of the RECV that has taken its message. -/
def bookLand (b q tile chunk : Nat) (x : Tile) (charged : Option Nat) (s : State) : State :=
  let (due, s) := bookPort b true s
  setX (fun y => { y with xfers := y.xfers ++ [⟨b, tile + chunk, due, .recv b q chunk x charged⟩] }) s

/-- The first message of a kind from a source in a context in this step that matches no descriptor writes a record
(R288). -/
def noDesc (src ctx chan : Nat) (s : State) : State :=
  let s := bump Reg.FAB_NO_DESC s
  if s.xport.noDescSeen.contains ctx then s
  else log 0x080C kRank src (some ctx) [w64 chan] (setX (fun x => { x with noDescSeen := x.noDescSeen ++ [ctx] }) s)

/-- A chunk, or an EMPTY packet (no tile), of an accepted message with a descriptor (R286, R287). -/
def msgChunk (d kind src ctx chan base chunk nchunk step : Nat) (x : Option Tile) (s : State) : State :=
  let m := (msgFind kind src ctx base s).getD ⟨kind, src, ctx, chan, base, nchunk, step, [], 0, none⟩
  if xdLand d s then
    let s := match x with
      | some t => if xdBase d s + chunk ≤ rtnMax then setRurilTile (xdBase d s + chunk) t s else s
      | none => s
    if m.landed + 1 ≥ max nchunk 1 then
      semHw (getF Fld.XDESC1_SEM (xdWord d 1 s)) (getF Fld.XDESC1_SIGNUM (xdWord d 1 s)) (dropMsg m s)
    else setMsg { m with landed := m.landed + 1 } s
  else
    match x, m.taker with
    | none, _ => setMsg m s
    | some t, some (b, q) =>
      (match (seqOf b q s).blocked with
        | .recv r => bookLand b q r.tile chunk t none (setMsg m s)
        | _ => setMsg m s)
    | some t, none =>
      let charge := (recvFor kind src ctx chan s).isNone
      let s := if charge then stageTake ctx 1 s else s
      setMsg { m with held := m.held ++ [(chunk, t, charge)] } s

/-! ## Forwarding on a tree (R272, R300) -/

/-- Network header word 1 of a job packet. -/
def jobWord1 (s : State) : Word := w64 (jobKey s * 2 ^ 32 + jobEpoch s * 2 ^ 16)
/-- Network header word 0 of a tree packet: every copy names its ROOT as the source (R272). -/
def treeHeader (t ctx : Nat) (s : State) : Word := netWord0 3 1 1 ctx t (rankPhys (treeRoot t s) s) (treeRoot t s)

/-- Forward a tree chunk that has landed, through the tree's pair (R272, R300). -/
def treeForward (p : Packet) (src : SrcRef) (s : State) : State :=
  let t := pkN0 p Pk.DST
  let pair := txPair true t 0 s
  pump true t 0 (setTx { pair with waiting := pair.waiting ++ [⟨pkT p 1 Pk.SEQ, p, src, .free, false, false⟩] } s)

/-- Chunk `chunk` of a tree message has landed in bench tile `tile`: it is forwarded (R310). -/
def treeLanded (m : RxMsg) (chunk b tile : Nat) (x : Tile) (s : State) : State :=
  let p := chunkPacket true true m.ctx m.chan chunk m.nchunk ((m.base + chunk) % seqMod) 0 (some x) s
  let t0 := setF Pk.STEP (pkTw p 0) m.step
  treeForward (sealed { p with h0 := treeHeader m.src m.ctx s, h1 := jobWord1 s, t := t0 :: p.t.drop 1 }) (.bench b tile) s

/-! ## RECV (R286) -/

/-- Issue of RECV: it blocks its sequencer (R41, R284). -/
def issueRecv (b q : Nat) (w : Word) (s : State) : Option State :=
  let sq := seqOf b q s
  let t := effOp Sl.TILE Sl.XT w sq
  let d := getF Sl.SEND_DESC w
  if !runInTiles b q t 1 s then some (issueFault b q cBadTile 0 s)
  else if fabricRefused b q d 0 false s then some (issueFault b q cIllegalOp 0 s)
  else
    some (issued b q true (fun x => { x with
      st := .wait, blocked := .recv ⟨d, t, getF Sl.SEND_NT w, getF Sl.SEND_XN w, x.po - 1, x.pc, false, 0, 0⟩ }) s)

/-- Whether a message may be taken: every SEQ before its first has been accepted (R308). -/
def msgNext (m : RxMsg) (s : State) : Bool :=
  match m.kind with
  | 0 => s.xport.rx.any (fun r => r.src == m.src && r.ctx == m.ctx && !seqLt r.e m.base)
  | _ => true

/-- The message that a RECV takes next: the earliest untaken one of its descriptor. -/
def msgToTake (r : RecvOp) (s : State) : Option RxMsg :=
  (s.xport.msgs.filter (fun m => m.kind == xdKind r.desc s && m.src == xdPeer r.desc s && m.ctx == xdF r.desc Fld.XDESC0_CTX s &&
    m.chan == xdChan r.desc s && m.taker.isNone && msgNext m s)).foldl (fun o m =>
      match o with
      | none => some m
      | some x => if seqLt m.base x.base then some m else some x) none

/-- A RECV takes its message: the two checks, NCHUNK into I[XR], and the landings of the chunks held (R286). -/
def recvTake (b q : Nat) (s : State) : State :=
  match (seqOf b q s).blocked with
  | .recv r =>
    if r.taken || xdKind r.desc s == 1 then s
    else
      match msgToTake r s with
      | none => s
      | some m =>
        if m.nchunk > r.maxt then benchFault b q cRecvOverflow 0 r.pc s
        else if !runInTiles b q r.tile (max m.nchunk 1) s then benchFault b q cBadTile 0 r.pc s
        else
          let s := setSeq b q ({ seqOf b q s with blocked := .recv { r with taken := true, nchunk := m.nchunk } }.setIndex r.xr m.nchunk) s
          let s := setMsg { m with held := [], taker := some (b, q) } s
          m.held.foldl (fun s h => bookLand b q r.tile h.1 h.2.1 (if h.2.2 then some m.ctx else none) s) s
  | _ => s

/-- Whether an earlier instruction of the side holds the landing of a RECV's tile (R50). -/
def landHeld (b q t po : Nat) (s : State) : Bool :=
  let sd := sideOf b q s
  (writers sd).any (fun w => w.po < po && (opWrites b w s).contains t) || (readers sd).any (fun r => r.po < po && (opReads b r s).contains t)

/-- A chunk of a taken message lands. -/
def recvLand (x : FabXfer) (b q : Nat) (t : Tile) (charged : Option Nat) (s : State) : State :=
  match (seqOf b q s).blocked with
  | .recv r =>
    if landHeld b q x.btile r.po s then s
    else
      let s := landTile b x.btile t (advanceTo x.due (dropFab x s))
      let s := match charged with | some c => stageFree c 1 s | none => s
      let s := setSeq b q { seqOf b q s with blocked := .recv { r with landed := r.landed + 1 } } s
      match s.xport.msgs.find? (fun m => m.kind == 2 && m.taker == some (b, q)) with
      | some m => treeLanded m (x.btile - r.tile) b x.btile t s
      | none => s
  | _ => match charged with | some c => stageFree c 1 (dropFab x s) | none => dropFab x s

/-- Whether a RECV has its whole message (not of an inbox descriptor). -/
def recvWhole (r : RecvOp) : Bool := r.taken && decide (r.landed ≥ r.nchunk)

/-- A RECV of a POINT, MULTICAST or V2 descriptor completes at a frame start (R41, R106). -/
def recvDone (b q : Nat) (s : State) : State :=
  match (seqOf b q s).blocked with
  | .recv r =>
    if !recvWhole r || glueHeld b q s then s
    else
      let s := advanceTo (frameFrom s.cycle) s
      let s := match s.xport.msgs.find? (fun m => m.taker == some (b, q)) with
        | some m => dropMsg m s
        | none => s
      resume b q id s
  | _ => s

/-! ## The receiving side of a pair (R292, R295, R296, R305, R306) -/

/-- The receiving side named; E is 0 where there is none. -/
def rxPair (src ctx : Nat) (s : State) : RxPair :=
  (s.xport.rx.find? (fun r => r.src == src && r.ctx == ctx)).getD ⟨src, ctx, 0, [], 0, 0⟩
/-- Store a receiving side. -/
def setRx (p : RxPair) (s : State) : State :=
  if s.xport.rx.any (fun r => r.src == p.src && r.ctx == p.ctx) then
    setX (fun x => { x with rx := x.rx.map (fun r => if r.src == p.src && r.ctx == p.ctx then p else r) }) s
  else setX (fun x => { x with rx := x.rx ++ [p] }) s

/-- Send an ACK of E - 1 (R296). -/
def ackSend (src ctx wait : Nat) (s : State) : State :=
  let p := rxPair src ctx s
  let s := setRx { p with owed := 0 } s
  sysSend src ctx (sysPacket 2 wait ctx src (p.e + seqMod - 1) s) s

/-- E past every accepted SEQ; the fuel is the number of them. -/
def eAdvance : Nat → Nat → List Nat → Nat × List Nat
  | 0, e, l => (e, l)
  | k + 1, e, l => if l.contains e then eAdvance k ((e + 1) % seqMod) (l.erase e) else (e, l)

/-- Accept SEQ `q`: E and the ACK that follows (R295, R296). -/
def rxAccept (src ctx q : Nat) (s : State) : State :=
  let p := rxPair src ctx s
  let l := p.ahead ++ [q]
  let (e, l) := eAdvance l.length p.e l
  let s := setRx { p with e := e, ahead := l, owed := p.owed + 1, since := if p.owed = 0 then s.cycle else p.since } s
  let s := bump Reg.FAB_CHUNKS_RCVD s
  if p.owed + 1 ≥ 16 then ackSend src ctx 0 s else s

/-- Whether a collective instance is open. -/
def colOpen (g gseq : Nat) (s : State) : Option ColInst := s.col.insts.find? (fun i => i.g == g && i.gseq == gseq)

/-- Open collective slots of context `c`. -/
def colSlots (c : Nat) (s : State) : Nat := (s.col.insts.filter (fun i => i.ctx == c)).length

/-- Whether an arrival for group `g` is one that R332 drops. -/
def colBad (g ctx src : Nat) (s : State) : Bool :=
  !groupValid g s || groupCtx g s != ctx || (groupPos g src s).isNone ||
    (match ownRank s with | some r => (groupPos g r s).isNone | none => true)

/-- Whether the device has already started an instance, so that with no slot open it has ended (R327). -/
def colPast (g gseq : Nat) (s : State) : Bool := seqLt gseq (tbF (Tab.GSEQ g) Fld.COL_GSEQ_DATA_NEXT s)

/-- Whether the engine does not accept an arrival: the slots of the context's share are full (R331). -/
def colFull (g gseq ctx src : Nat) (s : State) : Bool :=
  !colBad g ctx src s && (colOpen g gseq s).isNone && !colPast g gseq s &&
    decide (colSlots ctx s ≥ rdF (Reg.CTX_FABRIC ctx) Fld.CTX_FABRIC_COLSLOTS s)

/-- Whether a chunk for an instance without a local start needs a staging buffer (R329). -/
def colStages (g gseq ctx src : Nat) (s : State) : Bool :=
  !colBad g ctx src s && (match colOpen g gseq s with
    | some i => i.words.isEmpty
    | none => !colPast g gseq s)

/-- A CHUNK or EMPTY packet of a pair that has passed its checks (R286, R288, R295, R331, R333). -/
def pairReceive (p : Packet) (s : State) : State :=
  let src := pkN0 p Pk.SRCRANK
  let ctx := pkN0 p Pk.CTX
  let seq := pkT p 1 Pk.SEQ
  let chan := pkT p 0 Pk.CHAN
  let chunk := pkT p 0 Pk.CHUNK
  let nchunk := pkT p 1 Pk.NCHUNK
  let r := rxPair src ctx s
  let d := seqSub seq r.e
  if d ≥ 2 ^ 31 || r.ahead.contains seq then ackSend src ctx 0 (bump Reg.FAB_DUP_DROP s)
  else if d ≥ 256 || (d > 0 && pkN0 p Pk.ORDERED == 1) then s
  else
    let base := (seq + seqMod - chunk) % seqMod
    let run := ctxState ctx s == 1
    let refusal : Option State :=
      if !run then none
      else if chan = 0xFFFF then
        let g := pkT p 2 Pk.GROUP
        let gs := pkT p 2 Pk.GSEQ
        if colFull g gs ctx src s then
          let wait := if s.col.refused.any (fun x => x.1 == ctx) then s.col.refused
            else smPut (fun _ => 0) s.col.refused ctx (s.cycle + 1)
          let s := bump Reg.COL_SLOT_WAIT s
          some { s with col := { s.col with refused := wait } }
        else if p.tile.isSome && colStages g gs ctx src s && !stageRoom ctx s then some (bump Reg.FAB_STAGE_DROP s)
        else none
      else if chan = 0xFFFE then none
      else
        match descFor 0 src ctx chan s with
        | none => none
        | some k =>
          let free := xdLand k s || p.tile.isNone || (recvFor 0 src ctx chan s).isSome ||
            (match msgFind 0 src ctx base s with | some m => m.taker.isSome | none => false) || stageRoom ctx s
          if free then none else some (bump Reg.FAB_STAGE_DROP s)
    match refusal with
    | some s => ackSend src ctx 1 s
    | none =>
      let s := rxAccept src ctx seq s
      if !run then (if pkT p 0 Pk.FIRST = 1 then noDesc src ctx chan s else s)
      else if chan = 0xFFFF then defer (.colChunk src ctx (pkT p 2 Pk.GROUP) (pkT p 2 Pk.GSEQ) chunk p) s
      else if chan = 0xFFFE then
        match p.tile with
        | none => defer (.dovMsg src ctx (pkT p 0 Pk.STEP) []) s
        | some t =>
          let m := (msgFind 4 src ctx base s).getD ⟨4, src, ctx, chan, base, nchunk, pkT p 0 Pk.STEP, [], 0, none⟩
          let m := { m with held := m.held ++ [(chunk, t, false)] }
          if m.held.length ≥ nchunk then
            let tiles := (upto nchunk).filterMap (fun i => (m.held.find? (fun h => h.1 == i)).map (fun h => h.2.1))
            defer (.dovMsg src ctx m.step tiles) (dropMsg m s)
          else setMsg m s
      else
        match descFor 0 src ctx chan s with
        | none => if pkT p 0 Pk.FIRST = 1 then noDesc src ctx chan s else s
        | some k => msgChunk k 0 src ctx chan base chunk nchunk (pkT p 0 Pk.STEP) p.tile s

/-- Send a SNACK for a chunk whose end-to-end check failed (R292). -/
def snackSend (p : Packet) (s : State) : State :=
  let src := pkN0 p Pk.SRCRANK
  let ctx := pkN0 p Pk.CTX
  sysSend src ctx (sysPacket 3 0 ctx src (pkT p 1 Pk.SEQ) s) s

/-- The ACK timer of a pair: 1 µs after an accepted packet that no ACK covers (R296). -/
def ackTimer (src ctx : Nat) (s : State) : State :=
  let p := rxPair src ctx s
  if p.owed = 0 then s else ackSend src ctx 0 (advanceTo (p.since + usCycles 1) s)

/-- A SYNC: a receiver without state for the pair takes E from it (R306). -/
def syncReceive (p : Packet) (s : State) : State :=
  let src := pkN0 p Pk.SRCRANK
  let ctx := pkN0 p Pk.CTX
  if s.xport.rx.any (fun r => r.src == src && r.ctx == ctx) then s
  else setRx ⟨src, ctx, pkT p 1 Pk.SEQ, [], 0, 0⟩ s

/-! ## Version 2 chains (R152, R153, R307) -/

/-- Staging buffers that `n` cells take. -/
def cellBufs (n : Nat) : Nat := (n + 15) / 16

/-- The context that receives version 2 messages from a PHYS, with the descriptor: the lowest of a running context. -/
def v2Desc (phys : Nat) (s : State) : Option (Nat × Nat) :=
  ((tabKeys (Tab.XDESC 0) (Tab.XDESC 8192) s).map (fun k => (k - Tab.XDESC 0) / 2)).findSome? (fun d =>
    let c := xdF d Fld.XDESC0_CTX s
    if xdValid d s && xdKind d s == 3 && xdF d Fld.XDESC0_PEER s == phys && ctxState c s == 1 then some (d, c) else none)

/-- The tiles of a version 2 payload (R153). -/
def v2Tiles (fmt : Nat) (bs : List Byte) : List Tile :=
  (upto ((bs.length + 4095) / 4096)).map (fun i =>
    let p := subBytes (bs.drop (4096 * i)) 0 4096
    ⟨mkTag (crc32c p) fmt 0 0 0 0, p⟩)

/-- A whole version 2 message from a PHYS. -/
def v2Whole (phys : Nat) (bs : List Byte) (s : State) : State :=
  match v2Desc phys s with
  | none => s
  | some (d, c) =>
    let tiles := v2Tiles (xdF d Fld.XDESC0_FORMAT s) bs
    let base := (s.xport.msgs.filter (fun m => m.kind == 3)).foldl (fun k m => max k (m.base + 1)) 0
    (tiles.zipIdx).foldl (fun s x => msgChunk d 3 phys c (xdChan d s) base x.2 tiles.length 0 (some x.1) s) s

/-- One cell of a version 2 packet. A cell for which no staging buffer of the share is free ends its chain. -/
def v2Cell (phys : Nat) (cell : List Byte) (s : State) : State :=
  let h := leAt cell 0 8
  let part := subBytes (cell.drop 8) 0 (min 248 (bitsOf h 47 40))
  let old := (s.xport.v2.find? (fun x => x.src == phys)).getD ⟨phys, [], 0⟩
  let c := ((v2Desc phys s).map (·.2)).getD 0
  let drop := fun (x : V2Chain) (s : State) =>
    stageFree c (cellBufs x.cells) (setX (fun y => { y with v2 := y.v2.filter (fun z => z.src != phys) }) s)
  if (v2Desc phys s).isNone then (if bitAt h 63 then noDesc phys 0 0 s else s)
  else
    let s := if bitAt h 63 then drop old s else s
    let x : V2Chain := if bitAt h 63 then ⟨phys, [], 0⟩ else old
    if !bitAt h 63 && old.cells == 0 then s
    else if x.cells ≥ 265 then drop x s
    else
      let more := cellBufs (x.cells + 1) - cellBufs x.cells
      if more = 1 ∧ stageRoom c s = false then bump Reg.FAB_STAGE_DROP (drop x s)
      else
        let x := { x with payload := x.payload ++ part, cells := x.cells + 1 }
        let s := stageTake c more (setX (fun y => { y with v2 := y.v2.filter (fun z => z.src != phys) ++ [x] }) s)
        if bitAt h 62 then v2Whole phys x.payload (drop x s) else s

/-- A version 2 packet: its cells in order. -/
def v2Receive (p : Packet) (s : State) : State :=
  (upto (p.cells.length / 256)).foldl (fun s i => v2Cell (pkN0 p Pk.SRC) (subBytes p.cells (256 * i) 256) s) s

/-! ## Broadcast trees (R309 to R313) -/

/-- The device's state of tree `t`; its current parent starts as the parent of R271. -/
def treeSt (t : Nat) (s : State) : TreeSt :=
  (s.xport.trees.find? (fun x => x.tree == t)).getD
    ⟨t, 0, ((ownRank s).bind (fun r => treeParent t r s)).getD 0, 0, 0, false, 0, [], []⟩
/-- Store it. -/
def setTree (x : TreeSt) (s : State) : State :=
  if s.xport.trees.any (fun y => y.tree == x.tree) then
    setX (fun z => { z with trees := z.trees.map (fun y => if y.tree == x.tree then x else y) }) s
  else setX (fun z => { z with trees := z.trees ++ [x] }) s

/-- Send RESEND of E to the current parent. -/
def resendAsk (x : TreeSt) (s : State) : State := sendCtlRank x.parent 3 [x.tree * 2 ^ 56 + x.e * 2 ^ 16] s

/-- Deliver an accepted tree packet (R286, R287, R288) and forward it; a chunk for a RECV is forwarded when it lands. -/
def treeDeliver (p : Packet) (s : State) : State :=
  let t := pkN0 p Pk.DST
  let ctx := pkN0 p Pk.CTX
  let chan := pkT p 0 Pk.CHAN
  let chunk := pkT p 0 Pk.CHUNK
  let base := (pkT p 1 Pk.SEQ + seqMod - chunk) % seqMod
  match descFor 2 t ctx chan s with
  | none => treeForward p .none (if pkT p 0 Pk.FIRST = 1 then noDesc (treeRoot t s) ctx chan s else s)
  | some d =>
    let s := msgChunk d 2 t ctx chan base chunk (pkT p 1 Pk.NCHUNK) (pkT p 0 Pk.STEP) p.tile s
    if p.tile.isNone then treeForward p .none s
    else if xdLand d s then treeForward p (.ruril (xdBase d s + chunk)) s
    else s

/-- A CHUNK or EMPTY packet of a tree (R310). -/
def treeReceive (p : Packet) (s : State) : State :=
  let t := pkN0 p Pk.DST
  let x := treeSt t s
  let seq := pkT p 1 Pk.SEQ
  let ctx := pkN0 p Pk.CTX
  if seqLt seq x.e then bump Reg.FAB_DUP_DROP s
  else if seq ≠ x.e then
    if x.mode = 0 then resendAsk x (setTree { x with mode := 1, when := s.cycle } s) else s
  else
    let d := descFor 2 t ctx (pkT p 0 Pk.CHAN) s
    let room := match d with
      | some k => xdLand k s || p.tile.isNone || (recvFor 2 t ctx (pkT p 0 Pk.CHAN) s).isSome || stageRoom ctx s ||
          s.xport.msgs.any (fun m => m.kind == 2 && m.src == t && m.taker.isSome)
      | none => true
    if !room then bump Reg.FAB_STAGE_DROP s
    else
      let s := setTree { x with e := (x.e + 1) % seqMod, mode := 0, opened := pkT p 0 Pk.LAST == 0, when := s.cycle } s
      treeDeliver p (bump Reg.FAB_CHUNKS_RCVD s)

/-- The chunks of a tree that the cut list holds, from SEQ `n` on, in order. -/
def treeHeldFrom (t n : Nat) (s : State) : List CutRec :=
  let l := s.xport.cut.filter (fun r => r.tree && r.dst == t && !seqLt r.seq n)
  (l.foldl (fun (m : List (Nat × CutRec)) r =>
    (m.filter (fun y => seqLt y.1 r.seq)) ++ [(r.seq, r)] ++ (m.filter (fun y => !seqLt y.1 r.seq))) []).map (·.2)

/-- Send the retained chunks of a tree from SEQ `n` on to rank `c` again (R311); `ctr` counts each where it is given. -/
def treeResend (t n c : Nat) (ctr : Option Nat) (s : State) : State :=
  let pair := txPair true t 0 s
  (treeHeldFrom t n s).foldl (fun s r =>
    let pkt : Packet := ⟨treeHeader t r.ctx s, jobWord1 s, [r.t0, r.t1, r.t2, 0], [], none, []⟩
    let out := fun (x : Packet) (s : State) =>
      let s := match ctr with | some k => bump k s | none => s
      let t0 := setF Pk.REPLAY (pkTw x 0) 1
      treeCopy t c (sealed { x with t := t0 :: x.t.drop 1 }) s
    match r.src with
    | .none => if getF Pk.TTYPE r.t0 = 1 then out pkt s else replayLost pair r.seq r.ctx (markLost pair r.seq s)
    | _ =>
      match (if r.lost then none else srcTile r.src r.crc r.kept s) with
      | some x => out { pkt with tile := some x } (bookSrc r.src s)
      | none => replayLost pair r.seq r.ctx (markLost pair r.seq s)) s

/-- A RESEND from the device at a PHYS. -/
def resendReceive (p : Packet) (s : State) : State :=
  let w := pkC p 1
  match rankAt (pkN0 p Pk.SRC) s with
  | some c => treeResend (bitsOf w 63 56) (bitsOf w 47 16) c none s
  | none => s

/-- A report of a failed rank of a tree at ROOT: the first for each rank counts (R312). -/
def treeReport (t f : Nat) (s : State) : State :=
  let x := treeSt t s
  if x.reported.contains f then s
  else
    let s := setTree { x with reported := x.reported ++ [f] } s
    let s := wr Reg.FAB_TREE_FAILED (w64 (2 ^ 63 + t * 2 ^ 15 + f)) s
    log 0x080D kTree t none [rd Reg.FAB_TREE_FAILED s] (bump Reg.FAB_TREE_FAILS s)

/-- A REATTACH naming failed rank `f`: the sender is adopted, and ROOT hears of `f` once (R311, R312). -/
def reattachReceive (p : Packet) (s : State) : State :=
  let w := pkC p 1
  let t := bitsOf w 63 56
  let f := bitsOf w 55 41
  match rankAt (pkN0 p Pk.SRC) s with
  | none => s
  | some c =>
    let x := treeSt t s
    let first := !x.adopted.any (fun a => a.2 == f)
    let s := setTree { x with adopted := x.adopted.filter (fun a => a.1 != c) ++ [(c, f)] } s
    let s := treeResend t (pkC p 2 % 2 ^ 32) c none s
    if ownRank s = some (treeRoot t s) then treeReport t f s
    else if first then sendCtlRank (treeRoot t s) 5 [t * 2 ^ 56 + f * 2 ^ 41] s
    else s

/-- A TREE_FAIL; ROOT takes it. -/
def treeFailReceive (p : Packet) (s : State) : State :=
  let w := pkC p 1
  let t := bitsOf w 63 56
  if ownRank s = some (treeRoot t s) then treeReport t (bitsOf w 55 41) s else s

/-- T elapses for a tree (R310). -/
def treeTimeout (t : Nat) (s : State) : State :=
  let x := treeSt t s
  if x.mode = 0 ∧ x.opened = false then s
  else
    let s := advanceTo (x.when + usCycles (rdF Reg.FAB_XPORT_CFG Fld.FAB_XPORT_CFG_TREE_TIMEOUT_US s)) s
    let root := treeRoot t s
    let lost := fun (s : State) => log 0x080E kTree t none [w64 x.e] s
    let up := fun (f : Nat) (s : State) =>
      match treeParent t x.parent s with
      | some g =>
        let s := setTree { x with mode := 2, failed := f, parent := g, when := s.cycle } s
        sendCtlRank g 4 [t * 2 ^ 56 + f * 2 ^ 41, x.e] (bump Reg.FAB_TREE_REATTACH s)
      | none => lost (setTree { x with mode := 2, failed := f, when := s.cycle } s)
    if x.mode = 0 then resendAsk x (setTree { x with mode := 1, when := s.cycle } s)
    else if x.mode = 1 then up x.parent s
    else if x.parent = root then lost (setTree { x with when := s.cycle } s)
    else up x.failed s

/-! ## Takeover and teardown on the receiving side (R305, R313, R366) -/

/-- What becomes of the receiving side of rank `r` when its entry goes from FAILED to LIVE (R305, step 1). -/
def takeoverRx (r : Nat) (s : State) : State :=
  let part := s.xport.msgs.filter (fun m => (m.kind == 0 || m.kind == 4) && m.src == r &&
    (match m.taker with
      | some (b, q) => (match (seqOf b q s).blocked with | .recv x => !recvWhole x | _ => true)
      | none => decide (m.held.length < m.nchunk)))
  let s := part.foldl (fun s m =>
    match m.taker with
    | some (b, q) =>
      let mine := fun (x : FabXfer) => match x.use with | .recv b' q' _ _ _ => b' == b && q' == q | _ => false
      let s := (s.xport.xfers.filter mine).foldl (fun s x =>
        match x.use with | .recv _ _ _ _ (some c) => stageFree c 1 (dropFab x s) | _ => dropFab x s) s
      let s := match (seqOf b q s).blocked with
        | .recv x => setSeq b q { seqOf b q s with blocked := .recv { x with taken := false, nchunk := 0, landed := 0 } } s
        | _ => s
      dropMsg m s
    | none => dropMsg m s) s
  setX (fun x => { x with rx := x.rx.filter (fun p => p.src != r) }) s

/-- Trees when rank `f` is LIVE again: its parent replays to it, adopters release its children, and those go back to
it (R313). -/
def takeoverTrees (f : Nat) (s : State) : State :=
  let own := ownRank s
  let s := (s.xport.trees).foldl (fun s x =>
    let x' := { x with adopted := x.adopted.filter (fun a => a.2 != f), reported := x.reported.filter (· != f) }
    let back := match own with
      | some r => treeParent x.tree r s == some f && x.mode != 2 && x.parent != f || (x.mode == 2 && x.failed == f && treeParent x.tree r s == some f)
      | none => false
    setTree (if back then { x' with parent := f, mode := if x.mode = 2 then 0 else x.mode } else x') s) s
  (upto 256).foldl (fun s t =>
    if treeValid t s && (match own with | some r => treeParent t f s == some r | none => false) then
      treeResend t 0 f (some Reg.FAB_REPLAY_CHUNKS) s
    else s) s

/-- Every consequence of rank `r` going from FAILED to LIVE (R268, R305, R313). -/
def takeover (r : Nat) (s : State) : State :=
  let s := takeoverRx r (bump Reg.FAB_TAKEOVERS s)
  let s := (s.xport.tx.filter (fun p => !p.tree && p.dst == r)).foldl (fun s p => takeoverPair p s) s
  takeoverTrees r s

/-- Step 4 of R366 for context `c`. -/
def fabricTeardown (c : Nat) (s : State) : State :=
  let s := sendTeardown c s
  let mine := fun (x : FabXfer) => match x.use with
    | .send b q _ => ctxOf b q s == some c
    | .recv b q _ _ _ => ctxOf b q s == some c
    | _ => false
  let s := setX (fun x => { x with xfers := x.xfers.filter (fun y => !mine y), msgs := x.msgs.filter (fun m => m.ctx != c) }) s
  let s := s.benches.foldl (fun s p => (upto 2).foldl (fun s q =>
    if ctxOf p.1 q s == some c then let sd := sideOf p.1 q s; setSide p.1 q { sd with sends := [] } s else s) s) s
  { s with pool := { s.pool with stage := smPut (fun _ => 0) s.pool.stage c 0 } }

/-- The transport with no state of a job (R277, R304). -/
def xportClear (s : State) : State := setCut [] { s with xport := Xport.empty, pool := { s.pool with stage := [] } }

/-- A message of a SEND has been acknowledged whole: the SEND completes (R285). -/
def sendAcked (b q po : Nat) (s : State) : State := sendGone b q po s

end Sys2Proof.Machine
end

