-- ==== Sys2Proof/Machine/Collectives.lean ====
section
/-!
DEFINITION. The collective engine (spec/11_collectives.md): starts, slots, the data flow of every primitive, the
reduction order, errors and aborts.
-/
namespace Sys2Proof.Machine

/-! ## Descriptors and runs (R321 to R324) -/

/-- A collective descriptor as its words 0 to 4. -/
def colWords (d : Nat) (s : State) : List Word := (upto 5).map (fun w => tb (Tab.DESC (d * 8 + w)) s)
/-- A field of word `w` of a descriptor. -/
def cdF (ws : List Word) (w : Nat) (f : Fld) : Nat := getF f (ws.getD w 0)
/-- PRIM. -/
def cdPrim (ws : List Word) : Nat := cdF ws 0 Fld.DESC0_PRIM
/-- COUNT. -/
def cdCount (ws : List Word) : Nat := cdF ws 1 Fld.DESC1_COUNT
/-- GROUP. -/
def cdGroup (ws : List Word) : Nat := cdF ws 0 Fld.DESC0_GROUP
/-- Whether a primitive reduces. -/
def isReduce (p : Nat) : Bool := p == 2 || p == 3 || p == 4
/-- Division that rounds up, 0 for a divisor of 0. -/
def upDiv (a b : Nat) : Nat := if b = 0 then 0 else (a + b - 1) / b
/-- P: partial tiles of a reduction (R323). -/
def cdP (ws : List Word) : Nat := upDiv (cdCount ws) 1024

/-- Where tile `i` of a run lies: a run is word 2 or word 3 of a descriptor (R323). -/
inductive Place where
  | bench (b t : Nat)
  | ruril (t : Nat)
  deriving DecidableEq, Repr

/-- The place of tile `i` of the run in word `w`. -/
def runPlace (w : Word) (i : Nat) : Place :=
  if bitF Fld.DESC2_SKIND w then .ruril (getF Fld.DESC2_SRBASE w + i)
  else
    let n := getF Fld.DESC2_SBCOUNT w
    .bench (getF Fld.DESC2_SBFIRST w + i % n) (getF Fld.DESC2_STILE w + i / n)

/-- Whether a run of `n` tiles lies within the tiles, each of its benches having a system slot (R326). -/
def runOk (w : Word) (n : Nat) (s : State) : Bool :=
  if n = 0 then true
  else if bitF Fld.DESC2_SKIND w then decide (getF Fld.DESC2_SRBASE w + n - 1 ≤ rtnMax)
  else
    let k := getF Fld.DESC2_SBCOUNT w
    k != 0 && decide (getF Fld.DESC2_STILE w + (n - 1) / k < 384) && (upto (min k n)).all (fun j =>
      decide (getF Fld.DESC2_SBFIRST w + j < 1176) && sysMask (getF Fld.DESC2_SBFIRST w + j) s != 0)

/-! ## Segments and the reduction tree (R319) -/

/-- Split ranks in ascending order into maximal runs that share a logical tray. -/
def segsOf : List Nat → List (List Nat)
  | [] => []
  | r :: rs =>
    match segsOf rs with
    | (x :: xs) :: rest => if x / 8 = r / 8 then (r :: x :: xs) :: rest else [r] :: (x :: xs) :: rest
    | l => [r] :: l

/-- Levels above level 0 for `m` segments. -/
def treeTop (m : Nat) : Nat := if m ≤ 1 then 0 else if m ≤ 8 then 1 else if m ≤ 64 then 2 else if m ≤ 512 then 3 else 4

/-- What a member is in its group: members, own rank, segments, own segment, levels, whether it leads its segment, and
its own highest node level. -/
structure Role where
  ranks : List Nat
  me : Nat
  segs : List (List Nat)
  k : Nat
  top : Nat
  lead : Bool
  lvl : Nat
  deriving DecidableEq, Repr

/-- The role of rank `me` among `ranks`. -/
def roleOf (ranks : List Nat) (me : Nat) : Role :=
  let segs := segsOf ranks
  let k := (segs.findIdx? (fun l => l.contains me)).getD 0
  let top := treeTop segs.length
  let lead := (segs.getD k []).head? == some me
  let lvl := ((upto (top + 1)).filter (fun l => k % 8 ^ l == 0)).foldl max 0
  ⟨ranks, me, segs, k, top, lead, lvl⟩

/-- The leader of segment `j`. -/
def Role.leader (r : Role) (j : Nat) : Nat := (r.segs.getD j []).headD 0
/-- Whether the member is the tree root. -/
def Role.root (r : Role) : Bool := r.lead && r.k == 0
/-- The rank of the tree root. -/
def Role.rootRank (r : Role) : Nat := r.leader 0
/-- The other members of the own segment. -/
def Role.mates (r : Role) : List Nat := (r.segs.getD r.k []).filter (· != r.me)
/-- Position of a rank. -/
def Role.pos (r : Role) (x : Nat) : Nat := (r.ranks.findIdx? (· == x)).getD 0
/-- Own position. -/
def Role.p (r : Role) : Nat := r.pos r.me
/-- The nodes of level `l - 1` that the own node of level `l` covers, but for the one on the own leader: each node as its
leader and the segments under it. -/
def Role.covered (r : Role) (l : Nat) : List (Nat × List Nat) :=
  let w := 8 ^ (l - 1)
  let j := r.k / w
  ((upto 7).map (fun i => (j + 1 + i) * w)).filterMap (fun seg =>
    if seg < r.segs.length then some (r.leader seg, (upto w).map (seg + ·)) else none)
/-- The rank to which the own partial goes. -/
def Role.parent (r : Role) : Option Nat :=
  if !r.lead then some (r.leader r.k)
  else if r.lvl < r.top then some (r.leader (r.k / 8 ^ (r.lvl + 1) * 8 ^ (r.lvl + 1)))
  else none
/-- Positions of the members of some segments. -/
def Role.under (r : Role) (segs : List Nat) : List Nat := ((segs.map (fun j => r.segs.getD j [])).flatten).map r.pos
/-- The ranks to which a result goes down the tree, in sending order, with the positions under each (R337). -/
def Role.down (r : Role) : List (Nat × List Nat) :=
  if !r.lead then []
  else ((upto r.lvl).reverse.map (fun l => (r.covered (l + 1)).map (fun c => (c.1, r.under c.2)))).flatten ++
    r.mates.map (fun m => (m, [r.pos m]))
/-- The positions whose parts come to this member in a REDUCE_SCATTER. -/
def Role.mine (r : Role) : List Nat :=
  if !r.lead then [r.p] else r.under ((upto (8 ^ r.lvl)).map (r.k + ·))

/-! ## Tiles of reductions (R334, R339 to R341) -/

/-- SIG (R334). -/
def sigOf (ws : List Word) (stage : Nat) : Nat :=
  cdPrim ws * 2 ^ 20 + cdF ws 0 Fld.DESC0_OP * 2 ^ 18 + stage * 2 ^ 16 + cdF ws 0 Fld.DESC0_OFMT * 2 ^ 8
/-- A tile that the engine forms. -/
def engineTile (fmt flags sig : Nat) (payload : List Byte) : Tile :=
  ⟨mkTag (crc32c payload) fmt flags 0 0 (sig * 2 ^ 40), payload⟩
/-- FLAGS of a tile. -/
def flagsOf (x : Tile) : Nat := tagF Fld.TAG_FLAGS x.tag
/-- The FP32 tile of 1,024 values. -/
def f32Bytes (vs : List FVal) : List Byte := subBytes ((vs.map (fun v => leBytes 4 (toF32 v))).flatten) 0 4096
/-- The values of an FP32 tile. -/
def f32Vals (x : Tile) : List FVal := (groupLe 4 1024 x.payload).map f32

/-- Every element of the contribution in source order (R60, R339). -/
def sourceVals (ws : List Word) (src : List Tile) : List FVal :=
  let fmt := cdF ws 0 Fld.DESC0_IFMT
  ((src.map (fun x => fitVals (fmtCapacity fmt) (tileVals fmt x []))).flatten).take (cdCount ws)

/-- The flags of the source tiles that partial tile `k` covers. -/
def coverFlags (cap : Nat) (src : List Tile) (lo hi : Nat) : Nat :=
  orAll ((src.zipIdx).filterMap (fun x => if x.2 * cap < hi && lo < (x.2 + 1) * cap then some (flagsOf x.1) else none))

/-- The P partial tiles of the own contribution. -/
def ownPartial (ws : List Word) (dov : Nat) (src : List Tile) : List Tile :=
  if dov ≠ 0 then src
  else
    let vs := sourceVals ws src
    let cap := fmtCapacity (cdF ws 0 Fld.DESC0_IFMT)
    (upto (cdP ws)).map (fun k =>
      engineTile fmtFP32 (coverFlags cap src (1024 * k) (min (1024 * k + 1024) (cdCount ws))) (sigOf ws 0)
        (f32Bytes (fitVals 1024 ((vs.drop (1024 * k)).take 1024))))

/-- `op` of two values with the flags raised (R339). -/
def colOp (op : Nat) (a b : FVal) : FVal × Nat :=
  if op = 0 then addStep a b else if op = 1 then (maxF a b, 0) else (minF a b, 0)

/-- Combine two partial tiles; a Dovetail's all-reduce adds 512 unsigned 64-bit integers (R341). -/
def combine (ws : List Word) (dov : Nat) (a b : Tile) : Tile :=
  if dov ≠ 0 then
    let sumv := List.zipWith (fun x y => leBytes 8 ((x + y) % 2 ^ 64)) (groupLe 8 512 a.payload) (groupLe 8 512 b.payload)
    engineTile fmtFP32 (flagsOf a ||| flagsOf b) (sigOf ws 0) sumv.flatten
  else
    let rs := List.zipWith (colOp (cdF ws 0 Fld.DESC0_OP)) (f32Vals a) (f32Vals b)
    engineTile fmtFP32 (flagsOf a ||| flagsOf b ||| orAll (rs.map (·.2))) (sigOf ws 0) (f32Bytes (rs.map (·.1)))

/-- Combine lists of partial tiles in order. -/
def combineAll (ws : List Word) (dov : Nat) (first : List Tile) (rest : List (List Tile)) : List Tile :=
  rest.foldl (fun acc l => List.zipWith (combine ws dov) acc l) first

/-- C of R322 for `n` members. -/
def partLen (ws : List Word) (n : Nat) : Nat := upDiv (cdCount ws) n
/-- First element and number of elements of position `q`'s part. -/
def partOf (ws : List Word) (n q : Nat) : Nat × Nat :=
  let c := partLen ws n
  (q * c, min (q * c + c) (cdCount ws) - q * c)
/-- Tiles of a run of `n` result elements. -/
def resultTiles (ws : List Word) (n : Nat) : Nat := upDiv n (fmtCapacity (cdF ws 0 Fld.DESC0_OFMT))
/-- The result runs: all elements, or each position's part. -/
def resultRuns (ws : List Word) (n : Nat) (ps : List Nat) : List (Nat × Nat) :=
  if cdPrim ws = 4 then ps.map (partOf ws n) else [(0, cdCount ws)]
/-- Tiles of the result for some positions. -/
def resultCount (ws : List Word) (n : Nat) (ps : List Nat) : Nat :=
  sum ((resultRuns ws n ps).map (fun r => resultTiles ws r.2))

/-- The result tiles of a tree root from its last partial, with the elements flushed (R69, R339, R340). -/
def encodeResult (ws : List Word) (n : Nat) (ps : List Nat) (part : List Tile) : List Tile × Nat :=
  let fmt := cdF ws 0 Fld.DESC0_OFMT
  let cap := fmtCapacity fmt
  let vs := (part.map f32Vals).flatten
  let ts := ((resultRuns ws n ps).map (fun r => (upto (upDiv r.2 cap)).map (fun k =>
    let lo := r.1 + k * cap
    let len := min cap (r.2 - k * cap)
    let e := encodeTile fmt 0 [] ((vs.drop lo).take len)
    (engineTile fmt (coverFlags 1024 part lo (lo + len) ||| e.flags) (sigOf ws 1) e.payload, e.flushed)))).flatten
  (ts.map (·.1), sum (ts.map (·.2)))

/-! ## The engine's records -/

/-- Change the engine's state. -/
def setC (f : ColSt → ColSt) (s : State) : State := { s with col := f s.col }
/-- Whether an instance is the one named. -/
def ColInst.is (i : ColInst) (g gseq : Nat) : Bool := i.g == g && i.gseq == gseq
/-- Store an open instance. -/
def setInst (i : ColInst) (s : State) : State :=
  setC (fun c => { c with insts := c.insts.map (fun x => if x.is i.g i.gseq then i else x) }) s
/-- Slots that are open. -/
def colUsed (s : State) : Nat := s.col.insts.length
/-- Whether context `c` has a free slot of its share. -/
def colRoom (c : Nat) (s : State) : Bool := decide (colSlots c s < rdF (Reg.CTX_FABRIC c) Fld.CTX_FABRIC_COLSLOTS s)

/-- Whether a booked transfer belongs to an instance. -/
def FabXfer.ofCol (x : FabXfer) (g gseq : Nat) : Bool :=
  match x.use with
  | .colRead g' q _ => g' == g && q == gseq
  | .colWrite g' q _ _ => g' == g && q == gseq
  | _ => false

/-- Free an instance's slot and what it holds. -/
def freeInst (i : ColInst) (s : State) : State :=
  let s := stageFree i.ctx (sum (i.msgs.map (·.charged))) s
  let s := setX (fun x => { x with xfers := x.xfers.filter (fun y => !y.ofCol i.g i.gseq) }) s
  let s := setC (fun c => { c with insts := c.insts.filter (fun x => !x.is i.g i.gseq) }) s
  setC (fun c => { c with refused := smPut (fun _ => 0) c.refused i.ctx 0 }) s

/-- Send ABORT to every other member of a group in ascending rank (R345, R346). -/
def sendAborts (g gseq : Nat) (s : State) : State :=
  let me := (ownRank s).getD 0
  ((groupRanks g s).filter (· != me)).foldl (fun s r =>
    sendCtlRank r 6 [g * 2 ^ 48 + gseq * 2 ^ 16 + me, jobEpoch s * 2 ^ 32 + jobKey s] (bump Reg.COL_ABORTS s)) s

/-- An instance ends in error (R345): `cause` of R349 with its second detail word; ABORTs go out unless the cause is
ABORTED and no teardown makes it. A program or software start faults the context, a Dovetail start its all-reduce. -/
def colFail (g gseq ctx : Nat) (started : Bool) (dov cause d1 : Nat) (aborts : Bool) (s : State) : State :=
  let s := bump Reg.COL_ERRORS s
  let s := if cause = 1 then log 0x0901 kContext ctx (some ctx) [w64 (colUsed s)] s
    else log (0x0900 + cause) kGroup g (some ctx) ([w64 gseq] ++ (if cause = 5 then [] else [w64 d1])) s
  let s := match colOpen g gseq s with | some i => freeInst i s | none => s
  let s := if aborts && groupValid g s then sendAborts g gseq s else s
  if dov ≠ 0 then defer (.colError dov (0x0900 + cause)) s
  else if started then ctxFault ctx (0x0900 + cause) s else s

/-- An open instance ends in error. -/
def instFail (i : ColInst) (cause d1 : Nat) (aborts : Bool) (s : State) : State :=
  colFail i.g i.gseq i.ctx (!i.words.isEmpty) i.dov cause d1 aborts s

/-! ## What each member expects and sends (R337, R338) -/

/-- The role of the device in an instance's group. -/
def instRole (i : ColInst) (s : State) : Role := roleOf (groupRanks i.g s) ((ownRank s).getD 0)

/-- The ranks whose partials the member combines, by level (level 0 first). -/
def upSenders (r : Role) : List (List Nat) :=
  if !r.lead then [] else r.mates :: (upto r.lvl).map (fun l => (r.covered (l + 1)).map (·.1))

/-- The rank from which the result or the broadcast comes, where the member receives one. -/
def downSender (ws : List Word) (r : Role) : Option Nat :=
  let p := cdPrim ws
  let root := cdF ws 0 Fld.DESC0_ROOT
  if p = 0 ∨ p = 3 ∨ p = 4 ∨ (p = 1 ∧ r.root = false) then r.parent
  else if p = 1 then (if root = r.me then none else some root)
  else if p = 2 ∧ root = r.me ∧ r.root = false then some r.rootRank
  else none

/-- Every rank from which a message is expected, with its tile count and, for a reduction, its stage (R335). -/
def expected (ws : List Word) (r : Role) : List (Nat × Nat × Option Nat) :=
  let p := cdPrim ws
  let n := r.ranks.length
  let red := isReduce p
  if p = 5 ∨ p = 6 then (r.ranks.filter (· != r.me)).map (fun x => (x, cdCount ws, none))
  else
    (if p = 1 then [] else (upSenders r).flatten.map (fun x => (x, (if red then cdP ws else 0), (if red then some 0 else none)))) ++
      (match downSender ws r with
        | some x => [(x, (if red then resultCount ws n r.mine else if p = 1 then cdCount ws else 0), (if red then some 1 else none))]
        | none => [])

/-- The message from a rank. -/
def ColInst.msg (i : ColInst) (src : Nat) : Option ColMsg := i.msgs.find? (fun m => m.src == src)
/-- Whether a message is whole. -/
def ColMsg.whole (m : ColMsg) : Bool := decide (m.tiles.length ≥ m.nchunk)
/-- Whether the message from a rank is held whole. -/
def ColInst.has (i : ColInst) (src : Nat) : Bool := match i.msg src with | some m => m.whole | none => false
/-- The tiles of the message from a rank, in order. -/
def ColInst.tilesFrom (i : ColInst) (src : Nat) : List Tile :=
  match i.msg src with
  | some m => (upto m.nchunk).filterMap (fun k => (m.tiles.find? (fun t => t.1 == k)).map (·.2))
  | none => []

/-- The first message that fails the checks of R335, as its sender. -/
def mismatch (i : ColInst) (r : Role) : Option Nat :=
  let ex := expected i.words r
  (i.msgs.find? (fun m =>
    match ex.find? (fun e => e.1 == m.src) with
    | none => true
    | some e => m.nchunk != e.2.1 || (match e.2.2 with
      | some stage => m.tiles.any (fun t => tagF Fld.TAG_ORIGIN t.2.tag != sigOf i.words stage * 2 ^ 40)
      | none => false))).map (·.src)

/-- Tiles of the source of a member, and of its destination (R322). -/
def srcTiles (ws : List Word) (r : Role) : Nat :=
  let p := cdPrim ws
  if isReduce p then upDiv (cdCount ws) (fmtCapacity (cdF ws 0 Fld.DESC0_IFMT))
  else if p = 1 then (if cdF ws 0 Fld.DESC0_ROOT = r.me then cdCount ws else 0)
  else if p = 5 then cdCount ws
  else if p = 6 then r.ranks.length * cdCount ws
  else 0
/-- Tiles of a member's destination. -/
def dstTiles (ws : List Word) (r : Role) : Nat :=
  let p := cdPrim ws
  let root := cdF ws 0 Fld.DESC0_ROOT
  if p = 3 then resultTiles ws (cdCount ws)
  else if p = 4 then resultTiles ws (partOf ws r.ranks.length r.p).2
  else if p = 2 then (if root = r.me then resultTiles ws (cdCount ws) else 0)
  else if p = 1 then (if root = r.me then 0 else cdCount ws)
  else if p = 5 ∨ p = 6 then r.ranks.length * cdCount ws
  else 0

/-! ## Starting (R325 to R327, R329, R331) -/

/-- Whether a start passes the checks of R326; a Dovetail start has no runs of its own. -/
def startOk (ws : List Word) (dov : Nat) (program : Bool) (s : State) : Bool :=
  let g := cdGroup ws
  let ctx := cdF ws 0 Fld.DESC0_CTX
  let p := cdPrim ws
  let fmtOk := fun f => [0x01, 0x02, 0x03, 0x04, 0x05, 0x0C, 0x0D].contains f
  match ownRank s with
  | none => false
  | some me =>
    bitF Fld.DESC0_VALID (ws.getD 0 0) && groupValid g s && groupCtx g s == ctx && (groupPos g me s).isSome && p != 7 &&
      (dov != 0 ||
        (let r := roleOf (groupRanks g s) me
        ((p != 1 && p != 2) || (groupPos g (cdF ws 0 Fld.DESC0_ROOT) s).isSome) &&
        (!isReduce p || (fmtOk (cdF ws 0 Fld.DESC0_IFMT) && fmtOk (cdF ws 0 Fld.DESC0_OFMT) && cdF ws 0 Fld.DESC0_OP != 3 &&
          decide (cdF ws 4 Fld.DESC4_WBASE + 6 * cdP ws ≤ rtnMax + 1))) &&
        runOk (ws.getD 2 0) (srcTiles ws r) s && runOk (ws.getD 3 0) (dstTiles ws r) s &&
        (!program || semOwner (cdF ws 1 Fld.DESC1_TSEM) s == ctx)))

/-- Check one source tile read from Ruril: it is good, or not (R338). -/
def rurilUse (t : Nat) (s : State) : Bool × State :=
  let (ok, s) := rurilRead t ⟨0, []⟩ s
  let x := rurilTile t s
  (ok && tagF Fld.TAG_CRC x.tag == crc32c x.payload && fmtDefined (tagF Fld.TAG_FORMAT x.tag), s)

/-- Read `n` source tiles of a Ruril run from tile `i` on: the tiles, or the index of the first that fails. -/
def readRuril (w : Word) : Nat → Nat → List Tile → State → Option Nat × List Tile × State
  | 0, _, acc, s => (none, acc, s)
  | n + 1, i, acc, s =>
    match runPlace w i with
    | .bench _ _ => (none, acc, s)
    | .ruril t =>
      match rurilUse t s with
      | (true, s) => readRuril w n (i + 1) (acc ++ [rurilTile t s]) s
      | (false, s) => (some i, acc, s)

/-- Book the read of source tile `i` of an instance. -/
def bookColRead (i : ColInst) (k : Nat) (s : State) : State :=
  match runPlace (i.words.getD 2 0) k with
  | .bench b t =>
    let (due, s) := bookPort b false s
    setX (fun x => { x with xfers := x.xfers ++ [⟨b, t, due, .colRead i.g i.gseq k⟩] }) s
  | .ruril _ => s

/-- The local start of an open instance: staged chunks leave staging, and the source is read. -/
def instStart (i : ColInst) (s : State) : State :=
  let s := stageFree i.ctx (sum (i.msgs.map (·.charged))) s
  let i := { i with msgs := i.msgs.map (fun m => { m with charged := 0 }) }
  let n := if i.dov ≠ 0 then 0 else srcTiles i.words (instRole i s)
  if n = 0 then setInst { i with srcDone := true } s
  else if bitF Fld.DESC2_SKIND (i.words.getD 2 0) then
    match readRuril (i.words.getD 2 0) n 0 [] s with
    | (none, ts, s) => setInst { i with src := ts, srcDone := true } s
    | (some k, _, s) => instFail i 4 k true (setInst i s)
  else bookColRead i 0 (setInst i s)

/-- Give a start its slot: the one that an arrival opened, or a new one. -/
def grantSlot (w : ColWait) (s : State) : State :=
  match colOpen w.g w.gseq s with
  | some i => instStart { i with words := w.words, desc := w.desc, dov := w.dov, src := w.src } s
  | none =>
    let i : ColInst := ⟨w.g, w.gseq, w.ctx, s.cycle, w.words, w.desc, w.dov, w.src, false, [], 0, [], none, [], 0, none, 0⟩
    instStart i (setC (fun c => { c with insts := c.insts ++ [i] }) s)

/-- One start (R326, R327): it takes its GSEQ, is checked, and opens its slot or waits for one. -/
def colStartWith (ws : List Word) (desc dov : Nat) (src : List Tile) (program : Bool) (s : State) : State :=
  let g := cdGroup ws
  let ctx := cdF ws 0 Fld.DESC0_CTX
  let e := tb (Tab.GSEQ g) s
  let gseq := getF Fld.COL_GSEQ_DATA_NEXT e
  let s := tbWF (Tab.GSEQ g) Fld.COL_GSEQ_DATA_NEXT (gseq + 1) s
  let s := bump Reg.COL_STARTED s
  if !startOk ws dov program s then colFail g gseq ctx true dov 3 desc true s
  else if bitF Fld.COL_GSEQ_DATA_ABORTED e && decide (getF Fld.COL_GSEQ_DATA_ABORT_FROM e ≤ gseq % 2 ^ 31) then
    colFail g gseq ctx true dov 6 (smGet (fun _ => 0) s.col.abortRank g) false s
  else
    let w : ColWait := ⟨g, gseq, ctx, s.cycle, ws, desc, dov, src⟩
    if (colOpen g gseq s).isSome || colRoom ctx s then grantSlot w s
    else setC (fun c => { c with waits := c.waits ++ [w] }) s

/-- A software start or a program start of descriptor `d`: a context that is not RUNNING starts nothing (R351). -/
def colStartDesc (d : Nat) (program : Bool) (s : State) : State :=
  let ws := colWords d s
  if ctxState (cdF ws 0 Fld.DESC0_CTX) s ≠ 1 then s else colStartWith ws d 0 [] program s

/-- A Dovetail start of an all-reduce over the tiles given (R325, R341). -/
def colStartDov (code g ctx : Nat) (tiles : List Tile) (s : State) : State :=
  let w0 := 2 ^ 63 + ctx % 16 * 2 ^ 59 + 3 * 2 ^ 56 + 2 ^ 46 + 2 ^ 38 + g % 2 ^ 10 * 2 ^ 28
  let ws := [w64 w0, w64 (tiles.length * 1024 * 2 ^ 32), 0, 0, 0]
  let tiles := tiles.map (fun x => engineTile fmtFP32 0 (sigOf ws 0) x.payload)
  colStartWith ws 0 code tiles false s

/-- The descriptors that a semaphore trigger starts now, ascending (R325). -/
def colTriggered (s : State) : List Nat :=
  ((tabKeys (Tab.DESC 0) (Tab.DESC 8192) s).map (· - Tab.DESC 0)).filterMap (fun k =>
    if k % 8 ≠ 0 then none
    else
      let ws := colWords (k / 8) s
      let n := cdF ws 1 Fld.DESC1_TNUM
      if bitF Fld.DESC0_VALID (ws.getD 0 0) && n != 0 && ctxState (cdF ws 0 Fld.DESC0_CTX) s == 1 &&
        decide (n ≤ semValue (cdF ws 1 Fld.DESC1_TSEM) s) then some (k / 8) else none)

/-- The semaphore triggers of one cycle: each descriptor at most once; what still triggers does so in the next. -/
def colTriggers (s : State) : State :=
  let l := colTriggered s
  if l.isEmpty then s
  else
    let s := l.foldl (fun s d =>
      if (colTriggered s).contains d then
        let ws := colWords d s
        let n := cdF ws 1 Fld.DESC1_TSEM
        colStartDesc d true (tbWF (Tab.SEM n) Fld.SEM_VALUE (semValue n s - cdF ws 1 Fld.DESC1_TNUM) s)
      else s) s
    if (colTriggered s).isEmpty then s else defer .colCheck (advanceTo (s.cycle + 1) s)

/-! ## Arrivals (R329 to R332, R335, R336) -/

/-- A chunk, or an EMPTY packet, of a collective message that the receiver has accepted. -/
def colArrive (src ctx g gseq chunk : Nat) (p : Packet) (s : State) : State :=
  if colBad g ctx src s then
    let s := bump Reg.COL_BAD_ARRIVAL s
    if s.xport.badArrSeen.contains ctx then s
    else log 0x0907 kGroup g (some ctx) [w64 src] (setX (fun x => { x with badArrSeen := x.badArrSeen ++ [ctx] }) s)
  else
    match colOpen g gseq s, colPast g gseq s with
    | none, true => if chunk = 0 then bump Reg.COL_DUP_MSG s else s
    | o, _ =>
      let s := match o with
        | some _ => s
        | none => bump Reg.COL_OPEN_BY_ARRIVAL (setC (fun c =>
            { c with insts := c.insts ++ [⟨g, gseq, ctx, s.cycle, [], 0, 0, [], false, [], 0, [], none, [], 0, none, 0⟩] }) s)
      match colOpen g gseq s with
      | none => s
      | some i =>
        if i.has src then (if chunk = 0 then bump Reg.COL_DUP_MSG s else s)
        else
          let m := (i.msg src).getD ⟨src, pkT p 1 Pk.NCHUNK, [], 0⟩
          let fresh := p.tile.isSome && !m.tiles.any (fun t => t.1 == chunk)
          let charge := fresh && i.words.isEmpty
          let m' := { m with
            tiles := if fresh then m.tiles ++ p.tile.toList.map (fun t => (chunk, t)) else m.tiles
            charged := m.charged + b2n charge }
          let s := if charge then stageTake ctx 1 s else s
          setInst { i with msgs := i.msgs.filter (fun x => x.src != src) ++ [m'] } s

/-! ## Progress -/

/-- Keep partial or result tiles in the work region (R337); the Dovetail's all-reduces have none. -/
def keepWork (i : ColInst) (k : Nat) (ts : List Tile) (s : State) : State :=
  if i.dov ≠ 0 then s
  else (ts.zipIdx).foldl (fun s x => setRurilTile (cdF i.words 4 Fld.DESC4_WBASE + k + x.2) x.1 s) s

/-- Where tile `k` of the work region's run at offset `off` is recorded as a source. -/
def workRef (i : ColInst) (off k : Nat) : SrcRef :=
  if i.dov ≠ 0 then .dovetail i.dov k else .ruril (cdF i.words 4 Fld.DESC4_WBASE + off + k)

/-- Where a source tile is recorded. -/
def placeRef : Place → SrcRef
  | .bench b t => .bench b t
  | .ruril t => .ruril t

/-- Send one message of an instance. -/
def colSend (i : ColInst) (dst : Nat) (tiles : List (Tile × SrcRef)) (s : State) : State :=
  let s := setInst { i with sent := i.sent ++ [dst], unacked := i.unacked + 1 } s
  msgSend dst false i.ctx 0xFFFF (w64 (i.g * 2 ^ 48 + i.gseq * 2 ^ 16)) tiles (.col i.g i.gseq) s

/-- Write one destination tile: booked for a bench, at once for Ruril; a result tile keeps the ORIGIN of the tile it
overwrites (R334). -/
def colWriteTile (i : ColInst) (k : Nat) (x : Tile) (s : State) : State :=
  match runPlace (i.words.getD 3 0) k with
  | .bench b t =>
    let (due, s) := bookPort b true s
    setX (fun y => { y with xfers := y.xfers ++ [⟨b, t, due, .colWrite i.g i.gseq k x⟩] }) s
  | .ruril t =>
    let old := tagF Fld.TAG_ORIGIN (rurilTile t s).tag
    let x := if isReduce (cdPrim i.words) then
        { x with tag := mkTag (tagF Fld.TAG_CRC x.tag) (tagF Fld.TAG_FORMAT x.tag) (tagF Fld.TAG_FLAGS x.tag) (tagF Fld.TAG_SIDE x.tag) (tagF Fld.TAG_CBDIST x.tag) old }
      else x
    setRurilTile t x s

/-- Begin the destination writes of an instance. -/
def colWriteAll (i : ColInst) (l : List (Nat × Tile)) (s : State) : State :=
  let bench := l.filter (fun x => match runPlace (i.words.getD 3 0) x.1 with | .bench _ _ => true | _ => false)
  let s := setInst { i with writes := some bench.length, flags := if isReduce (cdPrim i.words) then orAll (l.map (fun x => flagsOf x.2)) else 0 } s
  l.foldl (fun s x => colWriteTile i x.1 x.2 s) s

/-- Form the partial of the next level, where everything for it is there. -/
def stepUp (i : ColInst) (r : Role) (s : State) : Option State :=
  let ups := upSenders r
  if !i.srcDone then none
  else if !r.lead then
    (if i.levels ≠ 0 then none
    else
      let part := ownPartial i.words i.dov i.src
      some (setInst { i with levels := 1, part := part } (keepWork i 0 part s)))
  else if i.levels > r.lvl then none
  else
    let from' := ups.getD i.levels []
    if !from'.all i.has then none
    else
      let first := if i.levels = 0 then ownPartial i.words i.dov i.src else i.part
      let part := combineAll i.words i.dov first (from'.map i.tilesFrom)
      some (setInst { i with levels := i.levels + 1, part := part } (keepWork i (i.levels * cdP i.words) part s))

/-- Send the own partial to the parent. -/
def stepSendUp (i : ColInst) (r : Role) (s : State) : Option State :=
  match r.parent with
  | none => none
  | some d =>
    let ready := if r.lead then i.levels == r.lvl + 1 else i.levels == 1
    if !ready || i.sent.contains d then none
    else
      let off := if r.lead then r.lvl * cdP i.words else 0
      some (colSend i d ((i.part.zipIdx).map (fun x => (x.1, workRef i off x.2))) s)

/-- The result: encoded on the tree root, received elsewhere. -/
def stepResult (i : ColInst) (r : Role) (s : State) : Option State :=
  if i.result.isSome then none
  else if r.root then
    (if i.levels ≠ r.top + 1 then none
    else if i.dov ≠ 0 then some (setInst { i with result := some i.part } s)
    else
      let e := encodeResult i.words r.ranks.length r.mine i.part
      let s := if e.2 = 0 then s else bumpBy e.2 (Reg.CTX_UNDERFLOW_FLUSH i.ctx) s
      some (setInst { i with result := some e.1 } (keepWork i (5 * cdP i.words) e.1 s)))
  else
    match downSender i.words r with
    | none => none
    | some x =>
      if !i.has x then none
      else
        let ts := i.tilesFrom x
        some (setInst { i with result := some ts } (if r.lead && cdPrim i.words != 2 then keepWork i (5 * cdP i.words) ts s else s))

/-- Tiles `a` to `a + n - 1` of the result for some positions, in a REDUCE_SCATTER; the whole result otherwise. -/
def partTiles (i : ColInst) (r : Role) (ps : List Nat) (ts : List Tile) : List (Nat × Tile) :=
  let all := (ts.zipIdx).map (fun x => (x.2, x.1))
  if cdPrim i.words ≠ 4 then all
  else
    let n := r.ranks.length
    let size := fun q => resultTiles i.words (partOf i.words n q).2
    let starts := r.mine.foldl (fun (a : Nat × List (Nat × Nat)) q => (a.1 + size q, a.2 ++ [(q, a.1)])) (0, [])
    (ps.map (fun q =>
      match starts.2.find? (fun x => x.1 == q) with
      | some x => (all.drop x.2).take (size q)
      | none => [])).flatten

/-- Send the result on to the next rank that is due one. -/
def stepDown (i : ColInst) (r : Role) (s : State) : Option State :=
  match i.result with
  | none => none
  | some ts =>
    let targets := if cdPrim i.words = 2 then
        (let root := cdF i.words 0 Fld.DESC0_ROOT
        if r.root && root != r.me then [(root, [])] else [])
      else r.down
    match targets.find? (fun d => !i.sent.contains d.1) with
    | none => none
    | some d =>
      let ref := fun (k : Nat) =>
        if cdPrim i.words = 1 then
          (if cdF i.words 0 Fld.DESC0_ROOT = r.me then placeRef (runPlace (i.words.getD 2 0) k) else placeRef (runPlace (i.words.getD 3 0) k))
        else workRef i (5 * cdP i.words) k
      some (colSend i d.1 ((partTiles i r d.2 ts).map (fun x => (x.2, ref x.1))) s)

/-- Begin the destination writes, where everything for them is there. -/
def stepWrite (i : ColInst) (r : Role) (s : State) : Option State :=
  let p := cdPrim i.words
  if i.writes.isSome then none
  else if i.dov ≠ 0 ∨ dstTiles i.words r = 0 then
    (if (p = 0 ∨ p = 3 ∨ p = 4 ∨ p = 1) ∧ i.result.isNone = true then none else some (setInst { i with writes := some 0 } s))
  else if p = 5 ∨ p = 6 then
    let others := r.ranks.filter (· != r.me)
    if !i.srcDone || !others.all i.has then none
    else
      let c := cdCount i.words
      let own := if p = 5 then i.src else (i.src.drop (r.p * c)).take c
      let l := (r.ranks.map (fun x => (((if x = r.me then own else i.tilesFrom x).zipIdx).map (fun y => (r.pos x * c + y.2, y.1))))).flatten
      some (colWriteAll i l s)
  else
    match i.result with
    | none => none
    | some ts =>
      let mine := (partTiles i r [r.p] ts).map (·.2)
      some (colWriteAll i ((mine.zipIdx).map (fun x => (x.2, x.1))) s)

/-- The result of a BROADCAST, and ROOT's message to the tree root (R338). -/
def stepBroadcast (i : ColInst) (r : Role) (s : State) : Option State :=
  let root := cdF i.words 0 Fld.DESC0_ROOT
  let refs := (i.src.zipIdx).map (fun x => (x.1, placeRef (runPlace (i.words.getD 2 0) x.2)))
  if root = r.me ∧ r.root = false ∧ i.srcDone = true ∧ i.sent.contains r.rootRank = false then some (colSend i r.rootRank refs s)
  else if i.result.isSome then none
  else if r.root && root == r.me then (if i.srcDone then some (setInst { i with result := some i.src } s) else none)
  else
    match downSender i.words r with
    | some x => if i.has x then some (setInst { i with result := some (i.tilesFrom x) } s) else none
    | none => none

/-- Send the own tiles, or the block for it, to the next other member (R338). -/
def stepSpread (i : ColInst) (r : Role) (s : State) : Option State :=
  if !i.srcDone then none
  else
    match (r.ranks.filter (· != r.me)).find? (fun x => !i.sent.contains x) with
    | none => none
    | some d =>
      let all := (i.src.zipIdx).map (fun x => (x.1, placeRef (runPlace (i.words.getD 2 0) x.2)))
      let c := cdCount i.words
      some (colSend i d (if cdPrim i.words = 5 then all else (all.drop (r.pos d * c)).take c) s)

/-- Whether an instance is complete (R328). -/
def colComplete (i : ColInst) (r : Role) : Bool :=
  let p := cdPrim i.words
  let sends := if p = 5 ∨ p = 6 then r.ranks.filter (· != r.me)
    else (if p = 1 then (if cdF i.words 0 Fld.DESC0_ROOT = r.me ∧ r.root = false then [r.rootRank] else []) else r.parent.toList) ++
      (if p = 2 then (if r.root && cdF i.words 0 Fld.DESC0_ROOT != r.me then [cdF i.words 0 Fld.DESC0_ROOT] else []) else r.down.map (·.1))
  i.srcDone && i.writes == some 0 && i.unacked == 0 && sends.all i.sent.contains &&
    (expected i.words r).all (fun e => i.has e.1) && (p == 5 || p == 6 || p == 1 || i.levels == r.lvl + 1 || !r.lead)

/-- An instance completes (R328). -/
def colFinish (i : ColInst) (s : State) : State :=
  if i.dov ≠ 0 then
    defer (.colDone i.dov ((i.result).getD [])) (freeInst i (bump Reg.COL_DONE s))
  else
    let num := cdF i.words 4 Fld.DESC4_DNUM
    let s := if num = 0 then s else semHw (cdF i.words 4 Fld.DESC4_DSEM) num s
    let cls := [Reg.CTX_EXC_INVALID i.ctx, Reg.CTX_EXC_DIVZERO i.ctx, Reg.CTX_EXC_OVERFLOW i.ctx, Reg.CTX_EXC_UNDERFLOW i.ctx, Reg.CTX_EXC_INEXACT i.ctx]
    let s := (cls.zipIdx).foldl (fun s x => if bitAt i.flags x.2 then bump x.1 s else s) s
    freeInst i (bump Reg.COL_DONE s)

/-- The next thing that an instance does, if it can do one. -/
def instStep (i : ColInst) (s : State) : Option State :=
  if i.words.isEmpty then none
  else
    let r := instRole i s
    match mismatch i r with
    | some x => some (instFail i 2 x true s)
    | none =>
      let p := cdPrim i.words
      let work := if p = 5 ∨ p = 6 then (stepSpread i r s).or (stepWrite i r s)
        else if p = 1 then ((stepBroadcast i r s).or (stepDown i r s)).or (stepWrite i r s)
        else ((((stepUp i r s).or (stepSendUp i r s)).or (stepResult i r s)).or (stepDown i r s)).or (stepWrite i r s)
      match work with
      | some s => some s
      | none => if colComplete i r then some (colFinish i s) else none

/-- Everything that an instance can do now; the fuel bounds its steps. -/
def instRun (g gseq : Nat) : Nat → State → State
  | 0, s => s
  | k + 1, s =>
    match colOpen g gseq s with
    | none => s
    | some i => match instStep i s with
      | none => s
      | some s => instRun g gseq k s

/-- Steps that bound an instance's progress. -/
def instFuel (g : Nat) (s : State) : Nat := 2 * groupN g s + 64

/-- Let an instance progress. -/
def colAdvance (g gseq : Nat) (s : State) : State := instRun g gseq (instFuel g s) s

/-- The reader code under which the engine waits for a re-fetch. -/
def colReader : Nat := 60

/-- A booked source read of an instance ends: a use (R338). -/
def colRead (x : FabXfer) (g gseq k : Nat) (e : Ecc) (s : State) : State :=
  match colOpen g gseq s with
  | none => dropFab x s
  | some i =>
    if (benchOf x.bench s).refetch.any (fun r => r.units.contains colReader && r.tile == x.btile) then s
    else
      let s := eccCount x.bench e (advanceTo x.due s)
      match useTileAs x.bench x.btile 7 colReader e s with
      | (.refetch, s) => s
      | (.pass, s) =>
        let i := { i with src := i.src ++ [benchTile x.bench x.btile s] }
        let n := srcTiles i.words (instRole i s)
        let s := dropFab x s
        if k + 1 < n then bookColRead i (k + 1) (setInst i s)
        else colAdvance g gseq (setInst { i with srcDone := true } s)
      | (_, s) => instFail i 4 k true (dropFab x s)

/-- A booked destination write of an instance lands. -/
def colWrite (x : FabXfer) (g gseq : Nat) (t : Tile) (s : State) : State :=
  match colOpen g gseq s with
  | none => dropFab x s
  | some i =>
    let s := dropFab x (advanceTo x.due s)
    let old := tagF Fld.TAG_ORIGIN (benchTag x.bench x.btile s)
    let t := if isReduce (cdPrim i.words) then
        { t with tag := mkTag (tagF Fld.TAG_CRC t.tag) (tagF Fld.TAG_FORMAT t.tag) (tagF Fld.TAG_FLAGS t.tag) (tagF Fld.TAG_SIDE t.tag) (tagF Fld.TAG_CBDIST t.tag) old }
      else t
    let s := landTile x.bench x.btile t s
    colAdvance g gseq (setInst { i with writes := i.writes.map (· - 1) } s)

/-- A message of an instance has been acknowledged. -/
def colAcked (g gseq : Nat) (s : State) : State :=
  match colOpen g gseq s with
  | some i => colAdvance g gseq (setInst { i with unacked := i.unacked - 1 } s)
  | none => s

/-! ## Waits, limits, aborts and teardown (R331, R345 to R347) -/

/-- A start of context `c` that waits for a slot gets one. -/
def slotGranted (c : Nat) (s : State) : State :=
  match s.col.waits.find? (fun w => w.ctx == c) with
  | some w =>
    if colRoom c s || (colOpen w.g w.gseq s).isSome then
      colAdvance w.g w.gseq (grantSlot w (setC (fun x => { x with waits := x.waits.erase w }) s))
    else s
  | none => s

/-- The open instances of context `c`, in ascending group: the order of their records (R530). -/
def instsOf (c : Nat) (s : State) : List ColInst :=
  (s.col.insts.filter (fun i => i.ctx == c)).mergeSort (fun a b => a.g ≤ b.g)

/-- A start or refused arrival of context `c` has waited SLOT_WAIT_US while its share stayed full (R331). -/
def slotWaitTimeout (c : Nat) (s : State) : State :=
  let l := (s.col.waits.filter (fun w => w.ctx == c)).map (·.since) ++ (s.col.refused.filter (fun p => p.1 == c)).map (fun p => p.2 - 1)
  match l with
  | [] => s
  | t :: ts =>
    if colRoom c s then s
    else
      let s := advanceTo (ts.foldl min t + usCycles (rdF Reg.COL_CFG Fld.COL_CFG_SLOT_WAIT_US s)) s
      let s := log 0x0901 kContext c (some c) [w64 (colUsed s)] (bump Reg.COL_EXHAUSTED s)
      (instsOf c s).foldl (fun s i => instFail i 1 0 true s) s

/-- The slot of an instance has been open for OPEN_LIMIT_MS (R345). -/
def openLimit (g gseq : Nat) (s : State) : State :=
  let lim := rdF Reg.COL_CFG Fld.COL_CFG_OPEN_LIMIT_MS s
  match colOpen g gseq s with
  | some i => if lim = 0 then s else instFail i 5 0 true (advanceTo (i.since + msCycles lim) s)
  | none => s

/-- An ABORT packet that has passed the network's checks (R346). -/
def abortReceive (p : Packet) (s : State) : State :=
  let w1 := pkC p 1
  let w2 := pkC p 2
  let g := bitsOf w1 63 48
  let gseq := bitsOf w1 47 16
  let rank := bitsOf w1 14 0
  if bitsOf w2 31 0 ≠ jobKey s ∨ bitsOf w2 47 32 ≠ jobEpoch s ∨ jobState s = 0 then s
  else
    match colOpen g gseq s with
    | some i => instFail i 6 rank false s
    | none =>
      if g ≥ 1024 || colPast g gseq s then s
      else
        let e := tb (Tab.GSEQ g) s
        let q := gseq % 2 ^ 31
        if bitF Fld.COL_GSEQ_DATA_ABORTED e && decide (getF Fld.COL_GSEQ_DATA_ABORT_FROM e ≤ q) then s
        else
          let s := tbW (Tab.GSEQ g) (setF Fld.COL_GSEQ_DATA_ABORT_FROM (setF Fld.COL_GSEQ_DATA_ABORTED e 1) q) s
          setC (fun c => { c with abortRank := smPut (fun _ => 0) c.abortRank g rank }) s

/-- Step 2 of R366: every open instance of context `c` ends, and its waiting starts are dropped. -/
def colTeardown (c : Nat) (s : State) : State :=
  let me := (ownRank s).getD 0
  let s := setC (fun x => { x with waits := x.waits.filter (fun w => w.ctx != c), refused := smPut (fun _ => 0) x.refused c 0 }) s
  (instsOf c s).foldl (fun s i => instFail i 6 me true s) s

/-- Clearing job state frees every slot and every GSEQ (R347). -/
def colClear (s : State) : State := tabClear (Tab.GSEQ 0) (Tab.GSEQ 1024) { s with col := ColSt.empty }

/-- Warm reset frees every slot and keeps the open pairs (R347). -/
def colWarm (s : State) : State :=
  { s with col := { ColSt.empty with
    abortRank := s.col.abortRank, owedAborts := s.col.owedAborts ++ s.col.insts.map (fun i => (i.g, i.gseq)) } }

/-- The device is in RUN again: ABORTs go out for the pairs that a warm reset left. -/
def colRunAgain (s : State) : State :=
  if s.dev ≠ 6 then s
  else s.col.owedAborts.foldl (fun s p => sendAborts p.1 p.2 s) (setC (fun c => { c with owedAborts := [] }) s)

end Sys2Proof.Machine
end

