-- ==== Sys2Proof/Machine/DovExchange.lean ====
section
/-!
DEFINITION. The Dovetail's dispatch, expert side and combine (spec/07_dovetail_dispatch_combine.md).
-/
namespace Sys2Proof.Machine

/-! ## Tables (R167, R193, R194, R227 to R230) -/

/-- A field of word `w` of layer descriptor `d`. -/
def lyF (d w : Nat) (f : Fld) (s : State) : Nat := tbF (Tab.LAYER (d * 4 + w)) f s
/-- A field of word `w` of dispatch descriptor `d`. -/
def dpF (d w : Nat) (f : Fld) (s : State) : Nat := tbF (Tab.DISP (d * 2 + w)) f s
/-- A field of word `w` of selection entry `x`. -/
def seF (x w : Nat) (f : Fld) (s : State) : Nat := tbF (Tab.SEL (x * 2 + w)) f s
/-- A field of word `w` of replica map entry `x`. -/
def mpF (x w : Nat) (f : Fld) (s : State) : Nat := tbF (Tab.MAP (x * 4 + w)) f s
/-- A field of word `w` of local entry `l`. -/
def lcF' (l w : Nat) (f : Fld) (s : State) : Nat := tbF (Tab.LOC (l * 4 + w)) f s

/-- Instances of the expert of selection entry `x`. -/
def instances (x : Nat) (s : State) : Nat := mpF x 0 Fld.MAP0_NM1 s + 1
/-- The rank of instance `i` in a map word. -/
def mapRank (w : Word) (i : Nat) : Nat := getF ⟨15 * i, 15⟩ w
/-- The rank that holds instance `i` of selection entry `x`. -/
def instRank (x i : Nat) (s : State) : Nat := mapRank (tb (Tab.MAP (x * 4)) s) i
/-- The valid layer descriptors, ascending. -/
def layers (s : State) : List Nat := (upto 256).filter (fun d => bitF Fld.LAYER0_VALID (tb (Tab.LAYER (d * 4)) s))
/-- Whether a layer has a valid dispatch descriptor. -/
def dispatches (d : Nat) (s : State) : Bool := bitF Fld.DISP0_VALID (tb (Tab.DISP (d * 2)) s)
/-- The members of a context's expert-parallel group. -/
def dovMembers (c : Nat) (s : State) : List Nat :=
  let g := rdF (Reg.DOV_CTX_DISP c) Fld.DOV_CTX_DISP_GROUP s
  if groupValid g s then groupRanks g s else []
/-- Bytes of an element in a row format (R203). -/
def elBytes (fmt : Nat) : Nat := if fmt = fmtFP32 then 4 else if fmt = fmtBF16 ∨ fmt = fmtFP16 then 2 else 1
/-- Whether a format may be that of rows (R203). -/
def rowFmt (fmt : Nat) : Bool := decide (1 ≤ fmt ∧ fmt ≤ 5)
/-- Format of the rows of a dispatch part (kind 0) or a result part (kind 1). -/
def partFmt (d kind : Nat) (s : State) : Nat := if kind = 0 then dpF d 0 Fld.DISP0_IFMT s else dpF d 0 Fld.DISP0_RFMT s

/-! ## Tags (R182, R196, R197) -/

/-- The tag bit REDIRECT. -/
def flRedirect : Nat := 2 ^ 62
/-- The tag bit SPILL. -/
def flSpill : Nat := 2 ^ 61
/-- The tag bit SUBST. -/
def flSubst : Nat := 2 ^ 60
/-- The tag bit OTHER. -/
def flOther : Nat := 2 ^ 59
/-- The hash of a copy (R182). -/
def tagHash (tag : Nat) : Nat := crc32c (leBytes 8 (tag % 2 ^ 59))
/-- TOKEN of a tag. -/
def tagTok (tag : Nat) : Nat := tag / 2 ^ 18 % 2 ^ 14
/-- RANK of a tag. -/
def tagRank (tag : Nat) : Nat := tag / 2 ^ 40 % 16
/-- SRC of a tag. -/
def tagSrc (tag : Nat) : Nat := tag / 2 ^ 44 % 2 ^ 15

/-! ## Exchanges -/

/-- The current step. -/
def stepNow (s : State) : Nat := rdF Reg.BPM_STEP_STATUS Fld.BPM_STEP_STATUS_STEP s
/-- Change the Dovetail's own state. -/
def setDv (f : Dov → Dov) (s : State) : State := { s with dov := f s.dov }
/-- The exchange of descriptor `d` in step `n`. -/
def dovX (d n : Nat) (s : State) : Option DovX := s.dov.xs.find? (fun x => x.d == d && x.step == n)
/-- Store an exchange. -/
def setDovX (x : DovX) (s : State) : State :=
  setDv (fun v => { v with xs := v.xs.map (fun y => if y.d == x.d && y.step == x.step then x else y) }) s
/-- A fault of a Dovetail's context with a record. -/
def dovFault (code kind index c : Nat) (ds : List Word) (s : State) : State :=
  ctxFault c code (log code kind index (some c) ds s)

/-- Book one tile transfer of the Dovetail (R201, R537). -/
def dovBook (d n c b t : Nat) (use : DovUse) (s : State) : State :=
  if ctxState c s ≠ 1 then s
  else if sysMask b s = 0 then dovFault 0x040D kLayer d c [w64 b] s
  else
    let inb := match use with | .inbox _ _ => true | .output _ _ => true | _ => false
    let (due, s) := bookPort b inb s
    setDv (fun v => { v with xfers := v.xfers ++ [⟨d, n, b, t, due, use⟩] }) s

/-! ## Messages (R204 to R207) -/

/-- The two header words of a part. -/
def partHeader (p : DovPart) : List Nat :=
  [p.kind * 2 ^ 62 + p.round * 2 ^ 60 + p.layer * 2 ^ 52 + p.src * 2 ^ 37 + p.dst * 2 ^ 22 + b2n p.torn * 2 ^ 21,
    p.copies.length * 2 ^ 44 + p.spills * 2 ^ 24 + p.step % 2 ^ 24]

/-- The two words of a copy record. -/
def copyWords (x : DovCopy) : List Nat :=
  [x.tag, x.expert * 2 ^ 51 + x.inst * 2 ^ 49 + (match x.fb with | some f => 2 ^ 48 + f * 2 ^ 35 | none => 0) + x.status * 2 ^ 33]

/-- Bytes of a list of words. -/
def dovWords (l : List Nat) : List Byte := (l.map (leBytes 8)).flatten

/-- Cut bytes into tiles of a format, the last one padded with zeros. -/
def cutTiles (fmt : Nat) : Nat → List Byte → List Tile
  | 0, _ => []
  | n + 1, bs =>
    let p := subBytes bs 0 4096
    ⟨mkTag (crc32c p) fmt 0 0 0 0, p⟩ :: cutTiles fmt n (bs.drop 4096)

/-- The tiles of a message of parts (R206). -/
def dovTiles (fmt : Nat) (ps : List DovPart) : List Tile :=
  let recs := (ps.map (fun p => dovWords (partHeader p ++ (p.copies.map copyWords).flatten))).flatten
  let rows := (ps.map (fun p => (p.copies.map (fun c => if c.status = 0 then c.row else [])).flatten)).flatten
  cutTiles fmtFP32 ((recs.length + 4095) / 4096) recs ++ cutTiles fmt ((rows.length + 4095) / 4096) rows

/-- The copy record at a byte of a record section. -/
def copyAt (bs : List Byte) (src off : Nat) : DovCopy :=
  let a := leAt bs off 8
  let b := leAt bs (off + 8) 8
  ⟨a, b / 2 ^ 51 % 2 ^ 13, b / 2 ^ 49 % 4, if b / 2 ^ 48 % 2 = 1 then some (b / 2 ^ 35 % 2 ^ 13) else none, b / 2 ^ 33 % 4, [], src⟩

/-- The part at a byte of a record section, without rows. -/
def partAt (bs : List Byte) (off now : Nat) : DovPart :=
  let a := leAt bs off 8
  let b := leAt bs (off + 8) 8
  let src := a / 2 ^ 37 % 2 ^ 15
  let n := min (b / 2 ^ 44) (bs.length / 16)
  ⟨a / 2 ^ 62 % 4, a / 2 ^ 60 % 4, a / 2 ^ 52 % 256, src, a / 2 ^ 22 % 2 ^ 15, decide (a / 2 ^ 21 % 2 = 1), b / 2 ^ 24 % 2 ^ 20,
    b % 2 ^ 24, (upto n).map (fun i => copyAt bs src (off + 16 + 16 * i)), now⟩

/-- The parts of a record section and the byte after the last of them. -/
def partsAt (bs : List Byte) (now : Nat) : Nat → Nat → List DovPart × Nat
  | 0, off => ([], off)
  | n + 1, off =>
    let p := partAt bs off now
    let r := partsAt bs now n (off + 16 + 16 * p.copies.length)
    (p :: r.1, r.2)

/-- Give the copies with STATUS 0 their rows in turn; `off` is the byte of the next row. -/
def giveRows (bs : List Byte) (w : Nat) : List DovCopy → Nat → List DovCopy × Nat
  | [], off => ([], off)
  | c :: cs, off =>
    if c.status = 0 then
      let r := giveRows bs w cs (off + w)
      ({ c with row := subBytes bs off w } :: r.1, r.2)
    else
      let r := giveRows bs w cs off
      (c :: r.1, r.2)

/-- Give the copies of several parts their rows. -/
def giveParts (bs : List Byte) (w : Nat) : List DovPart → Nat → List DovPart
  | [], _ => []
  | p :: ps, off =>
    let r := giveRows bs w p.copies off
    { p with copies := r.1 } :: giveParts bs w ps r.2

/-- The group members of a context in a tray as (slot, rank), ascending slot. -/
def trayMembers (c tray : Nat) (s : State) : List (Nat × Nat) :=
  (((dovMembers c s).filter (fun r => rankPhys r s / 8 == tray)).map (fun r => (rankPhys r s % 8, r))).mergeSort
    (fun a b => a.1 ≤ b.1)

/-- The landing device of a tray (R205): the member in this device's slot, else the one with the lowest slot. -/
def landing (c tray : Nat) (s : State) : Option Nat :=
  let ms := trayMembers c tray s
  match ms.find? (fun m => m.1 == selfPhys s % 8) with
  | some m => some m.2
  | none => ms.head?.map (·.2)

/-- Hand one message of parts to the transport. -/
def dovSend (d c dst kind : Nat) (ps : List DovPart) (s : State) : State :=
  let tiles := dovTiles (partFmt d kind s) ps
  let m := s.dov.msg
  let s := setDv (fun v => { v with msg := (m + 1) % 1024 }) s
  msgSend dst false c 0xFFFE 0 ((tiles.zipIdx).map (fun x => (x.1, SrcRef.dovetail m x.2))) (.dov d) s

/-- The part for member `m`. -/
def partFor (x : DovX) (kind round : Nat) (torn : Bool) (copies : List (Nat × DovCopy)) (m : Nat) (s : State) : DovPart :=
  let cs := (copies.filter (fun p => p.1 == m)).map (·.2)
  ⟨kind, round, lyF x.d 0 Fld.LAYER0_LAYER s, (ownRank s).getD 0, m, torn,
    (cs.filter (fun k => decide (kind = 0) && decide (k.tag / 2 ^ 61 % 2 = 1))).length, x.step, cs, s.cycle⟩

/-- Send the parts of one kind and round to every member (R204, R208): its own first, then those of its tray in
ascending slot, then one message for each other tray in ascending order. -/
def sendParts (x : DovX) (kind round : Nat) (torn : Bool) (copies : List (Nat × DovCopy)) (s : State) : State :=
  let part := fun (m : Nat) => partFor x kind round torn copies m s
  let ms := dovMembers x.ctx s
  let me := (ownRank s).getD 0
  let y := selfPhys s / 8
  let empty := (ms.filter (fun m => (part m).copies.isEmpty)).length
  let s := bumpBy empty Reg.DOV_HDR_EMPTY s
  let s := if ms.contains me then defer (.dovPart x.d (part me)) s else s
  let s := ((trayMembers x.ctx y s).filter (fun p => p.2 != me)).foldl (fun s p => dovSend x.d x.ctx p.2 kind [part p.2] s) s
  let trays := ((ms.map (fun m => rankPhys m s / 8)).filter (· != y)).dedup.mergeSort (· ≤ ·)
  trays.foldl (fun s t =>
    match landing x.ctx t s with
    | some l => dovSend x.d x.ctx l kind ((trayMembers x.ctx t s).map (fun p => part p.2)) s
    | none => s) s

/-! ## The source (R202, R204, R218) -/

/-- The source tile of token `t` in a descriptor, and the byte of its row in it. -/
def srcPlace (d t : Nat) (s : State) : Nat × Nat :=
  let o := t * 256 * elBytes (partFmt d 0 s)
  (dpF d 0 Fld.DISP0_SRC_TILE s + o / 4096, o % 4096)

/-- The columns blocks of a descriptor's rows. -/
def colBlocks (d : Nat) (s : State) : Nat := dpF d 0 Fld.DISP0_WB s

/-- The row of token `t` from the source tiles read. -/
def srcRow (x : DovX) (t : Nat) (s : State) : List Byte :=
  let p := srcPlace x.d t s
  let n := 256 * elBytes (partFmt x.d 0 s)
  ((upto (colBlocks x.d s)).map (fun cb =>
    match x.srcTiles.find? (fun k => k.1 == dpF x.d 0 Fld.DISP0_SRC_BFIRST s + cb && k.2.1 == p.1) with
    | some k => subBytes k.2.2 p.2 n
    | none => List.replicate n 0)).flatten

/-- Send the round-0 parts (R204). Within a part copies stand by expert and instance, which is the order of the
receiver's local entries, and then in walk order (R206). -/
def dispatchSend (x : DovX) (s : State) : State :=
  let cs := (x.out.mergeSort (fun a b => decide (a.2.expert * 4 + a.2.inst ≤ b.2.expert * 4 + b.2.inst))).map (fun p =>
    (p.1, { p.2 with row := srcRow x (tagTok p.2.tag) s }))
  let s := bumpBy cs.length Reg.DOV_COPIES_OUT s
  sendParts x 0 0 false cs (setDovX { x with sent0 := true, srcTiles := [] } s)

/-- The walk of a descriptor is over (R170, R204): the source rows of its copies are read, each tile once in walk order, and
without any the parts go at once. -/
def dispatchBegin (x : DovX) (s : State) : State :=
  let need := (x.out.flatMap (fun p =>
    (upto (colBlocks x.d s)).map (fun cb => (dpF x.d 0 Fld.DISP0_SRC_BFIRST s + cb, (srcPlace x.d (tagTok p.2.tag) s).1)))).eraseDups
  let x := { x with walked := true, srcLeft := need.length }
  let s := setDovX x s
  if need.isEmpty then dispatchSend x s
  else need.foldl (fun s p => dovBook x.d x.step x.ctx p.1 p.2 .source s) s

/-! ## Combine (R218 to R221) -/

/-- Tokens whose rows one output tile holds. -/
def outPer (d : Nat) (s : State) : Nat := 16 / elBytes (dpF d 0 Fld.DISP0_OFMT s)
/-- Number of output tiles per column block. -/
def outTiles (x : DovX) (s : State) : Nat := (x.num + outPer x.d s - 1) / outPer x.d s

/-- The contributing ranks of token `t` in the order in which they are summed: (weight, row). -/
def contribs (x : DovX) (arrival : Bool) (t : Nat) : List (Nat × List Byte) :=
  let es := x.exp.filter (fun e => e.t == t && (match e.res with | some (0, _, _) => true | _ => false))
  let key := fun (e : DovExp) => match e.res with
    | some (_, _, w) => if arrival then w * 16 + e.r else e.r
    | none => e.r
  (es.mergeSort (fun a b => key a ≤ key b)).map (fun e => (e.w, match e.res with | some (_, row, _) => row | none => []))

/-- One column of an output row (R219): the sum and whether opposite infinities met. -/
def combineCol (rfmt col : Nat) : List (Nat × List Byte) → FVal → Bool → FVal × Bool
  | [], acc, inv => (acc, inv)
  | (w, row) :: cs, acc, inv =>
    let y := decodeF (layoutOf rfmt) (leAt row (col * elBytes rfmt) (elBytes rfmt))
    let p := (mulStep (f32 w) y).1
    combineCol rfmt col cs (addStep acc p).1 (inv || (isInf acc && isInf p && signF acc != signF p))

/-- Column block `cb` of the row of token `t`: values and whether opposite infinities met. -/
def outRow (x : DovX) (arrival : Bool) (rfmt t cb : Nat) : List FVal × Bool :=
  if x.num ≤ t then (List.replicate 256 (.fin false 0 0), false)
  else
    let cs := contribs x arrival t
    let vs := (upto 256).map (fun j => combineCol rfmt (cb * 256 + j) cs (.fin false 0 0) false)
    (vs.map (·.1), vs.any (·.2))

/-- Write output tile `k` of every column block, those of 384 and above left out (R220, R221). -/
def outWrite (x : DovX) (k : Nat) (s : State) : State :=
  let ofmt := dpF x.d 0 Fld.DISP0_OFMT s
  let rfmt := dpF x.d 0 Fld.DISP0_RFMT s
  let arr := bitF Fld.DISP0_ARRIVAL (tb (Tab.DISP (x.d * 2)) s)
  let per := outPer x.d s
  let toks := (upto per).map (fun i => k * per + i)
  let rows := (upto (colBlocks x.d s)).map (fun cb => toks.map (fun t => outRow x arr rfmt t cb))
  let nans := (upto per).filter (fun i =>
    rows.any (fun l => ((l.getD i ([], false)).1).any (fun v =>
      isNan (decodeF (layoutOf ofmt) (encodeF (layoutOf ofmt) v).1))))
  let s := bumpBy nans.length Reg.DOV_COMBINE_NAN s
  let many := (toks.filter (fun t => decide (2 ≤ (contribs x arr t).length))).length
  let s := if arr then (upto many).foldl (fun s _ => tcc x.ctx 2 s) s else s
  let s := setDovX { x with wrote := x.wrote ++ [k] } s
  let t := dpF x.d 1 Fld.DISP1_OUT_TILE s + k
  if 384 ≤ t then s
  else (rows.zipIdx).foldl (fun s r =>
    let e := encodeTile ofmt 0 [] (r.1.map (·.1)).flatten
    let fl := e.flags ||| (if r.1.any (·.2) then flInvalid else 0)
    dovBook x.d x.step x.ctx (dpF x.d 1 Fld.DISP1_OUT_BFIRST s + r.2) t (.output e.payload fl) s) s

/-- Signal CSEM once the last output tile has landed (R220). -/
def outDone (d n : Nat) (s : State) : State :=
  match dovX d n s with
  | some x =>
    let open' := s.dov.xfers.any (fun t => t.d == d && t.step == n && (match t.use with | .output _ _ => true | _ => false))
    if x.closedR && !x.signalled && !open' && decide (outTiles x s ≤ x.wrote.length) then
      let s := setDovX { x with signalled := true } s
      semHw (dpF d 1 Fld.DISP1_CSEM s) (dpF d 1 Fld.DISP1_CNUM s) (bumpBy x.num Reg.DOV_COMBINE_TOKENS s)
    else s
  | none => s

/-- Write every output tile not yet written (R219). -/
def outAll (x : DovX) (s : State) : State :=
  let ks := (upto (outTiles x s)).filter (fun k => !x.wrote.contains k)
  let s := ks.foldl (fun s k => match dovX x.d x.step s with | some y => outWrite y k s | none => s) s
  outDone x.d x.step s

/-- With ARRIVAL = 1, write the output tiles whose tokens are all resolved (R221). -/
def outSome (x : DovX) (s : State) : State :=
  if !bitF Fld.DISP0_ARRIVAL (tb (Tab.DISP (x.d * 2)) s) then s
  else
    let per := outPer x.d s
    let ks := (upto (outTiles x s)).filter (fun k => !x.wrote.contains k &&
      x.exp.all (fun e => e.t / per != k || e.res.isSome))
    ks.foldl (fun s k => match dovX x.d x.step s with | some y => outWrite y k s | none => s) s

/-! ## Result parts at the source (R217, R218, R222) -/

/-- A record comes back (R218): the exchange with it, or none where it was not expected. -/
def resultTake (c : DovCopy) (now : Nat) (x : DovX) : Option DovX :=
  if x.exp.any (fun e => e.t == tagTok c.tag && e.r == tagRank c.tag && e.res.isNone) then
    some { x with exp := x.exp.map (fun e =>
      if e.t == tagTok c.tag && e.r == tagRank c.tag then { e with res := some (c.status, c.row, now) } else e) }
  else none

/-- The records of a part in turn: the exchange after them, or the tag of the first that was not expected. -/
def resultTakes (now : Nat) : List DovCopy → DovX → DovX ⊕ Nat
  | [], x => .inl x
  | c :: cs, x =>
    match resultTake c now x with
    | some y => resultTakes now cs y
    | none => .inr c.tag

/-- Copies sent to a TORN sender resolve as DROP (R222). -/
def tornDrops (src now : Nat) (x : DovX) : DovX :=
  { x with exp := x.exp.map (fun e => if e.dst == src && e.res.isNone then { e with res := some (1, [], now) } else e) }

/-- Close the result set where every member's part is there (R208, R218). -/
def resultClose (x : DovX) (s : State) : State :=
  if x.closedR || !x.walked || !(dovMembers x.ctx s).all (fun m => x.results.any (fun p => p.src == m)) then setDovX x s
  else
    let s := setDovX { x with closedR := true } s
    if x.exp.any (fun e => e.res.isNone) then dovFault 0x0409 kLayer x.d x.ctx [0] s
    else outAll { x with closedR := true } s

/-- A result part arrives. -/
def resultPart (x : DovX) (p : DovPart) (s : State) : State :=
  if x.closedR || x.results.any (fun q => q.src == p.src) then s
  else
    let x := { x with results := x.results ++ [{ p with copies := [] }] }
    let x := if p.torn then tornDrops p.src p.when x else x
    match resultTakes p.when p.copies x with
    | .inr tag => dovFault 0x0409 kLayer x.d x.ctx [w64 tag] (setDovX x s)
    | .inl x =>
      let s := if x.walked then outSome x (setDovX x s) else setDovX x s
      match dovX x.d x.step s with
      | some y => resultClose y s
      | none => s

/-! ## The expert side (R210 to R217) -/

/-- Change the entry of local number `l`. -/
def setEnt (x : DovX) (e : DovEnt) : DovX := { x with ents := x.ents.map (fun y => if y.l = e.l then e else y) }

/-- Place a copy into its inbox (R210, R211, R214). `spill` tells that it is examined as a spill copy; `late` that it
came in round 1. -/
def placeCopy (c : DovCopy) (spill late : Bool) (x : DovX) (s : State) : DovX × State :=
  let s := if spill then tcc x.ctx 1 s else s
  match x.ents.find? (fun e => e.expert == c.expert && e.inst == c.inst) with
  | none => ({ x with others := x.others ++ [{ c with status := 1 }] }, if spill then bump Reg.DOV_SPILL_REFUSED s else s)
  | some e =>
    if late && e.missed then (setEnt x { e with dead := e.dead ++ [{ c with status := 2 }] }, bump Reg.DOV_MISS_SKIP s)
    else if spill && decide (lcF' e.l 2 Fld.LOC2_SPILL_CAP s ≤ e.spills) then
      (setEnt x { e with dead := e.dead ++ [{ c with status := 1 }] }, bump Reg.DOV_SPILL_REFUSED s)
    else
      let s := if spill then bump Reg.DOV_SPILL_SERVED s else s
      let e := if spill then { e with spills := e.spills + 1 } else e
      if lcF' e.l 1 Fld.LOC1_MAXC s ≤ e.rows.length then
        let s := bump Reg.DOV_INBOX_DROP s
        let s := if e.full then s else log 0x0407 kLocal e.l (some x.ctx) [w64 c.tag] s
        (setEnt x { e with full := true, dead := e.dead ++ [{ c with status := 1 }] }, s)
      else (setEnt x { e with rows := e.rows ++ [c] }, s)

/-- Place copies in turn. -/
def placeCopies (spill late : Bool) : List DovCopy → DovX → State → DovX × State
  | [], x, s => (x, s)
  | c :: cs, x, s =>
    let r := placeCopy c spill late x s
    placeCopies spill late cs r.1 r.2

/-- The copies of a list of parts. -/
def copiesOf (ps : List DovPart) : List DovCopy := (ps.map (·.copies)).flatten

/-- Whether a copy carries SPILL. -/
def isSpill (c : DovCopy) : Bool := decide (c.tag / 2 ^ 61 % 2 = 1)

/-- The rows of an entry that a miss has resolved (R212, R213): copies resolved as SKIP and copies that move. -/
def missMove (x : DovX) (path : Nat) (s : State) (c : DovCopy) : DovCopy ⊕ (Nat × DovCopy) :=
  let base := lyF x.d 0 Fld.LAYER0_TBASE s
  let skip : DovCopy ⊕ (Nat × DovCopy) := .inl { c with status := 2 }
  let tag := if c.tag / 2 ^ 62 % 2 = 1 then c.tag else c.tag + flRedirect
  if bitF Fld.DISP0_REDIR_EN (tb (Tab.DISP (x.d * 2)) s) = false ∨ x.sent1 = true ∨ c.tag / 2 ^ 62 % 2 = 1 then skip
  else if path = 0 then
    let n := instances (base + c.expert) s
    if n = 1 then skip
    else
      let i := (c.inst + 1) % n
      .inr (instRank (base + c.expert) i s, { c with tag := tag, inst := i })
  else if path = 1 then
    match c.fb with
    | some f =>
      if seF (base + f) 0 Fld.SEL0_NULL s = 1 then skip
      else
        let i := tagHash c.tag % instances (base + f) s
        .inr (instRank (base + f) i s, { c with tag := tag, expert := f, inst := i })
    | none => skip
  else skip

/-- A PROMOTE of local entry `e` has missed (R212, R213). A miss after the count was settled moves nothing. -/
def entMiss (x : DovX) (e : DovEnt) (path : Nat) (s : State) : State :=
  if x.final then s
  else
    let rs := e.rows.map (missMove x path s)
    let dead := rs.filterMap (fun r => match r with | .inl c => some c | .inr _ => none)
    let moved := rs.filterMap (fun r => match r with | .inl _ => none | .inr m => some m)
    let x := setEnt { x with moved := x.moved ++ moved } { e with rows := [], dead := e.dead ++ dead, missed := true }
    bumpBy moved.length Reg.DOV_REDIRECT (bumpBy dead.length Reg.DOV_MISS_SKIP (setDovX x s))

/-- The Dovetail learns of a miss of object descriptor `o` (R134). -/
def dovMiss (o path : Nat) (s : State) : State :=
  let id := objF o 0 Fld.OBJ0_OBJECT s
  (s.dov.xs.filter (fun x => x.step == stepNow s)).foldl (fun s x0 =>
    x0.ents.foldl (fun s e0 =>
      match dovX x0.d x0.step s with
      | none => s
      | some x =>
        match x.ents.find? (fun e => e.l == e0.l) with
        | some e => if e.promoted && !e.missed && lcF' e.l 0 Fld.LOC0_OBJECT s == id then entMiss x e path s else s
        | none => s) s) s

/-- PROMOTE the weights of an entry that has rows (R212). An object that no descriptor defines is a miss whose copies
are skipped. -/
def entPromote (x : DovX) (l : Nat) (s : State) : State :=
  match x.ents.find? (fun e => e.l == l) with
  | none => s
  | some e =>
    let id := lcF' l 0 Fld.LOC0_OBJECT s
    if e.rows.isEmpty || e.promoted || id == 0 then s
    else
      let y := setEnt x { e with promoted := true }
      let s := setDovX y s
      match objFind id s with
      | some o => tierPromoteDov o s
      | none => entMiss y { e with promoted := true } 2 (countMiss x.ctx (refuseReq 0x0503 none (reqWord 1 x.ctx id) s))

/-- PROMOTE for every entry with rows, in ascending expert index (R124, R212). -/
def promoteAll (d n : Nat) (s : State) : State :=
  match dovX d n s with
  | none => s
  | some x =>
    let ls := (x.ents.mergeSort (fun a b => decide (a.expert < b.expert ∨ (a.expert = b.expert ∧ a.l ≤ b.l)))).map (·.l)
    ls.foldl (fun s l => match dovX d n s with | some y => entPromote y l s | none => s) s

/-- The local entries of a descriptor (R200). -/
def entsOf (d : Nat) (s : State) : List DovEnt :=
  ((upto (dpF d 1 Fld.DISP1_LCOUNT s)).map (dpF d 1 Fld.DISP1_LBASE s + ·)).filterMap (fun l =>
    if lcF' l 0 Fld.LOC0_VALID s = 1 ∧ lcF' l 0 Fld.LOC0_LDESC s = d then
      some ⟨l, lcF' l 0 Fld.LOC0_EXPERT s, lcF' l 0 Fld.LOC0_INST s, [], [], false, false, false, 0, none, false, 0, [], false⟩
    else none)

/-- The parts of a round in ascending SRC. -/
def roundParts (x : DovX) (round : Nat) : List DovPart :=
  (x.parts.filter (fun p => p.round == round)).mergeSort (fun a b => a.src ≤ b.src)

/-- Whether a round holds one part from every member. -/
def roundWhole (x : DovX) (round : Nat) (s : State) : Bool :=
  (dovMembers x.ctx s).all (fun m => x.parts.any (fun p => p.round == round && p.src == m))

/-- Round 0 closes (R210 to R212, R214). -/
def closeRound0 (x : DovX) (s : State) : State :=
  let x := { x with closed0 := true, ents := entsOf x.d s }
  let r := placeCopies false false ((copiesOf (roundParts x 0)).filter (fun c => !isSpill c)) x s
  let late := (x.parts.filter (fun p => p.round == 0)).mergeSort (fun a b => decide (a.when < b.when ∨ (a.when = b.when ∧ a.src ≤ b.src)))
  let r := placeCopies true false ((copiesOf late).filter isSpill) r.1 r.2
  defer (.dovRound x.d 0) (promoteAll x.d x.step (setDovX r.1 r.2))

/-- Round 1 closes (R210, R213). -/
def closeRound1 (x : DovX) (s : State) : State :=
  let r := placeCopies false true (copiesOf (roundParts x 1)) x s
  defer (.dovRound x.d 1) (promoteAll x.d x.step (setDovX r.1 r.2))

/-- The payload of the inbox run of an entry for one depth slice (R210). -/
def inboxBytes (rows : List DovCopy) (ds sl eb : Nat) : List Byte :=
  let slabs := (rows.length + 63) / 64
  ((upto slabs).map (fun a =>
    let rs := (rows.drop (a * 64)).take 64
    ((upto (ds / 8)).map (fun k =>
      ((upto 64).map (fun j => match rs[j]? with
        | some c => subBytes c.row ((sl * ds + k * 8) * eb) (8 * eb)
        | none => List.replicate (8 * eb) 0)).flatten)).flatten)).flatten

/-- Book the writes of an entry's inbox, tiles of 384 and above left out (R210). -/
def inboxWrite (x : DovX) (e : DovEnt) (s : State) : State :=
  let ns := lcF' e.l 1 Fld.LOC1_NSLICE s
  let eb := elBytes (partFmt x.d 0 s)
  let ds := colBlocks x.d s * 256 / ns
  let t0 := lcF' e.l 1 Fld.LOC1_IN_TILE s
  let pend := (upto (lcF' e.l 1 Fld.LOC1_IN_BCOUNT s)).flatMap (fun f =>
    let bs := inboxBytes e.rows ds (f % ns) eb
    (((cutTiles fmtFP32 ((bs.length + 4095) / 4096) bs).zipIdx).filter (fun k => decide (t0 + k.2 < 384))).map (fun k =>
      (lcF' e.l 1 Fld.LOC1_IN_BFIRST s + f, t0 + k.2, k.1.payload)))
  let s := setDovX (setEnt x { e with left := some pend.length }) s
  pend.foldl (fun s p => dovBook x.d x.step x.ctx p.1 p.2.1 (.inbox e.l p.2.2) s) s

/-- Send the result parts once every entry has been read or holds no rows (R217). -/
def resultSend (x : DovX) (s : State) : State :=
  if !x.final || x.sentR || !x.ents.all (fun e => e.read) then s
  else
    let walk := fun (a b : DovCopy) => decide (tagTok a.tag * 16 + tagRank a.tag ≤ tagTok b.tag * 16 + tagRank b.tag)
    let cs := (x.ents.map (fun e => (e.rows ++ e.dead).mergeSort walk)).flatten ++ x.others
    sendParts x 1 0 false (cs.map (fun c => (tagSrc c.tag, c))) (setDovX { x with sentR := true } s)

/-- The last round has closed and its misses are known (R212, R215): the counts are settled and the inboxes are
written. -/
def roundsDone (x : DovX) (s : State) : State :=
  let x := { x with final := true, ents := x.ents.map (fun (e : DovEnt) => if e.rows.isEmpty then { e with left := some 0, read := true } else e) }
  let s := x.ents.foldl (fun s e => tbWF (Tab.LOC (e.l * 4 + 3)) Fld.LOC3_COUNT e.rows.length s) (setDovX x s)
  let s := x.ents.foldl (fun s e =>
    if e.rows.isEmpty then s else match dovX x.d x.step s with | some y => inboxWrite y e s | none => s) s
  match dovX x.d x.step s with
  | some y => resultSend y s
  | none => s

/-- Close what rounds can close. -/
def roundCheck (d n : Nat) (s : State) : State :=
  match dovX d n s with
  | none => s
  | some x =>
    if !x.closed0 then (if roundWhole x 0 s then closeRound0 x s else s)
    else if x.sent1 && !x.final && x.ents.all (fun e => e.left.isNone) && roundWhole x 1 s then closeRound1 x s
    else s

/-- The misses of a round are known (R213): round 1 is sent, or the counts are settled. -/
def dovRound (d stage : Nat) (s : State) : State :=
  match dovX d (stepNow s) s with
  | none => s
  | some x =>
    if x.final then s
    else if stage = 0 ∧ bitF Fld.DISP0_REDIR_EN (tb (Tab.DISP (d * 2)) s) = true then
      if x.sent1 then s
      else roundCheck d x.step (sendParts x 0 1 false x.moved (setDovX { x with sent1 := true } s))
    else roundsDone x s

/-- A part for this device (R207, R208, R222). -/
def partArrive (d : Nat) (p : DovPart) (s : State) : State :=
  let c := lyF d 0 Fld.LAYER0_CTX s
  let n := stepNow s
  if ctxState c s ≠ 1 then s
  else if p.step % 2 ^ 24 ≠ n % 2 ^ 24 then bump Reg.DOV_STALE_PARTS s
  else
    let s := if p.torn && !s.dov.torn then
        log 0x040C kRank p.src (some c) [] (setDv (fun v => { v with torn := true }) s)
      else s
    match dovX d n s with
    | none => s
    | some x =>
      if p.kind = 0 then
        if x.parts.any (fun q => q.src == p.src && q.round == p.round) || x.final then s
        else
          let s := bumpBy p.copies.length Reg.DOV_COPIES_IN s
          roundCheck d n (setDovX { x with parts := x.parts ++ [p] } s)
      else resultPart x p s

/-- The layer descriptor of a context that carries a LAYER number. -/
def layerOf (c n : Nat) (s : State) : Option Nat :=
  (layers s).find? (fun d => lyF d 0 Fld.LAYER0_CTX s == c && lyF d 0 Fld.LAYER0_LAYER s == n && dispatches d s)

/-- A whole Dovetail message has arrived (R206, R209): parts for this device are taken and the others forwarded. -/
def dovMessage (src ctx : Nat) (tiles : List Tile) (s : State) : State :=
  let bs := (tiles.map (fun t => subBytes t.payload 0 4096)).flatten
  if bs.isEmpty then s
  else match layerOf ctx (leAt bs 0 8 / 2 ^ 52 % 256) s with
    | none => s
    | some d =>
      let y := selfPhys s / 8
      let n := if rankPhys src s / 8 = y then 1 else (trayMembers ctx y s).length
      let r := partsAt bs s.cycle n 0
      let kind := (r.1.head?.map (·.kind)).getD 0
      let w := colBlocks d s * 256 * elBytes (partFmt d kind s)
      let ps := giveParts bs w r.1 ((r.2 + 4095) / 4096 * 4096)
      ps.foldl (fun s p =>
        if ownRank s = some p.dst then partArrive d p s
        else bump Reg.DOV_FANOUT_PARTS (dovSend d ctx p.dst p.kind [p] s)) s

/-! ## RECV on an inbox, the outbox (R215, R216) -/

/-- The exchange of the current step that holds local entry `l`, with the entry. -/
def entNow (l : Nat) (s : State) : Option (DovX × DovEnt) :=
  s.dov.xs.findSome? (fun x =>
    if x.step == stepNow s then (x.ents.find? (fun e => e.l == l)).map (fun e => (x, e)) else none)

/-- A RECV on an inbox completes at a frame start (R106, R215). -/
def inboxRecv (b q : Nat) (s : State) : State :=
  match (seqOf b q s).blocked with
  | .recv r =>
    if xdKind r.desc s ≠ 1 then s
    else match entNow (xdLocal r.desc s) s with
      | none => s
      | some (x, e) =>
        if !x.final || e.left != some 0 || glueHeld b q s then s
        else
          let n := e.rows.length
          if n > r.maxt then benchFault b q cRecvOverflow 0 r.pc s
          else
            let s := advanceTo (frameFrom s.cycle) s
            resume b q (fun z => z.setIndex r.xr (n + b2n e.promoted * 2 ^ 31)) s
  | _ => s

/-- Read the outbox of entry `l` where RSEM holds RNUM (R216). -/
def outboxRead (l : Nat) (s : State) : State :=
  match entNow l s with
  | none => s
  | some (x, e) =>
    let sem := lcF' l 2 Fld.LOC2_RSEM s
    let num := lcF' l 2 Fld.LOC2_RNUM s
    if !x.final || e.left != some 0 || e.rows.isEmpty || e.asked || decide (semValue sem s < num) || ctxState x.ctx s != 1 then s
    else
      let s := tbWF (Tab.SEM sem) Fld.SEM_VALUE (semValue sem s - num) s
      let per := 16 / elBytes (partFmt x.d 1 s)
      let need := (upto ((e.rows.length + per - 1) / per)).flatMap (fun k =>
        (upto (colBlocks x.d s)).map (fun cb => (lcF' l 2 Fld.LOC2_OUT_BFIRST s + cb, lcF' l 2 Fld.LOC2_OUT_TILE s + k)))
      let s := setDovX (setEnt x { e with asked := true, toRead := need.length }) s
      need.foldl (fun s p => dovBook x.d x.step x.ctx p.1 p.2 (.outbox l) s) s

/-- The result row of row `j` from the outbox tiles read. -/
def outboxRow (x : DovX) (e : DovEnt) (j : Nat) (s : State) : List Byte :=
  let eb := elBytes (partFmt x.d 1 s)
  let per := 16 / eb
  ((upto (colBlocks x.d s)).map (fun cb =>
    match e.tiles.find? (fun k => k.1 == lcF' e.l 2 Fld.LOC2_OUT_BFIRST s + cb && k.2.1 == lcF' e.l 2 Fld.LOC2_OUT_TILE s + j / per) with
    | some k => subBytes k.2.2 (j % per * 256 * eb) (256 * eb)
    | none => List.replicate (256 * eb) 0)).flatten

/-! ## Transfers (R201) -/

/-- A read by the Dovetail: whether the use passes and the FORMAT is the one asked for. A checksum failure is counted on the
bench; R94 gives the Dovetail no UNIT code. -/
def dovUse (b t fmt : Nat) (e : Ecc) (s : State) : Bool × State :=
  if 384 ≤ t then (false, s)
  else
    let s := eccBad b t e (eccCount b e s)
    if !checkOk b t s then
      let f := nextFresh s
      (false, setOutcome b t 2 (countFail b t (Config.freeCode f.1 % 16) f.2))
    else (tagF Fld.TAG_FORMAT (benchTag b t s) == fmt, s)

/-- Write a whole tile into bench SRAM, keeping ORIGIN. -/
def dovLand (b t fmt flags : Nat) (payload : List Byte) (s : State) : State :=
  landTile b t ⟨mkTag (crc32c payload) fmt flags 0 0 (tagF Fld.TAG_ORIGIN (benchTag b t s)), payload⟩ s

/-- A booked transfer of the Dovetail ends. -/
def dovTransfer (i : Nat) (e : Ecc) (s : State) : State :=
  match s.dov.xfers[i]? with
  | none => s
  | some t =>
    let s := setDv (fun v => { v with xfers := v.xfers.eraseIdx i }) (advanceTo t.due s)
    match dovX t.d t.step s with
    | none => s
    | some x =>
      match t.use with
      | .source =>
        let (ok, s) := dovUse t.bench t.btile (partFmt t.d 0 s) e s
        if !ok then dovFault 0x0406 kLayer t.d x.ctx [w64 t.bench, w64 t.btile] s
        else
          let x := { x with
            srcLeft := x.srcLeft - 1
            srcTiles := x.srcTiles ++ [(t.bench, t.btile, (benchTile t.bench t.btile s).payload)] }
          if x.srcLeft = 0 then dispatchSend x (setDovX x s) else setDovX x s
      | .inbox l p =>
        let s := dovLand t.bench t.btile (partFmt t.d 0 s) 0 p s
        match x.ents.find? (fun y => y.l == l) with
        | some y => setDovX (setEnt x { y with left := y.left.map (· - 1) }) s
        | none => s
      | .outbox l =>
        let (ok, s) := dovUse t.bench t.btile (partFmt t.d 1 s) e s
        if !ok then dovFault 0x0408 kLocal l x.ctx [w64 t.bench, w64 t.btile] s
        else match x.ents.find? (fun y => y.l == l) with
          | none => s
          | some y =>
            let y := { y with
              toRead := y.toRead - 1
              tiles := y.tiles ++ [(t.bench, t.btile, (benchTile t.bench t.btile s).payload)] }
            if y.toRead ≠ 0 then setDovX (setEnt x y) s
            else
              let rows := (y.rows.zipIdx).map (fun r => { r.1 with row := outboxRow x y r.2 s })
              let x := setEnt x { y with rows := rows, tiles := [], read := true }
              resultSend x (setDovX x s)
      | .output p fl =>
        outDone t.d t.step (dovLand t.bench t.btile (dpF t.d 0 Fld.DISP0_OFMT s) fl p s)

end Sys2Proof.Machine
end

