-- ==== Sys2Proof/Machine/DovSelect.lean ====
section
/-!
DEFINITION. The Dovetail's score intake, selection, capacity walk, boundary work and the balance and placement loops
(spec/06_dovetail_selection.md, R224 and R225 of spec/07_dovetail_dispatch_combine.md).
-/
namespace Sys2Proof.Machine

/-! ## Enabling and registers (R168, R169, R192 to R194, R199, R226 to R230) -/

/-- Whether the Dovetail runs. -/
def dovRun (s : State) : Bool := bitF Fld.DOV_STATUS_RUN (rd Reg.DOV_STATUS s)
/-- The Dovetail ports of a context. -/
def dovPorts (c : Nat) (s : State) : Nat := rdF (Reg.DOV_CTX_PORTS c) Fld.DOV_CTX_PORTS_PORTS s
/-- The Gauge units of a context, ascending. -/
def gauges (c : Nat) (s : State) : List Nat := setBits 32 (rdF (Reg.DOV_CTX_GAUGE c) Fld.DOV_CTX_GAUGE_GAUGES s)
/-- The score store share of a context. -/
def storeShare (c : Nat) (s : State) : Nat := rdF (Reg.DOV_CTX_GAUGE c) Fld.DOV_CTX_GAUGE_STORE s

/-- Whether the set bits of two contexts' masks are disjoint for all pairs. -/
def masksApart : List Nat → Nat → Bool
  | [], _ => true
  | m :: ms, acc => m &&& acc == 0 && masksApart ms (acc ||| m)

/-- Expert groups of a descriptor (R172). -/
def expGroups (d : Nat) (s : State) : Nat := (lyF d 0 Fld.LAYER0_E s + 255) / 256

/-- The check of the replica map for a descriptor (R199). -/
def mapOk (d : Nat) (s : State) : Bool :=
  let ms := dovMembers (lyF d 0 Fld.LAYER0_CTX s) s
  (upto (lyF d 0 Fld.LAYER0_E s)).all (fun x =>
    let k := lyF d 0 Fld.LAYER0_TBASE s + x
    let rs := (upto (instances k s)).map (fun i => instRank k i s)
    decide rs.Nodup && rs.all (fun r => ms.contains r))

/-- The checks of R168 and R199. -/
def dovEnableOk (s : State) : Bool :=
  masksApart ((upto 16).map (fun c => dovPorts c s)) 0 &&
  masksApart ((upto 16).map (fun c => rdF (Reg.DOV_CTX_GAUGE c) Fld.DOV_CTX_GAUGE_GAUGES s)) 0 &&
  decide (sum ((upto 16).map (fun c => storeShare c s)) ≤ 2048) &&
  (layers s).all (fun d =>
    let c := lyF d 0 Fld.LAYER0_CTX s
    !(gauges c s).isEmpty && decide (expGroups d s + 1 ≤ storeShare c s) && (!dispatches d s || mapOk d s))

/-- A write of DOV_CTL (R168, R169). -/
def dovCtlWrite (v : Word) (src : Src) (s : State) : State :=
  if bitF Fld.DOV_CTL_EN v then
    if dovRun s then wr Reg.DOV_CTL 1 s
    else if dovEnableOk s then wrF Reg.DOV_STATUS Fld.DOV_STATUS_RUN 1 (wr Reg.DOV_CTL 1 s)
    else refuse src Reg.DOV_CTL s
  else wr Reg.DOV_CTL 0 s

/-- An access to a Dovetail table through its address and data registers: `n` address bits increment together,
`mask` gives the writable bits of a word and `ok` the check of the table as it would stand. -/
def dovAccess (addr data n : Nat) (key : Nat → Nat) (mask : Nat → Word) (ok : Nat → State → Bool) (a : Access) (src : Src)
    (s : State) : State :=
  let k := (rd addr s).toNat % 2 ^ n
  let next := fun (s : State) => wr addr (w64 ((k + 1) % 2 ^ n)) s
  match a with
  | .read => next (reply src (tb (key k) s) s)
  | .write v =>
    if dovRun s && !s.priv then next (refuse src data s)
    else
      let old := tb (key k) s
      let t := tbW (key k) ((old &&& ~~~(mask k)) ||| (v &&& mask k)) s
      next (if ok k t then t else refuse src data s)

/-- Whether FP32 bits are finite and not negative. -/
def fineF (b : Nat) : Bool := !isNan (f32 b) && !isInf (f32 b) && (!signF (f32 b) || isZeroF (f32 b))

/-- The check of R193. -/
def layerOk (d : Nat) (s : State) : Bool :=
  let e := lyF d 0 Fld.LAYER0_E s
  let k := lyF d 0 Fld.LAYER0_K s
  let n := lyF d 0 Fld.LAYER0_DEPTH s
  lyF d 0 Fld.LAYER0_VALID s == 0 ||
    (decide (1 ≤ e ∧ e ≤ 8192 ∧ 1 ≤ k ∧ k ≤ 16 ∧ k + n ≤ 16 ∧ k + n ≤ e ∧ lyF d 0 Fld.LAYER0_TBASE s + e ≤ 1048576) &&
      fineF (lyF d 1 Fld.LAYER1_ETA s) && fineF (lyF d 2 Fld.LAYER2_BMAX s))

/-- An access to DOV_LAYER_DATA. -/
def layerAccess (a : Access) (src : Src) (s : State) : State :=
  dovAccess Reg.DOV_LAYER_ADDR Reg.DOV_LAYER_DATA 10 Tab.LAYER
    (fun k => [0xFFFFFFFFFFCFFFFF, 0xFFFFFFFFFFFFFFFF, 0xFFFFFFFF00000000, 0].getD (k % 4) 0) (fun k t => layerOk (k / 4) t) a src s

/-- An access to DOV_SEL_DATA. -/
def selAccess (a : Access) (src : Src) (s : State) : State :=
  dovAccess Reg.DOV_SEL_ADDR Reg.DOV_SEL_DATA 21 Tab.SEL (fun k => if k % 2 = 0 then 0xFFFFFFFFFFFFF000 else 0) (fun _ _ => true) a src s

/-- The check of R227 and R228. -/
def dispOk (d : Nat) (s : State) : Bool :=
  let w := dpF d 0 Fld.DISP0_WB s
  dpF d 0 Fld.DISP0_VALID s == 0 ||
    (rowFmt (dpF d 0 Fld.DISP0_IFMT s) && rowFmt (dpF d 0 Fld.DISP0_RFMT s) && rowFmt (dpF d 0 Fld.DISP0_OFMT s) &&
      decide (1 ≤ w ∧ w ≤ 32 ∧ dpF d 0 Fld.DISP0_SRC_BFIRST s + w ≤ 1176 ∧ dpF d 1 Fld.DISP1_OUT_BFIRST s + w ≤ 1176 ∧
        dpF d 1 Fld.DISP1_LBASE s + dpF d 1 Fld.DISP1_LCOUNT s ≤ 4096))

/-- An access to DOV_DISP_DATA. -/
def dispAccess (a : Access) (src : Src) (s : State) : State :=
  dovAccess Reg.DOV_DISP_ADDR Reg.DOV_DISP_DATA 9 Tab.DISP
    (fun k => if k % 2 = 0 then 0xFFFFFFFFFFFFFC00 else 0xFFFFFFFFFFFFFFFF) (fun k t => dispOk (k / 2) t) a src s

/-- An access to DOV_MAP_DATA. -/
def mapAccess (a : Access) (src : Src) (s : State) : State :=
  dovAccess Reg.DOV_MAP_ADDR Reg.DOV_MAP_DATA 22 Tab.MAP
    (fun k => [0x3FFFFFFFFFFFFFFF, 0xFFFFFFFFFFFFFFFF, 0xFFFFFFFF00000000, 0].getD (k % 4) 0) (fun _ _ => true) a src s

/-- The check of R230. -/
def locOk (l : Nat) (s : State) : Bool :=
  let n := lcF' l 1 Fld.LOC1_NSLICE s
  lcF' l 0 Fld.LOC0_VALID s == 0 ||
    (decide (n ≠ 0 ∧ dpF (lcF' l 0 Fld.LOC0_LDESC s) 0 Fld.DISP0_WB s * 32 % n = 0 ∧
      lcF' l 1 Fld.LOC1_IN_BFIRST s + lcF' l 1 Fld.LOC1_IN_BCOUNT s ≤ 1176 ∧ 1 ≤ lcF' l 1 Fld.LOC1_MAXC s))

/-- An access to DOV_LOC_DATA. -/
def locAccess (a : Access) (src : Src) (s : State) : State :=
  dovAccess Reg.DOV_LOC_ADDR Reg.DOV_LOC_DATA 14 Tab.LOC
    (fun k => [0xFFFFFFFFFFFFFFFF, 0xFFFFFFFFFFFFF800, 0xFFFFFFFFFFFFFF00, 0].getD (k % 4) 0) (fun k t => locOk (k / 4) t) a src s

/-- A write of a register that R169 governs. -/
def dovRegWrite (off : Nat) (mask v : Word) (src : Src) (s : State) : State :=
  if dovRun s && !s.priv then refuse src off s else wr off ((rd off s &&& ~~~mask) ||| (v &&& mask)) s

/-- A write of DOV_CTX_TOKENS (R192). -/
def tokensWrite (c : Nat) (v : Word) (src : Src) (s : State) : State :=
  if getF Fld.DOV_CTX_TOKENS_TOKENS v > 16384 then refuse src (Reg.DOV_CTX_TOKENS c) s
  else wr (Reg.DOV_CTX_TOKENS c) (v &&& 0x7FFF) s

/-! ## Descriptors of a step (R170, R171) -/

/-- The descriptor of index `d` in the current step. -/
def dovDesc (d : Nat) (s : State) : Option DovDesc := s.dov.descs.find? (fun x => x.d == d)
/-- Store a descriptor of the step. -/
def setDesc (x : DovDesc) (s : State) : State :=
  setDv (fun v => { v with descs := v.descs.map (fun y => if y.d = x.d then x else y) }) s

/-- DOV_STATUS.ACTIVE: the contexts with a descriptor started and not done. -/
def dovActive (s : State) : Nat :=
  (upto 16).foldl (fun m c =>
    if s.dov.descs.any (fun x => x.ctx == c && x.started.isSome && x.done.isNone) then m + 2 ^ c else m) 0

/-- The ACTIVE slots of a context, ascending (R198). -/
def activeSlots (c : Nat) (s : State) : List Nat := (usedSlots s).filter (fun n => slotIn c n s && slotState n s == 1)

/-- The descriptors that a new step takes for a context (R170). -/
def stepDescs (c : Nat) (s : State) : List DovDesc :=
  if ctxState c s ≠ 1 then []
  else
    let map := rdF (Reg.DOV_CTX_DISP c) Fld.DOV_CTX_DISP_SLOTMAP s = 1 ∧ growth c s ≠ 0
    ((layers s).filter (fun d => lyF d 0 Fld.LAYER0_CTX s == c)).map (fun d =>
      ⟨d, c, rdF (Reg.DOV_CTX_TOKENS c) Fld.DOV_CTX_TOKENS_TOKENS s, stepNow s, none, none, [], [], [], 0, 0, [],
        if map then activeSlots c s else []⟩)

/-- The exchange of a descriptor, where it has a valid dispatch descriptor and this device is a member of the group. -/
def stepX (x : DovDesc) (s : State) : Option DovX :=
  match ownRank s with
  | some r =>
    if dispatches x.d s && (dovMembers x.ctx s).contains r then
      some ⟨x.d, x.ctx, x.step, x.num, false, [], [], 0, [], false, false, false, [], false, false, [], [], [], [], false, [], false⟩
    else none
  | none => none

/-- A new step begins: every RUNNING context's valid descriptors are taken where the Dovetail runs (R170). What an
earlier step still has to send or to write is kept. -/
def dovNewStep (s : State) : State :=
  let ds := if dovRun s then (upto 16).flatMap (fun c => stepDescs c s) else []
  let old := s.dov.xs.filter (fun x => (x.walked && !x.sent0) || (x.closedR && !x.signalled))
  setDv (fun v => { v with descs := ds, xs := old ++ ds.filterMap (fun x => stepX x s), disc := [], torn := false }) s

/-- The descriptor is done (R170, R204). -/
def descDone (d : Nat) (s : State) : State :=
  match dovDesc d s with
  | none => s
  | some x =>
    let s := setDesc { x with done := some s.cycle, store := [] } s
    match dovX d x.step s with
    | some y => if y.walked then s else dispatchBegin y s
    | none => s

/-- The cycle in which the next descriptor of a context may start: none while one before it is not done. -/
def startCycle (x : DovDesc) (s : State) : Option Nat :=
  let before := s.dov.descs.filter (fun y => y.ctx == x.ctx && decide (y.d < x.d))
  if before.all (fun y => y.done.isSome) then
    some (before.foldl (fun m y => max m (y.done.getD 0 + 1)) (rd Reg.TIR_STEP_START s).toNat)
  else none

/-- A layer descriptor starts (R170, R181). -/
def descStart (d : Nat) (s : State) : State :=
  match dovDesc d s with
  | none => s
  | some x =>
    match x.started, startCycle x s with
    | none, some c =>
      if ctxState x.ctx s ≠ 1 ∨ bitAt s.glueHold x.ctx = true then s
      else
        let s := advanceTo c s
        let s := setDesc { x with started := some s.cycle, walkFree := s.cycle } s
        if lyF d 0 Fld.LAYER0_LAYER_SKIP s = 1 then
          descDone d (setDesc { x with started := some s.cycle, walked := x.num } (bumpBy x.num Reg.DOV_TOKEN_SKIP s))
        else if x.num = 0 then descDone d s
        else s
    | _, _ => s

/-! ## Score intake (R172 to R176) -/

/-- How many tiles of a kind a descriptor takes: expert group 0 to 31, or 32 for skip tiles. -/
def tilesWanted (x : DovDesc) (kind : Nat) (s : State) : Nat :=
  if lyF x.d 0 Fld.LAYER0_LAYER_SKIP s = 1 then 0
  else if kind = 32 then (if lyF x.d 0 Fld.LAYER0_SKIP_EN s = 1 then (x.num + 1023) / 1024 else 0)
  else if kind < expGroups x.d s then (x.num + 3) / 4 else 0

/-- Tiles of a kind that a descriptor has taken. -/
def tilesTaken (x : DovDesc) (kind : Nat) : Nat := smGet (fun _ => 0) x.cnt kind

/-- Whether tokens `a` to `b - 1` have all been read at cycle `now`. -/
def tokensRead (x : DovDesc) (a b now : Nat) : Bool :=
  ((upto (min b x.num - a)).map (a + ·)).all (fun t => x.toks.any (fun k => k.t == t && decide (k.readEnd ≤ now)))

/-- Whether a held tile still occupies the share: its tokens have not all been read (R176). -/
def tileHeld (x : DovDesc) (now : Nat) (h : Nat × Nat × Tile) : Bool :=
  if h.1 = 32 then !tokensRead x (h.2.1 * 1024) (h.2.1 * 1024 + 1024) now
  else !tokensRead x (h.2.1 * 4) (h.2.1 * 4 + 4) now

/-- Tiles of a context's share in use. -/
def shareUsed (c : Nat) (s : State) : Nat :=
  sum ((s.dov.descs.filter (fun x => x.ctx == c)).map (fun x => (x.store.filter (tileHeld x s.cycle)).length))

/-- A tile reaches Dovetail port `p` (R173 to R176). -/
def tileArrive (p remote : Nat) (x : Tile) (s : State) : State :=
  let owner := (upto 16).find? (fun c => bitAt (dovPorts c s) p)
  let want : Option DovDesc := match owner with
    | some c =>
      if ctxState c s ≠ 1 ∨ remote > 32 then none
      else s.dov.descs.find? (fun y => y.ctx == c && y.done.isNone && decide (tilesTaken y remote < tilesWanted y remote s))
    | none => none
  match want with
  | none =>
    let s := bump Reg.DOV_INTAKE_DISCARD s
    match owner with
    | some c =>
      if s.dov.disc.contains c then s
      else log 0x0403 kContext c (some c) [w64 (0x600 + p), w64 remote] (setDv (fun v => { v with disc := v.disc ++ [c] }) s)
    | none => s
  | some y =>
    if tagF Fld.TAG_CRC x.tag ≠ crc32c x.payload ∨ tagF Fld.TAG_FORMAT x.tag ≠ fmtFP32 then
      dovFault 0x0401 kLayer y.d y.ctx [w64 (0x600 + p), w64 (tagF Fld.TAG_CRC x.tag)] s
    else if storeShare y.ctx s ≤ shareUsed y.ctx s then dovFault 0x0402 kLayer y.d y.ctx [w64 (0x600 + p)] s
    else
      let k := tilesTaken y remote
      setDesc { y with cnt := smPut (fun _ => 0) y.cnt remote (k + 1), store := y.store ++ [(remote, k, x)] }
        (bump Reg.DOV_SCORE_TILES s)

/-- The MOVE.T of side `q` toward a Dovetail port whose next tile lands first. -/
def dovMove (b q : Nat) (s : State) : Option Run :=
  (sideOf b q s).moveQ.find? (fun r => r.due != 0 && decide (r.prog < r.op.num) &&
    isDovPort (getF Fld.FDESC_ENDPOINT (fdescOf b r.op.aux s)))

/-- The next tile of a MOVE.T lands at its Dovetail port (R105, R173). -/
def scoreArrive (b q : Nat) (e : Ecc) (s : State) : State :=
  match dovMove b q s with
  | none => s
  | some r =>
    let d := fdescOf b r.op.aux s
    let last := (slotsFrom (getF Fld.FDESC_SLOTS d) (16 * (r.prog + 1)) r.start).getLastD r.start
    let s := advanceTo (last + floorLatency d) s
    let t := r.op.tile + r.prog
    let s := eccBad b t e (eccCount b e s)
    let x := benchTile b t s
    let (x, s) := if s.sbad.contains (btKey b t) then
        let f := nextFresh s
        (({ x with payload := subBytes (Config.spoiled f.1) 0 4096 } : Tile), f.2)
      else (x, s)
    let s := setMove b q r (some { r with prog := r.prog + 1 }) s
    tileArrive (getF Fld.FDESC_ENDPOINT d - 0x600) (getF Fld.FDESC_REMOTE d) x s

/-! ## Selection (R177 to R181) -/

/-- The held tile of a kind and index. -/
def heldTile (x : DovDesc) (kind k : Nat) : Option Tile :=
  (x.store.find? (fun h => h.1 == kind && h.2.1 == k)).map (·.2.2)

/-- Whether the token group of token `t` is ready (R177). -/
def groupReady (x : DovDesc) (t : Nat) (s : State) : Bool :=
  (upto (expGroups x.d s)).all (fun g => decide (t / 4 < tilesTaken x g)) &&
    (lyF x.d 0 Fld.LAYER0_SKIP_EN s == 0 || decide (t / 1024 < tilesTaken x 32))

/-- The raw scores of a token's experts. -/
def rawScores (x : DovDesc) (t : Nat) (s : State) : List FVal :=
  (((upto (expGroups x.d s)).map (fun g =>
    match heldTile x g (t / 4) with
    | some y => (groupLe 4 256 (subBytes y.payload (t % 4 * 1024) 1024)).map f32
    | none => [])).flatten).take (lyF x.d 0 Fld.LAYER0_E s)

/-- Whether token `t` is skipped by its predicate (R181). -/
def tokenSkips (x : DovDesc) (t : Nat) (s : State) : Bool :=
  lyF x.d 0 Fld.LAYER0_SKIP_EN s == 1 &&
    (match heldTile x 32 (t / 1024) with
     | some y => ltF (.fin false 0 0) (f32 (leAt y.payload (t % 1024 * 4) 4))
     | none => false)

/-- Whether key `a` ranks below key `b` (R178). -/
def keyBelow (a b : FVal) : Bool := if isNan a then !isNan b else if isNan b then false else ltF a b

/-- The experts of a descriptor by key, highest first, the lower index first on equal keys (R178). -/
def ranked (x : DovDesc) (raw : List FVal) (s : State) : List Nat :=
  let base := lyF x.d 0 Fld.LAYER0_TBASE s
  let keys := (raw.zipIdx).map (fun p => (p.2, (addStep p.1 (f32 (seF (base + p.2) 0 Fld.SEL0_BIAS s))).1))
  (keys.mergeSort (fun a b => !keyBelow a.2 b.2)).map (·.1)

/-- The greatest of a list of scores, NaN where one is NaN. -/
def maxOf : List FVal → FVal
  | [] => .nan
  | v :: vs => vs.foldl maxF v

/-- The weights of a token (R179): NORM, raw scores of its selection, raw scores of all experts, WSCALE. -/
def weights (norm : Nat) (sel all : List FVal) (scale : FVal) : List FVal :=
  let zero : FVal := .fin false 0 0
  let add := fun (a b : FVal) => (addStep a b).1
  let mul := fun (a b : FVal) => (mulStep a b).1
  let ex := fun (m v : FVal) => (fnExp (subStep v m).1).1
  let w :=
    if norm = 0 then sel
    else if norm = 1 then
      let xs := sel.map (ex (maxOf sel))
      let q := (fnRecip (xs.foldl add zero)).1
      xs.map (fun v => mul v q)
    else if norm = 2 then
      let m := maxOf all
      let q := (fnRecip ((all.map (ex m)).foldl add zero)).1
      sel.map (fun v => mul (ex m v) q)
    else
      let q := (fnRecip (sel.foldl add zero)).1
      sel.map (fun v => mul v q)
  w.map (fun v => mul v scale)

/-- Cycles that a token occupies its Gauge unit (R177). -/
def gaugeCycles (d : Nat) (skip : Bool) (s : State) : Nat :=
  let n := (lyF d 0 Fld.LAYER0_E s + 127) / 128
  if skip then 1 else if lyF d 0 Fld.LAYER0_NORM s = 2 then 2 * n else n

/-- Cycles from the last read to the ready record (R180); a skipped token's record takes as long. -/
def readyCycles (d : Nat) (s : State) : Nat :=
  let k := lyF d 0 Fld.LAYER0_K s
  match lyF d 0 Fld.LAYER0_NORM s with
  | 0 => 12
  | 3 => 28 + k
  | _ => 40 + k

/-- A Gauge unit starts token `t` of descriptor `d` (R177 to R180). -/
def gaugeStart (d t : Nat) (s : State) : State :=
  match dovDesc d s with
  | none => s
  | some x =>
    let n := (gauges x.ctx s).length
    let free : Option Nat := if t < n then some 0 else (x.toks.find? (fun k => k.t + n == t)).map (·.readEnd)
    match x.started, free with
    | some c0, some c1 =>
      if x.done.isSome || n == 0 || decide (x.num ≤ t) || x.toks.any (fun k => k.t == t) || !groupReady x t s then s
      else
        let s := advanceTo (max c0 c1) s
        let skip := tokenSkips x t s
        let raw := if skip then [] else rawScores x t s
        let k := lyF d 0 Fld.LAYER0_K s
        let top := (ranked x raw s).take (k + lyF d 0 Fld.LAYER0_DEPTH s)
        let sel := (top.take k).map (fun e => raw.getD e .nan)
        let ws := if skip then [] else weights (lyF d 0 Fld.LAYER0_NORM s) sel raw (f32 (lyF d 1 Fld.LAYER1_WSCALE s))
        let fin := s.cycle + gaugeCycles d skip s
        let k : DovTok := ⟨t, skip, raw.any isNan, top, ws.map toF32, fin, fin - 1 + readyCycles d s, false⟩
        setDesc { x with toks := x.toks ++ [k] } s
    | _, _ => s

/-- The selection record of a token is ready (R178, R180). -/
def selectionReady (d t : Nat) (s : State) : State :=
  match dovDesc d s with
  | none => s
  | some x =>
    match x.toks.find? (fun k => k.t == t && !k.formed) with
    | none => s
    | some k =>
      let s := advanceTo k.ready s
      let s := if k.nan then bump Reg.DOV_SCORE_NAN s else s
      setDesc { x with toks := x.toks.map (fun y => if y.t = t then { y with formed := true } else y) } s

/-! ## The capacity walk (R182 to R189, R224) -/

/-- How the walk of a token stands: copies per instance, NEXT candidates taken, room tests beyond the first of each rank,
and the copies admitted as (rank, expert, instance, tag). -/
structure Walk where
  used : SMap Nat
  taken : List Nat
  tests : Nat
  out : List (Nat × Nat × Nat × Nat)
  deriving DecidableEq, Repr

/-- Whether instance `i` of expert `x` has room (R183). -/
def hasRoom (base x i : Nat) (w : Walk) (s : State) : Bool :=
  let cap := seF (base + x) 0 Fld.SEL0_CAP s
  cap == 0xFFFF || decide (smGet (fun _ => 0) w.used (x * 4 + i) < cap)

/-- Book a copy. -/
def walkBook (r x i tag : Nat) (w : Walk) : Walk :=
  { w with used := smPut (fun _ => 0) w.used (x * 4 + i) (smGet (fun _ => 0) w.used (x * 4 + i) + 1), out := w.out ++ [(r, x, i, tag)] }

/-- The first of a list of instances with room, and the tests that it took. -/
def firstRoom (base x : Nat) (w : Walk) (s : State) : List Nat → Nat → Option Nat × Nat
  | [], n => (none, n)
  | i :: l, n => if hasRoom base x i w s then (some i, n + 1) else firstRoom base x w s l (n + 1)

/-- What the NEXT candidates give a rank: a null choice, a booking, or neither (R185). -/
inductive NextRes where
  | null (c : Nat)
  | book (c y i : Nat)
  | none
  deriving DecidableEq, Repr

/-- Try the NEXT candidates from place `c` on; the number counts room tests. -/
def tryNext (base tag : Nat) (w : Walk) (s : State) : List (Nat × Nat) → Nat → NextRes × Nat
  | [], n => (.none, n)
  | (c, y) :: l, n =>
    if w.taken.contains c then tryNext base tag w s l n
    else if seF (base + y) 0 Fld.SEL0_NULL s = 1 then (.null c, n)
    else
      let i := tagHash tag % instances (base + y) s
      if hasRoom base y i w s then (.book c y i, n + 1) else tryNext base tag w s l (n + 1)

/-- Add 1 to LOAD, or to DEMAND, with saturation. -/
def countUp (key : Nat) (f : Fld) (s : State) : State := tbWF key f (min (tbF key f s + 1) (2 ^ 32 - 1)) s

/-- The walk of one rank of a token (R185, R186). -/
def walkRank (d k r : Nat) (tag : Nat) (cand : List Nat) (w : Walk) (s : State) : Walk × State :=
  let base := lyF d 0 Fld.LAYER0_TBASE s
  let x := cand.getD r 0
  let s := if lyF d 0 Fld.LAYER0_BAL_EN s = 1 then countUp (Tab.SEL ((base + x) * 2 + 1)) Fld.SEL1_LOAD s else s
  let null := seF (base + x) 0 Fld.SEL0_NULL s = 1
  let s := if dpF d 0 Fld.DISP0_PLACE_EN s = 1 ∧ ¬null then countUp (Tab.MAP ((base + x) * 4 + 2)) Fld.MAP2_DEMAND s else s
  if null then (w, bump Reg.DOV_NULL_COPIES s)
  else
    let n := instances (base + x) s
    let h := tagHash tag % n
    let p := seF (base + x) 0 Fld.SEL0_OVF s
    if hasRoom base x h w s then (walkBook r x h tag w, s)
    else
      let (o, k1) := if p ≥ 2 then firstRoom base x w s ((upto (n - 1)).map (fun j => (h + j + 1) % n)) 0 else (none, 0)
      let w := { w with tests := w.tests + k1 }
      match o with
      | some i => (walkBook r x i (tag + flOther) w, bump Reg.DOV_OVF_REPLICA s)
      | none =>
        let key := Tab.SEL ((base + x) * 2 + 1)
        let s := tbWF key Fld.SEL1_OVFCNT (tbF key Fld.SEL1_OVFCNT s + 1) s
        let next := if p = 1 ∨ p = 3 then ((cand.zipIdx).filter (fun c => decide (k ≤ c.2))).map (fun c => (c.2, c.1)) else []
        let (res, k2) := tryNext base tag w s next 0
        let w := { w with tests := w.tests + k2 }
        match res with
        | .null c => ({ w with taken := w.taken ++ [c] }, bump Reg.DOV_NULL_COPIES s)
        | .book c y i => (walkBook r y i (tag + flSubst) { w with taken := w.taken ++ [c] }, bump Reg.DOV_OVF_NEXT s)
        | .none =>
          if lyF d 0 Fld.LAYER0_SPILL s = 1 then
            ({ w with out := w.out ++ [(r, x, h, tag + flSpill)] }, bump Reg.DOV_OVF_SPILL s)
          else (w, bump Reg.DOV_OVF_DROP s)

/-- The walk of the ranks of a token in turn. -/
def walkRanks (d k tag0 : Nat) (cand : List Nat) : List Nat → Walk → State → Walk × State
  | [], w, s => (w, s)
  | r :: rs, w, s =>
    let p := walkRank d k r (tag0 + r * 2 ^ 40) cand w s
    walkRanks d k tag0 cand rs p.1 p.2

/-- The tag of token `t` before its rank and flags are set (R196, R198). -/
def tokenTag (x : DovDesc) (t : Nat) (s : State) : Nat :=
  let g := growth x.ctx s
  let slot := match (if g = 0 then none else x.slots[t / g]?) with | some n => n | none => 0x3FFFF
  (ownRank s).getD 0 * 2 ^ 44 + lyF x.d 0 Fld.LAYER0_LAYER s * 2 ^ 32 + t * 2 ^ 18 + slot

/-- The token's copies go into the exchange of its descriptor (R204, R218). -/
def walkOut (x : DovDesc) (k : DovTok) (w : Walk) (s : State) : State :=
  match dovX x.d x.step s with
  | none => s
  | some y =>
    let base := lyF x.d 0 Fld.LAYER0_TBASE s
    let fb := ((k.cand.zipIdx).find? (fun c => decide (lyF x.d 0 Fld.LAYER0_K s ≤ c.2) && !w.taken.contains c.2)).map (·.1)
    let out := w.out.map (fun o => (instRank (base + o.2.1) o.2.2.1 s, (⟨o.2.2.2, o.2.1, o.2.2.1, fb, 0, [], 0⟩ : DovCopy)))
    let exp := w.out.map (fun o => (⟨k.t, o.1, k.ws.getD o.1 0, instRank (base + o.2.1) o.2.2.1 s, none⟩ : DovExp))
    setDovX { y with out := y.out ++ out, exp := y.exp ++ exp } s

/-- Token `t` of descriptor `d` enters the capacity walk (R185, R188); the last one completes its descriptor. -/
def walkEnter (d t : Nat) (s : State) : State :=
  match dovDesc d s with
  | none => s
  | some x =>
    match x.toks.find? (fun k => k.t == t && k.formed) with
    | none => s
    | some k =>
      if x.walked ≠ t ∨ x.done.isSome = true then s
      else
        let s := advanceTo (max k.ready x.walkFree) s
        let kk := lyF d 0 Fld.LAYER0_K s
        let (w, s) := if k.skip then ((⟨x.used, [], 0, []⟩ : Walk), bump Reg.DOV_TOKEN_SKIP s)
          else walkRanks d kk (tokenTag x t s) k.cand (upto kk) ⟨x.used, [], 0, []⟩ s
        let x := { x with walked := t + 1, walkFree := s.cycle + w.tests + 1, used := w.used }
        let s := walkOut x k w (setDesc x s)
        if t + 1 = x.num then descDone d (advanceTo (s.cycle + w.tests) s) else s

/-! ## Balance and placement (R190, R191, R224, R225) -/

/-- The code of a balance update's all-reduce. -/
def codeBal (c : Nat) : Nat := 256 + c
/-- The code of a placement update's all-reduce. -/
def codePlace (c : Nat) : Nat := 512 + c

/-- The valid layer descriptors of a context with BAL_EN. -/
def balLayers (c : Nat) (s : State) : List Nat :=
  (layers s).filter (fun d => lyF d 0 Fld.LAYER0_CTX s == c && lyF d 0 Fld.LAYER0_BAL_EN s == 1)
/-- The valid layer descriptors of a context with PLACE_EN. -/
def placeLayers (c : Nat) (s : State) : List Nat :=
  (layers s).filter (fun d => lyF d 0 Fld.LAYER0_CTX s == c && dispatches d s && dpF d 0 Fld.DISP0_PLACE_EN s == 1)

/-- The selection entries of a descriptor, ascending. -/
def layerEntries (d : Nat) (s : State) : List Nat :=
  (upto (lyF d 0 Fld.LAYER0_E s)).map (lyF d 0 Fld.LAYER0_TBASE s + ·)
/-- The entries of a descriptor with BAL. -/
def balEntries (d : Nat) (s : State) : List Nat := (layerEntries d s).filter (fun x => seF x 0 Fld.SEL0_BAL s == 1)
/-- Several descriptors' entries, ascending and each once. -/
def entryUnion (ls : List (List Nat)) : List Nat := (ls.flatten.mergeSort (· ≤ ·)).eraseDups

/-- Tiles of unsigned 64-bit integers, 512 to a tile (R341). -/
def sumTiles (l : List Nat) : List Tile := let bs := dovWords l; cutTiles fmtFP32 ((bs.length + 4095) / 4096) bs
/-- The integers of such tiles. -/
def sumNats (n : Nat) (ts : List Tile) : List Nat :=
  (groupLe 8 n ((ts.map (fun t => subBytes t.payload 0 4096)).flatten))

/-- The sum of an entry from a list aligned to entries. -/
def sumAt (es sums : List Nat) (x : Nat) : Nat := sums.getD (es.idxOf x) 0

/-- The new bias of an entry (R190) and whether it was clamped. -/
def biasNext (bias eta bmax : FVal) (l n tot : Nat) : FVal × Nat :=
  if l * n = tot then (bias, 0)
  else
    let b := if l * n < tot then (addStep bias eta).1 else (subStep bias eta).1
    let (b, k) := if ltF bmax b then (bmax, 1) else (b, 0)
    if ltF b (negF bmax) then (negF bmax, k + 1) else (b, k)

/-- The bias update of one descriptor. -/
def biasUpdate (es sums : List Nat) (d : Nat) (s : State) : State :=
  let p := balEntries d s
  let tot := sum (p.map (sumAt es sums))
  p.foldl (fun s x =>
    let r := biasNext (f32 (seF x 0 Fld.SEL0_BIAS s)) (f32 (lyF d 1 Fld.LAYER1_ETA s)) (f32 (lyF d 2 Fld.LAYER2_BMAX s))
      (sumAt es sums x) p.length tot
    let s := bumpBy r.2 Reg.DOV_BIAS_CLAMP s
    if sumAt es sums x * p.length = tot then s else tbWF (Tab.SEL (x * 2)) Fld.SEL0_BIAS (toF32 r.1) s) s

/-- The LOADs of an update and its COUNT return to 0. -/
def balReset (c : Nat) (s : State) : State :=
  let es := entryUnion ((balLayers c s).map (fun d => balEntries d s))
  let s := es.foldl (fun s x => tbWF (Tab.SEL (x * 2 + 1)) Fld.SEL1_LOAD 0 s) s
  wrF (Reg.DOV_CTX_BAL c) Fld.DOV_CTX_BAL_COUNT 0 s

/-- A balance update with the group's sums (R190). -/
def balApply (c : Nat) (sums : List Nat) (s : State) : State :=
  let es := entryUnion ((balLayers c s).map (fun d => balEntries d s))
  let s := (balLayers c s).foldl (fun s d => biasUpdate es sums d s) s
  bump Reg.DOV_BAL_UPDATES (balReset c s)

/-- The replica counts of a descriptor's experts from their demand averages (R224). -/
def wantReps (ema : List FVal) (hot : FVal) : List Nat :=
  let tot := ema.foldl (fun a v => (addStep a v).1) (.fin false 0 0)
  let th := (mulStep (mulStep tot (fnRecip (rnta (ofNatF ema.length)).1).1).1 hot).1
  ema.map (fun v => 1 + (([1, 2, 3].filter (fun j => ltF (mulStep th (ofNatF j)).1 v)).length))

/-- How a placement stands: each expert's replica count and ranks, the load p and added replicas per member. -/
structure Spread where
  m : List Nat
  ranks : List (List Nat)
  p : List (Nat × FVal)
  held : List (Nat × Nat)
  deriving DecidableEq, Repr

/-- The load of a member. -/
def Spread.load (a : Spread) (q : Nat) : FVal := ((a.p.find? (fun x => x.1 == q)).map (·.2)).getD (.fin false 0 0)
/-- The added replicas of a member. -/
def Spread.has (a : Spread) (q : Nat) : Nat := ((a.held.find? (fun x => x.1 == q)).map (·.2)).getD 0
/-- Add a share of load to a member, and a replica where `rep`. -/
def Spread.add (a : Spread) (q : Nat) (v : FVal) (rep : Bool) : Spread :=
  { a with
    p := (q, (addStep (a.load q) v).1) :: a.p.filter (fun x => x.1 != q)
    held := if rep then (q, a.has q + 1) :: a.held.filter (fun x => x.1 != q) else a.held }

/-- The member that takes a new replica of an expert with instances on `rs` (R224). -/
def Spread.best (a : Spread) (members rs : List Nat) (repmax : Nat) : Option Nat :=
  (((members.filter (fun q => !rs.contains q && decide (a.has q < repmax))).mergeSort (· ≤ ·))).foldl (fun o q =>
    match o with
    | none => some q
    | some k => if ltF (a.load q) (a.load k) then some q else some k) none

/-- Give an expert its replicas from number `i` on. -/
def Spread.grow (members : List Nat) (repmax x : Nat) (share : FVal) : Nat → Nat → Spread → Spread
  | 0, _, a => a
  | n + 1, i, a =>
    let rs := a.ranks.getD x []
    match a.best members rs repmax with
    | none => { a with m := a.m.set x i }
    | some q => Spread.grow members repmax x share n (i + 1) ({ a with ranks := a.ranks.set x (rs ++ [q]) }.add q share true)

/-- The proposal for a descriptor (R224): each expert's ranks. -/
def propose (ema : List FVal) (hot : FVal) (act : List (List Nat)) (members : List Nat) (repmax : Nat) : List (List Nat) :=
  let m := wantReps ema hot
  let share := fun (x : Nat) => (mulStep (ema.getD x .nan) (fnRecip (ofNatF (m.getD x 1))).1).1
  let n := ema.length
  let a : Spread := ⟨m, (act.zip m).map (fun p => p.1.take p.2), [], []⟩
  let a := (upto n).foldl (fun a x => a.add ((act.getD x []).getD 0 0) (share x) false) a
  let a := (upto n).foldl (fun a x => ((a.ranks.getD x []).drop 1).foldl (fun a q => a.add q (share x) true) a) a
  let order := ((ema.zipIdx).mergeSort (fun u v => !keyBelow u.1 v.1)).map (·.2)
  let a := order.foldl (fun a x =>
    let k := (a.ranks.getD x []).length
    Spread.grow members repmax x (share x) (m.getD x 1 - k) k a) a
  a.ranks

/-- The word of a map with the given ranks (R229). -/
def mapWord (rs : List Nat) : Word :=
  w64 ((rs.length - 1) * 2 ^ 60 + sum ((rs.zipIdx).map (fun p => p.1 * 2 ^ (15 * p.2))))

/-- The placement update of one descriptor. -/
def placeUpdate (c : Nat) (es sums : List Nat) (d : Nat) (s : State) : State :=
  let xs := layerEntries d s
  let alpha := f32 (rdF (Reg.DOV_CTX_PLACE2 c) Fld.DOV_CTX_PLACE2_ALPHA s)
  let ema := xs.map (fun x =>
    let old := f32 (mpF x 2 Fld.MAP2_EMA s)
    (addStep old (mulStep alpha (subStep (rnta (ofNatF (sumAt es sums x))).1 old).1).1).1)
  let s := (xs.zip ema).foldl (fun s p => tbWF (Tab.MAP (p.1 * 4 + 2)) Fld.MAP2_EMA (toF32 p.2) s) s
  if s.dov.applying then s
  else
    let act := xs.map (fun x => (upto (instances x s)).map (fun i => instRank x i s))
    let g := rdF (Reg.DOV_CTX_PLACE c) Fld.DOV_CTX_PLACE_GROUP s
    let hot := f32 (rdF (Reg.DOV_CTX_PLACE2 c) Fld.DOV_CTX_PLACE2_HOT s)
    let r := propose ema hot act (groupRanks g s) (rdF (Reg.DOV_CTX_PLACE c) Fld.DOV_CTX_PLACE_REPMAX s)
    (xs.zip r).foldl (fun s p => tbW (Tab.MAP (p.1 * 4 + 1)) (mapWord p.2) s) s

/-- The DEMANDs of an update and its COUNT return to 0. -/
def placeReset (c : Nat) (s : State) : State :=
  let es := entryUnion ((placeLayers c s).map (fun d => layerEntries d s))
  let s := es.foldl (fun s x => tbWF (Tab.MAP (x * 4 + 2)) Fld.MAP2_DEMAND 0 s) s
  wrF (Reg.DOV_CTX_PLACE c) Fld.DOV_CTX_PLACE_COUNT 0 s

/-- A placement update with the group's sums (R224, R225). -/
def placeApply (c : Nat) (sums : List Nat) (s : State) : State :=
  let es := entryUnion ((placeLayers c s).map (fun d => layerEntries d s))
  let s := (placeLayers c s).foldl (fun s d => placeUpdate c es sums d s) s
  let s := if s.dov.applying then s
    else bump Reg.DOV_PLACE_PROPOSALS (wrF Reg.DOV_PLACE_STATUS Fld.DOV_PLACE_STATUS_READY 1 s)
  placeReset c s

/-- Start an update's all-reduce, or apply it at once where it has nothing to add up. -/
def updStart (code g c : Nat) (vals : List Nat) (now : State → State) (s : State) : State :=
  if vals.isEmpty then now s
  else defer (.colStart code g c (sumTiles vals)) (setDv (fun v => { v with upd := v.upd ++ [code] }) s)

/-- Start the placement updates that wait. -/
def placeStart (s : State) : State :=
  let cs := s.dov.place
  cs.foldl (fun s c =>
    let es := entryUnion ((placeLayers c s).map (fun d => layerEntries d s))
    updStart (codePlace c) (rdF (Reg.DOV_CTX_PLACE c) Fld.DOV_CTX_PLACE_GROUP s) c (es.map (fun x => mpF x 2 Fld.MAP2_DEMAND s))
      (placeApply c []) s) (setDv (fun v => { v with place := [] }) s)

/-- Where no update runs, the placement updates follow the balance updates, and then phase 1 goes on. -/
def updOn (s : State) : State :=
  if !s.dov.upd.isEmpty then s
  else
    let s := placeStart s
    if s.dov.upd.isEmpty then boundaryOn 2 s else s

/-- An all-reduce of the Dovetail has its sums. -/
def dovColDone (code : Nat) (ts : List Tile) (s : State) : State :=
  if !s.dov.upd.contains code then s
  else
    let s := setDv (fun v => { v with upd := v.upd.erase code }) s
    let sums := sumNats (ts.length * 512) ts
    updOn (if code < 512 then balApply (code - 256) sums s else placeApply (code - 512) sums s)

/-- An all-reduce of the Dovetail has ended in an error (R191, R224). -/
def dovColError (code cause : Nat) (s : State) : State :=
  if !s.dov.upd.contains code then s
  else
    let s := setDv (fun v => { v with upd := v.upd.erase code }) s
    updOn (if code < 512 then
        log 0x0405 kContext (code - 256) (some (code - 256)) [w64 cause] (balReset (code - 256) s)
      else log 0x040B kContext (code - 512) (some (code - 512)) [w64 cause] (placeReset (code - 512) s))

/-! ## The step boundary (R171, R190, R223, R224) -/

/-- Cut the descriptors that are not done (R171, R378). -/
def descsCut (s : State) : State :=
  ((s.dov.descs.filter (fun x => x.done.isNone)).mergeSort (fun a b => a.d ≤ b.d)).foldl (fun s x =>
    let left := x.num - x.walked
    let s := bumpBy left Reg.DOV_TOKEN_SKIP s
    descDone x.d (tcc x.ctx 4 (log 0x0404 kLayer x.d (some x.ctx) [w64 left] s))) s

/-- Cut the exchanges whose result set has not closed (R223, R378). -/
def combinesCut (s : State) : State :=
  let n := stepNow s
  ((s.dov.xs.filter (fun x => x.step == n && !x.closedR)).mergeSort (fun a b => a.d ≤ b.d)).foldl (fun s x0 =>
    match dovX x0.d n s with
    | none => s
    | some x =>
      let miss := (x.exp.filter (fun e => e.res.isNone)).length
      let s := tcc x.ctx 5 (log 0x040A kLayer x.d (some x.ctx) [w64 miss] s)
      let x := { x with closedR := true, sent1 := true, sentR := true, final := true, ents := [] }
      let keep := fun (t : DovXfer) => !(t.d == x.d && t.step == n) ||
        (match t.use with | .inbox _ _ => false | .outbox _ => false | _ => true)
      outAll x (setDovX x (setDv (fun v => { v with xfers := v.xfers.filter keep }) s))) s

/-- The counts of the balance and placement loops (R190, R224), and the updates that they make due. -/
def loopsCount (s : State) : State :=
  (upto 16).foldl (fun s c =>
    if ctxState c s ≠ 1 then s
    else
      let bal := rd (Reg.DOV_CTX_BAL c) s
      let pl := rd (Reg.DOV_CTX_PLACE c) s
      let s :=
        if getF Fld.DOV_CTX_PLACE_PERIOD pl = 0 then s
        else
          let n := getF Fld.DOV_CTX_PLACE_COUNT pl + 1
          let s := wrF (Reg.DOV_CTX_PLACE c) Fld.DOV_CTX_PLACE_COUNT n s
          if n < getF Fld.DOV_CTX_PLACE_PERIOD pl then s else setDv (fun v => { v with place := v.place ++ [c] }) s
      if getF Fld.DOV_CTX_BAL_PERIOD bal = 0 then s
      else
        let n := getF Fld.DOV_CTX_BAL_COUNT bal + 1
        let s := wrF (Reg.DOV_CTX_BAL c) Fld.DOV_CTX_BAL_COUNT n s
        if n < getF Fld.DOV_CTX_BAL_PERIOD bal then s
        else
          let es := entryUnion ((balLayers c s).map (fun d => balEntries d s))
          updStart (codeBal c) (getF Fld.DOV_CTX_BAL_GROUP bal) c (es.map (fun x => seF x 1 Fld.SEL1_LOAD s)) (balApply c []) s) s

/-- The descriptors and exchanges that a boundary cuts now. -/
def cutsNow (s : State) : Nat :=
  (s.dov.descs.filter (fun x => x.done.isNone)).length + (s.dov.xs.filter (fun x => x.step == stepNow s && !x.closedR)).length

/-- The cuts of phase 1 (R171, R223); a Dovetail that software has disabled stops here (R169). -/
def dovCuts (s : State) : State :=
  let s := combinesCut (descsCut s)
  let s := setDv (fun v => { v with descs := [] }) s
  if bitF Fld.DOV_CTL_EN (rd Reg.DOV_CTL s) then s else wrF Reg.DOV_STATUS Fld.DOV_STATUS_RUN 0 s

/-- The balance and placement updates of phase 1: whether an all-reduce runs, and the state. -/
def dovLoops (s : State) : Bool × State :=
  let s := loopsCount s
  let s := if s.dov.upd.isEmpty then placeStart s else s
  (!s.dov.upd.isEmpty, s)

/-! ## Teardown (R222, R366) -/

/-- The Dovetail's part of the teardown of context `c`: the parts that it still owes for the step go out with COUNT 0 and
TORN, and then it stops. -/
def dovTeardown (c : Nat) (s : State) : State :=
  let n := stepNow s
  let s := (s.dov.xs.filter (fun x => x.ctx == c && x.step == n)).foldl (fun s x =>
    let s := if x.sent0 then s else sendParts x 0 0 true [] s
    let s := if x.sent1 || !bitF Fld.DISP0_REDIR_EN (tb (Tab.DISP (x.d * 2)) s) then s else sendParts x 0 1 true [] s
    if x.sentR then s else sendParts x 1 0 true [] s) s
  let mine := (s.dov.xs.filter (fun x => x.ctx == c)).map (fun x => (x.d, x.step))
  setDv (fun v => { v with
    descs := v.descs.filter (fun x => x.ctx != c), xs := v.xs.filter (fun x => x.ctx != c)
    xfers := v.xfers.filter (fun t => !mine.contains (t.d, t.step)) }) s

end Sys2Proof.Machine
end

