-- ==== Sys2Proof/Machine/Intake.lean ====
section
/-!
DEFINITION. The intake rings: doorbells, record fetches and the records themselves (spec/16_host_cxl.md).
-/
namespace Sys2Proof.Machine

/-- Records that intake ring `r` holds. -/
def irSize (r : Nat) (s : State) : Nat := 2 ^ rdF (Reg.GLB_HIF_IR_CFG r) Fld.GLB_HIF_IR_CFG_LOG2SIZE s
/-- Whether intake ring `r` is enabled. -/
def irOn (r : Nat) (s : State) : Bool := bitF Fld.GLB_HIF_IR_CFG_ENABLE (rd (Reg.GLB_HIF_IR_CFG r) s)
/-- HEAD of intake ring `r`. -/
def irHead (r : Nat) (s : State) : Nat := rdF (Reg.GLB_HIF_IR_STATE r) Fld.GLB_HIF_IR_STATE_HEAD s
/-- TAIL of intake ring `r`. -/
def irTailOf (r : Nat) (s : State) : Nat := rdF (Reg.GLB_HIF_IR_STATE r) Fld.GLB_HIF_IR_STATE_TAIL s
/-- The fetches of ring `r` that are outstanding, oldest first. -/
def irFetches (r : Nat) (s : State) : List (Nat × Nat) := smGet (fun _ => []) s.host.fetch r
/-- Store the outstanding fetches of ring `r`. -/
def setFetches (r : Nat) (l : List (Nat × Nat)) (s : State) : State :=
  { s with host := { s.host with fetch := smPut (fun _ => []) s.host.fetch r l } }
/-- Host address of record `i` of ring `r`. -/
def irAddr (r i : Nat) (s : State) : Nat := rdF (Reg.GLB_HIF_IR_BASE r) Fld.GLB_HIF_IR_BASE_ADDR s * 64 + i * 64

/-- Issue fetches of up to 16 records each, at most 4 outstanding (R450); a fetch does not cross the ring's end. -/
def irFetch (r : Nat) : Nat → State → State
  | 0, s => s
  | k + 1, s =>
    let out := irFetches r s
    let n := irSize r s
    let next := (irHead r s + sum (out.map (·.2))) % n
    let left := (irTailOf r s + n - next) % n
    if !irOn r s || out.length ≥ 4 || left == 0 || decide (irTailOf r s ≥ n) then s
    else
      let m := min 16 (min left (n - next))
      irFetch r k (emit (.hostRead (irAddr r next s) (m * 64)) (setFetches r (out ++ [(next, m)]) s))

/-- A write of the intake doorbell of ring `r` (R442, R449). -/
def irTailWrite (r : Nat) (v : Word) (src : Src) (s : State) : State :=
  if s.dev = 2 ∨ s.dev = 3 then refuse src (r * 0x1000) s
  else
    let t := getF Fld.IR_TAIL_TAIL v
    let n := irSize r s
    let h := irHead r s
    if !irOn r s || decide (t ≥ n) || decide ((t + n - h) % n < (irTailOf r s + n - h) % n) then
      bump Reg.GLB_HIF_BAD_DB s
    else irFetch r 4 (wrF (Reg.GLB_HIF_IR_STATE r) Fld.GLB_HIF_IR_STATE_TAIL t s)

/-- A write of GLB_HIF_IR_CFG (R448): with ENABLE = 1 it sets HEAD and TAIL to START. -/
def irCfgWrite (r : Nat) (v : Word) (s : State) : State :=
  let cfg := Reg.GLB_HIF_IR_CFG r
  if irOn r s && getF Fld.GLB_HIF_IR_CFG_LOG2SIZE v != rdF cfg Fld.GLB_HIF_IR_CFG_LOG2SIZE s then
    bump Reg.GLB_HIF_BAD_DB s
  else
    let s := wr cfg (v &&& ~~~(maskF ⟨32, 31⟩) &&& ~~~(maskF ⟨5, 11⟩)) s
    let s := setFetches r [] s
    if bitF Fld.GLB_HIF_IR_CFG_ENABLE v then
      let st := getF Fld.GLB_HIF_IR_CFG_START v
      let i := Reg.GLB_HIF_IR_STATE r
      wrF i Fld.GLB_HIF_IR_STATE_HEAD st (wrF i Fld.GLB_HIF_IR_STATE_TAIL st s)
    else s

/-- A write of GLB_HIF_IR_BASE (R448). -/
def irBaseWrite (r : Nat) (v : Word) (s : State) : State :=
  if irOn r s then bump Reg.GLB_HIF_BAD_DB s
  else wr (Reg.GLB_HIF_IR_BASE r) (v &&& maskF Fld.GLB_HIF_IR_BASE_ADDR) s

/-- Whether an intake record is malformed (R451). -/
def recordBad (ws : List Nat) : Bool :=
  let w := fun i => ws.getD i 0
  let ty := bitsOf (w 0) 63 56
  let st := bitsOf (w 4) 25 18
  (ty != 1 && ty != 2) || bitsOf (w 0) 50 32 != 0 || bitsOf (w 1) 63 48 != 0 || bitsOf (w 2) 11 0 != 0 ||
    bitsOf (w 4) 63 26 != 0 || w 5 != 0 || w 6 != 0 || w 7 != 0 || (ty == 2 && st != 2 && st != 3)

/-- One fetched record enters (R450, R451, R157). -/
def recordEnter (r idx : Nat) (ws : List Nat) (s : State) : State :=
  let w := fun i => ws.getD i 0
  let c := bitsOf (w 0) 55 52
  if recordBad ws then
    log 0x0109 kRing r none [w64 idx, w64 (w 0)] (bump Reg.GLB_HIF_BAD_REC s)
  else if bitsOf (w 0) 63 56 = 1 then
    joinArrive ⟨c, bitsOf (w 0) 31 0, bitsOf (w 1) 27 0, bitsOf (w 1) 47 28, bitsOf (w 2) 63 12, w 3, bitAt (w 0) 51⟩ s
  else
    let n := bitsOf (w 4) 17 0
    if slotCtx n s ≠ c then bump Reg.BPM_BAD_REQ s else leaveReq n (bitsOf (w 4) 25 18) s

/-- The records of one fetch enter in index order, HEAD advancing past each. -/
def recordsEnter (r : Nat) (bytes : List Byte) : Nat → Nat → State → State
  | 0, _, s => s
  | k + 1, i, s =>
    let h := irHead r s
    let ws := (upto 8).map (fun j => leAt bytes (i * 64 + j * 8) 8)
    let s := wrF (Reg.GLB_HIF_IR_STATE r) Fld.GLB_HIF_IR_STATE_HEAD ((h + 1) % irSize r s) s
    recordsEnter r bytes k (i + 1) (recordEnter r h ws s)

/-- The oldest fetch of ring `r` returns its data, or fails, which ends every fetch of the ring (R447, R450). -/
def fetchDone (r : Nat) (data : Option (List Byte)) (s : State) : State :=
  match irFetches r s with
  | [] => s
  | (first, n) :: rest =>
    match data with
    | some bytes => irFetch r 4 (recordsEnter r bytes n 0 (setFetches r rest s))
    | none =>
      log 0x0108 kRing r none [w64 (irAddr r first s)] (bump Reg.GLB_HIF_XFER_FAIL (setFetches r [] s))

end Sys2Proof.Machine
end

