-- ==== Sys2Proof/Machine/Hash.lean ====
section
/-!
DEFINITION. SHA-256 (FIPS 180-4), HMAC and HKDF over it (RFC 2104, RFC 5869), and LMS verification (RFC 8554), which the
rules of spec/09, 14 and 18 name. Their algorithms are PRESUMED from those documents (log entry 12).
-/
namespace Sys2Proof.Machine

/-- The bytes of a number, most significant first. -/
def beBytes (n x : Nat) : List Byte := (leBytes n x).reverse

/-- The number that bytes spell, most significant first. -/
def beNat (bs : List Byte) : Nat := leNat bs.reverse

/-- Text as bytes. -/
def asciiBytes (t : String) : List Byte := t.toList.map (fun c => BitVec.ofNat 8 c.toNat)

/-! ## SHA-256 -/

/-- Rotate a 32-bit number right. -/
def rotr (x n : Nat) : Nat := (x / 2 ^ n + x * 2 ^ (32 - n)) % 2 ^ 32

/-- The round constants, first half. -/
def shaK0 : List Nat := [
  0x428a2f98, 0x71374491, 0xb5c0fbcf, 0xe9b5dba5, 0x3956c25b, 0x59f111f1, 0x923f82a4, 0xab1c5ed5,
  0xd807aa98, 0x12835b01, 0x243185be, 0x550c7dc3, 0x72be5d74, 0x80deb1fe, 0x9bdc06a7, 0xc19bf174,
  0xe49b69c1, 0xefbe4786, 0x0fc19dc6, 0x240ca1cc, 0x2de92c6f, 0x4a7484aa, 0x5cb0a9dc, 0x76f988da,
  0x983e5152, 0xa831c66d, 0xb00327c8, 0xbf597fc7, 0xc6e00bf3, 0xd5a79147, 0x06ca6351, 0x14292967]

/-- The round constants, second half. -/
def shaK1 : List Nat := [
  0x27b70a85, 0x2e1b2138, 0x4d2c6dfc, 0x53380d13, 0x650a7354, 0x766a0abb, 0x81c2c92e, 0x92722c85,
  0xa2bfe8a1, 0xa81a664b, 0xc24b8b70, 0xc76c51a3, 0xd192e819, 0xd6990624, 0xf40e3585, 0x106aa070,
  0x19a4c116, 0x1e376c08, 0x2748774c, 0x34b0bcb5, 0x391c0cb3, 0x4ed8aa4a, 0x5b9cca4f, 0x682e6ff3,
  0x748f82ee, 0x78a5636f, 0x84c87814, 0x8cc70208, 0x90befffa, 0xa4506ceb, 0xbef9a3f7, 0xc67178f2]

/-- The eight words of a hash in progress. -/
structure Sha where
  a : Nat
  b : Nat
  c : Nat
  d : Nat
  e : Nat
  f : Nat
  g : Nat
  h : Nat
  deriving DecidableEq, Repr

/-- The initial hash value. -/
def Sha.init : Sha :=
  ⟨0x6a09e667, 0xbb67ae85, 0x3c6ef372, 0xa54ff53a, 0x510e527f, 0x9b05688c, 0x1f83d9ab, 0x5be0cd19⟩

/-- One round with constant plus schedule word `kw`. -/
def Sha.round (s : Sha) (kw : Nat) : Sha :=
  let s1 := rotr s.e 6 ^^^ rotr s.e 11 ^^^ rotr s.e 25
  let ch := (s.e &&& s.f) ^^^ ((2 ^ 32 - 1 - s.e) &&& s.g)
  let t1 := s.h + s1 + ch + kw
  let s0 := rotr s.a 2 ^^^ rotr s.a 13 ^^^ rotr s.a 22
  let maj := (s.a &&& s.b) ^^^ (s.a &&& s.c) ^^^ (s.b &&& s.c)
  ⟨(t1 + s0 + maj) % 2 ^ 32, s.a, s.b, s.c, (s.d + t1) % 2 ^ 32, s.e, s.f, s.g⟩

/-- Add two hash states word by word. -/
def Sha.plus (x y : Sha) : Sha :=
  let p := fun (u v : Nat) => (u + v) % 2 ^ 32
  ⟨p x.a y.a, p x.b y.b, p x.c y.c, p x.d y.d, p x.e y.e, p x.f y.f, p x.g y.g, p x.h y.h⟩

/-- The next schedule word, from the last sixteen, newest first. -/
def shaNext (w : List Nat) : Nat :=
  let x := w.getD 1 0
  let y := w.getD 14 0
  let s1 := rotr x 17 ^^^ rotr x 19 ^^^ x / 2 ^ 10
  let s0 := rotr y 7 ^^^ rotr y 18 ^^^ y / 2 ^ 3
  (s1 + w.getD 6 0 + s0 + w.getD 15 0) % 2 ^ 32

/-- The rounds: constants left, words of the block not yet used, the words used, newest first. -/
def shaRounds : List Nat → List Nat → List Nat → Sha → Sha
  | [], _, _, s => s
  | k :: ks, w :: ws, old, s => shaRounds ks ws (w :: old) (s.round (k + w))
  | k :: ks, [], old, s =>
    let w := shaNext old
    shaRounds ks [] ((w :: old).take 16) (s.round (k + w))

/-- The sixteen words of a block. -/
def shaWords (b : List Byte) : List Nat := (List.range 16).map (fun i => beNat ((b.drop (4 * i)).take 4))

/-- Take in one block of 64 bytes. -/
def shaBlock (s : Sha) (b : List Byte) : Sha := s.plus (shaRounds (shaK0 ++ shaK1) (shaWords b) [] s)

/-- Take in `n` blocks. -/
def shaBlocks : Nat → List Byte → Sha → Sha
  | 0, _, s => s
  | n + 1, bs, s => shaBlocks n (bs.drop 64) (shaBlock s (bs.take 64))

/-- The message with its padding. -/
def shaPad (m : List Byte) : List Byte :=
  let n := m.length
  m ++ [0x80#8] ++ List.replicate ((119 - n % 64) % 64) 0#8 ++ beBytes 8 (8 * n)

/-- SHA-256. -/
def sha256 (m : List Byte) : List Byte :=
  let p := shaPad m
  let s := shaBlocks (p.length / 64) p Sha.init
  ([s.a, s.b, s.c, s.d, s.e, s.f, s.g, s.h].map (beBytes 4)).flatten

/-! ## HMAC and HKDF -/

/-- HMAC-SHA256. -/
def hmac256 (key m : List Byte) : List Byte :=
  let k := if key.length > 64 then sha256 key else key
  let k := k ++ List.replicate (64 - k.length) 0#8
  sha256 (k.map (· ^^^ 0x5C#8) ++ sha256 (k.map (· ^^^ 0x36#8) ++ m))

/-- HKDF-SHA256 with an output of 32 bytes. -/
def hkdf256 (salt secret info : List Byte) : List Byte := hmac256 (hmac256 salt secret) (info ++ [0x01#8])

/-! ## LMS verification with LMS_SHA256_M32_H15 and LMOTS_SHA256_N32_W8 -/

/-- A Winternitz chain from step `a` over `n` steps. -/
def lmsChain (pre : List Byte) (i : Nat) : Nat → Nat → List Byte → List Byte
  | 0, _, t => t
  | n + 1, j, t => lmsChain pre i n (j + 1) (sha256 (pre ++ beBytes 2 i ++ beBytes 1 j ++ t))

/-- The candidate one-time public key of a message. -/
def lmsOts (ident qs c y m : List Byte) : List Byte :=
  let pre := ident ++ qs
  let h := sha256 (pre ++ beBytes 2 0x8181 ++ c ++ m)
  let ck := (h.map (fun b => 255 - b.toNat)).foldl (· + ·) 0
  let v := h ++ beBytes 2 ck
  sha256 (pre ++ beBytes 2 0x8080 ++
    ((v.zipIdx).map (fun p => lmsChain pre p.2 (255 - p.1.toNat) p.1.toNat ((y.drop (32 * p.2)).take 32))).flatten)

/-- The root that a path leads to from a node. -/
def lmsPath (ident : List Byte) : Nat → Nat → List Byte → List Byte → List Byte
  | 0, _, t, _ => t
  | n + 1, node, t, path =>
    let p := path.take 32
    let pair := if node % 2 = 1 then p ++ t else t ++ p
    lmsPath ident n (node / 2) (sha256 (ident ++ beBytes 4 (node / 2) ++ beBytes 2 0x8383 ++ pair)) (path.drop 32)

/-- Whether an LMS signature of 1,612 bytes over a message verifies with a public key of 56 bytes. -/
def lmsVerify (pub sig m : List Byte) : Bool :=
  let qs := sig.take 4
  let q := beNat qs
  let ident := (pub.drop 8).take 16
  let kc := lmsOts ident qs ((sig.drop 8).take 32) ((sig.drop 40).take 1088) m
  let leaf := sha256 (ident ++ beBytes 4 (2 ^ 15 + q) ++ beBytes 2 0x8282 ++ kc)
  sig.length == 1612 && pub.length == 56 && decide (q < 2 ^ 15) && beNat (pub.take 4) == 7 &&
    beNat ((pub.drop 4).take 4) == 4 && beNat ((sig.drop 4).take 4) == 4 && beNat ((sig.drop 1128).take 4) == 7 &&
    lmsPath ident 15 (2 ^ 15 + q) leaf ((sig.drop 1132).take 480) == pub.drop 24

end Sys2Proof.Machine
end

