-- ==== Sys2Proof/Machine/Jobs.lean ====
section
/-!
DEFINITION. The fabric tables, the set-up digest and the start, teardown and clearing of a job
(spec/09_fabric_network_and_jobs.md).
-/
namespace Sys2Proof.Machine

/-! ## The tables (R265, R268, R269, R271, R281) -/

/-- An access to a table behind an address register of `n` bits that increments after it. -/
def fabAccess (addr data n : Nat) (key : Nat → Nat) (a : Access) (put : Nat → Word → State → Option State) (src : Src) (s : State) :
    State :=
  let i := (rd addr s).toNat % 2 ^ n
  let next := fun (s : State) => wr addr (w64 ((i + 1) % 2 ^ n)) s
  match a with
  | .read => next (reply src (tb (key i) s) s)
  | .write v => next ((put i v s).getD (refuse src data s))

/-- Store entry `r` of the rank table, with what follows from a change (R266, R268, R305, R313). -/
def rankStore (r : Nat) (v : Word) (s : State) : State :=
  let old := rankState r s
  let t := tbW (Tab.RANK r) (v &&& 0xC000000000007FFF) s
  let t := refreshRank t
  if old = 2 ∧ rankState r t = 1 then takeover r t else t

/-- A write of entry `r`: none where R268 refuses it. -/
def rankPut (r : Nat) (v : Word) (s : State) : Option State :=
  let fails := rankState r s == 1 && getF ⟨62, 2⟩ v == 2 && getF ⟨0, 15⟩ v == rankPhys r s
  if jobState s = 0 ∨ s.priv = true ∨ fails = true then some (rankStore r v s) else none

/-- Whether the plane and tree tables and the start registers may be written (R281, R410). -/
def setupOpen (s : State) : Bool := jobState s == 0 || s.priv

/-- An access to FAB_RANK_DATA. -/
def rankAccess (a : Access) (src : Src) (s : State) : State :=
  fabAccess Reg.FAB_RANK_ADDR Reg.FAB_RANK_DATA 15 Tab.RANK a rankPut src s

/-- An access to FAB_PLANE_DATA. -/
def planeAccess (a : Access) (src : Src) (s : State) : State :=
  fabAccess Reg.FAB_PLANE_ADDR Reg.FAB_PLANE_DATA 9 Tab.PLANE a
    (fun i v s => if setupOpen s then some (tbW (Tab.PLANE i) v s) else none) src s

/-- An access to FAB_TREE_DATA. -/
def treeAccess (a : Access) (src : Src) (s : State) : State :=
  fabAccess Reg.FAB_TREE_ADDR Reg.FAB_TREE_DATA 8 Tab.TREE a
    (fun i v s => if setupOpen s then some (tbW (Tab.TREE i) (v &&& 0xFFFFFFFFF0000000) s) else none) src s

/-- A write of FAB_START, FAB_NET_CFG or FAB_EXPECT (R281). -/
def setupWrite (off : Nat) (mask v : Word) (src : Src) (s : State) : State :=
  if setupOpen s then wr off (v &&& mask) s else refuse src off s

/-! ## The digest (R273) -/

/-- The bytes that the set-up digest covers. -/
def setupBytes (s : State) : List Byte :=
  let words := fun (k : Nat → Nat) (n : Nat) => (upto n).flatMap (fun i => leBytes 8 (tb (k i) s).toNat)
  words Tab.RANK 32768 ++ words Tab.PLANE 512 ++ words Tab.TREE 256

/-- The set-up digest of the held tables. -/
def setupDigest (s : State) : List Byte := sha256 (setupBytes s)

/-- FAB_DIGEST takes the digest of the held tables. -/
def digestNow (s : State) : State :=
  let d := setupDigest s
  (upto 4).foldl (fun s i => wr (Reg.FAB_DIGEST i) (w64 (leAt d (8 * i) 8)) s) s

/-- Whether FAB_DIGEST equals an expected digest of four words. -/
def digestIs (expect : List Nat) (s : State) : Bool :=
  (upto 4).all (fun i => (rd (Reg.FAB_DIGEST i) s).toNat == expect.getD i 0)

/-! ## Starting a job (R274, R275) -/

/-- Whether an offset belongs to the rank, plane and tree table access (R406). -/
def fabTable (off : Nat) : Bool := decide (Reg.FAB_RANK_ADDR ≤ off) && decide (off ≤ Reg.FAB_TREE_DATA)

/-- Apply a record of the job's fabric tables (R405, R406). -/
def fabRecord (off : Nat) (v : Word) (s : State) : State :=
  let s := { s with priv := true }
  let t :=
    if off = Reg.FAB_RANK_ADDR then wr off (w64 (v.toNat % 2 ^ 15)) s
    else if off = Reg.FAB_PLANE_ADDR then wr off (w64 (v.toNat % 2 ^ 9)) s
    else if off = Reg.FAB_TREE_ADDR then wr off (w64 (v.toNat % 2 ^ 8)) s
    else if off = Reg.FAB_RANK_DATA then rankAccess (.write v) .host s
    else if off = Reg.FAB_PLANE_DATA then planeAccess (.write v) .host s
    else if off = Reg.FAB_TREE_DATA then treeAccess (.write v) .host s
    else s
  { t with priv := false }

/-- Refuse a START with a reason. -/
def startRefuse (reason : Nat) (s : State) : State :=
  let s := setX (fun x => { x with start := none }) s
  let s := wrF Reg.FAB_JOB Fld.FAB_JOB_REASON reason s
  log 0x0808 kNone 0 none [rd Reg.FAB_JOB s] s

/-- Forward a job's CONTROL packet to the device's children on tree `t` (R272, R276). -/
def forwardJob (t type : Nat) (ws : List Nat) (s : State) : State :=
  match ownRank s with
  | none => s
  | some r => (treeChildren t r s).foldl (fun s k =>
      if rankLive k s then sendCtlRank k type ws (bump Reg.FAB_MC_FWD s) else s) s

/-- The words of a JOB_START packet after its type word. -/
def startWords (key epoch tree : Nat) (s : State) : List Nat :=
  (tree * 2 ^ 48 + epoch * 2 ^ 32 + key) :: (upto 4).map (fun i => (rd (Reg.FAB_DIGEST i) s).toNat) ++ [0]

/-- The start passes: the job is ACTIVE, and JOB_START goes on to the children where it came by the tree or this
device is its root. -/
def startPass (key epoch tree : Nat) (byPacket : Bool) (s : State) : State :=
  let s := setX (fun x => { x with start := none }) s
  let s := wr Reg.FAB_JOB (w64 (2 ^ 62 + rdF Reg.FAB_JOB Fld.FAB_JOB_REASON s * 2 ^ 59 + tree * 2 ^ 48 + epoch * 2 ^ 32 + key)) s
  let s := refreshRank s
  let root := treeValid tree s && ownRank s == some (treeRoot tree s)
  let s := if byPacket || root then forwardJob tree 1 (startWords key epoch tree s) s else s
  pumpAll s

/-- Whether some LIVE entry has no route (R270). -/
def routeLacks (s : State) : Bool := (rankKeys s).any (fun r => rankLive r s && (route false 0 (rankPhys r s) s).isNone)

/-- Whether a port with ENABLE set still trains. -/
def portsTrain (s : State) : Bool := (upto 16).any (fun n => [2, 3, 4, 6].contains (portState n s))

/-- Steps 5 and 6 of a START; one that loaded tables may wait for ports. -/
def startRoutes (key epoch tree : Nat) (byPacket loaded : Bool) (s : State) : State :=
  if (selfRanks s).length > 1 then startRefuse 5 s
  else if routeLacks s then
    if loaded && portsTrain s then setX (fun x => { x with start := some (key, epoch, tree, byPacket) }) s
    else startRefuse 6 s
  else startPass key epoch tree byPacket s

/-- A START. -/
def jobStart (key epoch tree : Nat) (expect : List Nat) (byPacket : Bool) (s : State) : State :=
  let no := fun (r : Nat) (s : State) =>
    let s := wrF Reg.FAB_JOB Fld.FAB_JOB_REASON r s
    log 0x0808 kNone 0 none [rd Reg.FAB_JOB s] s
  if s.xport.start.isSome ∨ jobState s ≠ 0 then no 1 s
  else if key = 0 then no 2 s
  else if key = jobKey s ∧ (epoch = jobEpoch s ∨ epoch = (jobEpoch s + 2 ^ 16 - 1) % 2 ^ 16) then no 3 s
  else
    let s := digestNow s
    if digestIs expect s then startRoutes key epoch tree byPacket false (bump Reg.FAB_SETUP_REUSE s)
    else
      let s := digestNow (s.jig.jobRecs.foldl (fun s r => fabRecord r.1 r.2 s) s)
      if digestIs expect s then startRoutes key epoch tree byPacket true s else no 4 s

/-- A JOB_START packet. -/
def jobStartPacket (p : Packet) (s : State) : State :=
  jobStart (pkC p 1 % 2 ^ 32) (pkC p 1 / 2 ^ 32 % 2 ^ 16) (pkC p 1 / 2 ^ 48 % 2 ^ 8) ((upto 4).map (fun i => pkC p (2 + i))) true s

/-- The ports that a START waited for have settled. -/
def startPortsReady (s : State) : State :=
  match s.xport.start with
  | some (key, epoch, tree, byPacket) => if portsTrain s then s else startRoutes key epoch tree byPacket false s
  | none => s

/-! ## Teardown and clearing (R276 to R278) -/

/-- Whether a queued packet is a job packet. -/
def jobItem (x : TxItem) : Bool := pkN0 x.pkt Pk.VER == 3 && !isCtl x.pkt

/-- TEARDOWN of the ACTIVE job. -/
def jobTeardown (s : State) : State :=
  if jobState s ≠ 1 then s
  else
    let s := forwardJob (rdF Reg.FAB_JOB Fld.FAB_JOB_JOBTREE s) 2 [jobEpoch s * 2 ^ 32 + jobKey s, 0, 0, 0, 0, 0] s
    let s := wrF Reg.FAB_JOB Fld.FAB_JOB_EPOCH ((jobEpoch s + 1) % 2 ^ 16) s
    let s := wrF Reg.FAB_JOB Fld.FAB_JOB_STATE 2 s
    let s := (dropUnsent jobItem s).2
    setX (fun x => { x with drainAt := s.cycle, tx := x.tx.map (fun p => { p with waiting := [] }) }) s

/-- A TEARDOWN packet. -/
def teardownPacket (p : Packet) (s : State) : State := if pkC p 1 % 2 ^ 32 = jobKey s then jobTeardown s else s

/-- A write of FAB_JOB_CTL: START takes FAB_START and FAB_EXPECT; TEARDOWN follows it. -/
def jobCtlWrite (v : Word) (s : State) : State :=
  let f := fun (x : Fld) => rdF Reg.FAB_START x s
  let s := if bitF Fld.FAB_JOB_CTL_START v then
      jobStart (f Fld.FAB_START_KEY) (f Fld.FAB_START_EPOCH) (f Fld.FAB_START_JOBTREE)
        ((upto 4).map (fun i => (rd (Reg.FAB_EXPECT i) s).toNat)) false s
    else s
  if bitF Fld.FAB_JOB_CTL_TEARDOWN v then jobTeardown s else s

/-- Clear job state (R277, R304, R347, R350): every RUNNING context runs the teardown steps and ends STOPPED. -/
def jobClear (s : State) : State :=
  let s := wrF Reg.FAB_JOB Fld.FAB_JOB_STATE 0 s
  let run := runningCtxs s
  let s := run.foldl (fun s c => defer (.teardown c) (wrF (Reg.CTX_STATUS c) Fld.CTX_STATUS_STATE 2 s)) s
  let s := { s with ctxs := { s.ctxs with cleared := s.ctxs.cleared ++ run } }
  let s := colClear (xportClear s)
  wr Reg.FAB_RANK 0 { s with dov := Dov.empty }

/-- Whether a port holds a flit of pools 0 to 15 in its retry buffer or its receive buffers. -/
def jobFlits (n : Nat) (s : State) : Bool :=
  let p := portOf n s
  p.retry.any (fun x => x.2.pool < 16) || p.rxHeld.any (fun x => x.1 < 16 && x.2 != 0)

/-- The drain completes. -/
def drainComplete (s : State) : State :=
  if jobState s = 2 ∧ (upto 16).all (fun n => !jobFlits n s) = true then jobClear s else s

/-- DRAIN_MS elapse first: every port that holds a job flit goes through RESET. -/
def drainTimeout (s : State) : State :=
  if jobState s ≠ 2 then s
  else
    let s := advanceTo (s.xport.drainAt + msCycles (rdF Reg.FAB_NET_CFG Fld.FAB_NET_CFG_DRAIN_MS s)) s
    let held := (upto 16).filter (fun n => jobFlits n s)
    let s := held.foldl (fun s n => portWake n (portDisable n s)) s
    jobClear (log 0x0809 kNone 0 none [w64 (held.foldl (fun m n => m + 2 ^ n) 0)] s)

/-- The first cycle in TRAIN or STOPPED after a warm reset in DRAINING (R278). -/
def clearPending (s : State) : State := if s.xport.pendingClear then jobClear s else s

end Sys2Proof.Machine
end

