-- ==== Sys2Proof/Machine/Power.lean ====
section
/-!
DEFINITION. Device states, supplies, clocks, and the cold and warm resets (spec/15_power_up_clocks_reset.md).
-/
namespace Sys2Proof.Machine

/-! ## What runs (R419) -/

/-- Whether a reset holds the device, or it has no main supply. -/
def held (s : State) : Bool := decide (s.dev < 2) || s.power.warm.isSome

/-- Whether every unit runs: TRAIN, READY, RUN or STOPPED, and no warm reset. -/
def runs (s : State) : Bool := fabricOn s && s.power.warm.isNone

/-- Change the state of the supplies, clocks and resets. -/
def setPow (f : PowerSt → PowerSt) (s : State) : State := { s with power := f s.power }

/-- One cycle of the 850 MHz clock in which no command arrives; the clock runs from the end of reset in LOAD (R425). -/
def idle (s : State) : State := if held s || dead s then s else { s with cycle := s.cycle + 1 }

/-- GLB_SUPPLY as it reads: the monitors and the stored voltages (R421). -/
def supplyWord (s : State) : Word :=
  setF Fld.GLB_SUPPLY_MAIN_GOOD (setF Fld.GLB_SUPPLY_AUX_GOOD (rd Reg.GLB_SUPPLY s) (b2n s.power.aux)) (b2n s.power.main)

/-- GLB_CLK_STATUS as it reads (R427). -/
def clkWord (s : State) : Word :=
  setF Fld.GLB_CLK_STATUS_REF_OK (setF Fld.GLB_CLK_STATUS_ROOT_LOCK (setF Fld.GLB_CLK_STATUS_DOM_OK 0 s.power.doms)
    (b2n s.power.rootOk)) (b2n s.power.refOk)

/-- ALERT_N asserted: in BARE and FAULT, and while a Kiln warning stands (R420, R477). -/
def alertOn (s : State) : Bool :=
  s.dev == 3 || s.dev == 8 || rdF Reg.KLN_STATUS Fld.KLN_STATUS_WARN s != 0

/-- The power-good indication of J19 (R422, R424): from step 1 of power-up, taken with main good, until main is lost. -/
def powerGood (s : State) : Bool := s.power.main && (decide (2 ≤ s.dev) || s.power.ramp)

/-! ## Entering states (R420) -/

/-- Enter TRAIN, READY or STOPPED: the ports follow, and job state that a warm reset left is cleared (R254, R278). -/
def enterRunning (d : Nat) (s : State) : State :=
  let s := setDev d s
  let s := setPow (fun p => { p with trainAt := s.cycle }) s
  portsFollow (clearPending s)

/-- Stop sequencer `q` of bench `b` (R52). -/
def seqHalt (b q : Nat) (s : State) : State :=
  let sq := seqOf b q s
  if sq.st.active then discardSwaps b q (setSeq b q { sq.stopped .fault with startReq := none } s)
  else setSeq b q { sq with startReq := none } s

/-- Stop every sequencer. -/
def seqsHalt (s : State) : State := s.benches.foldl (fun s p => seqHalt p.1 1 (seqHalt p.1 0 s)) s

/-- Set both FAULT_CAUSE fields. -/
def setCause (code : Nat) (s : State) : State :=
  wrF Reg.MGT_SB_STATUS Fld.MGT_SB_STATUS_FAULT_CAUSE code (wrF Reg.GLB_STATE Fld.GLB_STATE_FAULT_CAUSE code s)

/-- Enter FAULT from LOAD to STOPPED with an error code; `rec` tells whether a record is written, with D0 `d`. The
coolant valve is driven open (R475). -/
def enterFault (code : Nat) (rec : Bool) (d : Word) (s : State) : State :=
  if held s || decide (7 < s.dev) then s
  else
    let s := if rec then log code kNone 0 none [d] s else s
    let s := wrF Reg.KLN_VALVE Fld.KLN_VALVE_CMD 100 s
    portsFollow (seqsHalt (setDev 8 (setCause code (setPow (fun p => { p with ruril := false }) s))))

/-! ## Clock and regulator faults (R420, R427) -/

/-- The reference is lost: no record is written. -/
def refLost (s : State) : State :=
  if held s || decide (7 < s.dev) then s else enterFault 0x0103 false 0 (setPow (fun p => { p with refOk := false }) s)

/-- The root PLL loses lock. -/
def rootUnlock (s : State) : State :=
  if held s || decide (7 < s.dev) then s
  else let s := setPow (fun p => { p with rootOk := false }) s
    enterFault 0x0101 true (clkWord s) s

/-- Domain `d` is out of tolerance: 0 arithmetic, 1 fabric core, 2 Ruril, 3 control processors. -/
def clockFault (d : Nat) (s : State) : State :=
  if held s || decide (7 < s.dev) || decide (3 < d) then s
  else let s := setPow (fun p => { p with doms := if bitAt p.doms (3 - d) then p.doms - 2 ^ (3 - d) else p.doms }) s
    enterFault 0x0102 true (clkWord s) s

/-- An internal rail leaves regulation. -/
def regulatorFault (s : State) : State := enterFault 0x0104 true (supplyWord s) s

/-- A lane PLL loses lock: every lane of the port in use loses lock (R257, R427). -/
def lanePll (n : Nat) (s : State) : State := (upto 8).foldl (fun s l => laneLost n l s) s

/-! ## Supplies (R421 to R423) -/

/-- The registers of the aux domain (R498). -/
def auxRegs : List Nat := [Reg.MGT_SB_STATUS, Reg.MGT_IBI_MASK, Reg.MGT_SB_XFERS, Reg.MGT_SB_ERRORS, Reg.MGT_IBI_SENT]

/-- Aux loss clears the aux domain; whether hot-join is enabled stays (R481). -/
def auxClear (s : State) : State :=
  let s := auxRegs.foldl (fun s r => unwr r s) s
  { s with mgt := { MgtSt.empty with hotJoin := s.mgt.hotJoin }, ibiEn := false, ibiPend := 0 }

/-- Values of registers that fuses give (R481, R488, R499). -/
def fuseRegs (s : State) : State :=
  let own := (s.sec.owner.reverse.find? (fun h => h.any (· != 0))).getD [0, 0, 0, 0]
  let s := wr Reg.MGT_PID (w64 (0x1A2B * 2 ^ 33 + 2 ^ 32 + s.sec.pid % 2 ^ 32)) s
  let s := wr Reg.SEC_SVN (w64 s.sec.svn) s
  (upto 4).foldl (fun s i => wr (Reg.SEC_OWNER i) (own.getD i 0) s) s

/-- Security changed. -/
def setSec (f : SecSt → SecSt) (s : State) : State := { s with sec := f s.sec }

/-- Whether a list of words is all 0. -/
def allZero (ws : List Word) : Bool := ws.all (· == 0)

/-- The first slot of `l` that is all 0 takes `ws`. -/
def fillSlot (ws : List Word) : List (List Word) → List (List Word)
  | [] => []
  | h :: l => if allZero h then ws :: l else h :: fillSlot ws l

/-- The fuses that a burn has blown (R488): all of them where it is done (`how` 1), those before the one that fails (0), or
as many as a reset has left it time for (2). -/
def fuseBlow (how : Nat) (b : Nat × List Word) (s : State) : State :=
  let r := nextFresh s
  let n := Config.fusesBlown r.1
  let mask := Config.spoiled r.1
  let s := r.2
  fuseRegs (if b.1 = 0 then
      let goal := ((b.2.headD 0)).toNat
      setSec (fun x => { x with svn := if how = 1 then goal else x.svn + n % (goal - x.svn + how / 2) }) s
    else
      let ws := if how = 1 then b.2 else b.2.zipIdx.map (fun p => p.1 &&& w64 (leAt mask (8 * p.2) 8))
      setSec (fun x => { x with owner := fillSlot ws x.owner }) s)

/-- A reset ends a burn that runs. -/
def burnCut (s : State) : State :=
  match s.sec.burn with
  | some b => setSec (fun x => { x with burn := none }) (fuseBlow 2 b s)
  | none => s

/-- The registers that `keep` names carried from one state into another. -/
def carry (keep : List Nat) (old new : State) : State := keep.foldl (fun s r => wr r (rd r old) s) new

/-- The block with everything outside the aux domain, the fuses and the flash at its reset value; outputs,
the queue of commands and the count of free values are the model's and stay. -/
def blank (s : State) : State :=
  let t : State := { State.reset with
    dev := s.dev, mgt := s.mgt, ibiEn := s.ibiEn, ibiPend := s.ibiPend, sent := s.sent, fresh := s.fresh, pending := s.pending }
  let t : State := { t with
    power := s.power
    jig := { JigSt.empty with flash := s.jig.flash }
    sec := { SecSt.made with pid := s.sec.pid, serial := s.sec.serial, owner := s.sec.owner, svn := s.sec.svn, resv := s.sec.resv } }
  fuseRegs (carry (Reg.GLB_SUPPLY :: auxRegs) s t)

/-- Main is lost, by an undervoltage where `drop` (R422). -/
def mainLost (drop : Bool) (s : State) : State :=
  if !s.power.main then s
  else
    let p : PowerSt := { PowerSt.up with main := false, aux := s.power.aux, ruril := false }
    if s.dev < 2 then { s with power := { p with lost := s.power.lost } }
    else
      let c := if drop then 1 else 2
      let f := if s.jig.prog.isSome then memWrite s.jig.flash 0 (subBytes (Config.spoiled s.fresh) 0 4096) else s.jig.flash
      let s := burnCut s
      let t := setCause 0 (blank { s with jig := { s.jig with flash := f }, fresh := s.fresh + 1 })
      if s.power.aux then
        setDev 1 { wrF Reg.GLB_RESET_CAUSE Fld.GLB_RESET_CAUSE_LAST c t with power := { p with lost := c } }
      else setDev 0 { auxClear t with power := p }

/-- Main is good: power-up begins in AUX (R420, R424). -/
def mainGood (mv : Nat) (s : State) : State :=
  if s.power.main then s
  else
    let s := wrF Reg.GLB_SUPPLY Fld.GLB_SUPPLY_MAIN_MV mv s
    setPow (fun p => { p with main := true, ramp := s.dev == 1 }) s

/-- Aux is good (R420, R423, R481). -/
def auxGood (mv : Nat) (s : State) : State :=
  if s.power.aux then s
  else
    let s := wrF Reg.GLB_SUPPLY Fld.GLB_SUPPLY_AUX_MV mv s
    let s := setPow (fun p => { p with aux := true, ramp := s.dev == 0 && p.main }) s
    if s.dev = 0 then setDev 1 s
    else if s.mgt.hotJoin then emit .hotJoin s else s

/-- Aux is lost (R420, R423). -/
def auxLost (s : State) : State :=
  if !s.power.aux then s
  else
    let s := wrF Reg.GLB_SUPPLY Fld.GLB_SUPPLY_AUX_MV 0 s
    let s := setPow (fun p => { p with aux := false, perst := false }) (auxClear s)
    if s.dev ≥ 2 then
      let s := wrF Reg.GLB_SUPPLY Fld.GLB_SUPPLY_AUX_LOST 1 s
      log 0x0105 kNone 0 none [supplyWord s] s
    else
      let s := setPow (fun p => { p with ramp := false, lost := 0 }) (wr Reg.GLB_RESET_CAUSE 0 s)
      setDev 0 s

/-! ## Cold reset (R424, R428) -/

/-- FAB_SELF.SLOT takes the sampled SLOT_ID (R261). -/
def sampleSlot (slot : Nat) (s : State) : State := wrF Reg.FAB_SELF Fld.FAB_SELF_SLOT (slot % 8) s

/-- The cold reset of step 3 of power-up is released. -/
def coldRelease (slot : Nat) (s : State) : State :=
  if s.dev ≠ 1 ∨ s.power.ramp = false then s
  else
    let c := s.power.lost
    let s := setPow (fun p => { PowerSt.up with perst := p.perst }) (blank s)
    let s := wr Reg.GLB_RESET_CAUSE (w64 (c * 2 ^ 61)) s
    let s := setDev 2 (sampleSlot slot s)
    if c = 0 then s else log 0x0106 kNone 0 none [rd Reg.GLB_RESET_CAUSE s] s

/-- The Ruril stacks are trained and zero-filled, and Mem_Active is 1 (R116, R440). -/
def rurilTrained (s : State) : State := if held s then s else setPow (fun p => { p with ruril := true }) s

/-! ## Warm reset (R429 to R431) -/

/-- The RWS mask of the register at an offset (R8). -/
def rwsOf (off : Nat) : Word := ((regRowAt off).map (·.rws)).getD 0

/-- Stored registers with only their RWS fields kept. -/
def keepRws (old new : State) : State :=
  old.regs.foldl (fun s p => let m := rwsOf p.1
    if m = 0 then s else wr p.1 ((rd p.1 s &&& ~~~m) ||| (p.2 &&& m)) s) new

/-- The transport after a warm reset (R304): the cut list and the sequence state of every pair and tree. -/
def xportWarm (x : Xport) (draining : Bool) : Xport :=
  { Xport.empty with
    pendingClear := draining
    tx := x.tx.map (fun p => { p with
      next := (match p.waiting with | w :: _ => w.seq | [] => p.next), waiting := [], ctl := [], advAt := 0,
      unack := p.unack.map (fun u => { u with owner := .free }) })
    rx := x.rx.map (fun p => { p with since := 0 })
    cut := x.cut
    trees := x.trees.map (fun t => { t with opened := false, when := 0 }) }

/-- The registers, besides RWS fields, that a warm reset keeps (R278, R304, R487, R531). -/
def warmRegs : List Nat := [Reg.FAB_JOB, Reg.FAB_RANK, Reg.FAB_SELF, Reg.FAB_CUT_LOST, Reg.MGT_TRAY, Reg.ERR_STATE,
  Reg.ERR_WRITTEN, Reg.ERR_LOST, Reg.GLB_RESET_CAUSE]

/-- Table keys that a warm reset keeps: rank, plane and tree tables, GSEQ and the ERR ring. -/
def warmKey (k : Nat) : Bool :=
  let inT := fun (lo n : Nat) => decide (lo ≤ k) && decide (k < lo + n)
  inT (Tab.RANK 0) 32768 || inT (Tab.PLANE 0) 512 || inT (Tab.TREE 0) 256 || inT (Tab.GSEQ 0) 1024 || inT (Tab.ERR 0) 32768

/-- A warm reset starts: everything stops and takes the state of R431, and the device stays in reset. -/
def warmBegin (cause : Nat) (s : State) : State :=
  if held s then s
  else
    let s := burnCut s
    let b := blank s
    let b : State := { b with
      tabs := s.tabs.filter (fun p => warmKey p.1), ruril := s.ruril, rtags := s.rtags, rbad := s.rbad
      xport := xportWarm s.xport (jobState s == 2), errPending := s.errPending
      ports := (upto 16).foldl (fun m n => smPut (fun _ => Port.reset) m n { Port.reset with cblOn := (portOf n s).cblOn }) [] }
    let b : State := { b with
      col := (colWarm s).col
      power := { s.power with warm := some cause, ruril := false }
      fresh := s.fresh + 1
      jig := { b.jig with
        image := s.jig.image, built := s.jig.built, rebuild := s.jig.built && s.dev != 3
        flash := if s.jig.prog.isSome then memWrite s.jig.flash 0 (subBytes (Config.spoiled s.fresh) 0 4096) else s.jig.flash } }
    cutWarm (keepRws s (carry warmRegs s b))

/-- A warm reset ends (R430): SLOT_ID is sampled and the device enters LOAD. -/
def warmRelease (slot : Nat) (s : State) : State :=
  match s.power.warm with
  | none => s
  | some c =>
    let s := setPow (fun p => { PowerSt.up with aux := p.aux, perst := p.perst }) s
    let s := { s with cycle := 0, power := { s.power with ruril := true } }
    let s := bump Reg.GLB_WARM_RESETS (wr Reg.GLB_RESET_CAUSE (w64 (c * 2 ^ 61)) s)
    setDev 2 (sampleSlot slot (setCause 0 s))

/-- MOD_RESET_N has been low for 500 ns; without aux it is ignored (R423, R429). -/
def modReset (s : State) : State := if s.power.aux then warmBegin 3 s else s

/-- A write of GLB_RESET_CTL (R429). -/
def resetCtlWrite (v : Word) (src : Src) (s : State) : State :=
  if getF Fld.GLB_RESET_CTL_KEY v ≠ 0x7A31 then refuse src Reg.GLB_RESET_CTL s
  else if bitF Fld.GLB_RESET_CTL_WARM v then warmBegin 4 s else s

/-! ## Training and STOP (R420) -/

/-- Whether every port with ENABLE set is in ACTIVE, DOWN or DETECT. -/
def portsSettled (s : State) : Bool :=
  (upto 16).all (fun n => !pcBit n Fld.FAB_PORT_CTL_ENABLE s || [5, 7, 1].contains (portState n s))

/-- The ports have settled in TRAIN. -/
def trainDone (s : State) : State := if runs s && s.dev == 4 && portsSettled s then devFollow (enterRunning 5 s) else s

/-- TRAIN_MS have elapsed. -/
def trainTimeout (s : State) : State :=
  if runs s && s.dev == 4 then
    devFollow (enterRunning 5 (advanceTo (s.power.trainAt + msCycles (rdF Reg.GLB_STATE_CTL Fld.GLB_STATE_CTL_TRAIN_MS s)) s))
  else s

/-- A write of GLB_STATE_CTL: STOP is taken in READY only. -/
def stateCtlWrite (v : Word) (src : Src) (s : State) : State :=
  if bitF Fld.GLB_STATE_CTL_STOP v then
    if s.dev = 5 then enterRunning 7 (wr Reg.GLB_STATE_CTL (v &&& 0xFFFF000000000000) s) else refuse src Reg.GLB_STATE_CTL s
  else wr Reg.GLB_STATE_CTL (v &&& 0xFFFF000000000000) s

/-- A write of GLB_SUPPLY: 1 in AUX_LOST clears it (R423). -/
def supplyWrite (v : Word) (s : State) : State :=
  if bitF Fld.GLB_SUPPLY_AUX_LOST v then wrF Reg.GLB_SUPPLY Fld.GLB_SUPPLY_AUX_LOST 0 s else s

end Sys2Proof.Machine
end

