-- ==== Sys2Proof/Machine/HostLink.lean ====
section
/-!
DEFINITION. The host link: training, host link resets and what they do to transfers, CXL.mem, snoops, interrupts and DOE
(spec/16_host_cxl.md).
-/
namespace Sys2Proof.Machine

/-! ## Failed transfers (R432, R447, R460) -/

/-- Count and record one failed transfer. -/
def xferFail (kind idx : Nat) (c : Option Nat) (addr : Nat) (s : State) : State :=
  log 0x0108 kind idx c [w64 addr] (bump Reg.GLB_HIF_XFER_FAIL s)

/-- Every outstanding fetch of ring `r` fails. -/
def fetchesFail (r : Nat) (s : State) : State :=
  (irFetches r s).foldl (fun s f => xferFail kRing r none (irAddr r f.1 s) s) s |> setFetches r []

/-- The recovery of object `o` that reads the host copy. -/
def hostRecov (o : Nat) (s : State) : Option Recovery :=
  (recovOf o s).filter (fun r => !r.failed && r.src == 1)

/-- The read of the host copy of object `o` fails: the record (R447). -/
def recoveryXferFail (o : Nat) (s : State) : State :=
  match hostRecov o s with
  | some r => xferFail kObject o none ((objF o 4 Fld.OBJ4_HOSTADDR s + r.tiles.headD 0) * 4096) s
  | none => s

/-- The read of the host copy of object `o` has failed: the next source is tried (R138). -/
def recoveryNext (o : Nat) (s : State) : State :=
  match hostRecov o s with
  | some r => trySource r 2 s
  | none => s

/-- The recovery of object `o` reads the host copy, and the read fails. -/
def recoveryHostFail (o : Nat) (s : State) : State := recoveryNext o (recoveryXferFail o s)

/-- Every device transfer in flight to or from the host fails (R432, R460). The records of the transfers, in the order of
R530, stand before those of what their failure leads to. -/
def transfersFail (s : State) : State :=
  let objs := (s.tier.recov.map (·.obj)).mergeSort (fun a b => a ≤ b)
  let s := objs.foldl (fun s o => recoveryXferFail o s) s
  let s := resumeXferFail (parksXferFail s)
  let s := (upto 16).foldl (fun s r => fetchesFail r s) s
  let s := objs.foldl (fun s o => recoveryNext o s) s
  resumeUndo (parksEnd s)

/-- A device read of host memory has had no completion within 50 ms (R447). -/
def hostReadTimeout (x : HostRead) (s : State) : State :=
  match x with
  | .intake r => fetchDone r none s
  | .resume n => resumeCopyDone n none s
  | .recovery o => recoveryHostFail o s

/-! ## Host link resets (R432, R459) -/

/-- The host-interface registers take their reset values (R459). -/
def hostRegs : List Nat :=
  Reg.GLB_HIF_CTL :: (upto 16).flatMap (fun r =>
    [Reg.GLB_HIF_IR_BASE r, Reg.GLB_HIF_IR_CFG r, Reg.GLB_HIF_CR_BASE r, Reg.GLB_HIF_CR_CFG r])

/-- GLB_HIF_LINK of a link that is down. -/
def linkDown (s : State) : State := wr Reg.GLB_HIF_LINK 0 s

/-- A host link reset, counted; `keep` tells that the link stays trained (FLR). -/
def hostReset (keep : Bool) (s : State) : State :=
  let up := rd Reg.GLB_HIF_LINK s
  let s := if keep then s else linkDown s
  let s := transfersFail s
  let s := hostRegs.foldl (fun s r => unwr r s) (bump Reg.GLB_HOST_RESETS s)
  let s := if keep then wr Reg.GLB_HIF_LINK (setF Fld.GLB_HIF_LINK_IDE_CM (setF Fld.GLB_HIF_LINK_IDE_IO up 0) 0) s else s
  { s with
    host := { s.host with cacheEn := false, hdmBase := 0, hdmSize := 0, retryAt := none }
    msixEn := false, msixOpen := [], msixPba := [], msixTab := []
    sec := { s.sec with ideKeys := [], insecure := 0 } }

/-- PERST_N is asserted; without aux it is ignored (R423). -/
def perstAssert (s : State) : State :=
  if held s || !s.power.aux || s.power.perst then s else hostReset false (setPow (fun p => { p with perst := true }) s)

/-- PERST_N is released: the link may train again. -/
def perstRelease (s : State) : State := setPow (fun p => { p with perst := false }) s

/-- An unrequested loss of the link (R459, R460). -/
def linkLoss (s : State) : State :=
  if held s || !linkUp s then s
  else
    let s := linkDown s
    let s := log 0x0107 kNone 0 none [rd Reg.GLB_HIF_LINK s] (bump Reg.GLB_HIF_LINK_DOWNS s)
    hostReset false s

/-- A hot reset or a link disable while the link is up. -/
def linkReset (s : State) : State := if held s || !linkUp s then s else hostReset false s

/-- A function-level reset. -/
def flr (s : State) : State := if held s || !linkUp s then s else hostReset true s

/-- Training ends at `rate` (0 below 32 GT/s, 1, 2, 3) and `width` lanes (R439). -/
def linkTrained (rate width : Nat) (s : State) : State :=
  if held s || s.power.perst || linkUp s || s.host.retryAt.isSome then s
  else if rate = 0 ∨ rate > 3 ∨ width < 4 then
    let s := log 0x0107 kNone 0 none [rd Reg.GLB_HIF_LINK s] s
    { s with host := { s.host with retryAt := some (s.cycle + msCycles 1000) } }
  else
    let w := if width ≥ 16 then 16 else if width ≥ 8 then 8 else 4
    let s := wr Reg.GLB_HIF_LINK (setF Fld.GLB_HIF_LINK_WIDTH (setF Fld.GLB_HIF_LINK_RATE (setF Fld.GLB_HIF_LINK_UP 0 1) rate) w) s
    (upto 16).foldl (fun s c => crDrainAll c s) s

/-- 1 s after a link was disabled, training starts again. -/
def linkRetry (s : State) : State :=
  match s.host.retryAt with
  | some c => let s := advanceTo c s
    { s with host := { s.host with retryAt := none } }
  | none => s

/-! ## Who may reach the device -/

/-- Whether a host request arrives: the device out of reset with its clocks, the link up (R427, R460). Configuration
and DOE requests need no more. -/
def linkOpen (s : State) : Bool := !held s && !dead s && linkUp s

/-- Whether a host access to a BAR arrives: CXL.io not Insecure (R458). -/
def hostOpen (s : State) : Bool := linkOpen s && !bitAt s.sec.insecure 0

/-- Whether a CXL.mem request arrives (R458). -/
def memOpen (s : State) : Bool := linkOpen s && !bitAt s.sec.insecure 1

/-! ## CXL.mem (R123, R402, R440, R443 to R445, R497) -/

/-- First tile of the system region (R402). -/
def sysTile : Nat := 0xBF00000

/-- The tag that a host write leaves on tile `n` with a payload (R123). -/
def hostTag (n : Nat) (payload : List Byte) (s : State) : BitVec 128 :=
  match objOfRtn n s with
  | some (o, i) => mkTag (crc32c payload) (objF o 1 Fld.OBJ1_FORMAT s) 0 0 0 (objF o 0 Fld.OBJ0_OBJECT s + i * 2 ^ 40)
  | none => mkTag (crc32c payload) 0 0 0 0 0

/-- Write bytes within one Ruril tile as a host write does: the tag is computed again. -/
def hostWriteTile (a : Nat) (bytes : List Byte) (s : State) : State :=
  let n := a / 4096
  let t := setRurilBytes a bytes s
  { t with rtags := smPut (fun _ => blankTag) t.rtags n (hostTag n (memRead t.ruril (n * 4096) 4096) s) }

/-- Device physical address of a host address, where HDM decoder 0 takes it (R443). -/
def hdmAddr (a : Nat) (s : State) : Option Nat :=
  if s.host.hdmBase ≤ a ∧ a + 64 ≤ s.host.hdmBase + s.host.hdmSize then some ((a - s.host.hdmBase) / 64 * 64) else none

/-- A CXL.mem read of 64 bytes. -/
def memReadReq (a : Nat) (e : Ecc) (s : State) : State :=
  match (if memOpen s then hdmAddr a s else none) with
  | none => s
  | some d =>
    let bad := emit (.cxlData (List.replicate 64 0) true)
    let n := d / 4096
    if !s.power.ruril || (bitF Fld.SEC_POLICY_IDE_REQUIRED (rd Reg.SEC_POLICY s) &&
        !bitF Fld.GLB_HIF_LINK_IDE_CM (rd Reg.GLB_HIF_LINK s)) then bad s
    else if n ≥ sysTile ∧ s.dev ≠ 3 then emit (.cxlData (List.replicate 64 0) false) s
    else
      let r := rurilRead n e s
      let poisoned := match objOfRtn n s with
        | some (o, i) => (recovOf o s).any (fun x => x.tiles.contains i)
        | none => false
      if r.1 && !poisoned then emit (.cxlData (memRead s.ruril d 64) false) r.2
      else emit (.cxlData (memRead s.ruril d 64) true) (bump Reg.GLB_HIF_POISON_RD r.2)

/-- The 64 bytes of a line after a write with byte enables. -/
def lineWrite (old data : List Byte) (be : Nat) : List Byte :=
  (upto 64).map (fun i => if bitAt be i then data.getD i 0 else old.getD i 0)

/-- A CXL.mem write of 64 bytes with byte enables. -/
def memWriteReq (a : Nat) (data : List Byte) (be : Nat) (s : State) : State :=
  match (if memOpen s then hdmAddr a s else none) with
  | none => s
  | some d =>
    let n := d / 4096
    if !s.power.ruril || (bitF Fld.SEC_POLICY_IDE_REQUIRED (rd Reg.SEC_POLICY s) &&
        !bitF Fld.GLB_HIF_LINK_IDE_CM (rd Reg.GLB_HIF_LINK s)) then emit .cxlDone s
    else if n ≥ sysTile ∧ s.dev ≠ 3 then emit .cxlDone (bump Reg.TIR_HOST_WRITE_DROP s)
    else
      let shut := match objOfRtn n s with | some (o, _) => objState o s != osRuril | none => false
      if shut then emit .cxlDone (bump Reg.TIR_HOST_WRITE_DROP s)
      else emit .cxlDone (hostWriteTile d (lineWrite (memRead s.ruril d 64) data be) s)

/-- A snoop is answered with RspIHitI (R446). -/
def snoop (s : State) : State := if memOpen s then emit .snoopReply s else s

/-! ## Configuration space and MSI-X (R443, R446, R456) -/

/-- The pending vectors that may go now are sent. -/
def msixFlush (s : State) : State :=
  if s.msixEn then
    let go := s.msixPba.filter (fun v => s.msixOpen.contains v)
    go.foldl (fun s v => emit (.msix v) s) { s with msixPba := s.msixPba.filter (fun v => !s.msixOpen.contains v) }
  else s

/-- A host configuration write. -/
def configWrite (x : CfgWrite) (s : State) : State :=
  if !linkOpen s then s
  else match x with
  | .hdm base size =>
    if size % 2 ^ 28 = 0 ∧ size ≤ 768 * 2 ^ 30 ∧ base % 2 ^ 28 = 0 then { s with host := { s.host with hdmBase := base, hdmSize := size } } else s
  | .cacheEnable on => { s with host := { s.host with cacheEn := on } }
  | .msixEnable on => msixFlush { s with msixEn := on }

/-- A write of 64-bit word `i` of the MSI-X table: even words hold a message address, odd words data and, in bit
32, the mask bit. -/
def msixWrite (i : Nat) (v : Word) (s : State) : State :=
  if !hostOpen s ∨ i ≥ 128 then s
  else
    let s := { s with msixTab := smPut (fun _ => 0) s.msixTab i v }
    if i % 2 = 0 then s
    else
      let k := i / 2
      let rest := s.msixOpen.filter (· != k)
      msixFlush { s with msixOpen := if bitAt v.toNat 32 then rest else rest ++ [k] }

/-! ## DOE data objects (R457) -/

/-- A DOE Discovery request for index `i`: vendor, type and the index of the next protocol. -/
def doeDiscovery (i : Nat) (s : State) : State :=
  if !linkOpen s then s
  else
    let p := [(0x0001, 0x00), (0x1E98, 0x02), (0x1F3A, 0x01)].getD i (0xFFFF, 0xFF)
    emit (.doe (leBytes 2 p.1 ++ leBytes 1 p.2 ++ leBytes 1 (if i < 2 then i + 1 else 0))) s

/-- Lanes and rate of the link as a fraction of x16 at 128 GT/s, in 64ths. -/
def linkShare (s : State) : Nat :=
  rdF Reg.GLB_HIF_LINK Fld.GLB_HIF_LINK_WIDTH s * 2 ^ (rdF Reg.GLB_HIF_LINK Fld.GLB_HIF_LINK_RATE s - 1)

/-- A CDAT table access: DPA base and length of the DSMAS entry, then read and write latency in ns and read and
write bandwidth in GB/s of the DSLBIS entries. -/
def cdatAccess (s : State) : State :=
  if !linkOpen s then s
  else
    let bw := 240 * linkShare s / 64
    emit (.doe (leBytes 8 0 ++ leBytes 8 (768 * 2 ^ 30) ++ leBytes 4 700 ++ leBytes 4 500 ++ leBytes 4 bw ++ leBytes 4 bw)) s

/-- A flit fails its MAC: the stream (0 CXL.io, 1 CXL.cachemem) goes to Insecure, and the device's transfers fail (R458). -/
def ideMacFail (k : Nat) (s : State) : State :=
  let f := if k = 0 then Fld.GLB_HIF_LINK_IDE_IO else Fld.GLB_HIF_LINK_IDE_CM
  if held s || decide (k > 1) || !bitF f (rd Reg.GLB_HIF_LINK s) then s
  else
    let s := wrF Reg.GLB_HIF_LINK f 0 s
    let s := { s with sec := { s.sec with insecure := s.sec.insecure ||| 2 ^ k } }
    transfersFail (log 0x0108 kNone 0 none [] s)

end Sys2Proof.Machine
end

