-- ==== Sys2Proof/Machine/Kiln.lean ====
section
/-!
DEFINITION. Kiln: the voltage loop, the power loop, droop holds, ballast, the energy store link and the coolant loop
(spec/17_kiln.md). Powers are in hundredths of a watt unless a name says otherwise.
-/
namespace Sys2Proof.Machine

/-- Kiln's state changed. -/
def setKiln (f : KilnSt → KilnSt) (s : State) : State := { s with kiln := f s.kiln }

/-- Whether Kiln runs: from LOAD onward (R478). -/
def kilnRuns (s : State) : Bool := !held s && !dead s

/-- A flag of KLN_STATUS. -/
def kSt (f : Fld) (s : State) : Bool := bitF f (rd Reg.KLN_STATUS s)

/-- Store a field of KLN_STATUS. -/
def kSet (f : Fld) (x : Nat) (s : State) : State := wrF Reg.KLN_STATUS f x s

/-- The stretch level L (R466). -/
def kLevel (s : State) : Nat := rdF Reg.KLN_STATUS Fld.KLN_STATUS_LEVEL s

/-- Set warning bit `bit` of WARN with one record, where it is not set (R477). -/
def kWarn (bit code kind idx : Nat) (d : Word) (s : State) : State :=
  let w := rdF Reg.KLN_STATUS Fld.KLN_STATUS_WARN s
  if bitAt w bit then s
  else
    let s := ibiEvent 5 (kSet Fld.KLN_STATUS_WARN (w + 2 ^ bit) s)
    log code kind idx none [d] s

/-! ## The voltage loop (R463, R464) -/

/-- The rail of group `g` in half millivolts. -/
def railOf (g : Nat) (s : State) : Nat := smGet (fun _ => 1800) s.kiln.rail g

/-- A droop hold starts, or the one that runs goes on (R468). -/
def droopStart (s : State) : State :=
  match s.kiln.droop with
  | some c => setKiln (fun k => { k with drooped := k.drooped + (s.cycle - c), droop := some s.cycle }) s
  | none =>
    let s := bump Reg.KLN_DROOP_EVENTS (kSet Fld.KLN_STATUS_DROOP 1 s)
    setKiln (fun k => { k with droop := some s.cycle }) s

/-- The droop hold ends after 64 cycles with every rail near its target (R468). -/
def droopEnd (s : State) : State :=
  match s.kiln.droop with
  | none => s
  | some c =>
    let s := advanceTo (c + 64) s
    setKiln (fun k => { k with drooped := k.drooped + (s.cycle - c), droop := none }) (kSet Fld.KLN_STATUS_DROOP 0 s)

/-- The rail of a group after an interval with the lowest margin code `m` (R464). -/
def railNext (on : Bool) (avs : Word) (m mv2 : Nat) : Nat :=
  let lo := getF Fld.KLN_AVS_CFG_VMIN_MV avs * 2
  let hi := getF Fld.KLN_AVS_CFG_VMAX_MV avs * 2
  let tgt := getF Fld.KLN_AVS_CFG_MARGIN_TGT avs
  if !on then hi
  else
    let v := if m < 4 then mv2 + 20 else if m < tgt then mv2 + 5 else if m ≤ tgt + 4 then mv2 else mv2 - 5
    max lo (min hi v)

/-- One group's part of an interval. -/
def avsGroup (g m p : Nat) (s : State) : State :=
  let avs := s.kiln.avs
  let on := bitF Fld.KLN_CTL_AVS_EN s.kiln.ctl
  let v := railNext on avs m (railOf g s)
  let w := setF Fld.KLN_GROUP_MV (setF Fld.KLN_GROUP_MARGIN (setF Fld.KLN_GROUP_POWER 0 p) m) (v / 2)
  let s := wr (Reg.KLN_GROUP g) w s
  let low := on && decide (v = getF Fld.KLN_AVS_CFG_VMAX_MV avs * 2) && decide (m < getF Fld.KLN_AVS_CFG_MARGIN_TGT avs)
  let n := if low then min 100 (smGet (fun _ => 0) s.kiln.atMax g + 1) else 0
  let rest := s.kiln.limited.filter (· != g)
  let s := setKiln (fun k => { k with
    rail := smPut (fun _ => 1800) k.rail g v
    atMax := smPut (fun _ => 0) k.atMax g n
    limited := if n = 100 then rest ++ [g] else rest }) s
  let s := if n = 100 then kWarn 4 0x0308 kVgroup g (rd (Reg.KLN_GROUP g) s) s else s
  if on && decide (m < 4) then droopStart s else s

/-- The end of a 100 µs interval, with each group's lowest margin code and its power in 0.1 W. -/
def avsInterval (margins powers : List Nat) (s : State) : State :=
  if !kilnRuns s then s
  else ((margins.zip powers).zip (upto 84)).foldl (fun s x => avsGroup x.2 (x.1.1 % 64) x.1.2 s) s

/-! ## The power loop (R465 to R467, R470, R471, R473) -/

/-- Root periods that level `l` holds in the cycles before cycle `n` (R466). -/
def heldBefore (l n : Nat) : Nat := n / 64 * l + n % 64 * l / 64

/-- Cycles of a control period of 10 µs at level `l`. -/
def periodCycles (l : Nat) : Nat := 8500 * 512 / (512 + l)

/-- The profile of an ended step becomes the reference (R473). -/
def profileTurn (s : State) : State :=
  let t := (rd Reg.TIR_STEP_START s).toNat
  if t = s.kiln.stepAt then s
  else setKiln (fun k => { k with
    ref := k.bins, refLen := min 1024 ((t - k.stepAt + 84999) / 85000), bins := [], stepAt := t }) s

/-- The power of the period that ends at this cycle enters its bin. -/
def profileAdd (a : Nat) (s : State) : State :=
  let i := (s.cycle - 1 - s.kiln.stepAt) / 85000
  if i ≥ 1024 then s
  else setKiln (fun k => { k with bins := smPut (fun _ => 0) k.bins i (max a (smGet (fun _ => 0) k.bins i)) }) s

/-- What the period that ends leaves in the counters: root periods held, whether the level was limited, ballast. -/
def periodCounts (c0 : Nat) (s : State) : State :=
  let l := kLevel s
  let s := bumpBy (heldBefore l s.cycle - heldBefore l c0) Reg.KLN_HELD_PERIODS s
  let s := if l != 0 && (kSt Fld.KLN_STATUS_LIMIT s || kSt Fld.KLN_STATUS_RAMP s) then bump Reg.KLN_LIMIT_PERIODS s else s
  if kSt Fld.KLN_STATUS_BALLAST s then bumpBy (s.cycle - c0) Reg.KLN_BALLAST_CYCLES s else s

/-- The ramp term of a period after one with power `a`. -/
def rampTerm (r : Option Nat) (cfg : Word) (a : Nat) : Nat :=
  let ramp := getF Fld.KLN_POWER_CFG_RAMP cfg
  match r with
  | none => a + ramp
  | some r => min (max a r + ramp) (a + 100 * getF Fld.KLN_POWER_CFG_HYST cfg + ramp)

/-- The level after a period with power `a` under the ceiling `c` (R467). -/
def levelNext (hot : Bool) (cfg : Word) (a c l : Nat) (mark : Bool) : Nat :=
  if hot || decide (c < a) then (if mark then l else min 255 (l + 16))
  else if a + 100 * getF Fld.KLN_POWER_CFG_HYST cfg < c then l - 4
  else l

/-- The start of a control period: `a` is the average input power of the period that ends, `demand` the input power
that the new one would draw without ballast. -/
def kilnPeriod (a demand : Nat) (s : State) : State :=
  if !kilnRuns s then s
  else
    let c0 := s.kiln.last
    let s := advanceTo (c0 + periodCycles (kLevel s)) s
    let s := profileAdd a (profileTurn (periodCounts c0 s))
    let hot := kSt Fld.KLN_STATUS_JWARN s || !s.kiln.limited.isEmpty
    let l := levelNext hot s.kiln.pcfg a s.kiln.ceil (kLevel s) (s.mark.phase == .releaseSet)
    let l := if s.kiln.ramp.isNone then 0 else l
    -- the configuration written before this period is in force from here
    let s := setKiln (fun k => { k with
      ctl := rd Reg.KLN_CTL s, pcfg := rd Reg.KLN_POWER_CFG s, avs := rd Reg.KLN_AVS_CFG s, est := rd Reg.KLN_ESTORE_CFG s, last := s.cycle }) s
    let cfg := s.kiln.pcfg
    let pmax := 100 * getF Fld.KLN_POWER_CFG_PMAX cfg
    let r := rampTerm s.kiln.ramp cfg a
    let capW := rdF Reg.KLN_POWER Fld.KLN_POWER_CAP s
    let cap := if kSt Fld.KLN_STATUS_CAP_VALID s && decide (capW ≠ 0) then 100 * capW else max pmax r
    let c := min (min pmax r) cap
    let f := max (100 * getF Fld.KLN_POWER_CFG_FLOOR cfg) (a - getF Fld.KLN_POWER_CFG_RAMP cfg)
    let s := kSet Fld.KLN_STATUS_LEVEL l s
    let s := kSet Fld.KLN_STATUS_LIMIT (b2n (c == min pmax cap)) s
    let s := kSet Fld.KLN_STATUS_RAMP (b2n (c == r)) s
    let s := kSet Fld.KLN_STATUS_BALLAST (b2n (bitF Fld.KLN_CTL_BALLAST_EN s.kiln.ctl && decide (demand < f))) s
    let w := setF Fld.KLN_POWER_P_NOW (setF Fld.KLN_POWER_CEIL (setF Fld.KLN_POWER_FLOOR_NOW (rd Reg.KLN_POWER s) (f / 100)) (c / 100)) (a / 100)
    let s := wr Reg.KLN_POWER w s
    -- R470: more than 10 % over PMAX with L at 255
    let high := decide (10 * a > 11 * pmax) && l == 255
    setKiln (fun k => { k with
      ramp := some r, ceil := c, overAt := if high then some (k.overAt.getD s.cycle) else none }) s

/-- Power has been over its limit at level 255 for 10 ms (R470). -/
def overpower (s : State) : State :=
  match s.kiln.overAt with
  | some c => if kilnRuns s then enterFault 0x0303 true (rd Reg.KLN_POWER s) (advanceTo (c + msCycles 10) s) else s
  | none => s

/-- A rail of group `g` falls by more than DROOP_MV. -/
def droopDetect (g : Nat) (s : State) : State := if kilnRuns s && decide (g < 84) then droopStart s else s

/-! ## The energy store link (R472, R473) -/

/-- P_NOW in hundredths of a watt. -/
def pNow (s : State) : Nat := 100 * rdF Reg.KLN_POWER Fld.KLN_POWER_P_NOW s

/-- The largest reference bin that covers millisecond `k` from now. -/
def refMax (k : Nat) (s : State) : Nat :=
  let t0 := s.cycle - s.kiln.stepAt + (k - 1) * 850000
  let i := t0 / 85000
  let j := (t0 + 849999) / 85000
  ((upto (j + 1 - i)).map (fun x => smGet (fun _ => 0) s.kiln.ref ((i + x) % s.kiln.refLen))).foldl max 0

/-- F_k of the forecast, k from 1 to 10. -/
def forecast (k : Nat) (s : State) : Nat :=
  let p := pNow s
  if s.dev = 8 then p
  else
    let f := if s.kiln.refLen = 0 then p else refMax k s
    min f (min (p + 100 * getF Fld.KLN_POWER_CFG_RAMP s.kiln.pcfg * k) s.kiln.ceil)

/-- A forecast frame is sent. -/
def forecastSend (s : State) : State :=
  if !kilnRuns s || !bitF Fld.KLN_CTL_ESTORE_EN s.kiln.ctl then s
  else
    let s := profileTurn s
    let le2 := fun (n : Nat) => leBytes 2 n
    let body := leBytes 1 1 ++ le2 s.kiln.seq ++ le2 (pNow s / 100) ++
      (upto 10).flatMap (fun k => le2 (forecast (k + 1) s / 100)) ++ le2 (s.kiln.ceil / 100)
    let s := emit (.frame (leBytes 1 0xA5 ++ body ++ le2 (crc16 body))) (bump Reg.KLN_ESTORE_TX s)
    setKiln (fun k => { k with seq := (k.seq + 1) % 65536 }) s

/-- A frame arrives from the energy store. -/
def capFrame (bs : List Byte) (s : State) : State :=
  if !kilnRuns s then s
  else if bs.length = 8 ∧ leAt bs 0 1 = 0xA5 ∧ leAt bs 1 1 = 0x81 ∧ leAt bs 6 2 = crc16 (subBytes bs 1 5) then
    let s := kSet Fld.KLN_STATUS_CAP_VALID 1 (wrF Reg.KLN_POWER Fld.KLN_POWER_CAP (leAt bs 4 2) s)
    setKiln (fun k => { k with capAt := s.cycle }) s
  else bump Reg.KLN_ESTORE_RX_BAD s

/-- No valid cap frame has arrived for LOSS_MS. -/
def capLoss (s : State) : State :=
  if !kilnRuns s then s
  else
    let s := advanceTo (s.kiln.capAt + msCycles (getF Fld.KLN_ESTORE_CFG_LOSS_MS s.kiln.est)) s
    let s := kSet Fld.KLN_STATUS_CAP_VALID 0 (wrF Reg.KLN_POWER Fld.KLN_POWER_CAP 0 s)
    kWarn 3 0x0307 kNone 0 (rd Reg.KLN_POWER s) s

/-! ## The coolant loop (R474 to R476, R519) -/

/-- A sample of the coolant and junction sensors, in 1/16 °C; a missing outlet reading counts as 127 °C. -/
def thermalSample (inlet outlet jmax : Nat) (s : State) : State :=
  if !kilnRuns s then s
  else
    let w := setF Fld.KLN_TEMPS_INLET (setF Fld.KLN_TEMPS_OUTLET (setF Fld.KLN_TEMPS_JMAX 0 jmax) outlet) inlet
    let s := wr Reg.KLN_TEMPS w s
    let j := getF Fld.KLN_TEMPS_JMAX w
    let o0 := getF Fld.KLN_TEMPS_OUTLET w
    let o := if o0 = 0 then 127 * 16 else o0
    let cfg := s.kiln.therm
    let jw := 16 * getF Fld.KLN_THERM_CFG_J_WARN cfg
    let s :=
      if j ≥ jw then kWarn 0 0x0304 kNone 0 w (kSet Fld.KLN_STATUS_JWARN 1 s)
      else if j + 32 < jw then kSet Fld.KLN_STATUS_JWARN 0 s else s
    let s := if o ≥ 16 * getF Fld.KLN_THERM_CFG_OUT_WARN cfg then kWarn 1 0x0305 kNone 0 w s else s
    setKiln (fun k => { k with
      hotAt := if j ≥ 16 * getF Fld.KLN_THERM_CFG_J_TRIP cfg then some (k.hotAt.getD s.cycle) else none
      outAt := if o ≥ 16 * getF Fld.KLN_THERM_CFG_OUT_TRIP cfg then some (k.outAt.getD s.cycle) else none }) s

/-- The junction has been at its trip for 1 ms. -/
def junctionTrip (s : State) : State :=
  match s.kiln.hotAt with
  | some c => if kilnRuns s then enterFault 0x0301 true (rd Reg.KLN_TEMPS s) (advanceTo (c + msCycles 1) s) else s
  | none => s

/-- The outlet has been at its trip for 1 s. -/
def coolantTrip (s : State) : State :=
  match s.kiln.outAt with
  | some c => if kilnRuns s then enterFault 0x0302 true (rd Reg.KLN_TEMPS s) (advanceTo (c + msCycles 1000) s) else s
  | none => s

/-- An integer held within 0 and `hi`. -/
def clampInt (lo hi x : Int) : Int := max lo (min hi x)

/-- The integral after a step with the error `e` in 1/16 °C, in 1/40960 %. -/
def integNext (cfg : Word) (e integ : Int) : Int := clampInt 0 4096000 (integ + getF Fld.KLN_VALVE_CFG_KI cfg * e)

/-- The automatic duty in %, with the largest forecast in W. -/
def autoDuty (cfg : Word) (e integ : Int) (fmax : Nat) : Nat :=
  let x := (getF Fld.KLN_VALVE_CFG_KP cfg * e * 250 + integ * 25 + getF Fld.KLN_VALVE_CFG_KF cfg * fmax * 4) / 1024000
  (clampInt (getF Fld.KLN_VALVE_CFG_MIN_DUTY cfg) 100 x).toNat

/-- The difference of two duties. -/
def dutyGap (x y : Nat) : Nat := max x y - min x y

/-- Whether VALVE_FAULT still drives the valve open: until the warning is clear and the feedback agrees (R476). -/
def stillForced (fb : Nat) (s : State) : Bool :=
  s.kiln.forced && !(!bitAt (rdF Reg.KLN_STATUS Fld.KLN_STATUS_WARN s) 2 &&
    decide (dutyGap fb (rdF Reg.KLN_VALVE Fld.KLN_VALVE_CMD s) ≤ 10))

/-- A coolant step, every 100 ms, with the valve's feedback duty. -/
def valveStep (fb : Nat) (s : State) : State :=
  if !kilnRuns s then s
  else
    let s := setKiln (fun k => { k with therm := rd Reg.KLN_THERM_CFG s, valve := rd Reg.KLN_VALVE_CFG s }) (profileTurn s)
    let s := setKiln (fun k => { k with forced := stillForced fb s }) s
    let s := wrF Reg.KLN_VALVE Fld.KLN_VALVE_FB fb s
    let cfg := s.kiln.valve
    let auto := bitF Fld.KLN_CTL_VALVE_AUTO s.kiln.ctl
    let o0 := rdF Reg.KLN_TEMPS Fld.KLN_TEMPS_OUTLET s
    let o := if o0 = 0 then 127 * 16 else o0
    let e : Int := (o : Int) - 16 * (getF Fld.KLN_THERM_CFG_OUT_TARGET s.kiln.therm : Nat)
    let integ := if auto then integNext cfg e s.kiln.integ else s.kiln.integ
    let fmax := ((upto 10).map (fun k => forecast (k + 1) s / 100)).foldl max 0
    let duty := if s.dev = 8 || s.kiln.forced then 100
      else if auto then autoDuty cfg e integ fmax else getF Fld.KLN_VALVE_CFG_MANUAL cfg
    setKiln (fun k => { k with integ := integ }) (wrF Reg.KLN_VALVE Fld.KLN_VALVE_CMD duty s)

/-- The feedback has differed from the commanded duty by more than 10 points for 2 s. -/
def valveMismatch (fb : Nat) (s : State) : State :=
  if !kilnRuns s || decide (dutyGap fb (rdF Reg.KLN_VALVE Fld.KLN_VALVE_CMD s) ≤ 10) then s
  else
    let s := wrF Reg.KLN_VALVE Fld.KLN_VALVE_FB fb s
    let s := kWarn 2 0x0306 kNone 0 (rd Reg.KLN_VALVE s) s
    setKiln (fun k => { k with forced := true }) (wrF Reg.KLN_VALVE Fld.KLN_VALVE_CMD 100 s)

/-! ## Registers (R478) -/

/-- Whether a value of a Kiln configuration register keeps every field in its range. -/
def kilnRange (off : Nat) (v : Word) : Bool :=
  let f := fun (x : Fld) => getF x v
  if off = Reg.KLN_POWER_CFG then
    decide (500 ≤ f Fld.KLN_POWER_CFG_PMAX) && decide (f Fld.KLN_POWER_CFG_PMAX ≤ 2400) && decide (1 ≤ f Fld.KLN_POWER_CFG_RAMP)
  else if off = Reg.KLN_AVS_CFG then
    decide (600 ≤ f Fld.KLN_AVS_CFG_VMIN_MV) && decide (f Fld.KLN_AVS_CFG_VMIN_MV ≤ f Fld.KLN_AVS_CFG_VMAX_MV) &&
      decide (f Fld.KLN_AVS_CFG_VMAX_MV ≤ 920) && decide (4 ≤ f Fld.KLN_AVS_CFG_MARGIN_TGT) &&
      decide (f Fld.KLN_AVS_CFG_MARGIN_TGT ≤ 59) && decide (10 ≤ f Fld.KLN_AVS_CFG_DROOP_MV) && decide (f Fld.KLN_AVS_CFG_DROOP_MV ≤ 100)
  else if off = Reg.KLN_THERM_CFG then
    decide (f Fld.KLN_THERM_CFG_OUT_WARN < 70) && decide (f Fld.KLN_THERM_CFG_J_WARN < 110)
  else if off = Reg.KLN_VALVE_CFG then
    decide (f Fld.KLN_VALVE_CFG_MIN_DUTY ≤ 100) && decide (f Fld.KLN_VALVE_CFG_MANUAL ≤ 100)
  else if off = Reg.KLN_ESTORE_CFG then decide (1 ≤ f Fld.KLN_ESTORE_CFG_LOSS_MS)
  else true

/-- A write of KLN_STATUS: 1 clears a bit of WARN. -/
def warnClear (v : Word) (s : State) : State :=
  let w := BitVec.ofNat 5 (rdF Reg.KLN_STATUS Fld.KLN_STATUS_WARN s)
  let m := BitVec.ofNat 5 (getF Fld.KLN_STATUS_WARN v)
  kSet Fld.KLN_STATUS_WARN (w &&& ~~~m).toNat s

/-- The configuration registers of Kiln. -/
def kilnCfgs : List Nat :=
  [Reg.KLN_CTL, Reg.KLN_POWER_CFG, Reg.KLN_AVS_CFG, Reg.KLN_THERM_CFG, Reg.KLN_VALVE_CFG, Reg.KLN_ESTORE_CFG]

/-- A write of a Kiln register: `mask` holds its RW bits. -/
def kilnWrite (off : Nat) (mask v : Word) (src : Src) (s : State) : State :=
  if off = Reg.KLN_STATUS then warnClear v s
  else if !kilnRange off v then refuse src off s
  else if kilnCfgs.contains off then wr off ((rd off s &&& ~~~mask) ||| (v &&& mask)) s
  else s

end Sys2Proof.Machine
end

