-- ==== Sys2Proof/Machine/Security.lean ====
section
/-!
DEFINITION. The tray bus, the tray number, the fuses, attestation and the IDE keys (spec/18_management_and_security.md), and the
registers of the ERR ring (spec/20_address_map_and_errors.md).
-/
namespace Sys2Proof.Machine

/-! ## The ERR ring's registers (R523, R528, R529, R532) -/

/-- A write of ERR_HEAD. -/
def errHeadWrite (v : Word) (src : Src) (s : State) : State :=
  let h := v.toNat % 2 ^ 32
  let head := rdF Reg.ERR_STATE Fld.ERR_STATE_HEAD s
  let tail := rdF Reg.ERR_STATE Fld.ERR_STATE_TAIL s
  let s := { s with v16Sent := false }
  if (h + 2 ^ 32 - head) % 2 ^ 32 ≤ (tail + 2 ^ 32 - head) % 2 ^ 32 then
    let s := wrF Reg.ERR_STATE Fld.ERR_STATE_HEAD h (wr Reg.ERR_HEAD (w64 h) s)
    if s.errPending ≠ 0 ∧ errFull s = false then
      let n := s.errPending
      log 0x0E01 kNone 0 none [w64 n] { s with errPending := 0 }
    else s
  else refuse src Reg.ERR_HEAD s

/-- A write of GLB_BAD_FIRST: 1 in VALID clears the whole register. -/
def badFirstWrite (v : Word) (s : State) : State :=
  if bitF Fld.GLB_BAD_FIRST_VALID v then wr Reg.GLB_BAD_FIRST 0 s else s

/-! ## Tray number (R487) -/

/-- A write of MGT_TRAY. -/
def trayWrite (v : Word) (src : Src) (s : State) : State :=
  match src with
  | .host => refuse src Reg.MGT_TRAY s
  | .sideband =>
    let t := getF Fld.MGT_TRAY_TRAY v
    if bitF Fld.MGT_TRAY_VALID (rd Reg.MGT_TRAY s) then
      if t = rdF Reg.MGT_TRAY Fld.MGT_TRAY_TRAY s then s
      else log 0x0D01 kNone 0 none [v] (bump Reg.MGT_SB_ERRORS s)
    else
      let s := wr Reg.MGT_TRAY (setF Fld.MGT_TRAY_TRAY (setF Fld.MGT_TRAY_VALID 0 1) t) s
      refreshRank (wrF Reg.FAB_SELF Fld.FAB_SELF_TRAY t (wrF Reg.FAB_SELF Fld.FAB_SELF_VALID 1 s))

/-! ## The bus (R480 to R482) -/

/-- Whether the target runs: aux is good and the device is past OFF. -/
def sbRuns (s : State) : Bool := s.power.aux && decide (1 ≤ s.dev)

/-- Whether a dynamic address is held. -/
def sbAddressed (s : State) : Bool := sbRuns s && bitF Fld.MGT_SB_STATUS_DA_VALID (rd Reg.MGT_SB_STATUS s)

/-- ENTDAA assigns an address to a target that has none. -/
def daAssign (a : Nat) (s : State) : State :=
  if !sbRuns s || sbAddressed s then s
  else wrF Reg.MGT_SB_STATUS Fld.MGT_SB_STATUS_DA a (wrF Reg.MGT_SB_STATUS Fld.MGT_SB_STATUS_DA_VALID 1 s)

/-- RSTDAA takes the address away. -/
def daReset (s : State) : State :=
  if !sbRuns s then s
  else wrF Reg.MGT_SB_STATUS Fld.MGT_SB_STATUS_DA 0 (wrF Reg.MGT_SB_STATUS Fld.MGT_SB_STATUS_DA_VALID 0 s)

/-- ENEC and DISEC: bit 0 interrupts, bit 3 hot-join. -/
def eventsEnable (on : Bool) (bits : Nat) (s : State) : State :=
  if !sbRuns s then s
  else
    let s := if bitAt bits 0 then { s with ibiEn := on } else s
    if bitAt bits 3 then { s with mgt := { s.mgt with hotJoin := on } } else s

/-- The answer to a directed read of characteristics: bytes in the order of the bus. -/
def cccAnswer (bs : List Byte) (s : State) : State := if sbAddressed s then emit (.sideband bs) s else s

/-- GETPID answers the provisioned ID, its highest byte first. -/
def getPidBytes (s : State) : List Byte := (leBytes 6 (rd Reg.MGT_PID s).toNat).reverse

/-- GETSTATUS answers the pending interrupt's number, 1 where one is pending. -/
def getStatusBytes (s : State) : List Byte := leBytes 1 0 ++ leBytes 1 (b2n (s.ibiPend != 0))

/-- The pending in-band interrupt is requested; it is sent where it wins arbitration. -/
def ibiSend (won : Bool) (s : State) : State :=
  if !sbAddressed s || !s.ibiEn || s.ibiPend == 0 || !won then s
  else bump Reg.MGT_IBI_SENT (emit (.ibi s.ibiPend) { s with ibiPend := 0 })

/-! ## Fuses (R488 to R490) -/

/-- Whether the owner fuses are all 0. -/
def ownerUnset (s : State) : Bool := s.sec.owner.all allZero

/-- JIG_STATUS as it reads. -/
def jigStatusWord (s : State) : Word := setF Fld.JIG_STATUS_OWNER_UNSET (rd Reg.JIG_STATUS s) (b2n (ownerUnset s))

/-- Whether a burn runs. -/
def burnBusy (s : State) : Bool := bitF Fld.SEC_FUSE_STATUS_BUSY (rd Reg.SEC_FUSE_STATUS s)

/-- SEC_FUSE_STATUS.RESULT. -/
def burnResult (x : Nat) (s : State) : State := wrF Reg.SEC_FUSE_STATUS Fld.SEC_FUSE_STATUS_RESULT x s

/-- A burn starts. -/
def burnStart (kind : Nat) (ws : List Word) (s : State) : State :=
  setSec (fun x => { x with burn := some (kind, ws) }) (wrF Reg.SEC_FUSE_STATUS Fld.SEC_FUSE_STATUS_BUSY 1 (burnResult 0 s))

/-- BURN_SVN (R489). -/
def burnSvn (s : State) : State :=
  let svn := rdF Reg.JIG_STATUS Fld.JIG_STATUS_SVN s
  if bitF Fld.JIG_STATUS_LOADED (rd Reg.JIG_STATUS s) && decide (svn ≤ 64) && decide (s.sec.svn < svn) then
    burnStart 0 [w64 svn] s
  else burnResult 2 s

/-- The staged owner hash. -/
def ownerStaged (s : State) : List Word := (upto 4).map (fun i => rd (Reg.SEC_OWNER_STAGE i) s)

/-- Whether the signature of an owner transfer verifies. -/
def transferOk (s : State) : Bool :=
  let n := rdF Reg.SEC_OWNER_SIGTILE Fld.SEC_OWNER_SIGTILE_TILE s
  bitF Fld.JIG_STATUS_LOADED (rd Reg.JIG_STATUS s) && !s.rbad.contains n &&
    lmsVerify (subBytes s.jig.image 256 56) (memRead s.ruril (n * 4096) 1612)
      (asciiBytes "PNAOWNER" ++ (ownerStaged s).flatMap (fun w => leBytes 8 w.toNat))

/-- BURN_OWNER (R490). -/
def burnOwner (s : State) : State :=
  if ownerUnset s || (s.sec.owner.any allZero && transferOk s) then burnStart 1 (ownerStaged s) s else burnResult 2 s

/-- A write of SEC_FUSE_CTL. With both bits set, BURN_SVN comes first. -/
def fuseCtlWrite (v : Word) (src : Src) (s : State) : State :=
  if getF Fld.SEC_FUSE_CTL_KEY v ≠ 0x5EC5 ∨ burnBusy s = true then refuse src Reg.SEC_FUSE_CTL s
  else
    let s := if bitF Fld.SEC_FUSE_CTL_BURN_SVN v then burnSvn s else s
    if !bitF Fld.SEC_FUSE_CTL_BURN_OWNER v then s
    else if burnBusy s then refuse src Reg.SEC_FUSE_CTL s
    else burnOwner s

/-- A burn ends. -/
def burnDone (ok : Bool) (s : State) : State :=
  match s.sec.burn with
  | none => s
  | some b =>
    if held s then s
    else
      let s := setSec (fun x => { x with burn := none }) (fuseBlow (b2n ok) b s)
      let s := burnResult (if ok then 1 else 3) (wrF Reg.SEC_FUSE_STATUS Fld.SEC_FUSE_STATUS_BUSY 0 s)
      if ok then s else log 0x0C02 kNone 0 none [rd Reg.SEC_FUSE_STATUS s] s

/-! ## Signing (R491 to R493) -/

/-- A request is answered BUSY. -/
def signBusy (s : State) : Nat × Nat × State :=
  let r := nextFresh s
  (1, Config.retryMs r.1 % 65536, bump Reg.SEC_SIGN_REFUSED r.2)

/-- The device blows the lowest unblown RESV fuse and continues from the start of its leaves. -/
def reserve (s : State) : State :=
  let r := s.sec.resv
  let s := setSec (fun x => { x with resv := r + 1 }) s
  wr Reg.SEC_LEAF (setF Fld.SEC_LEAF_NEXT (setF Fld.SEC_LEAF_RES 0 r) (r * 2 ^ 28)) s

/-- Ask for a signature: the STATUS, RETRY_MS and, with STATUS 0, the state in which the leaf may be used. -/
def signAsk (s : State) : Nat × Nat × State :=
  if s.sec.resv ≥ 4096 then (3, 0, log 0x0C01 kNone 0 none [rd Reg.SEC_LEAF s] s)
  else
    let s :=
      if !s.sec.signing then setSec (fun x => { x with signing := true, build := true }) (reserve s)
      else if rdF Reg.SEC_LEAF Fld.SEC_LEAF_NEXT s = (rdF Reg.SEC_LEAF Fld.SEC_LEAF_RES s + 1) * 2 ^ 28 then reserve s
      else s
    if s.sec.tokens = 0 then signBusy s
    else
      let s := setSec (fun x => { x with tokens := x.tokens - 1 }) s
      if s.sec.build then signBusy s else (0, 0, s)

/-- The first lower tree after a reservation is built. -/
def treeBuilt (s : State) : State := if held s then s else setSec (fun x => { x with build := false }) s

/-- The bucket gains tokens. -/
def tokenRefill (n : Nat) (s : State) : State :=
  if held s then s
  else setSec (fun x => { x with tokens := min (rdF Reg.SEC_POLICY Fld.SEC_POLICY_BURST s) (x.tokens + n) }) s

/-! ## Reports (R494 to R496) -/

/-- The PID and SERIAL as bytes. -/
def identBytes (s : State) : List Byte := leBytes 6 (rd Reg.MGT_PID s).toNat ++ leBytes 16 s.sec.serial

/-- The device certificate (R491). -/
def certificate (s : State) : List Byte :=
  leBytes 6 (rd Reg.MGT_PID s).toNat ++ leBytes 2 0 ++ leBytes 16 s.sec.serial ++ subBytes Config.certificate 24 1672

/-- A measurement entry. -/
def measEntry (kind idx : Nat) (d : List Byte) : List Byte :=
  leBytes 2 kind ++ leBytes 2 idx ++ leBytes 4 0 ++ subBytes d 0 32

/-- The banks of KIND 2: IDENT, OWNER and SVN. -/
def fuseBytes (s : State) : List Byte :=
  identBytes s ++ s.sec.owner.flatMap (fun h => h.flatMap (fun w => leBytes 8 w.toNat)) ++ leBytes 8 (2 ^ s.sec.svn - 1)

/-- The measurement entries. -/
def measurements (s : State) : List (List Byte) :=
  let base := [measEntry 1 0 Config.bootRomDigest, measEntry 2 0 (sha256 (fuseBytes s)),
    measEntry 3 0 (sha256 (memRead s.jig.flash 0 8192))]
  if s.dev = 3 then base
  else
    base ++ (upto (min 64 (leAt s.jig.image 12 4))).map (fun i => measEntry 4 i (subBytes s.jig.image (4096 + 64 * i + 32) 32)) ++
      [measEntry 5 0 s.jig.meas]

/-- A report with its signature by leaf `leaf`. -/
def report (nonce bind : List Byte) (leaf : Nat) (s : State) : List Byte :=
  let ms := measurements s
  let n := ms.length
  let body := asciiBytes "PNAATT01" ++ leBytes 4 (128 + 40 * n + 3604) ++ leBytes 2 n ++
    leBytes 2 (b2n (ownerUnset s) + 2 * b2n (s.dev == 3)) ++ nonce ++ leBytes 6 (rd Reg.MGT_PID s).toNat ++ leBytes 2 0 ++
    leBytes 16 s.sec.serial ++ leBytes 4 (if s.dev = 3 then 0 else rdF Reg.JIG_STATUS Fld.JIG_STATUS_SVN s) ++
    leBytes 4 s.sec.svn ++ leBytes 5 leaf ++ leBytes 3 0 ++ leBytes 2 s.dev ++ leBytes 2 (rd Reg.FAB_SELF s).toNat ++
    leBytes 4 0 ++ bind ++ ms.flatten
  body ++ subBytes (Config.hssSignature leaf body) 0 3604

/-- Send a response: on DOE, or into the response buffer. -/
def respond (src : Src) (type status retry : Nat) (payload : List Byte) (s : State) : State :=
  let bs := leBytes 1 (type + 0x80) ++ leBytes 1 status ++ leBytes 2 retry ++ leBytes 4 (8 + payload.length) ++ payload
  match src with
  | .host => emit (.doe bs) s
  | .sideband => { s with mgt := { s.mgt with rsp := bs } }

/-- Take a request to the engine: over DOE where the host reaches the device, over the sideband where SB_ATTEST is 1. -/
def attest (src : Src) (type : Nat) (k : State → State) (s : State) : State :=
  if held s || dead s then s
  else match src with
  | .host => if linkOpen s then k s else s
  | .sideband =>
    if !sbAddressed s then s
    else if bitF Fld.SEC_POLICY_SB_ATTEST (rd Reg.SEC_POLICY s) then k s else respond src type 4 0 [] s

/-- GET_CERT. -/
def certGet (src : Src) (s : State) : State := attest src 1 (fun s => respond src 1 0 0 (certificate s) s) s

/-- A response that carries a report with something before it, or the status that refuses it. -/
def signed (src : Src) (type : Nat) (nonce bind pre : List Byte) (s : State) : State :=
  let r := signAsk s
  let s := r.2.2
  if r.1 ≠ 0 then respond src type r.1 r.2.1 [] s
  else
    let leaf := rdF Reg.SEC_LEAF Fld.SEC_LEAF_NEXT s
    let s := wrF Reg.SEC_LEAF Fld.SEC_LEAF_NEXT (leaf + 1) s
    respond src type 0 0 (pre ++ report nonce bind leaf s) (bump Reg.SEC_REPORTS s)

/-- GET_REPORT. -/
def reportGet (src : Src) (p : List Byte) (s : State) : State :=
  attest src 2 (fun s =>
    if p.length ≠ 64 then respond src 2 2 0 [] s else signed src 2 (p.take 32) (p.drop 32) [] s) s

/-- KEM_START: the key pair held before is discarded, and one is made where the report is signed. -/
def kemBegin (src : Src) (p : List Byte) (s : State) : State :=
  attest src 3 (fun s =>
    if p.length ≠ 32 then respond src 3 2 0 [] s
    else
      let r := nextFresh (setSec (fun x => { x with kem := none }) s)
      let key := subBytes (Config.kemKey r.1) 0 1568
      let n := rd Reg.SEC_REPORTS r.2
      let s := signed src 3 p (sha256 key) key r.2
      if rd Reg.SEC_REPORTS s = n then s else setSec (fun x => { x with kem := some (r.1, p, s.cycle) }) s) s

/-- The four IDE keys: CXL.io and CXL.cachemem, each host to device and device to host. -/
def ideKeys (nonce secret : List Byte) : List (List Byte) :=
  [(0, 0), (0, 1), (1, 0), (1, 1)].map (fun p =>
    hkdf256 nonce secret (asciiBytes "PNAIDE" ++ leBytes 1 p.1 ++ leBytes 1 p.2))

/-- KEM_FINISH. -/
def kemEnd (src : Src) (ct : List Byte) (s : State) : State :=
  attest src 4 (fun s =>
    match src, s.sec.kem with
    | .sideband, _ => respond src 4 4 0 [] s
    | .host, none => respond src 4 2 0 [] s
    | .host, some (n, nonce, _) =>
      if ct.length ≠ 1568 then respond src 4 2 0 [] s
      else
        let keys := ideKeys nonce (subBytes (Config.kemShared n ct) 0 32)
        let s := setSec (fun x => { x with kem := none, ideKeys := keys, insecure := 0 }) s
        let s := wrF Reg.GLB_HIF_LINK Fld.GLB_HIF_LINK_IDE_IO 1 (wrF Reg.GLB_HIF_LINK Fld.GLB_HIF_LINK_IDE_CM 1 s)
        respond src 4 0 0 [] (bump Reg.SEC_IDE_KEYS s)) s

/-- 10 s after KEM_START the key pair is discarded. -/
def kemExpire (s : State) : State :=
  match s.sec.kem with
  | some (_, _, c) => setSec (fun x => { x with kem := none }) (advanceTo (c + msCycles 10000) s)
  | none => s

/-- A request as bytes: header and payload. -/
def attestBytes (src : Src) (bs : List Byte) (s : State) : State :=
  let t := leAt bs 0 1
  let p := bs.drop 8
  if bs.length < 8 ∨ leAt bs 1 3 ≠ 0 ∨ leAt bs 4 4 ≠ bs.length then attest src t (respond src t 2 0 []) s
  else if t = 1 then attest src 1 (fun s => if p.length ≠ 0 then respond src 1 2 0 [] s else certGet src s) s
  else if t = 2 then reportGet src p s
  else if t = 3 then kemBegin src p s
  else if t = 4 then kemEnd src p s
  else attest src t (respond src t 2 0 []) s

end Sys2Proof.Machine
end

