-- ==== Sys2Proof/Machine/Image.lean ====
section
/-!
DEFINITION. The jig image: its layout, its checks, the programming of the flash, and the writes of the jig's control registers
(spec/14_jig_and_glueup.md).
-/
namespace Sys2Proof.Machine

/-! ## The system region (R402) -/

/-- First tile of base slot `k`: 0 A, 1 B. -/
def slotTile (k : Nat) : Nat := sysTile + 262144 * k

/-- The journal control tile. -/
def jrnlCtl : Nat := sysTile + 524288

/-- First tile of the journal's entries. -/
def jrnlTile : Nat := sysTile + 524289

/-- Tiles that the journal holds (R411). -/
def jrnlMax : Nat := 524287

/-! ## Image layout (R395 to R397). An image is read as `n` bytes from offset `o`. -/

/-- The number in `n` bytes of an image. -/
def imgNum (r : Nat → Nat → List Byte) (o n : Nat) : Nat := leNat (r o n)

/-- NSECT. -/
def imgSects (r : Nat → Nat → List Byte) : Nat := imgNum r 12 4

/-- IMAGE_LEN. -/
def imgLen (r : Nat → Nat → List Byte) : Nat := imgNum r 16 8

/-- SVN. -/
def imgSvn (r : Nat → Nat → List Byte) : Nat := imgNum r 24 4

/-- TYPE of section `i`. -/
def secType (r : Nat → Nat → List Byte) (i : Nat) : Nat := imgNum r (4096 + 64 * i) 2

/-- SFLAGS of section `i`. -/
def secFlags (r : Nat → Nat → List Byte) (i : Nat) : Nat := imgNum r (4098 + 64 * i) 2

/-- OFFSET of section `i`. -/
def secOff (r : Nat → Nat → List Byte) (i : Nat) : Nat := imgNum r (4104 + 64 * i) 8

/-- LENGTH of section `i`. -/
def secLen (r : Nat → Nat → List Byte) (i : Nat) : Nat := imgNum r (4112 + 64 * i) 8

/-- DIGEST of section `i`. -/
def secDigest (r : Nat → Nat → List Byte) (i : Nat) : List Byte := r (4128 + 64 * i) 32

/-- The bytes of section `i`. -/
def secBytes (r : Nat → Nat → List Byte) (i : Nat) : List Byte := r (secOff r i) (secLen r i)

/-- The configuration section types, ascending. -/
def cfgTypes : List Nat := [0x20, 0x21, 0x22, 0x30, 0x40, 0x50, 0x51, 0x60, 0x70, 0x80, 0x90]

/-- RURIL_INIT. -/
def typeInit : Nat := 0xA0

/-- The firmware section types. -/
def fwTypes : List Nat := (upto 8).map (· + 0x10)

/-- Whether the section table follows R396 and R397. -/
def tableOk (r : Nat → Nat → List Byte) : Bool :=
  let is := upto (imgSects r)
  let zero := fun (o n : Nat) => imgNum r o n == 0
  is.all (fun i =>
    (fwTypes.contains (secType r i) || cfgTypes.contains (secType r i) || secType r i == typeInit) &&
    decide (secFlags r i ≤ 1) && zero (4100 + 64 * i) 4 && zero (4120 + 64 * i) 8 &&
    secOff r i % 4096 == 0 && decide (8192 ≤ secOff r i) && secLen r i % 16 == 0 &&
    decide (secOff r i + secLen r i ≤ imgLen r) &&
    (!fwTypes.contains (secType r i) || secFlags r i == 1)) &&
  fwTypes.all (fun t => (is.filter (fun i => secType r i == t)).length == 1) &&
  zero (4096 + 64 * imgSects r) (64 * (64 - imgSects r)) &&
  decide (is.Pairwise (fun i j => secOff r i + secLen r i ≤ secOff r j ∨ secOff r j + secLen r j ≤ secOff r i))

/-- The SHA-256 of the active owner key, as fuses hold it. -/
def ownerHash (s : State) : List Byte := (upto 4).flatMap (fun i => leBytes 8 (rd (Reg.SEC_OWNER i) s).toNat)

/-- What OWNER_SIG signs (R398). -/
def ownerMsg (r : Nat → Nat → List Byte) : List Byte := r 0 256 ++ r 4096 4096

/-- What VENDOR_SIG signs (R398). -/
def vendorMsg (r : Nat → Nat → List Byte) : List Byte :=
  ((upto (imgSects r)).filter (fun i => bitAt (secFlags r i) 0)).flatMap (fun i => secDigest r i)

/-- The FAIL code of the first of checks 1 to 8 of R399 that an image fails, 0 where it passes: `room` bounds IMAGE_LEN, and
`clean` tells whether every read was free of uncorrectable errors. -/
def imageFail (r : Nat → Nat → List Byte) (room : Nat) (clean : Bool) (s : State) : Nat :=
  let len := imgLen r
  if !(r 0 8 == asciiBytes "PNAJIG01" && imgNum r 8 4 == 1 && decide (1 ≤ imgSects r) && decide (imgSects r ≤ 64) &&
      len % 4096 == 0 && decide (8192 ≤ len) && decide (len ≤ 268435456) && decide (len ≤ room)) then 1
  else if !ownerUnset s && sha256 (r 256 56) != ownerHash s then 2
  else if !ownerUnset s && !lmsVerify (r 256 56) (r 312 1612) (ownerMsg r) then 3
  else if !lmsVerify Config.vendorKey (r 1924 1612) (vendorMsg r) then 4
  else if imgSvn r < s.sec.svn then 5
  else if !tableOk r then 6
  else if !(upto (imgSects r)).all (fun i => sha256 (secBytes r i) == secDigest r i) then 7
  else if !clean then 8
  else 0

/-- The flash as an image. -/
def flashImg (s : State) : Nat → Nat → List Byte := fun o n => memRead s.jig.flash o n

/-- The Ruril tiles from `t` onward as an image. -/
def tileImg (t : Nat) (s : State) : Nat → Nat → List Byte := fun o n => memRead s.ruril (t * 4096 + o) n

/-! ## Programming the flash (R401) -/

/-- Change the jig's state. -/
def setJig (f : JigSt → JigSt) (s : State) : State := { s with jig := f s.jig }

/-- PROGRAM: the staged image is found where the device state says. -/
def programStart (src : Src) (s : State) : State :=
  if (s.dev != 3 && s.dev != 5 && s.dev != 7) || s.jig.prog.isSome then refuse src Reg.JIG_CTL s
  else
    let first := if s.dev = 3 then sysTile else rdF Reg.JIG_IMG Fld.JIG_IMG_RBASE s
    let s := wr Reg.JIG_PROG_STATUS (setF Fld.JIG_PROG_STATUS_BUSY 0 1) s
    setJig (fun j => { j with prog := some (first, rdF Reg.JIG_IMG Fld.JIG_IMG_TILES s, s.dev) }) s

/-- JIG_PROG_STATUS as PROGRAM ends. -/
def programStatus (result fail tiles : Nat) (s : State) : State :=
  wr Reg.JIG_PROG_STATUS (setF Fld.JIG_PROG_STATUS_RESULT (setF Fld.JIG_PROG_STATUS_FAIL (w64 (tiles % 2 ^ 17)) fail) result) s

/-- PROGRAM fails: one record. -/
def programFail (result fail : Nat) (s : State) : State :=
  let s := programStatus result fail 0 s
  log 0x0202 kNone 0 none [rd Reg.JIG_PROG_STATUS s] s

/-- The bytes of a memory from `a` on, `n` of them, moved to address 0. -/
def cellsFrom (a n : Nat) (m : SMap Byte) : SMap Byte :=
  (m.filter (fun p => a ≤ p.1 && p.1 < a + n)).map (fun p => (p.1 - a, p.2))

/-- PROGRAM ends; `ok` tells whether the flash reads back as written. In BARE the device then runs LOAD. -/
def programDone (ok : Bool) (s : State) : State :=
  match s.jig.prog with
  | none => s
  | some (first, tiles, st) =>
    if held s || dead s then s
    else
      let s := setJig (fun j => { j with prog := none }) s
      let r := tileImg first s
      let len := imgLen r
      let clean := s.rbad.all (fun n => !(decide (first ≤ n) && decide (n * 4096 < first * 4096 + len)))
      let fail := if st ≠ 3 ∧ sysTile < first + tiles then 1 else imageFail r (tiles * 4096) clean s
      if fail ≠ 0 then programFail 2 fail s
      else if !ok then
        let x := nextFresh s
        programFail 3 0 (setJig (fun j => { j with flash := memWrite j.flash 0 (subBytes (Config.spoiled x.1) 0 4096) }) x.2)
      else
        let s := setJig (fun j => { j with flash := cellsFrom (first * 4096) len s.ruril }) s
        let s := programStatus 1 0 (len / 4096) s
        if s.dev = 3 then setDev 2 (setJig (fun j => { j with rebuild := false }) s) else s

/-- A write of JIG_CTL (R401, R413). -/
def jigCtlWrite (v : Word) (src : Src) (s : State) : State :=
  let s := if bitF Fld.JIG_CTL_PROGRAM v then programStart src s else s
  if bitF Fld.JIG_CTL_RESUME v && s.dev == 7 then devFollow (enterRunning 5 s) else s

/-! ## Dry-fit, go and cancel (R407, R408) -/

/-- STATE of the glue-up. -/
def glueState (s : State) : Nat := rdF Reg.JIG_GLUE_STATUS Fld.JIG_GLUE_STATUS_STATE s

/-- Set STATE of the glue-up. -/
def setGlue (x : Nat) (s : State) : State := wrF Reg.JIG_GLUE_STATUS Fld.JIG_GLUE_STATUS_STATE x s

/-- Word `i` of the open change set's header. -/
def headWord (i : Nat) (s : State) : Word := s.jig.head.getD i 0

/-- A field of the open change set's header. -/
def headF (i lo width : Nat) (s : State) : Nat := getF ⟨lo, width⟩ (headWord i s)

/-- ID of the glue-up. -/
def glueId (s : State) : Nat := headF 0 48 16 s
/-- GROUP of the glue-up. -/
def glueGroup (s : State) : Nat := headF 0 32 16 s
/-- STEP of the glue-up. -/
def glueStep (s : State) : Nat := headF 0 0 32 s
/-- HOLD of the glue-up. -/
def glueHolds (s : State) : Nat := headF 1 48 16 s
/-- FUNC of the glue-up. -/
def glueFunc (s : State) : Nat := headF 1 40 8 s
/-- Whether the glue-up is IMMEDIATE. -/
def glueNow (s : State) : Bool := headF 1 39 1 s == 1
/-- Whether the change set is SIGNED. -/
def glueSigned (s : State) : Bool := headF 1 38 1 s == 1
/-- Whether the glue-up is a compaction. -/
def glueCompact (s : State) : Bool := headF 1 37 1 s == 1
/-- NREC of the change set. -/
def glueRecs (s : State) : Nat := headF 1 0 28 s

/-- Word `w` of record `i` of the open change set. -/
def recWord (i w : Nat) (s : State) : Word := w64 (rurilWord ((s.jig.base + 1) * 4096 + 16 * i + 8 * w) s)

/-- OP of record `i`. -/
def recOp (i : Nat) (s : State) : Nat := getF ⟨60, 4⟩ (recWord i 0 s)

/-- The first record at or after `i` that is a FETCH; NREC where there is none. -/
def nextFetch (s : State) : Nat → Nat → Nat
  | 0, i => i
  | n + 1, i => if recOp i s = 1 then i else nextFetch s n (i + 1)

/-- The glue-up returns to IDLE with a RESULT; message 18 says so (R456). -/
def glueClose (result : Nat) (s : State) : State :=
  let s := setGlue 0 (wrF Reg.JIG_GLUE_STATUS Fld.JIG_GLUE_STATUS_RESULT result s)
  msixRaise 18 { s with dov := { s.dov with applying := false } }

/-- The glue-up ends without an apply. -/
def glueEnd (result : Nat) (s : State) : State := bump Reg.JIG_GLUE_FAILED (glueClose result s)

/-- CANCEL in FITTED or ARMED. -/
def glueCancel (s : State) : State := if glueState s = 2 ∨ glueState s = 3 then glueEnd 7 s else s

/-- GO in FITTED: the fetches run in record order; an IMMEDIATE glue-up with none left goes on at once. -/
def glueGoWrite (s : State) : State :=
  if glueState s ≠ 2 then s
  else
    let n := glueRecs s
    let f := nextFetch s n 0
    let s := setGlue 3 (setJig (fun j => { j with fetch := f }) s)
    if glueNow s && f == n then defer .glueGo s else s

/-- DRYFIT while no glue-up is open: the check starts. -/
def glueOpen (src : Src) (s : State) : State :=
  if glueState s ≠ 0 ∨ runs s = false ∨ bitF Fld.JIG_STATUS_LOADED (rd Reg.JIG_STATUS s) = false then refuse src Reg.JIG_GLUE_CTL s
  else
    let base := rdF Reg.JIG_GLUE_SRC Fld.JIG_GLUE_SRC_RBASE s
    let s := setJig (fun j => { j with base := base, bad := 0, fetch := 0, next := 0, wait := none, floor := false, fabric := false
                                       head := (upto 8).map (fun i => w64 (rurilWord (base * 4096 + 8 * i) s)) }) s
    wr Reg.JIG_GLUE_STATUS (setF Fld.JIG_GLUE_STATUS_STATE (w64 (glueId s * 2 ^ 32)) 1) s

/-- A write of JIG_GLUE_CTL: CANCEL, then GO, then DRYFIT. -/
def glueCtlWrite (v : Word) (src : Src) (s : State) : State :=
  let s := if bitF Fld.JIG_GLUE_CTL_CANCEL v then glueCancel s else s
  let s := if bitF Fld.JIG_GLUE_CTL_GO v then glueGoWrite s else s
  if bitF Fld.JIG_GLUE_CTL_DRYFIT v then glueOpen src s else s

end Sys2Proof.Machine
end

