-- ==== Sys2Proof/Machine/Marks.lean ====
section
/-!
DEFINITION. Clamp's registers and packets and the Mark barrier (spec/13_determinism.md).
-/
namespace Sys2Proof.Machine

/-! ## Clamp (R381 to R384) -/

/-- A write of DET_CLAMP_CTL (R381). -/
def clampCtlWrite (v : Word) (src : Src) (s : State) : State :=
  if anyRunning s && !s.priv then refuse src Reg.DET_CLAMP_CTL s
  else
    let s := wr Reg.DET_CLAMP_CTL (v &&& 0xFFFF000000000003) s
    if bitF Fld.DET_CLAMP_CTL_EN v then { wr Reg.DET_CLAMP_STATUS 0 s with clamp := ⟨[], [], [], [], []⟩ } else s

/-- The two words of a Clamp record (R382). -/
def ClampRec.words (x : ClampRec) : List Nat :=
  [x.bench * 2 ^ 53 + x.seq * 2 ^ 52 + x.tile % 512 * 2 ^ 43 + x.crc, x.pg % 2 ^ 32 * 2 ^ 32 + x.ord % 2 ^ 32]

/-- The Clamp record that two words spell. -/
def clampOf (a b : Nat) : ClampRec :=
  ⟨a / 2 ^ 53 % 2048, a / 2 ^ 52 % 2, a / 2 ^ 43 % 512, a % 2 ^ 32, b / 2 ^ 32 % 2 ^ 32, b % 2 ^ 32⟩

/-- The records of the payload words after a CLAMP packet's type word. -/
def clampRecs : List Word → List ClampRec
  | a :: b :: ws => clampOf a.toNat b.toNat :: clampRecs ws
  | _ => []

/-- The twin's PHYS (R232): the same slot of the paired tray. -/
def twinPhys (s : State) : Nat := (selfPhys s / 8 ^^^ 1) * 8 + selfPhys s % 8

/-- Send up to 256 records to the twin over port 7 (R383). -/
def clampSend (s : State) : State :=
  if s.clamp.out.isEmpty || !portActive 7 s then s
  else
    let now := s.clamp.out.take 256
    let p := ctlPacket (twinPhys s) 9 (now.map ClampRec.words).flatten s
    pushPacket 7 p { s with clamp := { s.clamp with out := s.clamp.out.drop 256 } }

/-- The twin's records arrive; those of one packet in ascending bench and sequencer where several differ (R384). -/
def clampReceive (p : Packet) (s : State) : State :=
  (clampRecs (p.ctl.drop 1)).foldl (fun s y => clampArrive y s) s

/-- A write of DET_CLAMP_FIRST: clearing it clears DET_CLAMP_FIRST2 with it. -/
def clampFirstWrite (v : Word) (s : State) : State :=
  if bitAt v.toNat 63 then wr Reg.DET_CLAMP_FIRST2 0 (wr Reg.DET_CLAMP_FIRST 0 s) else s

/-! ## Mark (R385 to R392) -/

/-- The Mark tree. -/
def markTree (s : State) : Nat := rdF Reg.DET_MARK_CFG Fld.DET_MARK_CFG_TREE s

/-- The Mark parent of a rank: its nearest LIVE ancestor on the Mark tree (R387). -/
def markUp : Nat → Nat → State → Option Nat
  | 0, _, _ => none
  | fuel + 1, r, s =>
    match treeParent (markTree s) r s with
    | some q => if rankLive q s then some q else markUp fuel q s
    | none => none

/-- The Mark parent of rank `r`. -/
def markParent (r : Nat) (s : State) : Option Nat := markUp 32768 r s

/-- The LIVE members whose Mark parent rank `m` is, in ascending tree position. -/
def markChildren (m : Nat) (s : State) : List Nat :=
  let t := markTree s
  ((upto (groupN (treeGroup t s) s)).map (fun p => treeRankAt t p s)).filter (fun r =>
    r != m && rankLive r s && markParent r s == some m)

/-- Whether a sequencer is blocked in a SYNC with MARK set that no Mark has released. -/
def Seq.inMark (x : Seq) : Bool :=
  match x.blocked with
  | .sync mask _ marked => bitAt mask 7 && !marked
  | _ => false

/-- How many sequencers are blocked in a SYNC with MARK set. -/
def markBlocked (s : State) : Nat :=
  (s.benches.map (fun p => b2n p.2.seq0.inMark + b2n p.2.seq1.inMark)).sum

/-- Whether the device is arrived (R387). -/
def markReady (r : Nat) (s : State) : Bool :=
  let n := rdF Reg.DET_MARK_CFG Fld.DET_MARK_CFG_NSEQ s
  s.mark.phase == .gather && (s.mark.sw || (n != 0 && decide (n ≤ markBlocked s))) &&
    (treePos (markTree s) r s).isSome && (markChildren r s).all (fun c => s.mark.got.contains c)

/-- Store the WAITING bit. -/
def markWaiting (x : Nat) (s : State) : State := wrF Reg.DET_MARK_STATUS Fld.DET_MARK_STATUS_WAITING x s

/-- Word 3 of MARK and ARRIVE. -/
def markKey (s : State) : Nat := jobEpoch s * 2 ^ 32 + jobKey s

/-- Send MARK to the LIVE members below rank `r` (R388). -/
def markCopies (r lead id : Nat) (replayed : Bool) (s : State) : State :=
  (markChildren r s).foldl (fun s c =>
    sendCtlRank c 7 [markTree s * 2 ^ 56 + id % 65536 * 2 ^ 32 + lead, b2n replayed * 2 ^ 63, markKey s] s) s

/-- How many packets the ports still have to start that are MARK copies. -/
def markOut (s : State) : Nat :=
  (s.ports.map (fun p => (p.2.txq.filter (fun x => isCtl x.pkt && pkC x.pkt 0 == 7)).length)).sum

/-- ROOT sends MARK (R388). Under R389 t0 is known; otherwise the first copy's departure fixes it, and a ROOT that
has no copy to send takes this cycle. -/
def markRoot (r : Nat) (s : State) : State :=
  match s.mark.ref with
  | some (c, ps) =>
    let s := { s with mark := { s.mark with phase := .releaseSet, stretch := s.kiln.drooped, rel := some (relOf c ps (markLead s) (markId s)) } }
    markCopies r (markLead s) (markId s) s.mark.replayed s
  | none =>
    let n := markOut s
    let s := markCopies r (markLead s) (markId s) false { s with mark := { s.mark with phase := .copiesSent } }
    if markOut s = n then markT0 s else s

/-- Send the TWIN_MARK packets that are owed while port 7 is ACTIVE (R389). -/
def twinFlush (s : State) : State :=
  if portActive 7 s then
    let owed := s.mark.owed
    owed.foldl (fun s ph => pushPacket 7 (ctlPacket (twinPhys s) 10 [markTree s * 2 ^ 56 + ph, 0, 0] s) s)
      { s with mark := { s.mark with owed := [] } }
  else s

/-- A ROOT that has sent and received ARRIVED: the one with the lower PHYS leads and sends GO. -/
def twinJoin (s : State) : State :=
  if s.mark.phase = .awaitTwin ∧ s.mark.twinGot = true ∧ s.mark.owed = [] ∧ selfPhys s < twinPhys s then
    twinFlush { s with mark := { s.mark with phase := .goSent, owed := [1], twinGot := false } }
  else s

/-- The device has arrived (R387, R389): it uses up what it has gathered. -/
def markArrived (r : Nat) (s : State) : State :=
  let m := s.mark
  let clear := { m with sw := false, got := [], since := s.cycle, timedOut := false, ref := none, replayed := false, rel := none }
  if treeRoot (markTree s) s ≠ r then
    let s := markWaiting 1 { s with mark := { clear with phase := .awaitMark } }
    match markParent r s with
    | some q => sendCtlRank q 8 [markTree s * 2 ^ 56 + r, 0, markKey s] s
    | none => s
  else if bitF Fld.DET_MARK_CFG_TWIN (rd Reg.DET_MARK_CFG s) then
    twinJoin (twinFlush (markWaiting 1 { s with mark := { clear with phase := .awaitTwin, owed := [0] } }))
  else markRoot r { s with mark := clear }

/-- Look whether a Mark goes on: arrival, what is owed to the twin, and the copies that follow a GO. -/
def markCheck (s : State) : State :=
  let s := twinJoin (twinFlush s)
  match ownRank s with
  | none => s
  | some r =>
    if markReady r s then markArrived r s
    else if s.mark.phase = .goSent ∧ s.mark.ref.isSome = true then markRoot r s
    else s

/-- Whether a MARK or ARRIVE belongs to the device's job and Mark tree. -/
def markMine (p : Packet) (s : State) : Bool :=
  jobState s != 0 && pkC p 3 % 2 ^ 32 == jobKey s && pkC p 3 / 2 ^ 32 % 65536 == jobEpoch s && pkC p 1 / 2 ^ 56 == markTree s

/-- ARRIVE of a member (R387). -/
def arriveReceive (p : Packet) (s : State) : State :=
  if !markMine p s then s
  else
    let r := pkC p 1 % 2 ^ 15
    if s.mark.got.contains r then s else markCheck { s with mark := { s.mark with got := s.mark.got ++ [r] } }

/-- One-way delay of a port in picoseconds. -/
def portDelay (n : Nat) (s : State) : Nat :=
  if n = 16 then 0 else rdF (Reg.DET_PORT_DELAY n) Fld.DET_PORT_DELAY_DELAY_PS s

/-- MARK (R388, R390, R392): it sets the release and goes on to the members below. -/
def markReceive (n : Nat) (a : RxPkt) (s : State) : State :=
  let p := a.pkt
  if !markMine p s || s.mark.phase != .awaitMark then s
  else match ownRank s with
    | none => s
    | some r =>
      let e := pkC p 2 % 2 ^ 40 + portDelay n s
      let rep := a.replayed || decide (pkC p 2 / 2 ^ 63 = 1)
      let lead := pkC p 1 % 4096
      let (f, h, id, late) := relOf a.when e lead (pkC p 1 / 2 ^ 32 % 65536)
      let s := { s with mark := { s.mark with
        phase := .releaseSet, stretch := s.kiln.drooped, ref := some (a.when, e), replayed := rep, rel := some (f, h, id, late || rep) } }
      markCopies r lead id rep s

/-- TWIN_MARK (R386, R389). -/
def twinReceive (n : Nat) (a : RxPkt) (s : State) : State :=
  if n ≠ 7 ∨ bitF Fld.DET_MARK_CFG_TWIN (rd Reg.DET_MARK_CFG s) = false then s
  else if pkC a.pkt 1 % 2 = 0 then twinJoin { s with mark := { s.mark with twinGot := true } }
  else if s.mark.phase = .awaitTwin ∧ s.mark.twinGot = true ∧ s.mark.owed = [] then
    match ownRank s with
    | some r => markRoot r { s with mark := { s.mark with
        ref := some (a.when, portDelay 7 s), replayed := a.replayed, twinGot := false } }
    | none => s
  else s

/-- Every blocked SYNC with MARK set counts as released. -/
def markFree (s : State) : State :=
  let free := fun (x : Seq) => match x.blocked with
    | .sync mask po m => if bitAt mask 7 && !m then { x with blocked := .sync mask po true } else x
    | _ => x
  s.benches.foldl (fun s p =>
    if p.2.seq0.inMark || p.2.seq1.inMark then
      setBench p.1 { p.2 with seq0 := free p.2.seq0, seq1 := free p.2.seq1 } s
    else s) s

/-- The SYNCs that a Mark or a cancel has released end, those whose units are done (R106, R390). -/
def markEnd (s : State) : State :=
  (s.benches.map (·.1)).foldl (fun s b => (upto 2).foldl (fun s q =>
    match (seqOf b q s).blocked with
    | .sync mask _ true => if bitAt mask 7 then syncRelease b q s else s
    | _ => s) s) s

/-- The root periods by which droop holds have moved the chosen frame start (R469). -/
def droopMoved (s : State) : Nat :=
  s.kiln.drooped + (match s.kiln.droop with | some c => s.cycle - c | none => 0) - s.mark.stretch

/-- The release (R390, R392). Droop holds since the choice take the place of the hold, and beyond it make the release
late (R469). -/
def markRelease (s : State) : State :=
  match s.mark.rel with
  | none => s
  | some (f, h0, id, late0) =>
    let s := advanceTo (frameFrom (max s.cycle f)) s
    let d := droopMoved s
    let late := late0 || decide (h0 < d)
    let h := h0 - d
    let w := setF Fld.DET_MARK_STATUS_VALID (setF Fld.DET_MARK_STATUS_LATE 0 (b2n late)) 1
    let w := setF Fld.DET_MARK_STATUS_STRETCH (setF Fld.DET_MARK_STATUS_MARK w id) h
    let s := bump Reg.DET_MARK_COUNT (wr Reg.DET_MARK_CYCLE (w64 s.cycle) (wr Reg.DET_MARK_STATUS w s))
    let s := if late then
        log 0x0A03 kTree (markTree s) none [rd Reg.DET_MARK_STATUS s] (bump Reg.DET_MARK_LATE s)
      else s
    let s := { s with mark := { s.mark with phase := .gather, rel := none } }
    defer .markCheck (markEnd (markFree s))

/-- A member has been WAITING for TIMEOUT_MS (R392). -/
def markTimeout (s : State) : State :=
  let t := rdF Reg.DET_MARK_CFG Fld.DET_MARK_CFG_TIMEOUT_MS s
  if t = 0 ∨ s.mark.timedOut = true ∨ bitF Fld.DET_MARK_STATUS_WAITING (rd Reg.DET_MARK_STATUS s) = false then s
  else
    let s := advanceTo (s.mark.since + msCycles t) s
    log 0x0A04 kTree (markTree s) none [rd Reg.DET_MARK_STATUS s] { s with mark := { s.mark with timedOut := true } }

/-- A write of DET_MARK_CFG (R393). -/
def markCfgWrite (v : Word) (src : Src) (s : State) : State :=
  if (bitF Fld.DET_MARK_STATUS_WAITING (rd Reg.DET_MARK_STATUS s) || markBlocked s != 0) && !s.priv then refuse src Reg.DET_MARK_CFG s
  else markCheck (wr Reg.DET_MARK_CFG (v &&& 0xFFFFFFFFFFFF0001) s)

/-- A write of CANCEL (R392): blocked SYNCs end at the next frame start. -/
def markCancel (s : State) : State :=
  let s := markFree s
  let s := wrF Reg.DET_MARK_STATUS Fld.DET_MARK_STATUS_CANCELLED 1 (markWaiting 0 s)
  markEnd { s with mark := MarkSt.empty }

/-- A write of DET_MARK_CTL. -/
def markCtlWrite (v : Word) (s : State) : State :=
  let s := if bitF Fld.DET_MARK_CTL_CANCEL v then markCancel s else s
  if bitF Fld.DET_MARK_CTL_ARRIVE v then markCheck { s with mark := { s.mark with sw := true } } else s

/-- A Mark packet or CLAMP packet that a port gave back (R258, R383, R389): TWIN_MARK waits for port 7 again, and the
records of a CLAMP packet are sent again. -/
def twinBack (p : Packet) (s : State) : State :=
  { s with mark := { s.mark with owed := s.mark.owed ++ [pkC p 1 % 2] } }

/-- The records of a CLAMP packet that was given back. -/
def clampBack (p : Packet) (s : State) : State :=
  { s with clamp := { s.clamp with out := clampRecs (p.ctl.drop 1) ++ s.clamp.out } }

end Sys2Proof.Machine
end

