-- ==== Sys2Proof/Machine/Bus.lean ====
section
/-!
DEFINITION. The register file as the host, the sideband and glue-up reach it: what a write of each register does, what a read
returns, and which accesses are refused (R5 to R8, R484, R521 to R524).
-/
namespace Sys2Proof.Machine

/-! ## Where an offset lies -/

/-- Whether an offset lies in the ERR_RECORD window (R527). -/
def errWindow (off : Nat) : Bool := decide (0x3C10000 ≤ off) && decide (off < 0x3C50000)

/-- The place of an offset in its row: the bench, context, port, ring or group. -/
def rowPlace (r : RegRow) (off : Nat) : Nat := if r.stride = 0 then 0 else (off - r.base) / r.stride

/-- The bits that software may write. -/
def rwMask (r : RegRow) : Word := r.rw ||| r.rws

/-- A write by the access codes alone (R8). -/
def plainWrite (r : RegRow) (off : Nat) (v : Word) (s : State) : State :=
  wr off (((rd off s &&& ~~~(rwMask r)) ||| (v &&& rwMask r)) &&& ~~~(v &&& r.w1c)) s

/-! ## Tables of the transport and the collectives (R314, R320) -/

/-- Put a checked word into a table, a word of which holds the bits of `mask`. -/
def maskedPut (key : Nat → Nat) (mask : Nat → Word) (ok : Nat → Word → State → Bool) (i : Nat) (v : Word) (s : State) : Option State :=
  let t := tbW (key i) (v &&& mask i) s
  if setupOpen s && ok i v t then some t else none

/-- An access to FAB_XDESC_DATA: the reserved values of KIND are refused (R283). -/
def xdescAccess (a : Access) (src : Src) (s : State) : State :=
  fabAccess Reg.FAB_XDESC_ADDR Reg.FAB_XDESC_DATA 13 Tab.XDESC a
    (maskedPut Tab.XDESC (fun i => if i % 2 = 0 then 0xFFC3FFFFFFFFF800 else 0xFFFFFFFFFFFF0000)
      (fun i v _ => i % 2 == 1 || decide (getF Fld.XDESC0_KIND v ≤ 3))) src s

/-- Whether group `g` stands as R317 wants it. -/
def groupSound (g : Nat) (s : State) : Bool :=
  let n := groupN g s
  let w0 := groupWord g 0 s
  let list := getF Fld.GROUP0_MODE w0 == 1
  decide (1 ≤ n) && decide (n ≤ 32768) &&
    (if list then
      let b := getF Fld.GROUP1_LBASE (groupWord g 1 s)
      decide (b + n ≤ 65536) && (upto (n - 1)).all (fun i => decide (listEntry (b + i) s < listEntry (b + i + 1) s))
    else
      (decide (n = 1) || decide (1 ≤ getF Fld.GROUP0_STRIDE w0)) &&
        decide (getF Fld.GROUP0_FIRST w0 + (n - 1) * getF Fld.GROUP0_STRIDE w0 < 32768))

/-- An access to COL_GROUP_DATA. -/
def groupAccess (a : Access) (src : Src) (s : State) : State :=
  fabAccess Reg.COL_GROUP_ADDR Reg.COL_GROUP_DATA 11 Tab.GROUP a
    (maskedPut Tab.GROUP (fun i => if i % 2 = 0 then 0xFFFFFFFFFFFFF000 else 0xFFFF)
      (fun i _ t => !bitF Fld.GROUP0_VALID (groupWord (i / 2) 0 t) || groupSound (i / 2) t)) src s

/-- An access to COL_LIST_DATA. -/
def listAccess (a : Access) (src : Src) (s : State) : State :=
  fabAccess Reg.COL_LIST_ADDR Reg.COL_LIST_DATA 14 Tab.LIST a
    (maskedPut Tab.LIST (fun _ => 0x7FFF7FFF7FFF7FFF) (fun _ _ _ => true)) src s

/-- An access to COL_DESC_DATA. -/
def descAccess (a : Access) (src : Src) (s : State) : State :=
  fabAccess Reg.COL_DESC_ADDR Reg.COL_DESC_DATA 13 Tab.DESC a
    (maskedPut Tab.DESC (fun i => [0xFFFFFFFFFFFFE000, 0xFFFFFFFFFFFFF000, 0xFFFFFFFF0FFFFFFF, 0xFFFFFFFF0FFFFFFF,
      0xFFFFFFFFFFFF0000].getD (i % 8) 0) (fun _ _ _ => true)) src s

/-- An access to COL_GSEQ_DATA: ABORTED = 0 clears ABORT_FROM (R348). -/
def gseqAccess (a : Access) (src : Src) (s : State) : State :=
  fabAccess Reg.COL_GSEQ_ADDR Reg.COL_GSEQ_DATA 10 Tab.GSEQ a
    (fun i v s => if setupOpen s then
        some (tbW (Tab.GSEQ i) (if bitF Fld.COL_GSEQ_DATA_ABORTED v then v else v &&& 0xFFFFFFFF) s) else none) src s

/-! ## Writes, block by block -/

/-- A write of a BEN register of bench `b`. -/
def benWrite (r : RegRow) (b off : Nat) (v : Word) (src : Src) (s : State) : State :=
  if off = Reg.BEN_CTL b then benCtlWrite b v src s
  else if [Reg.BEN_FAULT0 b, Reg.BEN_FAULT1 b, Reg.BEN_EXC_FIRST b, Reg.BEN_CHECK_FIRST b].contains off then clearOnValid off v s
  else if off = Reg.BEN_EXC_CTL b then excCtlWrite b v src s
  else if off = Reg.BEN_IMEM_DATA b then imemWrite b v src s
  else if off = Reg.BEN_START b then benStartWrite b v src s
  else if off = Reg.BEN_RESET b then benResetWrite b v src s
  else if off = Reg.BEN_FDESC_DATA b then fdescAccess b (.write v) src s
  else if off = Reg.BEN_FLOOR_SYS b then floorSysWrite b v src s
  else plainWrite r off v s

/-- A write of a register of the GLB block; `k` is the ring of a ring register. -/
def glbWrite (r : RegRow) (k off : Nat) (v : Word) (src : Src) (s : State) : State :=
  if off = Reg.GLB_STATE_CTL then stateCtlWrite v src s
  else if off = Reg.GLB_RESET_CTL then resetCtlWrite v src s
  else if off = Reg.GLB_SUPPLY then supplyWrite v s
  else if off = Reg.GLB_WARM_RESETS then s
  else if off = Reg.GLB_BAD_FIRST then badFirstWrite v s
  else if off = Reg.GLB_FLOOR_CTL then floorCtlWrite v src s
  else if off = Reg.GLB_HIF_OVF then (if (runningCtxs s).isEmpty then plainWrite r off v s else refuse src off s)
  else if off = Reg.GLB_HIF_IR_BASE k then irBaseWrite k v s
  else if off = Reg.GLB_HIF_IR_CFG k then irCfgWrite k v s
  else if off = Reg.GLB_HIF_CR_CFG k then crCfgWrite k v s
  else plainWrite r off v s

/-- A write of a register of the JIG block. -/
def jigWrite (r : RegRow) (off : Nat) (v : Word) (src : Src) (s : State) : State :=
  if off = Reg.JIG_CTL then jigCtlWrite v src s
  else if off = Reg.JIG_GLUE_CTL then glueCtlWrite v src s
  else if off = Reg.JIG_GLUE_STATUS then s
  else plainWrite r off v s

/-- A write of a register of the DOV block; `c` is the context of a context register. -/
def dovWrite (r : RegRow) (c off : Nat) (v : Word) (src : Src) (s : State) : State :=
  if off = Reg.DOV_CTL then dovCtlWrite v src s
  else if off = Reg.DOV_LAYER_DATA then layerAccess (.write v) src s
  else if off = Reg.DOV_SEL_DATA then selAccess (.write v) src s
  else if off = Reg.DOV_DISP_DATA then dispAccess (.write v) src s
  else if off = Reg.DOV_MAP_DATA then mapAccess (.write v) src s
  else if off = Reg.DOV_LOC_DATA then locAccess (.write v) src s
  else if off = Reg.DOV_CTX_TOKENS c then tokensWrite c v src s
  else if [Reg.DOV_CTX_PORTS c, Reg.DOV_CTX_GAUGE c, Reg.DOV_CTX_DISP c, Reg.DOV_CTX_PLACE c, Reg.DOV_CTX_PLACE2 c].contains off then
    dovRegWrite off (rwMask r) v src s
  else plainWrite r off v s

/-- A write of a register of the TIR or BPM block. -/
def poolWrite (r : RegRow) (off : Nat) (v : Word) (src : Src) (s : State) : State :=
  if off = Reg.TIR_OBJ_DATA then objAccess (.write v) src s
  else if off = Reg.TIR_REQ0 ∨ off = Reg.BPM_REQ0 then wr off (v &&& r.wo) s
  else if off = Reg.TIR_REQ1 then submitReq v s
  else if off = Reg.TIR_POISON_FIRST then poisonFirstWrite v s
  else if off = Reg.BPM_POOL_CTL then poolCtlWrite v src s
  else if off = Reg.BPM_REQ1 then poolSubmit v s
  else if off = Reg.BPM_STEP_END then stepEndWrite v s
  else if off = Reg.BPM_SLOT_REQ then slotReq v s
  else plainWrite r off v s

/-- A write of a register of the CTX block; `c` is the context of a context register. -/
def ctxWrite (r : RegRow) (c off : Nat) (v : Word) (src : Src) (s : State) : State :=
  if off = Reg.CTX_BENCH_DATA then benchTabAccess (.write v) src s
  else if off = Reg.CTX_SEM_DATA then semDataWrite v src s
  else if off = Reg.CTX_CTL c then ctxCtlWrite c v src s
  else if off = Reg.CTX_RESET c then ctxResetWrite c v src s
  else if [Reg.CTX_SLOTS c, Reg.CTX_RURIL_QUOTA c, Reg.CTX_FABRIC c, Reg.CTX_INTAKE c, Reg.CTX_HOLD c].contains off then
    (if ctxRegOpen c s then plainWrite r off v s else refuse src off s)
  else plainWrite r off v s

/-- A write of a register of the FAB block; `n` is the port of a port register. -/
def fabWrite (r : RegRow) (n off : Nat) (v : Word) (src : Src) (s : State) : State :=
  if off = Reg.FAB_PORT_CTL n then portCtlWrite n v s
  else if off = Reg.FAB_PORT_STATUS n ∨ off = Reg.FAB_CUT_USED then s
  else if off = Reg.FAB_LINK_CFG n then linkCfgWrite n v src s
  else if off = Reg.FAB_JOB_CTL then jobCtlWrite v s
  else if off = Reg.FAB_START ∨ off = Reg.FAB_NET_CFG ∨ inRun (Reg.FAB_EXPECT 0) 8 4 off = true then setupWrite off (rwMask r) v src s
  else if off = Reg.FAB_RANK_DATA then rankAccess (.write v) src s
  else if off = Reg.FAB_PLANE_DATA then planeAccess (.write v) src s
  else if off = Reg.FAB_TREE_DATA then treeAccess (.write v) src s
  else if off = Reg.FAB_XDESC_DATA then xdescAccess (.write v) src s
  else if off = Reg.FAB_XPORT_CFG ∨ off = Reg.FAB_CUT then (if setupOpen s then plainWrite r off v s else refuse src off s)
  else if off = Reg.FAB_TREE_FAILED then clearOnValid off v s
  else plainWrite r off v s

/-- A write of a register of the COL block. -/
def colWriteReg (r : RegRow) (off : Nat) (v : Word) (src : Src) (s : State) : State :=
  if off = Reg.COL_GROUP_DATA then groupAccess (.write v) src s
  else if off = Reg.COL_LIST_DATA then listAccess (.write v) src s
  else if off = Reg.COL_DESC_DATA then descAccess (.write v) src s
  else if off = Reg.COL_GSEQ_DATA then gseqAccess (.write v) src s
  else if off = Reg.COL_START then colStartDesc (getF Fld.COL_START_DESC v) false s
  else plainWrite r off v s

/-- A write of a register of the DET block. -/
def detWrite (r : RegRow) (off : Nat) (v : Word) (src : Src) (s : State) : State :=
  if off = Reg.DET_CLAMP_CTL then clampCtlWrite v src s
  else if off = Reg.DET_CLAMP_FIRST then clampFirstWrite v s
  else if off = Reg.DET_MARK_CFG then markCfgWrite v src s
  else if off = Reg.DET_MARK_CTL then markCtlWrite v s
  else if inRun (Reg.DET_TCC_FIRST 0) 8 16 off then clearOnValid off v s
  else plainWrite r off v s

/-- A write of a register of the SEC, MGT or ERR block. -/
def secWrite (r : RegRow) (off : Nat) (v : Word) (src : Src) (s : State) : State :=
  if off = Reg.SEC_FUSE_CTL then fuseCtlWrite v src s
  else if off = Reg.MGT_TRAY then trayWrite v src s
  else if off = Reg.ERR_HEAD then errHeadWrite v src s
  else plainWrite r off v s

/-- A write of the register at a defined offset. -/
def regWrite (src : Src) (r : RegRow) (off : Nat) (v : Word) (s : State) : State :=
  let k := rowPlace r off
  if off < 0x0100000 then glbWrite r k off v src s
  else if off < 0x0200000 then jigWrite r off v src s
  else if off < 0x0400000 then kilnWrite off (rwMask r) v src s
  else if off < 0x0800000 then dovWrite r k off v src s
  else if off < 0x0C00000 then poolWrite r off v src s
  else if off < 0x1000000 then ctxWrite r k off v src s
  else if off < 0x1800000 then fabWrite r k off v src s
  else if off < 0x1C00000 then colWriteReg r off v src s
  else if off < 0x2000000 then detWrite r off v src s
  else if off < 0x3000000 then benWrite r k off v src s
  else secWrite r off v src s

/-- A 64-bit write at an offset: an undefined one is bad, a read-only one has no effect (R6, R8). -/
def busWrite (src : Src) (off : Nat) (v : Word) (s : State) : State :=
  match regRowAt off with
  | some r => regWrite src r off v s
  | none => if errWindow off then s else badAccess src 2 off s

/-! ## Reads -/

/-- BEN_STATUS as it reads (R54). -/
def benStatusWord (b : Nat) (s : State) : Word :=
  let w := setF Fld.BEN_STATUS_STATE1 (setF Fld.BEN_STATUS_PC1 0 (seqOf b 1 s).shown) (seqCode b 1 s)
  setF Fld.BEN_STATUS_STATE0 (setF Fld.BEN_STATUS_PC0 w (seqOf b 0 s).shown) (seqCode b 0 s)

/-- BEN_CYCLE_COUNT as it reads. -/
def cycleCountWord (b : Nat) (s : State) : Word :=
  rd (Reg.BEN_CYCLE_COUNT b) s + w64 (match (benchOf b s).runSince with | some c => s.cycle - c | none => 0)

/-- BPM_STEP_STATUS as it reads: a boundary whose work has ended awaits its frame start with BUSY 0. -/
def stepStatusWord (s : State) : Word :=
  match s.pool.bnd with
  | some b => if b.phase = 6 ∧ b.endAt ≤ s.cycle then w64 (rdF Reg.BPM_STEP_STATUS Fld.BPM_STEP_STATUS_STEP s) else rd Reg.BPM_STEP_STATUS s
  | none => rd Reg.BPM_STEP_STATUS s

/-- FAB_CUT_STALL as it reads: waits that run count up to this cycle. -/
def cutStallWord (s : State) : Word :=
  rd Reg.FAB_CUT_STALL s + w64 (sum ((s.xport.cutWait.filter (fun p => p.2 != 0)).map (fun p => s.cycle + 1 - p.2)))

/-- The value that a register reads as, address increments aside. -/
def regValue (r : RegRow) (off : Nat) (s : State) : Word :=
  let k := rowPlace r off
  if off = Reg.BEN_STATUS k then benStatusWord k s
  else if off = Reg.BEN_CYCLE_COUNT k then cycleCountWord k s
  else if off = Reg.BPM_STEP_STATUS then stepStatusWord s
  else if off = Reg.BPM_STAGE_FREE then w64 (1024 - sum (s.pool.stage.map (·.2)))
  else if off = Reg.CTX_RURIL_USED k then w64 (rurilUsed k s)
  else if off = Reg.COL_SLOT_USED then w64 (colUsed s)
  else if off = Reg.FAB_CUT_STALL then cutStallWord s
  else if off = Reg.DOV_STATUS then setF Fld.DOV_STATUS_ACTIVE (rd off s) (dovActive s)
  else if off = Reg.DET_CYCLE then w64 s.cycle
  else if off = Reg.FAB_PORT_STATUS k then setF Fld.FAB_PORT_STATUS_UNACKED (rd off s) (portOf k s).retry.length
  else if off = Reg.GLB_SUPPLY then supplyWord s
  else if off = Reg.GLB_CLK_STATUS then clkWord s
  else if off = Reg.JIG_STATUS then jigStatusWord s
  else rd off s &&& (rwMask r ||| r.w1c ||| r.ro)

/-- A read of the register at a defined offset. -/
def regRead (src : Src) (r : RegRow) (off : Nat) (s : State) : State :=
  let k := rowPlace r off
  if off = Reg.BEN_IMEM_DATA k then imemRead k src s
  else if off = Reg.BEN_FDESC_DATA k then fdescAccess k .read src s
  else if off = Reg.TIR_OBJ_DATA then objAccess .read src s
  else if off = Reg.BPM_SLOT_DATA then slotDataRead src s
  else if off = Reg.DOV_LAYER_DATA then layerAccess .read src s
  else if off = Reg.DOV_SEL_DATA then selAccess .read src s
  else if off = Reg.DOV_DISP_DATA then dispAccess .read src s
  else if off = Reg.DOV_MAP_DATA then mapAccess .read src s
  else if off = Reg.DOV_LOC_DATA then locAccess .read src s
  else if off = Reg.CTX_BENCH_DATA then benchTabAccess .read src s
  else if off = Reg.CTX_SEM_DATA then semDataRead src s
  else if off = Reg.FAB_RANK_DATA then rankAccess .read src s
  else if off = Reg.FAB_PLANE_DATA then planeAccess .read src s
  else if off = Reg.FAB_TREE_DATA then treeAccess .read src s
  else if off = Reg.FAB_XDESC_DATA then xdescAccess .read src s
  else if off = Reg.COL_GROUP_DATA then groupAccess .read src s
  else if off = Reg.COL_LIST_DATA then listAccess .read src s
  else if off = Reg.COL_DESC_DATA then descAccess .read src s
  else if off = Reg.COL_GSEQ_DATA then gseqAccess .read src s
  else reply src (regValue r off s) s

/-- A 64-bit read at an offset: an undefined one is bad and returns 0 (R6). -/
def busRead (src : Src) (off : Nat) (s : State) : State :=
  match regRowAt off with
  | some r => regRead src r off s
  | none =>
    if errWindow off then reply src (tb (Tab.ERR ((off - 0x3C10000) / 8)) s) s
    else reply src 0 (badAccess src 2 off s)

/-- A 64-bit access at an offset. -/
def busAccess (src : Src) (off : Nat) (a : Access) (s : State) : State :=
  match a with
  | .read => busRead src off s
  | .write v => busWrite src off v s

/-! ## Who may access what -/

/-- The bit of change-set header word 1 that names the block of an offset (R403); none for a block that glue-up does not take. -/
def glueBit (off : Nat) : Option Nat :=
  if off = Reg.GLB_FLOOR_CTL then some 42
  else if 0x0200000 ≤ off ∧ off < 0x0400000 then some 34
  else if 0x0400000 ≤ off ∧ off < 0x0800000 then some 40
  else if 0x0800000 ≤ off ∧ off < 0x0A00000 then some 41
  else if 0x0A00000 ≤ off ∧ off < 0x0C00000 then some 46
  else if 0x0C00000 ≤ off ∧ off < 0x1000000 then some 33
  else if 0x1000000 ≤ off ∧ off < 0x1120000 then some 43
  else if 0x1120000 ≤ off ∧ off < 0x1800000 then some 44
  else if 0x1800000 ≤ off ∧ off < 0x1C00000 then some 45
  else if 0x1C00000 ≤ off ∧ off < 0x2000000 then some 35
  else if 0x2000000 ≤ off ∧ off < 0x3000000 then
    (if [0x78, 0x80, 0xA8].contains (off % 0x1000) then some 42 else some 47)
  else none

/-- Whether an open glue-up that has passed its dry-fit shuts the block of an offset to software (R407). -/
def glueShuts (off : Nat) (s : State) : Bool :=
  decide (2 ≤ glueState s) && (match glueBit off with | some b => bitAt (headWord 1 s).toNat b | none => false)

/-- Whether an offset lies in the JIG block. -/
def inJig (off : Nat) : Bool := decide (0x0100000 ≤ off) && decide (off < 0x0200000)

/-- Whether an offset lies in the MGT block. -/
def inMgt (off : Nat) : Bool := decide (0x3800000 ≤ off) && decide (off < 0x3C00000)

/-- Whether a host write is refused by the device state or the IDE policy (R424, R497). -/
def hostShut (off : Nat) (s : State) : Bool :=
  ((s.dev == 2 || s.dev == 3) && !inJig off) ||
    (bitF Fld.SEC_POLICY_IDE_REQUIRED (rd Reg.SEC_POLICY s) && !bitF Fld.GLB_HIF_LINK_IDE_IO (rd Reg.GLB_HIF_LINK s))

/-- Whether a sideband access reaches its register (R484). -/
def sbReaches (a : Access) (off : Nat) (s : State) : Bool :=
  let low := held s || dead s
  match a with
  | .read => !low || inMgt off || off == Reg.GLB_SUPPLY || off == Reg.GLB_RESET_CAUSE
  | .write _ => inMgt off || (!low && (inJig off || bitF Fld.SEC_POLICY_SB_WRITE (rd Reg.SEC_POLICY s)))

/-- MGT_SB_STATUS.LAST after a transfer. -/
def sbLast (x : Nat) (s : State) : State := wrF Reg.MGT_SB_STATUS Fld.MGT_SB_STATUS_LAST x s

/-- The target refuses a transfer (`x` 1) or finds it bad (2): the read that follows returns zeros (R483, R484). -/
def sbFail (x : Nat) (s : State) : State :=
  let s := bump Reg.MGT_SB_ERRORS (sbLast x s)
  { s with mgt := { s.mgt with data := List.replicate 64 0 } }

/-- Carry out an access, or refuse a write that an open glue-up shuts out. -/
def gluedAccess (src : Src) (off : Nat) (a : Access) (k : State → State) (s : State) : State :=
  match a with
  | .read => k s
  | .write _ => if glueShuts off s then refuse src off s else k s

/-- A register access from outside: `k` is its effect where it is not refused. -/
def access (src : Src) (off : Nat) (a : Access) (k : State → State) (s : State) : State :=
  match src with
  | .host =>
    if !hostOpen s then s
    else match a with
      | .read => k s
      | .write _ => if hostShut off s then refuse .host off s else gluedAccess .host off a k s
  | .sideband =>
    if !sbAddressed s then s
    else
      let s := bump Reg.MGT_SB_XFERS s
      if sbReaches a off s then gluedAccess .sideband off a k (sbLast 0 s) else sbFail 1 s

/-- A 64-bit register access from outside. -/
def regAccess (src : Src) (off : Nat) (a : Access) (s : State) : State := access src off a (busAccess src off a) s

/-- A register access of `size` bytes: a narrow or unaligned one is bad (R6). -/
def sizedAccess (src : Src) (off size : Nat) (a : Access) (s : State) : State :=
  let bad := fun (k : Nat) (s : State) =>
    let s := badAccess src k off s
    match a with
    | .read => reply src 0 s
    | .write _ => s
  access src off a (fun s =>
    if size ≠ 8 then bad 0 s else if off % 8 ≠ 0 then bad 1 s else busAccess src off a s) s

end Sys2Proof.Machine
end

