-- ==== Sys2Proof/Machine/Jig.lean ====
section
/-!
DEFINITION. Records and configuration sections: what a record does, which records a section and a change set may hold, LOAD
from flash, the journal and its base slots, and the rebuild after a warm reset (spec/14_jig_and_glueup.md).
-/
namespace Sys2Proof.Machine

/-! ## Records (R405, R410) -/

/-- The offset that a WRITE record names. -/
def recOff (w0 : Word) : Nat := w0.toNat % 2 ^ 26

/-- A write that is not subject to the rules that limit when software may write (R410). -/
def privWrite (off : Nat) (v : Word) (s : State) : State :=
  let t := busWrite .host off v { s with priv := true }
  { t with priv := false }

/-- Whether a WRITE record may name a register: it is defined and some field of it is RW, RW1C or RWS, or it is GLB_FLOOR_CTL. -/
def recWritable (off : Nat) : Bool :=
  match regRowAt off with
  | some r => (r.rw ||| r.rws ||| r.w1c) != 0 || off == Reg.GLB_FLOOR_CTL
  | none => false

/-- Whether a layer descriptor is valid. -/
def layerValid (d : Nat) (s : State) : Bool := lyF d 0 Fld.LAYER0_VALID s == 1

/-- MAP: STAGED becomes ACTIVE for every entry of a valid layer descriptor, and READY is cleared (R225, R405). -/
def mapApply (d : Nat) (s : State) : State :=
  if !layerValid d s then s
  else
    let s := (layerEntries d s).foldl (fun s x =>
      tbW (Tab.MAP (x * 4)) (tb (Tab.MAP (x * 4 + 1)) s &&& 0x3FFFFFFFFFFFFFFF) s) s
    wrF Reg.DOV_PLACE_STATUS Fld.DOV_PLACE_STATUS_READY 0 s

/-- Whether a write changes the Floor's registers. -/
def floorRec (off : Nat) : Bool := glueBit off == some 42

/-- A WRITE record of a change set: while there is no job, records of the fabric tables are held for the next START (R406). -/
def writeRec (off : Nat) (v : Word) (s : State) : State :=
  if jobState s = 0 ∧ fabTable off = true then setJig (fun j => { j with jobRecs := j.jobRecs ++ [(off, v)] }) s
  else setJig (fun j => { j with floor := j.floor || floorRec off, fabric := j.fabric || fabTable off }) (privWrite off v s)

/-- What a record other than CTX_RESET does; the copies of a FETCH are complete when records are applied. -/
def recApply (w0 w1 : Word) (s : State) : State :=
  match getF ⟨60, 4⟩ w0 with
  | 0 => writeRec (recOff w0) w1 s
  | 2 => mapApply (w0.toNat % 256) s
  | _ => s

/-- A CTX_RESET record with the time that the reset takes left out. -/
def recReset (c : Nat) (s : State) : State := ctxResetDone c (ctxResetWrite c 1 .host s)

/-- A record with the time that a context reset takes left out. -/
def recWhole (w0 w1 : Word) (s : State) : State :=
  if getF ⟨60, 4⟩ w0 = 3 then recReset (w0.toNat % 16) s else recApply w0 w1 s

/-! ## Checks of the state that records leave (R400, R407) -/

/-- The value of the address register behind a data register, as the index of the word that an access reaches. -/
def dataIndex (off : Nat) (s : State) : Nat :=
  if off = Reg.TIR_OBJ_DATA then (rd Reg.TIR_OBJ_ADDR s).toNat
  else if off = Reg.DOV_LAYER_DATA then (rd Reg.DOV_LAYER_ADDR s).toNat
  else if off = Reg.DOV_DISP_DATA then (rd Reg.DOV_DISP_ADDR s).toNat
  else if off = Reg.DOV_LOC_DATA then (rd Reg.DOV_LOC_ADDR s).toNat
  else if off = Reg.FAB_RANK_DATA then (rd Reg.FAB_RANK_ADDR s).toNat
  else if off = Reg.FAB_XDESC_DATA then (rd Reg.FAB_XDESC_ADDR s).toNat
  else if off = Reg.COL_DESC_DATA then (rd Reg.COL_DESC_ADDR s).toNat
  else if off = Reg.CTX_BENCH_DATA then (rd Reg.CTX_BENCH_ADDR s).toNat
  else if off = Reg.CTX_SEM_DATA then (rd Reg.CTX_SEM_ADDR s).toNat
  else 0

/-- Whether a write changes the PHYS of a LIVE rank entry (R268). -/
def rankChanged (off : Nat) (v : Word) (s : State) : Bool :=
  off == Reg.FAB_RANK_DATA && rankLive (dataIndex off s) s && rankPhys (dataIndex off s) s != v.toNat % 2 ^ 15

/-- Whether a run of tiles reaches into the system region. -/
def meetsSystem (first n : Nat) : Bool := n != 0 && decide (sysTile < first + n)

/-- Whether valid object `o` is placed in the system region. -/
def objMeets (o : Nat) (s : State) : Bool :=
  objF o 0 Fld.OBJ0_VALID s == 1 && meetsSystem (objF o 1 Fld.OBJ1_RBASE s) (objF o 1 Fld.OBJ1_LEN s)

/-- Whether the pool or the cut list reaches into the system region. -/
def poolMeets (s : State) : Bool :=
  meetsSystem (poolBase s) (poolLen s) ||
    meetsSystem (rdF Reg.FAB_CUT Fld.FAB_CUT_BASE s) (rdF Reg.FAB_CUT Fld.FAB_CUT_LEN s)

/-- Whether a write at `off`, which reached table word `i`, has left an object, the pool or the cut list in the system region. -/
def overlapAt (off i : Nat) (s : State) : Bool :=
  (off == Reg.TIR_OBJ_DATA && objMeets (i / 8) s) || ((off == Reg.BPM_POOL || off == Reg.FAB_CUT) && poolMeets s)

/-- Whether anything lies in the system region. -/
def overlaps (s : State) : Bool := (validObjs s).any (fun o => objMeets o s) || poolMeets s

/-- Whether the Floor schedule passes the check of R108. -/
def floorFits (s : State) : Bool :=
  let ds := floorDescs s
  ds.all (fun p => !fdescBad p.2.2) && (floorScan s ds []).isNone

/-- Whether every RUNNING context passes R352. -/
def quotaFits (s : State) : Bool :=
  (runningCtxs s).all (fun c => startCode c (wrF (Reg.CTX_STATUS c) Fld.CTX_STATUS_STATE 0 s) == 0)

/-- Whether a step from `s` to `t` has counted a refused access. -/
def refusedIn (s t : State) : Bool := rd Reg.GLB_BAD_ACCESS s != rd Reg.GLB_BAD_ACCESS t

/-! ## Configuration sections (R397, R400) -/

/-- Whether an offset belongs to a block that R397 names for a section of type `t`. -/
def secBlock (t off : Nat) : Bool :=
  let within := fun (lo hi : Nat) => decide (lo ≤ off) && decide (off < hi)
  if t = 0x20 ∨ t = 0x21 then within 0x1000000 0x1800000
  else if t = 0x22 then within 0x1800000 0x1C00000
  else if t = 0x30 then within 0x3000000 0x3800000
  else if t = 0x40 then within 0x0200000 0x0400000
  else if t = 0x50 then within 0x0800000 0x0A00000
  else if t = 0x51 then within 0x0A00000 0x0C00000
  else if t = 0x60 then within 0x0C00000 0x1000000
  else if t = 0x70 then within 0x0400000 0x0800000
  else if t = 0x80 then within 0x2000000 0x3000000 || off == Reg.GLB_FLOOR_CTL
  else if t = 0x90 then within 0x2000000 0x3000000
  else false

/-- The registers that only the jig writes. -/
def jigOnly (t off : Nat) : Bool := (t == 0x20 && off == Reg.FAB_ADMIN_KEY) || (t == 0x30 && off == Reg.SEC_POLICY)

/-- Whether a section of type `t` may hold a record. -/
def secAllows (t : Nat) (w0 : Word) : Bool :=
  getF ⟨60, 4⟩ w0 == 0 && secBlock t (recOff w0) && (recWritable (recOff w0) || jigOnly t (recOff w0))

/-- A WRITE record of a section of type `t`. -/
def secWriteRec (t off : Nat) (v : Word) (s : State) : State :=
  if jigOnly t off then wr off (v &&& (((regRowAt off).map (·.ro)).getD 0)) s else privWrite off v s

/-- The records in a list of bytes: both words of each. -/
def recsOf : Nat → List Byte → List (Word × Word)
  | 0, _ => []
  | n + 1, bs => (w64 (leAt bs 0 8), w64 (leAt bs 8 8)) :: recsOf n (bs.drop 16)

/-- The records of the sections of type `t`, in table order. -/
def secRecs (r : Nat → Nat → List Byte) (t : Nat) : List (Word × Word) :=
  ((upto (imgSects r)).filter (fun i => secType r i == t)).flatMap (fun i => recsOf (secLen r i / 16) (secBytes r i))

/-- Apply one record of a section of type `t`, and tell whether it passes (R400). -/
def secStep (t : Nat) (a : Bool × State) (w : Word × Word) : Bool × State :=
  let off := recOff w.1
  let i := dataIndex off a.2
  let s := secWriteRec t off w.2 a.2
  (a.1 && secAllows t w.1 && !refusedIn a.2 s && !rankChanged off w.2 a.2 && !overlapAt off i s, s)

/-- Apply every configuration section, in ascending type, and tell whether they pass check 9 of R399. -/
def sectionsApply (r : Nat → Nat → List Byte) (s : State) : Bool × State :=
  let a := cfgTypes.foldl (fun a t => (secRecs r t).foldl (secStep t) a) (true, s)
  (a.1 && floorFits a.2 && quotaFits a.2, a.2)

/-! ## Tiles that the device writes -/

/-- Write a whole Ruril tile, its tag taken as for a host write (R123). -/
def devTile (n : Nat) (payload : List Byte) (s : State) : State :=
  let p := subBytes payload 0 4096
  setRurilTile n ⟨hostTag n p s, p⟩ s

/-- Write a run of tiles from `n` on. -/
def devTiles (n : Nat) (ps : List (List Byte)) (s : State) : State := ps.zipIdx.foldl (fun s p => devTile (n + p.2) p.1 s) s

/-- Write one word of a tile. -/
def devWord (n i v : Nat) (s : State) : State := hostWriteTile (n * 4096 + i * 8) (leBytes 8 v) s

/-- A list of bytes cut into tiles. -/
def tilesOf : Nat → List Byte → List (List Byte)
  | 0, _ => []
  | n + 1, bs => subBytes bs 0 4096 :: tilesOf n (bs.drop 4096)

/-- Write the runs of a RURIL_INIT section (R397): tile number, count, payload. -/
def initRuns : Nat → List Byte → State → State
  | 0, _, s => s
  | f + 1, bs, s =>
    if bs.length < 16 then s
    else
      let n := leAt bs 8 8
      let body := bs.drop 16
      let s := ((tilesOf (min n (body.length / 4096)) body).zipIdx.filter (fun p => leAt bs 0 8 + p.2 ≤ rtnMax)).foldl
        (fun s p => devTile (leAt bs 0 8 + p.2) p.1 s) s
      initRuns f (body.drop (n * 4096)) s

/-- Write every RURIL_INIT section. -/
def initApply (r : Nat → Nat → List Byte) (s : State) : State :=
  ((upto (imgSects r)).filter (fun i => secType r i == typeInit)).foldl (fun s i =>
    initRuns (secLen r i / 16) (secBytes r i) s) s

/-! ## The journal (R411) -/

/-- JIG_JRNL. -/
def jrnlWord (slot entries tiles : Nat) : Word :=
  setF Fld.JIG_JRNL_SLOT (setF Fld.JIG_JRNL_ENTRIES (setF Fld.JIG_JRNL_TILES 0 tiles) entries) slot

/-- Empty the journal, with base slot `slot` in use. -/
def jrnlEmpty (slot : Nat) (s : State) : State :=
  let s := devWord jrnlTile 0 0 s
  wr Reg.JIG_JRNL (jrnlWord slot 0 0) (devWord jrnlCtl 0 slot s)

/-- Word 0 of a header tile. -/
def entryWord (st id seq : Nat) : Nat := st * 2 ^ 62 + id * 2 ^ 32 + seq

/-- Record tiles of a change set of `n` records. -/
def recTiles (n : Nat) : Nat := ceilDiv n 256

/-- The journal's entries from tile `t` on: header tile and record tiles of each. -/
def jrnlFrom (s : State) : Nat → Nat → List (Nat × Nat)
  | 0, _ => []
  | f + 1, t =>
    let n := rurilWord (t * 4096 + 8) s % 2 ^ 28
    if rurilWord (t * 4096) s / 2 ^ 62 = 0 ∨ jrnlTile + jrnlMax ≤ t then [] else (t, n) :: jrnlFrom s f (t + 1 + n)

/-- The journal's entries. -/
def jrnlEntries (s : State) : List (Nat × Nat) := jrnlFrom s jrnlMax jrnlTile

/-! ## LOAD from flash (R399) -/

/-- The first 8,192 bytes of an image are kept: header, owner key and section table. -/
def imageKept (r : Nat → Nat → List Byte) (s : State) : State := setJig (fun j => { j with image := r 0 8192 }) s

/-- JIG_STATUS as LOAD leaves it. -/
def loadStatus (source fail svn : Nat) (loaded : Bool) (s : State) : State :=
  wr Reg.JIG_STATUS (setF Fld.JIG_STATUS_LOADED (setF Fld.JIG_STATUS_SOURCE (setF Fld.JIG_STATUS_FAIL (setF Fld.JIG_STATUS_SVN 0 svn)
    fail) source) (b2n loaded)) s

/-- LOAD ends; the device leaves LOAD in state `d` and the glue-up is IDLE. -/
def loadLeave (d : Nat) (s : State) : State := devFollow (enterRunning d (setGlue 0 s))

/-- A check of R399 has failed: one record, and BARE. -/
def loadFail (code : Nat) (s : State) : State :=
  let s := loadStatus 0 code 0 false (setGlue 0 s)
  setDev 3 (log 0x0201 kNone 0 none [jigStatusWord s] s)

/-- LOAD from flash; `clean` tells whether every flash read was free of uncorrectable errors. -/
def loadFlash (clean : Bool) (s : State) : State :=
  let r := flashImg s
  let fail := imageFail r 268435456 clean s
  if fail ≠ 0 then loadFail fail s
  else
    let a := sectionsApply r s
    if !a.1 then loadFail 9 s
    else
      let s := initApply r a.2
      let s := devTiles (slotTile 0) (tilesOf (imgLen r / 4096) (r 0 (imgLen r))) s
      let s := jrnlEmpty 0 s
      let s := loadStatus 0 0 (imgSvn r) true (imageKept r s)
      loadLeave 4 (setJig (fun j => { j with built := true, meas := List.replicate 32 0 }) s)

/-! ## The rebuild after a warm reset (R413 to R415) -/

/-- Whether a Ruril tile fails checks 1 and 2 of R92. -/
def tileFails (n : Nat) (s : State) : Bool :=
  s.rbad.contains n || tagF Fld.TAG_CRC (rurilTile n s).tag != crc32c (rurilTile n s).payload

/-- The registers whose records a rebuild skips: they keep their values across a warm reset. -/
def keptReg (off : Nat) : Bool := fabTable off || off == Reg.FAB_CUT || off == Reg.COL_GSEQ_DATA

/-- Apply a record of a section of the base slot. -/
def rebuildSec (t : Nat) (s : State) (w : Word × Word) : State :=
  if keptReg (recOff w.1) || !secAllows t w.1 then s else secWriteRec t (recOff w.1) w.2 s

/-- Apply a record of a journal entry. -/
def rebuildRec (s : State) (w : Word × Word) : State :=
  if getF ⟨60, 4⟩ w.1 = 0 ∧ keptReg (recOff w.1) = true then s else recWhole w.1 w.2 s

/-- H after an applied glue-up (R496). -/
def measNext (digest : List Byte) (s : State) : State :=
  setJig (fun j => { j with meas := sha256 (j.meas ++ digest) }) s

/-- Apply the entry whose header tile is `t`. -/
def rebuildEntry (s : State) (t : Nat) : State :=
  let n := rurilWord (t * 4096 + 24) s % 2 ^ 28
  let s := (recsOf n (memRead s.ruril ((t + 1) * 4096) (16 * n))).foldl rebuildRec s
  bump Reg.JIG_REAPPLIED (measNext (memRead s.ruril (t * 4096 + 48) 32) s)

/-- The rebuild. -/
def rebuild (s : State) : State :=
  let slot := rurilWord (jrnlCtl * 4096) s % 2
  let r := tileImg (slotTile slot) s
  let es := jrnlEntries s
  let tiles := (upto (max 1 (min (imgLen r / 4096) 65536))).map (slotTile slot + ·) ++ es.flatMap (fun e => (upto (1 + e.2)).map (e.1 + ·))
  match tiles.find? (fun n => tileFails n s) with
  | some n => enterFault 0x0206 true (w64 n) (setGlue 0 s)
  | none =>
    let st := glueState s
    let s := cfgTypes.foldl (fun s t => (secRecs r t).foldl (rebuildSec t) s) (imageKept r s)
    let s := setJig (fun j => { j with meas := List.replicate 32 0 }) s
    let s := (es.map (·.1)).foldl rebuildEntry s
    let used := (es.map (fun e => 1 + e.2)).foldl (· + ·) 0
    let s := wr Reg.JIG_JRNL (jrnlWord slot es.length used) s
    let s := loadStatus 1 0 (imgSvn r) true (setJig (fun j => { j with rebuild := false, floor := false, fabric := false }) s)
    match es.find? (fun e => rurilWord (e.1 * 4096) s / 2 ^ 62 == 1) with
    | some e =>
      let w := rurilWord (e.1 * 4096) s
      let id := w / 2 ^ 32 % 2 ^ 16
      let s := devWord e.1 0 (entryWord 2 id (w % 2 ^ 32)) s
      let s := wr Reg.JIG_GLUE_STATUS (w64 (9 * 2 ^ 56 + id * 2 ^ 32)) s
      loadLeave 7 (log 0x0204 kGlue id none [rd Reg.JIG_GLUE_STATUS s] s)
    | none =>
      let s := setGlue 0 s
      if st = 3 ∨ st = 4 ∨ st = 5 then
        let s := wrF Reg.JIG_GLUE_STATUS Fld.JIG_GLUE_STATUS_RESULT 8 s
        let id := rdF Reg.JIG_GLUE_STATUS Fld.JIG_GLUE_STATUS_ID s
        loadLeave 4 (bump Reg.JIG_GLUE_FAILED (log 0x0205 kGlue id none [rd Reg.JIG_GLUE_STATUS s] s))
      else loadLeave 4 s

/-- LOAD completes: from flash, or from Ruril where LOAD has completed since the last cold reset (R430). It needs the Ruril
stacks. -/
def loadComplete' (clean : Bool) (s : State) : State :=
  if s.dev ≠ 2 ∨ held s = true ∨ dead s = true ∨ s.power.ruril = false then s
  else if s.jig.rebuild then rebuild s else loadFlash clean s

/-! ## Compaction (R412) -/

/-- A WRITE record as bytes. -/
def recBytes' (off v : Nat) : List Byte := leBytes 8 off ++ leBytes 8 v

/-- The records that set the words of a table, highest first, through an address register and a data register, and then the
address register itself; `key 0` is the key of word 0 of `n`. -/
def tabRecs (addr data key n extra : Nat) (s : State) : List (Nat × Nat) :=
  ((tabKeys key (key + n) s).reverse.flatMap (fun k => [(addr, k - key + extra), (data, (tb k s).toNat)])) ++
    (if (tabKeys key (key + n) s).isEmpty then [] else [(addr, (rd addr s).toNat)])

/-- Benches with a word in a table of `n` words a bench. -/
def tabBenches (key n : Nat) (s : State) : List Nat :=
  ((tabKeys key (key + 1176 * n) s).map (fun k => (k - key) / n)).eraseDups

/-- The records of the plain registers of a section's blocks from `lo` to `hi` that hold another value than at reset. -/
def plainRecs (lo hi : Nat) (skip : List Nat) (s : State) : List (Nat × Nat) :=
  (s.regs.filter (fun p => lo ≤ p.1 && p.1 < hi && !skip.contains p.1)).filterMap (fun p =>
    match regRowAt p.1 with
    | some r => if rwMask r = 0 then none else some (p.1, (p.2 &&& rwMask r).toNat)
    | none => none)

/-- Whether an offset is that of a bench register that the FLOOR section holds. -/
def floorReg (off : Nat) : Bool := [0x78, 0x80, 0xA8].contains (off % 0x1000)

/-- The records of the section of type `t` that set the current values. -/
def sectionNow (t : Nat) (s : State) : List (Nat × Nat) :=
  let key1 := fun (off : Nat) => if rd off s = resetOf off then [] else [(off, (rd off s).toNat)]
  if t = 0x20 then
    key1 Reg.FAB_ADMIN_KEY ++ tabRecs Reg.FAB_RANK_ADDR Reg.FAB_RANK_DATA (Tab.RANK 0) 32768 0 s ++
      tabRecs Reg.FAB_PLANE_ADDR Reg.FAB_PLANE_DATA (Tab.PLANE 0) 512 0 s ++
      tabRecs Reg.FAB_TREE_ADDR Reg.FAB_TREE_DATA (Tab.TREE 0) 256 0 s ++ plainRecs 0x1000000 0x1120000 [] s
  else if t = 0x21 then
    tabRecs Reg.FAB_XDESC_ADDR Reg.FAB_XDESC_DATA (Tab.XDESC 0) 8192 0 s ++ plainRecs 0x1120000 0x1800000 [] s
  else if t = 0x22 then
    tabRecs Reg.COL_LIST_ADDR Reg.COL_LIST_DATA (Tab.LIST 0) 16384 0 s ++
      tabRecs Reg.COL_GROUP_ADDR Reg.COL_GROUP_DATA (Tab.GROUP 0) 2048 0 s ++
      tabRecs Reg.COL_DESC_ADDR Reg.COL_DESC_DATA (Tab.DESC 0) 8192 0 s ++
      tabRecs Reg.COL_GSEQ_ADDR Reg.COL_GSEQ_DATA (Tab.GSEQ 0) 1024 0 s ++ plainRecs 0x1800000 0x1C00000 [] s
  else if t = 0x30 then key1 Reg.SEC_POLICY
  else if t = 0x40 then plainRecs 0x0200000 0x0400000 [] s
  else if t = 0x50 then
    tabRecs Reg.TIR_OBJ_ADDR Reg.TIR_OBJ_DATA (Tab.OBJ 0) 524288 0 s ++ plainRecs 0x0800000 0x0A00000 [] s
  else if t = 0x51 then plainRecs 0x0A00000 0x0C00000 [] s
  else if t = 0x60 then
    tabRecs Reg.CTX_BENCH_ADDR Reg.CTX_BENCH_DATA (Tab.BENCHTAB 0) 1176 0 s ++
      tabRecs Reg.CTX_SEM_ADDR Reg.CTX_SEM_DATA (Tab.SEM 0) 4096 0 s ++ plainRecs 0x0C00000 0x1000000 [] s
  else if t = 0x70 then
    tabRecs Reg.DOV_LAYER_ADDR Reg.DOV_LAYER_DATA (Tab.LAYER 0) 1024 0 s ++
      tabRecs Reg.DOV_SEL_ADDR Reg.DOV_SEL_DATA (Tab.SEL 0) 2097152 0 s ++
      tabRecs Reg.DOV_DISP_ADDR Reg.DOV_DISP_DATA (Tab.DISP 0) 512 0 s ++
      tabRecs Reg.DOV_MAP_ADDR Reg.DOV_MAP_DATA (Tab.MAP 0) 4194304 0 s ++
      tabRecs Reg.DOV_LOC_ADDR Reg.DOV_LOC_DATA (Tab.LOC 0) 16384 0 s ++
      plainRecs 0x0400000 0x0800000 [Reg.DOV_CTL] s ++ key1 Reg.DOV_CTL
  else if t = 0x80 then
    (tabBenches (Tab.FDESC 0) 1024 s).flatMap (fun b =>
      tabRecs (Reg.BEN_FDESC_ADDR b) (Reg.BEN_FDESC_DATA b) (Tab.FDESC (b * 1024)) 1024 0 s) ++
      (plainRecs 0x2000000 0x3000000 [] s).filter (fun p => floorReg p.1) ++
      (if floorArmed s then [(Reg.GLB_FLOOR_CTL, 1)] else [])
  else
    (tabBenches (Tab.IMEM 0) 16384 s).flatMap (fun b =>
      (upto 2).flatMap (fun q => tabRecs (Reg.BEN_IMEM_ADDR b) (Reg.BEN_IMEM_DATA b) (Tab.IMEM ((b * 2 + q) * 8192)) 8192 (q * 8192) s)) ++
      (plainRecs 0x2000000 0x3000000 [] s).filter (fun p => !floorReg p.1)

/-- A length rounded up to whole tiles. -/
def tileUp (n : Nat) : Nat := (n + 4095) / 4096 * 4096

/-- The table entries of sections laid out from byte `o` on. -/
def tableBytes : List (Nat × Nat × List Byte) → Nat → List Byte
  | [], _ => []
  | (t, f, bs) :: l, o =>
    leBytes 2 t ++ leBytes 2 f ++ leBytes 4 0 ++ leBytes 8 o ++ leBytes 8 bs.length ++ leBytes 8 0 ++ sha256 bs ++
      tableBytes l (o + tileUp bs.length)

/-- An image with the header of another one and the sections given. -/
def packImage (old : List Byte) (secs : List (Nat × Nat × List Byte)) : List Byte :=
  let len := 8192 + ((secs.map (fun x => tileUp x.2.2.length)).foldl (· + ·) 0)
  let hdr := putBytes (subBytes old 0 4096) 12 (leBytes 4 secs.length ++ leBytes 8 len)
  hdr ++ subBytes (tableBytes secs 8192) 0 4096 ++ (secs.map (fun x => subBytes x.2.2 0 (tileUp x.2.2.length))).flatten

/-- The configuration base of the current values: the firmware sections of the base in use, and every configuration section
that has something to set. -/
def baseNow (s : State) : List Byte :=
  let r := tileImg (slotTile (rdF Reg.JIG_JRNL Fld.JIG_JRNL_SLOT s)) s
  let fw := ((upto (imgSects r)).filter (fun i => fwTypes.contains (secType r i))).map (fun i => (secType r i, secFlags r i, secBytes r i))
  let cfg := cfgTypes.filterMap (fun t =>
    let l := sectionNow t s
    if l.isEmpty then none else some (t, 0, l.flatMap (fun p => recBytes' p.1 p.2)))
  packImage s.jig.image (fw ++ cfg)

/-- A compaction: the base goes into the unused slot, SLOT flips and the journal is emptied. -/
def compact (s : State) : State :=
  let slot := 1 - rdF Reg.JIG_JRNL Fld.JIG_JRNL_SLOT s
  let img := baseNow s
  let s := devTiles (slotTile slot) (tilesOf (img.length / 4096) img) s
  imageKept (tileImg (slotTile slot) s) (jrnlEmpty slot s)

end Sys2Proof.Machine
end

