-- ==== Sys2Proof/Machine/Glue.lean ====
section
/-!
DEFINITION. Glue-up: the dry-fit, the stop at the boundary, the vote, the journal entry, the apply and the restart
(spec/14_jig_and_glueup.md, R403 to R412).
-/
namespace Sys2Proof.Machine

/-! ## The dry-fit (R407) -/

/-- A failed check: its code and the record, none where the spec names none. -/
def fitKey (code : Nat) (i : Option Nat) : Nat := code * 2 ^ 29 + i.getD (2 ^ 28)

/-- The change set as bytes: its 64-byte header. -/
def glueHeader (s : State) : List Byte := s.jig.head.flatMap (fun w => leBytes 8 w.toNat)

/-- Whether the header passes check 1. -/
def headerFits (s : State) : Bool :=
  let n := glueRecs s
  let run := 1 + recTiles n
  headF 1 36 1 s == 0 && headF 1 28 5 s == 0 && headWord 2 s == 0 && headWord 3 s == 0 && decide (1 ≤ n) &&
    decide (s.jig.base + run ≤ sysTile) && !(s.rbad.any (fun t => s.jig.base ≤ t && t < s.jig.base + run)) &&
    sha256 (memRead s.ruril ((s.jig.base + 1) * 4096) (16 * n)) == (glueHeader s).drop 32 &&
    (!glueCompact s || (n == 1 && recOp 0 s == 2 && !layerValid ((recWord 0 0 s).toNat % 256) s))

/-- Whether the change set passes check 2 (R404). -/
def signatureFits (s : State) : Bool :=
  !bitAt (leAt s.jig.image 28 4) 0 ||
    (glueSigned s && lmsVerify (subBytes s.jig.image 256 56) (memRead s.ruril (s.jig.base * 4096 + 64) 1612) (glueHeader s))

/-- The contexts that word `i` of a table behind a data register names, or that a context register is one of. -/
def namedCtxs (off i : Nat) (s : State) : List Nat :=
  let ofLayer := fun (d : Nat) => if layerValid d s then [lyF d 0 Fld.LAYER0_CTX s] else []
  if off = Reg.TIR_OBJ_DATA then (if objF (i / 8) 0 Fld.OBJ0_VALID s = 1 then [objF (i / 8) 0 Fld.OBJ0_OWNER s] else [])
  else if off = Reg.DOV_LAYER_DATA then ofLayer (i / 4)
  else if off = Reg.DOV_DISP_DATA then ofLayer (i / 2)
  else if off = Reg.DOV_LOC_DATA then
    (if lcF' (i / 4) 0 Fld.LOC0_VALID s = 1 then ofLayer (lcF' (i / 4) 0 Fld.LOC0_LDESC s) else [])
  else if off = Reg.FAB_XDESC_DATA then (if xdValid (i / 2) s then [tbF (Tab.XDESC (i / 2 * 2)) Fld.XDESC0_CTX s] else [])
  else if off = Reg.COL_DESC_DATA then
    (let w := tb (Tab.DESC (i / 8 * 8)) s
     if bitF Fld.DESC0_VALID w then [getF Fld.DESC0_CTX w] else [])
  else if off = Reg.CTX_BENCH_DATA then entryCtxs (tb (Tab.BENCHTAB i) s)
  else if off = Reg.CTX_SEM_DATA then semCtxs (semEntry i s)
  else if 0x0400000 ≤ off ∧ off < 0x2000000 ∧ ¬(0x1000000 ≤ off ∧ off < 0x1C00000) then
    (match regRowAt off with
     | some r => if r.count = 16 then [rowPlace r off] else []
     | none => [])
  else []

/-- Whether a context is held by the change set, or STOPPED or TORN. -/
def ctxFits (c : Nat) (s : State) : Bool := bitAt (glueHolds s) c || ctxIdle c s

/-- Whether a write touches a bench that must have stopped, and it has not. -/
def benchMoves (off : Nat) (s : State) : Bool :=
  decide (0x2000000 ≤ off) && decide (off < 0x3000000) &&
    (let b := (off - 0x2000000) / 0x1000
     (off == Reg.BEN_CTL b || off == Reg.BEN_EXC_CTL b || off == Reg.BEN_IMEM_DATA b) && !benchStopped b s)

/-- Whether a run of tiles lies in no valid object, pool or cut list (R407, 11). -/
def runFree (first n : Nat) (s : State) : Bool :=
  let apart := fun (a k : Nat) => k == 0 || n == 0 || decide (first + n ≤ a) || decide (a + k ≤ first)
  (validObjs s).all (fun o => apart (objF o 1 Fld.OBJ1_RBASE s) (objF o 1 Fld.OBJ1_LEN s)) && apart (poolBase s) (poolLen s) &&
    apart (rdF Reg.FAB_CUT Fld.FAB_CUT_BASE s) (rdF Reg.FAB_CUT Fld.FAB_CUT_LEN s)

/-- The state of a fit: the state after the records so far, and the failures. -/
structure Fit where
  st : State
  fails : List Nat

/-- A failure of record `i` under `code`, where `bad`. -/
def failIf (bad : Bool) (code i : Nat) : List Nat := if bad then [fitKey code (some i)] else []

/-- The failures of a WRITE record, with `s` before it and `t` after it. -/
def writeFails (off : Nat) (v : Word) (i : Nat) (s t : State) : List Nat :=
  let k := dataIndex off s
  let head := (headWord 1 s).toNat
  let covered := match glueBit off with | some b => bitAt head b | none => false
  let held := jobState s = 0 ∧ fabTable off = true
  let obj := off == Reg.TIR_OBJ_DATA && (objState (k / 8) s != osRuril || pinned (k / 8) s)
  failIf (!recWritable off || !covered) 3 i ++ failIf (refusedIn s t) 4 i ++
    failIf (!decide held && rankChanged off v s) 7 i ++ failIf (overlapAt off k t) 8 i ++
    failIf (!(namedCtxs off k s ++ namedCtxs off k t).all (fun c => ctxFits c s) || benchMoves off s) 9 i ++ failIf obj 10 i

/-- Check and apply record `i` on the fit's state. -/
def fitRecord (a : Fit) (i : Nat) : Fit :=
  let w0 := recWord i 0 a.st
  let w1 := recWord i 1 a.st
  let t := recWhole w0 w1 a.st
  let fs := match getF ⟨60, 4⟩ w0 with
    | 0 => writeFails (recOff w0) w1 i a.st t
    | 1 =>
      let dst := w0.toNat % 2 ^ 28
      let n := w1.toNat % 2 ^ 24
      failIf (!runFree dst n a.st || decide (rtnMax < dst + n - 1) || !rankLive (getF ⟨45, 15⟩ w0) a.st) 11 i
    | 2 =>
      let d := w0.toNat % 256
      failIf (layerValid d a.st && !ctxFits (lyF d 0 Fld.LAYER0_CTX a.st) a.st) 9 i
    | 3 => failIf (refusedIn a.st t) 4 i ++ failIf (!ctxFits (w0.toNat % 16) a.st) 9 i
    | _ => [fitKey 3 (some i)]
  ⟨t, a.fails ++ fs⟩

/-- Whether every instance that the map places on rank `r` has a valid local entry here (R200). -/
def localsAgree (r : Nat) (s : State) : Bool :=
  (layers s).all (fun d => !dispatches d s ||
    (upto (lyF d 0 Fld.LAYER0_E s)).all (fun x =>
      let k := lyF d 0 Fld.LAYER0_TBASE s + x
      (upto (instances k s)).all (fun n => instRank k n s != r ||
        (upto (dpF d 1 Fld.DISP1_LCOUNT s)).any (fun j =>
          let l := dpF d 1 Fld.DISP1_LBASE s + j
          lcF' l 0 Fld.LOC0_VALID s == 1 && lcF' l 0 Fld.LOC0_LDESC s == d && lcF' l 0 Fld.LOC0_EXPERT s == x &&
            lcF' l 0 Fld.LOC0_INST s == n))))

/-- Whether a Dovetail that runs after a change to it passes R168, R199 and R200. -/
def dovFits (s : State) : Bool :=
  !bitAt (glueFunc s) 0 || !dovRun s ||
    (dovEnableOk s && (match ownRank s with | some r => localsAgree r s | none => true))

/-- Whether STEP or IMMEDIATE passes check 12 (R406). -/
def stepFits (s : State) : Bool :=
  if glueNow s then jobState s == 0 || (runningCtxs s).isEmpty else decide (stepNow s < glueStep s)

/-- The first failure of the dry-fit, by check and then by record; none where every check passes. -/
def glueFit (s : State) : Option Nat :=
  if !headerFits s then some (fitKey 1 none)
  else if !signatureFits s then some (fitKey 2 none)
  else
    let n := glueRecs s
    let a := (upto n).foldl fitRecord ⟨s, []⟩
    let whole := fun (ok : Bool) (code : Nat) => if ok then [] else [fitKey code none]
    let fs := a.fails ++ whole (dovFits a.st) 4 ++ whole (floorFits a.st) 5 ++ whole (quotaFits a.st) 6 ++
      whole (!overlaps a.st) 8 ++ whole (stepFits s) 12 ++
      whole (decide (rdF Reg.JIG_JRNL Fld.JIG_JRNL_TILES s + 1 + recTiles n ≤ jrnlMax)) 13
    fs.min?

/-- FITCODE and FIRST of a failure; FIRST is free where no record fails by itself. -/
def fitFailed (k : Nat) (s : State) : State :=
  let r := nextFresh s
  let first := if k % 2 ^ 29 < 2 ^ 28 then k % 2 ^ 29 else Config.freeCode r.1 % 2 ^ 28
  wrF Reg.JIG_GLUE_STATUS Fld.JIG_GLUE_STATUS_FIRST first (wrF Reg.JIG_GLUE_STATUS Fld.JIG_GLUE_STATUS_FITCODE (k / 2 ^ 29) r.2)

/-- The GLUE_FAIL record. -/
def glueRecord (s : State) : State := log 0x0203 kGlue (glueId s) none [rd Reg.JIG_GLUE_STATUS s] s

/-- Whether the change set applies a proposal: it has a MAP of a valid layer descriptor. -/
def appliesMap (s : State) : Bool :=
  (upto (glueRecs s)).any (fun i => recOp i s == 2 && layerValid ((recWord i 0 s).toNat % 256) s)

/-- The check that DRYFIT started ends. -/
def dryfitDone (s : State) : State :=
  if glueState s ≠ 1 then s
  else
    match glueFit s with
    | none =>
      let m := appliesMap s
      setGlue 2 (setDv (fun d => { d with applying := m }) s)
    | some k => glueRecord (glueEnd 2 (fitFailed k s))

/-! ## The journal entry (R411) -/

/-- Write the entry OPEN: records and words 1 to 9 first, then word 0. -/
def journalOpen (s : State) : State :=
  let used := rdF Reg.JIG_JRNL Fld.JIG_JRNL_TILES s
  let seq := rdF Reg.JIG_JRNL Fld.JIG_JRNL_ENTRIES s + 1
  let t := jrnlTile + used
  let n := recTiles (glueRecs s)
  let s := (upto n).foldl (fun s j => devTile (t + 1 + j) (rurilTile (s.jig.base + 1 + j) s).payload s) s
  let s := if used + 1 + n < jrnlMax then devWord (t + 1 + n) 0 0 s else s
  let s := devTile t (leBytes 8 0 ++ leBytes 8 n ++ glueHeader s) s
  let s := devWord t 0 (entryWord 1 (glueId s) seq) s
  wr Reg.JIG_JRNL (jrnlWord (rdF Reg.JIG_JRNL Fld.JIG_JRNL_SLOT s) seq (used + 1 + n)) (setJig (fun j => { j with entry := t }) s)

/-- Mark the entry DONE. -/
def journalDone (s : State) : State :=
  devWord s.jig.entry 0 (entryWord 2 (glueId s) (rdF Reg.JIG_JRNL Fld.JIG_JRNL_ENTRIES s)) s

/-! ## Restart, apply and vote (R408 to R410) -/

/-- Restart: the held sequencers go on, the Floor is armed again after a FLOOR record, and phase 1 of a boundary that the
glue-up held goes on with the balance and placement updates. -/
def glueRestart (s : State) : State :=
  let s := { s with glueHold := 0 }
  let s := if s.jig.floor then floorCheckDone (wrF Reg.GLB_FLOOR_STATUS Fld.GLB_FLOOR_STATUS_BUSY 1 s) else s
  let s := setJig (fun j => { j with floor := false, fabric := false }) s
  match s.pool.bnd with
  | some b =>
    if bitAt b.waits 0 then
      let r := dovLoops (setBnd { b with endAt := max b.endAt s.cycle } s)
      let s := match r.2.pool.bnd with
        | some b => if r.1 then setBnd { b with waits := b.waits ||| 2 } r.2 else r.2
        | none => r.2
      boundaryOn 1 s
    else s
  | none => s

/-- A glue-up ends after the fit without an apply. -/
def glueFails (result : Nat) (s : State) : State := glueRestart (glueRecord (glueEnd result s))

/-- The apply is complete. -/
def applyEnd (s : State) : State :=
  let s := if s.jig.fabric then digestNow s else s
  let s := if glueCompact s then compact s else journalDone s
  let s := measNext ((glueHeader s).drop 32) s
  glueRestart (bump Reg.JIG_GLUE_DONE (glueClose 1 s))

/-- Apply records from `i` on; a CTX_RESET waits until the reset completes (R433). -/
def applyFrom : Nat → Nat → State → State
  | 0, _, s => applyEnd s
  | n + 1, i, s =>
    let w0 := recWord i 0 s
    if getF ⟨60, 4⟩ w0 = 3 then
      let c := w0.toNat % 16
      let s := ctxResetWrite c 1 .host s
      if ctxResetting c s then setJig (fun j => { j with next := i + 1, wait := some c }) s else applyFrom n (i + 1) s
    else applyFrom n (i + 1) (recApply w0 (recWord i 1 s) s)

/-- The apply begins: the entry is written OPEN. -/
def applyBegin (s : State) : State :=
  let s := setGlue 6 (journalOpen s)
  applyFrom (glueRecs s) 0 (setJig (fun j => { j with wait := none, floor := false, fabric := false }) s)

/-- A context reset has completed: an apply that waits for it goes on. -/
def applyOn (s : State) : State :=
  match s.jig.wait with
  | some c =>
    if glueState s = 6 ∧ ctxResetting c s = false then
      let i := s.jig.next
      applyFrom (glueRecs s - i) i (setJig (fun j => { j with wait := none }) s)
    else s
  | none => s

/-- The vote is decided: its sum, or none where it has ended in an error. -/
def glueVoted (sum : Option Nat) (s : State) : State :=
  if glueState s ≠ 5 then s
  else if sum = some 0 then applyBegin s
  else glueFails (if s.jig.bad ≠ 0 then s.jig.bad else 5) s

/-- The vote begins (R409); `bad` is the RESULT of the own failure, 0 where there is none. -/
def glueVoteBegin (bad : Nat) (s : State) : State :=
  let s := setGlue 5 (setJig (fun j => { j with bad := bad, since := s.cycle }) s)
  let own := if bad = 0 then 0 else 1
  let g := glueGroup s
  if g = 0 then glueVoted (some own) s
  else
    let n := tbF (Tab.GSEQ (g % 1024)) Fld.COL_GSEQ_DATA_NEXT s
    defer (.colStart 1 g (groupCtx (g % 1024) s) (sumTiles [own])) (setJig (fun j => { j with gseq := n }) s)

/-- VOTE_MS have elapsed. -/
def voteTimeout (s : State) : State :=
  if glueState s ≠ 5 ∨ glueGroup s = 0 then s
  else
    let s := advanceTo (s.jig.since + msCycles (rdF Reg.JIG_GLUE_CFG Fld.JIG_GLUE_CFG_VOTE_MS s)) s
    let g := glueGroup s % 1024
    let s := setGlue 0 s
    let s := match colOpen g s.jig.gseq s with
      | some i => instFail { i with dov := 0, words := [] } 5 0 true s
      | none =>
        let s := setC (fun c => { c with waits := c.waits.filter (fun w => !(w.g == g && w.gseq == s.jig.gseq)) }) s
        colFail g s.jig.gseq (groupCtx g s) false 0 5 0 true s
    glueFails 6 s

/-! ## Fetches and the stop (R408) -/

/-- The fetches that remain are none. -/
def fetchesDone (s : State) : Bool := decide (glueRecs s ≤ s.jig.fetch)

/-- Work that follows a fetch or a GO: an IMMEDIATE glue-up applies. -/
def glueGo (s : State) : State := if glueState s = 3 ∧ glueNow s = true ∧ fetchesDone s = true then applyBegin s else applyOn s

/-- The fetch that runs ends: with its tiles, or with a source that fails to deliver. -/
def glueFetched (tiles : Option (List Tile)) (s : State) : State :=
  if glueState s ≠ 3 ∨ fetchesDone s = true then s
  else
    let i := s.jig.fetch
    let dst := (recWord i 0 s).toNat % 2 ^ 28
    match tiles with
    | some ts =>
      if ts.length ≠ (recWord i 1 s).toNat % 2 ^ 24 then s
      else
        let s := ts.zipIdx.foldl (fun s p => setRurilTile (dst + p.2) p.1 s) s
        glueGo (setJig (fun j => { j with fetch := nextFetch s (glueRecs s - (i + 1)) (i + 1) }) s)
    | none => glueRecord (glueEnd 2 (fitFailed (fitKey 11 (some i)) s))

/-- Whether the boundary into STEP of an armed glue-up begins. -/
def glueDue (s : State) : Bool := glueState s == 3 && !glueNow s && (stepNow s + 1) % 2 ^ 32 == glueStep s

/-- The boundary into STEP begins: the contexts in HOLD are held. -/
def glueStop (s : State) : State :=
  let bad := if fetchesDone s then 0 else 3
  setGlue 4 (setJig (fun j => { j with since := s.cycle, bad := bad }) { s with glueHold := glueHolds s })

/-- Whether a sequencer is held: at a synchronization point or not running, and its units are empty. -/
def seqHeld (b q : Nat) (s : State) : Bool :=
  (sideOf b q s).quiet && (!(seqOf b q s).st.active ||
    (match (seqOf b q s).blocked with
     | .recv _ => true
     | .semWait _ _ _ => true
     | .sync m _ _ => bitAt m 6 || bitAt m 7
     | _ => false))

/-- Every held sequencer is held and its units are empty: the dry-fit is repeated, and its outcome is the vote. -/
def glueStopped (s : State) : State :=
  if glueState s ≠ 4 ∨ !((upto 16).all (fun c => !bitAt s.glueHold c || (seqsOf c s).all (fun p => seqHeld p.1 p.2 s))) then s
  else if s.jig.bad ≠ 0 then glueVoteBegin s.jig.bad s
  else match glueFit s with
    | none => glueVoteBegin 0 s
    | some k => glueVoteBegin 2 (fitFailed k s)

/-- STOP_MS have elapsed. -/
def stopTimeout (s : State) : State :=
  if glueState s ≠ 4 then s
  else
    let s := advanceTo (s.jig.since + msCycles (rdF Reg.JIG_GLUE_CFG Fld.JIG_GLUE_CFG_STOP_MS s)) s
    glueVoteBegin (if s.jig.bad ≠ 0 then s.jig.bad else 4) s

end Sys2Proof.Machine
end

