-- ==== Sys2Proof/Machine/Sideband.lean ====
section
/-!
DEFINITION. The transfers of the sideband bus other than register accesses, and the 3.3 V supply of the fabric connectors
(spec/18_management_and_security.md, spec/19_module_and_connectors.md).
-/
namespace Sys2Proof.Machine

/-! ## Transfers (R483, R486) -/

/-- A transfer reaches the target: it counts, where a dynamic address is held. -/
def sbTransfer (k : State → State) (s : State) : State :=
  if !sbAddressed s then s else k (bump Reg.MGT_SB_XFERS s)

/-- The size of the request buffer, that of the largest object (R457). -/
def mboxSize : Nat := 16384

/-- The data that a private read returns. -/
def sbData (bs : List Byte) (s : State) : State := { s with mgt := { s.mgt with data := bs } }

/-- WIN_WRITE: in BARE, into base slot A. -/
def winWrite (addr : Nat) (data : List Byte) (s : State) : State :=
  sbTransfer (fun s =>
    if data.length % 8 ≠ 0 ∨ data.length < 8 ∨ 64 < data.length ∨ addr % 8 ≠ 0 then sbFail 2 s
    else if s.dev ≠ 3 ∨ held s = true ∨ dead s = true ∨ 262144 * 4096 < addr + data.length then sbFail 1 s
    else
      let a := sysTile * 4096 + addr
      let first := min data.length (4096 - a % 4096)
      let s := hostWriteTile a (data.take first) (sbLast 0 s)
      if first < data.length then hostWriteTile (a + first) (data.drop first) s else s) s

/-- MBOX_WRITE. -/
def mboxWrite (addr : Nat) (data : List Byte) (s : State) : State :=
  sbTransfer (fun s =>
    if data.length < 1 ∨ 64 < data.length ∨ mboxSize < addr + data.length then sbFail 2 s
    else { sbLast 0 s with mgt := { s.mgt with req := memWrite s.mgt.req addr data } }) s

/-- MBOX_GO: the request's length is that of its header. -/
def mboxGo (s : State) : State :=
  sbTransfer (fun s =>
    if held s || dead s then sbFail 1 s
    else
      let n := leNat (memRead s.mgt.req 4 4)
      attestBytes .sideband (memRead s.mgt.req 0 (if 8 ≤ n ∧ n ≤ mboxSize then n else 8)) (sbLast 0 s)) s

/-- MBOX_READ: up to 64 bytes of the response from `addr` on. -/
def mboxRead (addr : Nat) (s : State) : State :=
  sbTransfer (fun s => sbData ((s.mgt.rsp.drop addr).take 64) (sbLast 0 s)) s

/-- The private read that follows a command returns at most 64 bytes of its data. -/
def privateRead (n : Nat) (s : State) : State :=
  if !sbAddressed s then s else emit (.sideband (s.mgt.data.take (min n 64))) s

/-- A command byte that the table does not define. -/
def sbUndefined (cmd : Nat) (s : State) : State :=
  if 1 ≤ cmd ∧ cmd ≤ 6 then s else sbTransfer (fun s => sbFail 2 s) s

/-! ## CBL_3V3 (R510) -/

/-- CBL_3V3 of a port's connector carries more than 2.5 A: it is turned off. -/
def cblOff (n : Nat) (s : State) : State :=
  if powerGood s then setPort n { portOf n s with cblOn := false } s else s

/-- CBL_3V3 is tried again. -/
def cblRetry (n : Nat) (s : State) : State :=
  if powerGood s then setPort n { portOf n s with cblOn := true } s else s

end Sys2Proof.Machine
end

