-- ==== Sys2Proof/Machine/Settle.lean ====
section
/-!
DEFINITION. The consequences that one part of the block hands to another within a step: teardowns, step boundaries, the ends of
collectives and votes, packets given back, and the reception of packets.
-/
namespace Sys2Proof.Machine

/-! ## Teardown of a context (R366) -/

/-- Steps 1 to 6 of a teardown; step 7 waits. The fabric discards what waits to be sent before the Dovetail sends the parts that
it still owes. -/
def teardownCtx (c : Nat) (s : State) : State :=
  let s := dovTeardown c (fabricTeardown c (colTeardown c (ctxSeqsStop c s)))
  let s := endDeferrals c (ctxLocks c (tierTeardown c s))
  let s := { s with ctxs := { s.ctxs with step7 := s.ctxs.step7.filter (· != c) ++ [c] } }
  defer .markCheck (devFollow (pumpAll s))

/-! ## The step boundary (R159, R410) -/

/-- Phase 1: cuts, pin release and evictions, the cut list; then the stop of a glue-up that is due, or the balance and placement
updates; then the phases that wait for neither. -/
def boundaryWork (s : State) : State :=
  match s.pool.bnd with
  | none => s
  | some b =>
    let cuts := cutsNow s
    let s := cutBoundary (stepNow s + 1) (tierPhase1 (dovCuts s))
    let s := setX (fun x => { x with noDescSeen := [], badArrSeen := [] }) s
    let b := { b with endAt := b.endAt + 4 + cuts }
    if glueDue s then setBnd { b with waits := 1 } (glueStop s)
    else
      let r := dovLoops (setBnd b s)
      if r.1 then setBnd { b with waits := 2 } r.2 else runPhase2 { b with phase := 2 } r.2

/-! ## Packets given back by a port (R253, R299) -/

/-- A packet that a port could not deliver. -/
def giveBackOne (s : State) (p : Packet) : State :=
  if isCtl p then
    match pkC p 0 with
    | 9 => clampBack p s
    | 10 => twinBack p s
    | _ => (netSend p (pkN0 p Pk.DST) 0 s).2
  else giveBackJob p s

/-! ## Collectives -/

/-- Advance every open instance. -/
def colAdvanceAll (s : State) : State := s.col.insts.foldl (fun s i => colAdvance i.g i.gseq s) s

/-- A start by the Dovetail or by a vote, and what it can do at once. -/
def colStartWork (code g ctx : Nat) (tiles : List Tile) (s : State) : State :=
  let n := tbF (Tab.GSEQ (g % 1024)) Fld.COL_GSEQ_DATA_NEXT s
  colAdvance (g % 1024) n (colStartDov code g ctx tiles s)

/-- Whose all-reduce has ended: code 1 is a vote's, 256 and more the Dovetail's. -/
def colDoneWork (code : Nat) (tiles : List Tile) (s : State) : State :=
  if code = 1 then glueVoted (sumNats 1 tiles).head? s else dovColDone code tiles s

/-- An all-reduce has ended in an error. -/
def colErrorWork (code cause : Nat) (s : State) : State := if code = 1 then glueVoted none s else dovColError code cause s

/-! ## Work -/

/-- A message is acknowledged: what its owner waits for. -/
def ackedWork (o : MsgOwner) (s : State) : State :=
  match o with
  | .bench b q po => sendAcked b q po s
  | .col g gseq => colAcked g gseq s
  | _ => s

/-- Carry out one consequence. -/
def doWork (w : Work) (s : State) : State :=
  match w with
  | .semCheck _ => colAdvanceAll (colTriggers (if runs s then boundaryTry s else s))
  | .teardown c => teardownCtx c s
  | .colStart code g ctx tiles => colStartWork code g ctx tiles s
  | .colDone code tiles => colDoneWork code tiles s
  | .colError code cause => colErrorWork code cause s
  | .colCheck => colAdvanceAll (colTriggers s)
  | .glueVote sum => glueVoted sum s
  | .glueGo => glueGo s
  | .dovMiss o path => dovMiss o path s
  | .heldBook o => bookHeld o s
  | .heldFail o => failHeld o s
  | .markCheck => markCheck s
  | .boundary => boundaryWork s
  | .giveBack _ ps => pumpAll (ps.foldl giveBackOne s)
  | .colChunk src ctx g gseq chunk p => colAdvance g gseq (colArrive src ctx g gseq chunk p s)
  | .dovMsg src ctx _ tiles => dovMessage src ctx tiles s
  | .acked o => ackedWork o s
  | .dovPart d p => partArrive d p s
  | .dovRound d stage => dovRound d stage s

/-- Carry out up to `n` consequences, oldest first. -/
def settleN : Nat → State → State
  | 0, s => s
  | n + 1, s =>
    match s.work with
    | [] => s
    | w :: ws => settleN n (doWork w { s with work := ws })

/-- Carry out the consequences of a step. -/
def settle (s : State) : State := settleN 4096 s

/-- The end of a step that may have started collectives or contexts. -/
def settleAll (s : State) : State := settle (colRunAgain (colAdvanceAll s))

/-! ## Reception of packets (R264, R292) -/

/-- Whether a packet is CONTROL of a type. -/
def ctlIs (type : Nat) (p : Packet) : Bool := isCtl p && pkC p 0 == type

/-- Whether a packet is a transport packet of a TTYPE. -/
def xportIs (type : Nat) (p : Packet) : Bool := pkN0 p Pk.VER == 3 && !isCtl p && pkT p 0 Pk.TTYPE == type

/-- Take packet `p` out of port `n` and check it; `k` is what a good one does. Where the port does not hold it next, nothing
happens. -/
def packetTake (n : Nat) (p : Packet) (is : Packet → Bool) (k : RxPkt → State → State) (s : State) : State :=
  if !runs s || !is p then s
  else
    match heldPacket n p s with
    | none => s
    | some a =>
      let s := takePacket n a s
      match netCheck p s with
      | some r => bump r s
      | none => settle (k a s)

/-- A good transport packet: its HCRC is checked first. -/
def xportTake (k : State → State) (p : Packet) (s : State) : State :=
  if hcrcOk p then k s else bump Reg.FAB_HCRC_FAIL s

/-- A CHUNK: its end-to-end check, and then the pair or the tree that it belongs to. -/
def chunkTake (p : Packet) (s : State) : State :=
  let ok := match p.tile with | some x => tagF Fld.TAG_CRC x.tag == crc32c x.payload | none => false
  if !ok then
    let s := bump Reg.FAB_E2E_FAIL s
    if isTree p then s else snackSend p s
  else if isTree p then treeReceive p s else pairReceive p s

/-- An EMPTY packet. -/
def emptyTake (p : Packet) (s : State) : State :=
  let p := { p with tile := none }
  if isTree p then treeReceive p s else pairReceive p s

/-- An ACK. -/
def ackTake' (p : Packet) (s : State) : State :=
  if isTree p then s else ackReceive (pkN0 p Pk.SRCRANK) (pkN0 p Pk.CTX) (pkT p 1 Pk.SEQ) (pkT p 0 Pk.WAIT == 1) s

/-- A SNACK. -/
def snackTake (p : Packet) (s : State) : State :=
  if isTree p then s else snackReceive (pkN0 p Pk.SRCRANK) (pkN0 p Pk.CTX) (pkT p 1 Pk.SEQ) s

/-- A SYNC. -/
def syncTake (p : Packet) (s : State) : State := if isTree p then s else syncReceive p s

/-! ## Transfers of the fabric engines (R537) -/

/-- The `i`-th booked transfer of the fabric engines is complete. -/
def fabTransfer (i : Nat) (e : Ecc) (s : State) : State :=
  match s.xport.xfers[i]? with
  | none => s
  | some x =>
    match x.use with
    | .send b q po => sendRead x b q po e s
    | .recv b q _ t charged => recvLand x b q t charged s
    | .colRead g gseq k => colAdvance g gseq (colRead x g gseq k e s)
    | .colWrite g gseq _ t => colAdvance g gseq (colWrite x g gseq t s)

/-- A RECV completes: on a message, or on an inbox (R215, R286). -/
def recvComplete (b q : Nat) (s : State) : State :=
  match (seqOf b q s).blocked with
  | .recv r => if xdKind r.desc s = 1 then inboxRecv b q s else recvDone b q s
  | _ => s

/-! ## The new step, and the end of a context reset -/

/-- The new step begins: the Dovetail takes its descriptors, and a held trigger begins the next boundary (R159, R170). -/
def stepBegins (s : State) : State :=
  match s.pool.bnd with
  | some b => if b.phase = 6 then boundaryTry (dovNewStep (newStep s)) else s
  | none => s

/-- A context reset completes after 2,048 cycles; an apply that waits for it goes on (R433). -/
def ctxResetEnds (c : Nat) (s : State) : State :=
  match s.ctxs.resets.find? (fun p => p.1 == c) with
  | some p => defer .glueGo (ctxResetDone c (advanceTo p.2 s))
  | none => s

end Sys2Proof.Machine
end

