-- ==== Sys2Proof/Machine/CmdBench.lean ====
section
/-!
DEFINITION. The bench commands: issue, units, sequencers, and the bench registers (spec/01_benches.md to spec/03_bench_memory_and_tiles.md).
-/
namespace Sys2Proof.Machine

/-- A command of sequencer `q` of bench `b`, which acts while the units run (R419). -/
def seqRow (b q : Nat) (f : State → State) (s : State) : Host.Outcome State Fault Refusal :=
  check (decide (b < 1176)) .noSuchBench (check (decide (q < 2)) .noSuchSequencer (.next (if runs s then settle (f s) else s)))

/-- A command of bench `b`, which acts while the units run. -/
def benchRow (b : Nat) (f : State → State) (s : State) : Host.Outcome State Fault Refusal :=
  check (decide (b < 1176)) .noSuchBench (.next (if runs s then settle (f s) else s))

/-- An access to a register from outside. -/
def regRow (off : Nat) (a : Access) (src : Src) (s : State) : Host.Outcome State Fault Refusal :=
  .next (settleAll (regAccess src off a s))

/-- An access to a register of bench `b`. -/
def benchReg (b off : Nat) (a : Access) (src : Src) (s : State) : Host.Outcome State Fault Refusal :=
  check (decide (b < 1176)) .noSuchBench (regRow off a src s)

/-- A value with a bit of a register set: the command is the write that sets it. -/
def withBit (f : Fld) (v : Word) : Word := v ||| maskF f

/-- Issues a NOP, which does nothing beyond taking one issue slot (R49). -/
def execNop (b q : Nat) (s : State) : Host.Outcome State Fault Refusal := seqRow b q (issue .nop (issueNop b q) b q) s

/-- Issues a PASS into the 16-entry row queue, stalling the sequencer while the queue is full (R20). -/
def execPass (b q : Nat) (s : State) : Host.Outcome State Fault Refusal := seqRow b q (issue .pass (issuePass b q) b q) s

/-- The row dispatches the PASS at the head of its queue, capturing the active stile and starting its pipeline, including any flip the PASS triggers (R21). -/
def execPassDispatch (b h : Nat) (e : Ecc) (s : State) : Host.Outcome State Fault Refusal :=
  seqRow b h (unitAct b h (sideOf b h s).rowQ.head? (passReady b h) (passDispatch b h e)) s

/-- At the AC stage, each lane rounds the dot product once into the named accumulator and sets the accumulator's flags (R76). -/
def execPassAccumulate (b h : Nat) (s : State) : Host.Outcome State Fault Refusal := seqRow b h (passAccumulate b h) s

/-- Issues a SWAP with a 6-bit tag, pending until a matching tagged PASS is dispatched (R23). -/
def execSwap (b q : Nat) (s : State) : Host.Outcome State Fault Refusal := seqRow b q (issue .swap (issueSwap b q) b q) s

/-- Issues a SHAVE into the Shave queue (R41). -/
def execShave (b q : Nat) (s : State) : Host.Outcome State Fault Refusal := seqRow b q (issue .shave (issueShave b q) b q) s

/-- The Shave path begins a queued SHAVE once its interlocks allow, checking HOFF and the tile formats (R29). -/
def execShaveStart (b h : Nat) (e : Ecc) (s : State) : Host.Outcome State Fault Refusal :=
  seqRow b h (unitAct b h (sideOf b h s).shaveQ.head? (shaveReady b h) (shaveStart b h e)) s

/-- The last add of a SHAVE lands 3 cycles after its last read, and its flags are gathered (R28). -/
def execShaveComplete (b h : Nat) (s : State) : Host.Outcome State Fault Refusal := seqRow b h (shaveComplete b h) s

/-- Issues a SAND into the Sander queue (R31). -/
def execSand (b q : Nat) (s : State) : Host.Outcome State Fault Refusal := seqRow b q (issue .sand (issueSand b q) b q) s

/-- The Sander unit begins a SAND, checking the SRC and SRC2 formats, the element counts and the extent of the SRC2 run (R536). -/
def execSandStart (b h : Nat) (e : Ecc) (s : State) : Host.Outcome State Fault Refusal :=
  seqRow b h (unitAct b h (sideOf b h s).sandQ.head? (sandReady b h) (sandStart b h e)) s

/-- The SAND's DST tile becomes valid with its tag, or the SAND traps with ARITH (R34). -/
def execSandComplete (b h : Nat) (s : State) : Host.Outcome State Fault Refusal :=
  seqRow b h (unitAct b h ((sideOf b h s).sandRuns.head?.map (·.op)) (fun _ => true) (sandComplete b h)) s

/-- Issues a LOAD.STILE into the load unit queue (R25). -/
def execLoadStile (b q : Nat) (s : State) : Host.Outcome State Fault Refusal :=
  seqRow b q (issue .loadStile (issueLoad .stile b q) b q) s

/-- Issues a LOAD.HOLD into the load unit queue (R27). -/
def execLoadHold (b q : Nat) (s : State) : Host.Outcome State Fault Refusal :=
  seqRow b q (issue .loadHold (issueLoad .hold b q) b q) s

/-- The load unit begins a waiting load once it is free and every earlier SWAP has taken effect, checking PART and the run's formats (R25). -/
def execLoadUnitBegin (b h : Nat) (e : Ecc) (s : State) : Host.Outcome State Fault Refusal :=
  seqRow b h (unitAct b h (sideOf b h s).loadQ.head? (loadReady b h) (loadBegin b h e)) s

/-- A stile or held-vector load finishes writing and becomes usable (R49). -/
def execLoadComplete (b h : Nat) (s : State) : Host.Outcome State Fault Refusal := seqRow b h (loadComplete b h) s

/-- Issues a STORE into the store queue, or blocks issue while BEN_EXC_CTL.TRAP is not 0 (R48). -/
def execStore (b q : Nat) (s : State) : Host.Outcome State Fault Refusal := seqRow b q (issue .store (issueStore b q) b q) s

/-- The store unit starts reading accumulators once every earlier add into them has completed (R50). -/
def execStoreStart (b h : Nat) (e : Ecc) (s : State) : Host.Outcome State Fault Refusal :=
  seqRow b h (unitAct b h (sideOf b h s).storeQ.head? (storeReady b h) (storeStart b h e)) s

/-- The STORE's tile becomes valid with its tag, or the STORE faults with ARITH when a trapping class is found (R82). -/
def execStoreComplete (b h : Nat) (s : State) : Host.Outcome State Fault Refusal :=
  seqRow b h (unitAct b h ((sideOf b h s).storeRuns.head?.map (·.op)) (fun _ => true) (storeComplete b h)) s

/-- MOVE.I operation SET writes IMM into I[XD] (R46). -/
def execMoveISet (b q : Nat) (s : State) : Host.Outcome State Fault Refusal :=
  seqRow b q (issue .moveISet (fun w => issueMoveI b q w (moveImm w)) b q) s

/-- MOVE.I operation ADD writes I[XS] + IMM into I[XD] (R46). -/
def execMoveIAdd (b q : Nat) (s : State) : Host.Outcome State Fault Refusal :=
  seqRow b q (issue .moveIAdd (fun w s => issueMoveI b q w ((moveSrc b q w s + moveImm w) % 2 ^ 32) s) b q) s

/-- MOVE.I operation SHL writes I[XS] shifted left by IMM[4:0] into I[XD] (R46). -/
def execMoveIShl (b q : Nat) (s : State) : Host.Outcome State Fault Refusal :=
  seqRow b q (issue .moveIShl (fun w s => issueMoveI b q w (moveSrc b q w s * 2 ^ (moveImm w % 32) % 2 ^ 32) s) b q) s

/-- MOVE.I operation GET reads the logical bench number or the half number into I[XD] (R46). -/
def execMoveIGet (b q : Nat) (s : State) : Host.Outcome State Fault Refusal :=
  seqRow b q (issue .moveIGet (issueMoveGet b q) b q) s

/-- Issues a MOVE.T out, which sends a run of tiles to the remote endpoint in the descriptor's owned Floor slots (R104). -/
def execMoveTOut (b q : Nat) (s : State) : Host.Outcome State Fault Refusal :=
  seqRow b q (issue .moveTOut (issueMoveT true b q) b q) s

/-- Issues a MOVE.T in, which brings a run of tiles from the remote endpoint, and faults when the endpoint is a Dovetail port (R104). -/
def execMoveTIn (b q : Nat) (s : State) : Host.Outcome State Fault Refusal :=
  seqRow b q (issue .moveTIn (issueMoveT false b q) b q) s

/-- A MOVE.T completes in the cycle after its last byte lands (R105). -/
def execMoveTComplete (b q : Nat) (e : Ecc) (s : State) : Host.Outcome State Fault Refusal := seqRow b q (moveComplete b q e) s

/-- Issues a SEND, which forms one fabric message from a run of tiles, or one EMPTY packet when the run has no tiles (R285). -/
def execSend (b q : Nat) (s : State) : Host.Outcome State Fault Refusal := seqRow b q (issue .send (issueSend b q) b q) s

/-- Issues a RECV, which blocks the sequencer until it takes and completes the next message on its descriptor (R286). -/
def execRecv (b q : Nat) (s : State) : Host.Outcome State Fault Refusal := seqRow b q (issue .recv (issueRecv b q) b q) s

/-- The RECV takes its message when the first packet is available, checking MAXT and the landing run and writing NCHUNK into I[XR] (R286). -/
def execRecvTakeMessage (b q : Nat) (s : State) : Host.Outcome State Fault Refusal := seqRow b q (recvTake b q) s

/-- A RECV completes when every chunk has landed, or for an inbox descriptor when the entry's last round closes and its rows have landed (R215). -/
def execRecvComplete (b q : Nat) (s : State) : Host.Outcome State Fault Refusal := seqRow b q (recvComplete b q) s

/-- Issues a SEM.WAIT, checking ownership and lock use and blocking the sequencer (R360). -/
def execSemWait (b q : Nat) (s : State) : Host.Outcome State Fault Refusal := seqRow b q (issue .semWait (issueSemWait b q) b q) s

/-- At a Floor frame start, a blocked SEM.WAIT whose semaphore value suffices is served and takes the lock where the semaphore is one (R360). -/
def execSemWaitServed (b q : Nat) (s : State) : Host.Outcome State Fault Refusal := seqRow b q (semServe b q) s

/-- Issues a SEM.SIGNAL, which adds NUM to the semaphore with saturation or releases a lock (R360). -/
def execSemSignal (b q : Nat) (s : State) : Host.Outcome State Fault Refusal :=
  seqRow b q (issue .semSignal (issueSemSignal b q) b q) s

/-- Issues a SYNC, which blocks the sequencer on the units named in its mask (R41). -/
def execSync (b q : Nat) (s : State) : Host.Outcome State Fault Refusal := seqRow b q (issue .sync (issueSync b q) b q) s

/-- A SYNC ends once its waited units are empty, at a frame start when FABRIC or MARK is set (R106). -/
def execSyncRelease (b q : Nat) (s : State) : Host.Outcome State Fault Refusal := seqRow b q (syncRelease b q) s

/-- Issues a LOOP, which sets up a counted body and skips the body when the count is 0 (R42). -/
def execLoop (b q : Nat) (s : State) : Host.Outcome State Fault Refusal := seqRow b q (issue .loop (issueLoop b q) b q) s

/-- Branches when I[XA] equals the compared value (R47). -/
def execBranchEq (b q : Nat) (s : State) : Host.Outcome State Fault Refusal :=
  seqRow b q (issue .branchEq (issueBranch .branchEq b q) b q) s

/-- Branches when I[XA] differs from the compared value (R47). -/
def execBranchNe (b q : Nat) (s : State) : Host.Outcome State Fault Refusal :=
  seqRow b q (issue .branchNe (issueBranch .branchNe b q) b q) s

/-- Branches on a signed less-than (R47). -/
def execBranchLt (b q : Nat) (s : State) : Host.Outcome State Fault Refusal :=
  seqRow b q (issue .branchLt (issueBranch .branchLt b q) b q) s

/-- Branches on a signed greater-or-equal (R47). -/
def execBranchGe (b q : Nat) (s : State) : Host.Outcome State Fault Refusal :=
  seqRow b q (issue .branchGe (issueBranch .branchGe b q) b q) s

/-- Branches on an unsigned less-than (R47). -/
def execBranchLtu (b q : Nat) (s : State) : Host.Outcome State Fault Refusal :=
  seqRow b q (issue .branchLtu (issueBranch .branchLtu b q) b q) s

/-- Branches on an unsigned greater-or-equal (R47). -/
def execBranchGeu (b q : Nat) (s : State) : Host.Outcome State Fault Refusal :=
  seqRow b q (issue .branchGeu (issueBranch .branchGeu b q) b q) s

/-- Always branches, ending any active loop whose body the target leaves (R47). -/
def execBranchAl (b q : Nat) (s : State) : Host.Outcome State Fault Refusal :=
  seqRow b q (issue .branchAl (issueBranch .branchAl b q) b q) s

/-- Halts the sequencer to DONE, discarding pending SWAPs (R26). -/
def execHalt (b q : Nat) (s : State) : Host.Outcome State Fault Refusal := seqRow b q (issue .halt (issueHalt b q) b q) s

/-- Faults the sequencer with cause TRAP and records the TRAP code (R53). -/
def execTrap (b q : Nat) (s : State) : Host.Outcome State Fault Refusal := seqRow b q (issue .trap (issueTrap b q) b q) s

/-- The sequencer faults with BAD_TARGET when the next instruction would lie at address 8192 (R40). -/
def execExecutionPastEnd (b q : Nat) (s : State) : Host.Outcome State Fault Refusal := seqRow b q (pastEnd b q) s

/-- The re-fetched tile is rewritten from Ruril, and the held use repeats (R96). -/
def execTileRefetchDone (b t : Nat) (e : Ecc) (s : State) : Host.Outcome State Fault Refusal := benchRow b (refetchDone b t e) s

/-- A write of BEN_CTL.SPLIT changes split mode only while every sequencer of the bench is stopped (R37). -/
def execBenCtlWrite (b : Nat) (v : Word) (src : Src) (s : State) : Host.Outcome State Fault Refusal :=
  benchReg b (Reg.BEN_CTL b) (.write v) src s

/-- Writes an instruction word at ADDR and increments ADDR, or is refused while the addressed sequencer runs (R55). -/
def execBenImemDataWrite (b : Nat) (v : Word) (src : Src) (s : State) : Host.Outcome State Fault Refusal :=
  benchReg b (Reg.BEN_IMEM_DATA b) (.write v) src s

/-- Reads an instruction word at ADDR and increments ADDR, or returns 0 while the addressed sequencer runs (R55). -/
def execBenImemDataRead (b : Nat) (src : Src) (s : State) : Host.Outcome State Fault Refusal :=
  benchReg b (Reg.BEN_IMEM_DATA b) .read src s

/-- Accepts a start of sequencer 0 at PC0 when the sequencer is IDLE, DONE or FAULT (R56). -/
def execBenStartGo0 (b : Nat) (v : Word) (src : Src) (s : State) : Host.Outcome State Fault Refusal :=
  benchReg b (Reg.BEN_START b) (.write (withBit Fld.BEN_START_GO0 v)) src s

/-- Accepts a start of sequencer 1 at PC1 in split mode or on a SHARED bench (R56). -/
def execBenStartGo1 (b : Nat) (v : Word) (src : Src) (s : State) : Host.Outcome State Fault Refusal :=
  benchReg b (Reg.BEN_START b) (.write (withBit Fld.BEN_START_GO1 v)) src s

/-- An accepted start takes effect at the next Floor frame start, clearing the index registers and BEN_FAULT (R56). -/
def execSequencerStart (b q : Nat) (s : State) : Host.Outcome State Fault Refusal := seqRow b q (seqStart b q) s

/-- A bench reset zeroes the bench SRAM and the bench state when its conditions hold (R434). -/
def execBenReset (b : Nat) (v : Word) (src : Src) (s : State) : Host.Outcome State Fault Refusal :=
  benchReg b (Reg.BEN_RESET b) (.write (withBit Fld.BEN_RESET_RESET v)) src s

/-- After 1,536 cycles reading OFF, the sequencers of a reset bench read IDLE or OFF (R434). -/
def execBenchResetSettle (b : Nat) (s : State) : Host.Outcome State Fault Refusal := benchRow b (benchSettle b) s

/-- Writing VALID = 1 clears every field of BEN_FAULT0 or BEN_FAULT1 (R54). -/
def execBenFaultClear (b q : Nat) (v : Word) (src : Src) (s : State) : Host.Outcome State Fault Refusal :=
  check (decide (q < 2)) .noSuchSequencer (benchReg b (faultReg b q) (.write (withBit ⟨63, 1⟩ v)) src s)

/-- Writing VALID = 1 clears BEN_EXC_FIRST (R81). -/
def execBenExcFirstClear (b : Nat) (v : Word) (src : Src) (s : State) : Host.Outcome State Fault Refusal :=
  benchReg b (Reg.BEN_EXC_FIRST b) (.write (withBit ⟨63, 1⟩ v)) src s

/-- Writing VALID = 1 clears BEN_CHECK_FIRST (R97). -/
def execBenCheckFirstClear (b : Nat) (v : Word) (src : Src) (s : State) : Host.Outcome State Fault Refusal :=
  benchReg b (Reg.BEN_CHECK_FIRST b) (.write (withBit ⟨63, 1⟩ v)) src s

/-- Writes RECORD and TRAP only while every sequencer of the bench is stopped (R83). -/
def execBenExcCtlWrite (b : Nat) (v : Word) (src : Src) (s : State) : Host.Outcome State Fault Refusal :=
  benchReg b (Reg.BEN_EXC_CTL b) (.write v) src s

/-- Reads or writes the Floor descriptor at INDEX and increments INDEX, with writes refused while the Floor is armed or a check runs (R109). -/
def execBenFdescDataAccess (b : Nat) (a : Access) (src : Src) (s : State) : Host.Outcome State Fault Refusal :=
  benchReg b (Reg.BEN_FDESC_DATA b) a src s

/-- Sets the system slots of the bench port only while the Floor is neither armed nor being checked (R109). -/
def execBenFloorSysWrite (b : Nat) (v : Word) (src : Src) (s : State) : Host.Outcome State Fault Refusal :=
  benchReg b (Reg.BEN_FLOOR_SYS b) (.write v) src s

/-- Starts the two-pass check of every Floor descriptor (R108). -/
def execGlbFloorArm (v : Word) (src : Src) (s : State) : Host.Outcome State Fault Refusal :=
  regRow Reg.GLB_FLOOR_CTL (.write (withBit Fld.GLB_FLOOR_CTL_ARM v)) src s

/-- Disarms the Floor unless a check is running or any sequencer is running (R109). -/
def execGlbFloorDisarm (v : Word) (src : Src) (s : State) : Host.Outcome State Fault Refusal :=
  regRow Reg.GLB_FLOOR_CTL (.write (withBit Fld.GLB_FLOOR_CTL_DISARM v)) src s

/-- The arming check ends with ARMED, CONFLICT or BAD_DESC, and stalled MOVE.T instructions resume once the Floor is armed (R108). -/
def execFloorArmCheckDone (s : State) : Host.Outcome State Fault Refusal :=
  .next (if held s || dead s then s else floorCheckDone s)

end Sys2Proof.Machine
end

