-- ==== Sys2Proof/Machine/CmdTier.lean ====
section
/-!
DEFINITION. The tier manager, buffer pool and step boundary commands (spec/04_ruril_and_tiers.md, spec/05_buffer_pool_and_sequences.md).
-/
namespace Sys2Proof.Machine

/-- A command that acts while the units run. -/
def unitRow (f : State → State) (s : State) : Host.Outcome State Fault Refusal := .next (if runs s then settle (f s) else s)

/-- A command of object descriptor `o`. -/
def objRow (o : Nat) (f : State → State) (s : State) : Host.Outcome State Fault Refusal :=
  check (decide (o < 65536)) .noSuchObject (unitRow f s)

/-- A command of sequence slot `n`. -/
def slotRow (n : Nat) (f : State → State) (s : State) : Host.Outcome State Fault Refusal :=
  check (decide (n < 262144)) .noSuchSlot (unitRow f s)

/-- A software request of the tier manager: both request words are written, the second submits it (R125). -/
def softReq (op c obj w1 : Nat) (s : State) : State :=
  submitReq (w64 w1) (wr Reg.TIR_REQ0 (w64 (op * 2 ^ 60 + c % 16 * 2 ^ 56 + obj % 2 ^ 40)) s)

/-- The words of a PROMOTE request after the first. -/
def promoteWord (deadline sem signum : Nat) : Nat :=
  (setF Fld.TIR_REQ1_DEADLINE (setF Fld.TIR_REQ1_SEM (setF Fld.TIR_REQ1_SIGNUM 0 signum) sem) deadline).toNat

/-- Reads or writes an object descriptor word, checking legality and duplicates, and increments the address (R121). -/
def execTirObjDataAccess (a : Access) (src : Src) (s : State) : Host.Outcome State Fault Refusal :=
  regRow Reg.TIR_OBJ_DATA a src s

/-- Writing VALID = 1 clears TIR_POISON_FIRST (R136). -/
def execTirPoisonFirstClear (v : Word) (src : Src) (s : State) : Host.Outcome State Fault Refusal :=
  regRow Reg.TIR_POISON_FIRST (.write (withBit Fld.TIR_POISON_FIRST_VALID v)) src s

/-- Submits a software PROMOTE, which is accepted at the next step boundary, pinned and booked (R125). -/
def execTirReqPromote (c obj deadline sem signum : Nat) (s : State) : Host.Outcome State Fault Refusal :=
  check (decide (c < 16)) .noSuchContext (unitRow (softReq 1 c obj (promoteWord deadline sem signum)) s)

/-- Submits an EVICT, which is accepted at the next boundary and drops the bench copy or defers while the object is pinned (R130). -/
def execTirReqEvict (c obj : Nat) (s : State) : Host.Outcome State Fault Refusal :=
  check (decide (c < 16)) .noSuchContext (unitRow (softReq 2 c obj 0) s)

/-- Submits a FLUSH, which books the write-back of dirty tiles and keeps the bench copy (R130). -/
def execTirReqFlush (c obj : Nat) (s : State) : Host.Outcome State Fault Refusal :=
  check (decide (c < 16)) .noSuchContext (unitRow (softReq 3 c obj 0) s)

/-- Submits an UNPIN, which releases one pin of CTX and may start a pending eviction (R125). -/
def execTirReqUnpin (c obj : Nat) (s : State) : Host.Outcome State Fault Refusal :=
  check (decide (c < 16)) .noSuchContext (unitRow (softReq 4 c obj 0) s)

/-- A booked tier manager tile transfer between a stack and a bench port lands or is written back (R127). -/
def execTierTileTransferDone (j : Nat) (e : Ecc) (s : State) : Host.Outcome State Fault Refusal := unitRow (tierTransfer j e) s

/-- At the booked completion cycle, SRAM becomes FULL and each request's semaphore is signalled (R130). -/
def execPromotionComplete (o : Nat) (s : State) : Host.Outcome State Fault Refusal := objRow o (promotionDone o) s

/-- The eviction's write-back ends, SRAM becomes NONE and any booked promotion proceeds (R130). -/
def execWritebackComplete (o : Nat) (s : State) : Host.Outcome State Fault Refusal := objRow o (writebackDone o) s

/-- A flush ends, and the object returns to RESIDENT_BOTH when no dirty bit is set (R130). -/
def execFlushComplete (o : Nat) (s : State) : Host.Outcome State Fault Refusal := objRow o (flushDone o) s

/-- A recovery source delivers a poisoned tile, which is checked and written to Ruril, and recovery ends when every tile is recovered (R138). -/
def execRecoveryTileReceive (o j : Nat) (x : Tile) (s : State) : Host.Outcome State Fault Refusal :=
  objRow o (recoveryTile o j x) s

/-- A recovery source fails to deliver within TIMEOUT_US, and recovery moves to the next source or fails (R138). -/
def execRecoverySourceTimeout (o : Nat) (s : State) : Host.Outcome State Fault Refusal := objRow o (recoveryTimeout o) s

/-- A scrub window rewrites corrected bursts and poisons tiles with uncorrectable errors (R115). -/
def execRurilScrub (rtn : Nat) (corrected : Nat) (bad : Bool) (s : State) : Host.Outcome State Fault Refusal :=
  .next (if held s || dead s || !s.power.ruril then s else settle (scrub rtn corrected bad s))

/-- Allocates the head of the free list to the holder (R146). -/
def execBpmAlloc (h : Nat) (ok soft : Bool) (s : State) : Host.Outcome State Fault Refusal :=
  unitRow (poolReq ⟨1, h, 0, 0, 0, soft, ok⟩) s

/-- Adds N users to a buffer and names the new FINAL holder (R146). -/
def execBpmShare (h buf n newfinal : Nat) (soft : Bool) (s : State) : Host.Outcome State Fault Refusal :=
  unitRow (poolReq ⟨2, h, buf, n, newfinal, soft, true⟩) s

/-- Drops one user of a shared buffer, freeing it when FREEING is set and the last share goes (R146). -/
def execBpmDrop (h buf : Nat) (soft : Bool) (s : State) : Host.Outcome State Fault Refusal :=
  unitRow (poolReq ⟨3, h, buf, 0, 0, soft, true⟩) s

/-- Frees a buffer held by FINAL, or marks it FREEING, and refuses a FREE from any other holder (R147). -/
def execBpmFree (h buf : Nat) (ok soft : Bool) (s : State) : Host.Outcome State Fault Refusal :=
  unitRow (poolReq ⟨4, h, buf, 0, 0, soft, ok⟩) s

/-- Starts pool initialisation unless a slot is in use or an initialisation is already running (R150). -/
def execBpmPoolInit (v : Word) (src : Src) (s : State) : Host.Outcome State Fault Refusal :=
  regRow Reg.BPM_POOL_CTL (.write (withBit Fld.BPM_POOL_CTL_INIT v)) src s

/-- Initialisation completes with every buffer threaded and every slot FREE (R150). -/
def execPoolInitDone (s : State) : Host.Outcome State Fault Refusal :=
  .next (if held s || dead s || !s.power.ruril then s else poolInit s)

/-- A software trigger begins a step boundary when MODE is 0, or is held while a boundary runs (R159). -/
def execBpmStepEnd (v : Word) (src : Src) (s : State) : Host.Outcome State Fault Refusal :=
  regRow Reg.BPM_STEP_END (.write (withBit Fld.BPM_STEP_END_END v)) src s

/-- A held trigger begins a step boundary, which runs phases 1 to 5 (R159). -/
def execStepBoundaryBegin (s : State) : Host.Outcome State Fault Refusal := unitRow boundaryTry s

/-- A parking copy completes or fails, and the slot's buffers are freed and PARKED or PARK_FAILED is posted (R163). -/
def execParkCopyDone (slot : Nat) (ok : Bool) (s : State) : Host.Outcome State Fault Refusal :=
  slotRow slot (parkCopyDone slot ok) s

/-- A resume copy completes and the join is ADMITTED, or it fails and the admission is undone as DEFERRED (R452). -/
def execResumeCopyDone (slot : Nat) (pages : Option (List Byte)) (s : State) : Host.Outcome State Fault Refusal :=
  slotRow slot (resumeCopyDone slot pages) s

/-- The new step begins at the first frame start after phase 5, and TIR_STEP_START and STEP are updated (R159). -/
def execNewStepStart (s : State) : Host.Outcome State Fault Refusal := unitRow stepBegins s

/-- Requests a leave of a slot, which sets it LEAVING with a status (R157). -/
def execBpmSlotReq (v : Word) (src : Src) (s : State) : Host.Outcome State Fault Refusal :=
  regRow Reg.BPM_SLOT_REQ (.write v) src s

/-- Reads a slot record word and increments the slot address (R165). -/
def execBpmSlotDataRead (src : Src) (s : State) : Host.Outcome State Fault Refusal := regRow Reg.BPM_SLOT_DATA .read src s

end Sys2Proof.Machine
end

