-- ==== Sys2Proof/Machine/CmdFabric.lean ====
section
/-!
DEFINITION. The fabric commands: ports, jobs, transport and trees (spec/08_fabric_link.md to spec/10_fabric_transport.md).
-/
namespace Sys2Proof.Machine

/-- A command of port `n`, which acts while the units run. -/
def portRow (n : Nat) (f : State → State) (s : State) : Host.Outcome State Fault Refusal :=
  check (decide (n < 16)) .noSuchPort (unitRow f s)

/-- An access to a register of port `n`. -/
def portReg (n off : Nat) (v : Word) (src : Src) (s : State) : Host.Outcome State Fault Refusal :=
  check (decide (n < 16)) .noSuchPort (regRow off (.write v) src s)

/-- A packet that port `n` holds, or the device's own loopback (16), is taken and checked, and a good one acts. -/
def packetRow (n : Nat) (p : Packet) (is : Packet → Bool) (k : RxPkt → State → State) (s : State) : Host.Outcome State Fault Refusal :=
  check (decide (n ≤ 16)) .noSuchPort (.next (packetTake n p is k s))

/-- A transport packet of a TTYPE. -/
def xportRow (n : Nat) (p : Packet) (type : Nat) (k : Packet → State → State) (s : State) : Host.Outcome State Fault Refusal :=
  packetRow n p (xportIs type) (fun _ => xportTake (k p) p) s

/-- A CONTROL packet of a type. -/
def ctlRow (n : Nat) (p : Packet) (type : Nat) (k : State → State) (s : State) : Host.Outcome State Fault Refusal :=
  packetRow n p (ctlIs type) (fun _ => k) s

/-- Writing ENABLE lets a DISABLED port enter DETECT, or takes an enabled port to DISABLED (R254). -/
def execFabPortEnable (n : Nat) (v : Word) (src : Src) (s : State) : Host.Outcome State Fault Refusal :=
  portReg n (Reg.FAB_PORT_CTL n) v src s

/-- Takes the port to DISABLED and then to DETECT when ENABLE is 1 (R254). -/
def execFabPortReset (n : Nat) (v : Word) (src : Src) (s : State) : Host.Outcome State Fault Refusal :=
  portReg n (Reg.FAB_PORT_CTL n) (withBit Fld.FAB_PORT_CTL_RESET v) src s

/-- Starts RETRAIN from ACTIVE, clearing the BAD marks and trying width 8 (R257). -/
def execFabPortRetrain (n : Nat) (v : Word) (src : Src) (s : State) : Host.Outcome State Fault Refusal :=
  portReg n (Reg.FAB_PORT_CTL n) (withBit Fld.FAB_PORT_CTL_RETRAIN v) src s

/-- Writes the link timers only while the port is DISABLED or DOWN (R259). -/
def execFabLinkCfgWrite (n : Nat) (v : Word) (src : Src) (s : State) : Host.Outcome State Fault Refusal :=
  portReg n (Reg.FAB_LINK_CFG n) v src s

/-- Signal on a lane half moves a DETECT port to EQ (R254). -/
def execLinkSignalDetect (n half : Nat) (s : State) : Host.Outcome State Fault Refusal :=
  portRow n (if half < 2 then signalDetect n else id) s

/-- Every lane reaches the target error rate, and the port goes to IDENT at width 8 (R254). -/
def execEqDone (n invert : Nat) (eyes : List Nat) (s : State) : Host.Outcome State Fault Refusal :=
  portRow n (eqDone n invert eyes) s

/-- After 50 ms in EQ, the port degrades to width 4, retries or goes DOWN (R254). -/
def execEqTimeout (n : Nat) (clean0 clean1 : Bool) (invert : Nat) (eyes : List Nat) (s : State) : Host.Outcome State Fault Refusal :=
  portRow n (eqTimeout n clean0 clean1 invert eyes) s

/-- The partner's identity arrives, the wiring and version are checked and the pools are advertised (R256). -/
def execIdentExchange (n : Nat) (ident : Word) (pools : List Nat) (s : State) : Host.Outcome State Fault Refusal :=
  portRow n (identExchange n ident pools) s

/-- After 1 ms in IDENT, the port retries or goes DOWN (R254). -/
def execIdentTimeout (n : Nat) (s : State) : Host.Outcome State Fault Refusal := portRow n (stageTimeout n 3) s

/-- Deskew and block lock are reached, the counters are reset, the delay is measured and the port goes ACTIVE (R254). -/
def execAlignLock (n delay : Nat) (s : State) : Host.Outcome State Fault Refusal :=
  portRow n (fun s => pumpAll (alignLock n delay s)) s

/-- After 1 ms in ALIGN, the port retries or goes DOWN (R254). -/
def execAlignTimeout (n : Nat) (s : State) : Host.Outcome State Fault Refusal := portRow n (stageTimeout n 4) s

/-- The partner's retrain pattern moves an ACTIVE port into RETRAIN (R255). -/
def execRetrainPatternDetect (n : Nat) (s : State) : Host.Outcome State Fault Refusal := portRow n (retrainPattern n) s

/-- A RETRAIN re-tunes and locks, sends a NAK, replays and returns the port to ACTIVE (R255). -/
def execRetrainLock (n delay : Nat) (s : State) : Host.Outcome State Fault Refusal :=
  portRow n (fun s => pumpAll (retrainLock n delay s)) s

/-- After 20 µs in RETRAIN, the port tries again or goes DOWN with RETRAIN_FAIL (R254). -/
def execRetrainTimeout (n : Nat) (s : State) : Host.Outcome State Fault Refusal := portRow n (retrainTimeout n) s

/-- With AUTO = 1, after DOWN_RETRY_MS the port returns to DETECT (R254). -/
def execDownRetryExpire (n : Nat) (s : State) : Host.Outcome State Fault Refusal := portRow n (downRetry n) s

/-- Sends one FEC block of three flits, choosing DATA by credit and round robin, and carrying ACK and credit returns (R245). -/
def execFecBlockSend (n : Nat) (s : State) : Host.Outcome State Fault Refusal := portRow n (blockSend n) s

/-- Decodes a received FEC block, checks its flits and accepts, discards or NAKs DATA by SEQ (R239). -/
def execFecBlockReceive (n : Nat) (bytes : List Byte) (s : State) : Host.Outcome State Fault Refusal :=
  portRow n (blockReceive n bytes) s

/-- The oldest unacknowledged flit held for REPLAY_NS triggers a replay (R250). -/
def execReplayTimerExpire (n : Nat) (s : State) : Host.Outcome State Fault Refusal := portRow n (replayTimer n) s

/-- A NAK-wait lasting REPLAY_NS sends another NAK (R249). -/
def execNakWaitExpire (n : Nat) (s : State) : Host.Outcome State Fault Refusal := portRow n (nakWaitExpire n) s

/-- A lane of an ACTIVE port loses symbol lock on the received signal, so the lane becomes BAD and the port retrains at width 4 or goes DOWN (R257). -/
def execLaneLockLost (n l : Nat) (s : State) : Host.Outcome State Fault Refusal := portRow n (laneLost n l) s

/-- Software starts a job with the FAB_START values and the expected digest (R275). -/
def execFabJobCtlStart (v : Word) (src : Src) (s : State) : Host.Outcome State Fault Refusal :=
  regRow Reg.FAB_JOB_CTL (.write (withBit Fld.FAB_JOB_CTL_START v)) src s

/-- Software tears down the ACTIVE job, bumping the epoch and entering DRAINING (R276). -/
def execFabJobCtlTeardown (v : Word) (src : Src) (s : State) : Host.Outcome State Fault Refusal :=
  regRow Reg.FAB_JOB_CTL (.write (withBit Fld.FAB_JOB_CTL_TEARDOWN v)) src s

/-- A JOB_START CONTROL packet starts the job as a START write does (R274). -/
def execJobStart (n : Nat) (p : Packet) (s : State) : Host.Outcome State Fault Refusal := ctlRow n p 1 (jobStartPacket p) s

/-- A TEARDOWN CONTROL packet with the job's KEY tears down the job and forwards the teardown down the job tree (R276). -/
def execTeardown (n : Nat) (p : Packet) (s : State) : Host.Outcome State Fault Refusal := ctlRow n p 2 (teardownPacket p) s

/-- A START that waited for ports to train completes its route check and enters ACTIVE or refuses (R275). -/
def execStartPortsReady (s : State) : Host.Outcome State Fault Refusal := unitRow startPortsReady s

/-- No job flit remains in this device's buffers, and the job state is cleared to NONE (R276). -/
def execDrainComplete (s : State) : Host.Outcome State Fault Refusal := unitRow drainComplete s

/-- After DRAIN_MS, the ports that still hold job flits are reset and the job state is cleared (R276). -/
def execDrainTimeout (s : State) : Host.Outcome State Fault Refusal := unitRow drainTimeout s

/-- Reads or writes a rank table entry under the takeover limits, and increments the index (R268). -/
def execFabRankDataAccess (a : Access) (src : Src) (s : State) : Host.Outcome State Fault Refusal :=
  regRow Reg.FAB_RANK_DATA a src s

/-- Reads or writes eight plane masks and increments the index (R269). -/
def execFabPlaneDataAccess (a : Access) (src : Src) (s : State) : Host.Outcome State Fault Refusal :=
  regRow Reg.FAB_PLANE_DATA a src s

/-- Reads or writes a tree entry and increments the index (R281). -/
def execFabTreeDataAccess (a : Access) (src : Src) (s : State) : Host.Outcome State Fault Refusal :=
  regRow Reg.FAB_TREE_DATA a src s

/-- A CHUNK packet is checked by network and transport checks, accepted, deduplicated or dropped, and lands or is staged (R295). -/
def execChunk (n : Nat) (p : Packet) (s : State) : Host.Outcome State Fault Refusal := xportRow n p 0 chunkTake s

/-- An EMPTY packet is accepted as a zero-chunk message (R295). -/
def execEmpty (n : Nat) (p : Packet) (s : State) : Host.Outcome State Fault Refusal := xportRow n p 1 emptyTake s

/-- A transport ACK releases the acknowledged packets of a pair, completing SENDs and clearing the suspect state (R294). -/
def execAck (n : Nat) (p : Packet) (s : State) : Host.Outcome State Fault Refusal := xportRow n p 2 ackTake' s

/-- A SNACK makes the sender resend the named chunk once (R294). -/
def execSnack (n : Nat) (p : Packet) (s : State) : Host.Outcome State Fault Refusal := xportRow n p 3 snackTake s

/-- A SYNC packet sets the expected SEQ of a pair for which the receiver holds no state (R306). -/
def execXportSync (n : Nat) (p : Packet) (s : State) : Host.Outcome State Fault Refusal := xportRow n p 4 syncTake s

/-- A version 2 packet's cells are stored and reassembled into tiles with fresh tags (R153). -/
def execV2CellPacket (n : Nat) (p : Packet) (s : State) : Host.Outcome State Fault Refusal :=
  packetRow n p (fun p => pkN0 p Pk.VER == 2) (fun _ => v2Receive p) s

/-- 1 µs after an uncovered accepted packet, the receiver sends an ACK (R296). -/
def execXportAckTimer (r c : Nat) (s : State) : Host.Outcome State Fault Refusal := unitRow (ackTimer r c) s

/-- The resend timer resends a pair's unacknowledged packets, or retries a held route (R294). -/
def execRtoExpire (r c : Nat) (s : State) : Host.Outcome State Fault Refusal :=
  unitRow (rtoExpire (decide (2 ^ 17 ≤ r)) (r % 2 ^ 17) c) s

/-- A booked fabric engine read of a SEND tile or write of a received chunk completes in system slots (R537). -/
def execFabricTileTransferDone (j : Nat) (e : Ecc) (s : State) : Host.Outcome State Fault Refusal := unitRow (fabTransfer j e) s

/-- Reads or writes a fabric descriptor word, refusing reserved KIND values, and increments the address (R283). -/
def execFabXdescDataAccess (a : Access) (src : Src) (s : State) : Host.Outcome State Fault Refusal :=
  regRow Reg.FAB_XDESC_DATA a src s

/-- Writing VALID = 1 clears FAB_TREE_FAILED (R312). -/
def execFabTreeFailedClear (v : Word) (src : Src) (s : State) : Host.Outcome State Fault Refusal :=
  regRow Reg.FAB_TREE_FAILED (.write (withBit ⟨63, 1⟩ v)) src s

/-- A RESEND makes the member resend tree chunks from its cut list starting at NEXT (R311). -/
def execResend (n : Nat) (p : Packet) (s : State) : Host.Outcome State Fault Refusal := ctlRow n p 3 (resendReceive p) s

/-- A REATTACH makes the member adopt the sender, resend to it and report TREE_FAIL to ROOT (R311). -/
def execReattach (n : Nat) (p : Packet) (s : State) : Host.Outcome State Fault Refusal := ctlRow n p 4 (reattachReceive p) s

/-- ROOT takes a TREE_FAIL as a report, writing FAB_TREE_FAILED and a TREE_NODE_FAILED record (R312). -/
def execTreeFail (n : Nat) (p : Packet) (s : State) : Host.Outcome State Fault Refusal := ctlRow n p 5 (treeFailReceive p) s

/-- TREE_TIMEOUT_US elapses and the member asks its parent or an ancestor to resend or reattach (R310). -/
def execTreeTimeout (t : Nat) (s : State) : Host.Outcome State Fault Refusal := unitRow (treeTimeout t) s

/-- A connector's CBL_3V3 draws more than 2.5 A, and the device turns that supply off, so the port cannot leave DETECT (R510). -/
def execCbl3v3Overcurrent (n : Nat) (s : State) : Host.Outcome State Fault Refusal :=
  check (decide (n < 16)) .noSuchPort (.next (cblOff n s))

/-- Once per second the device turns a CBL_3V3 that it switched off back on (R510). -/
def execCbl3v3Retry (n : Nat) (s : State) : Host.Outcome State Fault Refusal :=
  check (decide (n < 16)) .noSuchPort (.next (cblRetry n s))

/-- A lane PLL loses lock, and its port's lanes lose lock (R427). -/
def execLanePllUnlock (n : Nat) (s : State) : Host.Outcome State Fault Refusal := portRow n (lanePll n) s

end Sys2Proof.Machine
end

