-- ==== Sys2Proof/Machine/CmdCollective.lean ====
section
/-!
DEFINITION. The collective, work context and determinism commands (spec/11_collectives.md to spec/13_determinism.md).
-/
namespace Sys2Proof.Machine

/-- A command of context `c`, which acts while the units run. -/
def ctxRow (c : Nat) (f : State → State) (s : State) : Host.Outcome State Fault Refusal :=
  check (decide (c < 16)) .noSuchContext (unitRow f s)

/-- A write of a register of context `c`. -/
def ctxReg (c off : Nat) (v : Word) (src : Src) (s : State) : Host.Outcome State Fault Refusal :=
  check (decide (c < 16)) .noSuchContext (regRow off (.write v) src s)

/-- A software start of a collective descriptor takes a GSEQ and checks the start (R325). -/
def execColStart (v : Word) (src : Src) (s : State) : Host.Outcome State Fault Refusal := regRow Reg.COL_START (.write v) src s

/-- A start that waited for a slot opens its instance when a slot frees (R331). -/
def execCollectiveSlotGranted (c : Nat) (s : State) : Host.Outcome State Fault Refusal := ctxRow c (slotGranted c) s

/-- A slot wait exceeding SLOT_WAIT_US ends every open instance of the context in error (R331). -/
def execSlotWaitTimeout (c : Nat) (s : State) : Host.Outcome State Fault Refusal := ctxRow c (slotWaitTimeout c) s

/-- An instance open for OPEN_LIMIT_MS ends in error (R345). -/
def execOpenLimitTimeout (g gseq : Nat) (s : State) : Host.Outcome State Fault Refusal := unitRow (openLimit g gseq) s

/-- An ABORT ends an open instance in error, or marks ABORT_FROM for later starts (R346). -/
def execAbort (n : Nat) (p : Packet) (s : State) : Host.Outcome State Fault Refusal := ctlRow n p 6 (abortReceive p) s

/-- Reads or writes a group entry word with its checks, and increments the address (R317). -/
def execColGroupDataAccess (a : Access) (src : Src) (s : State) : Host.Outcome State Fault Refusal :=
  regRow Reg.COL_GROUP_DATA a src s

/-- Reads or writes a member list word and increments the address (R318). -/
def execColListDataAccess (a : Access) (src : Src) (s : State) : Host.Outcome State Fault Refusal :=
  regRow Reg.COL_LIST_DATA a src s

/-- Reads or writes a collective descriptor word while no job is active, and increments the address (R320). -/
def execColDescDataAccess (a : Access) (src : Src) (s : State) : Host.Outcome State Fault Refusal :=
  regRow Reg.COL_DESC_DATA a src s

/-- Writes the next GSEQ of a group, where ABORTED = 0 clears ABORT_FROM (R348). -/
def execColGseqDataWrite (v : Word) (src : Src) (s : State) : Host.Outcome State Fault Refusal :=
  regRow Reg.COL_GSEQ_DATA (.write v) src s

/-- A read of COL_GSEQ_DATA returns a group's next GSEQ and abort mark and increments COL_GSEQ_ADDR.INDEX (R348). -/
def execColGseqDataRead (src : Src) (s : State) : Host.Outcome State Fault Refusal := regRow Reg.COL_GSEQ_DATA .read src s

/-- Starts a STOPPED context after the quota checks, or records REFUSE (R352). -/
def execCtxCtlStart (c : Nat) (v : Word) (src : Src) (s : State) : Host.Outcome State Fault Refusal :=
  ctxReg c (Reg.CTX_CTL c) (withBit Fld.CTX_CTL_START v) src s

/-- Tears down a RUNNING context, running teardown steps 1 to 6 at once (R350). -/
def execCtxCtlTeardown (c : Nat) (v : Word) (src : Src) (s : State) : Host.Outcome State Fault Refusal :=
  ctxReg c (Reg.CTX_CTL c) (withBit Fld.CTX_CTL_TEARDOWN v) src s

/-- After any running boundary's phase 5, the torn context's slots and joins are emptied as TORN_DOWN and the context becomes TORN (R366). -/
def execTeardownSlotRelease (c : Nat) (s : State) : Host.Outcome State Fault Refusal :=
  ctxRow c (fun s => boundaryTry (ctxStep7 c s)) s

/-- A deferral lasting HOLD_MAX cycles faults and tears down the holding context (R364). -/
def execHoldTimeout (c : Nat) (s : State) : Host.Outcome State Fault Refusal := ctxRow c (holdExpire c) s

/-- Reads or writes a bench table entry under the context-state limits, and increments the index (R354). -/
def execCtxBenchDataAccess (a : Access) (src : Src) (s : State) : Host.Outcome State Fault Refusal :=
  regRow Reg.CTX_BENCH_DATA a src s

/-- Writes a semaphore entry under its limits and clears the lock's last holder (R359). -/
def execCtxSemDataWrite (v : Word) (src : Src) (s : State) : Host.Outcome State Fault Refusal :=
  regRow Reg.CTX_SEM_DATA (.write v) src s

/-- A read of CTX_SEM_DATA returns the semaphore entry and increments CTX_SEM_ADDR.INDEX (R359). -/
def execCtxSemDataRead (src : Src) (s : State) : Host.Outcome State Fault Refusal := regRow Reg.CTX_SEM_DATA .read src s

/-- Enables or configures Clamp while no sequencer runs, resetting PG, ORD and the queue (R381). -/
def execDetClampCtlWrite (v : Word) (src : Src) (s : State) : Host.Outcome State Fault Refusal :=
  regRow Reg.DET_CLAMP_CTL (.write v) src s

/-- Sends queued Clamp records to the twin over port 7 (R383). -/
def execClampPacketSend (s : State) : Host.Outcome State Fault Refusal := unitRow clampSend s

/-- A CLAMP packet's records are compared with local records, counting mismatches and recording the first divergence (R384). -/
def execClamp (n : Nat) (p : Packet) (s : State) : Host.Outcome State Fault Refusal := ctlRow n p 9 (clampReceive p) s

/-- Writing VALID = 1 clears DET_CLAMP_FIRST and DET_CLAMP_FIRST2 (R384). -/
def execDetClampFirstClear (v : Word) (src : Src) (s : State) : Host.Outcome State Fault Refusal :=
  regRow Reg.DET_CLAMP_FIRST (.write (withBit ⟨63, 1⟩ v)) src s

/-- Writing VALID = 1 clears DET_TCC_FIRST (R378). -/
def execDetTccFirstClear (c : Nat) (v : Word) (src : Src) (s : State) : Host.Outcome State Fault Refusal :=
  ctxReg c (Reg.DET_TCC_FIRST c) (withBit ⟨63, 1⟩ v) src s

/-- Writes the Mark configuration only while not WAITING and no SYNC with MARK set is blocked (R393). -/
def execDetMarkCfgWrite (v : Word) (src : Src) (s : State) : Host.Outcome State Fault Refusal :=
  regRow Reg.DET_MARK_CFG (.write v) src s

/-- Software arrives the device for the Mark, sending ARRIVE or MARK when the member is arrived (R387). -/
def execDetMarkCtlArrive (v : Word) (src : Src) (s : State) : Host.Outcome State Fault Refusal :=
  regRow Reg.DET_MARK_CTL (.write (withBit Fld.DET_MARK_CTL_ARRIVE v)) src s

/-- Cancels the Mark wait, ending blocked SYNCs with MARK set at the next frame start (R392). -/
def execDetMarkCtlCancel (v : Word) (src : Src) (s : State) : Host.Outcome State Fault Refusal :=
  regRow Reg.DET_MARK_CTL (.write (withBit Fld.DET_MARK_CTL_CANCEL v)) src s

/-- An ARRIVE from a child counts toward the member's arrival (R387). -/
def execArrive (n : Nat) (p : Packet) (s : State) : Host.Outcome State Fault Refusal := ctlRow n p 8 (arriveReceive p) s

/-- A MARK is received, its elapsed time computed and the MARK forwarded with updated DELAY (R388). -/
def execMark (n : Nat) (p : Packet) (s : State) : Host.Outcome State Fault Refusal := packetRow n p (ctlIs 7) (markReceive n) s

/-- A TWIN_MARK ARRIVED or GO joins the two twin ROOTs and fixes t0 (R389). -/
def execTwinMark (n : Nat) (p : Packet) (s : State) : Host.Outcome State Fault Refusal :=
  packetRow n p (ctlIs 10) (twinReceive n) s

/-- At the release instant the clock is held to align a frame start, and blocked SYNCs with MARK set end (R390). -/
def execMarkRelease (s : State) : Host.Outcome State Fault Refusal := unitRow markRelease s

/-- A member waiting TIMEOUT_MS writes MARK_TIMEOUT and keeps waiting (R392). -/
def execMarkWaitTimeout (s : State) : Host.Outcome State Fault Refusal := unitRow markTimeout s

/-- Accepts a context reset of a STOPPED or TORN context (R433). -/
def execCtxReset (c : Nat) (v : Word) (src : Src) (s : State) : Host.Outcome State Fault Refusal :=
  ctxReg c (Reg.CTX_RESET c) (withBit Fld.CTX_RESET_RESET v) src s

/-- A context reset completes, applying all of its effects together (R433). -/
def execCtxResetComplete (c : Nat) (s : State) : Host.Outcome State Fault Refusal :=
  check (decide (c < 16)) .noSuchContext (.next (if held s || dead s then s else settle (ctxResetEnds c s)))

end Sys2Proof.Machine
end

