-- ==== Sys2Proof/Machine/CmdDovetail.lean ====
section
/-!
DEFINITION. The Dovetail commands (spec/06_dovetail_selection.md, spec/07_dovetail_dispatch_combine.md).
-/
namespace Sys2Proof.Machine

/-- Enables the Dovetail after the resource and map checks, or disables it at the next boundary (R168). -/
def execDovCtlEnWrite (v : Word) (src : Src) (s : State) : Host.Outcome State Fault Refusal := regRow Reg.DOV_CTL (.write v) src s

/-- Reads or writes a layer descriptor word with its legality checks, and increments the address (R193). -/
def execDovLayerDataAccess (a : Access) (src : Src) (s : State) : Host.Outcome State Fault Refusal :=
  regRow Reg.DOV_LAYER_DATA a src s

/-- Reads or writes a selection entry word while RUN is 0, and increments the address (R169). -/
def execDovSelDataAccess (a : Access) (src : Src) (s : State) : Host.Outcome State Fault Refusal :=
  regRow Reg.DOV_SEL_DATA a src s

/-- Sets T for the next step, refusing values above 16,384 (R192). -/
def execDovCtxTokensWrite (c : Nat) (v : Word) (src : Src) (s : State) : Host.Outcome State Fault Refusal :=
  check (decide (c < 16)) .noSuchContext (regRow (Reg.DOV_CTX_TOKENS c) (.write v) src s)

/-- Reads or writes a dispatch descriptor word with its legality checks, and increments the address (R227). -/
def execDovDispDataAccess (a : Access) (src : Src) (s : State) : Host.Outcome State Fault Refusal :=
  regRow Reg.DOV_DISP_DATA a src s

/-- Reads or writes a replica map entry word and increments the address (R229). -/
def execDovMapDataAccess (a : Access) (src : Src) (s : State) : Host.Outcome State Fault Refusal :=
  regRow Reg.DOV_MAP_DATA a src s

/-- Reads or writes a local expert entry word with its legality checks, and increments the address (R230). -/
def execDovLocDataAccess (a : Access) (src : Src) (s : State) : Host.Outcome State Fault Refusal :=
  regRow Reg.DOV_LOC_DATA a src s

/-- A layer descriptor starts at step start, or after the previous descriptor of its context is done (R170). -/
def execLayerDescriptorStart (d : Nat) (s : State) : Host.Outcome State Fault Refusal := unitRow (descStart d) s

/-- A score or skip tile lands at a Dovetail port and is checked, assigned to a descriptor or discarded (R173). -/
def execScoreTileArrive (b q : Nat) (e : Ecc) (s : State) : Host.Outcome State Fault Refusal := seqRow b q (scoreArrive b q e) s

/-- A Gauge unit starts ranking a token once its group is ready and the unit is free (R177). -/
def execGaugeTokenStart (d t : Nat) (s : State) : Host.Outcome State Fault Refusal := unitRow (gaugeStart d t) s

/-- A token's selection record and weights are ready a fixed time after its last score read (R180). -/
def execSelectionReady (d t : Nat) (s : State) : Host.Outcome State Fault Refusal := unitRow (selectionReady d t) s

/-- A token enters the capacity walk, its ranks are booked to instances or dropped, and LOAD and DEMAND are counted (R188). -/
def execCapacityWalkEnter (d t : Nat) (s : State) : Host.Outcome State Fault Refusal := unitRow (walkEnter d t) s

/-- When RSEM reaches RNUM, the Dovetail consumes it and reads the entry's result rows (R216). -/
def execOutboxRead (l : Nat) (s : State) : Host.Outcome State Fault Refusal := unitRow (outboxRead l) s

/-- A booked Dovetail read or write of a bench tile completes in its system slots (R201). -/
def execDovetailTileTransferDone (j : Nat) (e : Ecc) (s : State) : Host.Outcome State Fault Refusal := unitRow (dovTransfer j e) s

end Sys2Proof.Machine
end

