-- ==== Sys2Proof/Machine/CmdHost.lean ====
section
/-!
DEFINITION. The host attachment and its attestation requests (spec/16_host_cxl.md, spec/18_management_and_security.md).
-/
namespace Sys2Proof.Machine

/-- A doorbell write: BAR2 is the host's, and it is shut as the registers are. -/
def doorbell (r off : Nat) (src : Src) (f : State → State) (s : State) : Host.Outcome State Fault Refusal :=
  check (decide (r < 16)) .noSuchRing (.next (
    if src = .host ∧ hostOpen s = true then (if hostShut off s then refuse .host off s else settle (f s)) else s))

/-- A write of a register of ring `r`. -/
def ringReg (r off : Nat) (v : Word) (src : Src) (s : State) : Host.Outcome State Fault Refusal :=
  check (decide (r < 16)) .noSuchRing (regRow off (.write v) src s)

/-- Host link training ends at an acceptable rate and width, or the link is disabled (R439). -/
def execHostLinkTrained (rate width : Nat) (s : State) : Host.Outcome State Fault Refusal :=
  .next (settle (linkTrained rate width s))

/-- 1 s after a disabled link, training starts again (R439). -/
def execHostLinkRetryTimer (s : State) : Host.Outcome State Fault Refusal := .next (settle (linkRetry s))

/-- An unrequested loss of the host link fails the transfers in flight and logs HOST_LINK_DOWN (R460). -/
def execHostLinkLoss (s : State) : Host.Outcome State Fault Refusal := .next (settle (linkLoss s))

/-- A hot reset acts as a host link reset (R459). -/
def execHotReset (s : State) : Host.Outcome State Fault Refusal := .next (settle (linkReset s))

/-- A link disable acts as a host link reset (R459). -/
def execLinkDisable (s : State) : Host.Outcome State Fault Refusal := .next (settle (linkReset s))

/-- A function-level reset acts as a host link reset and leaves the link trained (R459). -/
def execFlr (s : State) : Host.Outcome State Fault Refusal := .next (settle (flr s))

/-- A 64-byte CXL.mem read of Ruril through port 11, returning Poison on an uncorrectable error (R445). -/
def execCxlMemRead (addr : Nat) (e : Ecc) (s : State) : Host.Outcome State Fault Refusal := .next (settle (memReadReq addr e s))

/-- A CXL.mem write into Ruril that recomputes the tile tag, or is dropped (R443). -/
def execCxlMemWrite (addr : Nat) (data : List Byte) (be : Nat) (s : State) : Host.Outcome State Fault Refusal :=
  .next (settle (memWriteReq addr data be s))

/-- A host snoop is answered with RspIHitI (R446). -/
def execH2dSnoop (s : State) : Host.Outcome State Fault Refusal := .next (snoop s)

/-- An intake doorbell write sets TAIL and starts fetching records (R449). -/
def execIrTail (r : Nat) (v : Word) (src : Src) (s : State) : Host.Outcome State Fault Refusal :=
  doorbell r (r * 0x1000) src (irTailWrite r v src) s

/-- Fetched intake records enter the intake queue in order, or the fetch fails (R450). -/
def execIntakeFetchDone (r : Nat) (data : Option (List Byte)) (s : State) : Host.Outcome State Fault Refusal :=
  check (decide (r < 16)) .noSuchRing (unitRow (fetchDone r data) s)

/-- A completion doorbell write sets HEAD and lets queued overflow records drain (R454). -/
def execCrHead (r : Nat) (v : Word) (src : Src) (s : State) : Host.Outcome State Fault Refusal :=
  doorbell r (r * 0x1000 + 8) src (crHeadWrite r v) s

/-- Configures or enables an intake ring, setting HEAD and TAIL to START on enable (R448). -/
def execGlbHifIrCfgWrite (r : Nat) (v : Word) (src : Src) (s : State) : Host.Outcome State Fault Refusal :=
  ringReg r (Reg.GLB_HIF_IR_CFG r) v src s

/-- Configures or enables a completion ring, resetting TAIL and PHASE on enable (R454). -/
def execGlbHifCrCfgWrite (r : Nat) (v : Word) (src : Src) (s : State) : Host.Outcome State Fault Refusal :=
  ringReg r (Reg.GLB_HIF_CR_CFG r) v src s

/-- A device read of host memory with no completion in 50 ms fails (R447). -/
def execHostReadTimeout (x : HostRead) (s : State) : Host.Outcome State Fault Refusal := .next (settle (hostReadTimeout x s))

/-- After COAL_US, records written during the interval are signalled on the ring's vector (R456). -/
def execMsixCoalesceExpire (r : Nat) (s : State) : Host.Outcome State Fault Refusal :=
  check (decide (r < 16)) .noSuchRing (.next (settle (coalExpire r s)))

/-- A DOE Discovery request returns the supported protocols (R457). -/
def execDoeDiscovery (idx : Nat) (s : State) : Host.Outcome State Fault Refusal := .next (doeDiscovery idx s)

/-- A DOE table access returns the CDAT entries (R457). -/
def execCdatTableAccess (s : State) : Host.Outcome State Fault Refusal := .next (cdatAccess s)

/-- An attestation request that returns the device certificate (R494). -/
def execGetCert (src : Src) (s : State) : Host.Outcome State Fault Refusal := .next (certGet src s)

/-- An attestation request that returns a signed report, or BUSY (R495). -/
def execGetReport (src : Src) (payload : List Byte) (s : State) : Host.Outcome State Fault Refusal :=
  .next (reportGet src payload s)

/-- Makes an ML-KEM key pair and returns its encapsulation key with a signed report (R497). -/
def execKemStart (src : Src) (payload : List Byte) (s : State) : Host.Outcome State Fault Refusal :=
  .next (kemBegin src payload s)

/-- Decapsulates the shared secret, derives and installs the IDE keys and enables both streams (R497). -/
def execKemFinish (src : Src) (ct : List Byte) (s : State) : Host.Outcome State Fault Refusal := .next (kemEnd src ct s)

/-- A held key pair is discarded after 10 s (R497). -/
def execKemKeyExpire (s : State) : Host.Outcome State Fault Refusal := .next (kemExpire s)

/-- A flit that fails its MAC takes the IDE stream to Insecure (R458). -/
def execIdeMacFail (stream : Nat) (s : State) : Host.Outcome State Fault Refusal := .next (settle (ideMacFail stream s))

/-- A host configuration write programs the HDM decoder, sets Cache_Enable, or enables MSI-X, which changes the device's host access path and its interrupt delivery (R446). -/
def execConfigSpaceWrite (x : CfgWrite) (s : State) : Host.Outcome State Fault Refusal := .next (configWrite x s)

/-- A host write to the BAR2 MSI-X table that unmasks a vector sends the message held by its pending bit (R456). -/
def execMsixTableWrite (idx : Nat) (v : Word) (s : State) : Host.Outcome State Fault Refusal := .next (msixWrite idx v s)

end Sys2Proof.Machine
end

