-- ==== Sys2Proof/Machine/CmdJig.lean ====
section
/-!
DEFINITION. The jig and glue-up commands (spec/14_jig_and_glueup.md).
-/
namespace Sys2Proof.Machine

/-- LOAD finishes the image checks or the rebuild from Ruril, and the device enters TRAIN, STOPPED, BARE or FAULT (R399). -/
def execJigLoadComplete (readsOk : Bool) (s : State) : Host.Outcome State Fault Refusal :=
  .next (settleAll (loadComplete' readsOk s))

/-- Starts checking and programming a staged image into flash (R401). -/
def execJigCtlProgram (v : Word) (src : Src) (s : State) : Host.Outcome State Fault Refusal :=
  regRow Reg.JIG_CTL (.write (withBit Fld.JIG_CTL_PROGRAM v)) src s

/-- Flash programming ends with DONE, or with a failure result, and runs LOAD when in BARE (R401). -/
def execProgramComplete (ok : Bool) (s : State) : Host.Outcome State Fault Refusal := .next (settle (programDone ok s))

/-- Takes the device from STOPPED to READY (R413). -/
def execJigCtlResume (v : Word) (src : Src) (s : State) : Host.Outcome State Fault Refusal :=
  regRow Reg.JIG_CTL (.write (withBit Fld.JIG_CTL_RESUME v)) src s

/-- Opens a glue-up and starts the dry-fit check of its change set (R407). -/
def execJigGlueDryfit (v : Word) (src : Src) (s : State) : Host.Outcome State Fault Refusal :=
  regRow Reg.JIG_GLUE_CTL (.write (withBit Fld.JIG_GLUE_CTL_DRYFIT v)) src s

/-- The dry-fit ends in FITTED or in DRYFIT_FAIL with a FITCODE (R407). -/
def execDryfitComplete (s : State) : Host.Outcome State Fault Refusal := unitRow dryfitDone s

/-- Arms a FITTED glue-up and starts its FETCH copies, or applies at once when IMMEDIATE is 1 (R408). -/
def execJigGlueGo (v : Word) (src : Src) (s : State) : Host.Outcome State Fault Refusal :=
  regRow Reg.JIG_GLUE_CTL (.write (withBit Fld.JIG_GLUE_CTL_GO v)) src s

/-- The glue-up's fetch copies complete, or a source fails and the glue-up fails (R408). -/
def execGlueFetchDone (tiles : Option (List Tile)) (s : State) : Host.Outcome State Fault Refusal :=
  .next (if runs s then settleAll (glueFetched tiles s) else s)

/-- Cancels a FITTED or ARMED glue-up (R408). -/
def execJigGlueCancel (v : Word) (src : Src) (s : State) : Host.Outcome State Fault Refusal :=
  regRow Reg.JIG_GLUE_CTL (.write (withBit Fld.JIG_GLUE_CTL_CANCEL v)) src s

/-- The held sequencers have stopped, and the dry-fit repeats and the glue-up votes (R408). -/
def execGlueStopDone (s : State) : Host.Outcome State Fault Refusal := .next (if runs s then settleAll (glueStopped s) else s)

/-- After STOP_MS, the glue-up votes 1 with STOP_TIMEOUT (R408). -/
def execGlueStopTimeout (s : State) : Host.Outcome State Fault Refusal := .next (if runs s then settleAll (stopTimeout s) else s)

/-- After VOTE_MS, the vote instance ends in error and the glue-up restarts without an apply (R408). -/
def execGlueVoteTimeout (s : State) : Host.Outcome State Fault Refusal := .next (if runs s then settleAll (voteTimeout s) else s)

end Sys2Proof.Machine
end

