-- ==== Sys2Proof/Machine/CmdKiln.lean ====
section
/-!
DEFINITION. The Kiln commands (spec/17_kiln.md).
-/
namespace Sys2Proof.Machine

/-- Every 10 µs, computes the ceiling and floor, adjusts the stretch level and runs ballast (R467). -/
def execKilnControlPeriod (power demand : Nat) (s : State) : Host.Outcome State Fault Refusal :=
  .next (settle (kilnPeriod power demand s))

/-- Every 100 µs, adjusts each voltage group's rail from its lowest margin (R464). -/
def execAvsInterval (margins powers : List Nat) (s : State) : Host.Outcome State Fault Refusal :=
  .next (settle (avsInterval margins powers s))

/-- A rail droop starts a one-root-period-per-cycle clock hold (R468). -/
def execDroopDetect (g : Nat) (s : State) : Host.Outcome State Fault Refusal := .next (droopDetect g s)

/-- The droop hold ends after every rail has been within DROOP_MV of its target for 64 cycles (R468). -/
def execDroopHoldEnd (s : State) : Host.Outcome State Fault Refusal := .next (droopEnd s)

/-- Power more than 10 % over PMAX for 10 ms at level 255 enters FAULT (R470). -/
def execKilnOverpower (s : State) : Host.Outcome State Fault Refusal := .next (settle (overpower s))

/-- Every 1 ms, sends a forecast frame to the energy store (R472). -/
def execEstoreForecastSend (s : State) : Host.Outcome State Fault Refusal := .next (forecastSend s)

/-- A received cap frame sets or clears the power cap, or is discarded (R472). -/
def execEstoreCapFrame (bytes : List Byte) (s : State) : Host.Outcome State Fault Refusal := .next (capFrame bytes s)

/-- No valid cap frame for LOSS_MS clears the cap and sets ESTORE_LOST (R472). -/
def execEstoreLossTimeout (s : State) : Host.Outcome State Fault Refusal := .next (settle (capLoss s))

/-- Every 100 ms, sets the coolant valve duty (R475). -/
def execValveLoopStep (fb : Nat) (s : State) : Host.Outcome State Fault Refusal := .next (valveStep fb s)

/-- Valve feedback off by more than 10 points for 2 s sets VALVE_FAULT and drives the valve fully open (R476). -/
def execValveFbMismatch (fb : Nat) (s : State) : Host.Outcome State Fault Refusal := .next (settle (valveMismatch fb s))

/-- New temperature readings set or clear the junction and outlet warnings (R474). -/
def execThermalSample (inlet outlet jmax : Nat) (s : State) : Host.Outcome State Fault Refusal :=
  .next (settle (thermalSample inlet outlet jmax s))

/-- JMAX at or above J_TRIP for 1 ms enters FAULT (R474). -/
def execJunctionTrip (s : State) : Host.Outcome State Fault Refusal := .next (settle (junctionTrip s))

/-- Outlet at or above OUT_TRIP for 1 s enters FAULT (R474). -/
def execCoolantTrip (s : State) : Host.Outcome State Fault Refusal := .next (settle (coolantTrip s))

/-- Writing 1 to WARN bits clears the Kiln warnings (R477). -/
def execKlnWarnClear (v : Word) (src : Src) (s : State) : Host.Outcome State Fault Refusal :=
  regRow Reg.KLN_STATUS (.write v) src s

/-- A Kiln register write with a range check, taking effect at the next control period (R478). -/
def execKlnRegisterWrite (off : Nat) (v : Word) (src : Src) (s : State) : Host.Outcome State Fault Refusal :=
  if 0x0200000 ≤ off ∧ off < 0x0400000 then regRow off (.write v) src s else .next s

end Sys2Proof.Machine
end

