-- ==== Sys2Proof/Machine/CmdPower.lean ====
section
/-!
DEFINITION. Supplies, clocks and resets (spec/15_power_up_clocks_reset.md).
-/
namespace Sys2Proof.Machine

/-- Aux has been good for 10 ms, and the device enters AUX or the sideband rejoins the bus (R421). -/
def execAuxGood (mv : Nat) (s : State) : Host.Outcome State Fault Refusal := .next (settle (auxGood mv s))

/-- Aux is lost, and the device goes OFF or records AUX_LOST while main runs (R423). -/
def execAuxLost (s : State) : Host.Outcome State Fault Refusal := .next (settle (auxLost s))

/-- Main is good in AUX, and power-up begins with the regulators ramping and the PLLs locking (R424). -/
def execMainGood (mv : Nat) (s : State) : Host.Outcome State Fault Refusal := .next (settle (mainGood mv s))

/-- Main is lost, every unit stops and the regulators are disabled (R422). -/
def execMainLost (drop : Bool) (s : State) : Host.Outcome State Fault Refusal := .next (mainLost drop s)

/-- The cold reset is released once MOD_RESET_N allows, every register is reset and the device enters LOAD (R428). -/
def execColdResetRelease (slot : Nat) (s : State) : Host.Outcome State Fault Refusal := .next (settle (coldRelease slot s))

/-- The Ruril stacks finish training and zero-filling, and Mem_Active becomes 1 (R424). -/
def execRurilTrainDone (s : State) : Host.Outcome State Fault Refusal := .next (rurilTrained s)

/-- Every enabled port settles in ACTIVE, DOWN or DETECT, and the device enters READY (R420). -/
def execTrainComplete (s : State) : Host.Outcome State Fault Refusal := .next (settleAll (trainDone s))

/-- After TRAIN_MS in TRAIN, the device enters READY (R420). -/
def execTrainTimeout (s : State) : Host.Outcome State Fault Refusal := .next (settleAll (trainTimeout s))

/-- Moves the device from READY to STOPPED (R420). -/
def execGlbStateCtlStop (v : Word) (src : Src) (s : State) : Host.Outcome State Fault Refusal :=
  regRow Reg.GLB_STATE_CTL (.write (withBit Fld.GLB_STATE_CTL_STOP v)) src s

/-- The reference clock is lost, and the device enters FAULT with only the sideband running (R427). -/
def execRefLost (s : State) : Host.Outcome State Fault Refusal := .next (settle (refLost s))

/-- The root PLL loses lock, and the device enters FAULT (R427). -/
def execRootUnlock (s : State) : Host.Outcome State Fault Refusal := .next (settle (rootUnlock s))

/-- A domain frequency window falls out of tolerance, and the device enters FAULT (R427). -/
def execClockFault (dom : Nat) (s : State) : Host.Outcome State Fault Refusal := .next (settle (clockFault dom s))

/-- An internal rail leaves regulation, and the device enters FAULT (R420). -/
def execRegulatorFault (s : State) : Host.Outcome State Fault Refusal := .next (settle (regulatorFault s))

/-- The host-link PLL loses lock, and the host link goes down (R427). -/
def execHostPllUnlock (s : State) : Host.Outcome State Fault Refusal := .next (settle (linkLoss s))

/-- MOD_RESET_N held low for 500 ns starts a warm reset (R429). -/
def execModResetNAssert (s : State) : Host.Outcome State Fault Refusal := .next (modReset s)

/-- A write with the right KEY starts a warm reset (R429). -/
def execGlbResetCtlWarm (v : Word) (src : Src) (s : State) : Host.Outcome State Fault Refusal :=
  regRow Reg.GLB_RESET_CTL (.write (withBit Fld.GLB_RESET_CTL_WARM v)) src s

/-- After at least 1 ms and the release of MOD_RESET_N, the device samples SLOT_ID and enters LOAD (R430). -/
def execWarmResetRelease (slot : Nat) (s : State) : Host.Outcome State Fault Refusal := .next (settle (warmRelease slot s))

/-- A host link reset resets the host-interface registers and fails the host transfers in flight (R432). -/
def execPerstNAssert (s : State) : Host.Outcome State Fault Refusal := .next (settle (perstAssert s))

/-- The host link starts training again (R432). -/
def execPerstNRelease (s : State) : Host.Outcome State Fault Refusal := .next (settle (perstRelease s))

/-- Writing 1 clears the AUX_LOST flag (R423). -/
def execGlbSupplyAuxLostClear (v : Word) (src : Src) (s : State) : Host.Outcome State Fault Refusal :=
  regRow Reg.GLB_SUPPLY (.write (withBit Fld.GLB_SUPPLY_AUX_LOST v)) src s

end Sys2Proof.Machine
end

