-- ==== Sys2Proof/Machine/CmdSideband.lean ====
section
/-!
DEFINITION. The sideband, security and register file commands (spec/18_management_and_security.md, spec/20_address_map_and_errors.md).
-/
namespace Sys2Proof.Machine

/-- A sideband command of the bus itself. -/
def busRow (f : State → State) (s : State) : Host.Outcome State Fault Refusal := .next (f s)

/-- The device takes part in dynamic address assignment with its PID (R481). -/
def execEntdaa (addr : Nat) (s : State) : Host.Outcome State Fault Refusal := busRow (daAssign addr) s

/-- The device drops its dynamic address (R481). -/
def execRstdaa (s : State) : Host.Outcome State Fault Refusal := busRow daReset s

/-- Enables in-band interrupts or hot-join (R482). -/
def execEnec (bits : Nat) (s : State) : Host.Outcome State Fault Refusal := busRow (eventsEnable true bits) s

/-- Disables in-band interrupts or hot-join (R481). -/
def execDisec (bits : Nat) (s : State) : Host.Outcome State Fault Refusal := busRow (eventsEnable false bits) s

/-- Returns the provisioned ID (R480). -/
def execGetpid (s : State) : Host.Outcome State Fault Refusal := busRow (cccAnswer (getPidBytes s)) s

/-- Returns the bus characteristics register (R480). -/
def execGetbcr (s : State) : Host.Outcome State Fault Refusal := busRow (cccAnswer [0x06]) s

/-- Returns the device characteristics register (R480). -/
def execGetdcr (s : State) : Host.Outcome State Fault Refusal := busRow (cccAnswer [0x00]) s

/-- Returns the target status (R480). -/
def execGetstatus (s : State) : Host.Outcome State Fault Refusal := busRow (cccAnswer (getStatusBytes s)) s

/-- Returns the maximum write length (R480). -/
def execGetmwl (s : State) : Host.Outcome State Fault Refusal := busRow (cccAnswer [0, 69]) s

/-- Returns the maximum read length (R480). -/
def execGetmrl (s : State) : Host.Outcome State Fault Refusal := busRow (cccAnswer [0, 64, 1]) s

/-- Raises or re-requests an in-band interrupt carrying the OR of the pending event bits (R482). -/
def execIbiSend (won : Bool) (s : State) : Host.Outcome State Fault Refusal := busRow (ibiSend won) s

/-- A sideband read of a BAR0 register under the state limits (R484). -/
def execRegRead (off : Nat) (s : State) : Host.Outcome State Fault Refusal :=
  .next (settleAll (sizedAccess .sideband off 8 .read s))

/-- A sideband write of a BAR0 register under the state and policy limits (R484). -/
def execRegWrite (off : Nat) (v : Word) (s : State) : Host.Outcome State Fault Refusal :=
  .next (settleAll (sizedAccess .sideband off 8 (.write v) s))

/-- A sideband write into system slot A in BARE that recomputes the tile tag (R486). -/
def execWinWrite (addr : Nat) (data : List Byte) (s : State) : Host.Outcome State Fault Refusal := busRow (winWrite addr data) s

/-- Writes bytes into the sideband mailbox request buffer (R483). -/
def execMboxWrite (addr : Nat) (data : List Byte) (s : State) : Host.Outcome State Fault Refusal := busRow (mboxWrite addr data) s

/-- Submits the sideband mailbox request to the attestation engine, or answers NOT_ALLOWED (R494). -/
def execMboxGo (s : State) : Host.Outcome State Fault Refusal := busRow mboxGo s

/-- Selects response buffer bytes for the following read (R483). -/
def execMboxRead (addr : Nat) (s : State) : Host.Outcome State Fault Refusal := busRow (mboxRead addr) s

/-- A private read returns the data of the last command, or zeros after a bad command (R483). -/
def execSidebandPrivateRead (num : Nat) (s : State) : Host.Outcome State Fault Refusal := busRow (privateRead num) s

/-- A sideband private write with an undefined command byte or an illegal length sets MGT_SB_STATUS.LAST to BAD_CMD and increments MGT_SB_ERRORS (R483). -/
def execSidebandUndefinedCmd (cmd : Nat) (s : State) : Host.Outcome State Fault Refusal := busRow (sbUndefined cmd) s

/-- Assigns the tray number and sets FAB_SELF.VALID, or logs TRAY_CONFLICT (R487). -/
def execMgtTrayWrite (v : Word) (src : Src) (s : State) : Host.Outcome State Fault Refusal := regRow Reg.MGT_TRAY (.write v) src s

/-- Raises the security version counter to the loaded jig's SVN when allowed (R489). -/
def execSecFuseBurnSvn (v : Word) (src : Src) (s : State) : Host.Outcome State Fault Refusal :=
  regRow Reg.SEC_FUSE_CTL (.write (withBit Fld.SEC_FUSE_CTL_BURN_SVN v)) src s

/-- Burns the staged owner hash into the next slot for a first owner or a signed transfer (R490). -/
def execSecFuseBurnOwner (v : Word) (src : Src) (s : State) : Host.Outcome State Fault Refusal :=
  regRow Reg.SEC_FUSE_CTL (.write (withBit Fld.SEC_FUSE_CTL_BURN_OWNER v)) src s

/-- A fuse burn ends with DONE or FUSE_FAIL (R488). -/
def execFuseBurnDone (ok : Bool) (s : State) : Host.Outcome State Fault Refusal := .next (settle (burnDone ok s))

/-- A lower signing tree finishes building, and requests waiting on it can be served (R493). -/
def execLowerTreeBuildDone (s : State) : Host.Outcome State Fault Refusal := .next (treeBuilt s)

/-- The signing bucket gains RATE tokens per second up to BURST (R493). -/
def execSignTokenRefill (num : Nat) (s : State) : Host.Outcome State Fault Refusal := .next (tokenRefill num s)

/-- Consumes ERR records by moving HEAD, writing RECORDS_LOST first when records are pending (R528). -/
def execErrHeadWrite (v : Word) (src : Src) (s : State) : Host.Outcome State Fault Refusal := regRow Reg.ERR_HEAD (.write v) src s

/-- Writing VALID = 1 clears GLB_BAD_FIRST (R523). -/
def execGlbBadFirstClear (v : Word) (src : Src) (s : State) : Host.Outcome State Fault Refusal :=
  regRow Reg.GLB_BAD_FIRST (.write (withBit Fld.GLB_BAD_FIRST_VALID v)) src s

/-- A write to a register with no row of its own, applying the access codes and counting a bad or refused access (R8). -/
def execRegisterWrite (off size : Nat) (v : Word) (src : Src) (s : State) : Host.Outcome State Fault Refusal :=
  .next (settleAll (sizedAccess src off size (.write v) s))

/-- A host BAR0 read that is narrow, unaligned or at an undefined offset, or that a rule refuses, returns 0, increments GLB_BAD_ACCESS and may record GLB_BAD_FIRST (R6). -/
def execRegisterRead (off size : Nat) (src : Src) (s : State) : Host.Outcome State Fault Refusal :=
  .next (settleAll (sizedAccess src off size .read s))

end Sys2Proof.Machine
end

