-- ==== Sys2Proof/Machine/Dispatch.lean ====
section
/-!
DEFINITION. The meaning of every command: one arm per constructor of Instr.
-/
namespace Sys2Proof.Machine

/-- What a command does to everything but the queue. -/
def exec (i : Instr) (s : State) : Host.Outcome State Fault Refusal :=
  match i with
  | .nop b q => Sys2Proof.Machine.execNop b q s
  | .pass b q => Sys2Proof.Machine.execPass b q s
  | .passDispatch b h e => Sys2Proof.Machine.execPassDispatch b h e s
  | .passAccumulate b h => Sys2Proof.Machine.execPassAccumulate b h s
  | .swap b q => Sys2Proof.Machine.execSwap b q s
  | .shave b q => Sys2Proof.Machine.execShave b q s
  | .shaveStart b h e => Sys2Proof.Machine.execShaveStart b h e s
  | .shaveComplete b h => Sys2Proof.Machine.execShaveComplete b h s
  | .sand b q => Sys2Proof.Machine.execSand b q s
  | .sandStart b h e => Sys2Proof.Machine.execSandStart b h e s
  | .sandComplete b h => Sys2Proof.Machine.execSandComplete b h s
  | .loadStile b q => Sys2Proof.Machine.execLoadStile b q s
  | .loadHold b q => Sys2Proof.Machine.execLoadHold b q s
  | .loadUnitBegin b h e => Sys2Proof.Machine.execLoadUnitBegin b h e s
  | .loadComplete b h => Sys2Proof.Machine.execLoadComplete b h s
  | .store b q => Sys2Proof.Machine.execStore b q s
  | .storeStart b h e => Sys2Proof.Machine.execStoreStart b h e s
  | .storeComplete b h => Sys2Proof.Machine.execStoreComplete b h s
  | .moveISet b q => Sys2Proof.Machine.execMoveISet b q s
  | .moveIAdd b q => Sys2Proof.Machine.execMoveIAdd b q s
  | .moveIShl b q => Sys2Proof.Machine.execMoveIShl b q s
  | .moveIGet b q => Sys2Proof.Machine.execMoveIGet b q s
  | .moveTOut b q => Sys2Proof.Machine.execMoveTOut b q s
  | .moveTIn b q => Sys2Proof.Machine.execMoveTIn b q s
  | .moveTComplete b q e => Sys2Proof.Machine.execMoveTComplete b q e s
  | .send b q => Sys2Proof.Machine.execSend b q s
  | .recv b q => Sys2Proof.Machine.execRecv b q s
  | .recvTakeMessage b q => Sys2Proof.Machine.execRecvTakeMessage b q s
  | .recvComplete b q => Sys2Proof.Machine.execRecvComplete b q s
  | .semWait b q => Sys2Proof.Machine.execSemWait b q s
  | .semWaitServed b q => Sys2Proof.Machine.execSemWaitServed b q s
  | .semSignal b q => Sys2Proof.Machine.execSemSignal b q s
  | .sync b q => Sys2Proof.Machine.execSync b q s
  | .syncRelease b q => Sys2Proof.Machine.execSyncRelease b q s
  | .loop b q => Sys2Proof.Machine.execLoop b q s
  | .branchEq b q => Sys2Proof.Machine.execBranchEq b q s
  | .branchNe b q => Sys2Proof.Machine.execBranchNe b q s
  | .branchLt b q => Sys2Proof.Machine.execBranchLt b q s
  | .branchGe b q => Sys2Proof.Machine.execBranchGe b q s
  | .branchLtu b q => Sys2Proof.Machine.execBranchLtu b q s
  | .branchGeu b q => Sys2Proof.Machine.execBranchGeu b q s
  | .branchAl b q => Sys2Proof.Machine.execBranchAl b q s
  | .halt b q => Sys2Proof.Machine.execHalt b q s
  | .trap b q => Sys2Proof.Machine.execTrap b q s
  | .executionPastEnd b q => Sys2Proof.Machine.execExecutionPastEnd b q s
  | .tileRefetchDone b t e => Sys2Proof.Machine.execTileRefetchDone b t e s
  | .benCtlWrite b v src => Sys2Proof.Machine.execBenCtlWrite b v src s
  | .benImemDataWrite b v src => Sys2Proof.Machine.execBenImemDataWrite b v src s
  | .benImemDataRead b src => Sys2Proof.Machine.execBenImemDataRead b src s
  | .benStartGo0 b v src => Sys2Proof.Machine.execBenStartGo0 b v src s
  | .benStartGo1 b v src => Sys2Proof.Machine.execBenStartGo1 b v src s
  | .sequencerStart b q => Sys2Proof.Machine.execSequencerStart b q s
  | .benReset b v src => Sys2Proof.Machine.execBenReset b v src s
  | .benchResetSettle b => Sys2Proof.Machine.execBenchResetSettle b s
  | .benFaultClear b q v src => Sys2Proof.Machine.execBenFaultClear b q v src s
  | .benExcFirstClear b v src => Sys2Proof.Machine.execBenExcFirstClear b v src s
  | .benCheckFirstClear b v src => Sys2Proof.Machine.execBenCheckFirstClear b v src s
  | .benExcCtlWrite b v src => Sys2Proof.Machine.execBenExcCtlWrite b v src s
  | .benFdescDataAccess b a src => Sys2Proof.Machine.execBenFdescDataAccess b a src s
  | .benFloorSysWrite b v src => Sys2Proof.Machine.execBenFloorSysWrite b v src s
  | .glbFloorArm v src => Sys2Proof.Machine.execGlbFloorArm v src s
  | .glbFloorDisarm v src => Sys2Proof.Machine.execGlbFloorDisarm v src s
  | .floorArmCheckDone => Sys2Proof.Machine.execFloorArmCheckDone s
  | .tirObjDataAccess a src => Sys2Proof.Machine.execTirObjDataAccess a src s
  | .tirPoisonFirstClear v src => Sys2Proof.Machine.execTirPoisonFirstClear v src s
  | .tirReqPromote c obj deadline sem signum => Sys2Proof.Machine.execTirReqPromote c obj deadline sem signum s
  | .tirReqEvict c obj => Sys2Proof.Machine.execTirReqEvict c obj s
  | .tirReqFlush c obj => Sys2Proof.Machine.execTirReqFlush c obj s
  | .tirReqUnpin c obj => Sys2Proof.Machine.execTirReqUnpin c obj s
  | .tierTileTransferDone j e => Sys2Proof.Machine.execTierTileTransferDone j e s
  | .promotionComplete o => Sys2Proof.Machine.execPromotionComplete o s
  | .writebackComplete o => Sys2Proof.Machine.execWritebackComplete o s
  | .flushComplete o => Sys2Proof.Machine.execFlushComplete o s
  | .recoveryTileReceive o j x => Sys2Proof.Machine.execRecoveryTileReceive o j x s
  | .recoverySourceTimeout o => Sys2Proof.Machine.execRecoverySourceTimeout o s
  | .rurilScrub rtn corrected bad => Sys2Proof.Machine.execRurilScrub rtn corrected bad s
  | .bpmAlloc h ok soft => Sys2Proof.Machine.execBpmAlloc h ok soft s
  | .bpmShare h buf n newfinal soft => Sys2Proof.Machine.execBpmShare h buf n newfinal soft s
  | .bpmDrop h buf soft => Sys2Proof.Machine.execBpmDrop h buf soft s
  | .bpmFree h buf ok soft => Sys2Proof.Machine.execBpmFree h buf ok soft s
  | .bpmPoolInit v src => Sys2Proof.Machine.execBpmPoolInit v src s
  | .poolInitDone => Sys2Proof.Machine.execPoolInitDone s
  | .bpmStepEnd v src => Sys2Proof.Machine.execBpmStepEnd v src s
  | .stepBoundaryBegin => Sys2Proof.Machine.execStepBoundaryBegin s
  | .parkCopyDone slot ok => Sys2Proof.Machine.execParkCopyDone slot ok s
  | .resumeCopyDone slot pages => Sys2Proof.Machine.execResumeCopyDone slot pages s
  | .newStepStart => Sys2Proof.Machine.execNewStepStart s
  | .bpmSlotReq v src => Sys2Proof.Machine.execBpmSlotReq v src s
  | .bpmSlotDataRead src => Sys2Proof.Machine.execBpmSlotDataRead src s
  | .dovCtlEnWrite v src => Sys2Proof.Machine.execDovCtlEnWrite v src s
  | .dovLayerDataAccess a src => Sys2Proof.Machine.execDovLayerDataAccess a src s
  | .dovSelDataAccess a src => Sys2Proof.Machine.execDovSelDataAccess a src s
  | .dovCtxTokensWrite c v src => Sys2Proof.Machine.execDovCtxTokensWrite c v src s
  | .dovDispDataAccess a src => Sys2Proof.Machine.execDovDispDataAccess a src s
  | .dovMapDataAccess a src => Sys2Proof.Machine.execDovMapDataAccess a src s
  | .dovLocDataAccess a src => Sys2Proof.Machine.execDovLocDataAccess a src s
  | .layerDescriptorStart d => Sys2Proof.Machine.execLayerDescriptorStart d s
  | .scoreTileArrive b q e => Sys2Proof.Machine.execScoreTileArrive b q e s
  | .gaugeTokenStart d t => Sys2Proof.Machine.execGaugeTokenStart d t s
  | .selectionReady d t => Sys2Proof.Machine.execSelectionReady d t s
  | .capacityWalkEnter d t => Sys2Proof.Machine.execCapacityWalkEnter d t s
  | .outboxRead l => Sys2Proof.Machine.execOutboxRead l s
  | .dovetailTileTransferDone j e => Sys2Proof.Machine.execDovetailTileTransferDone j e s
  | .fabPortEnable n v src => Sys2Proof.Machine.execFabPortEnable n v src s
  | .fabPortReset n v src => Sys2Proof.Machine.execFabPortReset n v src s
  | .fabPortRetrain n v src => Sys2Proof.Machine.execFabPortRetrain n v src s
  | .fabLinkCfgWrite n v src => Sys2Proof.Machine.execFabLinkCfgWrite n v src s
  | .linkSignalDetect n half => Sys2Proof.Machine.execLinkSignalDetect n half s
  | .eqDone n invert eyes => Sys2Proof.Machine.execEqDone n invert eyes s
  | .eqTimeout n clean0 clean1 invert eyes => Sys2Proof.Machine.execEqTimeout n clean0 clean1 invert eyes s
  | .identExchange n ident pools => Sys2Proof.Machine.execIdentExchange n ident pools s
  | .identTimeout n => Sys2Proof.Machine.execIdentTimeout n s
  | .alignLock n delay => Sys2Proof.Machine.execAlignLock n delay s
  | .alignTimeout n => Sys2Proof.Machine.execAlignTimeout n s
  | .retrainPatternDetect n => Sys2Proof.Machine.execRetrainPatternDetect n s
  | .retrainLock n delay => Sys2Proof.Machine.execRetrainLock n delay s
  | .retrainTimeout n => Sys2Proof.Machine.execRetrainTimeout n s
  | .downRetryExpire n => Sys2Proof.Machine.execDownRetryExpire n s
  | .fecBlockSend n => Sys2Proof.Machine.execFecBlockSend n s
  | .fecBlockReceive n bytes => Sys2Proof.Machine.execFecBlockReceive n bytes s
  | .replayTimerExpire n => Sys2Proof.Machine.execReplayTimerExpire n s
  | .nakWaitExpire n => Sys2Proof.Machine.execNakWaitExpire n s
  | .fabJobCtlStart v src => Sys2Proof.Machine.execFabJobCtlStart v src s
  | .fabJobCtlTeardown v src => Sys2Proof.Machine.execFabJobCtlTeardown v src s
  | .jobStart n p => Sys2Proof.Machine.execJobStart n p s
  | .teardown n p => Sys2Proof.Machine.execTeardown n p s
  | .startPortsReady => Sys2Proof.Machine.execStartPortsReady s
  | .drainComplete => Sys2Proof.Machine.execDrainComplete s
  | .drainTimeout => Sys2Proof.Machine.execDrainTimeout s
  | .fabRankDataAccess a src => Sys2Proof.Machine.execFabRankDataAccess a src s
  | .fabPlaneDataAccess a src => Sys2Proof.Machine.execFabPlaneDataAccess a src s
  | .fabTreeDataAccess a src => Sys2Proof.Machine.execFabTreeDataAccess a src s
  | .chunk n p => Sys2Proof.Machine.execChunk n p s
  | .empty n p => Sys2Proof.Machine.execEmpty n p s
  | .ack n p => Sys2Proof.Machine.execAck n p s
  | .snack n p => Sys2Proof.Machine.execSnack n p s
  | .xportSync n p => Sys2Proof.Machine.execXportSync n p s
  | .v2CellPacket n p => Sys2Proof.Machine.execV2CellPacket n p s
  | .xportAckTimer r c => Sys2Proof.Machine.execXportAckTimer r c s
  | .rtoExpire r c => Sys2Proof.Machine.execRtoExpire r c s
  | .fabricTileTransferDone j e => Sys2Proof.Machine.execFabricTileTransferDone j e s
  | .fabXdescDataAccess a src => Sys2Proof.Machine.execFabXdescDataAccess a src s
  | .fabTreeFailedClear v src => Sys2Proof.Machine.execFabTreeFailedClear v src s
  | .resend n p => Sys2Proof.Machine.execResend n p s
  | .reattach n p => Sys2Proof.Machine.execReattach n p s
  | .treeFail n p => Sys2Proof.Machine.execTreeFail n p s
  | .treeTimeout t => Sys2Proof.Machine.execTreeTimeout t s
  | .colStart v src => Sys2Proof.Machine.execColStart v src s
  | .collectiveSlotGranted c => Sys2Proof.Machine.execCollectiveSlotGranted c s
  | .slotWaitTimeout c => Sys2Proof.Machine.execSlotWaitTimeout c s
  | .openLimitTimeout g gseq => Sys2Proof.Machine.execOpenLimitTimeout g gseq s
  | .abort n p => Sys2Proof.Machine.execAbort n p s
  | .colGroupDataAccess a src => Sys2Proof.Machine.execColGroupDataAccess a src s
  | .colListDataAccess a src => Sys2Proof.Machine.execColListDataAccess a src s
  | .colDescDataAccess a src => Sys2Proof.Machine.execColDescDataAccess a src s
  | .colGseqDataWrite v src => Sys2Proof.Machine.execColGseqDataWrite v src s
  | .ctxCtlStart c v src => Sys2Proof.Machine.execCtxCtlStart c v src s
  | .ctxCtlTeardown c v src => Sys2Proof.Machine.execCtxCtlTeardown c v src s
  | .teardownSlotRelease c => Sys2Proof.Machine.execTeardownSlotRelease c s
  | .holdTimeout c => Sys2Proof.Machine.execHoldTimeout c s
  | .ctxBenchDataAccess a src => Sys2Proof.Machine.execCtxBenchDataAccess a src s
  | .ctxSemDataWrite v src => Sys2Proof.Machine.execCtxSemDataWrite v src s
  | .detClampCtlWrite v src => Sys2Proof.Machine.execDetClampCtlWrite v src s
  | .clampPacketSend => Sys2Proof.Machine.execClampPacketSend s
  | .clamp n p => Sys2Proof.Machine.execClamp n p s
  | .detClampFirstClear v src => Sys2Proof.Machine.execDetClampFirstClear v src s
  | .detTccFirstClear c v src => Sys2Proof.Machine.execDetTccFirstClear c v src s
  | .detMarkCfgWrite v src => Sys2Proof.Machine.execDetMarkCfgWrite v src s
  | .detMarkCtlArrive v src => Sys2Proof.Machine.execDetMarkCtlArrive v src s
  | .detMarkCtlCancel v src => Sys2Proof.Machine.execDetMarkCtlCancel v src s
  | .arrive n p => Sys2Proof.Machine.execArrive n p s
  | .mark n p => Sys2Proof.Machine.execMark n p s
  | .twinMark n p => Sys2Proof.Machine.execTwinMark n p s
  | .markRelease => Sys2Proof.Machine.execMarkRelease s
  | .markWaitTimeout => Sys2Proof.Machine.execMarkWaitTimeout s
  | .jigLoadComplete readsOk => Sys2Proof.Machine.execJigLoadComplete readsOk s
  | .jigCtlProgram v src => Sys2Proof.Machine.execJigCtlProgram v src s
  | .programComplete ok => Sys2Proof.Machine.execProgramComplete ok s
  | .jigCtlResume v src => Sys2Proof.Machine.execJigCtlResume v src s
  | .jigGlueDryfit v src => Sys2Proof.Machine.execJigGlueDryfit v src s
  | .dryfitComplete => Sys2Proof.Machine.execDryfitComplete s
  | .jigGlueGo v src => Sys2Proof.Machine.execJigGlueGo v src s
  | .glueFetchDone tiles => Sys2Proof.Machine.execGlueFetchDone tiles s
  | .jigGlueCancel v src => Sys2Proof.Machine.execJigGlueCancel v src s
  | .glueStopDone => Sys2Proof.Machine.execGlueStopDone s
  | .glueStopTimeout => Sys2Proof.Machine.execGlueStopTimeout s
  | .glueVoteTimeout => Sys2Proof.Machine.execGlueVoteTimeout s
  | .auxGood mv => Sys2Proof.Machine.execAuxGood mv s
  | .auxLost => Sys2Proof.Machine.execAuxLost s
  | .mainGood mv => Sys2Proof.Machine.execMainGood mv s
  | .mainLost drop => Sys2Proof.Machine.execMainLost drop s
  | .coldResetRelease slot => Sys2Proof.Machine.execColdResetRelease slot s
  | .rurilTrainDone => Sys2Proof.Machine.execRurilTrainDone s
  | .trainComplete => Sys2Proof.Machine.execTrainComplete s
  | .trainTimeout => Sys2Proof.Machine.execTrainTimeout s
  | .glbStateCtlStop v src => Sys2Proof.Machine.execGlbStateCtlStop v src s
  | .refLost => Sys2Proof.Machine.execRefLost s
  | .rootUnlock => Sys2Proof.Machine.execRootUnlock s
  | .clockFault dom => Sys2Proof.Machine.execClockFault dom s
  | .regulatorFault => Sys2Proof.Machine.execRegulatorFault s
  | .lanePllUnlock n => Sys2Proof.Machine.execLanePllUnlock n s
  | .hostPllUnlock => Sys2Proof.Machine.execHostPllUnlock s
  | .modResetNAssert => Sys2Proof.Machine.execModResetNAssert s
  | .glbResetCtlWarm v src => Sys2Proof.Machine.execGlbResetCtlWarm v src s
  | .warmResetRelease slot => Sys2Proof.Machine.execWarmResetRelease slot s
  | .perstNAssert => Sys2Proof.Machine.execPerstNAssert s
  | .perstNRelease => Sys2Proof.Machine.execPerstNRelease s
  | .glbSupplyAuxLostClear v src => Sys2Proof.Machine.execGlbSupplyAuxLostClear v src s
  | .ctxReset c v src => Sys2Proof.Machine.execCtxReset c v src s
  | .ctxResetComplete c => Sys2Proof.Machine.execCtxResetComplete c s
  | .hostLinkTrained rate width => Sys2Proof.Machine.execHostLinkTrained rate width s
  | .hostLinkRetryTimer => Sys2Proof.Machine.execHostLinkRetryTimer s
  | .hostLinkLoss => Sys2Proof.Machine.execHostLinkLoss s
  | .hotReset => Sys2Proof.Machine.execHotReset s
  | .linkDisable => Sys2Proof.Machine.execLinkDisable s
  | .flr => Sys2Proof.Machine.execFlr s
  | .cxlMemRead addr e => Sys2Proof.Machine.execCxlMemRead addr e s
  | .cxlMemWrite addr data be => Sys2Proof.Machine.execCxlMemWrite addr data be s
  | .h2dSnoop => Sys2Proof.Machine.execH2dSnoop s
  | .irTail r v src => Sys2Proof.Machine.execIrTail r v src s
  | .intakeFetchDone r data => Sys2Proof.Machine.execIntakeFetchDone r data s
  | .crHead r v src => Sys2Proof.Machine.execCrHead r v src s
  | .glbHifIrCfgWrite r v src => Sys2Proof.Machine.execGlbHifIrCfgWrite r v src s
  | .glbHifCrCfgWrite r v src => Sys2Proof.Machine.execGlbHifCrCfgWrite r v src s
  | .hostReadTimeout x => Sys2Proof.Machine.execHostReadTimeout x s
  | .msixCoalesceExpire r => Sys2Proof.Machine.execMsixCoalesceExpire r s
  | .doeDiscovery idx => Sys2Proof.Machine.execDoeDiscovery idx s
  | .cdatTableAccess => Sys2Proof.Machine.execCdatTableAccess s
  | .getCert src => Sys2Proof.Machine.execGetCert src s
  | .getReport src payload => Sys2Proof.Machine.execGetReport src payload s
  | .kemStart src payload => Sys2Proof.Machine.execKemStart src payload s
  | .kemFinish src ct => Sys2Proof.Machine.execKemFinish src ct s
  | .kemKeyExpire => Sys2Proof.Machine.execKemKeyExpire s
  | .ideMacFail stream => Sys2Proof.Machine.execIdeMacFail stream s
  | .kilnControlPeriod power demand => Sys2Proof.Machine.execKilnControlPeriod power demand s
  | .avsInterval margins powers => Sys2Proof.Machine.execAvsInterval margins powers s
  | .droopDetect g => Sys2Proof.Machine.execDroopDetect g s
  | .droopHoldEnd => Sys2Proof.Machine.execDroopHoldEnd s
  | .kilnOverpower => Sys2Proof.Machine.execKilnOverpower s
  | .estoreForecastSend => Sys2Proof.Machine.execEstoreForecastSend s
  | .estoreCapFrame bytes => Sys2Proof.Machine.execEstoreCapFrame bytes s
  | .estoreLossTimeout => Sys2Proof.Machine.execEstoreLossTimeout s
  | .valveLoopStep fb => Sys2Proof.Machine.execValveLoopStep fb s
  | .valveFbMismatch fb => Sys2Proof.Machine.execValveFbMismatch fb s
  | .thermalSample inlet outlet jmax => Sys2Proof.Machine.execThermalSample inlet outlet jmax s
  | .junctionTrip => Sys2Proof.Machine.execJunctionTrip s
  | .coolantTrip => Sys2Proof.Machine.execCoolantTrip s
  | .klnWarnClear v src => Sys2Proof.Machine.execKlnWarnClear v src s
  | .klnRegisterWrite off v src => Sys2Proof.Machine.execKlnRegisterWrite off v src s
  | .entdaa addr => Sys2Proof.Machine.execEntdaa addr s
  | .rstdaa => Sys2Proof.Machine.execRstdaa s
  | .enec bits => Sys2Proof.Machine.execEnec bits s
  | .disec bits => Sys2Proof.Machine.execDisec bits s
  | .getpid => Sys2Proof.Machine.execGetpid s
  | .getbcr => Sys2Proof.Machine.execGetbcr s
  | .getdcr => Sys2Proof.Machine.execGetdcr s
  | .getstatus => Sys2Proof.Machine.execGetstatus s
  | .getmwl => Sys2Proof.Machine.execGetmwl s
  | .getmrl => Sys2Proof.Machine.execGetmrl s
  | .ibiSend won => Sys2Proof.Machine.execIbiSend won s
  | .regRead off => Sys2Proof.Machine.execRegRead off s
  | .regWrite off v => Sys2Proof.Machine.execRegWrite off v s
  | .winWrite addr data => Sys2Proof.Machine.execWinWrite addr data s
  | .mboxWrite addr data => Sys2Proof.Machine.execMboxWrite addr data s
  | .mboxGo => Sys2Proof.Machine.execMboxGo s
  | .mboxRead addr => Sys2Proof.Machine.execMboxRead addr s
  | .sidebandPrivateRead num => Sys2Proof.Machine.execSidebandPrivateRead num s
  | .mgtTrayWrite v src => Sys2Proof.Machine.execMgtTrayWrite v src s
  | .secFuseBurnSvn v src => Sys2Proof.Machine.execSecFuseBurnSvn v src s
  | .secFuseBurnOwner v src => Sys2Proof.Machine.execSecFuseBurnOwner v src s
  | .fuseBurnDone ok => Sys2Proof.Machine.execFuseBurnDone ok s
  | .lowerTreeBuildDone => Sys2Proof.Machine.execLowerTreeBuildDone s
  | .signTokenRefill num => Sys2Proof.Machine.execSignTokenRefill num s
  | .errHeadWrite v src => Sys2Proof.Machine.execErrHeadWrite v src s
  | .glbBadFirstClear v src => Sys2Proof.Machine.execGlbBadFirstClear v src s
  | .registerWrite off size v src => Sys2Proof.Machine.execRegisterWrite off size v src s
  | .laneLockLost n l => Sys2Proof.Machine.execLaneLockLost n l s
  | .cbl3v3Overcurrent n => Sys2Proof.Machine.execCbl3v3Overcurrent n s
  | .cbl3v3Retry n => Sys2Proof.Machine.execCbl3v3Retry n s
  | .ctxSemDataRead src => Sys2Proof.Machine.execCtxSemDataRead src s
  | .colGseqDataRead src => Sys2Proof.Machine.execColGseqDataRead src s
  | .registerRead off size src => Sys2Proof.Machine.execRegisterRead off size src s
  | .configSpaceWrite x => Sys2Proof.Machine.execConfigSpaceWrite x s
  | .msixTableWrite idx v => Sys2Proof.Machine.execMsixTableWrite idx v s
  | .sidebandUndefinedCmd cmd => Sys2Proof.Machine.execSidebandUndefinedCmd cmd s

end Sys2Proof.Machine
end

