-- ==== Sys2Proof/Safety.lean ====
section
/-!
DEFINITION. What the statements call safe, canonical, quiet and reachable.
-/
namespace Sys2Proof.Machine

/-- A memory in its one canonical form: addresses strictly rising, and no listed byte equal to 0, which is what an unlisted
byte reads as (R87, R116). -/
def Memory.wf (m : SMap Byte) : Bool := smWf (fun _ => 0) m

/-- Every map of the state that reset leaves empty holds its canonical form: the registers, the tables, bench SRAM, Ruril and
their tags. Equal contents are then equal data. -/
def State.canonical (s : State) : Bool :=
  smWf resetOf s.regs && smWf (fun _ => 0) s.tabs && Memory.wf s.sram && Memory.wf s.ruril &&
    smWf (fun _ => blankTag) s.stags && smWf (fun _ => blankTag) s.rtags

/-- A command is carried out: no fault and no refusal. -/
def Completes (o : Host.Outcome State Fault Refusal) : Prop := ∃ t, o = .next t

/-- Nothing is left over from an earlier command, and no collective is under way. -/
def Quiet (s : State) : Prop := s.work = [] ∧ s.col = ColSt.empty

/-- The state in which an access from a sender acts: over the sideband, the transfer is counted and LAST shows that it was
done (R483, R484). -/
def arrived (src : Src) (s : State) : State :=
  match src with
  | .host => s
  | .sideband => sbLast 0 (bump Reg.MGT_SB_XFERS s)

/-- An access reaches the register at an offset: over the host link it is open and neither the device state nor the IDE policy
shuts a write out (R424, R497); the sideband has its address and the access is one that it may do (R484); and no glue-up
has taken a register that is written (R407). -/
def Reaches (src : Src) (off : Nat) (a : Access) (s : State) : Prop :=
  (match src, a with
   | .host, .read => hostOpen s = true
   | .host, .write _ => hostOpen s = true ∧ hostShut off s = false
   | .sideband, _ => sbAddressed s = true ∧ sbReaches a off (bump Reg.MGT_SB_XFERS s) = true) ∧
  (match a with
   | .read => True
   | .write _ => glueShuts off (arrived src s) = false)

/-- A command of side or sequencer `q` of bench `b` that the units carry out: both exist, the units run (R419), and nothing is
left over from an earlier command. -/
def Acts (b q : Nat) (s : State) : Prop := b < 1176 ∧ q < 2 ∧ runs s = true ∧ s.work = []

/-- The units carry out a command: they run (R419), and nothing is left over from an earlier one. -/
def Working (s : State) : Prop := runs s = true ∧ s.work = []

/-- Port `n`, or the loopback (16), holds packet `p` next of its pool as `a`, and the packet passes the network checks (R264). -/
def Takes (n : Nat) (p : Packet) (a : RxPkt) (s : State) : Prop :=
  n ≤ 16 ∧ Working s ∧ heldPacket n p s = some a ∧ netCheck p (takePacket n a s) = none

/-- Sequencer `q` of bench `b` comes to issue an instruction of kind `k`: the units run, it is RUN and not blocked, and the word
at its address decodes to it (R39, R41, R45, R46); and nothing is left over from an earlier command. -/
def Issues (b q : Nat) (k : Slasal) (s : State) : Prop :=
  b < 1176 ∧ q < 2 ∧ runs s = true ∧ s.work = [] ∧ canIssue b q s = true ∧ (seqOf b q s).pc < 8192 ∧
    slDecode (curWord b q s) = some k

/-- The state in the cycle of the sequencer's next issue slot (R40). -/
def atIssue (b q : Nat) (s : State) : State := advanceTo (seqOf b q s).free s

end Sys2Proof.Machine
end

