-- ==== Sys2Proof/WellFormed.lean ====
section
/-!
DEFINITION. Which commands are well formed: every operand names a unit that the block has, and data has the size that
the spec gives it. The machine itself answers a fault where a command names a unit that does not exist.
-/
namespace Sys2Proof

/-- A bench of the die (R101). -/
def okBench (b : Nat) : Bool := decide (b < 1176)

/-- A sequencer of a bench, or its half (R35). -/
def okSeq (q : Nat) : Bool := decide (q < 2)

/-- A work context (R350). -/
def okCtx (c : Nat) : Bool := decide (c < 16)

/-- A fabric port (R239). -/
def okPort (n : Nat) : Bool := decide (n < 16)

/-- Where a packet arrives: a fabric port, or the device itself as 16. -/
def okLink (n : Nat) : Bool := decide (n ≤ 16)

/-- An entry of the object table (R121). -/
def okObject (o : Nat) : Bool := decide (o < 65536)

/-- A semaphore (R359). -/
def okSem (m : Nat) : Bool := decide (m < 4096)

/-- A tile of a bench (R84). -/
def okBenchTile (t : Nat) : Bool := decide (t < 384)

/-- A Ruril tile: 768 GiB in tiles of 4,096 bytes (R112). -/
def okRuril (t : Nat) : Bool := decide (t < 201326592)

/-- A sequence slot (R155). -/
def okSlot (n : Nat) : Bool := decide (n < 262144)

/-- SLOT_ID[2:0], which reset samples (R430). -/
def okSlotId (n : Nat) : Bool := decide (n < 8)

/-- A ring: an intake or a completion ring of a context (R448, R454). -/
def okRing (r : Nat) : Bool := decide (r < 16)

/-- A tree (R271). -/
def okTree (t : Nat) : Bool := decide (t < 256)

/-- The other end of a transport pair: a rank, a PHYS above 2^16, or a tree above 2^17. -/
def okPeer (r : Nat) : Bool := decide (r < 2 ^ 18)

/-- A holder (R144). -/
def okHolder (h : Nat) : Bool := decide (h < 2 ^ 24)

/-- A number of users (R146). -/
def okUsers (n : Nat) : Bool := decide (n < 256)

/-- A buffer of the pool (R143). -/
def okBuffer (k : Nat) : Bool := decide (k < 2 ^ 28)

/-- A layer descriptor (R169). -/
def okLayer (d : Nat) : Bool := decide (d < 256)

/-- A token of a step (R170). -/
def okToken (t : Nat) : Bool := decide (t < 65536)

/-- An entry of the local table (R230). -/
def okEntry (l : Nat) : Bool := decide (l < 4096)

/-- A half of a port: lanes 0 to 3 or 4 to 7 (R254). -/
def okHalf (x : Nat) : Bool := decide (x < 2)

/-- A lane of a port (R239). -/
def okLane (l : Nat) : Bool := decide (l < 8)

/-- One byte. -/
def okByte (x : Nat) : Bool := decide (x < 256)

/-- A measurement of one byte for each lane of a port. -/
def okLanes (xs : List Nat) : Bool := xs.length == 8 && xs.all okByte

/-- The flits that IDENT advertises for pools 0 to 16 (R243). -/
def okPools (xs : List Nat) : Bool := xs.length == 17

/-- The bytes of a block as the lanes carry it (R239). -/
def okBlock (xs : List Byte) : Bool := xs.length == 800

/-- A clock domain of GLB_CLK_STATUS (R427). -/
def okDomain (d : Nat) : Bool := decide (d < 4)

/-- The address of a line of 64 bytes (R443). -/
def okLine (a : Nat) : Bool := decide (a < 2 ^ 52) && a % 64 == 0

/-- The data of a line and its byte enables (R443). -/
def okLineData (d : List Byte) (be : Nat) : Bool := d.length == 64 && decide (be < 2 ^ 64)

/-- A group (R316). -/
def okGroup (g : Nat) : Bool := decide (g < 256)

/-- A voltage group (R464). -/
def okAvsGroup (g : Nat) : Bool := decide (g < 84)

/-- A margin and a power for each of the 84 voltage groups (R464). -/
def okGroups (xs ys : List Nat) : Bool := xs.length == 84 && ys.length == 84

/-- A valve duty as its register holds it (R475). -/
def okDuty (d : Nat) : Bool := decide (d < 128)

/-- A dynamic address (R481). -/
def okDynAddr (a : Nat) : Bool := decide (a < 128)

/-- An IDE stream: CXL.io or CXL.cachemem (R458). -/
def okStream (k : Nat) : Bool := decide (k < 2)

/-- The rate code and the width of the host link (R439). -/
def okHostLink (r w : Nat) : Bool := decide (r < 8) && decide (w < 32)

/-- An offset of BAR0 (R515). -/
def okOffset (off : Nat) : Bool := decide (off < 2 ^ 26)

/-- The 4-byte ADDR of a sideband transfer (R483). -/
def okSbAddr (a : Nat) : Bool := decide (a < 2 ^ 32)

/-- A command byte that the table does not define (R483). -/
def okUndefined (k : Nat) : Bool := decide (k < 256) && (k == 0 || decide (6 < k))

/-- A word of the MSI-X table: 64 entries of two words (R441). -/
def okMsixWord (i : Nat) : Bool := decide (i < 128)

/-- A report of the error-correcting codes. -/
def okEcc (e : Ecc) : Bool := decide (e.corrected < 2 ^ 32)

/-- A tile with its 4,096 bytes (R88). -/
def okTileData (x : Tile) : Bool := x.payload.length == 4096

/-- A packet: a transport header of four words or none, a CONTROL payload of whole words, and a whole tile where it has one (R263, R274, R289). -/
def okPacket (p : Packet) : Bool := (p.t.length == 4 || p.t.isEmpty) && decide (p.ctl.length ≤ 512) && (match p.tile with | some x => okTileData x | none => true)

/-- Whether a command is well formed. -/
def Instr.wellFormed : Instr → Bool
  | .nop b q => okBench b && okSeq q
  | .pass b q => okBench b && okSeq q
  | .passDispatch b h e => okBench b && okSeq h && okEcc e
  | .passAccumulate b h => okBench b && okSeq h
  | .swap b q => okBench b && okSeq q
  | .shave b q => okBench b && okSeq q
  | .shaveStart b h e => okBench b && okSeq h && okEcc e
  | .shaveComplete b h => okBench b && okSeq h
  | .sand b q => okBench b && okSeq q
  | .sandStart b h e => okBench b && okSeq h && okEcc e
  | .sandComplete b h => okBench b && okSeq h
  | .loadStile b q => okBench b && okSeq q
  | .loadHold b q => okBench b && okSeq q
  | .loadUnitBegin b h e => okBench b && okSeq h && okEcc e
  | .loadComplete b h => okBench b && okSeq h
  | .store b q => okBench b && okSeq q
  | .storeStart b h e => okBench b && okSeq h && okEcc e
  | .storeComplete b h => okBench b && okSeq h
  | .moveISet b q => okBench b && okSeq q
  | .moveIAdd b q => okBench b && okSeq q
  | .moveIShl b q => okBench b && okSeq q
  | .moveIGet b q => okBench b && okSeq q
  | .moveTOut b q => okBench b && okSeq q
  | .moveTIn b q => okBench b && okSeq q
  | .moveTComplete b q e => okBench b && okSeq q && okEcc e
  | .send b q => okBench b && okSeq q
  | .recv b q => okBench b && okSeq q
  | .recvTakeMessage b q => okBench b && okSeq q
  | .recvComplete b q => okBench b && okSeq q
  | .semWait b q => okBench b && okSeq q
  | .semWaitServed b q => okBench b && okSeq q
  | .semSignal b q => okBench b && okSeq q
  | .sync b q => okBench b && okSeq q
  | .syncRelease b q => okBench b && okSeq q
  | .loop b q => okBench b && okSeq q
  | .branchEq b q => okBench b && okSeq q
  | .branchNe b q => okBench b && okSeq q
  | .branchLt b q => okBench b && okSeq q
  | .branchGe b q => okBench b && okSeq q
  | .branchLtu b q => okBench b && okSeq q
  | .branchGeu b q => okBench b && okSeq q
  | .branchAl b q => okBench b && okSeq q
  | .halt b q => okBench b && okSeq q
  | .trap b q => okBench b && okSeq q
  | .executionPastEnd b q => okBench b && okSeq q
  | .tileRefetchDone b t e => okBench b && okBenchTile t && okEcc e
  | .benCtlWrite b _ _ => okBench b
  | .benImemDataWrite b _ _ => okBench b
  | .benImemDataRead b _ => okBench b
  | .benStartGo0 b _ _ => okBench b
  | .benStartGo1 b _ _ => okBench b
  | .sequencerStart b q => okBench b && okSeq q
  | .benReset b _ _ => okBench b
  | .benchResetSettle b => okBench b
  | .benFaultClear b q _ _ => okBench b && okSeq q
  | .benExcFirstClear b _ _ => okBench b
  | .benCheckFirstClear b _ _ => okBench b
  | .benExcCtlWrite b _ _ => okBench b
  | .benFdescDataAccess b _ _ => okBench b
  | .benFloorSysWrite b _ _ => okBench b
  | .glbFloorArm _ _ => true
  | .glbFloorDisarm _ _ => true
  | .floorArmCheckDone => true
  | .tirObjDataAccess _ _ => true
  | .tirPoisonFirstClear _ _ => true
  | .tirReqPromote c obj _ sem _ => okCtx c && okObject obj && okSem sem
  | .tirReqEvict c obj => okCtx c && okObject obj
  | .tirReqFlush c obj => okCtx c && okObject obj
  | .tirReqUnpin c obj => okCtx c && okObject obj
  | .tierTileTransferDone _ e => okEcc e
  | .promotionComplete o => okObject o
  | .writebackComplete o => okObject o
  | .flushComplete o => okObject o
  | .recoveryTileReceive o _ x => okObject o && okTileData x
  | .recoverySourceTimeout o => okObject o
  | .rurilScrub rtn _ _ => okRuril rtn
  | .bpmAlloc h _ _ => okHolder h
  | .bpmShare h buf n newfinal _ => okHolder h && okBuffer buf && okUsers n && okHolder newfinal
  | .bpmDrop h buf _ => okHolder h && okBuffer buf
  | .bpmFree h buf _ _ => okHolder h && okBuffer buf
  | .bpmPoolInit _ _ => true
  | .poolInitDone => true
  | .bpmStepEnd _ _ => true
  | .stepBoundaryBegin => true
  | .parkCopyDone slot _ => okSlot slot
  | .resumeCopyDone slot _ => okSlot slot
  | .newStepStart => true
  | .bpmSlotReq _ _ => true
  | .bpmSlotDataRead _ => true
  | .dovCtlEnWrite _ _ => true
  | .dovLayerDataAccess _ _ => true
  | .dovSelDataAccess _ _ => true
  | .dovCtxTokensWrite c _ _ => okCtx c
  | .dovDispDataAccess _ _ => true
  | .dovMapDataAccess _ _ => true
  | .dovLocDataAccess _ _ => true
  | .layerDescriptorStart d => okLayer d
  | .scoreTileArrive b q e => okBench b && okSeq q && okEcc e
  | .gaugeTokenStart d t => okLayer d && okToken t
  | .selectionReady d t => okLayer d && okToken t
  | .capacityWalkEnter d t => okLayer d && okToken t
  | .outboxRead l => okEntry l
  | .dovetailTileTransferDone _ e => okEcc e
  | .fabPortEnable n _ _ => okPort n
  | .fabPortReset n _ _ => okPort n
  | .fabPortRetrain n _ _ => okPort n
  | .fabLinkCfgWrite n _ _ => okPort n
  | .linkSignalDetect n half => okPort n && okHalf half
  | .eqDone n invert eyes => okPort n && okByte invert && okLanes eyes
  | .eqTimeout n _ _ invert eyes => okPort n && okByte invert && okLanes eyes
  | .identExchange n _ pools => okPort n && okPools pools
  | .identTimeout n => okPort n
  | .alignLock n _ => okPort n
  | .alignTimeout n => okPort n
  | .retrainPatternDetect n => okPort n
  | .retrainLock n _ => okPort n
  | .retrainTimeout n => okPort n
  | .downRetryExpire n => okPort n
  | .fecBlockSend n => okPort n
  | .fecBlockReceive n bytes => okPort n && okBlock bytes
  | .replayTimerExpire n => okPort n
  | .nakWaitExpire n => okPort n
  | .fabJobCtlStart _ _ => true
  | .fabJobCtlTeardown _ _ => true
  | .jobStart n p => okLink n && okPacket p
  | .teardown n p => okLink n && okPacket p
  | .startPortsReady => true
  | .drainComplete => true
  | .drainTimeout => true
  | .fabRankDataAccess _ _ => true
  | .fabPlaneDataAccess _ _ => true
  | .fabTreeDataAccess _ _ => true
  | .chunk n p => okLink n && okPacket p
  | .empty n p => okLink n && okPacket p
  | .ack n p => okLink n && okPacket p
  | .snack n p => okLink n && okPacket p
  | .xportSync n p => okLink n && okPacket p
  | .v2CellPacket n p => okLink n && okPacket p
  | .xportAckTimer r c => okPeer r && okCtx c
  | .rtoExpire r c => okPeer r && okCtx c
  | .fabricTileTransferDone _ e => okEcc e
  | .fabXdescDataAccess _ _ => true
  | .fabTreeFailedClear _ _ => true
  | .resend n p => okLink n && okPacket p
  | .reattach n p => okLink n && okPacket p
  | .treeFail n p => okLink n && okPacket p
  | .treeTimeout t => okTree t
  | .colStart _ _ => true
  | .collectiveSlotGranted c => okCtx c
  | .slotWaitTimeout c => okCtx c
  | .openLimitTimeout g _ => okGroup g
  | .abort n p => okLink n && okPacket p
  | .colGroupDataAccess _ _ => true
  | .colListDataAccess _ _ => true
  | .colDescDataAccess _ _ => true
  | .colGseqDataWrite _ _ => true
  | .ctxCtlStart c _ _ => okCtx c
  | .ctxCtlTeardown c _ _ => okCtx c
  | .teardownSlotRelease c => okCtx c
  | .holdTimeout c => okCtx c
  | .ctxBenchDataAccess _ _ => true
  | .ctxSemDataWrite _ _ => true
  | .detClampCtlWrite _ _ => true
  | .clampPacketSend => true
  | .clamp n p => okLink n && okPacket p
  | .detClampFirstClear _ _ => true
  | .detTccFirstClear c _ _ => okCtx c
  | .detMarkCfgWrite _ _ => true
  | .detMarkCtlArrive _ _ => true
  | .detMarkCtlCancel _ _ => true
  | .arrive n p => okLink n && okPacket p
  | .mark n p => okLink n && okPacket p
  | .twinMark n p => okLink n && okPacket p
  | .markRelease => true
  | .markWaitTimeout => true
  | .jigLoadComplete _ => true
  | .jigCtlProgram _ _ => true
  | .programComplete _ => true
  | .jigCtlResume _ _ => true
  | .jigGlueDryfit _ _ => true
  | .dryfitComplete => true
  | .jigGlueGo _ _ => true
  | .glueFetchDone _ => true
  | .jigGlueCancel _ _ => true
  | .glueStopDone => true
  | .glueStopTimeout => true
  | .glueVoteTimeout => true
  | .auxGood _ => true
  | .auxLost => true
  | .mainGood _ => true
  | .mainLost _ => true
  | .coldResetRelease slot => okSlotId slot
  | .rurilTrainDone => true
  | .trainComplete => true
  | .trainTimeout => true
  | .glbStateCtlStop _ _ => true
  | .refLost => true
  | .rootUnlock => true
  | .clockFault dom => okDomain dom
  | .regulatorFault => true
  | .lanePllUnlock n => okPort n
  | .hostPllUnlock => true
  | .modResetNAssert => true
  | .glbResetCtlWarm _ _ => true
  | .warmResetRelease slot => okSlotId slot
  | .perstNAssert => true
  | .perstNRelease => true
  | .glbSupplyAuxLostClear _ _ => true
  | .ctxReset c _ _ => okCtx c
  | .ctxResetComplete c => okCtx c
  | .hostLinkTrained rate width => okHostLink rate width
  | .hostLinkRetryTimer => true
  | .hostLinkLoss => true
  | .hotReset => true
  | .linkDisable => true
  | .flr => true
  | .cxlMemRead addr e => okLine addr && okEcc e
  | .cxlMemWrite addr data be => okLine addr && okLineData data be
  | .h2dSnoop => true
  | .irTail r _ _ => okRing r
  | .intakeFetchDone r _ => okRing r
  | .crHead r _ _ => okRing r
  | .glbHifIrCfgWrite r _ _ => okRing r
  | .glbHifCrCfgWrite r _ _ => okRing r
  | .hostReadTimeout _ => true
  | .msixCoalesceExpire r => okRing r
  | .doeDiscovery _ => true
  | .cdatTableAccess => true
  | .getCert _ => true
  | .getReport _ _ => true
  | .kemStart _ _ => true
  | .kemFinish _ _ => true
  | .kemKeyExpire => true
  | .ideMacFail stream => okStream stream
  | .kilnControlPeriod _ _ => true
  | .avsInterval margins powers => okGroups margins powers
  | .droopDetect g => okAvsGroup g
  | .droopHoldEnd => true
  | .kilnOverpower => true
  | .estoreForecastSend => true
  | .estoreCapFrame _ => true
  | .estoreLossTimeout => true
  | .valveLoopStep fb => okDuty fb
  | .valveFbMismatch fb => okDuty fb
  | .thermalSample _ _ _ => true
  | .junctionTrip => true
  | .coolantTrip => true
  | .klnWarnClear _ _ => true
  | .klnRegisterWrite off _ _ => okOffset off
  | .entdaa addr => okDynAddr addr
  | .rstdaa => true
  | .enec bits => okByte bits
  | .disec bits => okByte bits
  | .getpid => true
  | .getbcr => true
  | .getdcr => true
  | .getstatus => true
  | .getmwl => true
  | .getmrl => true
  | .ibiSend _ => true
  | .regRead off => okSbAddr off
  | .regWrite off _ => okSbAddr off
  | .winWrite addr _ => okSbAddr addr
  | .mboxWrite addr _ => okSbAddr addr
  | .mboxGo => true
  | .mboxRead addr => okSbAddr addr
  | .sidebandPrivateRead _ => true
  | .mgtTrayWrite _ _ => true
  | .secFuseBurnSvn _ _ => true
  | .secFuseBurnOwner _ _ => true
  | .fuseBurnDone _ => true
  | .lowerTreeBuildDone => true
  | .signTokenRefill _ => true
  | .errHeadWrite _ _ => true
  | .glbBadFirstClear _ _ => true
  | .registerWrite off _ _ _ => okOffset off
  | .laneLockLost n l => okPort n && okLane l
  | .cbl3v3Overcurrent n => okPort n
  | .cbl3v3Retry n => okPort n
  | .ctxSemDataRead _ => true
  | .colGseqDataRead _ => true
  | .registerRead off _ _ => okOffset off
  | .configSpaceWrite _ => true
  | .msixTableWrite idx _ => okMsixWord idx
  | .sidebandUndefinedCmd cmd => okUndefined cmd

end Sys2Proof
end

