-- ==== Sys2Proof/Certificates/Slice0/Obligations.lean ====
section
/-!
DEFINITION. The statements for the provers, each from the rules of spec/ that its docstring and OBLIGATIONS.json name. Where a
statement's state comes from `settle`, what the step leaves for its end is carried out there, and a state with nothing left
is its own (`settle_quiet`).
-/
section Statements
open Sys2Proof Sys2Proof.Machine

/-- NOP, SWAP and the four forms of MOVE.I issue in one slot: the sequencer moves on; SWAP leaves its tag pending, and MOVE.I
writes I[XD] modulo 2^32, I0 excepted: SET the immediate, ADD I[XS] plus it, SHL I[XS] shifted left by its low five bits, GET
the bench's number (0) or the half's number (1). Nothing else changes. A BRANCH goes to its target where its comparison of
two 32-bit values holds, ends the loops that do not hold the target, and takes three cycles; otherwise it moves on. The
second value is I[XB], or the immediate with its sign where IMM is 1. -/
def Obligations.IndexAndBranchInstructionsComplete : Prop :=
  (∀ (b q : Nat) (s : State),
    let w := curWord b q s
    let t := atIssue b q s
    let imm := getF Sl.MOVEI_IMM w
    let src := (seqOf b q s).index (getF Sl.MOVEI_XS w)
    let done := fun (v : Nat) => issued b q false (fun x => (x.setIndex (getF Sl.MOVEI_XD w) v).next) t
    (Issues b q .nop s → exec (.nop b q) s = .next (issued b q false Seq.next t)) ∧
    (Issues b q .swap s → exec (.swap b q) s =
      .next (issued b q false (fun x => { x.next with swaps := x.swaps ++ [⟨getF Sl.PASS_TAG w, x.po - 1⟩] }) t)) ∧
    (Issues b q .moveISet s → exec (.moveISet b q) s = .next (done imm)) ∧
    (Issues b q .moveIAdd s → exec (.moveIAdd b q) s = .next (done (src + imm))) ∧
    (Issues b q .moveIShl s → exec (.moveIShl b q) s = .next (done (src * 2 ^ (imm % 32)))) ∧
    (Issues b q .moveIGet s → imm = 0 → exec (.moveIGet b q) s = .next (done b)) ∧
    (Issues b q .moveIGet s → imm = 1 → exec (.moveIGet b q) s = .next (done (if split b s then q else 0)))) ∧
  (∀ (b q : Nat) (s : State),
    let w := curWord b q s
    let t := atIssue b q s
    let x := (seqOf b q s).index (getF Sl.BRANCH_XA w)
    let y := if getF Sl.BRANCH_IMM w = 1 then wrap32 (signExt 16 (getF Sl.BRANCH_IMMV w))
      else (seqOf b q s).index (getF Sl.BRANCH_XB w)
    let goes := fun (c : Prop) [Decidable c] =>
      if c then issued b q true (fun z => { z.jump (getF Sl.BRANCH_TARGET w) with free := t.cycle + 3, left := 2 }) t
      else issued b q true Seq.next t
    (Issues b q .branchEq s → exec (.branchEq b q) s = .next (goes (x = y))) ∧
    (Issues b q .branchNe s → exec (.branchNe b q) s = .next (goes (x ≠ y))) ∧
    (Issues b q .branchLt s → exec (.branchLt b q) s = .next (goes (signExt 32 x < signExt 32 y))) ∧
    (Issues b q .branchGe s → exec (.branchGe b q) s = .next (goes (signExt 32 y ≤ signExt 32 x))) ∧
    (Issues b q .branchLtu s → exec (.branchLtu b q) s = .next (goes (x < y))) ∧
    (Issues b q .branchGeu s → exec (.branchGeu b q) s = .next (goes (y ≤ x))) ∧
    (Issues b q .branchAl s → exec (.branchAl b q) s = .next (goes True)))

/-- LOOP skips its body where its count is 0 and otherwise opens a loop, of which four may be active. HALT gathers the row's
flags, discards the SWAPs whose PASS has not issued and leaves the sequencer DONE. SYNC discards the same SWAPs where its
mask has ROW, and blocks its sequencer in WAIT on its mask; with MARK the Mark is looked at in the same step. -/
def Obligations.ControlInstructionsComplete : Prop :=
  ∀ (b q : Nat) (s : State),
    let w := curWord b q s
    let t := atIssue b q s
    let sq := seqOf b q s
    let count := if getF Sl.LOOP_CSEL w = 0 then getF Sl.LOOP_COUNT w else sq.index (getF Sl.LOOP_CSEL w)
    let last := getF Sl.LOOP_END w
    let frame : LoopFrame := ⟨sq.pc + 1, last, count - 1, getF Sl.LOOP_XA w, signExt 9 (getF Sl.LOOP_SA w),
      getF Sl.LOOP_XB w, signExt 9 (getF Sl.LOOP_SB w)⟩
    let mask := getF Sl.SYNC_MASK w
    let wait := fun (u : State) => issued b q true (fun x => { x with st := .wait, blocked := .sync mask (x.po - 1) false }) u
    (Issues b q .loop s → sq.pc < last → count = 0 →
      exec (.loop b q) s = .next (issued b q true (fun x => x.advance last) t)) ∧
    (Issues b q .loop s → sq.pc < last → count ≠ 0 → sq.loops.length < 4 →
      exec (.loop b q) s = .next (issued b q true (fun x => { x with loops := frame :: x.loops, pc := x.pc + 1 }) t)) ∧
    (Issues b q .halt s →
      exec (.halt b q) s = .next (issued b q true (fun x => { x.next with st := .done }) (rowGather b q (discardSwaps b q t)))) ∧
    (Issues b q .sync s → bitAt mask 7 = false →
      exec (.sync b q) s = .next (wait (if bitAt mask 0 then discardSwaps b q t else t))) ∧
    (Issues b q .sync s → bitAt mask 7 = true →
      exec (.sync b q) s = .next (settle (defer .markCheck (wait (if bitAt mask 0 then discardSwaps b q t else t)))))

/-- PASS, SHAVE, SAND, LOAD.STILE, LOAD.HOLD and STORE enter the queue of their unit with their effective operands where it
has room and the operands are in range; where the queue is full the sequencer stalls and nothing changes. A SAND or STORE
blocks its sequencer while a class of its bench traps. -/
def Obligations.QueuedInstructionsComplete : Prop :=
  ∀ (b q : Nat) (s : State),
    let w := curWord b q s
    let t := atIssue b q s
    let sq := seqOf b q s
    let sd := sideOf b q s
    let pt := effOp Sl.PASS_TILE Sl.PASS_XT w sq
    let pa := effOp Sl.PASS_ACC Sl.PASS_XA w sq
    let src := effOp Sl.SAND_SRC Sl.SAND_XS w sq
    let src2 := effOp Sl.SAND_SRC2 Sl.SAND_XU w sq
    let dst := effOp Sl.SAND_DST Sl.SAND_XD w sq
    let func := getF Sl.SAND_FUNC w
    let lt := effOp Sl.TILE Sl.XT w sq
    let st := effOp Sl.STORE_TILE Sl.STORE_XT w sq
    let sa := effOp Sl.STORE_ACC Sl.STORE_XA w sq
    let n := getF Sl.STORE_NACC w
    let inTiles := fun (x : Nat) => runInTiles b q x 1 s = true
    let put := fun (f : Seq → Seq) (x : Side) => (.next (issued b q false f (setSide b q x t)) : Host.Outcome State Fault Refusal)
    (Issues b q .pass s → sd.rowQ.length < 16 → inTiles pt → pa < accCount b s → exec (.pass b q) s =
      put Seq.next { sd with rowQ := sd.rowQ ++
        [mkOp .pass b q w pt pa (effOp Sl.PASS_BEAT Sl.PASS_XB w sq) 0 (getF Sl.PASS_ZERO w) t] }) ∧
    (Issues b q .shave s → sd.shaveQ.length < 2 → inTiles pt → pa < accCount b s → exec (.shave b q) s =
      put Seq.next { sd with shaveQ := sd.shaveQ ++
        [mkOp .shave b q w pt pa (effOp Sl.SHAVE_HOFF Sl.PASS_XB w sq) 0 (getF Sl.PASS_ZERO w) t] }) ∧
    (Issues b q .sand s → sd.sandQ.length < 2 → sanderDefined func = true → inTiles src → inTiles dst →
      (1 ≤ func → func ≤ 5 → inTiles src2) → fmtDefined (getF Sl.SAND_DFMT w) = true → exec (.sand b q) s =
        put (afterResult b s) { sd with sandQ := sd.sandQ ++
          [mkOp .sand b q w src dst 1 src2 (sq.index (getF Sl.SAND_XU w)) t] }) ∧
    (Issues b q .loadStile s → sd.loadQ.length < 2 → inTiles lt → exec (.loadStile b q) s =
      put Seq.next { sd with loadQ := sd.loadQ ++ [mkOp .stile b q w lt 0 1 (getF Sl.LOAD_PART w) 0 t] }) ∧
    (Issues b q .loadHold s → sd.loadQ.length < 2 → inTiles lt → exec (.loadHold b q) s =
      put Seq.next { sd with loadQ := sd.loadQ ++ [mkOp .hold b q w lt 0 1 (getF Sl.LOAD_PART w) 0 t] }) ∧
    (Issues b q .store s → sd.storeQ.length < 2 → inTiles st → 1 ≤ n → sa + n ≤ accCount b s →
      fmtDefined (getF Sl.STORE_DFMT w) = true → n * laneCount b s ≤ fmtCapacity (getF Sl.STORE_DFMT w) →
        exec (.store b q) s = put (afterResult b s) { sd with storeQ := sd.storeQ ++ [mkOp .store b q w 0 st n sa 0 t] }) ∧
    (Issues b q .pass s → 16 ≤ sd.rowQ.length → exec (.pass b q) s = .next s) ∧
    (Issues b q .shave s → 2 ≤ sd.shaveQ.length → exec (.shave b q) s = .next s) ∧
    (Issues b q .sand s → 2 ≤ sd.sandQ.length → exec (.sand b q) s = .next s) ∧
    (Issues b q .loadStile s → 2 ≤ sd.loadQ.length → exec (.loadStile b q) s = .next s) ∧
    (Issues b q .loadHold s → 2 ≤ sd.loadQ.length → exec (.loadHold b q) s = .next s) ∧
    (Issues b q .store s → 2 ≤ sd.storeQ.length → exec (.store b q) s = .next s)

/-- MOVE.T stalls while the Floor is not armed. Armed, it takes no slot where it moves no tile or its descriptor has none, and
otherwise joins its side's moves and is given its slots. -/
def Obligations.MoveTilesIssue : Prop :=
  ∀ (b q : Nat) (s : State),
    let w := curWord b q s
    let t := atIssue b q s
    let sq := seqOf b q s
    let x := effOp Sl.TILE Sl.XT w sq
    let n := effOp Sl.MOVET_NT Sl.MOVET_XN w sq
    let fd := getF Sl.MOVET_FDESC w
    let d := fdescOf b fd s
    let ep := getF Fld.FDESC_ENDPOINT d
    let u := issued b q false Seq.next t
    let dov := isDovPort ep = true
    let fits := floorArmed s = true ∧ runInTiles b q x (max n 1) s = true ∧ (¬ dov → getF Fld.FDESC_REMOTE d + n ≤ 384)
    let idleMove := n = 0 ∨ getF Fld.FDESC_SLOTS d = 0
    let queued := fun (k : UKind) => sched b q (setSide b q { sideOf b q u with moveQ := (sideOf b q u).moveQ ++
      [⟨mkOp k b q w x 0 n fd 0 t, 0, 0, 0, [], [], [], 0, 0⟩] } u)
    (Issues b q .moveTOut s → floorArmed s = false → exec (.moveTOut b q) s = .next s) ∧
    (Issues b q .moveTIn s → floorArmed s = false → exec (.moveTIn b q) s = .next s) ∧
    (Issues b q .moveTOut s → fits → idleMove → exec (.moveTOut b q) s = .next u) ∧
    (Issues b q .moveTIn s → fits → ¬ dov → idleMove → exec (.moveTIn b q) s = .next u) ∧
    (Issues b q .moveTOut s → fits → ¬ idleMove → exec (.moveTOut b q) s = .next (queued .moveOut)) ∧
    (Issues b q .moveTIn s → fits → ¬ dov → ¬ idleMove → exec (.moveTIn b q) s = .next (queued .moveIn))

/-- RECV blocks its sequencer in WAIT with its descriptor, landing tile, limit and result register. SEND joins its side's
sends and begins: with tiles, its job stands with the descriptor's destination, class and channel. -/
def Obligations.MessagesIssue : Prop :=
  ∀ (b q : Nat) (s : State),
    let w := curWord b q s
    let t := atIssue b q s
    let sq := seqOf b q s
    let x := effOp Sl.TILE Sl.XT w sq
    let n := effOp Sl.SEND_NT Sl.SEND_XN w sq
    let d := getF Sl.SEND_DESC w
    let v := issued b q false Seq.next t
    let u := sendBegin b q sq.po sq.pc d x n (setSide b q { sideOf b q v with sends := (sideOf b q v).sends ++
      [⟨mkOp .send b q w x 0 n d 0 t, 0, 0, 0, [], [], [], 0, 0⟩] } v)
    (Issues b q .recv s → runInTiles b q x 1 s = true → fabricRefused b q d 0 false s = false →
      exec (.recv b q) s = .next (issued b q true (fun z => { z with
        st := .wait, blocked := .recv ⟨d, x, getF Sl.SEND_NT w, getF Sl.SEND_XN w, z.po - 1, z.pc, false, 0, 0⟩ }) t)) ∧
    (Issues b q .send s → runInTiles b q x (max n 1) s = true → fabricRefused b q d n true s = false →
      exec (.send b q) s = .next (settle u) ∧
      (n ≠ 0 → ∃ base, u.xport.jobs = s.xport.jobs ++ [⟨b, q, sq.po, sq.pc, xdF d Fld.XDESC0_CTX s, xdKind d s, xdPeer d s,
        xdKind d s == 2 || xdF d Fld.XDESC0_ORDERED s == 1, xdChan d s, x, n, base, 0, []⟩]))

/-- SEM.WAIT blocks its sequencer in WAIT on its semaphore and count; SEM.SIGNAL moves on and has its effect in the next cycle:
VALUE grows by NUM and stays at 65,535, or the lock is released with VALUE 1 and HELD 0. -/
def Obligations.SemaphoreInstructionsComplete : Prop :=
  ∀ (b q : Nat) (s : State),
    let w := curWord b q s
    let t := atIssue b q s
    let n := semNum b q w s
    let num := getF Sl.SEM_NUM w
    let u := issued b q true (fun x => { x with st := .wait, blocked := .semWait n num t.cycle }) t
    let v := advanceTo (t.cycle + 1) (issued b q true Seq.next t)
    (Issues b q .semWait s → semCause b q w true s = none → semLock n s = false → exec (.semWait b q) s = .next u) ∧
    (∀ c, Issues b q .semWait s → semCause b q w true s = none → semLock n s = true → ctxOf b q s = some c →
      exec (.semWait b q) s = .next (beginDeferral c n u)) ∧
    (∀ c, Issues b q .semSignal s → semCause b q w false s = none → semLock n s = false → ctxOf b q s = some c →
      exec (.semSignal b q) s = .next (settle (semAdd n num c v)) ∧
      semValue n (semAdd n num c v) = min (semValue n s + num) 65535) ∧
    (Issues b q .semSignal s → semCause b q w false s = none → semLock n s = true →
      exec (.semSignal b q) s = .next (settle (lockRelease n v)) ∧ semValue n (lockRelease n v) = 1 ∧
      getF Fld.SEM_HELD (semEntry n (lockRelease n v)) = 0)

/-- TRAP stops its sequencer in FAULT with the instruction's address, cause TRAP and its CODE in the fault register; running
past address 8191 does the same with cause BAD_TARGET. The register holds VALID, CODE, PC and CAUSE. -/
def Obligations.TrapsStopTheSequencer : Prop :=
  ∀ (b q : Nat) (s : State),
    let t := atIssue b q s
    let sq := seqOf b q s
    let stopped := fun (cause code pc : Nat) (u : State) => (seqOf b q u).st = .fault ∧ (seqOf b q u).blocked = .no ∧
      rd (faultReg b q) u = setF Fld.BEN_FAULT0_CAUSE (setF Fld.BEN_FAULT0_PC (setF Fld.BEN_FAULT0_CODE (w64 (2 ^ 63)) code) pc)
        cause
    (Issues b q .trap s →
      let u := benchFault b q 9 (getF Sl.TRAP_CODE (curWord b q s)) sq.pc t
      exec (.trap b q) s = .next (settle u) ∧ stopped 9 (getF Sl.TRAP_CODE (curWord b q s)) sq.pc u) ∧
    (Acts b q s → canIssue b q s = true → 8192 ≤ sq.pc →
      let u := benchFault b q 6 0 8191 t
      exec (.executionPastEnd b q) s = .next (settle u) ∧ stopped 6 0 8191 u)

/-- An instruction that names a tile outside its side's range does not issue: its sequencer stops in FAULT with cause
BAD_TILE. -/
def Obligations.TileOutsideTheHalfFaults : Prop :=
  ∀ (b q : Nat) (s : State),
    let w := curWord b q s
    let sq := seqOf b q s
    let sd := sideOf b q s
    let u := benchFault b q 2 0 sq.pc (atIssue b q s)
    let outside := fun (x : Nat) => runInTiles b q x 1 s = false
    let func := getF Sl.SAND_FUNC w
    let stops := fun (i : Instr) => exec i s = .next (settle u) ∧ (seqOf b q u).st = .fault ∧
      getF Fld.BEN_FAULT0_CAUSE (rd (faultReg b q) u) = 2
    (Issues b q .pass s → sd.rowQ.length < 16 → outside (effOp Sl.PASS_TILE Sl.PASS_XT w sq) → stops (.pass b q)) ∧
    (Issues b q .shave s → sd.shaveQ.length < 2 → outside (effOp Sl.PASS_TILE Sl.PASS_XT w sq) → stops (.shave b q)) ∧
    (Issues b q .sand s → sd.sandQ.length < 2 → sanderDefined func = true →
      outside (effOp Sl.SAND_SRC Sl.SAND_XS w sq) ∨ outside (effOp Sl.SAND_DST Sl.SAND_XD w sq) ∨
        (1 ≤ func ∧ func ≤ 5 ∧ outside (effOp Sl.SAND_SRC2 Sl.SAND_XU w sq)) → stops (.sand b q)) ∧
    (Issues b q .loadStile s → sd.loadQ.length < 2 → outside (effOp Sl.TILE Sl.XT w sq) → stops (.loadStile b q)) ∧
    (Issues b q .loadHold s → sd.loadQ.length < 2 → outside (effOp Sl.TILE Sl.XT w sq) → stops (.loadHold b q)) ∧
    (Issues b q .store s → sd.storeQ.length < 2 → outside (effOp Sl.STORE_TILE Sl.STORE_XT w sq) → stops (.store b q)) ∧
    (Issues b q .moveTOut s → floorArmed s = true → outside (effOp Sl.TILE Sl.XT w sq) → stops (.moveTOut b q)) ∧
    (Issues b q .moveTIn s → floorArmed s = true → outside (effOp Sl.TILE Sl.XT w sq) → stops (.moveTIn b q)) ∧
    (Issues b q .send s → outside (effOp Sl.TILE Sl.XT w sq) → stops (.send b q)) ∧
    (Issues b q .recv s → outside (effOp Sl.TILE Sl.XT w sq) → stops (.recv b q))

/-- An accepted start takes effect once the units of its side are empty: at its frame start, or the next one where that has
passed. The sequencer runs at its address with no index value, loop, SWAP or wait, and its fault register is cleared. A SYNC
ends once the units of its mask are done: at a frame start where its mask has FABRIC or MARK, gathering the row's flags where
it has ROW. A blocked SEM.WAIT is served at a frame start where VALUE has reached its count and no earlier sequencer waits:
the count is taken, or the lock is held by its context. Either sequencer runs on past its instruction. A RECV takes the
earliest message of its descriptor that fits: the number of its chunks goes to I[XR] and the message is its own. Once every
chunk has landed, or the inbox of its entry is whole, it ends at a frame start and its sequencer runs on; for an inbox I[XR]
takes the rows and, in bit 31, whether a promotion was asked for. -/
def Obligations.SequencerStartsAndWaitsComplete : Prop :=
  (∀ (b q pc c : Nat) (s : State), Acts b q s → (seqOf b q s).startReq = some (pc, c) → (sideOf b q s).quiet = true →
    inReset b s = false → glueHeld b q s = false →
    ∃ t, exec (.sequencerStart b q) s = .next t ∧ t.cycle = max s.cycle (if s.cycle ≤ c then c else frameFrom s.cycle) ∧
      (seqOf b q t).st = .run ∧ (seqOf b q t).pc = pc ∧ (seqOf b q t).idx = [] ∧ (seqOf b q t).loops = [] ∧
      (seqOf b q t).blocked = .no ∧ (seqOf b q t).swaps = [] ∧ (seqOf b q t).startReq = none ∧ rd (faultReg b q) t = 0 ∧
      (∀ x p, (x ≠ b ∨ (p = 0 ↔ q ≠ 0)) → seqOf x p t = seqOf x p s) ∧ (∀ x p, sideOf x p t = sideOf x p s) ∧
      t.tabs = s.tabs ∧ t.sram = s.sram ∧ t.stags = s.stags ∧ t.ruril = s.ruril) ∧
  (∀ (b q : Nat) (s : State),
    (∀ mask po marked, Acts b q s → (seqOf b q s).blocked = .sync mask po marked → syncDone b q mask marked s = true →
      ((bitAt mask 6 || bitAt mask 7) && glueHeld b q s) = false →
      let u := if bitAt mask 6 || bitAt mask 7 then advanceTo (frameFrom s.cycle) s else s
      let v := if bitAt mask 0 then rowGather b q u else u
      exec (.syncRelease b q) s =
        .next (setSeq b q { seqOf b q v with st := .run, blocked := .no, free := v.cycle + 1, left := 2 }.next v)) ∧
    (∀ n num since c, Acts b q s → (seqOf b q s).blocked = .semWait n num since → num ≤ semValue n s →
      earlierWaiter b q n s = false → glueHeld b q s = false → ctxOf b q s = some c → c < 16 →
      ∃ t, exec (.semWaitServed b q) s = .next t ∧ t.cycle = max s.cycle (frameFrom (max s.cycle (since + 1))) ∧
        (seqOf b q t).st = .run ∧ (seqOf b q t).blocked = .no ∧
        (semLock n s = false → semValue n t = semValue n s - num) ∧
        (semLock n s = true → semValue n t = 0 ∧ getF Fld.SEM_HELD (semEntry n t) = 1 ∧ getF Fld.SEM_HOLDER (semEntry n t) = c) ∧
        (∀ k, k ≠ Tab.SEM n → tb k t = tb k s) ∧ (∀ x p, sideOf x p t = sideOf x p s) ∧ t.sram = s.sram ∧ t.ruril = s.ruril)) ∧
  (∀ (b q : Nat) (r : RecvOp) (s : State), Acts b q s → (seqOf b q s).blocked = .recv r →
    (∀ m, r.taken = false → xdKind r.desc s ≠ 1 → msgToTake r s = some m → m.nchunk ≤ r.maxt →
      runInTiles b q r.tile (max m.nchunk 1) s = true → r.xr ≠ 0 →
      ∃ t, exec (.recvTakeMessage b q) s = .next t ∧ (seqOf b q t).blocked = .recv { r with taken := true, nchunk := m.nchunk } ∧
        (seqOf b q t).index r.xr = m.nchunk % 2 ^ 32 ∧ t.sram = s.sram ∧ t.tabs = s.tabs) ∧
    (xdKind r.desc s ≠ 1 → recvWhole r = true → glueHeld b q s = false →
      ∃ t, exec (.recvComplete b q) s = .next t ∧ t.cycle = max s.cycle (frameFrom s.cycle) ∧ (seqOf b q t).st = .run ∧
        (seqOf b q t).blocked = .no ∧ t.sram = s.sram ∧ t.tabs = s.tabs) ∧
    (∀ x e, xdKind r.desc s = 1 → entNow (xdLocal r.desc s) s = some (x, e) → x.final = true → e.left = some 0 →
      glueHeld b q s = false → e.rows.length ≤ r.maxt →
      ∃ t, exec (.recvComplete b q) s = .next t ∧ t.cycle = max s.cycle (frameFrom s.cycle) ∧ (seqOf b q t).st = .run ∧
        (seqOf b q t).blocked = .no ∧
        seqOf b q t = (({ seqOf b q s with
          st := .run, blocked := .no, free := t.cycle + 1, left := 2 } : Seq).setIndex r.xr
            (e.rows.length + b2n e.promoted * 2 ^ 31)).next))

/-- The row dispatches the PASS at the head of its queue where its rail tile passes its check: the pass captures the stile
that is active after the flip it triggers, takes its rail values and enters the pipeline with its AC cycle, and
BEN_PASS_COUNT counts it. At the AC stage of the oldest pass each lane of its side adds the dot product of its stile and the
rail into the named accumulator, rounding once, and the lanes' flags are raised. -/
def Obligations.PassesRun : Prop :=
  (∀ (b h : Nat) (e : Ecc) (op : UOp) (rest : List UOp) (s : State),
    let fmt := fmtOf b op.tile s
    let stile := activeStile b h (if (flipOf b h op s).isSome then flipBanks b h s else s)
    let depth := if stile.any (·.width == 4) then 16 else 8
    let c := max s.cycle (freeAt b h (·.rowFree) s)
    let n := depth / lanesRate (stile.foldl (fun w l => max w l.width) (rowWidth fmt))
    let rail := ((tileVals fmt (benchTile b op.tile s) []).drop (op.num * 8)).take depth
    Acts b h s → passReady b h s = true → (sideOf b h s).rowQ = op :: rest →
    rowHeld b h s = [] → e.bad.contains op.tile = false → checkOk b op.tile s = true → fmtDefined fmt = true →
    isCb fmt = false → op.num + depth / 8 ≤ elemsIn b op.tile s / 8 →
    ∃ t, exec (.passDispatch b h e) s = .next t ∧ t.cycle = c ∧ (sideOf b h t).rowQ = rest ∧
      (sideOf b h t).flights = (sideOf b h s).flights ++
        [⟨op, c + 4 + n, rail, stile, none, (rd (Reg.BEN_PASS_COUNT b) s).toNat⟩] ∧
      (seqOf b h t).swaps = (match flipOf b h op s with
        | some x => (seqOf b h s).swaps.filter (· != x)
        | none => (seqOf b h s).swaps) ∧
      rd (Reg.BEN_PASS_COUNT b) t = rd (Reg.BEN_PASS_COUNT b) s + 1 ∧ t.tabs = s.tabs ∧ t.sram = s.sram ∧ t.stags = s.stags) ∧
  (∀ (b h : Nat) (f : Flight) (rest : List Flight) (s : State),
    let u := catchUp b h f.acAt (advanceTo f.acAt s)
    let key := accKey b h f.op.dst u
    let row := (benchOf b u).accRow key
    let mine := (row.drop (laneBase b h u)).take f.stile.length
    let out := (mine.zip f.stile).map (fun p => addLane (f.op.scalar == 1) p.1 (f.rail.zip p.2.vals))
    Acts b h s → (sideOf b h s).flights = f :: rest → f.held = none →
    ∃ t, exec (.passAccumulate b h) s = .next t ∧ (benchOf b t).accRow key = putAt row (laneBase b h u) (out.map (·.1)) ∧
      (∀ k, k ≠ key → (benchOf b t).accRow k = (benchOf b u).accRow k) ∧
      (sideOf b h t).rowFlags = (sideOf b h u).rowFlags ||| orAll (out.map (·.2)) ∧ (sideOf b h t).flights = rest ∧
      (∀ k, k ≠ Reg.BEN_EXC_FIRST b → rd k t = rd k u) ∧ t.tabs = s.tabs ∧ t.sram = s.sram)

/-- The Shave path begins the SHAVE at the head of its queue where its weight tile passes its check and the held elements
suffice: it holds the weights and the held vector's elements, and its last add lands three cycles after its last read. The
SHAVE at the front of the path completes with its flags gathered. The load unit begins the LOAD at the head of its queue
where its source tiles pass their checks, and holds the elements for as long as R18 says. When it completes, a LOAD.STILE has
written the shadow banks and a LOAD.HOLD the held vector. -/
def Obligations.ShavesAndLoadsRun : Prop :=
  (∀ (b h : Nat) (s : State), Acts b h s →
    (∀ (e : Ecc) (op : UOp) (rest : List UOp),
      let fmt := fmtOf b op.tile s
      let n := elemsIn b op.tile s
      let lanes := laneCount b s
      let c := max s.cycle (freeAt b h (·.shaveFree) s)
      let rate := sideRate b (shaveRate (max (rowWidth fmt) (heldWidthOf b h s))) s
      let occ := (n + rate - 1) / rate
      shaveReady b h s = true → (sideOf b h s).shaveQ = op :: rest → e.bad.contains op.tile = false →
      checkOk b op.tile s = true → fmtDefined fmt = true → isCb fmt = false →
      op.num + (n - 1) / lanes < heldCap b (heldWidthOf b h s) s →
      ∃ t, exec (.shaveStart b h e) s = .next t ∧ t.cycle = c ∧ (sideOf b h t).shaveQ = rest ∧
        (sideOf b h t).shaveFree = c + occ ∧
        (sideOf b h t).shaveRuns = (sideOf b h s).shaveRuns ++ [⟨op, c, c + occ - 1 + 3, rate,
          fitVals n (tileVals fmt (benchTile b op.tile s) []), (upto ((n + lanes - 1) / lanes)).map (fun k => heldAt b h (op.num + k) s),
          [], 0, 0⟩] ∧
        rd (Reg.BEN_SHAVE_BUSY b) t = rd (Reg.BEN_SHAVE_BUSY b) s + w64 occ ∧ t.tabs = s.tabs ∧ t.sram = s.sram) ∧
    (∀ (r : Run) (rest : List Run), (sideOf b h s).shaveRuns = r :: rest →
      let v := shaveUpto b h (r.due + 1) r (advanceTo r.due s)
      ∃ t, exec (.shaveComplete b h) s = .next t ∧ t.cycle = max s.cycle r.due ∧ (sideOf b h t).shaveRuns = rest ∧
        (benchOf b t).accs = (benchOf b v.2).accs ∧
        (∀ c, ctxOf b h s = some c → c < 16 → ∀ k, k < 5 →
          rd ([Reg.CTX_EXC_INVALID c, Reg.CTX_EXC_DIVZERO c, Reg.CTX_EXC_OVERFLOW c, Reg.CTX_EXC_UNDERFLOW c,
              Reg.CTX_EXC_INEXACT c].getD k 0) t =
            rd ([Reg.CTX_EXC_INVALID c, Reg.CTX_EXC_DIVZERO c, Reg.CTX_EXC_OVERFLOW c, Reg.CTX_EXC_UNDERFLOW c,
              Reg.CTX_EXC_INEXACT c].getD k 0) s + (if bitAt v.1.flags k then 1 else 0)) ∧
        t.tabs = s.tabs ∧ t.sram = s.sram)) ∧
  (∀ (b h : Nat) (s : State), Acts b h s →
    (∀ (e : Ecc) (op : UOp) (rest : List UOp) (v : List FVal) (x : Nat) (w : State),
      let c := max s.cycle (freeAt b h (·.loadFree) s)
      let u := eccCount b e (serve b h uLoad (advanceTo (freeAt b h (·.loadFree) s) s))
      let stile := op.kind == .stile
      let fmt := fmtOf b op.tile u
      let width := if stile then rowWidth fmt else heldWidth fmt
      let per := elemsIn b op.tile u
      let sp := loadSpan b op u
      let due := c + ((if stile then stileCycles width else 8) + x)
      loadReady b h s = true → (sideOf b h s).loadQ = op :: rest → fmtDefined fmt = true →
      (stile && shared b s && width == 32) = false → per ≠ 0 →
      (∀ k ∈ loadTiles b op u, runInTiles b h k 1 s = true) →
      readRun b h (if stile then 1 else 2) (if stile then convStile else convHeld) fmt per e (loadTiles b op u) u =
        (.vals v x, w) →
      ∃ t, exec (.loadUnitBegin b h e) s = .next (settle t) ∧ (sideOf b h t).loadQ = rest ∧ (sideOf b h t).loadFree = due ∧
        (sideOf b h t).loadRun = some ⟨op, c, due, width, fitVals sp.2 (v.drop (sp.1 % per)), [], [], 0, 0⟩) ∧
    (∀ (r : Run), (sideOf b h s).loadRun = some r →
      let u := advanceTo r.due s
      let v := if r.op.kind = .stile then writeShadow b h r.fmt r.vals u else writeHeldVec b h r.fmt r.vals u
      exec (.loadComplete b h) s = .next (setSide b h { sideOf b h v with loadRun := none } v)))

/-- The Sander unit begins the SAND at the head of its queue where its sources pass their checks and fit: it holds their
values and completes twelve cycles after its last element. When it completes and nothing traps, its DST tile holds the
encoded results under a fresh checksum, with the format, flags and origin of R93. The store unit begins the STORE at the head
of its queue, one accumulator a cycle. When it completes and nothing traps, its tile holds the encoded accumulators under a
fresh checksum, with the format, flags and origin of R93. -/
def Obligations.SandsAndStoresRun : Prop :=
  (∀ (b h : Nat) (s : State), Acts b h s →
    (∀ (e : Ecc) (op : UOp) (rest : List UOp) (v v2 bk : List FVal) (x y z : Nat) (s2 s3 s4 : State) (book : CbRes),
      let c := max s.cycle (freeAt b h (·.sandFree) s)
      let u := eccCount b e (serve b h uSand (advanceTo (freeAt b h (·.sandFree) s) s))
      let n := elemsIn b op.tile u
      let rate := sideRate b (if sandFunc op ≤ 0x14 then 32 else 16) s
      let occ := (n + rate - 1) / rate
      let st := c + x + y + z
      sandReady b h s = true → (sideOf b h s).sandQ = op :: rest →
      readTile b h 4 convSand op.tile e u = (.vals v x, s2) → n ≤ fmtCapacity (sandDfmt op) →
      (sandBinary op = true → fmtDefined (fmtOf b op.aux s2) = true ∧ elemsIn b op.aux s2 ≠ 0 ∧
        ∀ k ∈ src2Tiles b op s2, runInTiles b h k 1 s2 = true) →
      readRun b h 4 convSand (fmtOf b op.aux s2) (elemsIn b op.aux s2) e (src2Tiles b op s2) s2 = (.vals v2 y, s3) →
      bookForEncode b h 6 op.dst (sandDfmt op) e s3 = (book, s4) →
      (book = .none ∧ bk = [] ∧ z = 0) ∨ book = .book bk z →
      ∃ t, exec (.sandStart b h e) s = .next (settle t) ∧ (sideOf b h t).sandQ = rest ∧ (sideOf b h t).sandFree = st + occ ∧
        (sideOf b h t).sandRuns = (sideOf b h s).sandRuns ++
           [⟨op, st, st + occ - 1 + 12, fmtOf b op.tile u, fitVals n v, v2.take n, bk, 0, 0⟩]) ∧
    (∀ (r : Run) (rest : List Run),
      let res := sandResults r
      let code := Config.freeCode s.fresh % 255
      let d := sandDfmt r.op
      let enc := encodeTile d (if d = fmtCB16 then code % 16 else code) r.book (res.map (·.1))
      let own := orAll (res.map (·.2))
      let fl := own ||| enc.flags ||| (if enc.flushed > 0 then flFlush else 0) ||| (if enc.lost > 0 then flEscLost else 0)
      (sideOf b h s).sandRuns = r :: rest → writeHeld b h r.op s = false → trapMask b s &&& (own ||| enc.flags) = 0 →
      ∃ t, exec (.sandComplete b h) s = .next (settle t) ∧ (sideOf b h t).sandRuns = rest ∧ t.fresh = s.fresh + 1 ∧
        (benchTile b r.op.dst t).payload = subBytes enc.payload 0 4096 ∧
        benchTag b r.op.dst t = mkTag (crc32c enc.payload) d fl enc.side 0 (tagF Fld.TAG_ORIGIN (benchTag b r.op.dst s)))) ∧
  (∀ (b h : Nat) (s : State), Acts b h s →
    (∀ (e : Ecc) (op : UOp) (rest : List UOp),
      let c := max s.cycle (freeAt b h (·.storeFree) s)
      storeReady b h s = true → (sideOf b h s).storeQ = op :: rest → isCb (storeDfmt op) = false →
      ∃ t, exec (.storeStart b h e) s = .next t ∧ t.cycle = c ∧ (sideOf b h t).storeQ = rest ∧
        (sideOf b h t).storeFree = c + op.num ∧
        (sideOf b h t).storeRuns = (sideOf b h s).storeRuns ++ [⟨op, c, c + op.num - 1 + 8, storeDfmt op, [], [], [], 0, 0⟩] ∧
        t.tabs = s.tabs ∧ t.sram = s.sram) ∧
    (∀ (e : Ecc) (op : UOp) (rest : List UOp) (bk : List FVal) (x : Nat) (w : State),
      let u := eccCount b e (serve b h uStore (advanceTo (freeAt b h (·.storeFree) s) s))
      let st := max s.cycle (freeAt b h (·.storeFree) s) + x
      storeReady b h s = true → (sideOf b h s).storeQ = op :: rest →
      bookForEncode b h 5 op.dst (storeDfmt op) e u = (.book bk x, w) →
      ∃ t, exec (.storeStart b h e) s = .next (settle t) ∧ (sideOf b h t).storeQ = rest ∧
        (sideOf b h t).storeFree = st + op.num ∧
        (sideOf b h t).storeRuns = (sideOf b h s).storeRuns ++
           [⟨op, st, st + op.num - 1 + 8, storeDfmt op, [], [], bk, 0, 0⟩]) ∧
    (∀ (r : Run) (rest : List Run),
      let v := storeUpto b h r.due r (advanceTo r.due s)
      let code := Config.freeCode s.fresh % 255
      let enc := encodeTile v.1.fmt (if v.1.fmt = fmtCB16 then code % 16 else code) v.1.book v.1.vals
      let fl := v.1.flags ||| enc.flags ||| (if enc.flushed > 0 then flFlush else 0) ||| (if enc.lost > 0 then flEscLost else 0)
      (sideOf b h s).storeRuns = r :: rest → writeHeld b h r.op s = false → trapMask b s &&& (v.1.flags ||| enc.flags) = 0 →
      ∃ t, exec (.storeComplete b h) s = .next (settle t) ∧ (sideOf b h t).storeRuns = rest ∧ t.fresh = s.fresh + 1 ∧
        (benchTile b r.op.dst t).payload = subBytes enc.payload 0 4096 ∧
        benchTag b r.op.dst t = mkTag (crc32c enc.payload) v.1.fmt fl enc.side 0 (tagF Fld.TAG_ORIGIN (benchTag b r.op.dst s))))

/-- A MOVE.T whose tiles land completes and leaves its side's moves. A re-fetched tile is rewritten from Ruril, converted where
its object has a conversion, counts in TIR_TILES_IN, and the held pass goes on. -/
def Obligations.TilesLand : Prop :=
  ∀ (b q : Nat) (s : State), Acts b q s →
    (∀ (e : Ecc) (r : Run) (u : State), moveReady b q s = some r →
      (let v := eccCount (movePlaces b r.op r.prog (advanceTo r.due s)).1.1 e (advanceTo r.due s)
       (r.prog = r.op.num ∧ u = v) ∨ (r.prog ≠ r.op.num ∧ moveTiles b q r.op e (r.op.num - r.prog) r.prog v = (.landed, u))) →
      ∃ t, exec (.moveTComplete b q e) s = .next (settle t) ∧ (∀ x ∈ (sideOf b q t).moveQ, x.op.po ≠ r.op.po) ∧
        t.sram = u.sram ∧ t.stags = u.stags) ∧
    (∀ (t : Nat) (e : Ecc) (rf : Refetch) (x : TierXfer),
      let mode := objF x.obj 0 Fld.OBJ0_MITRE s
      let raw := rurilTile x.rtn s
      let tile := if mode = 0 then raw else mitreTile mode raw
      (benchOf b s).refetch.find? (fun r => r.tile == t) = some rf →
      s.tier.xfers.find? (fun y => y.kind == .refetch && y.bench == b && y.btile == t) = some x →
      e.bad.contains x.rtn = false → s.rbad.contains x.rtn = false →
      (mode = 0 ∨ tagF Fld.TAG_CRC raw.tag = crc32c raw.payload) →
      ∃ v, exec (.tileRefetchDone b t e) s = .next (settle (retryFlights b e v)) ∧
        (benchTile b t v).payload = subBytes tile.payload 0 4096 ∧ benchTag b t v = tile.tag ∧
        rd Reg.TIR_TILES_IN v = rd Reg.TIR_TILES_IN s + 1 ∧ (benchOf b v).refetch.all (fun r => r.tile != t) = true ∧
        (benchOf b v).refetched.contains t = true)

/-- Software writes a bench's registers while the bench, its sequencer or the Floor is still: SPLIT takes the value written and
sequencer 1 of a split bench starts IDLE; an instruction word is stored at BEN_IMEM_ADDR, which advances; BEN_EXC_CTL,
a Floor descriptor and BEN_FLOOR_SYS take the value. A write that finds them busy is refused, and a read of instruction
memory answers the word and advances the address. -/
def Obligations.BenchRegistersComplete : Prop :=
  ∀ (b : Nat) (v : Word) (src : Src) (s : State), b < 1176 → Quiet s → s.priv = false →
    let u := arrived src s
    let writes := fun (off : Nat) => Reaches src off (.write v) s
    let p := imemPlace b u
    let i := rdF (Reg.BEN_FDESC_ADDR b) Fld.BEN_FDESC_ADDR_INDEX u
    (writes (Reg.BEN_CTL b) → benchStopped b s = true →
      ∃ t, exec (.benCtlWrite b v src) s = .next t ∧
        rdF (Reg.BEN_CTL b) Fld.BEN_CTL_SPLIT t = getF Fld.BEN_CTL_SPLIT v ∧ (∀ x p, sideOf x p t = sideOf x p s) ∧
        (∀ x p, x ≠ b → seqOf x p t = seqOf x p s) ∧ seqOf b 0 t = seqOf b 0 s ∧ t.tabs = s.tabs ∧ t.sram = s.sram ∧
        (getF Fld.BEN_CTL_SPLIT v = 1 → rdF (Reg.BEN_CTL b) Fld.BEN_CTL_SPLIT u = 0 → (seqOf b 1 t).st = .idle)) ∧
    (writes (Reg.BEN_CTL b) → benchStopped b s = false → getF Fld.BEN_CTL_SPLIT v ≠ rdF (Reg.BEN_CTL b) Fld.BEN_CTL_SPLIT u →
      exec (.benCtlWrite b v src) s = .next (refuse src (Reg.BEN_CTL b) u)) ∧
    (writes (Reg.BEN_IMEM_DATA b) → (seqOf b p.1 s).st.active = false →
      exec (.benImemDataWrite b v src) s = .next (imemNext b (tbW (Tab.IMEM (seqKey b p.1 * 8192 + p.2)) v u))) ∧
    (Reaches src (Reg.BEN_IMEM_DATA b) .read s → (seqOf b p.1 s).st.active = false →
      exec (.benImemDataRead b src) s = .next (imemNext b (reply src (tb (Tab.IMEM (seqKey b p.1 * 8192 + p.2)) u) u))) ∧
    (writes (Reg.BEN_EXC_CTL b) → benchStopped b s = true →
      exec (.benExcCtlWrite b v src) s = .next (wr (Reg.BEN_EXC_CTL b) (v &&& 0x1F1F) u)) ∧
    (writes (Reg.BEN_FDESC_DATA b) → floorBusy u = false →
      exec (.benFdescDataAccess b (.write v) src) s =
        .next (wrF (Reg.BEN_FDESC_ADDR b) Fld.BEN_FDESC_ADDR_INDEX (i + 1) (tbW (Tab.FDESC (b * 1024 + i)) v u))) ∧
    (Reaches src (Reg.BEN_FDESC_DATA b) .read s →
      exec (.benFdescDataAccess b .read src) s =
        .next (wrF (Reg.BEN_FDESC_ADDR b) Fld.BEN_FDESC_ADDR_INDEX (i + 1) (reply src (fdescOf b i u) u))) ∧
    (writes (Reg.BEN_FLOOR_SYS b) → floorBusy u = false →
      exec (.benFloorSysWrite b v src) s = .next (wr (Reg.BEN_FLOOR_SYS b) (v &&& 0xFFFF) u)) ∧
    (writes (Reg.BEN_FLOOR_SYS b) → floorBusy u = true →
      exec (.benFloorSysWrite b v src) s = .next (refuse src (Reg.BEN_FLOOR_SYS b) u))

/-- A GO bit of BEN_START is accepted for a sequencer that exists and does not run, and takes effect from the next frame
start on; BEN_RESET of a stopped bench whose contexts are idle and on which no object has a copy counts in GLB_BENCH_RESETS
and begins, or waits for the bench's units. A bench that a reset holds leaves it when its time has passed, and one whose
reset waits for the units begins it when they are empty: no sequencer runs, and its tiles are as reset leaves them. -/
def Obligations.BenchStartsAndResetsComplete : Prop :=
  (∀ (b : Nat) (v : Word) (src : Src) (s : State), b < 1176 → Quiet s →
    let u := arrived src s
    let go0 := v ||| maskF Fld.BEN_START_GO0
    let go1 := v ||| maskF Fld.BEN_START_GO1
    let res := v ||| maskF Fld.BEN_RESET_RESET
    (Reaches src (Reg.BEN_START b) (.write go0) s → goOk b 0 s = true → (bitF Fld.BEN_START_GO1 v = true → goOk b 1 s = true) →
      ∃ t, exec (.benStartGo0 b v src) s = .next t ∧
        (seqOf b 0 t).startReq = some (getF Fld.BEN_START_PC0 v, frameAfter s.cycle) ∧
        (bitF Fld.BEN_START_GO1 v = false → seqOf b 1 t = seqOf b 1 s) ∧ t.cycle = s.cycle ∧ t.tabs = s.tabs) ∧
    (Reaches src (Reg.BEN_START b) (.write go1) s → goOk b 1 s = true → (bitF Fld.BEN_START_GO0 v = true → goOk b 0 s = true) →
      ∃ t, exec (.benStartGo1 b v src) s = .next t ∧
        (seqOf b 1 t).startReq = some (getF Fld.BEN_START_PC1 v, frameAfter s.cycle) ∧
        (bitF Fld.BEN_START_GO0 v = false → seqOf b 0 t = seqOf b 0 s) ∧ t.cycle = s.cycle ∧ t.tabs = s.tabs) ∧
    (Reaches src (Reg.BEN_RESET b) (.write res) s → inReset b s = false → (benchOf b s).resetWait = false →
      benchStopped b s = true → benchCtxsIdle b u = true → benchMapped b u = false →
      ∃ t, exec (.benReset b v src) s = .next t ∧ rd Reg.GLB_BENCH_RESETS t = rd Reg.GLB_BENCH_RESETS u + 1 ∧
        (if (sideOf b 0 s).quiet && (sideOf b 1 s).quiet then
          (benchOf b t).resetDue = some (s.cycle + 1536) ∧ (benchOf b t).side0 = Side.empty ∧ (benchOf b t).side1 = Side.empty ∧
          (∀ a, btKey b 0 * 4096 ≤ a → a < btKey (b + 1) 0 * 4096 → memByte t.sram a = 0)
        else (benchOf b t).resetWait = true ∧ t.sram = s.sram) ∧
        (∀ x, x ≠ b → benchOf x t = benchOf x s) ∧
        (∀ a, a < btKey b 0 * 4096 ∨ btKey (b + 1) 0 * 4096 ≤ a → memByte t.sram a = memByte s.sram a))) ∧
  (∀ (b : Nat) (s : State), b < 1176 → runs s = true → s.work = [] →
    (∀ c, (benchOf b s).resetWait = false → (benchOf b s).resetDue = some c →
      exec (.benchResetSettle b) s = .next (setBench b { benchOf b s with resetDue := none } (advanceTo c s))) ∧
    ((benchOf b s).resetWait = true → (benchOf b s).side0.quiet = true → (benchOf b s).side1.quiet = true →
      ∃ t, exec (.benchResetSettle b) s = .next t ∧ t.cycle = s.cycle + 1536 ∧ (benchOf b t).resetDue = none ∧
        (benchOf b t).resetWait = false ∧ (benchOf b t).side0 = Side.empty ∧ (benchOf b t).side1 = Side.empty ∧
        (seqOf b 0 t).st = .idle ∧ (seqOf b 1 t).st = .idle ∧ (∀ k, (benchOf b t).accRow k = List.replicate 256 Acc.zero) ∧
        (∀ x, x < 384 → benchTag b x t = blankTag) ∧
        (∀ a, btKey b 0 * 4096 ≤ a → a < btKey (b + 1) 0 * 4096 → memByte t.sram a = 0) ∧
        (∀ x, x ≠ b → benchOf x t = benchOf x s) ∧
        (∀ a, a < btKey b 0 * 4096 ∨ btKey (b + 1) 0 * 4096 ≤ a → memByte t.sram a = memByte s.sram a)))

/-- ARM of the Floor with nothing armed and no check running starts a check; DISARM with no sequencer running ends the armed
state. The check that ends arms the Floor with RESULT 1 where every descriptor is sound and no slot has two owners, and
otherwise leaves it unarmed with RESULT 3 or 2 and the first descriptor in error. The write-one-to-clear registers whose bit
63 is VALID are 0 after their clear: BEN_FAULT0 and BEN_FAULT1, BEN_EXC_FIRST, BEN_CHECK_FIRST, FAB_TREE_FAILED and
DET_TCC_FIRST; and nothing else changes. -/
def Obligations.FloorArmsAndFirstRecordsClear : Prop :=
  (∀ (v : Word) (src : Src) (s : State), Quiet s →
    let u := arrived src s
    let arm := v ||| maskF Fld.GLB_FLOOR_CTL_ARM
    let dis := v ||| maskF Fld.GLB_FLOOR_CTL_DISARM
    (Reaches src Reg.GLB_FLOOR_CTL (.write arm) s → bitF Fld.GLB_FLOOR_CTL_DISARM v = false → floorBusy u = false →
      exec (.glbFloorArm v src) s = .next (wr Reg.GLB_FLOOR_STATUS (setF Fld.GLB_FLOOR_STATUS_BUSY 0 1) u)) ∧
    (Reaches src Reg.GLB_FLOOR_CTL (.write arm) s → bitF Fld.GLB_FLOOR_CTL_DISARM v = true →
      bitF Fld.GLB_FLOOR_STATUS_BUSY (rd Reg.GLB_FLOOR_STATUS u) = false → anyRunning s = false →
      exec (.glbFloorArm v src) s = .next (wr Reg.GLB_FLOOR_STATUS (setF Fld.GLB_FLOOR_STATUS_BUSY 0 1)
        (wrF Reg.GLB_FLOOR_STATUS Fld.GLB_FLOOR_STATUS_ARMED 0 u))) ∧
    (Reaches src Reg.GLB_FLOOR_CTL (.write dis) s → bitF Fld.GLB_FLOOR_CTL_ARM v = false →
      bitF Fld.GLB_FLOOR_STATUS_BUSY (rd Reg.GLB_FLOOR_STATUS u) = false → anyRunning s = false →
      exec (.glbFloorDisarm v src) s = .next (wrF Reg.GLB_FLOOR_STATUS Fld.GLB_FLOOR_STATUS_ARMED 0 u)) ∧
    (Reaches src Reg.GLB_FLOOR_CTL (.write dis) s → s.priv = false →
      bitF Fld.GLB_FLOOR_STATUS_BUSY (rd Reg.GLB_FLOOR_STATUS u) = true ∨ anyRunning s = true →
      exec (.glbFloorDisarm v src) s = .next (refuse src Reg.GLB_FLOOR_CTL u)) ∧
    (held s = false → dead s = false → bitF Fld.GLB_FLOOR_STATUS_BUSY (rd Reg.GLB_FLOOR_STATUS s) = true →
      ∃ w, exec .floorArmCheckDone s = .next (wr Reg.GLB_FLOOR_STATUS w s) ∧ getF Fld.GLB_FLOOR_STATUS_BUSY w = 0 ∧
        ((∀ p ∈ floorDescs s, fdescBad p.2.2 = false) → floorScan s (floorDescs s) [] = none →
          getF Fld.GLB_FLOOR_STATUS_ARMED w = 1 ∧ getF Fld.GLB_FLOOR_STATUS_RESULT w = 1) ∧
        (∀ b i d, (floorDescs s).find? (fun p => fdescBad p.2.2) = some (b, i, d) →
          getF Fld.GLB_FLOOR_STATUS_ARMED w = 0 ∧ getF Fld.GLB_FLOOR_STATUS_RESULT w = 3 ∧
          getF Fld.GLB_FLOOR_STATUS_FDESC w = i % 1024) ∧
        (∀ b i p k, (∀ x ∈ floorDescs s, fdescBad x.2.2 = false) → floorScan s (floorDescs s) [] = some (b, i, p, k) →
          getF Fld.GLB_FLOOR_STATUS_ARMED w = 0 ∧ getF Fld.GLB_FLOOR_STATUS_RESULT w = 2 ∧
          getF Fld.GLB_FLOOR_STATUS_SLOT w = k % 16))) ∧
  (∀ (b q c : Nat) (v : Word) (src : Src) (s : State), b < 1176 → q < 2 → c < 16 → Quiet s →
    let at' := fun (off : Nat) (m : Word) => Reaches src off (.write m) s
    let w := v ||| maskF ⟨63, 1⟩
    (at' (faultReg b q) w → exec (.benFaultClear b q v src) s = .next (wr (faultReg b q) 0 (arrived src s))) ∧
    (at' (Reg.BEN_EXC_FIRST b) w → exec (.benExcFirstClear b v src) s = .next (wr (Reg.BEN_EXC_FIRST b) 0 (arrived src s))) ∧
    (at' (Reg.BEN_CHECK_FIRST b) w →
      exec (.benCheckFirstClear b v src) s = .next (wr (Reg.BEN_CHECK_FIRST b) 0 (arrived src s))) ∧
    (at' Reg.FAB_TREE_FAILED w → exec (.fabTreeFailedClear v src) s = .next (wr Reg.FAB_TREE_FAILED 0 (arrived src s))) ∧
    (at' (Reg.DET_TCC_FIRST c) w → exec (.detTccFirstClear c v src) s = .next (wr (Reg.DET_TCC_FIRST c) 0 (arrived src s))))

/-- A read of a data register answers the table word at its address register and moves the address on, wrapping at the
table's end: the object table, the Dovetail, fabric, collective, bench, semaphore and slot tables. -/
def Obligations.TableReadsComplete : Prop :=
  ∀ (src : Src) (s : State), Quiet s →
    let u := arrived src s
    let place := fun (addr n : Nat) => (rd addr u).toNat % 2 ^ n
    let answers := fun (i : Instr) (data addr n : Nat) (key : Nat → Nat) => Reaches src data .read s →
      exec i s = .next (wr addr (w64 ((place addr n + 1) % 2 ^ n)) (reply src (tb (key (place addr n)) u) u))
    let bench := rdF Reg.CTX_BENCH_ADDR Fld.CTX_BENCH_ADDR_INDEX u
    let sem := rdF Reg.CTX_SEM_ADDR Fld.CTX_SEM_ADDR_INDEX u
    answers (.tirObjDataAccess .read src) Reg.TIR_OBJ_DATA Reg.TIR_OBJ_ADDR 19 Tab.OBJ ∧
    answers (.dovLayerDataAccess .read src) Reg.DOV_LAYER_DATA Reg.DOV_LAYER_ADDR 10 Tab.LAYER ∧
    answers (.dovSelDataAccess .read src) Reg.DOV_SEL_DATA Reg.DOV_SEL_ADDR 21 Tab.SEL ∧
    answers (.dovDispDataAccess .read src) Reg.DOV_DISP_DATA Reg.DOV_DISP_ADDR 9 Tab.DISP ∧
    answers (.dovMapDataAccess .read src) Reg.DOV_MAP_DATA Reg.DOV_MAP_ADDR 22 Tab.MAP ∧
    answers (.dovLocDataAccess .read src) Reg.DOV_LOC_DATA Reg.DOV_LOC_ADDR 14 Tab.LOC ∧
    answers (.fabRankDataAccess .read src) Reg.FAB_RANK_DATA Reg.FAB_RANK_ADDR 15 Tab.RANK ∧
    answers (.fabPlaneDataAccess .read src) Reg.FAB_PLANE_DATA Reg.FAB_PLANE_ADDR 9 Tab.PLANE ∧
    answers (.fabTreeDataAccess .read src) Reg.FAB_TREE_DATA Reg.FAB_TREE_ADDR 8 Tab.TREE ∧
    answers (.fabXdescDataAccess .read src) Reg.FAB_XDESC_DATA Reg.FAB_XDESC_ADDR 13 Tab.XDESC ∧
    answers (.colGroupDataAccess .read src) Reg.COL_GROUP_DATA Reg.COL_GROUP_ADDR 11 Tab.GROUP ∧
    answers (.colListDataAccess .read src) Reg.COL_LIST_DATA Reg.COL_LIST_ADDR 14 Tab.LIST ∧
    answers (.colDescDataAccess .read src) Reg.COL_DESC_DATA Reg.COL_DESC_ADDR 13 Tab.DESC ∧
    answers (.colGseqDataRead src) Reg.COL_GSEQ_DATA Reg.COL_GSEQ_ADDR 10 Tab.GSEQ ∧
    (Reaches src Reg.BPM_SLOT_DATA .read s → exec (.bpmSlotDataRead src) s =
      .next (reply src (tb (Tab.SLOT (place Reg.BPM_SLOT_ADDR 21)) u)
        (wr Reg.BPM_SLOT_ADDR (w64 ((place Reg.BPM_SLOT_ADDR 21 + 1) % 2 ^ 21)) u))) ∧
    (Reaches src Reg.CTX_SEM_DATA .read s → exec (.ctxSemDataRead src) s =
      .next (reply src (semEntry sem u) (wrF Reg.CTX_SEM_ADDR Fld.CTX_SEM_ADDR_INDEX (sem + 1) u))) ∧
    (Reaches src Reg.CTX_BENCH_DATA .read s → bench < 1176 → exec (.ctxBenchDataAccess .read src) s =
      .next (reply src (tb (Tab.BENCHTAB bench) u) (wrF Reg.CTX_BENCH_ADDR Fld.CTX_BENCH_ADDR_INDEX (bench + 1) u)))

/-- While no job runs, a write of a fabric or collective data register stores the writable bits of the word where the entry
stays sound, and is refused where it does not; either way the address moves on. While a job runs the plane, tree,
descriptor, group, list and GSEQ tables refuse every write. A rank table write refreshes the device's own rank. -/
def Obligations.FabricTablesComplete : Prop :=
  ∀ (v : Word) (src : Src) (s : State), Quiet s → s.priv = false →
    let u := arrived src s
    let none' := jobState u = 0
    let next := fun (addr n : Nat) => wr addr (w64 (((rd addr u).toNat % 2 ^ n + 1) % 2 ^ n))
    let writes := fun (i : Instr) (data addr n : Nat) (key : Nat → Nat) (mask : Nat → Word) (ok : Nat → Word → State → Bool) =>
      Reaches src data (.write v) s →
        let k := (rd addr u).toNat % 2 ^ n
        let t := tbW (key k) (v &&& mask k) u
        (none' → ok k v t = true → exec i s = .next (next addr n t)) ∧
        (¬ none' ∨ ok k v t = false → exec i s = .next (next addr n (refuse src data u)))
    let any' := fun (_ : Nat) (_ : Word) (_ : State) => true
    let r := (rd Reg.FAB_RANK_ADDR u).toNat % 2 ^ 15
    let ranked := tbW (Tab.RANK r) (v &&& 0xC000000000007FFF) u
    writes (.fabPlaneDataAccess (.write v) src) Reg.FAB_PLANE_DATA Reg.FAB_PLANE_ADDR 9 Tab.PLANE
      (fun _ => 0xFFFFFFFFFFFFFFFF) any' ∧
    writes (.fabTreeDataAccess (.write v) src) Reg.FAB_TREE_DATA Reg.FAB_TREE_ADDR 8 Tab.TREE
      (fun _ => 0xFFFFFFFFF0000000) any' ∧
    writes (.fabXdescDataAccess (.write v) src) Reg.FAB_XDESC_DATA Reg.FAB_XDESC_ADDR 13 Tab.XDESC
      (fun i => if i % 2 = 0 then 0xFFC3FFFFFFFFF800 else 0xFFFFFFFFFFFF0000)
      (fun i v _ => i % 2 == 1 || decide (getF Fld.XDESC0_KIND v ≤ 3)) ∧
    writes (.colGroupDataAccess (.write v) src) Reg.COL_GROUP_DATA Reg.COL_GROUP_ADDR 11 Tab.GROUP
      (fun i => if i % 2 = 0 then 0xFFFFFFFFFFFFF000 else 0xFFFF)
      (fun i _ t => !bitF Fld.GROUP0_VALID (groupWord (i / 2) 0 t) || groupSound (i / 2) t) ∧
    writes (.colListDataAccess (.write v) src) Reg.COL_LIST_DATA Reg.COL_LIST_ADDR 14 Tab.LIST
      (fun _ => 0x7FFF7FFF7FFF7FFF) any' ∧
    writes (.colDescDataAccess (.write v) src) Reg.COL_DESC_DATA Reg.COL_DESC_ADDR 13 Tab.DESC
      (fun i => [0xFFFFFFFFFFFFE000, 0xFFFFFFFFFFFFF000, 0xFFFFFFFF0FFFFFFF, 0xFFFFFFFF0FFFFFFF,
        0xFFFFFFFFFFFF0000].getD (i % 8) 0) any' ∧
    writes (.colGseqDataWrite v src) Reg.COL_GSEQ_DATA Reg.COL_GSEQ_ADDR 10 Tab.GSEQ
      (fun _ => if bitF Fld.COL_GSEQ_DATA_ABORTED v then 0xFFFFFFFFFFFFFFFF else 0xFFFFFFFF) any' ∧
    (Reaches src Reg.FAB_RANK_DATA (.write v) s → none' →
      (rankState r u = 2 → rankState r (refreshRank ranked) ≠ 1) →
      exec (.fabRankDataAccess (.write v) src) s = .next (next Reg.FAB_RANK_ADDR 15 (refreshRank ranked)) ∧
      tb (Tab.RANK r) (refreshRank ranked) = v &&& 0xC000000000007FFF) ∧
    (Reaches src Reg.FAB_RANK_DATA (.write v) s → none' → rankState r u = 2 → rankState r (refreshRank ranked) = 1 →
      exec (.fabRankDataAccess (.write v) src) s =
        .next (settleAll (next Reg.FAB_RANK_ADDR 15 (takeover r (refreshRank ranked))))) ∧
    (Reaches src Reg.FAB_RANK_DATA (.write v) s → ¬ none' → rankState r u = 1 → getF ⟨62, 2⟩ v = 2 →
      getF ⟨0, 15⟩ v = rankPhys r u →
      exec (.fabRankDataAccess (.write v) src) s = .next (next Reg.FAB_RANK_ADDR 15 (refreshRank ranked))) ∧
    (Reaches src Reg.FAB_RANK_DATA (.write v) s → ¬ none' →
      ¬ (rankState r u = 1 ∧ getF ⟨62, 2⟩ v = 2 ∧ getF ⟨0, 15⟩ v = rankPhys r u) →
      exec (.fabRankDataAccess (.write v) src) s = .next (next Reg.FAB_RANK_ADDR 15 (refuse src Reg.FAB_RANK_DATA u)))

/-- A write of the object table stores the writable bits of a word of a descriptor that is open and stays legal, and is refused
otherwise; words 6 and 7 keep their value. The bench table takes an entry whose old and new contexts are all STOPPED or
TORN. A semaphore entry takes VALUE and its configuration under the same rule; a held lock keeps its VALUE. -/
def Obligations.ContextTablesComplete : Prop :=
  ∀ (v : Word) (src : Src) (s : State), Quiet s → s.priv = false →
    let u := arrived src s
    let o := rdF Reg.TIR_OBJ_ADDR Fld.TIR_OBJ_ADDR_INDEX u
    let w := rdF Reg.TIR_OBJ_ADDR Fld.TIR_OBJ_ADDR_WORD u
    let t := tbW (objKey o w) ((tb (objKey o w) u &&& ~~~(objMask w)) ||| (v &&& objMask w)) u
    let b := rdF Reg.CTX_BENCH_ADDR Fld.CTX_BENCH_ADDR_INDEX u
    let bu := wrF Reg.CTX_BENCH_ADDR Fld.CTX_BENCH_ADDR_INDEX (b + 1) u
    let entry := v &&& 0x3FF
    let mayBench := b < 1176 ∧ ∀ c ∈ entryCtxs (tb (Tab.BENCHTAB b) u) ++ entryCtxs entry, ctxIdle c u = true
    let n := rdF Reg.CTX_SEM_ADDR Fld.CTX_SEM_ADDR_INDEX u
    let su := wrF Reg.CTX_SEM_ADDR Fld.CTX_SEM_ADDR_INDEX (n + 1) u
    let e := semEntry n u
    let maySem := (semCfg e = semCfg v ∨ ∀ c ∈ semCtxs e ++ semCtxs v, ctxIdle c u = true) ∧
      (getF Fld.SEM_VALUE e = getF Fld.SEM_VALUE v ∨ bitF Fld.SEM_HELD e = false)
    let obj := Reaches src Reg.TIR_OBJ_DATA (.write v) s
    (obj → 6 ≤ w → exec (.tirObjDataAccess (.write v) src) s = .next (objNext u)) ∧
    (obj → w < 6 → objOpen o u = true → (objF o 0 Fld.OBJ0_VALID t = 1 → objLegal o t = true) →
      ¬ (objF o 0 Fld.OBJ0_VALID u = 1 ∧ objState o t = osPoisoned) →
      exec (.tirObjDataAccess (.write v) src) s = .next (objNext t)) ∧
    (obj → w < 6 → objOpen o u = true → (objF o 0 Fld.OBJ0_VALID t = 1 → objLegal o t = true) →
      objF o 0 Fld.OBJ0_VALID u = 1 → objState o t = osPoisoned →
      exec (.tirObjDataAccess (.write v) src) s = .next (objNext (objW o 0 Fld.OBJ0_STATE osRuril
        { t with tier := { t.tier with recov := t.tier.recov.filter (fun r => r.obj != o) } }))) ∧
    (obj → w < 6 → objOpen o u = false ∨ (objF o 0 Fld.OBJ0_VALID t = 1 ∧ objLegal o t = false) →
      exec (.tirObjDataAccess (.write v) src) s = .next (objNext (refuse src Reg.TIR_OBJ_DATA u))) ∧
    (Reaches src Reg.CTX_BENCH_DATA (.write v) s → mayBench →
      exec (.ctxBenchDataAccess (.write v) src) s = .next (tbW (Tab.BENCHTAB b) entry bu)) ∧
    (Reaches src Reg.CTX_BENCH_DATA (.write v) s → ¬ mayBench →
      exec (.ctxBenchDataAccess (.write v) src) s = .next (refuse src Reg.CTX_BENCH_DATA bu)) ∧
    (Reaches src Reg.CTX_SEM_DATA (.write v) s → maySem →
      exec (.ctxSemDataWrite v src) s = .next (settleAll (semStore n v su)) ∧
      semValue n (semStore n v su) = getF Fld.SEM_VALUE v ∧ semCfg (semEntry n (semStore n v su)) = semCfg v) ∧
    (Reaches src Reg.CTX_SEM_DATA (.write v) s → ¬ maySem →
      exec (.ctxSemDataWrite v src) s = .next (refuse src Reg.CTX_SEM_DATA su))

/-- A software request of the tier manager is stored whole and waits behind those already submitted: its operation, context,
object, deadline, semaphore and count are the fields of the two request words. Clearing TIR_POISON_FIRST empties it. A booked
tile transfer takes place in its cycle: a promotion carries the Ruril tile, through the Mitre where the object asks for it,
to its bench tile; a write-back carries the bench tile, with the object and the tile index as its ORIGIN, to its Ruril tile.
Each is counted, and a flush clears the tile's dirty bit. -/
def Obligations.TierRequestsAndTransfersLand : Prop :=
  (∀ (c obj d sem n : Nat) (v : Word) (src : Src) (s : State), c < 16 →
    let queued := fun (i : Instr) (op : Nat) (k : Word → Prop) => Working s → ∃ q : SoftReq,
      exec i s = .next { wr Reg.TIR_REQ0 q.w0 s with tier := { s.tier with soft := s.tier.soft ++ [q] } } ∧
        getF Fld.TIR_REQ0_OP q.w0 = op ∧ getF Fld.TIR_REQ0_CTX q.w0 = c ∧ getF Fld.TIR_REQ0_OBJECT q.w0 = obj % 2 ^ 40 ∧ k q.w1
    queued (.tirReqPromote c obj d sem n) 1 (fun w => getF Fld.TIR_REQ1_DEADLINE w = d % 2 ^ 32 ∧
      getF Fld.TIR_REQ1_SEM w = sem % 4096 ∧ getF Fld.TIR_REQ1_SIGNUM w = n % 256) ∧
    queued (.tirReqEvict c obj) 2 (fun _ => True) ∧ queued (.tirReqFlush c obj) 3 (fun _ => True) ∧
    queued (.tirReqUnpin c obj) 4 (fun _ => True) ∧
    (Quiet s → Reaches src Reg.TIR_POISON_FIRST (.write (v ||| maskF Fld.TIR_POISON_FIRST_VALID)) s →
      exec (.tirPoisonFirstClear v src) s = .next (wr Reg.TIR_POISON_FIRST 0 (arrived src s)))) ∧
  (∀ (j : Nat) (x : TierXfer) (s : State), Working s → s.tier.xfers[j]? = some x →
    let u := dropXfer x (advanceTo x.due s)
    let lands := fun (t : State) => exec (.tierTileTransferDone j ⟨0, []⟩) s = .next t
    let mode := objF x.obj 0 Fld.OBJ0_MITRE s
    let inTile := rurilTile x.rtn s
    let outTile := x.saved.getD (benchTile x.bench x.btile s)
    let sound := fun (y : Tile) => tagF Fld.TAG_CRC y.tag = crc32c y.payload ∧ mitreTakes (tagF Fld.TAG_FORMAT y.tag) = true
    let back := fun (y : Tile) =>
      let v := bump Reg.TIR_TILES_OUT (setRurilTile x.rtn
        ⟨mkTag (tagF Fld.TAG_CRC y.tag) (tagF Fld.TAG_FORMAT y.tag) (tagF Fld.TAG_FLAGS y.tag) (tagF Fld.TAG_SIDE y.tag)
          (tagF Fld.TAG_CBDIST y.tag) (objF x.obj 0 Fld.OBJ0_OBJECT s + x.tile * 2 ^ 40), y.payload⟩ u)
      if x.kind = .flush ∧ x.saved = none then clearDirty x.obj (· == x.tile) v else v
    let out := (x.kind = .evict ∨ x.kind = .flush) ∧ s.sbad.contains (btKey x.bench x.btile) = false
    (x.kind = .promote → s.rbad.contains x.rtn = false → mode = 0 →
      lands (bump Reg.TIR_TILES_IN (setBenchTile x.bench x.btile inTile u))) ∧
    (x.kind = .promote → s.rbad.contains x.rtn = false → mode ≠ 0 → sound inTile →
      lands (bump Reg.TIR_TILES_IN (setBenchTile x.bench x.btile (mitreTile mode inTile) u))) ∧
    (out → mode = 0 → lands (back outTile)) ∧
    (out → mode ≠ 0 → sound outTile → lands (back (mitreTile mode outTile))))

/-- The completion cycles of the tier manager. A promotion signals each request's semaphore, makes the bench copy FULL and its
object RESIDENT_BOTH, or RESIDENT_BOTH_DIRTY where tiles were written meanwhile; one that ended early only signals. A
write-back drops the copy, and its object is RESIDENT_RURIL or PROMOTING where a promotion is booked behind it. A
flush with no dirty tile left returns its object to RESIDENT_BOTH. -/
def Obligations.TierBookingsComplete : Prop :=
  ∀ (o : Nat) (s : State), o < 65536 → Working s →
    let signals := fun (p : Promo) => p.reqs.foldl (fun t r => semHw r.sem r.num t)
      { advanceTo p.due s with tier := { s.tier with promos := s.tier.promos.filter (· != p) } }
    let ended := fun (w : WriteBack) =>
      { advanceTo w.due s with tier := { s.tier with backs := s.tier.backs.filter (· != w) } }
    let again := s.tier.promos.any (fun p => p.obj == o && !p.dead)
    (∀ p, s.tier.promos.find? (fun p => p.obj == o) = some p → p.dead = true →
      exec (.promotionComplete o) s = .next (settle (signals p))) ∧
    (∀ p, s.tier.promos.find? (fun p => p.obj == o) = some p → p.dead = false → xfersDone .promote o s = true →
      objState o s = osPromoting → objF o 0 Fld.OBJ0_EVICT_PENDING s = 0 → (∀ r ∈ p.reqs, r.sem < 4096) →
      exec (.promotionComplete o) s = .next (settle (objW o 0 Fld.OBJ0_STATE
        (if (dirtyTiles o s).isEmpty then osBoth else osDirty) (objW o 0 Fld.OBJ0_SRAM 2 (signals p))))) ∧
    (∀ w, s.tier.backs.find? (fun w => w.obj == o && !w.flush) = some w → xfersDone .evict o s = true →
      objState o s = osEvicting →
      exec (.writebackComplete o) s = .next (if again then
        objW o 0 Fld.OBJ0_SRAM 1 (objW o 0 Fld.OBJ0_STATE osPromoting (dropCopy o (ended w)))
        else objW o 0 Fld.OBJ0_STATE osRuril (dropCopy o (ended w)))) ∧
    (∀ w, s.tier.backs.find? (fun w => w.obj == o && w.flush) = some w → xfersDone .flush o s = true →
      exec (.flushComplete o) s = .next (if objState o s = osDirty ∧ (dirtyTiles o s).isEmpty = true then
        objW o 0 Fld.OBJ0_STATE osBoth (ended w) else ended w))

/-- Recovery of a poisoned object: a good tile is stored in Ruril and is poisoned no more, and the last one ends the recovery, so
that the object has the state that its bench copy says; a bad tile, or a source that does not deliver in time, moves on
to the host copy where one is registered, which is read over CXL, and otherwise the recovery has failed. -/
def Obligations.RecoveryProceeds : Prop :=
  ∀ (o j : Nat) (x : Tile) (r : Recovery) (s : State), o < 65536 → Working s → recovOf o s = some r → r.failed = false →
    let rest := r.tiles.filter (· != j)
    let good := tagF Fld.TAG_CRC x.tag = crc32c (subBytes x.payload 0 4096)
    let stored := setRurilTile (objF o 1 Fld.OBJ1_RBASE s + j) x s
    let late := advanceTo (r.since + usCycles (rdF Reg.TIR_RECOVER_CTL Fld.TIR_RECOVER_CTL_TIMEOUT_US s)) s
    let host := r.src = 0 ∧ objF o 4 Fld.OBJ4_HOST_VALID s = 1
    let asked := fun (u : State) => r.tiles.foldl
      (fun t i => emit (.hostRead ((objF o 4 Fld.OBJ4_HOSTADDR s + i) * 4096) 4096) t)
      (setRecov { r with src := 1, since := u.cycle } u)
    let lost := fun (t : State) => recovOf o t = some { r with failed := true } ∧ objState o t = objState o s ∧ t.ruril = s.ruril
    (r.tiles.contains j = true → good → rest ≠ [] →
      exec (.recoveryTileReceive o j x) s = .next (setRecov { r with tiles := rest } stored)) ∧
    (r.tiles.contains j = true → good → rest = [] →
      ∃ u, exec (.recoveryTileReceive o j x) s = .next (settle u) ∧ recovOf o u = none ∧
        rd Reg.TIR_RECOVERED u = rd Reg.TIR_RECOVERED s + 1 ∧ u.ruril = stored.ruril ∧ u.rtags = stored.rtags ∧
        (objSram o s = 0 → objState o u = osRuril ∧ objF o 0 Fld.OBJ0_EVICT_PENDING u = 0) ∧
        (objSram o s ≠ 0 → objF o 0 Fld.OBJ0_EVICT_PENDING s = 0 →
          objState o u = (if (dirtyTiles o s).isEmpty then osBoth else osDirty))) ∧
    (r.tiles.contains j = true → ¬ good → host → exec (.recoveryTileReceive o j x) s = .next (asked s)) ∧
    (host → exec (.recoverySourceTimeout o) s = .next (asked late)) ∧
    (r.tiles.contains j = true → ¬ good → ¬ host →
      ∃ u, exec (.recoveryTileReceive o j x) s = .next (settle u) ∧ lost u) ∧
    (¬ host → ∃ u, exec (.recoverySourceTimeout o) s = .next (settle u) ∧ lost u)

/-- The pool is initialised only while no slot is in use and no initialisation runs; when it completes every buffer is free,
the list runs through them in order, and every slot is FREE. A leave of an ACTIVE slot makes it LEAVING with its status;
another request of BPM_SLOT_REQ is counted as bad. The buffer requests. While a step boundary runs each waits its turn.
Otherwise ALLOC takes the head of the free list for its holder and spoils the tag, SHARE adds users and names the new FINAL,
DROP takes one user away and FREE gives the buffer back or marks it FREEING; a request that does not pass its checks is
counted and changes no buffer. -/
def Obligations.PoolAndBufferRequestsComplete : Prop :=
  (∀ (v : Word) (src : Src) (s : State),
    let init := v ||| maskF Fld.BPM_POOL_CTL_INIT
    let u := arrived src s
    let idle := rdF Reg.BPM_POOL_CTL Fld.BPM_POOL_CTL_BUSY s ≠ 1 ∧ usedSlots s = []
    let asked := Quiet s ∧ Reaches src Reg.BPM_POOL_CTL (.write init) s
    let req := Quiet s ∧ Reaches src Reg.BPM_SLOT_REQ (.write v) s
    let n := getF Fld.BPM_SLOT_REQ_SLOT v
    let st := getF Fld.BPM_SLOT_REQ_STATUS v
    let d := rdF Reg.BPM_POOL_CTL Fld.BPM_POOL_CTL_DBASE s * 4096
    (asked → idle → ∃ t, exec (.bpmPoolInit v src) s = .next t ∧ rdF Reg.BPM_POOL_CTL Fld.BPM_POOL_CTL_BUSY t = 1 ∧
      rdF Reg.BPM_POOL_CTL Fld.BPM_POOL_CTL_DBASE t = getF Fld.BPM_POOL_CTL_DBASE v ∧
      (∀ off, off ≠ Reg.BPM_POOL_CTL → rd off t = rd off u) ∧ t.tabs = s.tabs ∧ t.ruril = s.ruril) ∧
    (asked → ¬ idle → exec (.bpmPoolInit v src) s = .next (refuse src Reg.BPM_POOL_CTL u)) ∧
    (held s = false → dead s = false → s.power.ruril = true → rdF Reg.BPM_POOL_CTL Fld.BPM_POOL_CTL_BUSY s = 1 →
      ∃ t, exec .poolInitDone s = .next t ∧ freeCount t = poolLen s ∧
        freeHead t = (if poolLen s = 0 then bufEnd else poolBase s) ∧ rdF Reg.BPM_POOL_CTL Fld.BPM_POOL_CTL_BUSY t = 0 ∧
        usedSlots t = [] ∧
        (poolBase s + poolLen s < bufEnd → d + poolLen s * 8 ≤ poolBase s * 4096 ∨ (poolBase s + poolLen s) * 4096 ≤ d →
          ∀ k < poolLen s, bdF (poolBase s + k) BD.state t = 0 ∧
            linkOf (poolBase s + k) t = if k + 1 = poolLen s then bufEnd else poolBase s + k + 1)) ∧
    (req → st = 2 ∨ st = 3 → boundaryRuns s = false → slotState n s = 1 →
      exec (.bpmSlotReq v src) s = .next (slW n 6 SL.status st (slW n 0 SL.state 2 u))) ∧
    (req → st = 2 ∨ st = 3 → boundaryRuns s = true →
      exec (.bpmSlotReq v src) s = .next { u with pool := { u.pool with leaves := u.pool.leaves ++ [(n, st)] } }) ∧
    (req → st ≠ 2 ∧ st ≠ 3 ∨ (boundaryRuns s = false ∧ slotState n s ≠ 1) →
      exec (.bpmSlotReq v src) s = .next (bump Reg.BPM_BAD_REQ u))) ∧
  (∀ (h buf n f : Nat) (ok soft : Bool) (s : State), Working s →
    let alloc : Instr := .bpmAlloc h ok soft
    let share : Instr := .bpmShare h buf n f soft
    let drop : Instr := .bpmDrop h buf soft
    let free : Instr := .bpmFree h buf ok soft
    let waits := fun (q : PoolReq) =>
      (.next { s with pool := { s.pool with held := s.pool.held ++ [q] } } : Host.Outcome State Fault Refusal)
    let now := boundaryRuns s = false
    let users := bdF buf BD.users s
    let live := isBuf buf s = true ∧ (bdF buf BD.state s = 1 ∨ bdF buf BD.state s = 2) ∧ bdF buf BD.final s = h
    let result := fun (status k : Nat) (t : State) =>
      if soft then wr Reg.BPM_RESULT (w64 (status * 2 ^ 60 + k % 2 ^ 28)) t else t
    let bad := bump Reg.BPM_BAD_REQ s
    (boundaryRuns s = true → exec alloc s = waits ⟨1, h, 0, 0, 0, soft, ok⟩ ∧ exec share s = waits ⟨2, h, buf, n, f, soft, true⟩ ∧
      exec drop s = waits ⟨3, h, buf, 0, 0, soft, true⟩ ∧ exec free s = waits ⟨4, h, buf, 0, 0, soft, ok⟩) ∧
    (now → freeCount s = 0 → exec alloc s = .next (result 3 0 (bump Reg.BPM_ALLOC_FAIL s))) ∧
    (now → freeCount s ≠ 0 → ok = true → ∃ t, exec alloc s = .next t ∧
      freeHead t = linkOf (freeHead s) s ∧ freeCount t = freeCount s - 1 ∧ bdF (freeHead s) BD.final t = h % 2 ^ 24 ∧
      bdF (freeHead s) BD.users t = 0 ∧ bdF (freeHead s) BD.freeing t = 0 ∧ bdF (freeHead s) BD.state t = 1 ∧
      bdF (freeHead s) BD.next t = bufEnd ∧
      tagF Fld.TAG_CRC (rurilTile (freeHead s) t).tag ≠ crc32c (rurilTile (freeHead s) t).payload ∧
      rd Reg.BPM_RESULT t = (if soft then w64 (2 ^ 60 + freeHead s) else rd Reg.BPM_RESULT s)) ∧
    (now → live → users + n ≤ 255 → exec share s =
      .next (result 1 buf (bdW buf BD.final f (bdW buf BD.users (users + n) (bdW buf BD.state 2 s))))) ∧
    (now → ¬ (live ∧ users + n ≤ 255) → exec share s = .next (result 2 buf bad)) ∧
    (now → isBuf buf s = true → bdF buf BD.state s = 2 → 1 < users →
      exec drop s = .next (result 1 buf (bdW buf BD.users (users - 1) s))) ∧
    (now → isBuf buf s = true → bdF buf BD.state s = 2 → users = 1 → exec drop s =
      .next (result 1 buf (if bdF buf BD.freeing s = 1 then bufFree buf (bdW buf BD.state 1 (bdW buf BD.users 0 s))
        else bdW buf BD.state 1 (bdW buf BD.users 0 s)))) ∧
    (now → ¬ (isBuf buf s = true ∧ bdF buf BD.state s = 2 ∧ 0 < users) → exec drop s = .next (result 2 buf bad)) ∧
    (now → ok = true → live → bdF buf BD.freeing s = 0 →
      exec free s = .next (result 1 buf (if users = 0 then bufFree buf s else bdW buf BD.freeing 1 s))) ∧
    (now → ok = true → ¬ (live ∧ bdF buf BD.freeing s = 0) →
      exec free s = .next (result 2 buf (log 0x0601 kBuffer buf none [w64 h] (bump Reg.BPM_FREE_REFUSED s)))))

/-- A step boundary begins at a software trigger in MODE 0, or at one that was held: the step shows BUSY and phase 1, and the
boundary is the work of the same step. A trigger while a boundary runs is held, and one in MODE 1 has no effect. The copies
that a boundary waits for, and its end. A parking copy gives the slot's buffers back and frees the slot, counted in
BPM_PARKED where it succeeded, and the last one lets phase 3 go on; a resume copy fills the slot's buffers and admits its
join, or undoes the admission; and the new step begins at the first frame start at or after the end of phase 5. -/
def Obligations.StepBoundariesRun : Prop :=
  (∀ (v : Word) (src : Src) (s : State),
    let fin := v ||| maskF Fld.BPM_STEP_END_END
    let asked := Quiet s ∧ Reaches src Reg.BPM_STEP_END (.write fin) s
    let u := arrived src s
    let byHand := rdF Reg.BPM_STEP_CTL Fld.BPM_STEP_CTL_MODE s = 0
    let begins := fun (t : State) => t.work = [.boundary] ∧ t.pool.bnd = some ⟨1, s.cycle, 0, false, [], none, []⟩ ∧
      rdF Reg.BPM_STEP_STATUS Fld.BPM_STEP_STATUS_BUSY t = 1 ∧ rdF Reg.BPM_STEP_STATUS Fld.BPM_STEP_STATUS_PHASE t = 1 ∧
      rdF Reg.BPM_STEP_STATUS Fld.BPM_STEP_STATUS_STEP t = rdF Reg.BPM_STEP_STATUS Fld.BPM_STEP_STATUS_STEP s ∧
      t.benches = s.benches ∧ t.tabs = s.tabs
    let may := s.pool.bnd = none ∧ s.ctxs.step7 = [] ∧ 4 ≤ s.dev ∧ s.dev ≤ 7
    (asked → byHand → may →
      ∃ t, exec (.bpmStepEnd v src) s = .next (settleAll t) ∧ begins t ∧ t.pool.triggers = s.pool.triggers) ∧
    (asked → byHand → s.pool.bnd ≠ none →
      exec (.bpmStepEnd v src) s = .next { u with pool := { u.pool with triggers := u.pool.triggers + 1 } }) ∧
    (asked → ¬ byHand → exec (.bpmStepEnd v src) s = .next u) ∧
    (Working s → may → 0 < s.pool.triggers →
      ∃ t, exec .stepBoundaryBegin s = .next (settle t) ∧ begins t ∧ t.pool.triggers = s.pool.triggers - 1)) ∧
  (∀ (n : Nat) (ok : Bool) (bytes : List Byte) (j : Join) (b : Boundary) (s : State), n < 262144 → Working s →
    s.pool.bnd = some b →
    let start := frameFrom (max b.endAt s.cycle)
    let filled := ((ownBufs n s).zipIdx).foldl (fun t p =>
      setRurilTile p.1 ⟨BitVec.ofNat 128 (crc32c (subBytes bytes (p.2 * 4096) 4096)), subBytes bytes (p.2 * 4096) 4096⟩ t) s
    let resumed := { b with resuming := none, endAt := max b.endAt s.cycle }
    let failed := log 0x0108 kSlot n (some j.ctx) [w64 (resumeAddr j)] (bump Reg.GLB_HIF_XFER_FAIL s)
    let parked := fun (rest : List Nat) => { b with parking := rest, endAt := max b.endAt (parkDone n (ok && linkUp s) s).cycle }
    (∀ rest, b.parking = n :: rest → rest ≠ [] → ∃ t, exec (.parkCopyDone n ok) s = .next t ∧ slotState n t = 0 ∧
      t.pool.bnd = some (parked rest) ∧
      rd Reg.BPM_PARKED t = rd Reg.BPM_PARKED s + (if ok && linkUp s then 1 else 0)) ∧
    (b.parking = [n] → exec (.parkCopyDone n ok) s =
      .next (settle (runPhase3 (parked []) (setBnd (parked []) (parkDone n (ok && linkUp s) s))))) ∧
    (b.resuming = some (n, j) →
      exec (.resumeCopyDone n (some bytes)) s = .next (settle (runPhase4 resumed (admitted j n filled))) ∧
      exec (.resumeCopyDone n none) s = .next (settle (runPhase4 resumed
        (bump Reg.BPM_JOIN_DEFERRED (postJoin j 1 (slotZero n (slotGive n failed))))))) ∧
    (b.phase = 6 → ∃ t, exec .newStepStart s = .next (settle (boundaryTry (dovNewStep t))) ∧ start % 16 = 0 ∧ s.cycle ≤ start ∧
      start < max b.endAt s.cycle + 16 ∧ t.cycle = start ∧ rd Reg.TIR_STEP_START t = w64 start ∧ t.pool.bnd = none ∧
      rd Reg.BPM_STEP_STATUS t = w64 ((rdF Reg.BPM_STEP_STATUS Fld.BPM_STEP_STATUS_STEP s + 1) % 2 ^ 32) ∧ t.tabs = s.tabs))

/-- Enabling the Dovetail sets RUN where its resource and map checks pass, and is refused where they do not; disabling it
only clears EN, since RUN ends at the next boundary. T takes a value up to 16,384. While the Dovetail does not run, a write
of one of its data registers stores the writable bits of the word where the descriptor that it belongs to stays sound, and is
refused where it does not; either way the address moves on. While the Dovetail runs every such write is refused. -/
def Obligations.DovetailControlAndTablesComplete : Prop :=
  (∀ (c : Nat) (v : Word) (src : Src) (s : State), c < 16 → Quiet s →
    let u := arrived src s
    let ctl := Reaches src Reg.DOV_CTL (.write v) s
    let tok := Reaches src (Reg.DOV_CTX_TOKENS c) (.write v) s
    let en := bitF Fld.DOV_CTL_EN v = true
    (ctl → en → dovRun s = true → exec (.dovCtlEnWrite v src) s = .next (wr Reg.DOV_CTL 1 u)) ∧
    (ctl → en → dovRun s = false → dovEnableOk u = true →
      exec (.dovCtlEnWrite v src) s = .next (wrF Reg.DOV_STATUS Fld.DOV_STATUS_RUN 1 (wr Reg.DOV_CTL 1 u))) ∧
    (ctl → en → dovRun s = false → dovEnableOk u = false → exec (.dovCtlEnWrite v src) s = .next (refuse src Reg.DOV_CTL u)) ∧
    (ctl → ¬ en → exec (.dovCtlEnWrite v src) s = .next (wr Reg.DOV_CTL 0 u)) ∧
    (tok → getF Fld.DOV_CTX_TOKENS_TOKENS v ≤ 16384 → ∃ t, exec (.dovCtxTokensWrite c v src) s = .next t ∧
      rd (Reg.DOV_CTX_TOKENS c) t = w64 (getF Fld.DOV_CTX_TOKENS_TOKENS v) ∧
      (∀ off, off ≠ Reg.DOV_CTX_TOKENS c → rd off t = rd off u) ∧ t.tabs = s.tabs ∧ t.dov = s.dov) ∧
    (tok → 16384 < getF Fld.DOV_CTX_TOKENS_TOKENS v →
      exec (.dovCtxTokensWrite c v src) s = .next (refuse src (Reg.DOV_CTX_TOKENS c) u))) ∧
  (∀ (v : Word) (src : Src) (s : State), Quiet s → s.priv = false →
    let u := arrived src s
    let writes := fun (i : Instr) (data addr n : Nat) (key : Nat → Nat) (mask : Nat → Word) (ok : Nat → State → Bool) =>
      Reaches src data (.write v) s →
        let k := (rd addr u).toNat % 2 ^ n
        let t := tbW (key k) ((tb (key k) u &&& ~~~(mask k)) ||| (v &&& mask k)) u
        exec i s = .next (wr addr (w64 ((k + 1) % 2 ^ n))
          (if dovRun s = false ∧ ok k t = true then t else refuse src data u))
    writes (.dovLayerDataAccess (.write v) src) Reg.DOV_LAYER_DATA Reg.DOV_LAYER_ADDR 10 Tab.LAYER
      (fun k => [0xFFFFFFFFFFCFFFFF, 0xFFFFFFFFFFFFFFFF, 0xFFFFFFFF00000000, 0].getD (k % 4) 0) (fun k t => layerOk (k / 4) t) ∧
    writes (.dovSelDataAccess (.write v) src) Reg.DOV_SEL_DATA Reg.DOV_SEL_ADDR 21 Tab.SEL
      (fun k => if k % 2 = 0 then 0xFFFFFFFFFFFFF000 else 0) (fun _ _ => true) ∧
    writes (.dovDispDataAccess (.write v) src) Reg.DOV_DISP_DATA Reg.DOV_DISP_ADDR 9 Tab.DISP
      (fun k => if k % 2 = 0 then 0xFFFFFFFFFFFFFC00 else 0xFFFFFFFFFFFFFFFF) (fun k t => dispOk (k / 2) t) ∧
    writes (.dovMapDataAccess (.write v) src) Reg.DOV_MAP_DATA Reg.DOV_MAP_ADDR 22 Tab.MAP
      (fun k => [0x3FFFFFFFFFFFFFFF, 0xFFFFFFFFFFFFFFFF, 0xFFFFFFFF00000000, 0].getD (k % 4) 0) (fun _ _ => true) ∧
    writes (.dovLocDataAccess (.write v) src) Reg.DOV_LOC_DATA Reg.DOV_LOC_ADDR 14 Tab.LOC
      (fun k => [0xFFFFFFFFFFFFFFFF, 0xFFFFFFFFFFFFF800, 0xFFFFFFFFFFFFFF00, 0].getD (k % 4) 0) (fun k t => locOk (k / 4) t))

/-- A layer descriptor starts at the step start or after the one before it in its context. It opens its intake; with
LAYER_SKIP every token counts as skipped and it is done at once, and so is one without tokens. A token whose record is formed
enters the capacity walk in its turn. Its ranks are walked in order with the copies that the descriptor has booked so far; a
skipped token books none and is counted; the next token may follow after the room tests, and after the last one the
descriptor is done. Where RSEM holds RNUM, the Dovetail takes it and reads the result rows of the entry: its semaphore falls
by RNUM, and it asks for every tile of the rows once. -/
def Obligations.LayersRun : Prop :=
  (∀ (d c : Nat) (x : DovDesc) (s : State), Working s → dovDesc d s = some x → x.started = none →
    startCycle x s = some c → ctxState x.ctx s = 1 → bitAt s.glueHold x.ctx = false →
    let at' := max s.cycle c
    let skips := lyF d 0 Fld.LAYER0_LAYER_SKIP s = 1
    (¬ skips → x.num ≠ 0 → exec (.layerDescriptorStart d) s =
      .next (setDesc { x with started := some at', walkFree := at' } (advanceTo c s))) ∧
    (skips ∨ x.num = 0 → ∃ u y, exec (.layerDescriptorStart d) s = .next (settle u) ∧ u.cycle = at' ∧
      dovDesc d u = some y ∧ y.started = some at' ∧ y.done = some at' ∧ y.store = [] ∧
      rd Reg.DOV_TOKEN_SKIP u = rd Reg.DOV_TOKEN_SKIP s + w64 x.num)) ∧
  (∀ (d t : Nat) (x : DovDesc) (k : DovTok) (s : State), Working s → dovDesc d s = some x →
    x.toks.find? (fun k => k.t == t && k.formed) = some k → x.walked = t → x.done = none →
    let v := advanceTo (max k.ready x.walkFree) s
    let w := (walkRanks d (lyF d 0 Fld.LAYER0_K s) (tokenTag x t v) k.cand (upto (lyF d 0 Fld.LAYER0_K s)) ⟨x.used, [], 0, []⟩ v).1
    ∃ u y, exec (.capacityWalkEnter d t) s = .next (settle u) ∧ dovDesc d u = some y ∧ y.walked = t + 1 ∧
      (k.skip = true → y.used = x.used ∧ y.walkFree = v.cycle + 1 ∧ rd Reg.DOV_TOKEN_SKIP u = rd Reg.DOV_TOKEN_SKIP s + 1) ∧
      (k.skip = false → y.used = w.used ∧ y.walkFree = v.cycle + w.tests + 1) ∧
      (t + 1 = x.num → y.done = some u.cycle ∧ y.store = []) ∧ (t + 1 ≠ x.num → y.done = none ∧ y.store = x.store ∧ u.cycle = v.cycle)) ∧
  (∀ (l : Nat) (x : DovX) (e : DovEnt) (s : State), Working s → entNow l s = some (x, e) →
    let sem := lcF' l 2 Fld.LOC2_RSEM s
    let num := lcF' l 2 Fld.LOC2_RNUM s
    let per := 16 / elBytes (partFmt x.d 1 s)
    x.final = true → e.left = some 0 → e.rows ≠ [] → e.asked = false → num ≤ semValue sem s → ctxState x.ctx s = 1 →
    ∃ u, exec (.outboxRead l) s = .next (settle u) ∧ semValue sem u = semValue sem s - num ∧
      dovX x.d x.step u = some (setEnt x { e with asked := true,
                                                  toRead := (e.rows.length + per - 1) / per * colBlocks x.d s }))

/-- A score tile that arrives at a Dovetail port of a context belongs to its first descriptor that still wants one of the
kind and is held there, counted in DOV_SCORE_TILES; one that no descriptor wants is discarded and counted; one of a bad
checksum or format, or for which the context's share has no room, stops the context. A Gauge unit takes a token whose group
is ready: the highest keys are its selection and NEXT candidates, the weights follow NORM, and the record is ready a fixed
time after the last read. A skipped token has neither scores nor weights. The record counts a NaN score when it is formed. -/
def Obligations.ScoresAreSelected : Prop :=
  (∀ (b q c : Nat) (r : Run) (s : State), Acts b q s → dovMove b q s = some r →
    s.sbad.contains (btKey b (r.op.tile + r.prog)) = false →
    let f := fdescOf b r.op.aux s
    let p := getF Fld.FDESC_ENDPOINT f - 0x600
    let kind := getF Fld.FDESC_REMOTE f
    let x := benchTile b (r.op.tile + r.prog) s
    let lastSlot := (slotsFrom (getF Fld.FDESC_SLOTS f) (16 * (r.prog + 1)) r.start).getLastD r.start
    let u := setMove b q r (some { r with prog := r.prog + 1 }) (advanceTo (lastSlot + floorLatency f) s)
    let owned := (upto 16).find? (fun k => bitAt (dovPorts k s) p) = some c
    let wants := fun (y : DovDesc) => y.ctx = c ∧ y.done = none ∧ tilesTaken y kind < tilesWanted y kind s
    let first := fun (y : DovDesc) => ∃ before after, s.dov.descs = before ++ y :: after ∧ wants y ∧ ∀ z ∈ before, ¬ wants z
    let good := tagF Fld.TAG_CRC x.tag = crc32c x.payload ∧ tagF Fld.TAG_FORMAT x.tag = fmtFP32
    let lands := fun (t : State) => exec (.scoreTileArrive b q ⟨0, []⟩) s = .next t
    (owned → ctxState c s = 1 → kind ≤ 32 → ∀ y, first y → good → shareUsed c u < storeShare c s →
      lands (setDesc { y with cnt := smPut (fun _ => 0) y.cnt kind (tilesTaken y kind + 1),
                              store := y.store ++ [(kind, tilesTaken y kind, x)] } (bump Reg.DOV_SCORE_TILES u))) ∧
    (owned → ctxState c s = 1 → kind ≤ 32 → ∀ y, first y → ¬ good →
      lands (settle (dovFault 0x0401 kLayer y.d c [w64 (0x600 + p), w64 (tagF Fld.TAG_CRC x.tag)] u))) ∧
    (owned → ctxState c s = 1 → kind ≤ 32 → ∀ y, first y → good → storeShare c s ≤ shareUsed c u →
      lands (settle (dovFault 0x0402 kLayer y.d c [w64 (0x600 + p)] u))) ∧
    (owned → ctxState c s ≠ 1 ∨ 32 < kind ∨ (∀ y ∈ s.dov.descs, ¬ wants y) → s.dov.disc.contains c = true →
      lands (bump Reg.DOV_INTAKE_DISCARD u)) ∧
    ((upto 16).find? (fun k => bitAt (dovPorts k s) p) = none → lands (bump Reg.DOV_INTAKE_DISCARD u))) ∧
  (∀ (d t c0 c1 : Nat) (x : DovDesc) (s : State), Working s → dovDesc d s = some x →
    let n := (gauges x.ctx s).length
    let free := if t < n then some 0 else (x.toks.find? (fun k => k.t + n == t)).map (·.readEnd)
    let at' := max s.cycle (max c0 c1)
    let skip := tokenSkips x t s
    let raw := if skip then [] else rawScores x t s
    let k := lyF d 0 Fld.LAYER0_K s
    let top := (ranked x raw s).take (k + lyF d 0 Fld.LAYER0_DEPTH s)
    let ws := if skip then [] else weights (lyF d 0 Fld.LAYER0_NORM s) ((top.take k).map (fun e => raw.getD e .nan)) raw
      (f32 (lyF d 1 Fld.LAYER1_WSCALE s))
    let fin := at' + gaugeCycles d skip s
    (x.started = some c0 → free = some c1 → x.done = none → 0 < n → t < x.num → (∀ y ∈ x.toks, y.t ≠ t) → groupReady x t s = true →
      exec (.gaugeTokenStart d t) s = .next (setDesc { x with toks := x.toks ++
        [⟨t, skip, raw.any isNan, top, ws.map toF32, fin, fin - 1 + readyCycles d s, false⟩] } (advanceTo (max c0 c1) s))) ∧
    (∀ y, x.toks.find? (fun k => k.t == t && !k.formed) = some y → exec (.selectionReady d t) s =
      .next (setDesc { x with toks := x.toks.map (fun z => if z.t = t then { z with formed := true } else z) }
        (if y.nan then bump Reg.DOV_SCORE_NAN (advanceTo y.ready s) else advanceTo y.ready s))))

/-- A booked transfer of the Dovetail takes place in its cycle. A tile written to an inbox or an output lands with a fresh
checksum; a source tile or an outbox tile read with the right format is kept, and the last one lets the parts or the
results go; a tile that fails its check stops the context. -/
def Obligations.DovetailTransfersLand : Prop :=
  ∀ (j : Nat) (z : DovXfer) (x : DovX) (s : State), Working s → s.dov.xfers[j]? = some z → dovX z.d z.step s = some x →
    let u := setDv (fun v => { v with xfers := v.xfers.eraseIdx j }) (advanceTo z.due s)
    let lands := fun (t : State) => exec (.dovetailTileTransferDone j ⟨0, []⟩) s = .next t
    let tile := (z.bench, z.btile, (benchTile z.bench z.btile s).payload)
    let good := fun (fmt : Nat) => z.btile < 384 ∧ checkOk z.bench z.btile s = true ∧
      tagF Fld.TAG_FORMAT (benchTag z.bench z.btile s) = fmt
    let got := { x with srcLeft := x.srcLeft - 1, srcTiles := x.srcTiles ++ [tile] }
    (∀ l p e, z.use = .inbox l p → x.ents.find? (fun y => y.l == l) = some e →
      lands (setDovX (setEnt x { e with left := e.left.map (· - 1) }) (dovLand z.bench z.btile (partFmt z.d 0 s) 0 p u))) ∧
    (z.use = .source → good (partFmt z.d 0 s) → x.srcLeft ≠ 1 → x.srcLeft ≠ 0 → lands (setDovX got u)) ∧
    (z.use = .source → good (partFmt z.d 0 s) → x.srcLeft = 1 → lands (settle (dispatchSend got (setDovX got u)))) ∧
    (∀ l e, z.use = .outbox l → good (partFmt z.d 1 s) → x.ents.find? (fun y => y.l == l) = some e → 1 < e.toRead →
      lands (setDovX (setEnt x { e with toRead := e.toRead - 1, tiles := e.tiles ++ [tile] }) u)) ∧
    (∀ p fl, z.use = .output p fl →
      lands (settle (outDone z.d z.step (dovLand z.bench z.btile (dpF z.d 0 Fld.DISP0_OFMT s) fl p u)))) ∧
    (z.use = .source → 384 ≤ z.btile → lands (settle (dovFault 0x0406 kLayer z.d x.ctx [w64 z.bench, w64 z.btile] u))) ∧
    (∀ l, z.use = .outbox l → 384 ≤ z.btile →
      lands (settle (dovFault 0x0408 kLocal l x.ctx [w64 z.bench, w64 z.btile] u)))

/-- A write of FAB_PORT_CTL stores its bits. ENABLE takes a DISABLED port to DETECT in a running device and clearing it takes the
port to DISABLED; RESET does one after the other; RETRAIN of an ACTIVE port tries all lanes again. A port that leaves
gives back what it had not delivered. FAB_LINK_CFG takes a value while the port is DISABLED or DOWN. -/
def Obligations.PortControlCompletes : Prop :=
  ∀ (n : Nat) (v : Word) (src : Src) (s : State), n < 16 → Quiet s → fabricOn s = true → s.priv = false →
    let u := arrived src s
    let at' := fun (m : Word) => Reaches src (Reg.FAB_PORT_CTL n) (.write m) s
    let p := portOf n s
    let bit := fun (f : Fld) => getF f v = 1
    let reset := v ||| maskF Fld.FAB_PORT_CTL_RESET
    let retrain := v ||| maskF Fld.FAB_PORT_CTL_RETRAIN
    let kept := fun (m : Word) (t : State) => rd (Reg.FAB_PORT_CTL n) t = m &&& 0x19
    let detects := fun (t : State) => portState n t = 1 ∧ (portOf n t).attempts = 0 ∧ (portOf n t).entered = s.cycle
    let left := fun (t : State) => rd (Reg.FAB_DOWNS n) t = rd (Reg.FAB_DOWNS n) s + 1 ∧
      (portOf n t).txq = [] ∧ (portOf n t).retry = [] ∧ t.work = if undelivered p = [] then [] else [.giveBack n (undelivered p)]
    let quietly := ¬ bit Fld.FAB_PORT_CTL_RESET ∧ ¬ bit Fld.FAB_PORT_CTL_RETRAIN
    (at' v → quietly → bit Fld.FAB_PORT_CTL_ENABLE → portState n s = 0 →
      ∃ t, exec (.fabPortEnable n v src) s = .next t ∧ detects t ∧ kept v t) ∧
    (at' v → quietly → bit Fld.FAB_PORT_CTL_ENABLE → portState n s ≠ 0 →
      exec (.fabPortEnable n v src) s = .next (wr (Reg.FAB_PORT_CTL n) (v &&& 0x19) u)) ∧
    (at' v → ¬ bit Fld.FAB_PORT_CTL_ENABLE → portState n s ≠ 0 →
      ∃ t, exec (.fabPortEnable n v src) s = .next (settleAll t) ∧ portState n t = 0 ∧ left t ∧ kept v t) ∧
    (at' reset → ¬ bit Fld.FAB_PORT_CTL_RETRAIN → bit Fld.FAB_PORT_CTL_ENABLE → portState n s ≠ 0 →
      ∃ t, exec (.fabPortReset n v src) s = .next (settleAll t) ∧ detects t ∧ left t ∧ kept v t) ∧
    (at' retrain → ¬ bit Fld.FAB_PORT_CTL_RESET → bit Fld.FAB_PORT_CTL_ENABLE → portState n s = 5 →
      ∃ t, exec (.fabPortRetrain n v src) s = .next t ∧ portState n t = 6 ∧ widthCode n t = 3 ∧ badLanes n t = 0 ∧
        (portOf n t).tries = 0 ∧ (portOf n t).fallback = widthCode n s ∧ kept v t) ∧
    (Reaches src (Reg.FAB_LINK_CFG n) (.write v) s → portState n s = 0 ∨ portState n s = 7 →
      exec (.fabLinkCfgWrite n v src) s = .next (wr (Reg.FAB_LINK_CFG n) v u)) ∧
    (Reaches src (Reg.FAB_LINK_CFG n) (.write v) s → portState n s ≠ 0 → portState n s ≠ 7 →
      exec (.fabLinkCfgWrite n v src) s = .next (refuse src (Reg.FAB_LINK_CFG n) u))

/-- Training in order: signal, EQ, IDENT, ALIGN, ACTIVE. Each stage that ends in time goes on to the next; EQ may leave the port
at width 4; a partner that does not fit, or has no version in common, takes the port DOWN; and the time of a stage
that runs out costs an attempt, the last of which takes the port DOWN. A port DOWN with AUTO tries again. -/
def Obligations.PortTrains : Prop :=
  ∀ (n half invert delay : Nat) (eyes pools : List Nat) (ident : Word) (s : State), n < 16 → Working s →
    let p := portOf n s
    let st := portState n s
    let enters := fun (k now : Nat) (t : State) => portState n t = k ∧ (portOf n t).entered = now ∧ t.cycle = now
    let lane := fun (f : Fld) (l : Nat) (t : State) => rdF (Reg.FAB_LANE_STATUS n l) f t
    let measured := fun (lock : Nat) (t : State) => ∀ l < 8, lane Fld.FAB_LANE_STATUS_INVERT l t = b2n (bitAt invert l) ∧
      lane Fld.FAB_LANE_STATUS_EYE l t = eyes.getD l 0 % 256 ∧ lane Fld.FAB_LANE_STATUS_LOCK l t = b2n (bitAt lock l) ∧
      lane Fld.FAB_LANE_STATUS_BAD l t = 1 - b2n (bitAt lock l)
    let down := fun (cause : Nat) (u : State) => portState n u = 7 ∧ psF n Fld.FAB_PORT_STATUS_DOWN_CAUSE u = cause ∧
      rd (Reg.FAB_DOWNS n) u = rd (Reg.FAB_DOWNS n) s + 1
    let fails := fun (i : Instr) (due : Nat) =>
      (p.attempts + 1 < lcF n Fld.FAB_LINK_CFG_ATTEMPTS s → ∃ t, exec i s = .next t ∧ enters 1 (max s.cycle due) t ∧
        (portOf n t).attempts = p.attempts + 1 ∧ widthCode n t = 0) ∧
      (lcF n Fld.FAB_LINK_CFG_ATTEMPTS s ≤ p.attempts + 1 → ∃ u, exec i s = .next (settle u) ∧ down 1 u)
    let word := ident &&& ~~~(maskF ⟨43, 5⟩) &&& ~~~(maskF ⟨0, 24⟩)
    let timely := selfValid s = true ∧ s.cycle ≤ p.entered + msCycles 1
    let wide := pcBit n Fld.FAB_PORT_CTL_MINW s = false
    (half < 2 → st = 1 → p.cblOn = true → ∃ t, exec (.linkSignalDetect n half) s = .next t ∧ enters 2 s.cycle t) ∧
    (half < 2 → st = 1 → p.cblOn = false → exec (.linkSignalDetect n half) s = .next s) ∧
    (st = 2 → s.cycle ≤ p.entered + msCycles 50 → ∃ t, exec (.eqDone n invert eyes) s = .next t ∧ enters 3 s.cycle t ∧
      widthCode n t = 3 ∧ measured 255 t) ∧
    (st = 2 → wide → ∃ t, exec (.eqTimeout n true false invert eyes) s = .next t ∧
      enters 3 (max s.cycle (p.entered + msCycles 50)) t ∧ widthCode n t = 1 ∧ measured 0x0F t ∧
      rd (Reg.FAB_DEGRADES n) t = rd (Reg.FAB_DEGRADES n) s + 1) ∧
    (st = 2 → wide → ∃ t, exec (.eqTimeout n false true invert eyes) s = .next t ∧
      enters 3 (max s.cycle (p.entered + msCycles 50)) t ∧ widthCode n t = 2 ∧ measured 0xF0 t ∧
      rd (Reg.FAB_DEGRADES n) t = rd (Reg.FAB_DEGRADES n) s + 1) ∧
    (st = 2 → ∀ x y, x = y ∨ ¬ wide → fails (.eqTimeout n x y invert eyes) (p.entered + msCycles 50)) ∧
    (st = 3 → timely → partnerOk n ident s = true → versionOk n ident = true → ∃ t, exec (.identExchange n ident pools) s = .next t ∧
      enters 4 s.cycle t ∧ rd (Reg.FAB_PORT_PARTNER n) t = word ∧ (portOf n t).ownAdv = ownPools s) ∧
    (st = 3 → timely → partnerOk n ident s = false → ∃ u, exec (.identExchange n ident pools) s = .next (settle u) ∧ down 2 u) ∧
    (st = 3 → timely → partnerOk n ident s = true → versionOk n ident = false →
      ∃ u, exec (.identExchange n ident pools) s = .next (settle u) ∧ down 7 u) ∧
    (st = 3 → fails (.identTimeout n) (p.entered + msCycles 1)) ∧ (st = 4 → fails (.alignTimeout n) (p.entered + msCycles 1)) ∧
    (st = 4 → s.cycle ≤ p.entered + msCycles 1 → ∃ u, exec (.alignLock n delay) s = .next (settle (pumpAll u)) ∧
      enters 5 s.cycle u ∧ rd (Reg.DET_PORT_DELAY n) u = w64 (2 ^ 63 + delay % 2 ^ 20) ∧ (portOf n u).retry = [] ∧
      (portOf n u).nextSeq = 0 ∧ (portOf n u).exp = 0 ∧ (portOf n u).adv = p.adv ∧ (portOf n u).txq = p.txq) ∧
    (st = 7 → pcBit n Fld.FAB_PORT_CTL_AUTO s = true → ∃ t, exec (.downRetryExpire n) s = .next t ∧
      enters 1 (max s.cycle (p.entered + msCycles (lcF n Fld.FAB_LINK_CFG_DOWN_RETRY_MS s))) t ∧ (portOf n t).attempts = 0)

/-- RETRAIN: the partner's pattern or a lane that is lost moves an ACTIVE port into it; the lock brings the port back with a NAK
owed; 20 µs without lock is another try at the width to which it falls back, or DOWN after ATTEMPTS tries. A lane lost
leaves the half without BAD lanes, and MINW, or BAD lanes in both halves, takes the port DOWN. -/
def Obligations.PortRetrains : Prop :=
  ∀ (n l delay : Nat) (s : State), n < 16 → l < 8 → Working s →
    let p := portOf n s
    let st := portState n s
    let bad := badLanes n s ||| 2 ^ l
    let lock := fun (k : Nat) (t : State) => rdF (Reg.FAB_LANE_STATUS n k) Fld.FAB_LANE_STATUS_LOCK t
    let active := st = 5 ∧ bitAt (widthLanes (widthCode n s)) l = true
    let narrow := pcBit n Fld.FAB_PORT_CTL_MINW s = true ∨ (bad % 16 ≠ 0 ∧ bad / 16 ≠ 0)
    let half := if bad % 16 = 0 then 1 else 2
    let down := fun (cause : Nat) (u : State) => portState n u = 7 ∧ psF n Fld.FAB_PORT_STATUS_DOWN_CAUSE u = cause ∧
      rd (Reg.FAB_DOWNS n) u = rd (Reg.FAB_DOWNS n) s + 1
    (st = 5 → ∃ t, exec (.retrainPatternDetect n) s = .next t ∧ portState n t = 6 ∧ widthCode n t = widthCode n s ∧
      (portOf n t).tries = 0 ∧ (portOf n t).fallback = widthCode n s ∧ (portOf n t).retry = p.retry) ∧
    (st = 6 → s.cycle ≤ p.entered + 17000 → ∃ u, exec (.retrainLock n delay) s = .next (settle (pumpAll u)) ∧
      portState n u = 5 ∧ (portOf n u).nakOwed = true ∧ (portOf n u).replay = [] ∧ (portOf n u).retry = p.retry ∧
      rd (Reg.FAB_RETRAINS n) u = rd (Reg.FAB_RETRAINS n) s + 1 ∧
      rd (Reg.DET_PORT_DELAY n) u = w64 (2 ^ 63 + delay % 2 ^ 20)) ∧
    (st = 6 → p.tries + 1 < lcF n Fld.FAB_LINK_CFG_ATTEMPTS s → ∃ t, exec (.retrainTimeout n) s = .next t ∧ portState n t = 6 ∧
      widthCode n t = p.fallback % 4 ∧ (portOf n t).tries = p.tries + 1 ∧ t.cycle = max s.cycle (p.entered + 17000) ∧
      (portOf n t).entered = t.cycle) ∧
    (st = 6 → lcF n Fld.FAB_LINK_CFG_ATTEMPTS s ≤ p.tries + 1 → ∃ u, exec (.retrainTimeout n) s = .next (settle u) ∧ down 4 u) ∧
    (¬ active → exec (.laneLockLost n l) s = .next (wrF (Reg.FAB_LANE_STATUS n l) Fld.FAB_LANE_STATUS_LOCK 0 s)) ∧
    (active → ¬ narrow → ∃ t, exec (.laneLockLost n l) s = .next t ∧ portState n t = 6 ∧ widthCode n t = half ∧
      badLanes n t = bad ∧ lock l t = 0 ∧ (portOf n t).fallback = half ∧
      rd (Reg.FAB_DEGRADES n) t = rd (Reg.FAB_DEGRADES n) s + 1) ∧
    (active → narrow → ∃ u, exec (.laneLockLost n l) s = .next (settle u) ∧ down 6 u) ∧
    (∃ u, exec (.lanePllUnlock n) s = .next (settle u) ∧ (∀ k < 8, lock k u = 0) ∧
      (st = 5 → widthCode n s ≠ 0 → portState n u = 6 ∨ portState n u = 7) ∧ (st ≠ 5 → portState n u = st)) ∧
    (powerGood s = true → exec (.cbl3v3Overcurrent n) s = .next (setPort n { p with cblOn := false } s) ∧
      exec (.cbl3v3Retry n) s = .next (setPort n { p with cblOn := true } s))

/-- An ACTIVE port sends one FEC block a command, its first flit a NAK where one is owed. A block that cannot be corrected is
counted and asks for a NAK, the eighth in a row starts RETRAIN, and one that can counts its corrections. The replay
timer replays every unacknowledged flit and, at RETRY_MAX replays from one SEQ, starts RETRAIN; a NAK-wait that lasts owes
another NAK. Nothing happens at a port that is not ACTIVE. -/
def Obligations.PortCarriesBlocks : Prop :=
  ∀ (n seq t0 : Nat) (f : Flit) (rest : List (Nat × Flit)) (bytes : List Byte) (s : State), n < 16 → Working s →
    let p := portOf n s
    let cfg := fun (x : Fld) => lcF n x s
    let raw := scramble (laneNum n s) p.rxPrbs bytes
    let got := bytes.length = 800
    let replay := p.since + nsCycles (cfg Fld.FAB_LINK_CFG_REPLAY_NS)
    (portState n s = 5 → ∃ t block, exec (.fecBlockSend n) s = .next (settle t) ∧ t.sent = s.sent ++ [.block n block] ∧
      rd (Reg.FAB_NAK_SENT n) t = rd (Reg.FAB_NAK_SENT n) s + (if p.nakOwed then 1 else 0) ∧
      (portOf n t).nakOwed = false) ∧
    (portState n s = 5 → got → fecDecode raw.1 = none → ∃ t, exec (.fecBlockReceive n bytes) s = .next t ∧
      rd (Reg.FAB_FEC_UNCORR n) t = rd (Reg.FAB_FEC_UNCORR n) s + 1 ∧ (portOf n t).badBlocks = p.badBlocks + 1 ∧
      (portOf n t).rxPrbs = raw.2 ∧ (portOf n t).nakWait.isSome = true ∧
      (p.nakWait = none → (portOf n t).nakOwed = true ∧ (portOf n t).nakWait = some s.cycle) ∧
      portState n t = if p.badBlocks + 1 = 8 then 6 else 5) ∧
    (portState n s = 5 → got → ∀ fl fixed, fecDecode raw.1 = some (fl, fixed) → ∃ u,
      exec (.fecBlockReceive n bytes) s = .next (settle u) ∧ (portOf n u).badBlocks = 0 ∧
      rd (Reg.FAB_FEC_CORR n) u = rd (Reg.FAB_FEC_CORR n) s + w64 fixed.length) ∧
    (portState n s = 5 → p.retry = (seq, f) :: rest → ∃ t, exec (.replayTimerExpire n) s = .next t ∧
      t.cycle = max s.cycle replay ∧ (portOf n t).replay = p.retry ∧ (portOf n t).replayFirst = true ∧
      (portOf n t).replays = p.replays + 1 ∧ (portOf n t).lastReplay = some (seq, t.cycle) ∧
      portState n t = if p.replays + 1 = cfg Fld.FAB_LINK_CFG_RETRY_MAX then 6 else 5) ∧
    (portState n s = 5 → p.nakWait = some t0 → ∃ t, exec (.nakWaitExpire n) s = .next t ∧
      t.cycle = max s.cycle (t0 + nsCycles (cfg Fld.FAB_LINK_CFG_REPLAY_NS)) ∧ (portOf n t).nakOwed = true ∧
      (portOf n t).nakWait = some t.cycle) ∧
    (portState n s ≠ 5 → exec (.fecBlockSend n) s = .next s ∧ exec (.fecBlockReceive n bytes) s = .next s ∧
      exec (.replayTimerExpire n) s = .next s ∧ exec (.nakWaitExpire n) s = .next s)

/-- A START that may not begin is refused with its reason; one whose tables have the expected digest enters ACTIVE with its KEY,
EPOCH and tree. TEARDOWN of the ACTIVE job bumps the epoch and drains; when no job flit is left, or after DRAIN_MS, the
job state is cleared. -/
def Obligations.JobsStartAndEnd : Prop :=
  ∀ (key epoch tree : Nat) (byPacket : Bool) (v : Word) (src : Src) (s : State),
    let u := arrived src s
    let go := v ||| maskF Fld.FAB_JOB_CTL_START
    let stop := v ||| maskF Fld.FAB_JOB_CTL_TEARDOWN
    let k := rdF Reg.FAB_START Fld.FAB_START_KEY s
    let e := rdF Reg.FAB_START Fld.FAB_START_EPOCH s
    let expect := (upto 4).map (fun i => (rd (Reg.FAB_EXPECT i) s).toNat)
    let asked := Quiet s ∧ Reaches src Reg.FAB_JOB_CTL (.write go) s ∧ bitF Fld.FAB_JOB_CTL_TEARDOWN v = false
    let refused := fun (r : Nat) (t : State) =>
      let t' := wrF Reg.FAB_JOB Fld.FAB_JOB_REASON r t
      log 0x0808 kNone 0 none [rd Reg.FAB_JOB t'] t'
    let free := s.xport.start = none ∧ jobState s = 0
    let stale := k = jobKey s ∧ (e = jobEpoch s ∨ e = (jobEpoch s + 65535) % 65536)
    let runs' := fun (k e tr : Nat) (t : State) => jobState t = 1 ∧ jobKey t = k ∧ jobEpoch t = e ∧
      rdF Reg.FAB_JOB Fld.FAB_JOB_JOBTREE t = tr ∧ t.xport.start = none
    let drains := fun (t : State) => jobState t = 2 ∧ jobEpoch t = (jobEpoch s + 1) % 65536 ∧ t.xport.drainAt = s.cycle ∧
      (∀ n < 16, ∀ x ∈ (portOf n t).txq, jobItem x = false) ∧ (∀ p ∈ t.xport.tx, p.waiting = [])
    let cleared := fun (t : State) => jobState t = 0 ∧ rd Reg.FAB_RANK t = 0 ∧ t.dov = Dov.empty
    let started := s.xport.start = some (key, epoch, tree, byPacket) ∧ Working s
    (asked → ¬ free → exec (.fabJobCtlStart v src) s = .next (refused 1 u)) ∧
    (asked → free → k = 0 → exec (.fabJobCtlStart v src) s = .next (refused 2 u)) ∧
    (asked → free → k ≠ 0 → stale → exec (.fabJobCtlStart v src) s = .next (refused 3 u)) ∧
    (asked → free → k ≠ 0 → ¬ stale → digestIs expect (digestNow u) = true → (selfRanks s).length ≤ 1 → routeLacks s = false →
      ∃ t, exec (.fabJobCtlStart v src) s = .next (settleAll t) ∧ runs' k e (rdF Reg.FAB_START Fld.FAB_START_JOBTREE s) t ∧
        rd Reg.FAB_SETUP_REUSE t = rd Reg.FAB_SETUP_REUSE s + 1) ∧
    (started → portsTrain s = true → exec .startPortsReady s = .next s) ∧
    (started → portsTrain s = false → (selfRanks s).length ≤ 1 → routeLacks s = false → 0 < key → key < 2 ^ 32 → epoch < 2 ^ 16 →
      tree < 256 → ∃ t, exec .startPortsReady s = .next (settle t) ∧ runs' key epoch tree t) ∧
    (Quiet s → Reaches src Reg.FAB_JOB_CTL (.write stop) s → bitF Fld.FAB_JOB_CTL_START v = false → jobState s = 1 →
      ∃ t, exec (.fabJobCtlTeardown v src) s = .next (settleAll t) ∧ drains t) ∧
    (Quiet s → Reaches src Reg.FAB_JOB_CTL (.write stop) s → bitF Fld.FAB_JOB_CTL_START v = false → jobState s ≠ 1 →
      exec (.fabJobCtlTeardown v src) s = .next u) ∧
    (Working s → jobState s = 2 → (∀ n < 16, jobFlits n s = false) → ∃ t, exec .drainComplete s = .next (settle t) ∧ cleared t) ∧
    (Working s → jobState s = 2 → (∃ n < 16, jobFlits n s = true) → exec .drainComplete s = .next s) ∧
    (Working s → jobState s = 2 → ∃ t, exec .drainTimeout s = .next (settle t) ∧ cleared t ∧
      t.cycle = max s.cycle (s.xport.drainAt + msCycles (rdF Reg.FAB_NET_CFG Fld.FAB_NET_CFG_DRAIN_MS s)) ∧
      ∀ n < 16, jobFlits n s = true → rd (Reg.FAB_DOWNS n) t = rd (Reg.FAB_DOWNS n) s + 1 ∨ portState n s = 0)

/-- The packets that tell of a job and of a tree. JOB_START acts as a START does and TEARDOWN ends the job of its KEY; RESEND and
REATTACH send what the cut list holds again, the second after adopting the sender; ROOT takes a TREE_FAIL as its first
report of that rank. A tree timer asks the parent to resend, and then an ancestor to take the device over. -/
def Obligations.JobAndTreePackets : Prop :=
  ∀ (n t c g : Nat) (p : Packet) (a : RxPkt) (s : State),
    let v := takePacket n a s
    let w := pkC p 1
    let mine := fun (k : Nat) => Takes n p a s ∧ ctlIs k p = true
    let free := s.xport.start = none ∧ jobState s = 0
    let tr := bitsOf w 63 56
    let f := bitsOf w 55 41
    let x := treeSt t s
    let at' := max s.cycle (x.when + usCycles (rdF Reg.FAB_XPORT_CFG Fld.FAB_XPORT_CFG_TREE_TIMEOUT_US s))
    let now := advanceTo at' s
    (mine 1 → ¬ free → ∃ u, exec (.jobStart n p) s = .next (settle u) ∧ rdF Reg.FAB_JOB Fld.FAB_JOB_REASON u = 1 ∧
      jobState u = jobState s) ∧
    (mine 1 → free → w % 2 ^ 32 ≠ 0 → w % 2 ^ 32 ≠ jobKey s → digestIs ((upto 4).map (fun i => pkC p (2 + i))) (digestNow v) = true →
      (selfRanks s).length ≤ 1 → routeLacks s = false → ∃ u, exec (.jobStart n p) s = .next (settle u) ∧ jobState u = 1 ∧
        jobKey u = w % 2 ^ 32 ∧ jobEpoch u = w / 2 ^ 32 % 2 ^ 16) ∧
    (mine 2 → jobState s = 1 → w % 2 ^ 32 = jobKey s → ∃ u, exec (.teardown n p) s = .next (settle u) ∧ jobState u = 2 ∧
      jobEpoch u = (jobEpoch s + 1) % 65536) ∧
    (mine 2 → w % 2 ^ 32 ≠ jobKey s → exec (.teardown n p) s = .next v) ∧
    (mine 3 → rankAt (pkN0 p Pk.SRC) s = some c →
      exec (.resend n p) s = .next (settle (treeResend tr (bitsOf w 47 16) c none v))) ∧
    (mine 3 → rankAt (pkN0 p Pk.SRC) s = none → exec (.resend n p) s = .next v) ∧
    (mine 4 → rankAt (pkN0 p Pk.SRC) s = some c → ∃ u, exec (.reattach n p) s = .next (settle u) ∧ (c, f) ∈ (treeSt tr u).adopted) ∧
    (mine 4 → rankAt (pkN0 p Pk.SRC) s = none → exec (.reattach n p) s = .next v) ∧
    (mine 5 → ownRank s = some (treeRoot tr s) → f ∉ (treeSt tr s).reported → ∃ u, exec (.treeFail n p) s = .next u ∧
      rd Reg.FAB_TREE_FAILED u = w64 (2 ^ 63 + tr * 2 ^ 15 + f) ∧ rd Reg.FAB_TREE_FAILS u = rd Reg.FAB_TREE_FAILS s + 1 ∧
      f ∈ (treeSt tr u).reported) ∧
    (mine 5 → ownRank s ≠ some (treeRoot tr s) ∨ f ∈ (treeSt tr s).reported → exec (.treeFail n p) s = .next v) ∧
    (Working s → x.mode = 0 → x.opened = false → exec (.treeTimeout t) s = .next s) ∧
    (Working s → x.mode = 0 → x.opened = true → exec (.treeTimeout t) s =
      .next (sendCtlRank x.parent 3 [x.tree * 2 ^ 56 + x.e * 2 ^ 16] (setTree { x with mode := 1, when := at' } now))) ∧
    (Working s → x.mode = 1 → treeParent t x.parent s = some g → exec (.treeTimeout t) s =
      .next (sendCtlRank g 4 [t * 2 ^ 56 + x.parent * 2 ^ 41, x.e] (bump Reg.FAB_TREE_REATTACH
        (setTree { x with mode := 2, failed := x.parent, parent := g, when := at' } now))))

/-- A CHUNK or an EMPTY packet of a pair. One whose header check fails is dropped and counted, a chunk whose end-to-end check fails
is asked for again, one already accepted is acknowledged again, and one beyond the window is dropped. The next one in
order is accepted: the pair expects the SEQ after it, and a chunk of a landing descriptor is in its Ruril tile. -/
def Obligations.ChunksAreReceived : Prop :=
  ∀ (n k : Nat) (p : Packet) (a : RxPkt) (x : Tile) (s : State), Takes n p a s →
    let v := takePacket n a s
    let src := pkN0 p Pk.SRCRANK
    let ctx := pkN0 p Pk.CTX
    let seq := pkT p 1 Pk.SEQ
    let r := rxPair src ctx s
    let d := seqSub seq r.e
    let sound := tagF Fld.TAG_CRC x.tag = crc32c x.payload
    let chunk := xportIs 0 p = true ∧ p.tile = some x
    let empty := xportIs 1 p = true ∧ p.tile = none
    let both := fun (premise : Prop) (answer : Host.Outcome State Fault Refusal → Prop) =>
      (chunk → sound → premise → answer (exec (.chunk n p) s)) ∧ (empty → premise → answer (exec (.empty n p) s))
    let pair := hcrcOk p = true ∧ isTree p = false
    let seen := 2 ^ 31 ≤ d ∨ seq ∈ r.ahead
    let far := 256 ≤ d ∨ (0 < d ∧ pkN0 p Pk.ORDERED = 1)
    let next := pair ∧ seq = r.e ∧ r.e < 2 ^ 32 ∧ r.ahead = []
    let chan := pkT p 0 Pk.CHAN
    let taken := fun (u : State) => (rxPair src ctx u).e = (seq + 1) % 2 ^ 32 ∧ (rxPair src ctx u).ahead = [] ∧
      rd Reg.FAB_CHUNKS_RCVD u = rd Reg.FAB_CHUNKS_RCVD s + 1
    (chunk → hcrcOk p = false → exec (.chunk n p) s = .next (bump Reg.FAB_HCRC_FAIL v)) ∧
    (empty → hcrcOk p = false → exec (.empty n p) s = .next (bump Reg.FAB_HCRC_FAIL v)) ∧
    (chunk → pair → ¬ sound → exec (.chunk n p) s = .next (settle (sysSend src ctx
      (sysPacket 3 0 ctx src seq (bump Reg.FAB_E2E_FAIL v)) (bump Reg.FAB_E2E_FAIL v)))) ∧
    both (pair ∧ seen) (fun o => o = .next (settle (ackSend src ctx 0 (bump Reg.FAB_DUP_DROP v)))) ∧
    both (pair ∧ ¬ seen ∧ far) (fun o => o = .next v) ∧
    both (next ∧ ctxState ctx s ≠ 1) (fun o => ∃ u, o = .next (settle u) ∧ taken u ∧ u.ruril = s.ruril) ∧
    (chunk → sound → next → ctxState ctx s = 1 → chan < 0xFFFE → descFor 0 src ctx chan s = some k → xdLand k s = true →
      xdBase k s + pkT p 0 Pk.CHUNK ≤ rtnMax → ∃ u, exec (.chunk n p) s = .next (settle u) ∧ taken u ∧
        rurilTile (xdBase k s + pkT p 0 Pk.CHUNK) u = ⟨x.tag, subBytes x.payload 0 4096⟩)

/-- The packets and timers outside the window. An ACK releases the packets up to its SEQ and marks their records; a SNACK sends
its chunk once more; a SYNC gives a receiver without state its expected SEQ; version 2 cells are kept in staging buffers;
the ACK timer sends what is owed; the resend timer starts afresh for a pair that waits. -/
def Obligations.TransportRepliesAndTimers : Prop :=
  ∀ (n r c phys dsc ctx : Nat) (p : Packet) (a : RxPkt) (y : TxPkt) (q : Packet) (s : State),
    let v := takePacket n a s
    let mine := fun (k : Nat) => Takes n p a s ∧ xportIs k p = true ∧ hcrcOk p = true ∧ isTree p = false
    let dst := pkN0 p Pk.SRCRANK
    let cx := pkN0 p Pk.CTX
    let seq := pkT p 1 Pk.SEQ
    let pair := txPair false dst cx s
    let done := pair.unack.filter (fun z => !seqLt seq z.seq)
    let left := { pair with unack := pair.unack.filter (fun z => seqLt seq z.seq), retries := 0, suspect := false, ticks := 0, advAt := s.cycle }
    let acked := cutMap (fun z => z.ofPair pair && done.any (fun w => w.seq == z.seq)) (fun z => { z with acked := true }) (setTx left v)
    let cell := subBytes p.cells 0 256
    let v2 := Takes n p a s ∧ pkN0 p Pk.VER = 2 ∧ pkN0 p Pk.SRC = phys ∧ p.cells.length = 256
    let tree := decide (2 ^ 17 ≤ r)
    let timer := txPair tree (r % 2 ^ 17) c s
    (mine 2 → done ≠ [] → exec (.ack n p) s = .next (settle (pump false dst cx
      ((done.filter (·.last)).foldl (fun t z => defer (.acked z.owner) t) acked)))) ∧
    (mine 2 → done = [] → pkT p 0 Pk.WAIT ≠ 1 → exec (.ack n p) s = .next v) ∧
    (mine 3 → pair.unack.find? (fun z => z.seq == seq) = some y → mayXmit s = true → rankLive pair.dst s = true → again pair y v = some q →
      ∃ u, exec (.snack n p) s = .next (settle u) ∧ rd Reg.FAB_RESENT_CHUNKS u = rd Reg.FAB_RESENT_CHUNKS s + 1) ∧
    (mine 3 → pair.unack.find? (fun z => z.seq == seq) = none → exec (.snack n p) s = .next v) ∧
    (mine 4 → (∀ z ∈ s.xport.rx, ¬ (z.src = dst ∧ z.ctx = cx)) → exec (.xportSync n p) s = .next (setRx ⟨dst, cx, seq, [], 0, 0⟩ v)) ∧
    (mine 4 → (∃ z ∈ s.xport.rx, z.src = dst ∧ z.ctx = cx) → exec (.xportSync n p) s = .next v) ∧
    (v2 → v2Desc phys s = some (dsc, ctx) → bitAt (leAt cell 0 8) 63 = true → bitAt (leAt cell 0 8) 62 = false →
      (∀ z ∈ s.xport.v2, z.src ≠ phys) → stageRoom ctx s = true → ∃ u, exec (.v2CellPacket n p) s = .next u ∧
        staged ctx u = staged ctx s + 1 ∧ u.xport.v2.find? (fun z => z.src == phys) =
          some ⟨phys, subBytes (cell.drop 8) 0 (min 248 (bitsOf (leAt cell 0 8) 47 40)), 1⟩) ∧
    (v2 → v2Desc phys s = none → bitAt (leAt cell 0 8) 63 = true → ∃ u, exec (.v2CellPacket n p) s = .next u ∧
      rd Reg.FAB_NO_DESC u = rd Reg.FAB_NO_DESC s + 1 ∧ u.xport.v2 = s.xport.v2) ∧
    (Working s → (rxPair r c s).owed = 0 → exec (.xportAckTimer r c) s = .next s) ∧
    (Working s → (rxPair r c s).owed ≠ 0 → ∃ u, exec (.xportAckTimer r c) s = .next (settle u) ∧
      u.cycle = max s.cycle ((rxPair r c s).since + usCycles 1) ∧ (rxPair r c u).owed = 0 ∧ (rxPair r c u).e = (rxPair r c s).e) ∧
    (Working s → timer.timed = false → exec (.rtoExpire r c) s = .next s) ∧
    (Working s → timer.timed = true → tree = false → r < 2 ^ 15 → rankLive r s = false → exec (.rtoExpire r c) s =
      .next (setTx { timer with advAt := max s.cycle (timer.advAt + rtoCycles s) } (advanceTo (timer.advAt + rtoCycles s) s))) ∧
    (Working s → timer.timed = true → ∃ u, exec (.rtoExpire r c) s = .next (settle u) ∧
      u.cycle = max s.cycle (timer.advAt + rtoCycles s))

/-- A packet that a port holds and that fails a check is taken, its credit freed, and counted in the counter of that check, with no
other effect; a packet that the port does not hold next has none at all. It holds of every packet command. -/
def Obligations.FailingPacketsAreDropped : Prop :=
  ∀ (n r : Nat) (p : Packet) (a : RxPkt) (i : Instr) (s : State), n ≤ 16 → Working s →
    (i = .jobStart n p ∧ ctlIs 1 p = true) ∨ (i = .teardown n p ∧ ctlIs 2 p = true) ∨ (i = .resend n p ∧ ctlIs 3 p = true) ∨
    (i = .reattach n p ∧ ctlIs 4 p = true) ∨ (i = .treeFail n p ∧ ctlIs 5 p = true) ∨ (i = .chunk n p ∧ xportIs 0 p = true) ∨
    (i = .empty n p ∧ xportIs 1 p = true) ∨ (i = .ack n p ∧ xportIs 2 p = true) ∨ (i = .snack n p ∧ xportIs 3 p = true) ∨
    (i = .xportSync n p ∧ xportIs 4 p = true) ∨ (i = .v2CellPacket n p ∧ pkN0 p Pk.VER = 2) →
    (heldPacket n p s = some a → netCheck p (takePacket n a s) = some r → exec i s = .next (bump r (takePacket n a s))) ∧
    (heldPacket n p s = none → exec i s = .next s)

/-- A booked transfer of the fabric engines takes place in its cycle. A chunk that a RECV has taken lands in its bench tile and is
counted; the tile of a SEND that passes its checks goes to the transport; the collective engine's reads and writes
advance their instance; and a transfer whose SEND or RECV is gone is dropped. -/
def Obligations.FabricTransfersLand : Prop :=
  ∀ (j b q po g gs k : Nat) (x : FabXfer) (y : Tile) (r : RecvOp) (z : SendJob) (w : Run) (s : State), Working s →
    s.xport.xfers[j]? = some x →
    let done := fun (o : Host.Outcome State Fault Refusal → Prop) => o (exec (.fabricTileTransferDone j ⟨0, []⟩) s)
    (x.use = .recv b q k y none → (seqOf b q s).blocked = .recv r → landHeld b q x.btile r.po s = false →
      done (fun o => ∃ u, o = .next (settle u) ∧ u.cycle = max s.cycle x.due ∧
        benchTile b x.btile u = ⟨y.tag, subBytes y.payload 0 4096⟩ ∧
        (seqOf b q u).blocked = .recv { r with landed := r.landed + 1 })) ∧
    (x.use = .send b q po → jobOf b q po s = some z → sendRun b q po s = some w → readHeld b q w.op s = false →
      heldUnit b q 7 s = false → checkOk b x.btile s = true → fmtDefined (tagF Fld.TAG_FORMAT (benchTag b x.btile s)) = true →
      z.kind ≠ 3 → done (fun o => ∃ u, o = .next (settle u) ∧ u.cycle = max s.cycle x.due ∧
        (sendRun b q po u).map (·.prog) = some (z.next + 1))) ∧
    (x.use = .send b q po → jobOf b q po s = none ∨ sendRun b q po s = none → done (fun o => o = .next (dropFab x s))) ∧
    (x.use = .colRead g gs k → done (fun o => o = .next (settle (colAdvance g gs (colRead x g gs k ⟨0, []⟩ s))))) ∧
    (x.use = .colWrite g gs k y → done (fun o => o = .next (settle (colAdvance g gs (colWrite x g gs y s)))))

/-- The starts and the ends of collectives. A START of a descriptor of a RUNNING context takes the group's next GSEQ and counts,
whatever follows; one that fails the checks ends in BAD_START, one at or past ABORT_FROM in ABORTED, and one that passes
opens its instance, or waits where its context's slots are taken. A slot wait, an open limit and an ABORT end instances
with their cause; an ABORT of a GSEQ still to come marks ABORT_FROM. -/
def Obligations.CollectivesStartAndEnd : Prop :=
  ∀ (c g q n : Nat) (v : Word) (src : Src) (i : ColInst) (w : ColWait) (p : Packet) (a : RxPkt) (s : State),
    let u := arrived src s
    let d := getF Fld.COL_START_DESC v
    let ws := colWords d u
    let dg := cdGroup ws
    let ctx := cdF ws 0 Fld.DESC0_CTX
    let e := tb (Tab.GSEQ dg) u
    let next := getF Fld.COL_GSEQ_DATA_NEXT e
    let asks := Quiet s ∧ Reaches src Reg.COL_START (.write v) s
    let counted := bump Reg.COL_STARTED (tbWF (Tab.GSEQ dg) Fld.COL_GSEQ_DATA_NEXT (next + 1) u)
    let aborted := bitF Fld.COL_GSEQ_DATA_ABORTED e = true ∧ getF Fld.COL_GSEQ_DATA_ABORT_FROM e ≤ next % 2 ^ 31
    let start : ColWait := ⟨dg, next, ctx, s.cycle, ws, d, 0, []⟩
    let waiter := s.col.waits.find? (fun w => w.ctx == c)
    let since := (s.col.waits.filter (fun w => w.ctx == c)).map (·.since) ++
      (s.col.refused.filter (fun p => p.1 == c)).map (fun p => p.2 - 1)
    let limit := rdF Reg.COL_CFG Fld.COL_CFG_OPEN_LIMIT_MS s
    let k := takePacket n a s
    let w1 := pkC p 1
    let ag := bitsOf w1 63 48
    let aq := bitsOf w1 47 16
    let rank := bitsOf w1 14 0
    let mine := Takes n p a s ∧ ctlIs 6 p = true
    let ours := bitsOf (pkC p 2) 31 0 = jobKey k ∧ bitsOf (pkC p 2) 47 32 = jobEpoch k ∧ jobState k ≠ 0
    let ae := tb (Tab.GSEQ ag) k
    let marked := bitF Fld.COL_GSEQ_DATA_ABORTED ae = true ∧ getF Fld.COL_GSEQ_DATA_ABORT_FROM ae ≤ aq % 2 ^ 31
    (asks → ctxState ctx u ≠ 1 → exec (.colStart v src) s = .next u) ∧
    (asks → ctxState ctx u = 1 → startOk ws 0 false counted = false →
      exec (.colStart v src) s = .next (settleAll (colFail dg next ctx true 0 3 d true counted))) ∧
    (asks → ctxState ctx u = 1 → startOk ws 0 false counted = true → aborted →
      exec (.colStart v src) s = .next (settleAll (colFail dg next ctx true 0 6 0 false counted))) ∧
    (asks → ctxState ctx u = 1 → startOk ws 0 false counted = true → ¬ aborted → colRoom ctx counted = true →
      exec (.colStart v src) s = .next (settleAll (grantSlot start counted))) ∧
    (asks → ctxState ctx u = 1 → startOk ws 0 false counted = true → ¬ aborted → colRoom ctx counted = false →
      ∃ t, exec (.colStart v src) s = .next t ∧ t.col.waits = [start] ∧ t.col.insts = [] ∧
        rd Reg.COL_STARTED t = rd Reg.COL_STARTED s + 1 ∧ tbF (Tab.GSEQ dg) Fld.COL_GSEQ_DATA_NEXT t = (next + 1) % 2 ^ 32) ∧
    (c < 16 → Working s → waiter = some w → colRoom c s = true ∨ (colOpen w.g w.gseq s).isSome = true →
      exec (.collectiveSlotGranted c) s = .next (settle (colAdvance w.g w.gseq (grantSlot w
        { s with col := { s.col with waits := s.col.waits.erase w } })))) ∧
    (c < 16 → Working s → (∀ w ∈ waiter, colRoom c s = false ∧ colOpen w.g w.gseq s = none) →
      exec (.collectiveSlotGranted c) s = .next s) ∧
    (c < 16 → Working s → since = [] ∨ colRoom c s = true → exec (.slotWaitTimeout c) s = .next s) ∧
    (c < 16 → Working s → since ≠ [] → colRoom c s = false →
      let at' := (since.tail).foldl min (since.headD 0) + usCycles (rdF Reg.COL_CFG Fld.COL_CFG_SLOT_WAIT_US s)
      let t := log 0x0901 kContext c (some c) [w64 (colUsed s)] (bump Reg.COL_EXHAUSTED (advanceTo at' s))
      exec (.slotWaitTimeout c) s =
        .next (settle ((instsOf c s).foldl (fun s i => instFail i 1 0 true s) t))) ∧
    (Working s → colOpen g q s = some i → limit ≠ 0 → exec (.openLimitTimeout g q) s =
      .next (settle (instFail i 5 0 true (advanceTo (i.since + msCycles limit) s)))) ∧
    (Working s → colOpen g q s = none ∨ limit = 0 → exec (.openLimitTimeout g q) s = .next s) ∧
    (mine → ¬ ours → exec (.abort n p) s = .next k) ∧
    (mine → ours → colOpen ag aq k = some i → exec (.abort n p) s = .next (settle (instFail i 6 rank false k))) ∧
    (mine → ours → colOpen ag aq k = none → 1024 ≤ ag ∨ colPast ag aq k = true ∨ marked → exec (.abort n p) s = .next k) ∧
    (mine → ours → colOpen ag aq k = none → ag < 1024 → colPast ag aq k = false → ¬ marked →
      ∃ t, exec (.abort n p) s = .next t ∧ bitF Fld.COL_GSEQ_DATA_ABORTED (tb (Tab.GSEQ ag) t) = true ∧
        tbF (Tab.GSEQ ag) Fld.COL_GSEQ_DATA_ABORT_FROM t = aq % 2 ^ 31 ∧
        tbF (Tab.GSEQ ag) Fld.COL_GSEQ_DATA_NEXT t = tbF (Tab.GSEQ ag) Fld.COL_GSEQ_DATA_NEXT s ∧ t.regs = k.regs)

/-- The life of a work context. START of a STOPPED context that passes every check of R352 makes it RUNNING and, where the device
was READY, the device RUN; one that fails a check records it in REFUSE. TEARDOWN and a deferral of HOLD_MAX cycles make a
RUNNING context TEARING with its cause and leave its teardown. The end of a teardown makes it TORN, or STOPPED where a
reset has cleared it; a context reset of an idle context counts and, when it completes, leaves STATUS and every counter
of the context 0 and its semaphores free. -/
def Obligations.ContextsLive : Prop :=
  ∀ (c : Nat) (v : Word) (src : Src) (d : Deferral) (r : Nat × Nat) (s : State), c < 16 →
    let u := arrived src s
    let start := v ||| maskF Fld.CTX_CTL_START
    let tear := v ||| maskF Fld.CTX_CTL_TEARDOWN
    let reset := v ||| maskF Fld.CTX_RESET_RESET
    let may := fun (x : Word) => Quiet s ∧ Reaches src (Reg.CTX_CTL c) (.write x) s ∧ ctxResetting c u = false
    let ready := may start ∧ bitF Fld.CTX_CTL_TEARDOWN v = false ∧ ctxState c u = 0 ∧ s.dev ≠ 7
    let prio := wrF (Reg.CTX_CTL c) Fld.CTX_CTL_PRIORITY (getF Fld.CTX_CTL_PRIORITY v) u
    let torn := fun (cause : Nat) (t : State) => ctxState c t = 2 ∧ rdF (Reg.CTX_STATUS c) Fld.CTX_STATUS_CAUSE t = cause ∧
      rd (Reg.CTX_TEARDOWNS c) t = rd (Reg.CTX_TEARDOWNS c) s + 1 ∧ t.work = [.teardown c]
    let limit := rdF (Reg.CTX_HOLD c) Fld.CTX_HOLD_HOLD_MAX s
    let asksReset := Quiet s ∧ Reaches src (Reg.CTX_RESET c) (.write reset) s
    (ready → startCode c prio = 0 →
      ∃ t, exec (.ctxCtlStart c v src) s = .next t ∧ ctxState c t = 1 ∧
        rdF (Reg.CTX_CTL c) Fld.CTX_CTL_PRIORITY t = getF Fld.CTX_CTL_PRIORITY v ∧
        rdF (Reg.DOV_CTX_BAL c) Fld.DOV_CTX_BAL_COUNT t = 0 ∧ rdF (Reg.DOV_CTX_PLACE c) Fld.DOV_CTX_PLACE_COUNT t = 0 ∧
        (s.dev = 5 → t.dev = 6) ∧ (s.dev ≠ 5 → s.dev ≠ 6 → t.dev = s.dev) ∧
        ∀ x < 16, x ≠ c → ctxState x t = ctxState x s) ∧
    (ready → startCode c prio ≠ 0 →
      exec (.ctxCtlStart c v src) s = .next (wrF (Reg.CTX_STATUS c) Fld.CTX_STATUS_REFUSE (startCode c prio) prio)) ∧
    (may start → bitF Fld.CTX_CTL_TEARDOWN v = true ∨ ctxState c u ≠ 0 ∨ s.dev = 7 →
      exec (.ctxCtlStart c v src) s = .next (refuse src (Reg.CTX_CTL c) u)) ∧
    (may tear → bitF Fld.CTX_CTL_START v = false → ctxState c u = 1 →
      ∃ t, exec (.ctxCtlTeardown c v src) s = .next (settleAll t) ∧ torn 0 t) ∧
    (may tear → bitF Fld.CTX_CTL_START v = true ∨ ctxState c u ≠ 1 →
      exec (.ctxCtlTeardown c v src) s = .next (refuse src (Reg.CTX_CTL c) u)) ∧
    (Working s → c ∈ s.ctxs.step7 → boundaryRuns s = false →
      ∃ t, exec (.teardownSlotRelease c) s = .next (settle (boundaryTry t)) ∧ c ∉ t.ctxs.step7 ∧
        ctxState c t = if c ∈ s.ctxs.cleared then 0 else 3) ∧
    (Working s → c ∈ s.ctxs.step7 → boundaryRuns s = true → exec (.teardownSlotRelease c) s = .next s) ∧
    (Working s → oldestDeferral c s = some d → limit ≠ 0 → ctxState c s = 1 →
      ∃ t, exec (.holdTimeout c) s = .next (settle t) ∧ torn 0x0702 t ∧ t.cycle = max s.cycle (d.began + limit)) ∧
    (Working s → oldestDeferral c s = none ∨ limit = 0 ∨ ctxState c s ≠ 1 → exec (.holdTimeout c) s = .next s) ∧
    (asksReset → ctxResetting c u = false → ctxIdle c u = true →
      ∃ t, exec (.ctxReset c v src) s = .next t ∧ rd Reg.GLB_CTX_RESETS t = rd Reg.GLB_CTX_RESETS s + 1 ∧
        ctxResetting c t = true ∧ t.ctxs.resets = s.ctxs.resets ++ [(c, s.cycle + 2048)] ∧ t.tabs = s.tabs ∧
        t.benches = s.benches) ∧
    (asksReset → ctxResetting c u = true ∨ ctxIdle c u = false →
      exec (.ctxReset c v src) s = .next (refuse src (Reg.CTX_RESET c) u)) ∧
    (held s = false → dead s = false → s.work = [] → s.ctxs.resets.find? (fun p => p.1 == c) = none →
      exec (.ctxResetComplete c) s = .next s) ∧
    (held s = false → dead s = false → s.work = [] → s.ctxs.resets.find? (fun p => p.1 == c) = some r →
      (∀ x ∈ seqsOf c s, inReset x.1 s = false ∧ (benchOf x.1 s).resetWait = false) →
      ∃ t, exec (.ctxResetComplete c) s = .next (settle t) ∧ rd (Reg.CTX_STATUS c) t = 0 ∧ (∀ x ∈ t.ctxs.resets, x.1 ≠ c) ∧
        t.cycle = max s.cycle r.2 ∧ (∀ y ∈ ctxCounters c, rd y t = 0) ∧ t.sram = s.sram ∧ t.ruril = s.ruril ∧
        ∀ n < 4096, semOwner n s = c → semValue n t = 0 ∧ bitF Fld.SEM_HELD (semEntry n t) = false)

/-- Clamp and the Mark. EN of Clamp is taken while no sequencer runs and starts PG, ORD and the queue afresh; up to 256 records go to
the twin in one packet, and the twin's records are compared in order. The Mark: its configuration is taken while nothing
waits, software arrives the device, an ARRIVE counts a child once, a MARK sets the release and goes on to the members
below, the release takes the frame start and counts, and a cancel leaves the Mark empty and CANCELLED. -/
def Obligations.ClampAndMarkComplete : Prop :=
  ∀ (n r f h id : Nat) (late : Bool) (v : Word) (src : Src) (p : Packet) (a : RxPkt) (s : State),
    let u := arrived src s
    let k := takePacket n a s
    let writes := fun (off : Nat) (x : Word) => Quiet s ∧ Reaches src off (.write x) s
    let mine := fun (type : Nat) => Takes n p a s ∧ ctlIs type p = true
    let first := v ||| maskF ⟨63, 1⟩
    let arriveW := v ||| maskF Fld.DET_MARK_CTL_ARRIVE
    let cancelW := v ||| maskF Fld.DET_MARK_CTL_CANCEL
    let waits := bitF Fld.DET_MARK_STATUS_WAITING (rd Reg.DET_MARK_STATUS u) = true ∨ markBlocked u ≠ 0
    let child := pkC p 1 % 2 ^ 15
    let delay := pkC p 2 % 2 ^ 40 + portDelay n k
    let lead := pkC p 1 % 4096
    let rep := a.replayed || decide (pkC p 2 / 2 ^ 63 = 1)
    let rel := relOf a.when delay lead (pkC p 1 / 2 ^ 32 % 65536)
    let limit := rdF Reg.DET_MARK_CFG Fld.DET_MARK_CFG_TIMEOUT_MS s
    let waiting := bitF Fld.DET_MARK_STATUS_WAITING (rd Reg.DET_MARK_STATUS s) = true ∧ s.mark.timedOut = false ∧ limit ≠ 0
    (writes Reg.DET_CLAMP_CTL v → anyRunning s = true → s.priv = false →
      exec (.detClampCtlWrite v src) s = .next (refuse src Reg.DET_CLAMP_CTL u)) ∧
    (writes Reg.DET_CLAMP_CTL v → anyRunning s = false →
      ∃ t, exec (.detClampCtlWrite v src) s = .next t ∧ rd Reg.DET_CLAMP_CTL t = v &&& 0xFFFF000000000003 ∧
        (bitF Fld.DET_CLAMP_CTL_EN v = true → t.clamp = ⟨[], [], [], [], []⟩ ∧ rd Reg.DET_CLAMP_STATUS t = 0) ∧
        (bitF Fld.DET_CLAMP_CTL_EN v = false → t.clamp = s.clamp) ∧ t.benches = s.benches) ∧
    (Working s → s.clamp.out = [] ∨ portActive 7 s = false → exec .clampPacketSend s = .next s) ∧
    (Working s → s.clamp.out ≠ [] → portActive 7 s = true →
      exec .clampPacketSend s = .next (settle (pushPacket 7
        (ctlPacket (twinPhys s) 9 ((s.clamp.out.take 256).map ClampRec.words).flatten s)
        { s with clamp := { s.clamp with out := s.clamp.out.drop 256 } }))) ∧
    (mine 9 → exec (.clamp n p) s = .next (settle ((clampRecs (p.ctl.drop 1)).foldl (fun t y => clampArrive y t) k))) ∧
    (writes Reg.DET_CLAMP_FIRST first →
      exec (.detClampFirstClear v src) s = .next (wr Reg.DET_CLAMP_FIRST2 0 (wr Reg.DET_CLAMP_FIRST 0 u))) ∧
    (writes Reg.DET_MARK_CFG v → waits → s.priv = false →
      exec (.detMarkCfgWrite v src) s = .next (refuse src Reg.DET_MARK_CFG u)) ∧
    (writes Reg.DET_MARK_CFG v → ¬ waits →
      exec (.detMarkCfgWrite v src) s = .next (settleAll (markCheck (wr Reg.DET_MARK_CFG (v &&& 0xFFFFFFFFFFFF0001) u)))) ∧
    (writes Reg.DET_MARK_CTL arriveW → bitF Fld.DET_MARK_CTL_CANCEL v = false →
      exec (.detMarkCtlArrive v src) s = .next (settleAll (markCheck { u with mark := { u.mark with sw := true } }))) ∧
    (writes Reg.DET_MARK_CTL cancelW → bitF Fld.DET_MARK_CTL_ARRIVE v = false →
      ∃ z, exec (.detMarkCtlCancel v src) s = .next (settleAll (markEnd z)) ∧ z.mark = MarkSt.empty ∧ markBlocked z = 0 ∧
        bitF Fld.DET_MARK_STATUS_WAITING (rd Reg.DET_MARK_STATUS z) = false ∧
        bitF Fld.DET_MARK_STATUS_CANCELLED (rd Reg.DET_MARK_STATUS z) = true) ∧
    (mine 8 → markMine p k = false ∨ child ∈ k.mark.got → exec (.arrive n p) s = .next k) ∧
    (mine 8 → markMine p k = true → child ∉ k.mark.got →
      exec (.arrive n p) s = .next (settle (markCheck { k with mark := { k.mark with got := k.mark.got ++ [child] } }))) ∧
    (mine 7 → a.pkt = p → markMine p k = true → k.mark.phase = .awaitMark → ownRank k = some r →
      ∃ z, exec (.mark n p) s = .next (settle (markCopies r lead rel.2.2.1 rep z)) ∧ z.mark.phase = .releaseSet ∧
        z.mark.rel = some (rel.1, rel.2.1, rel.2.2.1, rel.2.2.2 || rep)) ∧
    (mine 7 → a.pkt = p → markMine p k = false ∨ k.mark.phase ≠ .awaitMark → exec (.mark n p) s = .next k) ∧
    (mine 10 → n ≠ 7 ∨ bitF Fld.DET_MARK_CFG_TWIN (rd Reg.DET_MARK_CFG k) = false → exec (.twinMark n p) s = .next k) ∧
    (mine 10 → n = 7 → bitF Fld.DET_MARK_CFG_TWIN (rd Reg.DET_MARK_CFG k) = true → pkC a.pkt 1 % 2 = 0 →
      exec (.twinMark n p) s = .next (settle (twinJoin { k with mark := { k.mark with twinGot := true } }))) ∧
    (Working s → s.mark.rel = none → exec .markRelease s = .next s) ∧
    (Working s → s.mark.rel = some (f, h, id, late) →
      ∃ z, exec .markRelease s = .next (settle (defer .markCheck (markEnd (markFree z)))) ∧
        z.cycle = max s.cycle (frameFrom (max s.cycle f)) ∧ rd Reg.DET_MARK_CYCLE z = w64 z.cycle ∧
        rd Reg.DET_MARK_COUNT z = rd Reg.DET_MARK_COUNT s + 1 ∧ z.mark.phase = .gather ∧ z.mark.rel = none ∧
        (late = true → rd Reg.DET_MARK_LATE z = rd Reg.DET_MARK_LATE s + 1) ∧
        rdF Reg.DET_MARK_STATUS Fld.DET_MARK_STATUS_MARK z = id % 2 ^ 16) ∧
    (Working s → ¬ waiting → exec .markWaitTimeout s = .next s) ∧
    (Working s → waiting → ∃ t, exec .markWaitTimeout s = .next t ∧ t.mark.timedOut = true ∧ t.mark.phase = s.mark.phase ∧
      t.cycle = max s.cycle (s.mark.since + msCycles limit) ∧
      bitF Fld.DET_MARK_STATUS_WAITING (rd Reg.DET_MARK_STATUS t) = true)

/-- Images. LOAD from flash of an image that fails a check leaves the device BARE with FAIL its number, and one that passes leaves
it in TRAIN; PROGRAM takes a staged image and ends with RESULT: the flash takes the image, and in BARE the device runs LOAD
next; RESUME takes a STOPPED device to READY, or to RUN with a RUNNING context. -/
def Obligations.ImagesComplete : Prop :=
  ∀ (ok : Bool) (first tiles st : Nat) (v : Word) (src : Src) (s : State), s.work = [] →
    let u := arrived src s
    let asks := fun (f : Fld) => Quiet s ∧ Reaches src Reg.JIG_CTL (.write (v ||| maskF f)) s
    let loads := Quiet s ∧ s.dev = 2 ∧ held s = false ∧ s.power.ruril = true
    let fail := imageFail (flashImg s) 268435456 ok s
    let image := tileImg first s
    let clean := s.rbad.all (fun n => !(decide (first ≤ n) && decide (n * 4096 < first * 4096 + imgLen image)))
    let bad := if st ≠ 3 ∧ sysTile < first + tiles then 1 else imageFail image (tiles * 4096) clean s
    let ends := fun (result failed : Nat) (t : State) =>
      rdF Reg.JIG_PROG_STATUS Fld.JIG_PROG_STATUS_RESULT t = result ∧ rdF Reg.JIG_PROG_STATUS Fld.JIG_PROG_STATUS_FAIL t = failed ∧
        rdF Reg.JIG_PROG_STATUS Fld.JIG_PROG_STATUS_BUSY t = 0 ∧ t.jig.prog = none ∧ t.ruril = s.ruril
    let programs := s.jig.prog = some (first, tiles, st) ∧ held s = false ∧ dead s = false
    let startOk := (s.dev = 3 ∨ s.dev = 5 ∨ s.dev = 7) ∧ s.jig.prog = none
    (loads → s.jig.rebuild = true → exec (.jigLoadComplete ok) s = .next (settleAll (rebuild s))) ∧
    (loads → s.jig.rebuild = false → fail = 0 → (sectionsApply (flashImg s) s).1 = true →
      ∃ t, exec (.jigLoadComplete ok) s = .next (settleAll t) ∧ t.dev = 4 ∧ t.jig.built = true) ∧
    (loads → s.jig.rebuild = false → fail ≠ 0 →
      ∃ t, exec (.jigLoadComplete ok) s = .next t ∧ t.dev = 3 ∧ rdF Reg.JIG_STATUS Fld.JIG_STATUS_FAIL t = fail ∧
        bitF Fld.JIG_STATUS_LOADED (rd Reg.JIG_STATUS t) = false ∧ glueState t = 0 ∧ t.ruril = s.ruril) ∧
    (asks Fld.JIG_CTL_PROGRAM → bitF Fld.JIG_CTL_RESUME v = false → startOk →
      ∃ t, exec (.jigCtlProgram v src) s = .next t ∧ bitF Fld.JIG_PROG_STATUS_BUSY (rd Reg.JIG_PROG_STATUS t) = true ∧
        t.jig.prog = some (if s.dev = 3 then sysTile else rdF Reg.JIG_IMG Fld.JIG_IMG_RBASE s,
          rdF Reg.JIG_IMG Fld.JIG_IMG_TILES s, s.dev) ∧ t.jig.flash = s.jig.flash ∧ t.dev = s.dev) ∧
    (asks Fld.JIG_CTL_PROGRAM → bitF Fld.JIG_CTL_RESUME v = false → ¬ startOk →
      exec (.jigCtlProgram v src) s = .next (refuse src Reg.JIG_CTL u)) ∧
    (s.jig.prog = none → exec (.programComplete ok) s = .next s) ∧
    (programs → bad ≠ 0 → ∃ t, exec (.programComplete ok) s = .next t ∧ ends 2 bad t ∧ t.jig.flash = s.jig.flash ∧ t.dev = s.dev) ∧
    (programs → bad = 0 → ok = false → ∃ t, exec (.programComplete ok) s = .next t ∧ ends 3 0 t ∧ t.dev = s.dev) ∧
    (programs → bad = 0 → ok = true → ∃ t, exec (.programComplete ok) s = .next t ∧ ends 1 0 t ∧
      t.jig.flash = cellsFrom (first * 4096) (imgLen image) s.ruril ∧ t.dev = if s.dev = 3 then 2 else s.dev) ∧
    (asks Fld.JIG_CTL_RESUME → bitF Fld.JIG_CTL_PROGRAM v = false → s.dev = 7 →
      ∃ t, exec (.jigCtlResume v src) s = .next (settleAll t) ∧ t.dev = if (runningCtxs t).isEmpty then 5 else 6) ∧
    (asks Fld.JIG_CTL_RESUME → bitF Fld.JIG_CTL_PROGRAM v = false → s.dev ≠ 7 → exec (.jigCtlResume v src) s = .next u)

/-- Glue-up, state by state: DRYFIT opens it, the check ends in FITTED or in a failure with its FITCODE, GO arms it, the fetches run
in record order, CANCEL ends it, the stop ends in a vote, and STOP_MS and VOTE_MS end it with their own results. A failure
leaves IDLE with its RESULT and counts in JIG_GLUE_FAILED. -/
def Obligations.GlueUpComplete : Prop :=
  ∀ (k : Nat) (ts : List Tile) (i : ColInst) (v : Word) (src : Src) (s : State),
    let u := arrived src s
    let asks := fun (f : Fld) => Quiet s ∧ Reaches src Reg.JIG_GLUE_CTL (.write (v ||| maskF f)) s
    let no := fun (f : Fld) => bitF f v = false
    let cancel := asks Fld.JIG_GLUE_CTL_CANCEL ∧ no Fld.JIG_GLUE_CTL_GO ∧ no Fld.JIG_GLUE_CTL_DRYFIT
    let go := asks Fld.JIG_GLUE_CTL_GO ∧ no Fld.JIG_GLUE_CTL_CANCEL ∧ no Fld.JIG_GLUE_CTL_DRYFIT
    let dry := asks Fld.JIG_GLUE_CTL_DRYFIT ∧ no Fld.JIG_GLUE_CTL_CANCEL ∧ no Fld.JIG_GLUE_CTL_GO
    let mayOpen := glueState u = 0 ∧ runs s = true ∧ bitF Fld.JIG_STATUS_LOADED (rd Reg.JIG_STATUS u) = true
    let result := fun (t : State) => rdF Reg.JIG_GLUE_STATUS Fld.JIG_GLUE_STATUS_RESULT t
    let code := fun (t : State) => rdF Reg.JIG_GLUE_STATUS Fld.JIG_GLUE_STATUS_FITCODE t
    let fails := fun (r : Nat) (t : State) => glueState t = 0 ∧ result t = r ∧
      rd Reg.JIG_GLUE_FAILED t = rd Reg.JIG_GLUE_FAILED s + 1 ∧ t.dov.applying = false ∧ t.ruril = s.ruril
    let f := s.jig.fetch
    let fetching := Quiet s ∧ runs s = true ∧ glueState s = 3 ∧ fetchesDone s = false
    let want := (recWord f 1 s).toNat % 2 ^ 24
    let landed := ts.zipIdx.foldl (fun t p => setRurilTile ((recWord f 0 s).toNat % 2 ^ 28 + p.2) p.1 t) s
    let still := ∀ c < 16, bitAt s.glueHold c = true → ∀ p ∈ seqsOf c s, seqHeld p.1 p.2 s = true
    let stopping := runs s = true ∧ glueState s = 4
    let stopAt := s.jig.since + msCycles (rdF Reg.JIG_GLUE_CFG Fld.JIG_GLUE_CFG_STOP_MS s)
    let voting := runs s = true ∧ glueState s = 5 ∧ glueGroup s ≠ 0
    let g := glueGroup s % 1024
    let late := setGlue 0 (advanceTo (s.jig.since + msCycles (rdF Reg.JIG_GLUE_CFG Fld.JIG_GLUE_CFG_VOTE_MS s)) s)
    let unwait := { late with col := { late.col with
      waits := late.col.waits.filter (fun w => !(w.g == g && w.gseq == late.jig.gseq)) } }
    (dry → mayOpen → ∃ t, exec (.jigGlueDryfit v src) s = .next t ∧ glueState t = 1 ∧ t.ruril = s.ruril ∧
      t.jig.base = rdF Reg.JIG_GLUE_SRC Fld.JIG_GLUE_SRC_RBASE s ∧ t.jig.head = (upto 8).map (fun i =>
        w64 (rurilWord (rdF Reg.JIG_GLUE_SRC Fld.JIG_GLUE_SRC_RBASE s * 4096 + 8 * i) s))) ∧
    (dry → ¬ mayOpen → exec (.jigGlueDryfit v src) s = .next (refuse src Reg.JIG_GLUE_CTL u)) ∧
    (Working s → glueState s ≠ 1 → exec .dryfitComplete s = .next s) ∧
    (Working s → glueState s = 1 → glueFit s = none → ∃ t, exec .dryfitComplete s = .next t ∧ glueState t = 2 ∧
      t.dov.applying = appliesMap s ∧ t.tabs = s.tabs ∧ t.ruril = s.ruril) ∧
    (Working s → glueState s = 1 → glueFit s = some k → ∃ t, exec .dryfitComplete s = .next t ∧ fails 2 t ∧
      code t = k / 2 ^ 29 % 16) ∧
    (go → glueState u = 2 → ∃ t, exec (.jigGlueGo v src) s = .next (settleAll t) ∧ glueState t = 3 ∧
      t.jig.fetch = nextFetch u (glueRecs u) 0 ∧ t.tabs = s.tabs) ∧
    (go → glueState u ≠ 2 → exec (.jigGlueGo v src) s = .next u) ∧
    (Quiet s → runs s = true → glueState s ≠ 3 ∨ fetchesDone s = true → exec (.glueFetchDone (some ts)) s = .next s) ∧
    (fetching → ts.length ≠ want → exec (.glueFetchDone (some ts)) s = .next s) ∧
    (fetching → ts.length = want → exec (.glueFetchDone (some ts)) s = .next (settleAll (glueGo
      { landed with jig := { landed.jig with fetch := nextFetch landed (glueRecs landed - (f + 1)) (f + 1) } }))) ∧
    (fetching → ∃ t, exec (.glueFetchDone none) s = .next t ∧ fails 2 t ∧ code t = 11) ∧
    (cancel → glueState u = 2 ∨ glueState u = 3 → ∃ t, exec (.jigGlueCancel v src) s = .next t ∧ fails 7 t) ∧
    (cancel → glueState u ≠ 2 → glueState u ≠ 3 → exec (.jigGlueCancel v src) s = .next u) ∧
    (Quiet s → runs s = true → glueState s ≠ 4 ∨ ¬ still → exec .glueStopDone s = .next s) ∧
    (stopping → still → s.jig.bad ≠ 0 → exec .glueStopDone s = .next (settleAll (glueVoteBegin s.jig.bad s))) ∧
    (stopping → still → s.jig.bad = 0 → glueFit s = none → exec .glueStopDone s = .next (settleAll (glueVoteBegin 0 s))) ∧
    (stopping → still → s.jig.bad = 0 → glueFit s = some k →
      exec .glueStopDone s = .next (settleAll (glueVoteBegin 2 (fitFailed k s)))) ∧
    (stopping → exec .glueStopTimeout s =
      .next (settleAll (glueVoteBegin (if s.jig.bad ≠ 0 then s.jig.bad else 4) (advanceTo stopAt s)))) ∧
    (voting → colOpen g s.jig.gseq s = some i → exec .glueVoteTimeout s =
      .next (settleAll (glueFails 6 (instFail { i with dov := 0, words := [] } 5 0 true late)))) ∧
    (voting → colOpen g s.jig.gseq s = none → exec .glueVoteTimeout s =
      .next (settleAll (glueFails 6 (colFail g s.jig.gseq (groupCtx g s) false 0 5 0 true unwait))))

/-- The supplies and the resets. Aux and main coming and going take the device through OFF, AUX and LOAD; losing main leaves memory,
tables and benches at their reset values with LAST the cause; a warm reset keeps Ruril and the rank tables' registers and
leaves everything else at its reset value until it is released into LOAD; PERST_N resets the host link. -/
def Obligations.SuppliesAndResetsComplete : Prop :=
  ∀ (mv slot c : Nat) (drop : Bool) (v : Word) (src : Src) (s : State), s.work = [] →
    let u := arrived src s
    let last := fun (t : State) => rdF Reg.GLB_RESET_CAUSE Fld.GLB_RESET_CAUSE_LAST t
    let supply := fun (f : Fld) (t : State) => rdF Reg.GLB_SUPPLY f t
    let wiped := fun (t : State) => t.sram = [] ∧ t.benches = [] ∧ t.ports = [] ∧ t.tabs = [] ∧ t.ruril = [] ∧ t.col = ColSt.empty
    let warmed := fun (cause : Nat) (t : State) => t.power.warm = some cause ∧ t.dev = s.dev ∧ t.sram = [] ∧ t.benches = [] ∧
      t.ruril = s.ruril ∧ t.cycle = 0 ∧ jobKey t = jobKey s ∧ jobState t = jobState s
      ∧ ∀ r < 32768, tb (Tab.RANK r) t = tb (Tab.RANK r) s
    let warm := v ||| maskF Fld.GLB_RESET_CTL_WARM
    let keyed := getF Fld.GLB_RESET_CTL_KEY v = 0x7A31
    let asks := Quiet s ∧ Reaches src Reg.GLB_RESET_CTL (.write warm) s
    (s.power.aux = true → exec (.auxGood mv) s = .next s) ∧
    (s.power.aux = false → s.dev = 0 → ∃ t, exec (.auxGood mv) s = .next t ∧ t.dev = 1 ∧ t.power.aux = true ∧
      t.power.ramp = s.power.main ∧ supply Fld.GLB_SUPPLY_AUX_MV t = mv % 2 ^ 16) ∧
    (s.power.aux = false → s.dev ≠ 0 → ∃ t, exec (.auxGood mv) s = .next t ∧ t.dev = s.dev ∧ t.power.aux = true ∧
      t.sent = s.sent ++ (if s.mgt.hotJoin then [.hotJoin] else []) ∧ supply Fld.GLB_SUPPLY_AUX_MV t = mv % 2 ^ 16) ∧
    (s.power.aux = false → exec .auxLost s = .next s) ∧
    (s.power.aux = true → 2 ≤ s.dev → ∃ t, exec .auxLost s = .next t ∧ t.dev = s.dev ∧ t.power.aux = false ∧
      supply Fld.GLB_SUPPLY_AUX_LOST t = 1 ∧ (∀ r ∈ auxRegs, rd r t = resetOf r) ∧ t.benches = s.benches ∧ t.ruril = s.ruril) ∧
    (s.power.aux = true → s.dev < 2 → ∃ t, exec .auxLost s = .next t ∧ t.dev = 0 ∧ t.power.aux = false ∧ t.power.ramp = false) ∧
    (s.power.main = true → exec (.mainGood mv) s = .next s) ∧
    (s.power.main = false → ∃ t, exec (.mainGood mv) s = .next t ∧ t.power.main = true ∧ t.dev = s.dev ∧
      t.power.ramp = decide (s.dev = 1) ∧ supply Fld.GLB_SUPPLY_MAIN_MV t = mv % 2 ^ 16) ∧
    (s.power.main = false → exec (.mainLost drop) s = .next s) ∧
    (s.power.main = true → 2 ≤ s.dev → s.power.aux = true → ∃ t, exec (.mainLost drop) s = .next t ∧ t.dev = 1 ∧ wiped t ∧
      t.power.main = false ∧ last t = if drop then 1 else 2) ∧
    (s.power.main = true → 2 ≤ s.dev → s.power.aux = false → ∃ t, exec (.mainLost drop) s = .next t ∧ t.dev = 0 ∧ wiped t ∧
      t.power.main = false) ∧
    (s.power.main = true → s.dev < 2 → ∃ t, exec (.mainLost drop) s = .next t ∧ t.power.main = false ∧ t.dev = s.dev ∧
      t.power.aux = s.power.aux ∧ t.power.ramp = false ∧ t.regs = s.regs) ∧
    (s.dev ≠ 1 ∨ s.power.ramp = false → exec (.coldResetRelease slot) s = .next s) ∧
    (s.dev = 1 → s.power.ramp = true → ∃ t, exec (.coldResetRelease slot) s = .next t ∧ t.dev = 2 ∧ t.sram = [] ∧ t.benches = [] ∧
      t.ruril = [] ∧ last t = s.power.lost % 8 ∧ rdF Reg.FAB_SELF Fld.FAB_SELF_SLOT t = slot % 8 ∧ t.power.warm = none) ∧
    (held s = true → exec .rurilTrainDone s = .next s) ∧
    (held s = false → exec .rurilTrainDone s = .next { s with power := { s.power with ruril := true } }) ∧
    (s.power.aux = false ∨ held s = true → exec .modResetNAssert s = .next s) ∧
    (s.power.aux = true → held s = false → ∃ t, exec .modResetNAssert s = .next t ∧ warmed 3 t) ∧
    (asks → ¬ keyed → exec (.glbResetCtlWarm v src) s = .next (refuse src Reg.GLB_RESET_CTL u)) ∧
    (asks → keyed → held s = false → ∃ t, exec (.glbResetCtlWarm v src) s = .next t ∧ warmed 4 t) ∧
    (s.power.warm = none → exec (.warmResetRelease slot) s = .next s) ∧
    (s.power.warm = some c → ∃ t, exec (.warmResetRelease slot) s = .next t ∧ t.dev = 2 ∧ t.power.warm = none ∧ t.cycle = 0 ∧
      last t = c % 8 ∧ rd Reg.GLB_WARM_RESETS t = rd Reg.GLB_WARM_RESETS s + 1 ∧
      rdF Reg.FAB_SELF Fld.FAB_SELF_SLOT t = slot % 8 ∧ t.tabs = s.tabs ∧ t.ruril = s.ruril) ∧
    (held s = true ∨ s.power.aux = false ∨ s.power.perst = true → exec .perstNAssert s = .next s) ∧
    (held s = false → s.power.aux = true → s.power.perst = false → ∃ t, exec .perstNAssert s = .next (settle t) ∧
      t.msixEn = false ∧ t.host.hdmSize = 0 ∧ t.sec.ideKeys = [] ∧ ∀ r ∈ hostRegs, rd r t = resetOf r) ∧
    (exec .perstNRelease s = .next { s with power := { s.power with perst := false } }) ∧
    (Quiet s → Reaches src Reg.GLB_SUPPLY (.write (v ||| maskF Fld.GLB_SUPPLY_AUX_LOST)) s →
      exec (.glbSupplyAuxLostClear v src) s = .next (wrF Reg.GLB_SUPPLY Fld.GLB_SUPPLY_AUX_LOST 0 u))

/-- Training, STOP and the clocks. The end of training and TRAIN_MS take TRAIN to READY, or to RUN with a RUNNING context; STOP
takes READY alone to STOPPED; a clock, PLL or regulator fault takes the running device to FAULT with its cause and the
coolant valve open, and does nothing to a device that is held or in FAULT; losing the host PLL takes the host link down. -/
def Obligations.TrainingAndClocksComplete : Prop :=
  ∀ (d : Nat) (v : Word) (src : Src) (s : State), Quiet s →
    let ready := fun (t : State) => t.dev = if (runningCtxs t).isEmpty then 5 else 6
    let stop := Reaches src Reg.GLB_STATE_CTL (.write (v ||| maskF Fld.GLB_STATE_CTL_STOP)) s
    let cause := fun (t : State) => rdF Reg.GLB_STATE Fld.GLB_STATE_FAULT_CAUSE t
    let faults := fun (i : Instr) (code : Nat) (also : State → Prop) =>
      (held s = true ∨ 7 < s.dev → exec i s = .next s) ∧
      (held s = false → s.dev ≤ 7 → ∃ t, exec i s = .next (settle t) ∧ t.dev = 8 ∧ cause t = code ∧ also t ∧
        t.power.ruril = false ∧ rdF Reg.KLN_VALVE Fld.KLN_VALVE_CMD t = 100)
    (runs s = true → s.dev = 4 → portsSettled s = true → ∃ t, exec .trainComplete s = .next (settleAll t) ∧ ready t) ∧
    (runs s = true → s.dev ≠ 4 ∨ portsSettled s = false → exec .trainComplete s = .next s) ∧
    (runs s = true → s.dev = 4 → ∃ t, exec .trainTimeout s = .next (settleAll t) ∧ ready t) ∧
    (runs s = true → s.dev ≠ 4 → exec .trainTimeout s = .next s) ∧
    (stop → s.dev = 5 → ∃ t, exec (.glbStateCtlStop v src) s = .next (settleAll t) ∧ t.dev = 7) ∧
    (stop → s.dev ≠ 5 → exec (.glbStateCtlStop v src) s = .next (refuse src Reg.GLB_STATE_CTL (arrived src s))) ∧
    faults .refLost 0x0103 (fun t => t.power.refOk = false) ∧
    faults .rootUnlock 0x0101 (fun t => t.power.rootOk = false) ∧
    (d < 4 → faults (.clockFault d) 0x0102 (fun t => bitAt t.power.doms (3 - d) = false)) ∧
    faults .regulatorFault 0x0104 (fun t => t.power.doms = s.power.doms) ∧
    (held s = true ∨ linkUp s = false → exec .hostPllUnlock s = .next s) ∧
    (held s = false → linkUp s = true → exec .hostPllUnlock s = .next (settle (hostReset false
      (log 0x0107 kNone 0 none [0] (bump Reg.GLB_HIF_LINK_DOWNS (wr Reg.GLB_HIF_LINK 0 s))))))

/-- The host link and what the host reaches through it. Training ends in a link at its rate and width or in a retry after 1 s; a
loss or a reset of the link gives the host-interface registers their reset values; a CXL.mem read answers 64 bytes of
Ruril, with poison where they are bad, and a write stores the enabled bytes and changes no other; a scrub counts and
poisons; configuration and MSI-X table writes take effect, and a message that its mask held back is sent; DOE answers what
it supports and the CDAT entries. -/
def Obligations.HostLinkComplete : Prop :=
  ∀ (rate width addr be n c base size idx : Nat) (bad : Bool) (data : List Byte) (e : Ecc) (v : Word) (s : State), s.work = [] →
    let trains := held s = false ∧ s.power.perst = false ∧ linkUp s = false ∧ s.host.retryAt = none
    let good := 1 ≤ rate ∧ rate ≤ 3 ∧ 4 ≤ width
    let lanes := if 16 ≤ width then 16 else if 8 ≤ width then 8 else 4
    let link := setF Fld.GLB_HIF_LINK_WIDTH (setF Fld.GLB_HIF_LINK_RATE (setF Fld.GLB_HIF_LINK_UP 0 1) rate) lanes
    let isReset := fun (t : State) => t.msixEn = false ∧ t.msixOpen = [] ∧ t.msixPba = [] ∧ t.host.cacheEn = false ∧
      t.host.hdmSize = 0 ∧ t.sec.ideKeys = [] ∧ t.sec.insecure = 0 ∧ ∀ r ∈ hostRegs, rd r t = resetOf r
    let resets := fun (i : Instr) (keep : Bool) =>
      (held s = true ∨ linkUp s = false → exec i s = .next s) ∧
      (held s = false → linkUp s = true → exec i s = .next (settle (hostReset keep s)))
    let asked := if memOpen s then hdmAddr addr s else none
    let secure := s.power.ruril = true ∧ (bitF Fld.SEC_POLICY_IDE_REQUIRED (rd Reg.SEC_POLICY s) = true →
      bitF Fld.GLB_HIF_LINK_IDE_CM (rd Reg.GLB_HIF_LINK s) = true)
    let open' := fun (d : Nat) => asked = some d ∧ secure ∧ (d / 4096 < sysTile ∨ s.dev = 3)
    let shut := fun (d : Nat) => asked = some d ∧ secure ∧ sysTile ≤ d / 4096 ∧ s.dev ≠ 3
    let sound := fun (d : Nat) => (rurilRead (d / 4096) e s).1 = true ∧
      ∀ p ∈ objOfRtn (d / 4096) s, ∀ r ∈ recovOf p.1 s, p.2 ∉ r.tiles
    let free := fun (d : Nat) => ∀ p ∈ objOfRtn (d / 4096) s, objState p.1 s = osRuril
    let scrubs := held s = false ∧ dead s = false ∧ s.power.ruril = true
    let counted := if c = 0 then s else bumpBy c (Reg.TIR_ECC_CORR (stackOf n)) s
    let k := idx / 2
    let protocol := [(0x0001, 0x00), (0x1E98, 0x02), (0x1F3A, 0x01)].getD idx (0xFFFF, 0xFF)
    (trains → good → exec (.hostLinkTrained rate width) s =
      .next (settle ((upto 16).foldl (fun t c => crDrainAll c t) (wr Reg.GLB_HIF_LINK link s)))) ∧
    (trains → ¬ good → ∃ t, exec (.hostLinkTrained rate width) s = .next t ∧ linkUp t = false ∧
      t.host.retryAt = some (s.cycle + msCycles 1000)) ∧
    (¬ trains → exec (.hostLinkTrained rate width) s = .next s) ∧
    (s.host.retryAt = none → exec .hostLinkRetryTimer s = .next s) ∧
    (s.host.retryAt = some c → ∃ t, exec .hostLinkRetryTimer s = .next t ∧ t.host.retryAt = none ∧ t.cycle = max s.cycle c ∧
      t.regs = s.regs) ∧
    (held s = true ∨ linkUp s = false → exec .hostLinkLoss s = .next s) ∧
    (held s = false → linkUp s = true → exec .hostLinkLoss s = .next (settle (hostReset false
      (log 0x0107 kNone 0 none [0] (bump Reg.GLB_HIF_LINK_DOWNS (wr Reg.GLB_HIF_LINK 0 s)))))) ∧
    resets .hotReset false ∧ resets .linkDisable false ∧ resets .flr true ∧ (∀ keep, isReset (hostReset keep s)) ∧
    (asked = none → exec (.cxlMemRead addr e) s = .next s ∧ exec (.cxlMemWrite addr data be) s = .next s) ∧
    (∀ d, open' d → sound d → exec (.cxlMemRead addr e) s =
      .next (settle (emit (.cxlData (memRead s.ruril d 64) false) (rurilRead (d / 4096) e s).2))) ∧
    (∀ d, open' d → ¬ sound d → exec (.cxlMemRead addr e) s =
      .next (settle (emit (.cxlData (memRead s.ruril d 64) true) (bump Reg.GLB_HIF_POISON_RD (rurilRead (d / 4096) e s).2)))) ∧
    (∀ d, shut d → exec (.cxlMemRead addr e) s = .next (emit (.cxlData (List.replicate 64 0) false) s)) ∧
    (∀ d, asked = some d → ¬ secure → exec (.cxlMemRead addr e) s = .next (emit (.cxlData (List.replicate 64 0) true) s) ∧
      exec (.cxlMemWrite addr data be) s = .next (emit .cxlDone s)) ∧
    (∀ d, open' d → free d → ∃ t, exec (.cxlMemWrite addr data be) s = .next t ∧ t.sent = s.sent ++ [.cxlDone] ∧
      (Memory.wf s.ruril = true →
        ∀ j < 64, memByte t.ruril (d + j) = if bitAt be j then data.getD j 0 else memByte s.ruril (d + j)) ∧
      (∀ a, a < d ∨ d + 64 ≤ a → memByte t.ruril a = memByte s.ruril a) ∧ t.regs = s.regs ∧ t.tabs = s.tabs ∧ t.sram = s.sram) ∧
    (∀ d, shut d ∨ (open' d ∧ ¬ free d) → exec (.cxlMemWrite addr data be) s =
      .next (emit .cxlDone (bump Reg.TIR_HOST_WRITE_DROP s))) ∧
    (exec .h2dSnoop s = .next (if memOpen s then emit .snoopReply s else s)) ∧
    (¬ scrubs → exec (.rurilScrub n c bad) s = .next s) ∧
    (scrubs → bad = false → exec (.rurilScrub n c bad) s = .next counted) ∧
    (scrubs → bad = true → objOfRtn n s = none → exec (.rurilScrub n c bad) s = .next (setRurilBad n counted)) ∧
    (scrubs → bad = true → ∀ o i, objOfRtn n s = some (o, i) →
      exec (.rurilScrub n c bad) s = .next (settle (poison o i (setRurilBad n counted)))) ∧
    (linkOpen s = true → size % 2 ^ 28 = 0 → size ≤ 768 * 2 ^ 30 → base % 2 ^ 28 = 0 → exec (.configSpaceWrite (.hdm base size)) s =
      .next { s with host := { s.host with hdmBase := base, hdmSize := size } }) ∧
    (linkOpen s = true → exec (.configSpaceWrite (.cacheEnable bad)) s = .next { s with host := { s.host with cacheEn := bad } }) ∧
    (linkOpen s = true → exec (.configSpaceWrite (.msixEnable false)) s = .next { s with msixEn := false }) ∧
    (linkOpen s = true → ∃ t, exec (.configSpaceWrite (.msixEnable true)) s = .next t ∧ t.msixEn = true ∧
      t.sent = s.sent ++ (s.msixPba.filter (fun x => s.msixOpen.contains x)).map .msix ∧
      t.msixPba = s.msixPba.filter (fun x => !s.msixOpen.contains x)) ∧
    (linkOpen s = false → ∀ x, exec (.configSpaceWrite x) s = .next s) ∧
    (linkOpen s = true → exec (.doeDiscovery idx) s = .next (emit (.doe (leBytes 2 protocol.1 ++ leBytes 1 protocol.2 ++
      leBytes 1 (if idx < 2 then idx + 1 else 0))) s)) ∧
    (linkOpen s = true → ∃ bs, exec .cdatTableAccess s = .next (emit (.doe bs) s) ∧ bs.length = 32 ∧ leAt bs 0 8 = 0 ∧
      leAt bs 8 8 = 768 * 2 ^ 30) ∧
    (linkOpen s = false → exec (.doeDiscovery idx) s = .next s ∧ exec .cdatTableAccess s = .next s) ∧
    (hostOpen s = false ∨ 128 ≤ idx → exec (.msixTableWrite idx v) s = .next s) ∧
    (hostOpen s = true → idx < 128 → ∃ t, exec (.msixTableWrite idx v) s = .next t ∧ smGet (fun _ => 0) t.msixTab idx = v ∧
      (idx % 2 = 0 → t.sent = s.sent ∧ t.msixOpen = s.msixOpen ∧ t.msixPba = s.msixPba) ∧
      (idx % 2 = 1 → bitAt v.toNat 32 = true → k ∉ t.msixOpen) ∧
      (idx % 2 = 1 → bitAt v.toNat 32 = false → k ∈ t.msixOpen ∧ (s.msixEn = true → k ∈ s.msixPba → k ∉ t.msixPba ∧
        .msix k ∈ t.sent.drop s.sent.length)))

/-- The host rings. A doorbell of an enabled ring that moves forward within it is taken and issues fetches or lets queued
records drain, and any other counts in GLB_HIF_BAD_DB; fetched records enter in order, a fetch that fails or times out
counts and ends the ring's fetches; ENABLE starts a ring afresh; the end of COAL_US signals what it held back. -/
def Obligations.HostRingsComplete : Prop :=
  ∀ (r n first len : Nat) (bytes : List Byte) (rest : List (Nat × Nat)) (v : Word) (src : Src) (s : State), r < 16 → s.work = [] →
    let u := arrived src s
    let rings := hostOpen s = true ∧ hostShut (r * 0x1000) s = false
    let tail := getF Fld.IR_TAIL_TAIL v
    let span := fun (x : Nat) => (x + irSize r s - irHead r s) % irSize r s
    let tailOk := s.dev ≠ 2 ∧ s.dev ≠ 3 ∧ irOn r s = true ∧ tail < irSize r s ∧ span (irTailOf r s) ≤ span tail
    let head := getF Fld.CR_HEAD_HEAD v
    let ahead := fun (x : Nat) => (x + crSize r s - crHeadOf r s) % crSize r s
    let headOk := head < crSize r s ∧ ahead head ≤ ahead (crTail r s)
    let cfg := Reg.GLB_HIF_IR_CFG r
    let writes := fun (off : Nat) => Quiet s ∧ Reaches src off (.write v) s
    let size := getF Fld.GLB_HIF_IR_CFG_LOG2SIZE v
    let busy := irOn r u = true ∧ size ≠ rdF cfg Fld.GLB_HIF_IR_CFG_LOG2SIZE u
    let ccfg := v &&& ~~~(maskF ⟨48, 14⟩) &&& ~~~(maskF ⟨5, 27⟩)
    let fresh := Reg.GLB_HIF_CR_STATE r
    let due := smGet (fun _ => 0) s.host.coalEnd r
    let fails := fun (t : State) => irFetches r t = [] ∧ rd Reg.GLB_HIF_XFER_FAIL t = rd Reg.GLB_HIF_XFER_FAIL s + 1 ∧
      irHead r t = irHead r s ∧ t.pool = s.pool
    (rings → tailOk → exec (.irTail r v .host) s =
      .next (settle (irFetch r 4 (wrF (Reg.GLB_HIF_IR_STATE r) Fld.GLB_HIF_IR_STATE_TAIL tail s)))) ∧
    (rings → s.dev ≠ 2 → s.dev ≠ 3 → ¬ tailOk → exec (.irTail r v .host) s = .next (bump Reg.GLB_HIF_BAD_DB s)) ∧
    (rings → headOk → exec (.crHead r v .host) s =
      .next (settle (crDrainAll r (wrF (Reg.GLB_HIF_CR_STATE r) Fld.GLB_HIF_CR_STATE_HEAD head s)))) ∧
    (rings → ¬ headOk → exec (.crHead r v .host) s = .next (bump Reg.GLB_HIF_BAD_DB s)) ∧
    (hostOpen s = true → hostShut (r * 0x1000) s = true →
      exec (.irTail r v .host) s = .next (refuse .host (r * 0x1000) s)) ∧
    (hostOpen s = false → exec (.irTail r v .host) s = .next s ∧ exec (.crHead r v .host) s = .next s) ∧
    (exec (.irTail r v .sideband) s = .next s ∧ exec (.crHead r v .sideband) s = .next s) ∧
    (Working s → irFetches r s = [] → exec (.intakeFetchDone r (some bytes)) s = .next s) ∧
    (Working s → irFetches r s = (first, len) :: rest → exec (.intakeFetchDone r (some bytes)) s =
      .next (settle (irFetch r 4 (recordsEnter r bytes len 0 (setFetches r rest s))))) ∧
    (Working s → irFetches r s = (first, len) :: rest → ∃ t, exec (.intakeFetchDone r none) s = .next t ∧ fails t) ∧
    (irFetches r s = [] → exec (.hostReadTimeout (.intake r)) s = .next s) ∧
    (irFetches r s = (first, len) :: rest → ∃ t, exec (.hostReadTimeout (.intake r)) s = .next t ∧ fails t) ∧
    (exec (.hostReadTimeout (.resume n)) s = .next (settle (resumeCopyDone n none s))) ∧
    (exec (.hostReadTimeout (.recovery n)) s = .next (settle (recoveryHostFail n s))) ∧
    (writes cfg → busy → exec (.glbHifIrCfgWrite r v src) s = .next (bump Reg.GLB_HIF_BAD_DB u)) ∧
    (writes cfg → ¬ busy → ∃ t, exec (.glbHifIrCfgWrite r v src) s = .next t ∧ irFetches r t = [] ∧
      rdF cfg Fld.GLB_HIF_IR_CFG_LOG2SIZE t = size ∧ irOn r t = bitF Fld.GLB_HIF_IR_CFG_ENABLE v ∧
      (bitF Fld.GLB_HIF_IR_CFG_ENABLE v = true → irHead r t = getF Fld.GLB_HIF_IR_CFG_START v ∧
        irTailOf r t = getF Fld.GLB_HIF_IR_CFG_START v) ∧
      (bitF Fld.GLB_HIF_IR_CFG_ENABLE v = false → irHead r t = irHead r s ∧ irTailOf r t = irTailOf r s)) ∧
    (writes (Reg.GLB_HIF_CR_CFG r) → bitF Fld.GLB_HIF_CR_CFG_ENABLE v = true → exec (.glbHifCrCfgWrite r v src) s =
      .next (settleAll (crDrainAll r (wrF fresh Fld.GLB_HIF_CR_STATE_PHASE 1 (wrF fresh Fld.GLB_HIF_CR_STATE_HEAD 0
        (wrF fresh Fld.GLB_HIF_CR_STATE_TAIL 0 (wr (Reg.GLB_HIF_CR_CFG r) ccfg u))))))) ∧
    (writes (Reg.GLB_HIF_CR_CFG r) → bitF Fld.GLB_HIF_CR_CFG_ENABLE v = false →
      exec (.glbHifCrCfgWrite r v src) s = .next (wr (Reg.GLB_HIF_CR_CFG r) ccfg u)) ∧
    (s.host.coalPend.contains r = false → exec (.msixCoalesceExpire r) s = .next s) ∧
    (s.host.coalPend.contains r = true → ∃ t, exec (.msixCoalesceExpire r) s = .next t ∧ t.host.coalPend.contains r = false ∧
      t.cycle = max s.cycle due ∧
      (s.msixEn = true → s.msixOpen.contains r = true → t.sent = s.sent ++ [.msix r]) ∧
      (s.msixEn = false ∨ s.msixOpen.contains r = false → r ∈ t.msixPba ∧ t.sent = s.sent))

/-- Attestation, the IDE keys and the fuses. A request that may be answered is: the certificate; a report signed with the next
leaf, or BUSY or exhausted; a key pair with its report; the IDE keys, which enable both streams. A stream whose MAC fails
is Insecure. A burn with the right KEY starts where its rule allows it, and blows the fuses where it is done. -/
def Obligations.SecurityComplete : Prop :=
  ∀ (n k kind made : Nat) (ok : Bool) (nonce payload ct : List Byte) (ws : List Word) (v : Word) (src : Src) (s : State), s.work = [] →
    let u := arrived src s
    let may := match src with
      | .host => linkOpen s = true
      | .sideband => held s = false ∧ dead s = false ∧ sbAddressed s = true ∧ bitF Fld.SEC_POLICY_SB_ATTEST (rd Reg.SEC_POLICY s) = true
    let leaf := rdF Reg.SEC_LEAF Fld.SEC_LEAF_NEXT s
    let engine := s.sec.resv < 4096 ∧ s.sec.signing = true ∧ leaf ≠ (rdF Reg.SEC_LEAF Fld.SEC_LEAF_RES s + 1) * 2 ^ 28
    let signs := engine ∧ 0 < s.sec.tokens ∧ s.sec.build = false
    let signed := fun (t : State) => rd Reg.SEC_REPORTS t = rd Reg.SEC_REPORTS s + 1 ∧
      rdF Reg.SEC_LEAF Fld.SEC_LEAF_NEXT t = (leaf + 1) % 2 ^ 40 ∧ t.sec.tokens = s.sec.tokens - 1
    let used := wrF Reg.SEC_LEAF Fld.SEC_LEAF_NEXT (leaf + 1) { s with sec := { s.sec with tokens := s.sec.tokens - 1 } }
    let stream := if k = 0 then Fld.GLB_HIF_LINK_IDE_IO else Fld.GLB_HIF_LINK_IDE_CM
    let broken := { wrF Reg.GLB_HIF_LINK stream 0 s with sec := { s.sec with insecure := s.sec.insecure ||| 2 ^ k } }
    let on := held s = false ∧ k ≤ 1 ∧ bitF stream (rd Reg.GLB_HIF_LINK s) = true
    let asks := fun (f : Fld) => Quiet s ∧ Reaches src Reg.SEC_FUSE_CTL (.write (v ||| maskF f)) s
    let keyed := getF Fld.SEC_FUSE_CTL_KEY v = 0x5EC5 ∧ burnBusy u = false
    let svn := rdF Reg.JIG_STATUS Fld.JIG_STATUS_SVN u
    let maySvn := bitF Fld.JIG_STATUS_LOADED (rd Reg.JIG_STATUS u) = true ∧ svn ≤ 64 ∧ s.sec.svn < svn
    let mayOwner := ownerUnset s = true ∨ ((∃ h ∈ s.sec.owner, allZero h = true) ∧ transferOk u = true)
    let starts := fun (i : Instr) (kind : Nat) (ws : List Word) => ∃ t, exec i s = .next t ∧ t.sec.burn = some (kind, ws) ∧
      burnBusy t = true ∧ rdF Reg.SEC_FUSE_STATUS Fld.SEC_FUSE_STATUS_RESULT t = 0 ∧ t.sec.owner = s.sec.owner ∧ t.sec.svn = s.sec.svn
    let ends := fun (r : Nat) (t : State) => t.sec.burn = none ∧ burnBusy t = false ∧
      rdF Reg.SEC_FUSE_STATUS Fld.SEC_FUSE_STATUS_RESULT t = r
    let refill := min (rdF Reg.SEC_POLICY Fld.SEC_POLICY_BURST s) (s.sec.tokens + n)
    (may → exec (.getCert src) s = .next (respond src 1 0 0 (certificate s) s)) ∧
    (may → payload.length ≠ 64 → exec (.getReport src payload) s = .next (respond src 2 2 0 [] s)) ∧
    (may → payload.length = 64 → signs → exec (.getReport src payload) s =
      .next (respond src 2 0 0 (report (payload.take 32) (payload.drop 32) leaf used) (bump Reg.SEC_REPORTS used))) ∧
    (may → payload.length = 64 → engine → s.sec.tokens = 0 → ∃ r < 65536, exec (.getReport src payload) s =
      .next (respond src 2 1 r [] (bump Reg.SEC_SIGN_REFUSED { s with fresh := s.fresh + 1 }))) ∧
    (may → payload.length = 64 → 4096 ≤ s.sec.resv → exec (.getReport src payload) s =
      .next (respond src 2 3 0 [] (log 0x0C01 kNone 0 none [rd Reg.SEC_LEAF s] s))) ∧
    (may → payload.length ≠ 32 → exec (.kemStart src payload) s = .next (respond src 3 2 0 [] s)) ∧
    (may → payload.length = 32 → signs → ∃ t, exec (.kemStart src payload) s = .next t ∧ signed t ∧
      t.sec.kem = some (s.fresh, payload, s.cycle)) ∧
    (linkOpen s = true → s.sec.kem = none → exec (.kemFinish .host ct) s = .next (respond .host 4 2 0 [] s)) ∧
    (linkOpen s = true → s.sec.kem = some (made, nonce, n) → ct.length ≠ 1568 →
      exec (.kemFinish .host ct) s = .next (respond .host 4 2 0 [] s)) ∧
    (linkOpen s = true → s.sec.kem = some (made, nonce, n) → ct.length = 1568 → ∃ t, exec (.kemFinish .host ct) s = .next t ∧
      t.sec.kem = none ∧ t.sec.insecure = 0 ∧ t.sec.ideKeys.length = 4 ∧ rd Reg.SEC_IDE_KEYS t = rd Reg.SEC_IDE_KEYS s + 1 ∧
      bitF Fld.GLB_HIF_LINK_IDE_IO (rd Reg.GLB_HIF_LINK t) = true ∧ bitF Fld.GLB_HIF_LINK_IDE_CM (rd Reg.GLB_HIF_LINK t) = true) ∧
    (held s = false → dead s = false → sbAddressed s = true → bitF Fld.SEC_POLICY_SB_ATTEST (rd Reg.SEC_POLICY s) = false →
      exec (.getCert .sideband) s = .next (respond .sideband 1 4 0 [] s) ∧
      exec (.getReport .sideband payload) s = .next (respond .sideband 2 4 0 [] s)) ∧
    (linkOpen s = false → exec (.getCert .host) s = .next s ∧ exec (.getReport .host payload) s = .next s ∧
      exec (.kemStart .host payload) s = .next s ∧ exec (.kemFinish .host ct) s = .next s) ∧
    (s.sec.kem = none → exec .kemKeyExpire s = .next s) ∧
    (s.sec.kem = some (made, nonce, n) → ∃ t, exec .kemKeyExpire s = .next t ∧ t.sec.kem = none ∧
      t.cycle = max s.cycle (n + msCycles 10000) ∧ t.regs = s.regs) ∧
    (¬ on → exec (.ideMacFail k) s = .next s) ∧
    (on → exec (.ideMacFail k) s = .next (settle (transfersFail (log 0x0108 kNone 0 none [] broken)))) ∧
    (asks Fld.SEC_FUSE_CTL_BURN_SVN → ¬ keyed → exec (.secFuseBurnSvn v src) s = .next (refuse src Reg.SEC_FUSE_CTL u)) ∧
    (asks Fld.SEC_FUSE_CTL_BURN_SVN → keyed → bitF Fld.SEC_FUSE_CTL_BURN_OWNER v = false → maySvn →
      starts (.secFuseBurnSvn v src) 0 [w64 svn]) ∧
    (asks Fld.SEC_FUSE_CTL_BURN_SVN → keyed → bitF Fld.SEC_FUSE_CTL_BURN_OWNER v = false → ¬ maySvn →
      exec (.secFuseBurnSvn v src) s = .next (burnResult 2 u)) ∧
    (asks Fld.SEC_FUSE_CTL_BURN_OWNER → ¬ keyed → exec (.secFuseBurnOwner v src) s = .next (refuse src Reg.SEC_FUSE_CTL u)) ∧
    (asks Fld.SEC_FUSE_CTL_BURN_OWNER → keyed → bitF Fld.SEC_FUSE_CTL_BURN_SVN v = false → mayOwner →
      starts (.secFuseBurnOwner v src) 1 (ownerStaged s)) ∧
    (asks Fld.SEC_FUSE_CTL_BURN_OWNER → keyed → bitF Fld.SEC_FUSE_CTL_BURN_SVN v = false → ¬ mayOwner →
      exec (.secFuseBurnOwner v src) s = .next (burnResult 2 u)) ∧
    (s.sec.burn = none ∨ held s = true → exec (.fuseBurnDone ok) s = .next s) ∧
    (s.sec.burn = some (0, ws) → held s = false → ∃ t, exec (.fuseBurnDone true) s = .next t ∧ ends 1 t ∧
      t.sec.svn = (ws.headD 0).toNat ∧ rd Reg.SEC_SVN t = ws.headD 0 ∧ t.sec.owner = s.sec.owner) ∧
    (s.sec.burn = some (kind, ws) → kind ≠ 0 → held s = false → ∃ t, exec (.fuseBurnDone true) s = .next t ∧ ends 1 t ∧
      t.sec.owner = fillSlot ws s.sec.owner ∧ t.sec.svn = s.sec.svn) ∧
    (s.sec.burn = some (kind, ws) → held s = false → ∃ t, exec (.fuseBurnDone false) s = .next t ∧ ends 3 t) ∧
    (exec .lowerTreeBuildDone s = .next (if held s then s else { s with sec := { s.sec with build := false } })) ∧
    (exec (.signTokenRefill n) s = .next (if held s then s else { s with sec := { s.sec with tokens := refill } }))

/-- Kiln from LOAD onward. A control period puts the configuration written before it in force, moves the level by the power of the
period that ends, and shows that power; an interval moves each group's rail; droop holds, warnings and trips begin and
end as their rules say, the valve follows its duty, and a configuration register takes a value in range only. -/
def Obligations.KilnComplete : Prop :=
  ∀ (power demand g c off fb inlet outlet jmax : Nat) (margins powers : List Nat) (bytes : List Byte) (v : Word) (src : Src)
    (row : RegRow) (s : State), s.work = [] →
    let u := arrived src s
    let on := kilnRuns s = true
    let off' := kilnRuns s = false
    let warn := fun (t : State) => rdF Reg.KLN_STATUS Fld.KLN_STATUS_WARN t
    let flag := fun (f : Fld) (t : State) => bitF f (rd Reg.KLN_STATUS t)
    let hot := flag Fld.KLN_STATUS_JWARN s || !s.kiln.limited.isEmpty
    let level := if s.kiln.ramp = none then 0
      else levelNext hot s.kiln.pcfg power s.kiln.ceil (kLevel s) (s.mark.phase == .releaseSet)
    let trips := fun (i : Instr) (code : Nat) (since : Option Nat) (ms : Nat) =>
      (since = none ∨ off' → exec i s = .next s) ∧
      (since = some c → on → s.dev ≤ 7 → ∃ t, exec i s = .next (settle t) ∧ t.dev = 8 ∧ t.cycle = max s.cycle (c + msCycles ms) ∧
        rdF Reg.GLB_STATE Fld.GLB_STATE_FAULT_CAUSE t = code ∧ rdF Reg.KLN_VALVE Fld.KLN_VALVE_CMD t = 100)
    let valid := bytes.length = 8 ∧ leAt bytes 0 1 = 0xA5 ∧ leAt bytes 1 1 = 0x81 ∧ leAt bytes 6 2 = crc16 (subBytes bytes 1 5)
    let duty := rdF Reg.KLN_VALVE Fld.KLN_VALVE_CMD s
    let cfg := rd Reg.KLN_VALVE_CFG s
    let auto := bitF Fld.KLN_CTL_VALVE_AUTO s.kiln.ctl
    let out := rdF Reg.KLN_TEMPS Fld.KLN_TEMPS_OUTLET s
    let error : Int := ((if out = 0 then 127 * 16 else out : Nat) : Int) -
      16 * (getF Fld.KLN_THERM_CFG_OUT_TARGET (rd Reg.KLN_THERM_CFG s) : Nat)
    let fmax := ((upto 10).map (fun k => forecast (k + 1) (profileTurn s) / 100)).foldl max 0
    let valve := fun (cmd : Nat) (integ : Int) => ∃ t, exec (.valveLoopStep fb) s = .next t ∧
      rdF Reg.KLN_VALVE Fld.KLN_VALVE_CMD t = cmd ∧ rdF Reg.KLN_VALVE Fld.KLN_VALVE_FB t = fb % 256 ∧ t.kiln.integ = integ
    let j := jmax % 2 ^ 16
    let warnAt := 16 * getF Fld.KLN_THERM_CFG_J_WARN s.kiln.therm
    let in' := 0x0200000 ≤ off ∧ off < 0x0400000
    let asks := Quiet s ∧ Reaches src off (.write v) s
    (off' → exec (.kilnControlPeriod power demand) s = .next s) ∧
    (on → ∃ t, exec (.kilnControlPeriod power demand) s = .next t ∧ kLevel t = level % 256 ∧
      t.cycle = max s.cycle (s.kiln.last + periodCycles (kLevel s)) ∧ t.kiln.last = t.cycle ∧ t.kiln.pcfg = rd Reg.KLN_POWER_CFG s ∧
      t.kiln.ctl = rd Reg.KLN_CTL s ∧ rdF Reg.KLN_POWER Fld.KLN_POWER_P_NOW t = power / 100 % 4096 ∧ warn t = warn s ∧ t.dev = s.dev) ∧
    (off' → exec (.avsInterval margins powers) s = .next s) ∧
    (on → ∃ t, exec (.avsInterval margins powers) s = .next t ∧ ∀ g < 84, g < margins.length → g < powers.length →
      railOf g t = railNext (bitF Fld.KLN_CTL_AVS_EN s.kiln.ctl) s.kiln.avs (margins.getD g 0 % 64) (railOf g s)) ∧
    (off' ∨ 84 ≤ g → exec (.droopDetect g) s = .next s) ∧
    (on → g < 84 → s.kiln.droop = none → ∃ t, exec (.droopDetect g) s = .next t ∧ t.kiln.droop = some s.cycle ∧
      flag Fld.KLN_STATUS_DROOP t = true ∧ rd Reg.KLN_DROOP_EVENTS t = rd Reg.KLN_DROOP_EVENTS s + 1) ∧
    (on → g < 84 → s.kiln.droop = some c → ∃ t, exec (.droopDetect g) s = .next t ∧ t.kiln.droop = some s.cycle ∧ t.regs = s.regs) ∧
    (s.kiln.droop = none → exec .droopHoldEnd s = .next s) ∧
    (s.kiln.droop = some c → ∃ t, exec .droopHoldEnd s = .next t ∧ t.kiln.droop = none ∧ flag Fld.KLN_STATUS_DROOP t = false ∧
      t.cycle = max s.cycle (c + 64) ∧ t.kiln.drooped = s.kiln.drooped + (t.cycle - c)) ∧
    trips .kilnOverpower 0x0303 s.kiln.overAt 10 ∧ trips .junctionTrip 0x0301 s.kiln.hotAt 1 ∧
    trips .coolantTrip 0x0302 s.kiln.outAt 1000 ∧
    (off' ∨ bitF Fld.KLN_CTL_ESTORE_EN s.kiln.ctl = false → exec .estoreForecastSend s = .next s) ∧
    (on → bitF Fld.KLN_CTL_ESTORE_EN s.kiln.ctl = true → ∃ t bs, exec .estoreForecastSend s = .next t ∧ t.sent = s.sent ++ [.frame bs] ∧
      bs.length = 30 ∧ rd Reg.KLN_ESTORE_TX t = rd Reg.KLN_ESTORE_TX s + 1 ∧ t.kiln.seq = (s.kiln.seq + 1) % 65536) ∧
    (off' → exec (.estoreCapFrame bytes) s = .next s) ∧
    (on → ¬ valid → exec (.estoreCapFrame bytes) s = .next (bump Reg.KLN_ESTORE_RX_BAD s)) ∧
    (on → valid → ∃ t, exec (.estoreCapFrame bytes) s = .next t ∧ flag Fld.KLN_STATUS_CAP_VALID t = true ∧
      rdF Reg.KLN_POWER Fld.KLN_POWER_CAP t = leAt bytes 4 2 % 4096 ∧ t.kiln.capAt = s.cycle) ∧
    (off' → exec .estoreLossTimeout s = .next s) ∧
    (on → ∃ t, exec .estoreLossTimeout s = .next t ∧ flag Fld.KLN_STATUS_CAP_VALID t = false ∧
      rdF Reg.KLN_POWER Fld.KLN_POWER_CAP t = 0 ∧ bitAt (warn t) 3 = true ∧
      t.cycle = max s.cycle (s.kiln.capAt + msCycles (getF Fld.KLN_ESTORE_CFG_LOSS_MS s.kiln.est))) ∧
    (off' → exec (.valveLoopStep fb) s = .next s) ∧
    (on → s.dev = 8 ∨ stillForced fb s = true → valve 100 (if auto then integNext cfg error s.kiln.integ else s.kiln.integ)) ∧
    (on → s.dev ≠ 8 → stillForced fb s = false → auto = false → valve (getF Fld.KLN_VALVE_CFG_MANUAL cfg) s.kiln.integ) ∧
    (on → s.dev ≠ 8 → stillForced fb s = false → auto = true →
      valve (autoDuty cfg error (integNext cfg error s.kiln.integ) fmax) (integNext cfg error s.kiln.integ)) ∧
    (off' ∨ dutyGap fb duty ≤ 10 → exec (.valveFbMismatch fb) s = .next s) ∧
    (on → 10 < dutyGap fb duty → ∃ t, exec (.valveFbMismatch fb) s = .next t ∧ rdF Reg.KLN_VALVE Fld.KLN_VALVE_CMD t = 100 ∧
      bitAt (warn t) 2 = true ∧ t.kiln.forced = true) ∧
    (off' → exec (.thermalSample inlet outlet jmax) s = .next s) ∧
    (on → ∃ t, exec (.thermalSample inlet outlet jmax) s = .next t ∧ rdF Reg.KLN_TEMPS Fld.KLN_TEMPS_INLET t = inlet % 2 ^ 16 ∧
      rdF Reg.KLN_TEMPS Fld.KLN_TEMPS_OUTLET t = outlet % 2 ^ 16 ∧ rdF Reg.KLN_TEMPS Fld.KLN_TEMPS_JMAX t = j ∧
      (warnAt ≤ j → flag Fld.KLN_STATUS_JWARN t = true ∧ bitAt (warn t) 0 = true) ∧
      (j + 32 < warnAt → flag Fld.KLN_STATUS_JWARN t = false) ∧
      (j < warnAt → warnAt ≤ j + 32 → flag Fld.KLN_STATUS_JWARN t = flag Fld.KLN_STATUS_JWARN s)) ∧
    (Quiet s → Reaches src Reg.KLN_STATUS (.write v) s → ∃ t, exec (.klnWarnClear v src) s = .next t ∧
      (∀ b < 5, bitAt (warn t) b = (bitAt (warn s) b && !bitAt (getF Fld.KLN_STATUS_WARN v) b)) ∧ kLevel t = kLevel s ∧
      t.kiln = s.kiln) ∧
    (¬ in' → exec (.klnRegisterWrite off v src) s = .next s) ∧
    (asks → regRowAt off = some row → off ∈ kilnCfgs → kilnRange off v = true → exec (.klnRegisterWrite off v src) s =
      .next (wr off ((rd off u &&& ~~~(rwMask row)) ||| (v &&& rwMask row)) u)) ∧
    (asks → off ∈ kilnCfgs → kilnRange off v = false → exec (.klnRegisterWrite off v src) s = .next (refuse src off u))

/-- The sideband target. The common command codes assign and take away the dynamic address, enable events and answer; a pending
interrupt that wins goes out once; a transfer counts, and one that is malformed leaves LAST BAD_CMD and zeros to read;
the window writes base slot A in BARE alone; the mailbox keeps a request and gives its response; the tray number is
taken once, from the sideband only. -/
def Obligations.SidebandComplete : Prop :=
  ∀ (a bits n addr cmd : Nat) (on won : Bool) (data : List Byte) (v : Word) (s : State), Quiet s →
    let here := sbAddressed s = true
    let gone := sbAddressed s = false
    let kept := fun (i : Instr) => exec i s = .next s
    let answers := fun (i : Instr) (bs : List Byte) => exec i s = .next (if sbAddressed s then emit (.sideband bs) s else s)
    let u := bump Reg.MGT_SB_XFERS s
    let sized := data.length % 8 = 0 ∧ 8 ≤ data.length ∧ data.length ≤ 64 ∧ addr % 8 = 0
    let bare := s.dev = 3 ∧ held s = false ∧ addr + data.length ≤ 262144 * 4096
    let place := sysTile * 4096 + addr
    let fits := 1 ≤ data.length ∧ data.length ≤ 64 ∧ addr + data.length ≤ mboxSize
    let low := held s = true ∨ dead s = true
    let len := leNat (memRead s.mgt.req 4 4)
    let tray := getF Fld.MGT_TRAY_TRAY v
    let set := bitF Fld.MGT_TRAY_VALID (rd Reg.MGT_TRAY s) = true
    let current := rdF Reg.MGT_TRAY Fld.MGT_TRAY_TRAY s
    let writes := fun (src : Src) => Reaches src Reg.MGT_TRAY (.write v) s
    (sbRuns s = false ∨ here → kept (.entdaa a)) ∧
    (sbRuns s = true → gone → ∃ t, exec (.entdaa a) s = .next t ∧ sbAddressed t = true ∧
      rdF Reg.MGT_SB_STATUS Fld.MGT_SB_STATUS_DA t = a % 128) ∧
    (sbRuns s = false → kept .rstdaa ∧ kept (.enec bits) ∧ kept (.disec bits)) ∧
    (sbRuns s = true → ∃ t, exec .rstdaa s = .next t ∧ sbAddressed t = false ∧ rdF Reg.MGT_SB_STATUS Fld.MGT_SB_STATUS_DA t = 0) ∧
    (sbRuns s = true → ∃ t, exec (if on then .enec bits else .disec bits) s = .next t ∧ t.regs = s.regs ∧
      t.ibiEn = (if bitAt bits 0 then on else s.ibiEn) ∧ t.mgt.hotJoin = (if bitAt bits 3 then on else s.mgt.hotJoin)) ∧
    answers .getpid ((leBytes 6 (rd Reg.MGT_PID s).toNat).reverse) ∧ answers .getbcr [0x06] ∧ answers .getdcr [0x00] ∧
    answers .getstatus [0, if s.ibiPend = 0 then 0 else 1] ∧ answers .getmwl [0, 69] ∧ answers .getmrl [0, 64, 1] ∧
    (gone ∨ s.ibiEn = false ∨ s.ibiPend = 0 ∨ won = false → kept (.ibiSend won)) ∧
    (here → s.ibiEn = true → s.ibiPend ≠ 0 → ∃ t, exec (.ibiSend true) s = .next t ∧ t.sent = s.sent ++ [.ibi s.ibiPend] ∧
      t.ibiPend = 0 ∧ rd Reg.MGT_IBI_SENT t = rd Reg.MGT_IBI_SENT s + 1) ∧
    (gone → kept (.winWrite addr data) ∧ kept (.mboxWrite addr data) ∧ kept .mboxGo ∧ kept (.mboxRead addr) ∧
      kept (.sidebandPrivateRead n) ∧ kept (.sidebandUndefinedCmd cmd)) ∧
    (here → ¬ sized → exec (.winWrite addr data) s = .next (sbFail 2 u)) ∧
    (here → sized → ¬ bare → exec (.winWrite addr data) s = .next (sbFail 1 u)) ∧
    (here → sized → bare → ∃ t, exec (.winWrite addr data) s = .next t ∧ t.regs = (sbLast 0 u).regs ∧ t.tabs = s.tabs ∧
      (∀ j < data.length, memByte t.ruril (place + j) = data.getD j 0) ∧
      (∀ x, x < place ∨ place + data.length ≤ x → memByte t.ruril x = memByte s.ruril x)) ∧
    (here → ¬ fits → exec (.mboxWrite addr data) s = .next (sbFail 2 u)) ∧
    (here → fits → exec (.mboxWrite addr data) s =
      .next { sbLast 0 u with mgt := { s.mgt with req := memWrite s.mgt.req addr data } }) ∧
    (here → low → exec .mboxGo s = .next (sbFail 1 u)) ∧
    (here → ¬ low → exec .mboxGo s =
      .next (attestBytes .sideband (memRead s.mgt.req 0 (if 8 ≤ len ∧ len ≤ mboxSize then len else 8)) (sbLast 0 u))) ∧
    (here → exec (.mboxRead addr) s = .next { sbLast 0 u with mgt := { s.mgt with data := (s.mgt.rsp.drop addr).take 64 } }) ∧
    (here → exec (.sidebandPrivateRead n) s = .next (emit (.sideband (s.mgt.data.take (min n 64))) s)) ∧
    (1 ≤ cmd → cmd ≤ 6 → kept (.sidebandUndefinedCmd cmd)) ∧
    (here → cmd = 0 ∨ 6 < cmd → exec (.sidebandUndefinedCmd cmd) s = .next (sbFail 2 u)) ∧
    (writes .host → exec (.mgtTrayWrite v .host) s = .next (refuse .host Reg.MGT_TRAY s)) ∧
    (writes .sideband → set → tray = current → exec (.mgtTrayWrite v .sideband) s = .next (sbLast 0 u)) ∧
    (writes .sideband → set → tray ≠ current → exec (.mgtTrayWrite v .sideband) s =
      .next (log 0x0D01 kNone 0 none [v] (bump Reg.MGT_SB_ERRORS (sbLast 0 u)))) ∧
    (writes .sideband → ¬ set → ∃ t, exec (.mgtTrayWrite v .sideband) s = .next t ∧
      bitF Fld.MGT_TRAY_VALID (rd Reg.MGT_TRAY t) = true ∧ rdF Reg.MGT_TRAY Fld.MGT_TRAY_TRAY t = tray ∧
      rdF Reg.FAB_SELF Fld.FAB_SELF_TRAY t = tray ∧ rdF Reg.FAB_SELF Fld.FAB_SELF_VALID t = 1 ∧ t.tabs = s.tabs)

/-- The register file. A narrow access, an unaligned one and one at an undefined offset are bad, count, record the first and read
as 0; an aligned 64-bit one reaches its register, a read-only register ignores a write, and a register whose fields are
all plain takes the written bits and reads them back. The ERR ring's HEAD moves within what is written; a clear empties
GLB_BAD_FIRST. -/
def Obligations.RegisterAccessesComplete : Prop :=
  ∀ (off size : Nat) (r : RegRow) (v : Word) (src : Src) (s : State), Quiet s →
    let u := arrived src s
    let b := arrived .sideband s
    let reads := Reaches src off .read s
    let writes := Reaches src off (.write v) s
    let undefined := regRowAt off = none ∧ errWindow off = false
    let aligned := off % 8 = 0
    let rows := [Reg.GLB_HIF_CTL, Reg.JIG_IMG, Reg.JIG_GLUE_SRC, Reg.JIG_GLUE_CFG, Reg.TIR_RECOVER_CTL, Reg.COL_CFG, Reg.FAB_V2_KEY,
      Reg.SEC_OWNER_STAGE 0, Reg.SEC_OWNER_STAGE 1, Reg.SEC_OWNER_STAGE 2, Reg.SEC_OWNER_STAGE 3, Reg.SEC_OWNER_SIGTILE,
      Reg.MGT_IBI_MASK, Reg.ERR_CTL]
    let head := v.toNat % 2 ^ 32
    let from' := rdF Reg.ERR_STATE Fld.ERR_STATE_HEAD u
    let till := rdF Reg.ERR_STATE Fld.ERR_STATE_TAIL u
    let moves := (head + 2 ^ 32 - from') % 2 ^ 32 ≤ (till + 2 ^ 32 - from') % 2 ^ 32
    let asks := Reaches src Reg.ERR_HEAD (.write v) s
    (reads → size ≠ 8 → exec (.registerRead off size src) s = .next (reply src 0 (badAccess src 0 off u))) ∧
    (reads → ¬ aligned → exec (.registerRead off 8 src) s = .next (reply src 0 (badAccess src 1 off u))) ∧
    (reads → aligned → undefined → exec (.registerRead off 8 src) s = .next (reply src 0 (badAccess src 2 off u))) ∧
    (reads → aligned → regRowAt off = some r → exec (.registerRead off 8 src) s = .next (settleAll (regRead src r off u))) ∧
    (reads → aligned → regRowAt off = none → errWindow off = true →
      exec (.registerRead off 8 src) s = .next (reply src (tb (Tab.ERR ((off - 0x3C10000) / 8)) u) u)) ∧
    (reads → off ∈ rows → exec (.registerRead off 8 src) s = .next (reply src (rd off u &&& ((regRowAt off).map rwMask).getD 0) u)) ∧
    (writes → size ≠ 8 → exec (.registerWrite off size v src) s = .next (badAccess src 0 off u)) ∧
    (writes → ¬ aligned → exec (.registerWrite off 8 v src) s = .next (badAccess src 1 off u)) ∧
    (writes → aligned → undefined → exec (.registerWrite off 8 v src) s = .next (badAccess src 2 off u)) ∧
    (writes → aligned → regRowAt off = some r → exec (.registerWrite off 8 v src) s = .next (settleAll (regWrite src r off v u))) ∧
    (writes → off ∈ rows → ∃ t m, exec (.registerWrite off 8 v src) s = .next t ∧ (regRowAt off).map rwMask = some m ∧
      rd off t &&& m = v &&& m ∧ (∀ x, x ≠ off → rd x t = rd x u) ∧ t.tabs = s.tabs) ∧
    (Reaches .sideband off .read s → ¬ aligned → exec (.regRead off) s = .next (reply .sideband 0 (badAccess .sideband 1 off b))) ∧
    (Reaches .sideband off .read s → aligned → undefined →
      exec (.regRead off) s = .next (reply .sideband 0 (badAccess .sideband 2 off b))) ∧
    (Reaches .sideband off .read s → aligned → regRowAt off = some r →
      exec (.regRead off) s = .next (settleAll (regRead .sideband r off b))) ∧
    (Reaches .sideband off .read s → off ∈ rows → exec (.regRead off) s =
      .next (reply .sideband (rd off b &&& ((regRowAt off).map rwMask).getD 0) b)) ∧
    (Reaches .sideband off (.write v) s → aligned → regRowAt off = some r →
      exec (.regWrite off v) s = .next (settleAll (regWrite .sideband r off v b))) ∧
    (Reaches .sideband off (.write v) s → off ∈ rows → ∃ t m, exec (.regWrite off v) s = .next t ∧
      (regRowAt off).map rwMask = some m ∧ rd off t &&& m = v &&& m ∧ ∀ x, x ≠ off → rd x t = rd x b) ∧
    (sbAddressed s = true → sbReaches .read off (bump Reg.MGT_SB_XFERS s) = false →
      exec (.regRead off) s = .next (sbFail 1 (bump Reg.MGT_SB_XFERS s))) ∧
    (sbAddressed s = true → sbReaches (.write v) off (bump Reg.MGT_SB_XFERS s) = false →
      exec (.regWrite off v) s = .next (sbFail 1 (bump Reg.MGT_SB_XFERS s))) ∧
    (asks → moves → s.errPending = 0 → ∃ t, exec (.errHeadWrite v src) s = .next t ∧
      rdF Reg.ERR_STATE Fld.ERR_STATE_HEAD t = head ∧ rdF Reg.ERR_STATE Fld.ERR_STATE_TAIL t = till ∧ t.v16Sent = false ∧
      t.tabs = s.tabs) ∧
    (asks → ¬ moves → ∃ t, exec (.errHeadWrite v src) s = .next t ∧ rd Reg.ERR_STATE t = rd Reg.ERR_STATE s ∧
      rd Reg.GLB_BAD_ACCESS t = rd Reg.GLB_BAD_ACCESS s + 1) ∧
    (asks → moves → s.errPending ≠ 0 → errFull (wrF Reg.ERR_STATE Fld.ERR_STATE_HEAD head u) = false → 2 ≤ s.dev → dead s = false →
      ∃ t, exec (.errHeadWrite v src) s = .next t ∧ t.errPending = 0 ∧ rdF Reg.ERR_STATE Fld.ERR_STATE_HEAD t = head ∧
        rdF Reg.ERR_STATE Fld.ERR_STATE_TAIL t = (till + 1) % 2 ^ 32 ∧
        tb (Tab.ERR (till % 4096 * 8 + 3)) t = w64 s.errPending) ∧
    (Reaches src Reg.GLB_BAD_FIRST (.write (v ||| maskF Fld.GLB_BAD_FIRST_VALID)) s →
      exec (.glbBadFirstClear v src) s = .next (wr Reg.GLB_BAD_FIRST 0 u))

/-- A step carries out the command at the front of the queue on the state with the queue's rest. On an empty queue the block
idles (the model's choice, log entry 3): one cycle passes, or none where it is held in reset or its clock has stopped. -/
def Obligations.StepRunsTheFrontCommand : Prop :=
  (∀ (c : Instr) (rest : List Instr) (s : State), step { s with pending := c :: rest } = exec c { s with pending := rest }) ∧
  (∀ s : State, s.pending = [] → step s =
    .next (if s.dev < 2 ∨ s.power.warm.isSome = true ∨ (s.dev = 8 ∧ s.power.refOk = false) then s else { s with cycle := s.cycle + 1 }))

/-- The state after reset: LOAD, every register at its reset value, every table, SRAM and Ruril byte 0, every tag the CRC of a
tile of zeros under an undefined format, every sequencer IDLE, every port DISABLED, nothing pending, and every map in its
canonical form. -/
def Obligations.ResetStateIsClean : Prop :=
  let s := State.reset
  s.dev = 2 ∧ s.cycle = 0 ∧ s.pending = [] ∧ s.sent = [] ∧ Quiet s ∧ s.canonical = true ∧
    (∀ off r, regRowAt off = some r → rd off s = r.reset) ∧ (∀ k, tb k s = 0) ∧
    (∀ b t, benchTile b t s = ⟨BitVec.ofNat 128 (crc32c (List.replicate 4096 0)), List.replicate 4096 0⟩) ∧
    (∀ n, rurilTile n s = ⟨BitVec.ofNat 128 (crc32c (List.replicate 4096 0)), List.replicate 4096 0⟩) ∧
    fmtDefined (tagF Fld.TAG_FORMAT blankTag) = false ∧ (∀ b q, (seqOf b q s).st = .idle) ∧
    (∀ n < 16, portState n s = 0) ∧ (∀ c < 16, ctxState c s = 0)

/-- No step leaves a map of the state out of its canonical form: keys strictly rising, and no entry at its default. So equal
contents of registers, tables, bench SRAM, Ruril and their tags stay equal data. -/
def Obligations.StepKeepsCanonicalForm : Prop :=
  ∀ s t : State, s.canonical = true → step s = .next t → t.canonical = true

/-- No step leaves the device in a state that the spec does not name, and every step takes exactly the command at the front of
the queue, leaving the others in their order. -/
def Obligations.StepKeepsDeviceStateAndQueue : Prop :=
  ∀ s t : State, step s = .next t → (s.dev ≤ 8 → t.dev ≤ 8) ∧ t.pending = s.pending.tail

/-- Every well-formed command is carried out in every state. A command stops the model only where it names a unit that the block
does not have, and then by that unit's name; none is refused. -/
def Obligations.WellFormedCommandsComplete : Prop :=
  (∀ (c : Instr) (s : State), c.wellFormed = true → Completes (exec c s)) ∧
  (∀ (c : Instr) (f : Fault) (s : State), exec c s = .fault f → c.wellFormed = false) ∧
  (∀ (c : Instr) (r : Refusal) (s : State), exec c s ≠ .refused r) ∧
  (∀ (b q : Nat) (e : Ecc) (s : State), 1176 ≤ b → exec (.pass b q) s = .fault .noSuchBench ∧
    exec (.passDispatch b q e) s = .fault .noSuchBench ∧ exec (.benchResetSettle b) s = .fault .noSuchBench)

/-- Slasal words. A word names an instruction exactly where its opcode is in the table, with the variant bits of MOVE.I and MOVE.T,
and every bit that its fields do not take is 0; its fields then read back as they were put. A sequencer that comes to
issue any other word faults with ILLEGAL_OP, whichever issue command is sent. -/
def Obligations.SlasalWordsFollowTheTables : Prop :=
  let mem : List Fld := [⟨52, 4⟩, ⟨43, 9⟩]
  let movei : List Fld := [⟨52, 4⟩, ⟨48, 4⟩, ⟨0, 32⟩]
  let movet : List Fld := [⟨52, 4⟩, ⟨43, 9⟩, ⟨32, 10⟩, ⟨24, 8⟩, ⟨20, 4⟩]
  let message : List Fld := [⟨52, 4⟩, ⟨43, 9⟩, ⟨28, 12⟩, ⟨24, 4⟩, ⟨13, 11⟩]
  let sem : List Fld := [⟨52, 4⟩, ⟨40, 12⟩, ⟨32, 8⟩]
  let branch : List Fld := [⟨52, 4⟩, ⟨48, 4⟩, ⟨47, 1⟩, ⟨31, 16⟩, ⟨0, 13⟩]
  let forms : List (Slasal × Nat × List Fld) :=
    [(.nop, 0x01 * 2 ^ 56, []),
     (.pass, 0x10 * 2 ^ 56, [⟨50, 6⟩, ⟨44, 6⟩, ⟨40, 4⟩, ⟨39, 1⟩, ⟨35, 4⟩, ⟨26, 9⟩, ⟨22, 4⟩, ⟨12, 10⟩]),
     (.swap, 0x11 * 2 ^ 56, [⟨50, 6⟩]),
     (.shave, 0x20 * 2 ^ 56, [⟨44, 6⟩, ⟨40, 4⟩, ⟨39, 1⟩, ⟨35, 4⟩, ⟨26, 9⟩, ⟨22, 4⟩, ⟨10, 12⟩]),
     (.sand, 0x28 * 2 ^ 56, [⟨48, 8⟩, ⟨44, 4⟩, ⟨35, 9⟩, ⟨31, 4⟩, ⟨22, 9⟩, ⟨18, 4⟩, ⟨9, 9⟩, ⟨1, 8⟩]),
     (.loadStile, 0x30 * 2 ^ 56, mem ++ [⟨41, 2⟩]), (.loadHold, 0x31 * 2 ^ 56, mem ++ [⟨41, 2⟩]),
     (.store, 0x38 * 2 ^ 56, [⟨50, 6⟩, ⟨46, 4⟩, ⟨40, 6⟩, ⟨36, 4⟩, ⟨27, 9⟩, ⟨19, 8⟩, ⟨18, 1⟩])] ++
    [(.moveISet, 0x40 * 2 ^ 56, movei), (.moveIAdd, 0x40 * 2 ^ 56 + 1 * 2 ^ 46, movei),
     (.moveIShl, 0x40 * 2 ^ 56 + 2 * 2 ^ 46, movei), (.moveIGet, 0x40 * 2 ^ 56 + 3 * 2 ^ 46, movei),
     (.moveTOut, 0x41 * 2 ^ 56, movet), (.moveTIn, 0x41 * 2 ^ 56 + 2 ^ 42, movet),
     (.send, 0x50 * 2 ^ 56, message), (.recv, 0x51 * 2 ^ 56, message),
     (.semWait, 0x58 * 2 ^ 56, sem), (.semSignal, 0x59 * 2 ^ 56, sem), (.sync, 0x60 * 2 ^ 56, [⟨48, 8⟩]),
     (.loop, 0x70 * 2 ^ 56, [⟨52, 4⟩, ⟨39, 13⟩, ⟨26, 13⟩, ⟨22, 4⟩, ⟨13, 9⟩, ⟨9, 4⟩, ⟨0, 9⟩])] ++
    [(.branchEq, 0x78 * 2 ^ 56, branch), (.branchNe, 0x79 * 2 ^ 56, branch), (.branchLt, 0x7A * 2 ^ 56, branch),
     (.branchGe, 0x7B * 2 ^ 56, branch), (.branchLtu, 0x7C * 2 ^ 56, branch), (.branchGeu, 0x7D * 2 ^ 56, branch),
     (.branchAl, 0x7E * 2 ^ 56, branch), (.halt, 0xF0 * 2 ^ 56, []), (.trap, 0xF1 * 2 ^ 56, [⟨0, 16⟩])]
  let word := fun (base : Nat) (fs : List Fld) (vs : List Nat) =>
    (fs.zip vs).foldl (fun w p => setF p.1 w p.2) (BitVec.ofNat 64 base)
  let issues : List (Nat → Nat → Instr) :=
    [.nop, .pass, .swap, .shave, .sand, .loadStile, .loadHold, .store, .moveISet, .moveIAdd, .moveIShl, .moveIGet, .moveTOut, .moveTIn,
     .send, .recv, .semWait, .semSignal, .sync, .loop, .branchEq, .branchNe, .branchLt, .branchGe, .branchLtu, .branchGeu, .branchAl,
     .halt, .trap]
  (∀ x ∈ forms, ∀ vs : List Nat, vs.length = x.2.2.length →
    slDecode (word x.2.1 x.2.2 vs) = some x.1 ∧
    ∀ p ∈ x.2.2.zip vs, getF p.1 (word x.2.1 x.2.2 vs) = p.2 % 2 ^ p.1.width) ∧
  (∀ (w : Word) (k : Slasal), slDecode w = some k →
    ∃ base fs vs, (k, base, fs) ∈ forms ∧ vs.length = fs.length ∧ w = word base fs vs) ∧
  (∀ (b q : Nat) (s : State), Acts b q s → canIssue b q s = true → (seqOf b q s).pc < 8192 → slDecode (curWord b q s) = none →
    let u := benchFault b q 1 0 (seqOf b q s).pc (atIssue b q s)
    (seqOf b q u).st = .fault ∧ getF Fld.BEN_FAULT0_CAUSE (rd (faultReg b q) u) = 1 ∧
      ∀ i ∈ issues, exec (i b q) s = .next (settle u))

/-- A bench that runs keeps its registers. SPLIT and BEN_EXC_CTL take a value only while every sequencer of the bench is IDLE, DONE
or FAULT, and a write that comes at another time has no effect but in GLB_BAD_ACCESS; an access to BEN_IMEM_DATA whose
sequencer is RUN or WAIT is refused in the same way, reads 0, and leaves the address. -/
def Obligations.LockedBenchRegisters : Prop :=
  ∀ (b : Nat) (v : Word) (src : Src) (s : State), b < 1176 → Quiet s → s.priv = false →
    let u := arrived src s
    let writes := fun (off : Nat) => Reaches src off (.write v) s
    let still := ∀ q < 2, (seqOf b q s).st = .idle ∨ (seqOf b q s).st = .done ∨ (seqOf b q s).st = .fault
    let running := ∃ q < 2, (seqOf b q s).st = .run ∨ (seqOf b q s).st = .wait
    let at' := (seqOf b (rdF (Reg.BEN_IMEM_ADDR b) Fld.BEN_IMEM_ADDR_SEQ u) s).st
    let refused := fun (t : State) => rd Reg.GLB_BAD_ACCESS t = rd Reg.GLB_BAD_ACCESS u + 1 ∧
      (∀ off, off ≠ Reg.GLB_BAD_ACCESS → off ≠ Reg.GLB_BAD_FIRST → rd off t = rd off u) ∧
      (bitF Fld.GLB_BAD_FIRST_VALID (rd Reg.GLB_BAD_FIRST u) = true → rd Reg.GLB_BAD_FIRST t = rd Reg.GLB_BAD_FIRST u) ∧
      t.tabs = s.tabs ∧ t.benches = s.benches ∧ t.sram = s.sram ∧ t.ruril = s.ruril
    (writes (Reg.BEN_CTL b) → still → ∃ t, exec (.benCtlWrite b v src) s = .next t ∧
      rdF (Reg.BEN_CTL b) Fld.BEN_CTL_SPLIT t = getF Fld.BEN_CTL_SPLIT v) ∧
    (writes (Reg.BEN_CTL b) → running → getF Fld.BEN_CTL_SPLIT v ≠ rdF (Reg.BEN_CTL b) Fld.BEN_CTL_SPLIT u →
      ∃ t, exec (.benCtlWrite b v src) s = .next t ∧ refused t) ∧
    (writes (Reg.BEN_EXC_CTL b) → still → ∃ t, exec (.benExcCtlWrite b v src) s = .next t ∧
      rd (Reg.BEN_EXC_CTL b) t = v &&& 0x1F1F) ∧
    (writes (Reg.BEN_EXC_CTL b) → running → ∃ t, exec (.benExcCtlWrite b v src) s = .next t ∧ refused t) ∧
    (writes (Reg.BEN_IMEM_DATA b) → at' = .run ∨ at' = .wait → ∃ t, exec (.benImemDataWrite b v src) s = .next t ∧ refused t) ∧
    (Reaches src (Reg.BEN_IMEM_DATA b) .read s → at' = .run ∨ at' = .wait →
      ∃ t, exec (.benImemDataRead b src) s = .next t ∧ refused t ∧ (src = .host → t.sent = s.sent ++ [.mmio 0]) ∧
        (src = .sideband → t.mgt.data = List.replicate 8 0))

/-- A taken BRANCH whose target lies outside the body of an active loop ends that loop and every loop nested in it: the loops
that stay are the outer ones, each of which holds the target, and the innermost loop around the ended ones that went does
not. -/
def Obligations.BranchesEndLoops : Prop :=
  ∀ (b q : Nat) (s : State),
    let w := curWord b q s
    let x := (seqOf b q s).index (getF Sl.BRANCH_XA w)
    let y := if getF Sl.BRANCH_IMM w = 1 then wrap32 (signExt 16 (getF Sl.BRANCH_IMMV w))
      else (seqOf b q s).index (getF Sl.BRANCH_XB w)
    let target := getF Sl.BRANCH_TARGET w
    let holds := fun (f : LoopFrame) => f.first ≤ target ∧ target ≤ f.last
    let taken := fun (i : Instr) => ∃ t ended, exec i s = .next t ∧ (seqOf b q t).pc = target ∧
      (seqOf b q s).loops = ended ++ (seqOf b q t).loops ∧ (∀ f ∈ (seqOf b q t).loops, holds f) ∧
      (∀ f, ended.getLast? = some f → ¬ holds f)
    (Issues b q .branchEq s → x = y → taken (.branchEq b q)) ∧ (Issues b q .branchNe s → x ≠ y → taken (.branchNe b q)) ∧
    (Issues b q .branchLt s → signExt 32 x < signExt 32 y → taken (.branchLt b q)) ∧
    (Issues b q .branchGe s → signExt 32 y ≤ signExt 32 x → taken (.branchGe b q)) ∧
    (Issues b q .branchLtu s → x < y → taken (.branchLtu b q)) ∧ (Issues b q .branchGeu s → y ≤ x → taken (.branchGeu b q)) ∧
    (Issues b q .branchAl s → taken (.branchAl b q))

/-- Who may not reach a register changes nothing. An access over a host link that is not open, or to a sideband target without an
address, has no effect; a write that the device state, the IDE policy or an open glue-up shuts out counts in
GLB_BAD_ACCESS alone; a sideband access that the target refuses counts in MGT_SB_ERRORS, shows LAST 1 and reads as 0. -/
def Obligations.ShutAccessesChangeNothing : Prop :=
  ∀ (off size : Nat) (v : Word) (a : Access) (s : State), Quiet s →
    let refused := fun (u t : State) => rd Reg.GLB_BAD_ACCESS t = rd Reg.GLB_BAD_ACCESS u + 1 ∧
      (∀ x, x ≠ Reg.GLB_BAD_ACCESS → x ≠ Reg.GLB_BAD_FIRST → rd x t = rd x u) ∧
      t.tabs = s.tabs ∧ t.benches = s.benches ∧ t.sram = s.sram ∧ t.ruril = s.ruril ∧ t.dev = s.dev ∧ t.sent = s.sent
    let u := bump Reg.MGT_SB_XFERS s
    (hostOpen s = false → exec (.registerRead off size .host) s = .next s ∧ exec (.registerWrite off size v .host) s = .next s) ∧
    (sbAddressed s = false → exec (.registerRead off size .sideband) s = .next s ∧
      exec (.registerWrite off size v .sideband) s = .next s ∧ exec (.regRead off) s = .next s ∧ exec (.regWrite off v) s = .next s) ∧
    (hostOpen s = true → hostShut off s = true ∨ glueShuts off s = true →
      ∃ t, exec (.registerWrite off size v .host) s = .next t ∧ refused s t) ∧
    (sbAddressed s = true → sbReaches (.write v) off u = true → glueShuts off (sbLast 0 u) = true →
      ∃ t, exec (.regWrite off v) s = .next t ∧ refused (sbLast 0 u) t) ∧
    (sbAddressed s = true → sbReaches a off u = false →
      ∃ t, exec (match a with | .read => .regRead off | .write w => .regWrite off w) s = .next t ∧
        rd Reg.MGT_SB_ERRORS t = rd Reg.MGT_SB_ERRORS s + 1 ∧ rd Reg.MGT_SB_XFERS t = rd Reg.MGT_SB_XFERS s + 1 ∧
        rdF Reg.MGT_SB_STATUS Fld.MGT_SB_STATUS_LAST t = 1 ∧ t.mgt.data = List.replicate 64 0 ∧
        (∀ x, x ≠ Reg.MGT_SB_ERRORS → x ≠ Reg.MGT_SB_XFERS → x ≠ Reg.MGT_SB_STATUS → rd x t = rd x s) ∧
        t.tabs = s.tabs ∧ t.benches = s.benches ∧ t.sram = s.sram ∧ t.ruril = s.ruril)

end Statements
end

