-- ==== Sys2Proof/Laws/Fields.lean ====
section
/-!
SUPPORT. Reading a bit field of a word after one was written.
-/
namespace Sys2Proof.Machine

theorem getF_testBit (f : Fld) (w : Word) (i : Nat) :
    (getF f w).testBit i = (decide (i < f.width) && w.toNat.testBit (f.lo + i)) := by
  simp [getF, Nat.testBit_mod_two_pow, Nat.testBit_div_two_pow, Nat.add_comm]

theorem maskF_testBit (f : Fld) (i : Nat) (h : i < 64) :
    (maskF f).toNat.testBit i = (decide (f.lo ≤ i) && decide (i < f.lo + f.width)) := by
  unfold maskF
  rw [BitVec.toNat_ofNat, Nat.testBit_mod_two_pow, Nat.testBit_mul_two_pow]
  by_cases h1 : f.lo ≤ i
  · rw [Nat.testBit_two_pow_sub_one]
    simp only [h, h1, decide_true, Bool.true_and, decide_eq_decide]
    omega
  · simp [h1]

theorem setF_testBit (f : Fld) (w : Word) (x i : Nat) (h : i < 64) :
    (setF f w x).toNat.testBit i =
      if f.lo ≤ i ∧ i < f.lo + f.width then x.testBit (i - f.lo) else w.toNat.testBit i := by
  unfold setF
  rw [BitVec.toNat_or, Nat.testBit_or, BitVec.toNat_and, Nat.testBit_and, BitVec.toNat_ofNat, Nat.testBit_mod_two_pow,
    Nat.testBit_mul_two_pow, Nat.testBit_mod_two_pow]
  have hn : (~~~(maskF f)).toNat.testBit i = !(maskF f).toNat.testBit i := by
    have := BitVec.getLsbD_not (x := maskF f) (i := i)
    simpa [BitVec.getLsbD, h] using this
  rw [hn, maskF_testBit f i h]
  by_cases h1 : f.lo ≤ i
  · by_cases h2 : i < f.lo + f.width
    · have h3 : i - f.lo < f.width := by omega
      simp [h, h1, h2, h3]
    · have h3 : ¬ (i - f.lo < f.width) := by omega
      simp [h1, h2, h3]
  · simp [h1]

/-- A field reads back what was written to it, modulo its width. -/
theorem getF_setF_same (f : Fld) (w : Word) (x : Nat) (h : f.lo + f.width ≤ 64) :
    getF f (setF f w x) = x % 2 ^ f.width := by
  apply Nat.eq_of_testBit_eq; intro i
  rw [getF_testBit, Nat.testBit_mod_two_pow]
  by_cases hi : i < f.width
  · rw [setF_testBit f w x (f.lo + i) (by omega)]
    have : f.lo ≤ f.lo + i ∧ f.lo + i < f.lo + f.width := by omega
    simp [hi]
  · simp [hi]

/-- Writing one field leaves a field apart from it as it was. -/
theorem getF_setF_other (f g : Fld) (w : Word) (x : Nat) (hg : g.lo + g.width ≤ 64)
    (h : g.lo + g.width ≤ f.lo ∨ f.lo + f.width ≤ g.lo) : getF g (setF f w x) = getF g w := by
  apply Nat.eq_of_testBit_eq; intro i
  rw [getF_testBit, getF_testBit]
  by_cases hi : i < g.width
  · rw [setF_testBit f w x (g.lo + i) (by omega)]
    have : ¬ (f.lo ≤ g.lo + i ∧ g.lo + i < f.lo + f.width) := by omega
    rw [if_neg this]
  · simp [hi]

end Sys2Proof.Machine
end

