-- ==== Sys2Proof/Laws/Maps.lean ====
section
/-!
SUPPORT. Laws of the sparse maps and the byte memories: reading after writing, and the canonical form.
-/
namespace Sys2Proof.Machine

variable {α : Type} [DecidableEq α]

theorem smPut_find (d : Nat → α) (m : SMap α) (k : Nat) (v : α) :
    smGet d (smPut d m k v) k = v := by
  have h1 : (m.filter (fun p => decide (p.1 < k))).find? (fun p => p.1 == k) = none := by
    rw [List.find?_eq_none]; intro p hp; have := (List.mem_filter.1 hp).2; simp at this ⊢; omega
  have h2 : (m.filter (fun p => decide (k < p.1))).find? (fun p => p.1 == k) = none := by
    rw [List.find?_eq_none]; intro p hp; have := (List.mem_filter.1 hp).2; simp at this ⊢; omega
  unfold smGet smPut
  rw [List.find?_append, List.find?_append, h1, h2]
  by_cases h : v = d k <;> simp [h]

/-- Reading the key that was written gives the value written. -/
@[simp] theorem smGet_smPut_same (d : Nat → α) (m : SMap α) (k : Nat) (v : α) : smGet d (smPut d m k v) k = v :=
  smPut_find d m k v

omit [DecidableEq α] in
theorem find_filter_key (m : SMap α) (p : Nat → Bool) (j : Nat) (h : p j = true) :
    (m.filter (fun x => p x.1)).find? (fun x => x.1 == j) = m.find? (fun x => x.1 == j) := by
  induction m with
  | nil => rfl
  | cons x xs ih =>
    by_cases hx : p x.1 = true
    · rw [List.filter_cons_of_pos (p := fun y : Nat × α => p y.1) hx]
      by_cases hj : (x.1 == j) = true
      · rw [List.find?_cons_of_pos (p := fun y : Nat × α => y.1 == j) hj, List.find?_cons_of_pos (p := fun y : Nat × α => y.1 == j) hj]
      · rw [List.find?_cons_of_neg (p := fun y : Nat × α => y.1 == j) hj, List.find?_cons_of_neg (p := fun y : Nat × α => y.1 == j) hj, ih]
    · rw [List.filter_cons_of_neg (p := fun y : Nat × α => p y.1) hx, ih]
      have hj : ¬ (x.1 == j) = true := by
        intro e; simp at e; rw [e] at hx; exact hx h
      rw [List.find?_cons_of_neg (p := fun y : Nat × α => y.1 == j) hj]

omit [DecidableEq α] in
theorem find_filter_out (m : SMap α) (p : Nat → Bool) (j : Nat) (h : p j = false) :
    (m.filter (fun x => p x.1)).find? (fun x => x.1 == j) = none := by
  rw [List.find?_eq_none]; intro x hx
  have := (List.mem_filter.1 hx).2
  intro e; simp at e; rw [e, h] at this; exact absurd this (by simp)

/-- Writing one key leaves every other key as it was. -/
theorem smGet_smPut_other (d : Nat → α) (m : SMap α) {k j : Nat} (v : α) (h : j ≠ k) :
    smGet d (smPut d m k v) j = smGet d m j := by
  have mid : (if v = d k then ([] : SMap α) else [(k, v)]).find? (fun p => p.1 == j) = none := by
    by_cases e : v = d k <;> simp [e, Ne.symm h]
  unfold smGet smPut
  rw [List.find?_append, List.find?_append, mid]
  rcases Nat.lt_or_gt_of_ne h with hlt | hgt
  · rw [find_filter_key m (fun x => decide (x < k)) j (by simpa using hlt),
      find_filter_out m (fun x => decide (k < x)) j (by simp; omega)]
    cases m.find? (fun p => p.1 == j) <;> simp
  · rw [find_filter_out m (fun x => decide (x < k)) j (by simp; omega),
      find_filter_key m (fun x => decide (k < x)) j (by simpa using hgt)]
    cases m.find? (fun p => p.1 == j) <;> simp

theorem smWf_iff (d : Nat → α) (m : SMap α) :
    smWf d m = true ↔ m.Pairwise (fun p q => p.1 < q.1) ∧ ∀ p ∈ m, p.2 ≠ d p.1 := by
  simp [smWf]

/-- The empty map is canonical. -/
@[simp] theorem smWf_nil (d : Nat → α) : smWf d ([] : SMap α) = true := by simp [smWf]

/-- A part of a canonical map is canonical. -/
theorem smWf_filter (d : Nat → α) (m : SMap α) (p : Nat × α → Bool) (h : smWf d m = true) :
    smWf d (m.filter p) = true := by
  rw [smWf_iff] at h ⊢
  exact ⟨h.1.filter p, fun x hx => h.2 x (List.mem_filter.1 hx).1⟩

/-- Writing a key keeps the canonical form. -/
theorem smWf_smPut (d : Nat → α) (m : SMap α) (k : Nat) (v : α) (h : smWf d m = true) :
    smWf d (smPut d m k v) = true := by
  rw [smWf_iff] at h ⊢
  unfold smPut
  refine ⟨?_, ?_⟩
  · rw [List.append_assoc, List.pairwise_append]
    refine ⟨h.1.filter _, ?_, ?_⟩
    · rw [List.pairwise_append]
      refine ⟨by by_cases e : v = d k <;> simp [e], h.1.filter _, ?_⟩
      intro a ha b hb
      have hb' := (List.mem_filter.1 hb).2
      by_cases e : v = d k
      · simp [e] at ha
      · simp [e] at ha; subst ha; simpa using hb'
    · intro a ha b hb
      have ha' := (List.mem_filter.1 ha).2
      rcases List.mem_append.1 hb with hb | hb
      · by_cases e : v = d k
        · simp [e] at hb
        · simp [e] at hb; subst hb; simpa using ha'
      · have hb' := (List.mem_filter.1 hb).2
        simp at ha' hb'; omega
  · intro x hx
    rcases List.mem_append.1 hx with hx | hx
    · rcases List.mem_append.1 hx with hx | hx
      · exact h.2 x (List.mem_filter.1 hx).1
      · by_cases e : v = d k
        · simp [e] at hx
        · simp [e] at hx; subst hx; exact e
    · exact h.2 x (List.mem_filter.1 hx).1

theorem cellsOf_range (a : Nat) (bs : List Byte) : ∀ p ∈ cellsOf a bs, a ≤ p.1 ∧ p.1 < a + bs.length ∧ p.2 ≠ 0 := by
  induction bs generalizing a with
  | nil => simp [cellsOf]
  | cons b bs ih =>
    intro p hp
    have step : (a + 1 ≤ p.1 ∧ p.1 < a + 1 + bs.length ∧ p.2 ≠ 0) → (a ≤ p.1 ∧ p.1 < a + (b :: bs).length ∧ p.2 ≠ 0) := by
      rintro ⟨h1, h2, h3⟩
      refine ⟨by omega, ?_, h3⟩
      simp only [List.length_cons]; omega
    simp only [cellsOf] at hp
    by_cases e : b = 0
    · rw [if_pos e] at hp; exact step (ih (a + 1) p hp)
    · rw [if_neg e, List.mem_cons] at hp
      rcases hp with rfl | hp
      · refine ⟨Nat.le_refl _, ?_, e⟩
        simp only [List.length_cons]; omega
      · exact step (ih (a + 1) p hp)

theorem cellsOf_rising (a : Nat) (bs : List Byte) : (cellsOf a bs).Pairwise (fun p q => p.1 < q.1) := by
  induction bs generalizing a with
  | nil => simp [cellsOf]
  | cons b bs ih =>
    simp only [cellsOf]
    by_cases e : b = 0
    · rw [if_pos e]; exact ih (a + 1)
    · rw [if_neg e, List.pairwise_cons]
      exact ⟨fun q hq => by have := (cellsOf_range (a + 1) bs q hq).1; simp; omega, ih (a + 1)⟩

/-- Writing bytes keeps a memory's canonical form. -/
theorem memWrite_wf (m : SMap Byte) (a : Nat) (bs : List Byte) (h : smWf (fun _ => (0 : Byte)) m = true) :
    smWf (fun _ => (0 : Byte)) (memWrite m a bs) = true := by
  rw [smWf_iff] at h ⊢
  unfold memWrite
  refine ⟨?_, ?_⟩
  · rw [List.append_assoc, List.pairwise_append]
    refine ⟨h.1.filter _, ?_, ?_⟩
    · rw [List.pairwise_append]
      refine ⟨cellsOf_rising a bs, h.1.filter _, ?_⟩
      intro p hp q hq
      have h1 := cellsOf_range a bs p hp
      have h2 := (List.mem_filter.1 hq).2
      simp at h2; omega
    · intro p hp q hq
      have h1 := (List.mem_filter.1 hp).2
      simp at h1
      rcases List.mem_append.1 hq with hq | hq
      · have := cellsOf_range a bs q hq; omega
      · have h2 := (List.mem_filter.1 hq).2; simp at h2; omega
  · intro x hx
    rcases List.mem_append.1 hx with hx | hx
    · rcases List.mem_append.1 hx with hx | hx
      · exact h.2 x (List.mem_filter.1 hx).1
      · exact (cellsOf_range a bs x hx).2.2
    · exact h.2 x (List.mem_filter.1 hx).1

theorem cellsOf_get (a j : Nat) (bs : List Byte) (h : a ≤ j) (hj : j < a + bs.length) :
    smGet (fun _ => (0 : Byte)) (cellsOf a bs) j = bs.getD (j - a) 0 := by
  induction bs generalizing a with
  | nil => simp at hj; omega
  | cons b bs ih =>
    simp only [cellsOf]
    by_cases e : j = a
    · subst e
      by_cases z : b = 0
      · have hn : (cellsOf (j + 1) bs).find? (fun p => p.1 == j) = none := by
          rw [List.find?_eq_none]; intro p hp; have := (cellsOf_range (j + 1) bs p hp).1; simp; omega
        simp [smGet, z, hn]
      · simp only [if_neg z, smGet]; simp
    · have hj' : j < a + 1 + bs.length := by simp at hj; omega
      have := ih (a + 1) (by omega) hj'
      have hs : j - a = (j - (a + 1)) + 1 := by omega
      by_cases z : b = 0
      · rw [if_pos z, this, hs]; simp
      · rw [if_neg z]
        have hne : ¬ ((a == j) = true) := by simp; omega
        unfold smGet at this ⊢
        rw [List.find?_cons_of_neg (p := fun y : Nat × Byte => y.1 == j) (by simpa using hne), this, hs]; simp

/-- A byte read after bytes were written: the byte written there, or the old one outside. -/
theorem memByte_memWrite (m : SMap Byte) (a j : Nat) (bs : List Byte) :
    memByte (memWrite m a bs) j = if a ≤ j ∧ j < a + bs.length then bs.getD (j - a) 0 else memByte m j := by
  unfold memByte memWrite
  by_cases h : a ≤ j ∧ j < a + bs.length
  · rw [if_pos h, ← cellsOf_get a j bs h.1 h.2]
    unfold smGet
    rw [List.find?_append, List.find?_append, find_filter_out m (fun x => decide (x < a)) j (by simp; omega),
      find_filter_out m (fun x => decide (a + bs.length ≤ x)) j (by simp; omega)]
    simp
  · rw [if_neg h]
    have hc : (cellsOf a bs).find? (fun p => p.1 == j) = none := by
      rw [List.find?_eq_none]; intro p hp; have := cellsOf_range a bs p hp; simp; omega
    unfold smGet
    rw [List.find?_append, List.find?_append, hc]
    by_cases hlt : j < a
    · rw [find_filter_key m (fun x => decide (x < a)) j (by simpa using hlt),
        find_filter_out m (fun x => decide (a + bs.length ≤ x)) j (by simp; omega)]
      cases m.find? (fun p => p.1 == j) <;> simp
    · rw [find_filter_out m (fun x => decide (x < a)) j (by simp; omega),
        find_filter_key m (fun x => decide (a + bs.length ≤ x)) j (by simp; omega)]
      cases m.find? (fun p => p.1 == j) <;> simp

end Sys2Proof.Machine
end

