-- ==== Sys2Proof/Laws/Canonical.lean ====
section
/-!
SUPPORT. Every named operation over registers, tables, bench SRAM and Ruril keeps the canonical form of the state's maps.
-/
namespace Sys2Proof.Machine

theorem canonical_iff (s : State) : s.canonical = true ↔
    smWf resetOf s.regs = true ∧ smWf (fun _ => (0 : Word)) s.tabs = true ∧ Memory.wf s.sram = true ∧ Memory.wf s.ruril = true ∧
      smWf (fun _ => blankTag) s.stags = true ∧ smWf (fun _ => blankTag) s.rtags = true := by
  simp only [State.canonical, Bool.and_eq_true]
  tauto

/-- A change that leaves the six maps leaves their form. -/
theorem canonical_of_maps {s t : State} (hr : t.regs = s.regs) (ht : t.tabs = s.tabs) (hs : t.sram = s.sram)
    (hu : t.ruril = s.ruril) (hst : t.stags = s.stags) (hrt : t.rtags = s.rtags) (h : s.canonical = true) : t.canonical = true := by
  rw [canonical_iff] at h ⊢
  rw [hr, ht, hs, hu, hst, hrt]
  exact h

theorem memory_wf_write {m : SMap Byte} (a : Nat) (bs : List Byte) (h : Memory.wf m = true) : Memory.wf (memWrite m a bs) = true :=
  memWrite_wf m a bs h

/-- The state after reset is canonical. -/
theorem canonical_reset : State.reset.canonical = true := by
  simp [canonical_iff, State.reset, Memory.wf]

theorem canonical_wr (off : Nat) (v : Word) (s : State) (h : s.canonical = true) : (wr off v s).canonical = true := by
  rw [canonical_iff] at h ⊢
  exact ⟨smWf_smPut _ _ _ _ h.1, h.2⟩

theorem canonical_wrF (off : Nat) (f : Fld) (x : Nat) (s : State) (h : s.canonical = true) : (wrF off f x s).canonical = true :=
  canonical_wr _ _ s h

theorem canonical_bumpBy (n off : Nat) (s : State) (h : s.canonical = true) : (bumpBy n off s).canonical = true :=
  canonical_wr _ _ s h

theorem canonical_bump (off : Nat) (s : State) (h : s.canonical = true) : (bump off s).canonical = true :=
  canonical_wr _ _ s h

theorem canonical_tbW (k : Nat) (v : Word) (s : State) (h : s.canonical = true) : (tbW k v s).canonical = true := by
  rw [canonical_iff] at h ⊢
  exact ⟨h.1, smWf_smPut _ _ _ _ h.2.1, h.2.2⟩

theorem canonical_tabClear (lo hi : Nat) (s : State) (h : s.canonical = true) : (tabClear lo hi s).canonical = true := by
  rw [canonical_iff] at h ⊢
  exact ⟨h.1, smWf_filter _ _ _ h.2.1, h.2.2⟩

theorem canonical_setBench (b : Nat) (x : Bench) (s : State) (h : s.canonical = true) : (setBench b x s).canonical = true :=
  canonical_of_maps rfl rfl rfl rfl rfl rfl h

theorem canonical_setBenchTile (b t : Nat) (x : Tile) (s : State) (h : s.canonical = true) :
    (setBenchTile b t x s).canonical = true := by
  refine canonical_setBench b _ _ ?_
  rw [canonical_iff] at h ⊢
  exact ⟨h.1, h.2.1, memWrite_wf _ _ _ h.2.2.1, h.2.2.2.1, smWf_smPut _ _ _ _ h.2.2.2.2.1, h.2.2.2.2.2⟩

theorem canonical_setRurilTile (n : Nat) (x : Tile) (s : State) (h : s.canonical = true) :
    (setRurilTile n x s).canonical = true := by
  rw [canonical_iff] at h ⊢
  exact ⟨h.1, h.2.1, h.2.2.1, memWrite_wf _ _ _ h.2.2.2.1, h.2.2.2.2.1, smWf_smPut _ _ _ _ h.2.2.2.2.2⟩

theorem canonical_setRurilBytes (a : Nat) (bs : List Byte) (s : State) (h : s.canonical = true) :
    (setRurilBytes a bs s).canonical = true := by
  rw [canonical_iff] at h ⊢
  exact ⟨h.1, h.2.1, h.2.2.1, memWrite_wf _ _ _ h.2.2.2.1, h.2.2.2.2⟩

theorem canonical_setRurilBad (n : Nat) (s : State) (h : s.canonical = true) : (setRurilBad n s).canonical = true :=
  canonical_of_maps rfl rfl rfl rfl rfl rfl h

theorem canonical_hostWriteTile (a : Nat) (bs : List Byte) (s : State) (h : s.canonical = true) :
    (hostWriteTile a bs s).canonical = true := by
  have k := canonical_setRurilBytes a bs s h
  rw [canonical_iff] at k ⊢
  exact ⟨k.1, k.2.1, k.2.2.1, k.2.2.2.1, k.2.2.2.2.1, smWf_smPut _ _ _ _ k.2.2.2.2.2⟩

theorem canonical_spoilTag (n : Nat) (s : State) (h : s.canonical = true) : (spoilTag n s).canonical = true := by
  rw [canonical_iff] at h ⊢
  exact ⟨h.1, h.2.1, h.2.2.1, h.2.2.2.1, h.2.2.2.2.1, smWf_smPut _ _ _ _ h.2.2.2.2.2⟩

/-- A fold of operations that each keep the form keeps it. -/
theorem canonical_foldl {α : Type} (f : State → α → State) (hf : ∀ t x, t.canonical = true → (f t x).canonical = true) (xs : List α)
    (s : State) (h : s.canonical = true) : (xs.foldl f s).canonical = true := by
  induction xs generalizing s with
  | nil => exact h
  | cons x xs ih => exact ih _ (hf s x h)

theorem canonical_resetBench (b : Nat) (s : State) (h : s.canonical = true) : (resetBench b s).canonical = true := by
  unfold resetBench
  refine canonical_foldl _ (fun t x k => canonical_wr x 0 t k) _ _ (canonical_setBench b _ _ ?_)
  rw [canonical_iff] at h ⊢
  exact ⟨h.1, h.2.1, smWf_filter _ _ _ h.2.2.1, h.2.2.2.1, smWf_filter _ _ _ h.2.2.2.2.1, h.2.2.2.2.2⟩

end Sys2Proof.Machine
end

