-- ==== Sys2Proof/Laws/Settle.lean ====
section
/-!
SUPPORT. The end of a step: where nothing is left to work off, settling changes nothing.
-/
namespace Sys2Proof.Machine

/-- Settling a state without work changes nothing. -/
theorem settle_quiet (s : State) (h : s.work = []) : settle s = s := by
  simp [settle, settleN, h]

/-- The same for the end of a step that may start collectives. -/
theorem settleAll_quiet (s : State) (h : Quiet s) : settleAll s = s := by
  obtain ⟨hw, hc⟩ := h
  have h1 : colAdvanceAll s = s := by simp [colAdvanceAll, hc, ColSt.empty]
  have h2 : colRunAgain s = s := by
    have h3 : setC (fun c => { c with owedAborts := [] }) s = s := by
      cases s; simp only at hc; subst hc; rfl
    simp [colRunAgain, hc, h3, ColSt.empty]
  rw [settleAll, h1, h2, settle_quiet s hw]

end Sys2Proof.Machine
end

