-- ==== Sys2Proof/Laws/State.lean ====
section
/-!
SUPPORT. What each update of the state leaves as it was, one lemma for a field and an update, and reading back what
was stored.
-/
namespace Sys2Proof.Machine

section
variable (s : State) (k : Nat) (v : Word)
@[simp] theorem wr_cycle : (wr k v s).cycle = s.cycle := rfl
@[simp] theorem wr_dev : (wr k v s).dev = s.dev := rfl
@[simp] theorem wr_tabs : (wr k v s).tabs = s.tabs := rfl
@[simp] theorem wr_sram : (wr k v s).sram = s.sram := rfl
@[simp] theorem wr_stags : (wr k v s).stags = s.stags := rfl
@[simp] theorem wr_sbad : (wr k v s).sbad = s.sbad := rfl
@[simp] theorem wr_ruril : (wr k v s).ruril = s.ruril := rfl
@[simp] theorem wr_rtags : (wr k v s).rtags = s.rtags := rfl
@[simp] theorem wr_rbad : (wr k v s).rbad = s.rbad := rfl
@[simp] theorem wr_benches : (wr k v s).benches = s.benches := rfl
@[simp] theorem wr_tier : (wr k v s).tier = s.tier := rfl
@[simp] theorem wr_pool : (wr k v s).pool = s.pool := rfl
@[simp] theorem wr_ctxs : (wr k v s).ctxs = s.ctxs := rfl
@[simp] theorem wr_ports : (wr k v s).ports = s.ports := rfl
@[simp] theorem wr_xport : (wr k v s).xport = s.xport := rfl
@[simp] theorem wr_col : (wr k v s).col = s.col := rfl
@[simp] theorem wr_dov : (wr k v s).dov = s.dov := rfl
@[simp] theorem wr_clamp : (wr k v s).clamp = s.clamp := rfl
@[simp] theorem wr_mark : (wr k v s).mark = s.mark := rfl
@[simp] theorem wr_host : (wr k v s).host = s.host := rfl
@[simp] theorem wr_jig : (wr k v s).jig = s.jig := rfl
@[simp] theorem wr_power : (wr k v s).power = s.power := rfl
@[simp] theorem wr_kiln : (wr k v s).kiln = s.kiln := rfl
@[simp] theorem wr_mgt : (wr k v s).mgt = s.mgt := rfl
@[simp] theorem wr_sec : (wr k v s).sec = s.sec := rfl
@[simp] theorem wr_priv : (wr k v s).priv = s.priv := rfl
@[simp] theorem wr_msixTab : (wr k v s).msixTab = s.msixTab := rfl
@[simp] theorem wr_glueHold : (wr k v s).glueHold = s.glueHold := rfl
@[simp] theorem wr_errPending : (wr k v s).errPending = s.errPending := rfl
@[simp] theorem wr_v16Sent : (wr k v s).v16Sent = s.v16Sent := rfl
@[simp] theorem wr_msixEn : (wr k v s).msixEn = s.msixEn := rfl
@[simp] theorem wr_msixOpen : (wr k v s).msixOpen = s.msixOpen := rfl
@[simp] theorem wr_msixPba : (wr k v s).msixPba = s.msixPba := rfl
@[simp] theorem wr_ibiEn : (wr k v s).ibiEn = s.ibiEn := rfl
@[simp] theorem wr_ibiPend : (wr k v s).ibiPend = s.ibiPend := rfl
@[simp] theorem wr_work : (wr k v s).work = s.work := rfl
@[simp] theorem wr_sent : (wr k v s).sent = s.sent := rfl
@[simp] theorem wr_fresh : (wr k v s).fresh = s.fresh := rfl
@[simp] theorem wr_pending : (wr k v s).pending = s.pending := rfl
end

section
variable (s : State) (k : Nat) (f : Fld) (x : Nat)
@[simp] theorem wrF_cycle : (wrF k f x s).cycle = s.cycle := rfl
@[simp] theorem wrF_dev : (wrF k f x s).dev = s.dev := rfl
@[simp] theorem wrF_tabs : (wrF k f x s).tabs = s.tabs := rfl
@[simp] theorem wrF_sram : (wrF k f x s).sram = s.sram := rfl
@[simp] theorem wrF_stags : (wrF k f x s).stags = s.stags := rfl
@[simp] theorem wrF_sbad : (wrF k f x s).sbad = s.sbad := rfl
@[simp] theorem wrF_ruril : (wrF k f x s).ruril = s.ruril := rfl
@[simp] theorem wrF_rtags : (wrF k f x s).rtags = s.rtags := rfl
@[simp] theorem wrF_rbad : (wrF k f x s).rbad = s.rbad := rfl
@[simp] theorem wrF_benches : (wrF k f x s).benches = s.benches := rfl
@[simp] theorem wrF_tier : (wrF k f x s).tier = s.tier := rfl
@[simp] theorem wrF_pool : (wrF k f x s).pool = s.pool := rfl
@[simp] theorem wrF_ctxs : (wrF k f x s).ctxs = s.ctxs := rfl
@[simp] theorem wrF_ports : (wrF k f x s).ports = s.ports := rfl
@[simp] theorem wrF_xport : (wrF k f x s).xport = s.xport := rfl
@[simp] theorem wrF_col : (wrF k f x s).col = s.col := rfl
@[simp] theorem wrF_dov : (wrF k f x s).dov = s.dov := rfl
@[simp] theorem wrF_clamp : (wrF k f x s).clamp = s.clamp := rfl
@[simp] theorem wrF_mark : (wrF k f x s).mark = s.mark := rfl
@[simp] theorem wrF_host : (wrF k f x s).host = s.host := rfl
@[simp] theorem wrF_jig : (wrF k f x s).jig = s.jig := rfl
@[simp] theorem wrF_power : (wrF k f x s).power = s.power := rfl
@[simp] theorem wrF_kiln : (wrF k f x s).kiln = s.kiln := rfl
@[simp] theorem wrF_mgt : (wrF k f x s).mgt = s.mgt := rfl
@[simp] theorem wrF_sec : (wrF k f x s).sec = s.sec := rfl
@[simp] theorem wrF_priv : (wrF k f x s).priv = s.priv := rfl
@[simp] theorem wrF_msixTab : (wrF k f x s).msixTab = s.msixTab := rfl
@[simp] theorem wrF_glueHold : (wrF k f x s).glueHold = s.glueHold := rfl
@[simp] theorem wrF_errPending : (wrF k f x s).errPending = s.errPending := rfl
@[simp] theorem wrF_v16Sent : (wrF k f x s).v16Sent = s.v16Sent := rfl
@[simp] theorem wrF_msixEn : (wrF k f x s).msixEn = s.msixEn := rfl
@[simp] theorem wrF_msixOpen : (wrF k f x s).msixOpen = s.msixOpen := rfl
@[simp] theorem wrF_msixPba : (wrF k f x s).msixPba = s.msixPba := rfl
@[simp] theorem wrF_ibiEn : (wrF k f x s).ibiEn = s.ibiEn := rfl
@[simp] theorem wrF_ibiPend : (wrF k f x s).ibiPend = s.ibiPend := rfl
@[simp] theorem wrF_work : (wrF k f x s).work = s.work := rfl
@[simp] theorem wrF_sent : (wrF k f x s).sent = s.sent := rfl
@[simp] theorem wrF_fresh : (wrF k f x s).fresh = s.fresh := rfl
@[simp] theorem wrF_pending : (wrF k f x s).pending = s.pending := rfl
end

section
variable (s : State) (n k : Nat)
@[simp] theorem bumpBy_cycle : (bumpBy n k s).cycle = s.cycle := rfl
@[simp] theorem bumpBy_dev : (bumpBy n k s).dev = s.dev := rfl
@[simp] theorem bumpBy_tabs : (bumpBy n k s).tabs = s.tabs := rfl
@[simp] theorem bumpBy_sram : (bumpBy n k s).sram = s.sram := rfl
@[simp] theorem bumpBy_stags : (bumpBy n k s).stags = s.stags := rfl
@[simp] theorem bumpBy_sbad : (bumpBy n k s).sbad = s.sbad := rfl
@[simp] theorem bumpBy_ruril : (bumpBy n k s).ruril = s.ruril := rfl
@[simp] theorem bumpBy_rtags : (bumpBy n k s).rtags = s.rtags := rfl
@[simp] theorem bumpBy_rbad : (bumpBy n k s).rbad = s.rbad := rfl
@[simp] theorem bumpBy_benches : (bumpBy n k s).benches = s.benches := rfl
@[simp] theorem bumpBy_tier : (bumpBy n k s).tier = s.tier := rfl
@[simp] theorem bumpBy_pool : (bumpBy n k s).pool = s.pool := rfl
@[simp] theorem bumpBy_ctxs : (bumpBy n k s).ctxs = s.ctxs := rfl
@[simp] theorem bumpBy_ports : (bumpBy n k s).ports = s.ports := rfl
@[simp] theorem bumpBy_xport : (bumpBy n k s).xport = s.xport := rfl
@[simp] theorem bumpBy_col : (bumpBy n k s).col = s.col := rfl
@[simp] theorem bumpBy_dov : (bumpBy n k s).dov = s.dov := rfl
@[simp] theorem bumpBy_clamp : (bumpBy n k s).clamp = s.clamp := rfl
@[simp] theorem bumpBy_mark : (bumpBy n k s).mark = s.mark := rfl
@[simp] theorem bumpBy_host : (bumpBy n k s).host = s.host := rfl
@[simp] theorem bumpBy_jig : (bumpBy n k s).jig = s.jig := rfl
@[simp] theorem bumpBy_power : (bumpBy n k s).power = s.power := rfl
@[simp] theorem bumpBy_kiln : (bumpBy n k s).kiln = s.kiln := rfl
@[simp] theorem bumpBy_mgt : (bumpBy n k s).mgt = s.mgt := rfl
@[simp] theorem bumpBy_sec : (bumpBy n k s).sec = s.sec := rfl
@[simp] theorem bumpBy_priv : (bumpBy n k s).priv = s.priv := rfl
@[simp] theorem bumpBy_msixTab : (bumpBy n k s).msixTab = s.msixTab := rfl
@[simp] theorem bumpBy_glueHold : (bumpBy n k s).glueHold = s.glueHold := rfl
@[simp] theorem bumpBy_errPending : (bumpBy n k s).errPending = s.errPending := rfl
@[simp] theorem bumpBy_v16Sent : (bumpBy n k s).v16Sent = s.v16Sent := rfl
@[simp] theorem bumpBy_msixEn : (bumpBy n k s).msixEn = s.msixEn := rfl
@[simp] theorem bumpBy_msixOpen : (bumpBy n k s).msixOpen = s.msixOpen := rfl
@[simp] theorem bumpBy_msixPba : (bumpBy n k s).msixPba = s.msixPba := rfl
@[simp] theorem bumpBy_ibiEn : (bumpBy n k s).ibiEn = s.ibiEn := rfl
@[simp] theorem bumpBy_ibiPend : (bumpBy n k s).ibiPend = s.ibiPend := rfl
@[simp] theorem bumpBy_work : (bumpBy n k s).work = s.work := rfl
@[simp] theorem bumpBy_sent : (bumpBy n k s).sent = s.sent := rfl
@[simp] theorem bumpBy_fresh : (bumpBy n k s).fresh = s.fresh := rfl
@[simp] theorem bumpBy_pending : (bumpBy n k s).pending = s.pending := rfl
end

section
variable (s : State) (k : Nat)
@[simp] theorem bump_cycle : (bump k s).cycle = s.cycle := rfl
@[simp] theorem bump_dev : (bump k s).dev = s.dev := rfl
@[simp] theorem bump_tabs : (bump k s).tabs = s.tabs := rfl
@[simp] theorem bump_sram : (bump k s).sram = s.sram := rfl
@[simp] theorem bump_stags : (bump k s).stags = s.stags := rfl
@[simp] theorem bump_sbad : (bump k s).sbad = s.sbad := rfl
@[simp] theorem bump_ruril : (bump k s).ruril = s.ruril := rfl
@[simp] theorem bump_rtags : (bump k s).rtags = s.rtags := rfl
@[simp] theorem bump_rbad : (bump k s).rbad = s.rbad := rfl
@[simp] theorem bump_benches : (bump k s).benches = s.benches := rfl
@[simp] theorem bump_tier : (bump k s).tier = s.tier := rfl
@[simp] theorem bump_pool : (bump k s).pool = s.pool := rfl
@[simp] theorem bump_ctxs : (bump k s).ctxs = s.ctxs := rfl
@[simp] theorem bump_ports : (bump k s).ports = s.ports := rfl
@[simp] theorem bump_xport : (bump k s).xport = s.xport := rfl
@[simp] theorem bump_col : (bump k s).col = s.col := rfl
@[simp] theorem bump_dov : (bump k s).dov = s.dov := rfl
@[simp] theorem bump_clamp : (bump k s).clamp = s.clamp := rfl
@[simp] theorem bump_mark : (bump k s).mark = s.mark := rfl
@[simp] theorem bump_host : (bump k s).host = s.host := rfl
@[simp] theorem bump_jig : (bump k s).jig = s.jig := rfl
@[simp] theorem bump_power : (bump k s).power = s.power := rfl
@[simp] theorem bump_kiln : (bump k s).kiln = s.kiln := rfl
@[simp] theorem bump_mgt : (bump k s).mgt = s.mgt := rfl
@[simp] theorem bump_sec : (bump k s).sec = s.sec := rfl
@[simp] theorem bump_priv : (bump k s).priv = s.priv := rfl
@[simp] theorem bump_msixTab : (bump k s).msixTab = s.msixTab := rfl
@[simp] theorem bump_glueHold : (bump k s).glueHold = s.glueHold := rfl
@[simp] theorem bump_errPending : (bump k s).errPending = s.errPending := rfl
@[simp] theorem bump_v16Sent : (bump k s).v16Sent = s.v16Sent := rfl
@[simp] theorem bump_msixEn : (bump k s).msixEn = s.msixEn := rfl
@[simp] theorem bump_msixOpen : (bump k s).msixOpen = s.msixOpen := rfl
@[simp] theorem bump_msixPba : (bump k s).msixPba = s.msixPba := rfl
@[simp] theorem bump_ibiEn : (bump k s).ibiEn = s.ibiEn := rfl
@[simp] theorem bump_ibiPend : (bump k s).ibiPend = s.ibiPend := rfl
@[simp] theorem bump_work : (bump k s).work = s.work := rfl
@[simp] theorem bump_sent : (bump k s).sent = s.sent := rfl
@[simp] theorem bump_fresh : (bump k s).fresh = s.fresh := rfl
@[simp] theorem bump_pending : (bump k s).pending = s.pending := rfl
end

section
variable (s : State) (k : Nat)
@[simp] theorem unwr_cycle : (unwr k s).cycle = s.cycle := rfl
@[simp] theorem unwr_dev : (unwr k s).dev = s.dev := rfl
@[simp] theorem unwr_tabs : (unwr k s).tabs = s.tabs := rfl
@[simp] theorem unwr_sram : (unwr k s).sram = s.sram := rfl
@[simp] theorem unwr_stags : (unwr k s).stags = s.stags := rfl
@[simp] theorem unwr_sbad : (unwr k s).sbad = s.sbad := rfl
@[simp] theorem unwr_ruril : (unwr k s).ruril = s.ruril := rfl
@[simp] theorem unwr_rtags : (unwr k s).rtags = s.rtags := rfl
@[simp] theorem unwr_rbad : (unwr k s).rbad = s.rbad := rfl
@[simp] theorem unwr_benches : (unwr k s).benches = s.benches := rfl
@[simp] theorem unwr_tier : (unwr k s).tier = s.tier := rfl
@[simp] theorem unwr_pool : (unwr k s).pool = s.pool := rfl
@[simp] theorem unwr_ctxs : (unwr k s).ctxs = s.ctxs := rfl
@[simp] theorem unwr_ports : (unwr k s).ports = s.ports := rfl
@[simp] theorem unwr_xport : (unwr k s).xport = s.xport := rfl
@[simp] theorem unwr_col : (unwr k s).col = s.col := rfl
@[simp] theorem unwr_dov : (unwr k s).dov = s.dov := rfl
@[simp] theorem unwr_clamp : (unwr k s).clamp = s.clamp := rfl
@[simp] theorem unwr_mark : (unwr k s).mark = s.mark := rfl
@[simp] theorem unwr_host : (unwr k s).host = s.host := rfl
@[simp] theorem unwr_jig : (unwr k s).jig = s.jig := rfl
@[simp] theorem unwr_power : (unwr k s).power = s.power := rfl
@[simp] theorem unwr_kiln : (unwr k s).kiln = s.kiln := rfl
@[simp] theorem unwr_mgt : (unwr k s).mgt = s.mgt := rfl
@[simp] theorem unwr_sec : (unwr k s).sec = s.sec := rfl
@[simp] theorem unwr_priv : (unwr k s).priv = s.priv := rfl
@[simp] theorem unwr_msixTab : (unwr k s).msixTab = s.msixTab := rfl
@[simp] theorem unwr_glueHold : (unwr k s).glueHold = s.glueHold := rfl
@[simp] theorem unwr_errPending : (unwr k s).errPending = s.errPending := rfl
@[simp] theorem unwr_v16Sent : (unwr k s).v16Sent = s.v16Sent := rfl
@[simp] theorem unwr_msixEn : (unwr k s).msixEn = s.msixEn := rfl
@[simp] theorem unwr_msixOpen : (unwr k s).msixOpen = s.msixOpen := rfl
@[simp] theorem unwr_msixPba : (unwr k s).msixPba = s.msixPba := rfl
@[simp] theorem unwr_ibiEn : (unwr k s).ibiEn = s.ibiEn := rfl
@[simp] theorem unwr_ibiPend : (unwr k s).ibiPend = s.ibiPend := rfl
@[simp] theorem unwr_work : (unwr k s).work = s.work := rfl
@[simp] theorem unwr_sent : (unwr k s).sent = s.sent := rfl
@[simp] theorem unwr_fresh : (unwr k s).fresh = s.fresh := rfl
@[simp] theorem unwr_pending : (unwr k s).pending = s.pending := rfl
end

section
variable (s : State) (k : Nat) (v : Word)
@[simp] theorem tbW_cycle : (tbW k v s).cycle = s.cycle := rfl
@[simp] theorem tbW_dev : (tbW k v s).dev = s.dev := rfl
@[simp] theorem tbW_regs : (tbW k v s).regs = s.regs := rfl
@[simp] theorem tbW_sram : (tbW k v s).sram = s.sram := rfl
@[simp] theorem tbW_stags : (tbW k v s).stags = s.stags := rfl
@[simp] theorem tbW_sbad : (tbW k v s).sbad = s.sbad := rfl
@[simp] theorem tbW_ruril : (tbW k v s).ruril = s.ruril := rfl
@[simp] theorem tbW_rtags : (tbW k v s).rtags = s.rtags := rfl
@[simp] theorem tbW_rbad : (tbW k v s).rbad = s.rbad := rfl
@[simp] theorem tbW_benches : (tbW k v s).benches = s.benches := rfl
@[simp] theorem tbW_tier : (tbW k v s).tier = s.tier := rfl
@[simp] theorem tbW_pool : (tbW k v s).pool = s.pool := rfl
@[simp] theorem tbW_ctxs : (tbW k v s).ctxs = s.ctxs := rfl
@[simp] theorem tbW_ports : (tbW k v s).ports = s.ports := rfl
@[simp] theorem tbW_xport : (tbW k v s).xport = s.xport := rfl
@[simp] theorem tbW_col : (tbW k v s).col = s.col := rfl
@[simp] theorem tbW_dov : (tbW k v s).dov = s.dov := rfl
@[simp] theorem tbW_clamp : (tbW k v s).clamp = s.clamp := rfl
@[simp] theorem tbW_mark : (tbW k v s).mark = s.mark := rfl
@[simp] theorem tbW_host : (tbW k v s).host = s.host := rfl
@[simp] theorem tbW_jig : (tbW k v s).jig = s.jig := rfl
@[simp] theorem tbW_power : (tbW k v s).power = s.power := rfl
@[simp] theorem tbW_kiln : (tbW k v s).kiln = s.kiln := rfl
@[simp] theorem tbW_mgt : (tbW k v s).mgt = s.mgt := rfl
@[simp] theorem tbW_sec : (tbW k v s).sec = s.sec := rfl
@[simp] theorem tbW_priv : (tbW k v s).priv = s.priv := rfl
@[simp] theorem tbW_msixTab : (tbW k v s).msixTab = s.msixTab := rfl
@[simp] theorem tbW_glueHold : (tbW k v s).glueHold = s.glueHold := rfl
@[simp] theorem tbW_errPending : (tbW k v s).errPending = s.errPending := rfl
@[simp] theorem tbW_v16Sent : (tbW k v s).v16Sent = s.v16Sent := rfl
@[simp] theorem tbW_msixEn : (tbW k v s).msixEn = s.msixEn := rfl
@[simp] theorem tbW_msixOpen : (tbW k v s).msixOpen = s.msixOpen := rfl
@[simp] theorem tbW_msixPba : (tbW k v s).msixPba = s.msixPba := rfl
@[simp] theorem tbW_ibiEn : (tbW k v s).ibiEn = s.ibiEn := rfl
@[simp] theorem tbW_ibiPend : (tbW k v s).ibiPend = s.ibiPend := rfl
@[simp] theorem tbW_work : (tbW k v s).work = s.work := rfl
@[simp] theorem tbW_sent : (tbW k v s).sent = s.sent := rfl
@[simp] theorem tbW_fresh : (tbW k v s).fresh = s.fresh := rfl
@[simp] theorem tbW_pending : (tbW k v s).pending = s.pending := rfl
end

section
variable (s : State) (k : Nat) (f : Fld) (x : Nat)
@[simp] theorem tbWF_cycle : (tbWF k f x s).cycle = s.cycle := rfl
@[simp] theorem tbWF_dev : (tbWF k f x s).dev = s.dev := rfl
@[simp] theorem tbWF_regs : (tbWF k f x s).regs = s.regs := rfl
@[simp] theorem tbWF_sram : (tbWF k f x s).sram = s.sram := rfl
@[simp] theorem tbWF_stags : (tbWF k f x s).stags = s.stags := rfl
@[simp] theorem tbWF_sbad : (tbWF k f x s).sbad = s.sbad := rfl
@[simp] theorem tbWF_ruril : (tbWF k f x s).ruril = s.ruril := rfl
@[simp] theorem tbWF_rtags : (tbWF k f x s).rtags = s.rtags := rfl
@[simp] theorem tbWF_rbad : (tbWF k f x s).rbad = s.rbad := rfl
@[simp] theorem tbWF_benches : (tbWF k f x s).benches = s.benches := rfl
@[simp] theorem tbWF_tier : (tbWF k f x s).tier = s.tier := rfl
@[simp] theorem tbWF_pool : (tbWF k f x s).pool = s.pool := rfl
@[simp] theorem tbWF_ctxs : (tbWF k f x s).ctxs = s.ctxs := rfl
@[simp] theorem tbWF_ports : (tbWF k f x s).ports = s.ports := rfl
@[simp] theorem tbWF_xport : (tbWF k f x s).xport = s.xport := rfl
@[simp] theorem tbWF_col : (tbWF k f x s).col = s.col := rfl
@[simp] theorem tbWF_dov : (tbWF k f x s).dov = s.dov := rfl
@[simp] theorem tbWF_clamp : (tbWF k f x s).clamp = s.clamp := rfl
@[simp] theorem tbWF_mark : (tbWF k f x s).mark = s.mark := rfl
@[simp] theorem tbWF_host : (tbWF k f x s).host = s.host := rfl
@[simp] theorem tbWF_jig : (tbWF k f x s).jig = s.jig := rfl
@[simp] theorem tbWF_power : (tbWF k f x s).power = s.power := rfl
@[simp] theorem tbWF_kiln : (tbWF k f x s).kiln = s.kiln := rfl
@[simp] theorem tbWF_mgt : (tbWF k f x s).mgt = s.mgt := rfl
@[simp] theorem tbWF_sec : (tbWF k f x s).sec = s.sec := rfl
@[simp] theorem tbWF_priv : (tbWF k f x s).priv = s.priv := rfl
@[simp] theorem tbWF_msixTab : (tbWF k f x s).msixTab = s.msixTab := rfl
@[simp] theorem tbWF_glueHold : (tbWF k f x s).glueHold = s.glueHold := rfl
@[simp] theorem tbWF_errPending : (tbWF k f x s).errPending = s.errPending := rfl
@[simp] theorem tbWF_v16Sent : (tbWF k f x s).v16Sent = s.v16Sent := rfl
@[simp] theorem tbWF_msixEn : (tbWF k f x s).msixEn = s.msixEn := rfl
@[simp] theorem tbWF_msixOpen : (tbWF k f x s).msixOpen = s.msixOpen := rfl
@[simp] theorem tbWF_msixPba : (tbWF k f x s).msixPba = s.msixPba := rfl
@[simp] theorem tbWF_ibiEn : (tbWF k f x s).ibiEn = s.ibiEn := rfl
@[simp] theorem tbWF_ibiPend : (tbWF k f x s).ibiPend = s.ibiPend := rfl
@[simp] theorem tbWF_work : (tbWF k f x s).work = s.work := rfl
@[simp] theorem tbWF_sent : (tbWF k f x s).sent = s.sent := rfl
@[simp] theorem tbWF_fresh : (tbWF k f x s).fresh = s.fresh := rfl
@[simp] theorem tbWF_pending : (tbWF k f x s).pending = s.pending := rfl
end

section
variable (s : State) (k n : Nat)
@[simp] theorem tabClear_cycle : (tabClear k n s).cycle = s.cycle := rfl
@[simp] theorem tabClear_dev : (tabClear k n s).dev = s.dev := rfl
@[simp] theorem tabClear_regs : (tabClear k n s).regs = s.regs := rfl
@[simp] theorem tabClear_sram : (tabClear k n s).sram = s.sram := rfl
@[simp] theorem tabClear_stags : (tabClear k n s).stags = s.stags := rfl
@[simp] theorem tabClear_sbad : (tabClear k n s).sbad = s.sbad := rfl
@[simp] theorem tabClear_ruril : (tabClear k n s).ruril = s.ruril := rfl
@[simp] theorem tabClear_rtags : (tabClear k n s).rtags = s.rtags := rfl
@[simp] theorem tabClear_rbad : (tabClear k n s).rbad = s.rbad := rfl
@[simp] theorem tabClear_benches : (tabClear k n s).benches = s.benches := rfl
@[simp] theorem tabClear_tier : (tabClear k n s).tier = s.tier := rfl
@[simp] theorem tabClear_pool : (tabClear k n s).pool = s.pool := rfl
@[simp] theorem tabClear_ctxs : (tabClear k n s).ctxs = s.ctxs := rfl
@[simp] theorem tabClear_ports : (tabClear k n s).ports = s.ports := rfl
@[simp] theorem tabClear_xport : (tabClear k n s).xport = s.xport := rfl
@[simp] theorem tabClear_col : (tabClear k n s).col = s.col := rfl
@[simp] theorem tabClear_dov : (tabClear k n s).dov = s.dov := rfl
@[simp] theorem tabClear_clamp : (tabClear k n s).clamp = s.clamp := rfl
@[simp] theorem tabClear_mark : (tabClear k n s).mark = s.mark := rfl
@[simp] theorem tabClear_host : (tabClear k n s).host = s.host := rfl
@[simp] theorem tabClear_jig : (tabClear k n s).jig = s.jig := rfl
@[simp] theorem tabClear_power : (tabClear k n s).power = s.power := rfl
@[simp] theorem tabClear_kiln : (tabClear k n s).kiln = s.kiln := rfl
@[simp] theorem tabClear_mgt : (tabClear k n s).mgt = s.mgt := rfl
@[simp] theorem tabClear_sec : (tabClear k n s).sec = s.sec := rfl
@[simp] theorem tabClear_priv : (tabClear k n s).priv = s.priv := rfl
@[simp] theorem tabClear_msixTab : (tabClear k n s).msixTab = s.msixTab := rfl
@[simp] theorem tabClear_glueHold : (tabClear k n s).glueHold = s.glueHold := rfl
@[simp] theorem tabClear_errPending : (tabClear k n s).errPending = s.errPending := rfl
@[simp] theorem tabClear_v16Sent : (tabClear k n s).v16Sent = s.v16Sent := rfl
@[simp] theorem tabClear_msixEn : (tabClear k n s).msixEn = s.msixEn := rfl
@[simp] theorem tabClear_msixOpen : (tabClear k n s).msixOpen = s.msixOpen := rfl
@[simp] theorem tabClear_msixPba : (tabClear k n s).msixPba = s.msixPba := rfl
@[simp] theorem tabClear_ibiEn : (tabClear k n s).ibiEn = s.ibiEn := rfl
@[simp] theorem tabClear_ibiPend : (tabClear k n s).ibiPend = s.ibiPend := rfl
@[simp] theorem tabClear_work : (tabClear k n s).work = s.work := rfl
@[simp] theorem tabClear_sent : (tabClear k n s).sent = s.sent := rfl
@[simp] theorem tabClear_fresh : (tabClear k n s).fresh = s.fresh := rfl
@[simp] theorem tabClear_pending : (tabClear k n s).pending = s.pending := rfl
end

section
variable (s : State) (c : Nat)
@[simp] theorem advanceTo_dev : (advanceTo c s).dev = s.dev := rfl
@[simp] theorem advanceTo_regs : (advanceTo c s).regs = s.regs := rfl
@[simp] theorem advanceTo_tabs : (advanceTo c s).tabs = s.tabs := rfl
@[simp] theorem advanceTo_sram : (advanceTo c s).sram = s.sram := rfl
@[simp] theorem advanceTo_stags : (advanceTo c s).stags = s.stags := rfl
@[simp] theorem advanceTo_sbad : (advanceTo c s).sbad = s.sbad := rfl
@[simp] theorem advanceTo_ruril : (advanceTo c s).ruril = s.ruril := rfl
@[simp] theorem advanceTo_rtags : (advanceTo c s).rtags = s.rtags := rfl
@[simp] theorem advanceTo_rbad : (advanceTo c s).rbad = s.rbad := rfl
@[simp] theorem advanceTo_benches : (advanceTo c s).benches = s.benches := rfl
@[simp] theorem advanceTo_tier : (advanceTo c s).tier = s.tier := rfl
@[simp] theorem advanceTo_pool : (advanceTo c s).pool = s.pool := rfl
@[simp] theorem advanceTo_ctxs : (advanceTo c s).ctxs = s.ctxs := rfl
@[simp] theorem advanceTo_ports : (advanceTo c s).ports = s.ports := rfl
@[simp] theorem advanceTo_xport : (advanceTo c s).xport = s.xport := rfl
@[simp] theorem advanceTo_col : (advanceTo c s).col = s.col := rfl
@[simp] theorem advanceTo_dov : (advanceTo c s).dov = s.dov := rfl
@[simp] theorem advanceTo_clamp : (advanceTo c s).clamp = s.clamp := rfl
@[simp] theorem advanceTo_mark : (advanceTo c s).mark = s.mark := rfl
@[simp] theorem advanceTo_host : (advanceTo c s).host = s.host := rfl
@[simp] theorem advanceTo_jig : (advanceTo c s).jig = s.jig := rfl
@[simp] theorem advanceTo_power : (advanceTo c s).power = s.power := rfl
@[simp] theorem advanceTo_kiln : (advanceTo c s).kiln = s.kiln := rfl
@[simp] theorem advanceTo_mgt : (advanceTo c s).mgt = s.mgt := rfl
@[simp] theorem advanceTo_sec : (advanceTo c s).sec = s.sec := rfl
@[simp] theorem advanceTo_priv : (advanceTo c s).priv = s.priv := rfl
@[simp] theorem advanceTo_msixTab : (advanceTo c s).msixTab = s.msixTab := rfl
@[simp] theorem advanceTo_glueHold : (advanceTo c s).glueHold = s.glueHold := rfl
@[simp] theorem advanceTo_errPending : (advanceTo c s).errPending = s.errPending := rfl
@[simp] theorem advanceTo_v16Sent : (advanceTo c s).v16Sent = s.v16Sent := rfl
@[simp] theorem advanceTo_msixEn : (advanceTo c s).msixEn = s.msixEn := rfl
@[simp] theorem advanceTo_msixOpen : (advanceTo c s).msixOpen = s.msixOpen := rfl
@[simp] theorem advanceTo_msixPba : (advanceTo c s).msixPba = s.msixPba := rfl
@[simp] theorem advanceTo_ibiEn : (advanceTo c s).ibiEn = s.ibiEn := rfl
@[simp] theorem advanceTo_ibiPend : (advanceTo c s).ibiPend = s.ibiPend := rfl
@[simp] theorem advanceTo_work : (advanceTo c s).work = s.work := rfl
@[simp] theorem advanceTo_sent : (advanceTo c s).sent = s.sent := rfl
@[simp] theorem advanceTo_fresh : (advanceTo c s).fresh = s.fresh := rfl
@[simp] theorem advanceTo_pending : (advanceTo c s).pending = s.pending := rfl
end

section
variable (s : State) (o : Out)
@[simp] theorem emit_cycle : (emit o s).cycle = s.cycle := rfl
@[simp] theorem emit_dev : (emit o s).dev = s.dev := rfl
@[simp] theorem emit_regs : (emit o s).regs = s.regs := rfl
@[simp] theorem emit_tabs : (emit o s).tabs = s.tabs := rfl
@[simp] theorem emit_sram : (emit o s).sram = s.sram := rfl
@[simp] theorem emit_stags : (emit o s).stags = s.stags := rfl
@[simp] theorem emit_sbad : (emit o s).sbad = s.sbad := rfl
@[simp] theorem emit_ruril : (emit o s).ruril = s.ruril := rfl
@[simp] theorem emit_rtags : (emit o s).rtags = s.rtags := rfl
@[simp] theorem emit_rbad : (emit o s).rbad = s.rbad := rfl
@[simp] theorem emit_benches : (emit o s).benches = s.benches := rfl
@[simp] theorem emit_tier : (emit o s).tier = s.tier := rfl
@[simp] theorem emit_pool : (emit o s).pool = s.pool := rfl
@[simp] theorem emit_ctxs : (emit o s).ctxs = s.ctxs := rfl
@[simp] theorem emit_ports : (emit o s).ports = s.ports := rfl
@[simp] theorem emit_xport : (emit o s).xport = s.xport := rfl
@[simp] theorem emit_col : (emit o s).col = s.col := rfl
@[simp] theorem emit_dov : (emit o s).dov = s.dov := rfl
@[simp] theorem emit_clamp : (emit o s).clamp = s.clamp := rfl
@[simp] theorem emit_mark : (emit o s).mark = s.mark := rfl
@[simp] theorem emit_host : (emit o s).host = s.host := rfl
@[simp] theorem emit_jig : (emit o s).jig = s.jig := rfl
@[simp] theorem emit_power : (emit o s).power = s.power := rfl
@[simp] theorem emit_kiln : (emit o s).kiln = s.kiln := rfl
@[simp] theorem emit_mgt : (emit o s).mgt = s.mgt := rfl
@[simp] theorem emit_sec : (emit o s).sec = s.sec := rfl
@[simp] theorem emit_priv : (emit o s).priv = s.priv := rfl
@[simp] theorem emit_msixTab : (emit o s).msixTab = s.msixTab := rfl
@[simp] theorem emit_glueHold : (emit o s).glueHold = s.glueHold := rfl
@[simp] theorem emit_errPending : (emit o s).errPending = s.errPending := rfl
@[simp] theorem emit_v16Sent : (emit o s).v16Sent = s.v16Sent := rfl
@[simp] theorem emit_msixEn : (emit o s).msixEn = s.msixEn := rfl
@[simp] theorem emit_msixOpen : (emit o s).msixOpen = s.msixOpen := rfl
@[simp] theorem emit_msixPba : (emit o s).msixPba = s.msixPba := rfl
@[simp] theorem emit_ibiEn : (emit o s).ibiEn = s.ibiEn := rfl
@[simp] theorem emit_ibiPend : (emit o s).ibiPend = s.ibiPend := rfl
@[simp] theorem emit_work : (emit o s).work = s.work := rfl
@[simp] theorem emit_fresh : (emit o s).fresh = s.fresh := rfl
@[simp] theorem emit_pending : (emit o s).pending = s.pending := rfl
end

section
variable (s : State) (w : Work)
@[simp] theorem defer_cycle : (defer w s).cycle = s.cycle := rfl
@[simp] theorem defer_dev : (defer w s).dev = s.dev := rfl
@[simp] theorem defer_regs : (defer w s).regs = s.regs := rfl
@[simp] theorem defer_tabs : (defer w s).tabs = s.tabs := rfl
@[simp] theorem defer_sram : (defer w s).sram = s.sram := rfl
@[simp] theorem defer_stags : (defer w s).stags = s.stags := rfl
@[simp] theorem defer_sbad : (defer w s).sbad = s.sbad := rfl
@[simp] theorem defer_ruril : (defer w s).ruril = s.ruril := rfl
@[simp] theorem defer_rtags : (defer w s).rtags = s.rtags := rfl
@[simp] theorem defer_rbad : (defer w s).rbad = s.rbad := rfl
@[simp] theorem defer_benches : (defer w s).benches = s.benches := rfl
@[simp] theorem defer_tier : (defer w s).tier = s.tier := rfl
@[simp] theorem defer_pool : (defer w s).pool = s.pool := rfl
@[simp] theorem defer_ctxs : (defer w s).ctxs = s.ctxs := rfl
@[simp] theorem defer_ports : (defer w s).ports = s.ports := rfl
@[simp] theorem defer_xport : (defer w s).xport = s.xport := rfl
@[simp] theorem defer_col : (defer w s).col = s.col := rfl
@[simp] theorem defer_dov : (defer w s).dov = s.dov := rfl
@[simp] theorem defer_clamp : (defer w s).clamp = s.clamp := rfl
@[simp] theorem defer_mark : (defer w s).mark = s.mark := rfl
@[simp] theorem defer_host : (defer w s).host = s.host := rfl
@[simp] theorem defer_jig : (defer w s).jig = s.jig := rfl
@[simp] theorem defer_power : (defer w s).power = s.power := rfl
@[simp] theorem defer_kiln : (defer w s).kiln = s.kiln := rfl
@[simp] theorem defer_mgt : (defer w s).mgt = s.mgt := rfl
@[simp] theorem defer_sec : (defer w s).sec = s.sec := rfl
@[simp] theorem defer_priv : (defer w s).priv = s.priv := rfl
@[simp] theorem defer_msixTab : (defer w s).msixTab = s.msixTab := rfl
@[simp] theorem defer_glueHold : (defer w s).glueHold = s.glueHold := rfl
@[simp] theorem defer_errPending : (defer w s).errPending = s.errPending := rfl
@[simp] theorem defer_v16Sent : (defer w s).v16Sent = s.v16Sent := rfl
@[simp] theorem defer_msixEn : (defer w s).msixEn = s.msixEn := rfl
@[simp] theorem defer_msixOpen : (defer w s).msixOpen = s.msixOpen := rfl
@[simp] theorem defer_msixPba : (defer w s).msixPba = s.msixPba := rfl
@[simp] theorem defer_ibiEn : (defer w s).ibiEn = s.ibiEn := rfl
@[simp] theorem defer_ibiPend : (defer w s).ibiPend = s.ibiPend := rfl
@[simp] theorem defer_sent : (defer w s).sent = s.sent := rfl
@[simp] theorem defer_fresh : (defer w s).fresh = s.fresh := rfl
@[simp] theorem defer_pending : (defer w s).pending = s.pending := rfl
end

section
variable (s : State) (b : Nat) (x : Bench)
@[simp] theorem setBench_cycle : (setBench b x s).cycle = s.cycle := rfl
@[simp] theorem setBench_dev : (setBench b x s).dev = s.dev := rfl
@[simp] theorem setBench_regs : (setBench b x s).regs = s.regs := rfl
@[simp] theorem setBench_tabs : (setBench b x s).tabs = s.tabs := rfl
@[simp] theorem setBench_sram : (setBench b x s).sram = s.sram := rfl
@[simp] theorem setBench_stags : (setBench b x s).stags = s.stags := rfl
@[simp] theorem setBench_sbad : (setBench b x s).sbad = s.sbad := rfl
@[simp] theorem setBench_ruril : (setBench b x s).ruril = s.ruril := rfl
@[simp] theorem setBench_rtags : (setBench b x s).rtags = s.rtags := rfl
@[simp] theorem setBench_rbad : (setBench b x s).rbad = s.rbad := rfl
@[simp] theorem setBench_tier : (setBench b x s).tier = s.tier := rfl
@[simp] theorem setBench_pool : (setBench b x s).pool = s.pool := rfl
@[simp] theorem setBench_ctxs : (setBench b x s).ctxs = s.ctxs := rfl
@[simp] theorem setBench_ports : (setBench b x s).ports = s.ports := rfl
@[simp] theorem setBench_xport : (setBench b x s).xport = s.xport := rfl
@[simp] theorem setBench_col : (setBench b x s).col = s.col := rfl
@[simp] theorem setBench_dov : (setBench b x s).dov = s.dov := rfl
@[simp] theorem setBench_clamp : (setBench b x s).clamp = s.clamp := rfl
@[simp] theorem setBench_mark : (setBench b x s).mark = s.mark := rfl
@[simp] theorem setBench_host : (setBench b x s).host = s.host := rfl
@[simp] theorem setBench_jig : (setBench b x s).jig = s.jig := rfl
@[simp] theorem setBench_power : (setBench b x s).power = s.power := rfl
@[simp] theorem setBench_kiln : (setBench b x s).kiln = s.kiln := rfl
@[simp] theorem setBench_mgt : (setBench b x s).mgt = s.mgt := rfl
@[simp] theorem setBench_sec : (setBench b x s).sec = s.sec := rfl
@[simp] theorem setBench_priv : (setBench b x s).priv = s.priv := rfl
@[simp] theorem setBench_msixTab : (setBench b x s).msixTab = s.msixTab := rfl
@[simp] theorem setBench_glueHold : (setBench b x s).glueHold = s.glueHold := rfl
@[simp] theorem setBench_errPending : (setBench b x s).errPending = s.errPending := rfl
@[simp] theorem setBench_v16Sent : (setBench b x s).v16Sent = s.v16Sent := rfl
@[simp] theorem setBench_msixEn : (setBench b x s).msixEn = s.msixEn := rfl
@[simp] theorem setBench_msixOpen : (setBench b x s).msixOpen = s.msixOpen := rfl
@[simp] theorem setBench_msixPba : (setBench b x s).msixPba = s.msixPba := rfl
@[simp] theorem setBench_ibiEn : (setBench b x s).ibiEn = s.ibiEn := rfl
@[simp] theorem setBench_ibiPend : (setBench b x s).ibiPend = s.ibiPend := rfl
@[simp] theorem setBench_work : (setBench b x s).work = s.work := rfl
@[simp] theorem setBench_sent : (setBench b x s).sent = s.sent := rfl
@[simp] theorem setBench_fresh : (setBench b x s).fresh = s.fresh := rfl
@[simp] theorem setBench_pending : (setBench b x s).pending = s.pending := rfl
end

section
variable (s : State) (b q : Nat) (x : Side)
@[simp] theorem setSide_cycle : (setSide b q x s).cycle = s.cycle := rfl
@[simp] theorem setSide_dev : (setSide b q x s).dev = s.dev := rfl
@[simp] theorem setSide_regs : (setSide b q x s).regs = s.regs := rfl
@[simp] theorem setSide_tabs : (setSide b q x s).tabs = s.tabs := rfl
@[simp] theorem setSide_sram : (setSide b q x s).sram = s.sram := rfl
@[simp] theorem setSide_stags : (setSide b q x s).stags = s.stags := rfl
@[simp] theorem setSide_sbad : (setSide b q x s).sbad = s.sbad := rfl
@[simp] theorem setSide_ruril : (setSide b q x s).ruril = s.ruril := rfl
@[simp] theorem setSide_rtags : (setSide b q x s).rtags = s.rtags := rfl
@[simp] theorem setSide_rbad : (setSide b q x s).rbad = s.rbad := rfl
@[simp] theorem setSide_tier : (setSide b q x s).tier = s.tier := rfl
@[simp] theorem setSide_pool : (setSide b q x s).pool = s.pool := rfl
@[simp] theorem setSide_ctxs : (setSide b q x s).ctxs = s.ctxs := rfl
@[simp] theorem setSide_ports : (setSide b q x s).ports = s.ports := rfl
@[simp] theorem setSide_xport : (setSide b q x s).xport = s.xport := rfl
@[simp] theorem setSide_col : (setSide b q x s).col = s.col := rfl
@[simp] theorem setSide_dov : (setSide b q x s).dov = s.dov := rfl
@[simp] theorem setSide_clamp : (setSide b q x s).clamp = s.clamp := rfl
@[simp] theorem setSide_mark : (setSide b q x s).mark = s.mark := rfl
@[simp] theorem setSide_host : (setSide b q x s).host = s.host := rfl
@[simp] theorem setSide_jig : (setSide b q x s).jig = s.jig := rfl
@[simp] theorem setSide_power : (setSide b q x s).power = s.power := rfl
@[simp] theorem setSide_kiln : (setSide b q x s).kiln = s.kiln := rfl
@[simp] theorem setSide_mgt : (setSide b q x s).mgt = s.mgt := rfl
@[simp] theorem setSide_sec : (setSide b q x s).sec = s.sec := rfl
@[simp] theorem setSide_priv : (setSide b q x s).priv = s.priv := rfl
@[simp] theorem setSide_msixTab : (setSide b q x s).msixTab = s.msixTab := rfl
@[simp] theorem setSide_glueHold : (setSide b q x s).glueHold = s.glueHold := rfl
@[simp] theorem setSide_errPending : (setSide b q x s).errPending = s.errPending := rfl
@[simp] theorem setSide_v16Sent : (setSide b q x s).v16Sent = s.v16Sent := rfl
@[simp] theorem setSide_msixEn : (setSide b q x s).msixEn = s.msixEn := rfl
@[simp] theorem setSide_msixOpen : (setSide b q x s).msixOpen = s.msixOpen := rfl
@[simp] theorem setSide_msixPba : (setSide b q x s).msixPba = s.msixPba := rfl
@[simp] theorem setSide_ibiEn : (setSide b q x s).ibiEn = s.ibiEn := rfl
@[simp] theorem setSide_ibiPend : (setSide b q x s).ibiPend = s.ibiPend := rfl
@[simp] theorem setSide_work : (setSide b q x s).work = s.work := rfl
@[simp] theorem setSide_sent : (setSide b q x s).sent = s.sent := rfl
@[simp] theorem setSide_fresh : (setSide b q x s).fresh = s.fresh := rfl
@[simp] theorem setSide_pending : (setSide b q x s).pending = s.pending := rfl
end

section
variable (s : State) (n : Nat) (x : Port)
@[simp] theorem setPort_cycle : (setPort n x s).cycle = s.cycle := rfl
@[simp] theorem setPort_dev : (setPort n x s).dev = s.dev := rfl
@[simp] theorem setPort_regs : (setPort n x s).regs = s.regs := rfl
@[simp] theorem setPort_tabs : (setPort n x s).tabs = s.tabs := rfl
@[simp] theorem setPort_sram : (setPort n x s).sram = s.sram := rfl
@[simp] theorem setPort_stags : (setPort n x s).stags = s.stags := rfl
@[simp] theorem setPort_sbad : (setPort n x s).sbad = s.sbad := rfl
@[simp] theorem setPort_ruril : (setPort n x s).ruril = s.ruril := rfl
@[simp] theorem setPort_rtags : (setPort n x s).rtags = s.rtags := rfl
@[simp] theorem setPort_rbad : (setPort n x s).rbad = s.rbad := rfl
@[simp] theorem setPort_benches : (setPort n x s).benches = s.benches := rfl
@[simp] theorem setPort_tier : (setPort n x s).tier = s.tier := rfl
@[simp] theorem setPort_pool : (setPort n x s).pool = s.pool := rfl
@[simp] theorem setPort_ctxs : (setPort n x s).ctxs = s.ctxs := rfl
@[simp] theorem setPort_xport : (setPort n x s).xport = s.xport := rfl
@[simp] theorem setPort_col : (setPort n x s).col = s.col := rfl
@[simp] theorem setPort_dov : (setPort n x s).dov = s.dov := rfl
@[simp] theorem setPort_clamp : (setPort n x s).clamp = s.clamp := rfl
@[simp] theorem setPort_mark : (setPort n x s).mark = s.mark := rfl
@[simp] theorem setPort_host : (setPort n x s).host = s.host := rfl
@[simp] theorem setPort_jig : (setPort n x s).jig = s.jig := rfl
@[simp] theorem setPort_power : (setPort n x s).power = s.power := rfl
@[simp] theorem setPort_kiln : (setPort n x s).kiln = s.kiln := rfl
@[simp] theorem setPort_mgt : (setPort n x s).mgt = s.mgt := rfl
@[simp] theorem setPort_sec : (setPort n x s).sec = s.sec := rfl
@[simp] theorem setPort_priv : (setPort n x s).priv = s.priv := rfl
@[simp] theorem setPort_msixTab : (setPort n x s).msixTab = s.msixTab := rfl
@[simp] theorem setPort_glueHold : (setPort n x s).glueHold = s.glueHold := rfl
@[simp] theorem setPort_errPending : (setPort n x s).errPending = s.errPending := rfl
@[simp] theorem setPort_v16Sent : (setPort n x s).v16Sent = s.v16Sent := rfl
@[simp] theorem setPort_msixEn : (setPort n x s).msixEn = s.msixEn := rfl
@[simp] theorem setPort_msixOpen : (setPort n x s).msixOpen = s.msixOpen := rfl
@[simp] theorem setPort_msixPba : (setPort n x s).msixPba = s.msixPba := rfl
@[simp] theorem setPort_ibiEn : (setPort n x s).ibiEn = s.ibiEn := rfl
@[simp] theorem setPort_ibiPend : (setPort n x s).ibiPend = s.ibiPend := rfl
@[simp] theorem setPort_work : (setPort n x s).work = s.work := rfl
@[simp] theorem setPort_sent : (setPort n x s).sent = s.sent := rfl
@[simp] theorem setPort_fresh : (setPort n x s).fresh = s.fresh := rfl
@[simp] theorem setPort_pending : (setPort n x s).pending = s.pending := rfl
end

section
variable (s : State) (f : Xport → Xport)
@[simp] theorem setX_cycle : (setX f s).cycle = s.cycle := rfl
@[simp] theorem setX_dev : (setX f s).dev = s.dev := rfl
@[simp] theorem setX_regs : (setX f s).regs = s.regs := rfl
@[simp] theorem setX_tabs : (setX f s).tabs = s.tabs := rfl
@[simp] theorem setX_sram : (setX f s).sram = s.sram := rfl
@[simp] theorem setX_stags : (setX f s).stags = s.stags := rfl
@[simp] theorem setX_sbad : (setX f s).sbad = s.sbad := rfl
@[simp] theorem setX_ruril : (setX f s).ruril = s.ruril := rfl
@[simp] theorem setX_rtags : (setX f s).rtags = s.rtags := rfl
@[simp] theorem setX_rbad : (setX f s).rbad = s.rbad := rfl
@[simp] theorem setX_benches : (setX f s).benches = s.benches := rfl
@[simp] theorem setX_tier : (setX f s).tier = s.tier := rfl
@[simp] theorem setX_pool : (setX f s).pool = s.pool := rfl
@[simp] theorem setX_ctxs : (setX f s).ctxs = s.ctxs := rfl
@[simp] theorem setX_ports : (setX f s).ports = s.ports := rfl
@[simp] theorem setX_col : (setX f s).col = s.col := rfl
@[simp] theorem setX_dov : (setX f s).dov = s.dov := rfl
@[simp] theorem setX_clamp : (setX f s).clamp = s.clamp := rfl
@[simp] theorem setX_mark : (setX f s).mark = s.mark := rfl
@[simp] theorem setX_host : (setX f s).host = s.host := rfl
@[simp] theorem setX_jig : (setX f s).jig = s.jig := rfl
@[simp] theorem setX_power : (setX f s).power = s.power := rfl
@[simp] theorem setX_kiln : (setX f s).kiln = s.kiln := rfl
@[simp] theorem setX_mgt : (setX f s).mgt = s.mgt := rfl
@[simp] theorem setX_sec : (setX f s).sec = s.sec := rfl
@[simp] theorem setX_priv : (setX f s).priv = s.priv := rfl
@[simp] theorem setX_msixTab : (setX f s).msixTab = s.msixTab := rfl
@[simp] theorem setX_glueHold : (setX f s).glueHold = s.glueHold := rfl
@[simp] theorem setX_errPending : (setX f s).errPending = s.errPending := rfl
@[simp] theorem setX_v16Sent : (setX f s).v16Sent = s.v16Sent := rfl
@[simp] theorem setX_msixEn : (setX f s).msixEn = s.msixEn := rfl
@[simp] theorem setX_msixOpen : (setX f s).msixOpen = s.msixOpen := rfl
@[simp] theorem setX_msixPba : (setX f s).msixPba = s.msixPba := rfl
@[simp] theorem setX_ibiEn : (setX f s).ibiEn = s.ibiEn := rfl
@[simp] theorem setX_ibiPend : (setX f s).ibiPend = s.ibiPend := rfl
@[simp] theorem setX_work : (setX f s).work = s.work := rfl
@[simp] theorem setX_sent : (setX f s).sent = s.sent := rfl
@[simp] theorem setX_fresh : (setX f s).fresh = s.fresh := rfl
@[simp] theorem setX_pending : (setX f s).pending = s.pending := rfl
end

section
variable (s : State) (f : ColSt → ColSt)
@[simp] theorem setC_cycle : (setC f s).cycle = s.cycle := rfl
@[simp] theorem setC_dev : (setC f s).dev = s.dev := rfl
@[simp] theorem setC_regs : (setC f s).regs = s.regs := rfl
@[simp] theorem setC_tabs : (setC f s).tabs = s.tabs := rfl
@[simp] theorem setC_sram : (setC f s).sram = s.sram := rfl
@[simp] theorem setC_stags : (setC f s).stags = s.stags := rfl
@[simp] theorem setC_sbad : (setC f s).sbad = s.sbad := rfl
@[simp] theorem setC_ruril : (setC f s).ruril = s.ruril := rfl
@[simp] theorem setC_rtags : (setC f s).rtags = s.rtags := rfl
@[simp] theorem setC_rbad : (setC f s).rbad = s.rbad := rfl
@[simp] theorem setC_benches : (setC f s).benches = s.benches := rfl
@[simp] theorem setC_tier : (setC f s).tier = s.tier := rfl
@[simp] theorem setC_pool : (setC f s).pool = s.pool := rfl
@[simp] theorem setC_ctxs : (setC f s).ctxs = s.ctxs := rfl
@[simp] theorem setC_ports : (setC f s).ports = s.ports := rfl
@[simp] theorem setC_xport : (setC f s).xport = s.xport := rfl
@[simp] theorem setC_dov : (setC f s).dov = s.dov := rfl
@[simp] theorem setC_clamp : (setC f s).clamp = s.clamp := rfl
@[simp] theorem setC_mark : (setC f s).mark = s.mark := rfl
@[simp] theorem setC_host : (setC f s).host = s.host := rfl
@[simp] theorem setC_jig : (setC f s).jig = s.jig := rfl
@[simp] theorem setC_power : (setC f s).power = s.power := rfl
@[simp] theorem setC_kiln : (setC f s).kiln = s.kiln := rfl
@[simp] theorem setC_mgt : (setC f s).mgt = s.mgt := rfl
@[simp] theorem setC_sec : (setC f s).sec = s.sec := rfl
@[simp] theorem setC_priv : (setC f s).priv = s.priv := rfl
@[simp] theorem setC_msixTab : (setC f s).msixTab = s.msixTab := rfl
@[simp] theorem setC_glueHold : (setC f s).glueHold = s.glueHold := rfl
@[simp] theorem setC_errPending : (setC f s).errPending = s.errPending := rfl
@[simp] theorem setC_v16Sent : (setC f s).v16Sent = s.v16Sent := rfl
@[simp] theorem setC_msixEn : (setC f s).msixEn = s.msixEn := rfl
@[simp] theorem setC_msixOpen : (setC f s).msixOpen = s.msixOpen := rfl
@[simp] theorem setC_msixPba : (setC f s).msixPba = s.msixPba := rfl
@[simp] theorem setC_ibiEn : (setC f s).ibiEn = s.ibiEn := rfl
@[simp] theorem setC_ibiPend : (setC f s).ibiPend = s.ibiPend := rfl
@[simp] theorem setC_work : (setC f s).work = s.work := rfl
@[simp] theorem setC_sent : (setC f s).sent = s.sent := rfl
@[simp] theorem setC_fresh : (setC f s).fresh = s.fresh := rfl
@[simp] theorem setC_pending : (setC f s).pending = s.pending := rfl
end

section
variable (s : State) (f : Dov → Dov)
@[simp] theorem setDv_cycle : (setDv f s).cycle = s.cycle := rfl
@[simp] theorem setDv_dev : (setDv f s).dev = s.dev := rfl
@[simp] theorem setDv_regs : (setDv f s).regs = s.regs := rfl
@[simp] theorem setDv_tabs : (setDv f s).tabs = s.tabs := rfl
@[simp] theorem setDv_sram : (setDv f s).sram = s.sram := rfl
@[simp] theorem setDv_stags : (setDv f s).stags = s.stags := rfl
@[simp] theorem setDv_sbad : (setDv f s).sbad = s.sbad := rfl
@[simp] theorem setDv_ruril : (setDv f s).ruril = s.ruril := rfl
@[simp] theorem setDv_rtags : (setDv f s).rtags = s.rtags := rfl
@[simp] theorem setDv_rbad : (setDv f s).rbad = s.rbad := rfl
@[simp] theorem setDv_benches : (setDv f s).benches = s.benches := rfl
@[simp] theorem setDv_tier : (setDv f s).tier = s.tier := rfl
@[simp] theorem setDv_pool : (setDv f s).pool = s.pool := rfl
@[simp] theorem setDv_ctxs : (setDv f s).ctxs = s.ctxs := rfl
@[simp] theorem setDv_ports : (setDv f s).ports = s.ports := rfl
@[simp] theorem setDv_xport : (setDv f s).xport = s.xport := rfl
@[simp] theorem setDv_col : (setDv f s).col = s.col := rfl
@[simp] theorem setDv_clamp : (setDv f s).clamp = s.clamp := rfl
@[simp] theorem setDv_mark : (setDv f s).mark = s.mark := rfl
@[simp] theorem setDv_host : (setDv f s).host = s.host := rfl
@[simp] theorem setDv_jig : (setDv f s).jig = s.jig := rfl
@[simp] theorem setDv_power : (setDv f s).power = s.power := rfl
@[simp] theorem setDv_kiln : (setDv f s).kiln = s.kiln := rfl
@[simp] theorem setDv_mgt : (setDv f s).mgt = s.mgt := rfl
@[simp] theorem setDv_sec : (setDv f s).sec = s.sec := rfl
@[simp] theorem setDv_priv : (setDv f s).priv = s.priv := rfl
@[simp] theorem setDv_msixTab : (setDv f s).msixTab = s.msixTab := rfl
@[simp] theorem setDv_glueHold : (setDv f s).glueHold = s.glueHold := rfl
@[simp] theorem setDv_errPending : (setDv f s).errPending = s.errPending := rfl
@[simp] theorem setDv_v16Sent : (setDv f s).v16Sent = s.v16Sent := rfl
@[simp] theorem setDv_msixEn : (setDv f s).msixEn = s.msixEn := rfl
@[simp] theorem setDv_msixOpen : (setDv f s).msixOpen = s.msixOpen := rfl
@[simp] theorem setDv_msixPba : (setDv f s).msixPba = s.msixPba := rfl
@[simp] theorem setDv_ibiEn : (setDv f s).ibiEn = s.ibiEn := rfl
@[simp] theorem setDv_ibiPend : (setDv f s).ibiPend = s.ibiPend := rfl
@[simp] theorem setDv_work : (setDv f s).work = s.work := rfl
@[simp] theorem setDv_sent : (setDv f s).sent = s.sent := rfl
@[simp] theorem setDv_fresh : (setDv f s).fresh = s.fresh := rfl
@[simp] theorem setDv_pending : (setDv f s).pending = s.pending := rfl
end

section
variable (s : State) (f : JigSt → JigSt)
@[simp] theorem setJig_cycle : (setJig f s).cycle = s.cycle := rfl
@[simp] theorem setJig_dev : (setJig f s).dev = s.dev := rfl
@[simp] theorem setJig_regs : (setJig f s).regs = s.regs := rfl
@[simp] theorem setJig_tabs : (setJig f s).tabs = s.tabs := rfl
@[simp] theorem setJig_sram : (setJig f s).sram = s.sram := rfl
@[simp] theorem setJig_stags : (setJig f s).stags = s.stags := rfl
@[simp] theorem setJig_sbad : (setJig f s).sbad = s.sbad := rfl
@[simp] theorem setJig_ruril : (setJig f s).ruril = s.ruril := rfl
@[simp] theorem setJig_rtags : (setJig f s).rtags = s.rtags := rfl
@[simp] theorem setJig_rbad : (setJig f s).rbad = s.rbad := rfl
@[simp] theorem setJig_benches : (setJig f s).benches = s.benches := rfl
@[simp] theorem setJig_tier : (setJig f s).tier = s.tier := rfl
@[simp] theorem setJig_pool : (setJig f s).pool = s.pool := rfl
@[simp] theorem setJig_ctxs : (setJig f s).ctxs = s.ctxs := rfl
@[simp] theorem setJig_ports : (setJig f s).ports = s.ports := rfl
@[simp] theorem setJig_xport : (setJig f s).xport = s.xport := rfl
@[simp] theorem setJig_col : (setJig f s).col = s.col := rfl
@[simp] theorem setJig_dov : (setJig f s).dov = s.dov := rfl
@[simp] theorem setJig_clamp : (setJig f s).clamp = s.clamp := rfl
@[simp] theorem setJig_mark : (setJig f s).mark = s.mark := rfl
@[simp] theorem setJig_host : (setJig f s).host = s.host := rfl
@[simp] theorem setJig_power : (setJig f s).power = s.power := rfl
@[simp] theorem setJig_kiln : (setJig f s).kiln = s.kiln := rfl
@[simp] theorem setJig_mgt : (setJig f s).mgt = s.mgt := rfl
@[simp] theorem setJig_sec : (setJig f s).sec = s.sec := rfl
@[simp] theorem setJig_priv : (setJig f s).priv = s.priv := rfl
@[simp] theorem setJig_msixTab : (setJig f s).msixTab = s.msixTab := rfl
@[simp] theorem setJig_glueHold : (setJig f s).glueHold = s.glueHold := rfl
@[simp] theorem setJig_errPending : (setJig f s).errPending = s.errPending := rfl
@[simp] theorem setJig_v16Sent : (setJig f s).v16Sent = s.v16Sent := rfl
@[simp] theorem setJig_msixEn : (setJig f s).msixEn = s.msixEn := rfl
@[simp] theorem setJig_msixOpen : (setJig f s).msixOpen = s.msixOpen := rfl
@[simp] theorem setJig_msixPba : (setJig f s).msixPba = s.msixPba := rfl
@[simp] theorem setJig_ibiEn : (setJig f s).ibiEn = s.ibiEn := rfl
@[simp] theorem setJig_ibiPend : (setJig f s).ibiPend = s.ibiPend := rfl
@[simp] theorem setJig_work : (setJig f s).work = s.work := rfl
@[simp] theorem setJig_sent : (setJig f s).sent = s.sent := rfl
@[simp] theorem setJig_fresh : (setJig f s).fresh = s.fresh := rfl
@[simp] theorem setJig_pending : (setJig f s).pending = s.pending := rfl
end

section
variable (s : State) (f : KilnSt → KilnSt)
@[simp] theorem setKiln_cycle : (setKiln f s).cycle = s.cycle := rfl
@[simp] theorem setKiln_dev : (setKiln f s).dev = s.dev := rfl
@[simp] theorem setKiln_regs : (setKiln f s).regs = s.regs := rfl
@[simp] theorem setKiln_tabs : (setKiln f s).tabs = s.tabs := rfl
@[simp] theorem setKiln_sram : (setKiln f s).sram = s.sram := rfl
@[simp] theorem setKiln_stags : (setKiln f s).stags = s.stags := rfl
@[simp] theorem setKiln_sbad : (setKiln f s).sbad = s.sbad := rfl
@[simp] theorem setKiln_ruril : (setKiln f s).ruril = s.ruril := rfl
@[simp] theorem setKiln_rtags : (setKiln f s).rtags = s.rtags := rfl
@[simp] theorem setKiln_rbad : (setKiln f s).rbad = s.rbad := rfl
@[simp] theorem setKiln_benches : (setKiln f s).benches = s.benches := rfl
@[simp] theorem setKiln_tier : (setKiln f s).tier = s.tier := rfl
@[simp] theorem setKiln_pool : (setKiln f s).pool = s.pool := rfl
@[simp] theorem setKiln_ctxs : (setKiln f s).ctxs = s.ctxs := rfl
@[simp] theorem setKiln_ports : (setKiln f s).ports = s.ports := rfl
@[simp] theorem setKiln_xport : (setKiln f s).xport = s.xport := rfl
@[simp] theorem setKiln_col : (setKiln f s).col = s.col := rfl
@[simp] theorem setKiln_dov : (setKiln f s).dov = s.dov := rfl
@[simp] theorem setKiln_clamp : (setKiln f s).clamp = s.clamp := rfl
@[simp] theorem setKiln_mark : (setKiln f s).mark = s.mark := rfl
@[simp] theorem setKiln_host : (setKiln f s).host = s.host := rfl
@[simp] theorem setKiln_jig : (setKiln f s).jig = s.jig := rfl
@[simp] theorem setKiln_power : (setKiln f s).power = s.power := rfl
@[simp] theorem setKiln_mgt : (setKiln f s).mgt = s.mgt := rfl
@[simp] theorem setKiln_sec : (setKiln f s).sec = s.sec := rfl
@[simp] theorem setKiln_priv : (setKiln f s).priv = s.priv := rfl
@[simp] theorem setKiln_msixTab : (setKiln f s).msixTab = s.msixTab := rfl
@[simp] theorem setKiln_glueHold : (setKiln f s).glueHold = s.glueHold := rfl
@[simp] theorem setKiln_errPending : (setKiln f s).errPending = s.errPending := rfl
@[simp] theorem setKiln_v16Sent : (setKiln f s).v16Sent = s.v16Sent := rfl
@[simp] theorem setKiln_msixEn : (setKiln f s).msixEn = s.msixEn := rfl
@[simp] theorem setKiln_msixOpen : (setKiln f s).msixOpen = s.msixOpen := rfl
@[simp] theorem setKiln_msixPba : (setKiln f s).msixPba = s.msixPba := rfl
@[simp] theorem setKiln_ibiEn : (setKiln f s).ibiEn = s.ibiEn := rfl
@[simp] theorem setKiln_ibiPend : (setKiln f s).ibiPend = s.ibiPend := rfl
@[simp] theorem setKiln_work : (setKiln f s).work = s.work := rfl
@[simp] theorem setKiln_sent : (setKiln f s).sent = s.sent := rfl
@[simp] theorem setKiln_fresh : (setKiln f s).fresh = s.fresh := rfl
@[simp] theorem setKiln_pending : (setKiln f s).pending = s.pending := rfl
end

section
variable (s : State) (f : PowerSt → PowerSt)
@[simp] theorem setPow_cycle : (setPow f s).cycle = s.cycle := rfl
@[simp] theorem setPow_dev : (setPow f s).dev = s.dev := rfl
@[simp] theorem setPow_regs : (setPow f s).regs = s.regs := rfl
@[simp] theorem setPow_tabs : (setPow f s).tabs = s.tabs := rfl
@[simp] theorem setPow_sram : (setPow f s).sram = s.sram := rfl
@[simp] theorem setPow_stags : (setPow f s).stags = s.stags := rfl
@[simp] theorem setPow_sbad : (setPow f s).sbad = s.sbad := rfl
@[simp] theorem setPow_ruril : (setPow f s).ruril = s.ruril := rfl
@[simp] theorem setPow_rtags : (setPow f s).rtags = s.rtags := rfl
@[simp] theorem setPow_rbad : (setPow f s).rbad = s.rbad := rfl
@[simp] theorem setPow_benches : (setPow f s).benches = s.benches := rfl
@[simp] theorem setPow_tier : (setPow f s).tier = s.tier := rfl
@[simp] theorem setPow_pool : (setPow f s).pool = s.pool := rfl
@[simp] theorem setPow_ctxs : (setPow f s).ctxs = s.ctxs := rfl
@[simp] theorem setPow_ports : (setPow f s).ports = s.ports := rfl
@[simp] theorem setPow_xport : (setPow f s).xport = s.xport := rfl
@[simp] theorem setPow_col : (setPow f s).col = s.col := rfl
@[simp] theorem setPow_dov : (setPow f s).dov = s.dov := rfl
@[simp] theorem setPow_clamp : (setPow f s).clamp = s.clamp := rfl
@[simp] theorem setPow_mark : (setPow f s).mark = s.mark := rfl
@[simp] theorem setPow_host : (setPow f s).host = s.host := rfl
@[simp] theorem setPow_jig : (setPow f s).jig = s.jig := rfl
@[simp] theorem setPow_kiln : (setPow f s).kiln = s.kiln := rfl
@[simp] theorem setPow_mgt : (setPow f s).mgt = s.mgt := rfl
@[simp] theorem setPow_sec : (setPow f s).sec = s.sec := rfl
@[simp] theorem setPow_priv : (setPow f s).priv = s.priv := rfl
@[simp] theorem setPow_msixTab : (setPow f s).msixTab = s.msixTab := rfl
@[simp] theorem setPow_glueHold : (setPow f s).glueHold = s.glueHold := rfl
@[simp] theorem setPow_errPending : (setPow f s).errPending = s.errPending := rfl
@[simp] theorem setPow_v16Sent : (setPow f s).v16Sent = s.v16Sent := rfl
@[simp] theorem setPow_msixEn : (setPow f s).msixEn = s.msixEn := rfl
@[simp] theorem setPow_msixOpen : (setPow f s).msixOpen = s.msixOpen := rfl
@[simp] theorem setPow_msixPba : (setPow f s).msixPba = s.msixPba := rfl
@[simp] theorem setPow_ibiEn : (setPow f s).ibiEn = s.ibiEn := rfl
@[simp] theorem setPow_ibiPend : (setPow f s).ibiPend = s.ibiPend := rfl
@[simp] theorem setPow_work : (setPow f s).work = s.work := rfl
@[simp] theorem setPow_sent : (setPow f s).sent = s.sent := rfl
@[simp] theorem setPow_fresh : (setPow f s).fresh = s.fresh := rfl
@[simp] theorem setPow_pending : (setPow f s).pending = s.pending := rfl
end

section
variable (s : State) (f : SecSt → SecSt)
@[simp] theorem setSec_cycle : (setSec f s).cycle = s.cycle := rfl
@[simp] theorem setSec_dev : (setSec f s).dev = s.dev := rfl
@[simp] theorem setSec_regs : (setSec f s).regs = s.regs := rfl
@[simp] theorem setSec_tabs : (setSec f s).tabs = s.tabs := rfl
@[simp] theorem setSec_sram : (setSec f s).sram = s.sram := rfl
@[simp] theorem setSec_stags : (setSec f s).stags = s.stags := rfl
@[simp] theorem setSec_sbad : (setSec f s).sbad = s.sbad := rfl
@[simp] theorem setSec_ruril : (setSec f s).ruril = s.ruril := rfl
@[simp] theorem setSec_rtags : (setSec f s).rtags = s.rtags := rfl
@[simp] theorem setSec_rbad : (setSec f s).rbad = s.rbad := rfl
@[simp] theorem setSec_benches : (setSec f s).benches = s.benches := rfl
@[simp] theorem setSec_tier : (setSec f s).tier = s.tier := rfl
@[simp] theorem setSec_pool : (setSec f s).pool = s.pool := rfl
@[simp] theorem setSec_ctxs : (setSec f s).ctxs = s.ctxs := rfl
@[simp] theorem setSec_ports : (setSec f s).ports = s.ports := rfl
@[simp] theorem setSec_xport : (setSec f s).xport = s.xport := rfl
@[simp] theorem setSec_col : (setSec f s).col = s.col := rfl
@[simp] theorem setSec_dov : (setSec f s).dov = s.dov := rfl
@[simp] theorem setSec_clamp : (setSec f s).clamp = s.clamp := rfl
@[simp] theorem setSec_mark : (setSec f s).mark = s.mark := rfl
@[simp] theorem setSec_host : (setSec f s).host = s.host := rfl
@[simp] theorem setSec_jig : (setSec f s).jig = s.jig := rfl
@[simp] theorem setSec_power : (setSec f s).power = s.power := rfl
@[simp] theorem setSec_kiln : (setSec f s).kiln = s.kiln := rfl
@[simp] theorem setSec_mgt : (setSec f s).mgt = s.mgt := rfl
@[simp] theorem setSec_priv : (setSec f s).priv = s.priv := rfl
@[simp] theorem setSec_msixTab : (setSec f s).msixTab = s.msixTab := rfl
@[simp] theorem setSec_glueHold : (setSec f s).glueHold = s.glueHold := rfl
@[simp] theorem setSec_errPending : (setSec f s).errPending = s.errPending := rfl
@[simp] theorem setSec_v16Sent : (setSec f s).v16Sent = s.v16Sent := rfl
@[simp] theorem setSec_msixEn : (setSec f s).msixEn = s.msixEn := rfl
@[simp] theorem setSec_msixOpen : (setSec f s).msixOpen = s.msixOpen := rfl
@[simp] theorem setSec_msixPba : (setSec f s).msixPba = s.msixPba := rfl
@[simp] theorem setSec_ibiEn : (setSec f s).ibiEn = s.ibiEn := rfl
@[simp] theorem setSec_ibiPend : (setSec f s).ibiPend = s.ibiPend := rfl
@[simp] theorem setSec_work : (setSec f s).work = s.work := rfl
@[simp] theorem setSec_sent : (setSec f s).sent = s.sent := rfl
@[simp] theorem setSec_fresh : (setSec f s).fresh = s.fresh := rfl
@[simp] theorem setSec_pending : (setSec f s).pending = s.pending := rfl
end

section
variable (s : State) (b : Boundary)
@[simp] theorem setBnd_cycle : (setBnd b s).cycle = s.cycle := rfl
@[simp] theorem setBnd_dev : (setBnd b s).dev = s.dev := rfl
@[simp] theorem setBnd_regs : (setBnd b s).regs = s.regs := rfl
@[simp] theorem setBnd_tabs : (setBnd b s).tabs = s.tabs := rfl
@[simp] theorem setBnd_sram : (setBnd b s).sram = s.sram := rfl
@[simp] theorem setBnd_stags : (setBnd b s).stags = s.stags := rfl
@[simp] theorem setBnd_sbad : (setBnd b s).sbad = s.sbad := rfl
@[simp] theorem setBnd_ruril : (setBnd b s).ruril = s.ruril := rfl
@[simp] theorem setBnd_rtags : (setBnd b s).rtags = s.rtags := rfl
@[simp] theorem setBnd_rbad : (setBnd b s).rbad = s.rbad := rfl
@[simp] theorem setBnd_benches : (setBnd b s).benches = s.benches := rfl
@[simp] theorem setBnd_tier : (setBnd b s).tier = s.tier := rfl
@[simp] theorem setBnd_ctxs : (setBnd b s).ctxs = s.ctxs := rfl
@[simp] theorem setBnd_ports : (setBnd b s).ports = s.ports := rfl
@[simp] theorem setBnd_xport : (setBnd b s).xport = s.xport := rfl
@[simp] theorem setBnd_col : (setBnd b s).col = s.col := rfl
@[simp] theorem setBnd_dov : (setBnd b s).dov = s.dov := rfl
@[simp] theorem setBnd_clamp : (setBnd b s).clamp = s.clamp := rfl
@[simp] theorem setBnd_mark : (setBnd b s).mark = s.mark := rfl
@[simp] theorem setBnd_host : (setBnd b s).host = s.host := rfl
@[simp] theorem setBnd_jig : (setBnd b s).jig = s.jig := rfl
@[simp] theorem setBnd_power : (setBnd b s).power = s.power := rfl
@[simp] theorem setBnd_kiln : (setBnd b s).kiln = s.kiln := rfl
@[simp] theorem setBnd_mgt : (setBnd b s).mgt = s.mgt := rfl
@[simp] theorem setBnd_sec : (setBnd b s).sec = s.sec := rfl
@[simp] theorem setBnd_priv : (setBnd b s).priv = s.priv := rfl
@[simp] theorem setBnd_msixTab : (setBnd b s).msixTab = s.msixTab := rfl
@[simp] theorem setBnd_glueHold : (setBnd b s).glueHold = s.glueHold := rfl
@[simp] theorem setBnd_errPending : (setBnd b s).errPending = s.errPending := rfl
@[simp] theorem setBnd_v16Sent : (setBnd b s).v16Sent = s.v16Sent := rfl
@[simp] theorem setBnd_msixEn : (setBnd b s).msixEn = s.msixEn := rfl
@[simp] theorem setBnd_msixOpen : (setBnd b s).msixOpen = s.msixOpen := rfl
@[simp] theorem setBnd_msixPba : (setBnd b s).msixPba = s.msixPba := rfl
@[simp] theorem setBnd_ibiEn : (setBnd b s).ibiEn = s.ibiEn := rfl
@[simp] theorem setBnd_ibiPend : (setBnd b s).ibiPend = s.ibiPend := rfl
@[simp] theorem setBnd_work : (setBnd b s).work = s.work := rfl
@[simp] theorem setBnd_sent : (setBnd b s).sent = s.sent := rfl
@[simp] theorem setBnd_fresh : (setBnd b s).fresh = s.fresh := rfl
@[simp] theorem setBnd_pending : (setBnd b s).pending = s.pending := rfl
end

section
variable (s : State) (k : Nat) (v : Word)
@[simp] theorem tb_wr (r : Nat) : tb r (wr k v s) = tb r s := rfl
@[simp] theorem benchOf_wr (r : Nat) : benchOf r (wr k v s) = benchOf r s := rfl
@[simp] theorem seqOf_wr (r p : Nat) : seqOf r p (wr k v s) = seqOf r p s := rfl
@[simp] theorem sideOf_wr (r p : Nat) : sideOf r p (wr k v s) = sideOf r p s := rfl
@[simp] theorem portOf_wr (r : Nat) : portOf r (wr k v s) = portOf r s := rfl
end

section
variable (s : State) (k : Nat) (f : Fld) (x : Nat)
@[simp] theorem tb_wrF (r : Nat) : tb r (wrF k f x s) = tb r s := rfl
@[simp] theorem benchOf_wrF (r : Nat) : benchOf r (wrF k f x s) = benchOf r s := rfl
@[simp] theorem seqOf_wrF (r p : Nat) : seqOf r p (wrF k f x s) = seqOf r p s := rfl
@[simp] theorem sideOf_wrF (r p : Nat) : sideOf r p (wrF k f x s) = sideOf r p s := rfl
@[simp] theorem portOf_wrF (r : Nat) : portOf r (wrF k f x s) = portOf r s := rfl
end

section
variable (s : State) (n k : Nat)
@[simp] theorem tb_bumpBy (r : Nat) : tb r (bumpBy n k s) = tb r s := rfl
@[simp] theorem benchOf_bumpBy (r : Nat) : benchOf r (bumpBy n k s) = benchOf r s := rfl
@[simp] theorem seqOf_bumpBy (r p : Nat) : seqOf r p (bumpBy n k s) = seqOf r p s := rfl
@[simp] theorem sideOf_bumpBy (r p : Nat) : sideOf r p (bumpBy n k s) = sideOf r p s := rfl
@[simp] theorem portOf_bumpBy (r : Nat) : portOf r (bumpBy n k s) = portOf r s := rfl
end

section
variable (s : State) (k : Nat)
@[simp] theorem tb_bump (r : Nat) : tb r (bump k s) = tb r s := rfl
@[simp] theorem benchOf_bump (r : Nat) : benchOf r (bump k s) = benchOf r s := rfl
@[simp] theorem seqOf_bump (r p : Nat) : seqOf r p (bump k s) = seqOf r p s := rfl
@[simp] theorem sideOf_bump (r p : Nat) : sideOf r p (bump k s) = sideOf r p s := rfl
@[simp] theorem portOf_bump (r : Nat) : portOf r (bump k s) = portOf r s := rfl
end

section
variable (s : State) (k : Nat)
@[simp] theorem tb_unwr (r : Nat) : tb r (unwr k s) = tb r s := rfl
@[simp] theorem benchOf_unwr (r : Nat) : benchOf r (unwr k s) = benchOf r s := rfl
@[simp] theorem seqOf_unwr (r p : Nat) : seqOf r p (unwr k s) = seqOf r p s := rfl
@[simp] theorem sideOf_unwr (r p : Nat) : sideOf r p (unwr k s) = sideOf r p s := rfl
@[simp] theorem portOf_unwr (r : Nat) : portOf r (unwr k s) = portOf r s := rfl
end

section
variable (s : State) (k : Nat) (v : Word)
@[simp] theorem rd_tbW (r : Nat) : rd r (tbW k v s) = rd r s := rfl
@[simp] theorem rdF_tbW (r : Nat) (g : Fld) : rdF r g (tbW k v s) = rdF r g s := rfl
@[simp] theorem benchOf_tbW (r : Nat) : benchOf r (tbW k v s) = benchOf r s := rfl
@[simp] theorem seqOf_tbW (r p : Nat) : seqOf r p (tbW k v s) = seqOf r p s := rfl
@[simp] theorem sideOf_tbW (r p : Nat) : sideOf r p (tbW k v s) = sideOf r p s := rfl
@[simp] theorem portOf_tbW (r : Nat) : portOf r (tbW k v s) = portOf r s := rfl
end

section
variable (s : State) (k : Nat) (f : Fld) (x : Nat)
@[simp] theorem rd_tbWF (r : Nat) : rd r (tbWF k f x s) = rd r s := rfl
@[simp] theorem rdF_tbWF (r : Nat) (g : Fld) : rdF r g (tbWF k f x s) = rdF r g s := rfl
@[simp] theorem benchOf_tbWF (r : Nat) : benchOf r (tbWF k f x s) = benchOf r s := rfl
@[simp] theorem seqOf_tbWF (r p : Nat) : seqOf r p (tbWF k f x s) = seqOf r p s := rfl
@[simp] theorem sideOf_tbWF (r p : Nat) : sideOf r p (tbWF k f x s) = sideOf r p s := rfl
@[simp] theorem portOf_tbWF (r : Nat) : portOf r (tbWF k f x s) = portOf r s := rfl
end

section
variable (s : State) (k n : Nat)
@[simp] theorem rd_tabClear (r : Nat) : rd r (tabClear k n s) = rd r s := rfl
@[simp] theorem rdF_tabClear (r : Nat) (g : Fld) : rdF r g (tabClear k n s) = rdF r g s := rfl
@[simp] theorem benchOf_tabClear (r : Nat) : benchOf r (tabClear k n s) = benchOf r s := rfl
@[simp] theorem seqOf_tabClear (r p : Nat) : seqOf r p (tabClear k n s) = seqOf r p s := rfl
@[simp] theorem sideOf_tabClear (r p : Nat) : sideOf r p (tabClear k n s) = sideOf r p s := rfl
@[simp] theorem portOf_tabClear (r : Nat) : portOf r (tabClear k n s) = portOf r s := rfl
end

section
variable (s : State) (c : Nat)
@[simp] theorem rd_advanceTo (r : Nat) : rd r (advanceTo c s) = rd r s := rfl
@[simp] theorem rdF_advanceTo (r : Nat) (g : Fld) : rdF r g (advanceTo c s) = rdF r g s := rfl
@[simp] theorem tb_advanceTo (r : Nat) : tb r (advanceTo c s) = tb r s := rfl
@[simp] theorem benchOf_advanceTo (r : Nat) : benchOf r (advanceTo c s) = benchOf r s := rfl
@[simp] theorem seqOf_advanceTo (r p : Nat) : seqOf r p (advanceTo c s) = seqOf r p s := rfl
@[simp] theorem sideOf_advanceTo (r p : Nat) : sideOf r p (advanceTo c s) = sideOf r p s := rfl
@[simp] theorem portOf_advanceTo (r : Nat) : portOf r (advanceTo c s) = portOf r s := rfl
end

section
variable (s : State) (o : Out)
@[simp] theorem rd_emit (r : Nat) : rd r (emit o s) = rd r s := rfl
@[simp] theorem rdF_emit (r : Nat) (g : Fld) : rdF r g (emit o s) = rdF r g s := rfl
@[simp] theorem tb_emit (r : Nat) : tb r (emit o s) = tb r s := rfl
@[simp] theorem benchOf_emit (r : Nat) : benchOf r (emit o s) = benchOf r s := rfl
@[simp] theorem seqOf_emit (r p : Nat) : seqOf r p (emit o s) = seqOf r p s := rfl
@[simp] theorem sideOf_emit (r p : Nat) : sideOf r p (emit o s) = sideOf r p s := rfl
@[simp] theorem portOf_emit (r : Nat) : portOf r (emit o s) = portOf r s := rfl
end

section
variable (s : State) (w : Work)
@[simp] theorem rd_defer (r : Nat) : rd r (defer w s) = rd r s := rfl
@[simp] theorem rdF_defer (r : Nat) (g : Fld) : rdF r g (defer w s) = rdF r g s := rfl
@[simp] theorem tb_defer (r : Nat) : tb r (defer w s) = tb r s := rfl
@[simp] theorem benchOf_defer (r : Nat) : benchOf r (defer w s) = benchOf r s := rfl
@[simp] theorem seqOf_defer (r p : Nat) : seqOf r p (defer w s) = seqOf r p s := rfl
@[simp] theorem sideOf_defer (r p : Nat) : sideOf r p (defer w s) = sideOf r p s := rfl
@[simp] theorem portOf_defer (r : Nat) : portOf r (defer w s) = portOf r s := rfl
end

section
variable (s : State) (b : Nat) (x : Bench)
@[simp] theorem rd_setBench (r : Nat) : rd r (setBench b x s) = rd r s := rfl
@[simp] theorem rdF_setBench (r : Nat) (g : Fld) : rdF r g (setBench b x s) = rdF r g s := rfl
@[simp] theorem tb_setBench (r : Nat) : tb r (setBench b x s) = tb r s := rfl
@[simp] theorem portOf_setBench (r : Nat) : portOf r (setBench b x s) = portOf r s := rfl
end

section
variable (s : State) (b q : Nat) (x : Side)
@[simp] theorem rd_setSide (r : Nat) : rd r (setSide b q x s) = rd r s := rfl
@[simp] theorem rdF_setSide (r : Nat) (g : Fld) : rdF r g (setSide b q x s) = rdF r g s := rfl
@[simp] theorem tb_setSide (r : Nat) : tb r (setSide b q x s) = tb r s := rfl
@[simp] theorem portOf_setSide (r : Nat) : portOf r (setSide b q x s) = portOf r s := rfl
end

section
variable (s : State) (n : Nat) (x : Port)
@[simp] theorem rd_setPort (r : Nat) : rd r (setPort n x s) = rd r s := rfl
@[simp] theorem rdF_setPort (r : Nat) (g : Fld) : rdF r g (setPort n x s) = rdF r g s := rfl
@[simp] theorem tb_setPort (r : Nat) : tb r (setPort n x s) = tb r s := rfl
@[simp] theorem benchOf_setPort (r : Nat) : benchOf r (setPort n x s) = benchOf r s := rfl
@[simp] theorem seqOf_setPort (r p : Nat) : seqOf r p (setPort n x s) = seqOf r p s := rfl
@[simp] theorem sideOf_setPort (r p : Nat) : sideOf r p (setPort n x s) = sideOf r p s := rfl
end

section
variable (s : State) (f : Xport → Xport)
@[simp] theorem rd_setX (r : Nat) : rd r (setX f s) = rd r s := rfl
@[simp] theorem rdF_setX (r : Nat) (g : Fld) : rdF r g (setX f s) = rdF r g s := rfl
@[simp] theorem tb_setX (r : Nat) : tb r (setX f s) = tb r s := rfl
@[simp] theorem benchOf_setX (r : Nat) : benchOf r (setX f s) = benchOf r s := rfl
@[simp] theorem seqOf_setX (r p : Nat) : seqOf r p (setX f s) = seqOf r p s := rfl
@[simp] theorem sideOf_setX (r p : Nat) : sideOf r p (setX f s) = sideOf r p s := rfl
@[simp] theorem portOf_setX (r : Nat) : portOf r (setX f s) = portOf r s := rfl
end

section
variable (s : State) (f : ColSt → ColSt)
@[simp] theorem rd_setC (r : Nat) : rd r (setC f s) = rd r s := rfl
@[simp] theorem rdF_setC (r : Nat) (g : Fld) : rdF r g (setC f s) = rdF r g s := rfl
@[simp] theorem tb_setC (r : Nat) : tb r (setC f s) = tb r s := rfl
@[simp] theorem benchOf_setC (r : Nat) : benchOf r (setC f s) = benchOf r s := rfl
@[simp] theorem seqOf_setC (r p : Nat) : seqOf r p (setC f s) = seqOf r p s := rfl
@[simp] theorem sideOf_setC (r p : Nat) : sideOf r p (setC f s) = sideOf r p s := rfl
@[simp] theorem portOf_setC (r : Nat) : portOf r (setC f s) = portOf r s := rfl
end

section
variable (s : State) (f : Dov → Dov)
@[simp] theorem rd_setDv (r : Nat) : rd r (setDv f s) = rd r s := rfl
@[simp] theorem rdF_setDv (r : Nat) (g : Fld) : rdF r g (setDv f s) = rdF r g s := rfl
@[simp] theorem tb_setDv (r : Nat) : tb r (setDv f s) = tb r s := rfl
@[simp] theorem benchOf_setDv (r : Nat) : benchOf r (setDv f s) = benchOf r s := rfl
@[simp] theorem seqOf_setDv (r p : Nat) : seqOf r p (setDv f s) = seqOf r p s := rfl
@[simp] theorem sideOf_setDv (r p : Nat) : sideOf r p (setDv f s) = sideOf r p s := rfl
@[simp] theorem portOf_setDv (r : Nat) : portOf r (setDv f s) = portOf r s := rfl
end

section
variable (s : State) (f : JigSt → JigSt)
@[simp] theorem rd_setJig (r : Nat) : rd r (setJig f s) = rd r s := rfl
@[simp] theorem rdF_setJig (r : Nat) (g : Fld) : rdF r g (setJig f s) = rdF r g s := rfl
@[simp] theorem tb_setJig (r : Nat) : tb r (setJig f s) = tb r s := rfl
@[simp] theorem benchOf_setJig (r : Nat) : benchOf r (setJig f s) = benchOf r s := rfl
@[simp] theorem seqOf_setJig (r p : Nat) : seqOf r p (setJig f s) = seqOf r p s := rfl
@[simp] theorem sideOf_setJig (r p : Nat) : sideOf r p (setJig f s) = sideOf r p s := rfl
@[simp] theorem portOf_setJig (r : Nat) : portOf r (setJig f s) = portOf r s := rfl
end

section
variable (s : State) (f : KilnSt → KilnSt)
@[simp] theorem rd_setKiln (r : Nat) : rd r (setKiln f s) = rd r s := rfl
@[simp] theorem rdF_setKiln (r : Nat) (g : Fld) : rdF r g (setKiln f s) = rdF r g s := rfl
@[simp] theorem tb_setKiln (r : Nat) : tb r (setKiln f s) = tb r s := rfl
@[simp] theorem benchOf_setKiln (r : Nat) : benchOf r (setKiln f s) = benchOf r s := rfl
@[simp] theorem seqOf_setKiln (r p : Nat) : seqOf r p (setKiln f s) = seqOf r p s := rfl
@[simp] theorem sideOf_setKiln (r p : Nat) : sideOf r p (setKiln f s) = sideOf r p s := rfl
@[simp] theorem portOf_setKiln (r : Nat) : portOf r (setKiln f s) = portOf r s := rfl
end

section
variable (s : State) (f : PowerSt → PowerSt)
@[simp] theorem rd_setPow (r : Nat) : rd r (setPow f s) = rd r s := rfl
@[simp] theorem rdF_setPow (r : Nat) (g : Fld) : rdF r g (setPow f s) = rdF r g s := rfl
@[simp] theorem tb_setPow (r : Nat) : tb r (setPow f s) = tb r s := rfl
@[simp] theorem benchOf_setPow (r : Nat) : benchOf r (setPow f s) = benchOf r s := rfl
@[simp] theorem seqOf_setPow (r p : Nat) : seqOf r p (setPow f s) = seqOf r p s := rfl
@[simp] theorem sideOf_setPow (r p : Nat) : sideOf r p (setPow f s) = sideOf r p s := rfl
@[simp] theorem portOf_setPow (r : Nat) : portOf r (setPow f s) = portOf r s := rfl
end

section
variable (s : State) (f : SecSt → SecSt)
@[simp] theorem rd_setSec (r : Nat) : rd r (setSec f s) = rd r s := rfl
@[simp] theorem rdF_setSec (r : Nat) (g : Fld) : rdF r g (setSec f s) = rdF r g s := rfl
@[simp] theorem tb_setSec (r : Nat) : tb r (setSec f s) = tb r s := rfl
@[simp] theorem benchOf_setSec (r : Nat) : benchOf r (setSec f s) = benchOf r s := rfl
@[simp] theorem seqOf_setSec (r p : Nat) : seqOf r p (setSec f s) = seqOf r p s := rfl
@[simp] theorem sideOf_setSec (r p : Nat) : sideOf r p (setSec f s) = sideOf r p s := rfl
@[simp] theorem portOf_setSec (r : Nat) : portOf r (setSec f s) = portOf r s := rfl
end

section
variable (s : State) (b : Boundary)
@[simp] theorem rd_setBnd (r : Nat) : rd r (setBnd b s) = rd r s := rfl
@[simp] theorem rdF_setBnd (r : Nat) (g : Fld) : rdF r g (setBnd b s) = rdF r g s := rfl
@[simp] theorem tb_setBnd (r : Nat) : tb r (setBnd b s) = tb r s := rfl
@[simp] theorem benchOf_setBnd (r : Nat) : benchOf r (setBnd b s) = benchOf r s := rfl
@[simp] theorem seqOf_setBnd (r p : Nat) : seqOf r p (setBnd b s) = seqOf r p s := rfl
@[simp] theorem sideOf_setBnd (r p : Nat) : sideOf r p (setBnd b s) = sideOf r p s := rfl
@[simp] theorem portOf_setBnd (r : Nat) : portOf r (setBnd b s) = portOf r s := rfl
end

section
variable (s : State)

@[simp] theorem rd_wr_same (k : Nat) (v : Word) : rd k (wr k v s) = v := smGet_smPut_same _ _ _ _
theorem rd_wr_other {k j : Nat} (v : Word) (h : j ≠ k) : rd j (wr k v s) = rd j s := smGet_smPut_other _ _ _ h
theorem rd_wr (k j : Nat) (v : Word) : rd j (wr k v s) = if j = k then v else rd j s := by
  by_cases h : j = k
  · subst h; simp
  · simp [h, rd_wr_other s v h]
@[simp] theorem rd_wrF_same (k : Nat) (f : Fld) (x : Nat) : rd k (wrF k f x s) = setF f (rd k s) x := rd_wr_same s _ _
theorem rd_wrF_other {k j : Nat} (f : Fld) (x : Nat) (h : j ≠ k) : rd j (wrF k f x s) = rd j s := rd_wr_other s _ h
@[simp] theorem rd_bumpBy_same (n k : Nat) : rd k (bumpBy n k s) = rd k s + BitVec.ofNat 64 n := rd_wr_same s _ _
theorem rd_bumpBy_other (n : Nat) {k j : Nat} (h : j ≠ k) : rd j (bumpBy n k s) = rd j s := rd_wr_other s _ h
@[simp] theorem rd_bump_same (k : Nat) : rd k (bump k s) = rd k s + 1 := rd_wr_same s _ _
theorem rd_bump_other {k j : Nat} (h : j ≠ k) : rd j (bump k s) = rd j s := rd_wr_other s _ h
@[simp] theorem tb_tbW_same (k : Nat) (v : Word) : tb k (tbW k v s) = v := smGet_smPut_same _ _ _ _
theorem tb_tbW_other {k j : Nat} (v : Word) (h : j ≠ k) : tb j (tbW k v s) = tb j s := smGet_smPut_other _ _ _ h
theorem tb_tbW (k j : Nat) (v : Word) : tb j (tbW k v s) = if j = k then v else tb j s := by
  by_cases h : j = k
  · subst h; simp
  · simp [h, tb_tbW_other s v h]
@[simp] theorem benchOf_setBench_same (b : Nat) (x : Bench) : benchOf b (setBench b x s) = x := smGet_smPut_same _ _ _ _
theorem benchOf_setBench_other {b c : Nat} (x : Bench) (h : c ≠ b) : benchOf c (setBench b x s) = benchOf c s :=
  smGet_smPut_other _ _ _ h
@[simp] theorem portOf_setPort_same (n : Nat) (x : Port) : portOf n (setPort n x s) = x := smGet_smPut_same _ _ _ _
theorem portOf_setPort_other {n m : Nat} (x : Port) (h : m ≠ n) : portOf m (setPort n x s) = portOf m s :=
  smGet_smPut_other _ _ _ h
end

section
variable (b q : Nat) (v : Seq) (s : State)
@[simp] theorem setSeq_cycle : (setSeq b q v s).cycle = s.cycle := by unfold setSeq; dsimp only; split <;> rfl
@[simp] theorem setSeq_dev : (setSeq b q v s).dev = s.dev := by unfold setSeq; dsimp only; split <;> rfl
@[simp] theorem setSeq_tabs : (setSeq b q v s).tabs = s.tabs := by unfold setSeq; dsimp only; split <;> rfl
@[simp] theorem setSeq_sram : (setSeq b q v s).sram = s.sram := by unfold setSeq; dsimp only; split <;> rfl
@[simp] theorem setSeq_stags : (setSeq b q v s).stags = s.stags := by unfold setSeq; dsimp only; split <;> rfl
@[simp] theorem setSeq_sbad : (setSeq b q v s).sbad = s.sbad := by unfold setSeq; dsimp only; split <;> rfl
@[simp] theorem setSeq_ruril : (setSeq b q v s).ruril = s.ruril := by unfold setSeq; dsimp only; split <;> rfl
@[simp] theorem setSeq_rtags : (setSeq b q v s).rtags = s.rtags := by unfold setSeq; dsimp only; split <;> rfl
@[simp] theorem setSeq_rbad : (setSeq b q v s).rbad = s.rbad := by unfold setSeq; dsimp only; split <;> rfl
@[simp] theorem setSeq_tier : (setSeq b q v s).tier = s.tier := by unfold setSeq; dsimp only; split <;> rfl
@[simp] theorem setSeq_pool : (setSeq b q v s).pool = s.pool := by unfold setSeq; dsimp only; split <;> rfl
@[simp] theorem setSeq_ctxs : (setSeq b q v s).ctxs = s.ctxs := by unfold setSeq; dsimp only; split <;> rfl
@[simp] theorem setSeq_ports : (setSeq b q v s).ports = s.ports := by unfold setSeq; dsimp only; split <;> rfl
@[simp] theorem setSeq_xport : (setSeq b q v s).xport = s.xport := by unfold setSeq; dsimp only; split <;> rfl
@[simp] theorem setSeq_col : (setSeq b q v s).col = s.col := by unfold setSeq; dsimp only; split <;> rfl
@[simp] theorem setSeq_dov : (setSeq b q v s).dov = s.dov := by unfold setSeq; dsimp only; split <;> rfl
@[simp] theorem setSeq_clamp : (setSeq b q v s).clamp = s.clamp := by unfold setSeq; dsimp only; split <;> rfl
@[simp] theorem setSeq_mark : (setSeq b q v s).mark = s.mark := by unfold setSeq; dsimp only; split <;> rfl
@[simp] theorem setSeq_host : (setSeq b q v s).host = s.host := by unfold setSeq; dsimp only; split <;> rfl
@[simp] theorem setSeq_jig : (setSeq b q v s).jig = s.jig := by unfold setSeq; dsimp only; split <;> rfl
@[simp] theorem setSeq_power : (setSeq b q v s).power = s.power := by unfold setSeq; dsimp only; split <;> rfl
@[simp] theorem setSeq_kiln : (setSeq b q v s).kiln = s.kiln := by unfold setSeq; dsimp only; split <;> rfl
@[simp] theorem setSeq_mgt : (setSeq b q v s).mgt = s.mgt := by unfold setSeq; dsimp only; split <;> rfl
@[simp] theorem setSeq_sec : (setSeq b q v s).sec = s.sec := by unfold setSeq; dsimp only; split <;> rfl
@[simp] theorem setSeq_priv : (setSeq b q v s).priv = s.priv := by unfold setSeq; dsimp only; split <;> rfl
@[simp] theorem setSeq_msixTab : (setSeq b q v s).msixTab = s.msixTab := by unfold setSeq; dsimp only; split <;> rfl
@[simp] theorem setSeq_glueHold : (setSeq b q v s).glueHold = s.glueHold := by unfold setSeq; dsimp only; split <;> rfl
@[simp] theorem setSeq_errPending : (setSeq b q v s).errPending = s.errPending := by unfold setSeq; dsimp only; split <;> rfl
@[simp] theorem setSeq_v16Sent : (setSeq b q v s).v16Sent = s.v16Sent := by unfold setSeq; dsimp only; split <;> rfl
@[simp] theorem setSeq_msixEn : (setSeq b q v s).msixEn = s.msixEn := by unfold setSeq; dsimp only; split <;> rfl
@[simp] theorem setSeq_msixOpen : (setSeq b q v s).msixOpen = s.msixOpen := by unfold setSeq; dsimp only; split <;> rfl
@[simp] theorem setSeq_msixPba : (setSeq b q v s).msixPba = s.msixPba := by unfold setSeq; dsimp only; split <;> rfl
@[simp] theorem setSeq_ibiEn : (setSeq b q v s).ibiEn = s.ibiEn := by unfold setSeq; dsimp only; split <;> rfl
@[simp] theorem setSeq_ibiPend : (setSeq b q v s).ibiPend = s.ibiPend := by unfold setSeq; dsimp only; split <;> rfl
@[simp] theorem setSeq_work : (setSeq b q v s).work = s.work := by unfold setSeq; dsimp only; split <;> rfl
@[simp] theorem setSeq_sent : (setSeq b q v s).sent = s.sent := by unfold setSeq; dsimp only; split <;> rfl
@[simp] theorem setSeq_fresh : (setSeq b q v s).fresh = s.fresh := by unfold setSeq; dsimp only; split <;> rfl
@[simp] theorem setSeq_pending : (setSeq b q v s).pending = s.pending := by unfold setSeq; dsimp only; split <;> rfl
@[simp] theorem tb_setSeq (k : Nat) : tb k (setSeq b q v s) = tb k s := by unfold setSeq; dsimp only; split <;> rfl
end

end Sys2Proof.Machine
end

