-- ==== Sys2Proof/Laws/Rows.lean ====
section
/-!
SUPPORT. The forms that the rows of the command table share: an access that reaches its register, and a command of the units.
-/
namespace Sys2Proof.Machine

@[simp] theorem arrived_host (s : State) : arrived .host s = s := rfl
@[simp] theorem arrived_work (src : Src) (s : State) : (arrived src s).work = s.work := by cases src <;> rfl
@[simp] theorem arrived_col (src : Src) (s : State) : (arrived src s).col = s.col := by cases src <;> rfl
@[simp] theorem arrived_dev (src : Src) (s : State) : (arrived src s).dev = s.dev := by cases src <;> rfl
@[simp] theorem arrived_tabs (src : Src) (s : State) : (arrived src s).tabs = s.tabs := by cases src <;> rfl
@[simp] theorem arrived_benches (src : Src) (s : State) : (arrived src s).benches = s.benches := by cases src <;> rfl
@[simp] theorem arrived_power (src : Src) (s : State) : (arrived src s).power = s.power := by cases src <;> rfl

/-- What a sender finds is as quiet as what it left. -/
theorem Quiet.arrived {s : State} (h : Quiet s) (src : Src) : Quiet (arrived src s) := by
  unfold Quiet at *; simpa using h

/-- An access that reaches its register has its effect in the state in which it arrives. -/
theorem access_reaches {src : Src} {off : Nat} {a : Access} {s : State} (k : State → State) (h : Reaches src off a s) :
    access src off a k s = k (arrived src s) := by
  obtain ⟨h1, h2⟩ := h
  cases src <;> cases a <;> simp_all [access, gluedAccess, arrived]

theorem regAccess_reaches {src : Src} {off : Nat} {a : Access} {s : State} (h : Reaches src off a s) :
    regAccess src off a s = busAccess src off a (arrived src s) := access_reaches _ h

/-- A register command whose effect leaves nothing to settle. -/
theorem regRow_reaches {src : Src} {off : Nat} {a : Access} {s t : State} (h : Reaches src off a s)
    (e : busAccess src off a (arrived src s) = t) (q : Quiet t) : regRow off a src s = .next t := by
  rw [regRow, regAccess_reaches h, e, settleAll_quiet t q]

/-- A write of the register at a defined offset. -/
theorem busWrite_at {off : Nat} {r : RegRow} (src : Src) (v : Word) (s : State) (h : regRowAt off = some r) :
    busAccess src off (.write v) s = regWrite src r off v s := by
  simp [busAccess, busWrite, h]

/-- A command of a sequencer while the units run. -/
theorem seqRow_runs {b q : Nat} {s : State} (f : State → State) (hb : b < 1176) (hq : q < 2) (h : runs s = true) :
    seqRow b q f s = .next (settle (f s)) := by
  simp [seqRow, check, hb, hq, h]

/-- A command of a sequencer that leaves nothing to settle. -/
theorem seqRow_next {b q : Nat} {s t : State} (f : State → State) (hb : b < 1176) (hq : q < 2) (h : runs s = true)
    (e : f s = t) (w : t.work = []) : seqRow b q f s = .next t := by
  rw [seqRow_runs f hb hq h, e, settle_quiet t w]

/-- A command of the units that leaves nothing to settle. -/
theorem unitRow_next {s t : State} (f : State → State) (h : runs s = true) (e : f s = t) (w : t.work = []) :
    unitRow f s = .next t := by
  rw [unitRow, if_pos h, e, settle_quiet t w]

end Sys2Proof.Machine
end

