-- ==== Sys2Proof/Laws/Issue.lean ====
section
/-!
SUPPORT. The issue of one instruction: what the step answers where it issues, and where it stalls.
-/
namespace Sys2Proof.Machine

/-- An instruction that issues into state `u` ends the step there, with what it leaves carried out. -/
theorem issue_ok {b q : Nat} {k : Slasal} {s u : State} (f : Word → State → Option State) (h : Issues b q k s)
   (e : f (curWord b q s) (atIssue b q s) = some u) : seqRow b q (issue k f b q) s = .next (settle u) := by
  obtain ⟨hb, hq, hr, hw, hc, hp, hd⟩ := h
  rw [seqRow_runs _ hb hq hr]
  simp only [issue]
  rw [if_neg (by simp [hc]; omega), hd]
  simp only [atIssue] at e
  simp [e]
/-- An instruction that stalls changes nothing. -/
theorem issue_stall {b q : Nat} {k : Slasal} {s : State} (f : Word → State → Option State) (h : Issues b q k s)
   (e : f (curWord b q s) (atIssue b q s) = none) : seqRow b q (issue k f b q) s = .next s := by
  obtain ⟨hb, hq, hr, hw, hc, hp, hd⟩ := h
  rw [seqRow_runs _ hb hq hr]
  simp only [issue]
  rw [if_neg (by simp [hc]; omega), hd]
  simp only [atIssue] at e
  simp [e, settle_quiet s hw]
@[simp] theorem issued_work (b q c f s) : (issued b q c f s).work = s.work := by simp [issued]
@[simp] theorem atIssue_work (b q s) : (atIssue b q s).work = s.work := rfl
/-- An instruction that issues and leaves nothing to settle. -/
theorem issue_next {b q : Nat} {k : Slasal} {s u : State} (f : Word → State → Option State) (h : Issues b q k s)
   (e : f (curWord b q s) (atIssue b q s) = some u) (w : u.work = []) : seqRow b q (issue k f b q) s = .next u := by
  rw [issue_ok f h e, settle_quiet u w]
@[simp] theorem seqOf_atIssue (b q c d s) : seqOf b q (atIssue c d s) = seqOf b q s := rfl
@[simp] theorem sideOf_atIssue (b q c d s) : sideOf b q (atIssue c d s) = sideOf b q s := rfl
@[simp] theorem runIn_atIssue (b q c d x n s) : runInTiles b q x n (atIssue c d s) = runInTiles b q x n s := rfl
@[simp] theorem accCount_atIssue (b c d s) : accCount b (atIssue c d s) = accCount b s := rfl
@[simp] theorem laneCount_atIssue (b c d s) : laneCount b (atIssue c d s) = laneCount b s := rfl
@[simp] theorem afterResult_atIssue (b c d s) : afterResult b (atIssue c d s) = afterResult b s := rfl
theorem issues_work {b q k s} (h : Issues b q k s) : s.work = [] := h.2.2.2.1
@[simp] theorem gather_work (b q f s) : (gather b q f s).work = s.work := by
  unfold gather; split; rfl; dsimp only; (repeat' split) <;> simp
@[simp] theorem rowGather_work (b q s) : (rowGather b q s).work = s.work := by
  unfold rowGather; dsimp only; split <;> simp
@[simp] theorem discardSwaps_work (b q s) : (discardSwaps b q s).work = s.work := by
  unfold discardSwaps; simp

end Sys2Proof.Machine
end

