-- ==== Sys2Proof/Tests/Slice0.lean ====
section
/-!
SUPPORT. The tests: the examples and check values of the spec, the ill-formed terms that the well-formedness check
refuses, and for each obligation the states and operands that meet the hypotheses of its clauses.
-/
namespace Sys2Proof.Tests
open Sys2Proof.Machine
set_option linter.unusedVariables false
set_option Elab.async false
set_option maxRecDepth 100000

/-! ## States that the tests use -/

def up : State := { wrF Reg.GLB_HIF_LINK Fld.GLB_HIF_LINK_UP 1 State.reset with dev := 6 }
def slWord (op : Nat) (fs : List (Fld × Nat)) : Word := fs.foldl (fun w p => setF p.1 w p.2) (BitVec.ofNat 64 (op * 2 ^ 56))
def at0 (w : Word) (f : Seq → Seq := id) (s : State := up) : State :=
  tbW (Tab.IMEM 0) w (setBench 0 { Bench.reset with seq0 := f { Seq.reset with st := .run } } s)

/-- Bench 0 belongs to context 1, which is RUNNING. -/
def own : State := tbW (Tab.BENCHTAB 0) (setF Fld.CTX_BENCH_DATA_CTXA (setF Fld.CTX_BENCH_DATA_MODE 0 1) 1)
  (wrF (Reg.CTX_STATUS 1) Fld.CTX_STATUS_STATE 1 up)
def op0 (k : UKind) : UOp := mkOp k 0 0 0 0 0 1 0 0 up
def side0 (f : Side → Side) (s : State) : State := setSide 0 0 (f (sideOf 0 0 s)) s
def seq0 (f : Seq → Seq) (s : State) : State := setSeq 0 0 (f (seqOf 0 0 s)) s

/-- The Floor is armed, and descriptor 3 of bench 0 has slots. -/
def armed (s : State) : State := wrF Reg.GLB_FLOOR_STATUS Fld.GLB_FLOOR_STATUS_ARMED 1
  (tbW (Tab.FDESC 3) (setF Fld.FDESC_ENDPOINT (setF Fld.FDESC_REMOTE (setF Fld.FDESC_SLOTS 0 0x0101) 4) 7) s)

/-- Fabric descriptor 3 of context 1: KIND 0, channel 9, to rank 5. -/
def desc3 (kind : Nat) (s : State) : State := tbW (Tab.XDESC 6)
  (setF Fld.XDESC0_CTX (setF Fld.XDESC0_KIND (setF Fld.XDESC0_VALID 0 1) kind) 1) s

/-- Semaphore 8 of context 1 with a value, as a counter or a lock. -/
def sem8 (v lock : Nat) (s : State) : State :=
  tbW (Tab.SEM 8) (setF Fld.SEM_LOCK (setF Fld.SEM_VALUE (setF Fld.SEM_OWNER 0 1) v) lock) s
def held8 (s : State) : State := tbW (Tab.SEM 8) (setF Fld.SEM_HOLDER (setF Fld.SEM_HELD (semEntry 8 s) 1) 1) s

/-- Bench 0 holds, in tile 5, zeros in a format. -/
def tile5 (fmt : Nat) (s : State) : State := setBenchTile 0 5 ⟨BitVec.ofNat 128 (zeroCrc + fmt * 2 ^ 32), []⟩ s
/-- An instruction of sequencer 0 of bench 0 on tile 5, with its word, destination and count. -/
def opAt (k : UKind) (w : Word) (dst num aux : Nat) : UOp := ⟨k, 0, 0, w, 5, dst, num, aux, 0, 0, 0, 0⟩
def noEcc : Ecc := ⟨0, []⟩
/-- A message of two chunks of rank 0 for descriptor 3. -/
def msg3 : RxMsg := ⟨0, 0, 1, 0, 0, 2, 0, [], 0, none⟩
def recv3 (taken : Bool) (landed : Nat) : RecvOp := ⟨3, 6, 4, 2, 0, 0, taken, 2, landed⟩
def waits (x : Blocked) (s : State) : State := at0 0 (fun q => { q with st := .wait, blocked := x, po := 1 }) s
def valsOf (r : ReadRes × State) : List FVal := match r.1 with | .vals v _ => v | _ => []
def extraOf (r : ReadRes × State) : Nat := match r.1 with | .vals _ x => x | _ => 0

/-- The exchange of layer descriptor 3 of context 1 in STEP 0, its walk over and its last round closed, with an inbox of entry 0. -/
def dent (left : Option Nat) : DovEnt := ⟨0, 0, 0, [], [], true, false, true, 0, left, false, 0, [], false⟩
def dx3 (left : Option Nat) : DovX :=
  ⟨3, 1, 0, 0, true, [], [], 0, [], true, true, false, [], true, true, [dent left], [], [], [], false, [], false⟩

def bookOf (r : CbRes × State) : List FVal := match r.1 with | .book v _ => v | _ => []
def bookX (r : CbRes × State) : Nat := match r.1 with | .book _ x => x | _ => 0

def armedDov (s : State) : State := wrF Reg.GLB_FLOOR_STATUS Fld.GLB_FLOOR_STATUS_ARMED 1
  (tbW (Tab.FDESC 3) (setF Fld.FDESC_ENDPOINT (setF Fld.FDESC_REMOTE (setF Fld.FDESC_SLOTS 0 0x0101) 4) 0x600) s)

/-- The sideband target has its address, and SEC_POLICY lets it write. -/
def sb (s : State) : State :=
  wrF Reg.SEC_POLICY Fld.SEC_POLICY_SB_WRITE 1 (wrF Reg.MGT_SB_STATUS Fld.MGT_SB_STATUS_DA_VALID 1 s)
/-- Object 7 in descriptor 2: two tiles from Ruril tile 100, placed on bench 0 from tile 5. -/
def obj2 (st sram : Nat) (s : State) : State :=
  objW 2 0 Fld.OBJ0_STATE st (objW 2 0 Fld.OBJ0_SRAM sram (objW 2 0 Fld.OBJ0_OBJECT 7 (objW 2 0 Fld.OBJ0_VALID 1
    (objW 2 1 Fld.OBJ1_LEN 2 (objW 2 1 Fld.OBJ1_RBASE 100 (objW 2 2 Fld.OBJ2_BFIRST 0 (objW 2 2 Fld.OBJ2_BCOUNT 1
      (objW 2 2 Fld.OBJ2_TFIRST 5 s))))))))

/-- A job of KEY 5 and EPOCH 3 is ACTIVE, and this device, PHYS 9, is rank 1 of it. -/
def job (s : State) : State :=
  wr Reg.FAB_RANK (w64 (2 ^ 63 + 1)) (tbW (Tab.RANK 1) (w64 (2 ^ 62 + 9)) (tbW (Tab.RANK 0) (w64 (2 ^ 62 + 4))
    (wrF Reg.FAB_SELF Fld.FAB_SELF_VALID 1 (wrF Reg.FAB_SELF Fld.FAB_SELF_SLOT 1 (wrF Reg.FAB_SELF Fld.FAB_SELF_TRAY 1
      (wrF Reg.FAB_JOB Fld.FAB_JOB_STATE 1 (wrF Reg.FAB_JOB Fld.FAB_JOB_KEY 5 (wrF Reg.FAB_JOB Fld.FAB_JOB_EPOCH 3 s))))))))

def xfer (k : XferKind) : TierXfer := ⟨k, 2, 0, 0, 5, 100, 20, 40, none⟩
/-- Object 2 in a state and SRAM with one transfer under way. -/
def moving (st sram : Nat) (x : TierXfer) (s : State) : State :=
  { obj2 st sram s with tier := { Tier.empty with xfers := [x], dirty := [2 * 2 ^ 24] } }
/-- Ruril tile 100 holds zeros in a format. -/
def ruril100 (fmt : Nat) (s : State) : State := setRurilTile 100 ⟨BitVec.ofNat 128 (zeroCrc + fmt * 2 ^ 32), []⟩ s
def zeros : List Byte := List.replicate 4096 0
/-- Zeros in a bench tile and a Ruril tile with their bytes written out. -/
def both4 (fmt : Nat) (s : State) : State :=
  setRurilTile 100 ⟨BitVec.ofNat 128 (zeroCrc + fmt * 2 ^ 32), zeros⟩ (setBenchTile 0 5 ⟨BitVec.ofNat 128 (zeroCrc + fmt * 2 ^ 32), zeros⟩ s)
def mitre2 (s : State) : State := objW 2 0 Fld.OBJ0_MITRE 1 s

def promo2 (dead : Bool) : Promo := ⟨2, 90, [⟨1, 8, 2, false, false⟩], dead⟩
def back2 (flush : Bool) : WriteBack := ⟨2, 80, [0], flush⟩

/-- Object 2 is POISONED and its tiles are being recovered from a source. -/
def recovers (tiles : List Nat) (src sram : Nat) (s : State) : State :=
  { obj2 osPoisoned sram s with tier := { Tier.empty with recov := [⟨2, tiles, src, 7, false⟩] } }
def hostCopy (s : State) : State := objW 2 4 Fld.OBJ4_HOSTADDR 77 (objW 2 4 Fld.OBJ4_HOST_VALID 1 s)

/-- A pool of three buffers from Ruril tile 1000, their descriptors from tile 50, all free. -/
def pool3 (s : State) : State :=
  setRurilBytes (1000 * 4096) (leBytes 8 1001) (setRurilBytes (1001 * 4096) (leBytes 8 1002) (setRurilBytes (1002 * 4096) (leBytes 8 bufEnd)
    (wrF Reg.BPM_FREE_HEAD Fld.BPM_FREE_HEAD_HEAD 1000 (wr Reg.BPM_FREE_COUNT 3
      (wrF Reg.BPM_POOL_CTL Fld.BPM_POOL_CTL_DBASE 50 (wrF Reg.BPM_POOL Fld.BPM_POOL_LEN 3 (wrF Reg.BPM_POOL Fld.BPM_POOL_BASE 1000 s)))))))
/-- Buffer 1000 in a state with its holder and users. -/
def buf1000 (st final users freeing : Nat) (s : State) : State :=
  bdW 1000 BD.freeing freeing (bdW 1000 BD.users users (bdW 1000 BD.final final (bdW 1000 BD.state st s)))
def ruril (s : State) : State := { s with power := { s.power with ruril := true } }
/-- A boundary in a phase. -/
def inPhase (p : Nat) (s : State) : State := { s with pool := { s.pool with bnd := some ⟨p, 9, 0, false, [], none, []⟩ } }
/-- Slot 3 of context 1 in a state. -/
def slot3 (st : Nat) (s : State) : State := slW 3 0 SL.ctx 1 (slW 3 0 SL.state st s)

/-- Slot 3 leaves with one buffer, 1000, and slot 4 after it. -/
def parks (ns : List Nat) (s : State) : State :=
  { slW 3 2 SL.bufs 1 (slW 3 1 SL.head 1000 (slot3 2 (bdW 1000 BD.next bufEnd (buf1000 1 (slotHolder 3) 0 0 (pool3 s))))) with
    pool := { s.pool with bnd := some ⟨3, 9, 0, true, ns, none, []⟩ } }
def resumes (j : Join) (s : State) : State :=
  { slW 3 2 SL.bufs 1 (slW 3 1 SL.head 1000 (slot3 1 (bdW 1000 BD.next bufEnd (buf1000 1 (slotHolder 3) 0 0 (pool3 s))))) with
    pool := { s.pool with bnd := some ⟨4, 9, 0, false, [], some (3, j), []⟩ } }

/-- Layer descriptor 3 of context 1: four experts from entry 0, K = 2, one NEXT candidate; context 1 has Gauge unit 0, Dovetail port
0 and a store share. -/
def layer3 (share : Nat) (s : State) : State :=
  tbW (Tab.LAYER 12) (setF Fld.LAYER0_VALID (setF Fld.LAYER0_CTX (setF Fld.LAYER0_E (setF Fld.LAYER0_K (setF Fld.LAYER0_DEPTH 0 1) 2) 4) 1) 1)
    (wrF (Reg.DOV_CTX_PORTS 1) Fld.DOV_CTX_PORTS_PORTS 1 (wrF (Reg.DOV_CTX_GAUGE 1) Fld.DOV_CTX_GAUGE_GAUGES 1
      (wrF (Reg.DOV_CTX_GAUGE 1) Fld.DOV_CTX_GAUGE_STORE share s)))
def dovOn (s : State) : State := wrF Reg.DOV_STATUS Fld.DOV_STATUS_RUN 1 s
/-- The descriptor of the step, with T tokens. -/
def desc3x (num : Nat) : DovDesc := ⟨3, 1, num, 0, none, none, [], [], [], 0, 0, [], []⟩
def inStep (x : DovDesc) (s : State) : State := { s with dov := { Dov.empty with descs := [x] } }
def layerW (f : Fld) (x : Nat) (s : State) : State := tbWF (Tab.LAYER 12) f x s

def tok0 (t : Nat) (skip formed : Bool) : DovTok := ⟨t, skip, false, [2, 1, 3], [1065353216, 0], 20, 33, formed⟩
def row0 : DovCopy := ⟨0, 2, 0, none, 0, [1], 0⟩
def ent5 : DovEnt := ⟨5, 2, 0, [row0], [], true, false, false, 0, some 0, false, 0, [], false⟩
def exch (e : DovEnt) : DovX := ⟨3, 1, 0, 1, true, [], [], 0, [], true, true, true, [], true, true, [e], [], [], [], false, [], false⟩
def local5 (s : State) : State := tbW (Tab.LOC 22) (setF Fld.LOC2_RSEM (setF Fld.LOC2_RNUM 0 2) 8)
  (tbW (Tab.DISP 6) (setF Fld.DISP0_VALID (setF Fld.DISP0_IFMT (setF Fld.DISP0_RFMT (setF Fld.DISP0_OFMT (setF Fld.DISP0_WB 0 2) 1) 2) 2) 1) s)

def run5 : Run := ⟨opAt .moveOut 0 0 1 3, 3, 200, 0, [], [], [], 0, 0⟩
/-- Descriptor 3 of bench 0 leads to Dovetail port 0 with a REMOTE, and a MOVE.T of tile 5 is on its way there. -/
def toPort (remote : Nat) (s : State) : State := side0 (fun x => { x with moveQ := [run5] })
  (tbW (Tab.FDESC 3) (setF Fld.FDESC_ENDPOINT (setF Fld.FDESC_REMOTE (setF Fld.FDESC_SLOTS 0 0x0101) remote) 0x600) s)

/-- Port `n` in a state, with a WIDTH and its model record. -/
def port (n st w : Nat) (f : Port → Port) (s : State) : State :=
  setPort n (f (portOf n s)) (psW n Fld.FAB_PORT_STATUS_WIDTH w (psW n Fld.FAB_PORT_STATUS_STATE st s))
/-- This device is in slot 1 of tray 1. -/
def self9 (s : State) : State := wrF Reg.FAB_SELF Fld.FAB_SELF_VALID 1 (wrF Reg.FAB_SELF Fld.FAB_SELF_SLOT 1 (wrF Reg.FAB_SELF Fld.FAB_SELF_TRAY 1 s))
/-- The identity of the device in slot 2 of tray 1 on its port 6, with its versions. -/
def slot2 (lo hi : Nat) : Word := setF Fld.FAB_PORT_PARTNER_KIND (setF Fld.FAB_PORT_PARTNER_ID (setF Fld.FAB_PORT_PARTNER_SUB
  (setF Fld.FAB_PORT_PARTNER_PPORT (setF Fld.FAB_PORT_PARTNER_VMIN (setF Fld.FAB_PORT_PARTNER_VMAX 0 hi) lo) 6) 2) 1) 1

def setX1 (x : Xport) (s : State) : State := { s with xport := x }
/-- FAB_START names a job. -/
def names (key epoch : Nat) (s : State) : State := wrF Reg.FAB_START Fld.FAB_START_KEY key (wrF Reg.FAB_START Fld.FAB_START_EPOCH epoch s)
/-- FAB_START names a job, and FAB_EXPECT holds a digest. -/
def expects (d : List Byte) (key epoch : Nat) (s : State) : State :=
  { s with regs := s.regs ++ [(Reg.FAB_START, setF Fld.FAB_START_KEY (setF Fld.FAB_START_EPOCH 0 epoch) key)] ++
    (upto 4).map (fun i => (Reg.FAB_EXPECT i, w64 (leAt d (8 * i) 8))) }
def digestW (s : State) (i : Nat) : Nat := leAt (setupDigest s) (8 * i) 8
/-- A CONTROL packet from PHYS 4. -/
def ctl (type : Nat) (ws : List Nat) : Packet := ⟨netWord0 3 2 0 0 9 4 0, 0, [], w64 type :: ws.map w64, none, []⟩
/-- A transport packet of the job from rank 0 in context 1: TTYPE, SEQ, CHAN, CHUNK. -/
def xp (ty seq chan chunk ordered : Nat) (x : Option Tile) : Packet := sealed
  ⟨netWord0 3 0 ordered 1 9 4 0, w64 (5 * 2 ^ 32 + 3 * 2 ^ 16),
    [w64 (ty * 2 ^ 60 + chan * 2 ^ 36 + chunk * 2 ^ 16), w64 (seq * 2 ^ 32 + 4), 0, 0], [], x, []⟩
def rxOf (p : Packet) : RxPkt := ⟨poolFor p, 2, false, 0, p⟩
/-- Port 0 holds a packet. -/
def holds (p : Packet) (s : State) : State := setPort 0 { Port.reset with arrived := [rxOf p], rxHeld := [(poolFor p, 2)] } s
/-- Tree 2 over the ranks 0 to 3, FANOUT 1. -/
def tree2 (root : Nat) (s : State) : State :=
  tbW (Tab.GROUP 2) (setF Fld.GROUP0_VALID (setF Fld.GROUP0_N (setF Fld.GROUP0_STRIDE 0 1) 4) 1)
    (tbW (Tab.TREE 2) (setF Fld.FAB_TREE_DATA_VALID (setF Fld.FAB_TREE_DATA_GROUP (setF Fld.FAB_TREE_DATA_ROOT
      (setF Fld.FAB_TREE_DATA_FANOUT 0 1) root) 1) 1) s)
def treeAt (mode parent : Nat) (opened : Bool) : TreeSt := ⟨2, 7, parent, mode, 0, opened, 30, [], []⟩
/-- The job drains since cycle 0. -/
def draining (s : State) : State := wrF Reg.FAB_JOB Fld.FAB_JOB_STATE 2 (job s)

/-- A job start with the digest of the tables. -/
def startPkt : Packet := ctl 1 [2 * 2 ^ 32 + 6, digestW up 0, digestW up 1, digestW up 2, digestW up 3, 0]

/-- A packet of the window toward rank 0 in context 1. -/
def unack1 (seq : Nat) : TxPkt := ⟨seq, xp 1 seq 9 0 0 none, .none, .free, true, false⟩
def pair1 (us : List TxPkt) (live : Bool) (s : State) : State :=
  setX1 { Xport.empty with tx := [⟨false, 0, 1, 9, 9, us, [], [], false, 0, false, 0, 4⟩] } (if live then s else tbW (Tab.RANK 0) 0 s)
def snackS : State := holds (xp 3 6 0 0 0 none) (pair1 [unack1 5, unack1 6] true (job own))
/-- A version 2 cell packet from PHYS 4: the first cell of a chain of 100 bytes. -/
def cell2 : Packet := ⟨w64 (2 * 2 ^ 60 + 9 * 2 ^ 35 + 4 * 2 ^ 20), w64 (8 * 2 ^ 32), [], [], none,
  leBytes 8 (2 ^ 63 + 100 * 2 ^ 40) ++ List.replicate 248 7⟩
def key2 (s : State) : State := wrF Reg.FAB_V2_KEY Fld.FAB_V2_KEY_KEY 8 (wrF (Reg.CTX_FABRIC 1) Fld.CTX_FABRIC_STAGE 5 s)

def send1 : SendJob := ⟨0, 0, 4, 1, 1, 0, 0, false, 9, 5, 2, 3, 0, []⟩
def sendRun1 : Run := ⟨⟨.send, 4, 0, 0, 5, 0, 2, 3, 0, 0, 0, 0⟩, 2, 9, 0, [], [], [], 0, 0⟩
def sends1 (x : FabXfer) (s : State) : State :=
  side0 (fun d => { d with sends := [sendRun1] }) (setX1 { Xport.empty with xfers := [x], jobs := [send1] } s)

/-- Group 1 of context 1 over the ranks 0 to 3, and collective descriptor 2 of context 1 for it with a PRIM. -/
def coll (prim slots : Nat) (s : State) : State :=
  tbW (Tab.DESC 16) (setF Fld.DESC0_VALID (setF Fld.DESC0_CTX (setF Fld.DESC0_PRIM (setF Fld.DESC0_GROUP 0 1) prim) 1) 1)
    (wrF (Reg.CTX_FABRIC 1) Fld.CTX_FABRIC_COLSLOTS slots (tbWF (Tab.GROUP 2) Fld.GROUP0_CTX 1 (tree2 0 s)))
def gseqAt (aborted frm next : Nat) (s : State) : State := tbW (Tab.GSEQ 1)
  (setF Fld.COL_GSEQ_DATA_ABORTED (setF Fld.COL_GSEQ_DATA_ABORT_FROM (setF Fld.COL_GSEQ_DATA_NEXT 0 next) frm) aborted) s
def wait1 : ColWait := ⟨1, 4, 1, 20, [], 2, 0, []⟩
def inst1 : ColInst := ⟨1, 4, 1, 20, [], 0, 0, [], false, [], 0, [], none, [], 0, none, 0⟩
def withCol (insts : List ColInst) (waits : List ColWait) (s : State) : State := { s with col := ⟨insts, waits, [], [], []⟩ }

def defer1 : Deferral := ⟨1, 9, 30, 0⟩
def ctxs (x : CtxSt) (s : State) : State := { s with ctxs := x }
def resetting (s : State) : State := wrF (Reg.CTX_STATUS 1) Fld.CTX_STATUS_RESETTING 1 (ctxs { CtxSt.empty with resets := [(1, 77)] } s)

def rec1 (crc : Nat) : ClampRec := ⟨4, 0, 5, crc, 1, 0⟩
def clampOut (s : State) : State := port 7 5 3 id { self9 s with clamp := ⟨[], [], [], [], [rec1 7, rec1 8]⟩ }
def mark1 (m : MarkSt) (s : State) : State := { s with mark := m }
def holdsAt (n : Nat) (p : Packet) (s : State) : State := setPort n { Port.reset with arrived := [rxOf p], rxHeld := [(poolFor p, 2)] } s
def markTree2 (s : State) : State := wrF Reg.DET_MARK_CFG Fld.DET_MARK_CFG_TREE 2 (tree2 0 s)
def waiting (s : State) : State := wrF Reg.DET_MARK_STATUS Fld.DET_MARK_STATUS_WAITING 1 (wrF Reg.DET_MARK_CFG Fld.DET_MARK_CFG_TIMEOUT_MS 3 s)
def inMark (s : State) : State := seq0 (fun x => { x with st := .wait, blocked := .sync 0x80 1 false }) (at0 0 id s)

def power (f : PowerSt → PowerSt) (s : State) : State := { s with power := f s.power }
def jigOf (f : JigSt → JigSt) (s : State) : State := { s with jig := f s.jig }
/-- The device in a state, with the Ruril stacks up. -/
def inState (d : Nat) (s : State) : State := ruril { s with dev := d }
/-- An image of two tiles with one section table entry of each firmware type and no signature that holds. -/
def imgHead : List Byte := asciiBytes "PNAJIG01" ++ leBytes 4 1 ++ leBytes 4 8 ++ leBytes 8 8192
def imgTable : List Byte := (upto 8).flatMap (fun i => leBytes 2 (16 + i) ++ leBytes 2 1 ++ leBytes 4 0 ++ leBytes 8 8192 ++ leBytes 8 0 ++
  leBytes 8 0 ++ sha256 [])
def image8 (m : SMap Byte) (a : Nat) : SMap Byte := memWrite (memWrite m a imgHead) (a + 4096) imgTable
/-- A change set staged in Ruril tiles 2000 and 2001 is the open glue-up. -/
def change (h0 h1 : Nat) (recs : List Nat) (s : State) : State :=
  let bs := (recs.map (leBytes 8)).flatten
  let d := sha256 bs
  jigOf (fun j => { j with base := 2000, head := [w64 h0, w64 h1, 0, 0] ++ (upto 4).map (fun i => w64 (leAt d (8 * i) 8)) })
    (setRurilTile 2001 ⟨0, bs⟩ s)
/-- An IMMEDIATE change set of one MAP record of a layer descriptor that is not valid. -/
def mapOnly : State → State := change (9 * 2 ^ 48) (2 ^ 39 + 1) [2 * 2 ^ 60 + 7, 0]
/-- A change set of group 1 that holds context 1, with a FETCH of two tiles to tile 3000. -/
def fetchOnly : State → State := change (9 * 2 ^ 48 + 2 ^ 32 + 5) (2 * 2 ^ 48 + 1) [2 ^ 60 + 3000, 2]
def holdOne (s : State) : State := { s with glueHold := 2 }

/-- A device in LOAD whose flash holds the image, and one in READY that programs the image staged from Ruril tile 5000. -/
def loadable : State := jigOf (fun j => { j with flash := image8 [] 0 }) (inState 2 up)
def staged : State := { jigOf (fun j => { j with prog := some (5000, 2, 5) }) (inState 5 up) with ruril := image8 [] (5000 * 4096) }

def hostOf (f : HostSt → HostSt) (s : State) : State := { s with host := f s.host }
def noLink (s : State) : State := wr Reg.GLB_HIF_LINK 0 s
/-- The HDM decoder maps the whole Ruril pool from 2^28, with the Ruril stacks up. -/
def hdm (s : State) : State := hostOf (fun h => { h with hdmBase := 2 ^ 28, hdmSize := 768 * 2 ^ 30 }) (ruril s)
def ideOnly (s : State) : State := wrF Reg.SEC_POLICY Fld.SEC_POLICY_IDE_REQUIRED 1 s

/-- Intake ring 3 of 16 records is enabled, and completion ring 3 of 8. -/
def irRing (head tail : Nat) (s : State) : State :=
  wrF (Reg.GLB_HIF_IR_CFG 3) Fld.GLB_HIF_IR_CFG_ENABLE 1 (wrF (Reg.GLB_HIF_IR_CFG 3) Fld.GLB_HIF_IR_CFG_LOG2SIZE 4
    (wrF (Reg.GLB_HIF_IR_STATE 3) Fld.GLB_HIF_IR_STATE_TAIL tail (wrF (Reg.GLB_HIF_IR_STATE 3) Fld.GLB_HIF_IR_STATE_HEAD head s)))
def crRing (head tail : Nat) (s : State) : State :=
  wrF (Reg.GLB_HIF_CR_CFG 3) Fld.GLB_HIF_CR_CFG_ENABLE 1 (wrF (Reg.GLB_HIF_CR_CFG 3) Fld.GLB_HIF_CR_CFG_LOG2SIZE 3
    (wrF (Reg.GLB_HIF_CR_STATE 3) Fld.GLB_HIF_CR_STATE_TAIL tail (wrF (Reg.GLB_HIF_CR_STATE 3) Fld.GLB_HIF_CR_STATE_HEAD head s)))

def secOf (f : SecSt → SecSt) (s : State) : State := { s with sec := f s.sec }
def signer (s : State) : State := secOf (fun x => { x with signing := true }) s
def attests (s : State) : State := wrF Reg.SEC_POLICY Fld.SEC_POLICY_SB_ATTEST 1 (sb s)
def ideOn (s : State) : State := wrF Reg.GLB_HIF_LINK Fld.GLB_HIF_LINK_IDE_IO 1 (wrF Reg.GLB_HIF_LINK Fld.GLB_HIF_LINK_IDE_CM 1 s)
def loaded (svn : Nat) (s : State) : State := wrF Reg.JIG_STATUS Fld.JIG_STATUS_LOADED 1 (wrF Reg.JIG_STATUS Fld.JIG_STATUS_SVN svn s)
def burning (k : Nat) (ws : List Word) (s : State) : State :=
  wrF Reg.SEC_FUSE_STATUS Fld.SEC_FUSE_STATUS_BUSY 1 (secOf (fun x => { x with burn := some (k, ws) }) s)

def kilnOf (f : KilnSt → KilnSt) (s : State) : State := { s with kiln := f s.kiln }
/-- A CAP frame with its CRC. -/
def capFrame : List Byte :=
  let bs := leBytes 1 0x81 ++ leBytes 2 7 ++ leBytes 2 900
  leBytes 1 0xA5 ++ bs ++ leBytes 2 (crc16 bs)
def noRow : RegRow := ⟨0, 0, 0, 0, 0, 0, 0, 0, 0⟩
def valveAt (cmd : Nat) (s : State) : State := wrF Reg.KLN_VALVE Fld.KLN_VALVE_CMD cmd s

def ibis (n : Nat) (s : State) : State := { s with ibiEn := true, ibiPend := n }
def mgtOf (f : MgtSt → MgtSt) (s : State) : State := { s with mgt := f s.mgt }
def trayAt (x : Nat) (s : State) : State := wrF Reg.MGT_TRAY Fld.MGT_TRAY_VALID 1 (wrF Reg.MGT_TRAY Fld.MGT_TRAY_TRAY x s)
/-- HEAD and TAIL of the error log. -/
def errLog (head tail : Nat) (s : State) : State := wrF Reg.ERR_STATE Fld.ERR_STATE_HEAD head (wrF Reg.ERR_STATE Fld.ERR_STATE_TAIL tail s)

def busy (n : Nat) (s : State) : State := setSeq 0 n { seqOf 0 n s with st := .run } s
def loopOf (a b : Nat) : LoopFrame := ⟨a, b, 2, 1, 0, 2, 0⟩
def looping (x : Seq) : Seq := { (x.setIndex 2 5).setIndex 3 0xFFFFFFFE with loops := [loopOf 0 3, loopOf 0 8, loopOf 0 9] }

/-! ## The spec's own examples -/

/-- R91: the check value of the string 123456789. -/
theorem test_crc_check_value : crc32c (asciiBytes "123456789") = 0xE3069283 := by decide +kernel

/-- R63, the notes of the format table: E4M3 codes 0x78 and 0x7E are 256 and 448. -/
theorem test_e4m3_examples : toF32 (decodeF e4m3 0x78) = 0x43800000 ∧ toF32 (decodeF e4m3 0x7E) = 0x43E00000 := by decide +kernel

/-- The worked example of a block with one dominant element: 250 is 0x78 in E4M3, inexact. -/
theorem test_e4m3_rounds_up : encodeF e4m3 (f32 0x437A0000) = (0x78, flInexact) := by decide +kernel

/-- The example after R105: SLOTS 0x1111 from cycle 1,003 gives a first slot at 1,004 and a 32nd at 1,128. -/
theorem test_slots_example : (slotsFrom 0x1111 32 1003).headD 0 = 1004 ∧ (slotsFrom 0x1111 32 1003).getLastD 0 = 1128 := by
  decide +kernel

/-- The example after R232: port 1 of slot 1 and port 5 of slot 3 form a link, and no other port of slot 3 does. -/
theorem test_port_pairs_example :
    (upto 16).filter (fun k => partnerOk 1 (setF Fld.FAB_PORT_PARTNER_KIND (setF Fld.FAB_PORT_PARTNER_ID
      (setF Fld.FAB_PORT_PARTNER_SUB (setF Fld.FAB_PORT_PARTNER_PPORT (slot2 3 3) k) 3) 1) 1) (self9 up)) = [5] := by decide +kernel

/-- A tree of 64 members from rank 0 with FANOUT 8. -/
def tree64 : State :=
  tbW (Tab.GROUP 2) (setF Fld.GROUP0_VALID (setF Fld.GROUP0_N (setF Fld.GROUP0_STRIDE 0 1) 64) 1)
    (tbW (Tab.TREE 2) (setF Fld.FAB_TREE_DATA_VALID (setF Fld.FAB_TREE_DATA_GROUP (setF Fld.FAB_TREE_DATA_FANOUT 0 8) 1) 1) up)

/-- The example after R272: position 13 has parent 1 and no children, and positions 1 to 8 are the root's. -/
theorem test_tree_example : treeParent 2 13 tree64 = some 1 ∧ treeChildren 2 13 tree64 = [] ∧
    treeChildren 2 0 tree64 = [1, 2, 3, 4, 5, 6, 7, 8] := by decide +kernel

/-! ## Single steps -/

/-- What a state after a command shows, with a default where the command does not complete. -/
def after {α : Type} (d : α) (f : State → α) (o : Host.Outcome State Fault Refusal) : α :=
  match o with
  | .next t => f t
  | _ => d

/-- MOVE.I ADD wraps at 32 bits (R48). -/
theorem test_move_i_add_wraps :
    after 99 (fun t => (seqOf 0 0 t).index 4) (exec (.moveIAdd 0 0)
      (at0 (slWord 0x40 [(Sl.MOVEI_XD, 4), (Sl.MOVEI_XS, 2), (Sl.MOVEI_IMM, 0xFFFFFFFF), (⟨46, 2⟩, 1)]) (fun x => x.setIndex 2 5))) = 4 := by
  decide +kernel

/-- TRAP faults its sequencer with cause 0 and its own immediate (R54). -/
theorem test_trap_faults :
    after SeqSt.idle (fun t => (seqOf 0 0 t).st) (exec (.trap 0 0) (at0 (slWord 0xF1 [(⟨0, 16⟩, 7)]))) = .fault := by decide +kernel

/-- A read of an offset that no register has answers 0 and is counted (R7). -/
theorem test_bad_read : after ([], 0) (fun t => (t.sent, rd Reg.GLB_BAD_ACCESS t)) (exec (.registerRead 0x3BFFFF8 8 .host) up) =
    ([.mmio 0], 1) := by decide +kernel

/-- The front command runs, and the rest of the queue stays. -/
theorem test_queue_front : after [] (fun t => t.pending) (step { up with pending := [.getbcr, .rstdaa] }) = [.rstdaa] := by decide +kernel

/-- A bench that the block does not have is a fault. -/
theorem test_no_such_bench : exec (.pass 1176 0) up = .fault .noSuchBench := rfl

/-! ## Ill-formed terms -/

/-- A well-formed command. -/
theorem test_well_formed : (Instr.nop 1175 1).wellFormed = true ∧ (Instr.hostLinkTrained 3 16).wellFormed = true := by decide +kernel

/-- One command for each check, with the operand just outside what the check admits. -/
theorem test_ill_formed_refused :
    ([.nop 1176 0, .nop 0 2, .tirReqEvict 16 0, .identTimeout 16, .teardown 17 ⟨0, 0, [], [], none, []⟩, .tirReqEvict 0 65536, .tirReqPromote 0 0 0 4096 1, .tileRefetchDone 0 384 ⟨0, []⟩, .rurilScrub 201326592 0 false, .parkCopyDone 262144 true, .coldResetRelease 8, .irTail 16 0 .host, .treeTimeout 256, .rtoExpire (2 ^ 18) 0, .bpmAlloc (2 ^ 24) true false, .bpmShare 0 0 256 0 false, .bpmDrop 0 (2 ^ 28) false, .layerDescriptorStart 256, .gaugeTokenStart 0 65536, .outboxRead 4096, .linkSignalDetect 0 2, .laneLockLost 0 8, .eqDone 0 256 (List.replicate 8 0), .eqDone 0 0 (List.replicate 7 0), .eqDone 0 0 (List.replicate 8 256), .identExchange 0 0 (List.replicate 16 0), .fecBlockReceive 0 (List.replicate 799 0), .clockFault 4, .cxlMemRead 32 ⟨0, []⟩, .cxlMemRead (2 ^ 52) ⟨0, []⟩, .cxlMemWrite 0 (List.replicate 63 0) 0, .cxlMemWrite 0 (List.replicate 64 0) (2 ^ 64), .openLimitTimeout 256 0, .droopDetect 84, .avsInterval [] [], .valveLoopStep 128, .entdaa 128, .ideMacFail 2, .hostLinkTrained 8 16, .hostLinkTrained 1 32, .klnRegisterWrite (2 ^ 26) 0 .host, .regRead (2 ^ 32), .sidebandUndefinedCmd 6, .sidebandUndefinedCmd 256, .msixTableWrite 128 0, .passDispatch 0 0 ⟨2 ^ 32, []⟩, .recoveryTileReceive 0 0 ⟨0, [1]⟩, .teardown 0 ⟨0, 0, [1], [], none, []⟩] : List Instr).all (fun c => !c.wellFormed) = true := by decide +kernel

/-! ## The set-up digest

The digest covers 266,240 bytes, which the kernel does not compute: these lemmas give what the two clauses on it need. -/

/-- The digest depends on the tables alone. -/
theorem setupDigest_tabs {s t : State} (h : s.tabs = t.tabs) : setupDigest s = setupDigest t := by
  simp only [setupDigest, setupBytes, tb, h]

/-- Its words depend on the tables alone. -/
theorem digestW_tabs {s t : State} (h : s.tabs = t.tabs) (i : Nat) : digestW s i = digestW t i := by
  rw [digestW, digestW, setupDigest_tabs h]

/-- An entry of a list made from the numbers below 4. -/
theorem getD_map_upto (f : Nat → Nat) {i : Nat} (h : i < 4) : ((upto 4).map f).getD i 0 = f i := by
  match i, h with
  | 0, _ => rfl
  | 1, _ => rfl
  | 2, _ => rfl
  | 3, _ => rfl

/-- The registers that digestNow writes. -/
theorem digestNow_wr (s : State) :
    digestNow s = wr (Reg.FAB_DIGEST 3) (w64 (digestW s 3)) (wr (Reg.FAB_DIGEST 2) (w64 (digestW s 2))
      (wr (Reg.FAB_DIGEST 1) (w64 (digestW s 1)) (wr (Reg.FAB_DIGEST 0) (w64 (digestW s 0)) s))) := rfl

/-- FAB_DIGEST as digestNow leaves it. -/
theorem rd_digestNow (s : State) (i : Nat) (h : i < 4) : rd (Reg.FAB_DIGEST i) (digestNow s) = w64 (digestW s i) := by
  have ne : ∀ a b : Nat, a ≠ b → Reg.FAB_DIGEST a ≠ Reg.FAB_DIGEST b := by
    intro a b h
    unfold Reg.FAB_DIGEST
    omega
  rw [digestNow_wr]
  generalize digestW s = d
  match i, h with
  | 0, _ => rw [rd_wr_other _ _ (ne 0 3 (by decide)), rd_wr_other _ _ (ne 0 2 (by decide)), rd_wr_other _ _ (ne 0 1 (by decide)), rd_wr_same]
  | 1, _ => rw [rd_wr_other _ _ (ne 1 3 (by decide)), rd_wr_other _ _ (ne 1 2 (by decide)), rd_wr_same]
  | 2, _ => rw [rd_wr_other _ _ (ne 2 3 (by decide)), rd_wr_same]
  | 3, _ => rw [rd_wr_same]

/-- FAB_DIGEST is what it is expected to be where the four words are the digest's. -/
theorem digestIs_self {l : List Nat} (s : State) (h : ∀ i < 4, l.getD i 0 = (w64 (digestW s i)).toNat) :
    digestIs l (digestNow s) = true := by
  refine List.all_eq_true.2 fun i hi => ?_
  have hi : i < 4 := List.mem_range.1 hi
  rw [rd_digestNow s i hi, h i hi, beq_self_eq_true]

/-- FAB_EXPECT of a state that expects a digest. -/
theorem rd_expects (d : List Byte) (k e i : Nat) (h : i < 4) :
    rd (Reg.FAB_EXPECT i) (expects d k e up) = w64 (leAt d (8 * i) 8) := by
  match i, h with
  | 0, _ => rfl
  | 1, _ => rfl
  | 2, _ => rfl
  | 3, _ => rfl

/-- A state that expects the digest of its tables. -/
theorem expects_digest (k e : Nat) :
    digestIs ((upto 4).map (fun i => (rd (Reg.FAB_EXPECT i) (expects (setupDigest up) k e up)).toNat))
      (digestNow (arrived .host (expects (setupDigest up) k e up))) = true := by
  refine digestIs_self _ fun i hi => ?_
  have h : (arrived .host (expects (setupDigest up) k e up)).tabs = up.tabs := rfl
  rw [digestW_tabs h, getD_map_upto _ hi, rd_expects _ _ _ _ hi, digestW]

/-- Port 0 gives the packet that it holds. -/
theorem heldPacket_holds (p : Packet) (s : State) : heldPacket 0 p (holds p s) = some (rxOf p) := by
  simp [heldPacket, holds, rxOf]

/-- The job start carries the digest of the device's tables. -/
theorem jobStart_digest :
    digestIs ((upto 4).map (fun i => pkC startPkt (2 + i))) (digestNow (takePacket 0 (rxOf startPkt) (holds startPkt (self9 up)))) = true := by
  have e : (takePacket 0 (rxOf startPkt) (holds startPkt (self9 up))).tabs = up.tabs := rfl
  refine digestIs_self _ fun i hi => ?_
  rw [digestW_tabs e, getD_map_upto _ hi]
  unfold startPkt
  generalize digestW up = d
  match i, hi with
  | 0, _ => rfl
  | 1, _ => rfl
  | 2, _ => rfl
  | 3, _ => rfl

/-! ## A block that decodes

The Reed-Solomon sums over a block of zeros are zero, so the kernel need not work them out. -/

/-- The product of zero. -/
theorem gfMul_zero (x : Nat) : gfMul 0 x = 0 := by
  unfold gfMul
  generalize upto 8 = l
  suffices h : l.foldl (fun (p : Nat × Nat) i =>
      (if bitAt x i then p.1 ^^^ p.2 else p.1, if p.2 ≥ 128 then (p.2 * 2) ^^^ 0x11D else p.2 * 2)) (0, 0) = (0, 0) by rw [h]
  induction l with
  | nil => rfl
  | cons i l ih => simpa using ih

/-- The value of the zero polynomial. -/
theorem gfEval_zeros (n x : Nat) : gfEval (List.replicate n 0) x = 0 := by
  unfold gfEval
  induction n with
  | zero => rfl
  | succ n ih => rw [List.replicate_succ, List.foldl_cons, gfMul_zero]; exact ih

/-- A codeword of zeros decodes to itself. -/
theorem rsDecode_zeros (n : Nat) : rsDecode (List.replicate n 0) = some (List.replicate n 0, []) := by
  have h : (rsSyn (List.replicate n 0)).all (· == 0) = true := by
    simp [rsSyn, gfEval_zeros]
  unfold rsDecode
  simp only [h, if_true]

/-- The codewords of a block of zeros. -/
theorem blockWord_zeros (c : Nat) : blockWord (List.replicate 800 0).toArray c = List.replicate 200 0 := by
  refine List.eq_replicate_iff.2 ⟨by simp [blockWord, upto], fun b hb => ?_⟩
  obtain ⟨j, -, rfl⟩ := List.mem_map.1 hb
  simp only [Array.getD_eq_getD_getElem?, List.getElem?_toArray, List.getElem?_replicate]
  split <;> rfl

/-- A block of zeros decodes to three flits of zeros with nothing corrected. -/
theorem fec_zeros : fecDecode (List.replicate 800 0) = some (List.replicate 768 0, []) := by
  unfold fecDecode
  simp only [blockWord_zeros, rsDecode_zeros]
  decide +kernel

/-- Scrambling twice gives the block back. -/
theorem scramble_twice :
    (scramble 8 Port.reset.rxPrbs (scramble 8 Port.reset.rxPrbs (List.replicate 800 0)).1).1 = List.replicate 800 0 := by decide +kernel

/-- A scrambled block of zeros decodes on a port of eight lanes whose register stands at its reset value. -/
theorem fec_clean {w r : Nat} (hw : w = 8) (hr : r = Port.reset.rxPrbs) :
    fecDecode (scramble w r (scramble 8 Port.reset.rxPrbs (List.replicate 800 0)).1).1 = some (List.replicate 768 0, []) := by
  rw [hw, hr, scramble_twice, fec_zeros]

/-! ## The hypotheses of the obligations -/

/-- O1, clauses 1 to 8. -/
theorem test_hypotheses_index_and_branch_instructions_complete_1 :
    (let b : Nat := 0
     let q : Nat := 0
     let s : State := at0 (slWord 0x01 [])
     (Issues b q .nop s)) ∧
    (let b : Nat := 0
     let q : Nat := 0
     let s : State := at0 (slWord 0x11 [(Sl.PASS_TAG, 5)])
     (Issues b q .swap s)) ∧
    (let b : Nat := 0
     let q : Nat := 0
     let s : State := at0 (slWord 0x40 [(Sl.MOVEI_XD, 4), (Sl.MOVEI_XS, 2), (Sl.MOVEI_IMM, 7)]) (fun x => (x.setIndex 2 5).setIndex 3 0xFFFFFFFE)
     (Issues b q .moveISet s)) ∧
    (let b : Nat := 0
     let q : Nat := 0
     let s : State := at0 (slWord 0x40 [(Sl.MOVEI_XD, 4), (Sl.MOVEI_XS, 2), (Sl.MOVEI_IMM, 0xFFFFFFFF), (⟨46, 2⟩, 1)]) (fun x => (x.setIndex 2 5).setIndex 3 0xFFFFFFFE)
     (Issues b q .moveIAdd s)) ∧
    (let b : Nat := 0
     let q : Nat := 0
     let s : State := at0 (slWord 0x40 [(Sl.MOVEI_XD, 4), (Sl.MOVEI_XS, 2), (Sl.MOVEI_IMM, 33), (⟨46, 2⟩, 2)]) (fun x => (x.setIndex 2 5).setIndex 3 0xFFFFFFFE)
     (Issues b q .moveIShl s)) ∧
    (let b : Nat := 0
     let q : Nat := 0
     let s : State := at0 (slWord 0x40 [(Sl.MOVEI_XD, 4), (Sl.MOVEI_XS, 2), (⟨46, 2⟩, 3)]) (fun x => (x.setIndex 2 5).setIndex 3 0xFFFFFFFE)
     let w := curWord b q s
     let imm := getF Sl.MOVEI_IMM w
     (Issues b q .moveIGet s) ∧ (imm = 0)) ∧
    (let b : Nat := 0
     let q : Nat := 0
     let s : State := at0 (slWord 0x40 [(Sl.MOVEI_XD, 4), (Sl.MOVEI_XS, 2), (Sl.MOVEI_IMM, 1), (⟨46, 2⟩, 3)]) (fun x => (x.setIndex 2 5).setIndex 3 0xFFFFFFFE)
     let w := curWord b q s
     let imm := getF Sl.MOVEI_IMM w
     (Issues b q .moveIGet s) ∧ (imm = 1)) ∧
    (let b : Nat := 0
     let q : Nat := 0
     let s : State := at0 (slWord 0x78 [(Sl.BRANCH_XA, 3), (Sl.BRANCH_XB, 2), (Sl.BRANCH_TARGET, 9)]) (fun x => (x.setIndex 2 5).setIndex 3 0xFFFFFFFE)
     (Issues b q .branchEq s)) := by
  dsimp only [Acts, Issues, Quiet, Working, Takes, Reaches]
  refine ⟨?_, ?_, ?_, ?_, ?_, ?_, ?_, ?_⟩ <;> decide +kernel

/-- O1, clauses 9 to 14. -/
theorem test_hypotheses_index_and_branch_instructions_complete_2 :
    (let b : Nat := 0
     let q : Nat := 0
     let s : State := at0 (slWord 0x79 [(Sl.BRANCH_XA, 3), (Sl.BRANCH_XB, 2), (Sl.BRANCH_TARGET, 9)]) (fun x => (x.setIndex 2 5).setIndex 3 0xFFFFFFFE)
     (Issues b q .branchNe s)) ∧
    (let b : Nat := 0
     let q : Nat := 0
     let s : State := at0 (slWord 0x7a [(Sl.BRANCH_XA, 3), (Sl.BRANCH_XB, 2), (Sl.BRANCH_TARGET, 9)]) (fun x => (x.setIndex 2 5).setIndex 3 0xFFFFFFFE)
     (Issues b q .branchLt s)) ∧
    (let b : Nat := 0
     let q : Nat := 0
     let s : State := at0 (slWord 0x7b [(Sl.BRANCH_XA, 3), (Sl.BRANCH_XB, 2), (Sl.BRANCH_TARGET, 9)]) (fun x => (x.setIndex 2 5).setIndex 3 0xFFFFFFFE)
     (Issues b q .branchGe s)) ∧
    (let b : Nat := 0
     let q : Nat := 0
     let s : State := at0 (slWord 0x7c [(Sl.BRANCH_XA, 3), (Sl.BRANCH_XB, 2), (Sl.BRANCH_TARGET, 9)]) (fun x => (x.setIndex 2 5).setIndex 3 0xFFFFFFFE)
     (Issues b q .branchLtu s)) ∧
    (let b : Nat := 0
     let q : Nat := 0
     let s : State := at0 (slWord 0x7d [(Sl.BRANCH_XA, 3), (Sl.BRANCH_XB, 2), (Sl.BRANCH_TARGET, 9)]) (fun x => (x.setIndex 2 5).setIndex 3 0xFFFFFFFE)
     (Issues b q .branchGeu s)) ∧
    (let b : Nat := 0
     let q : Nat := 0
     let s : State := at0 (slWord 0x7e [(Sl.BRANCH_XA, 3), (Sl.BRANCH_XB, 2), (Sl.BRANCH_TARGET, 9)]) (fun x => (x.setIndex 2 5).setIndex 3 0xFFFFFFFE)
     (Issues b q .branchAl s)) := by
  dsimp only [Acts, Issues, Quiet, Working, Takes, Reaches]
  refine ⟨?_, ?_, ?_, ?_, ?_, ?_⟩ <;> decide +kernel

/-- O2, clauses 1 to 5. -/
theorem test_hypotheses_control_instructions_complete :
    (let b : Nat := 0
     let q : Nat := 0
     let s : State := at0 (slWord 0x70 [(Sl.LOOP_END, 5), (Sl.LOOP_XA, 3), (Sl.LOOP_SA, 0x1FF)])
     let w := curWord b q s
     let sq := seqOf b q s
     let count := if getF Sl.LOOP_CSEL w = 0 then getF Sl.LOOP_COUNT w else sq.index (getF Sl.LOOP_CSEL w)
     let last := getF Sl.LOOP_END w
     (Issues b q .loop s) ∧ (sq.pc < last) ∧ (count = 0)) ∧
    (let b : Nat := 0
     let q : Nat := 0
     let s : State := at0 (slWord 0x70 [(Sl.LOOP_END, 5), (Sl.LOOP_XA, 3), (Sl.LOOP_SA, 0x1FF), (Sl.LOOP_COUNT, 3)])
     let w := curWord b q s
     let sq := seqOf b q s
     let count := if getF Sl.LOOP_CSEL w = 0 then getF Sl.LOOP_COUNT w else sq.index (getF Sl.LOOP_CSEL w)
     let last := getF Sl.LOOP_END w
     (Issues b q .loop s) ∧ (sq.pc < last) ∧ (count ≠ 0) ∧ (sq.loops.length < 4)) ∧
    (let b : Nat := 0
     let q : Nat := 0
     let s : State := at0 (slWord 0xF0 [])
     (Issues b q .halt s)) ∧
    (let b : Nat := 0
     let q : Nat := 0
     let s : State := at0 (slWord 0x60 [(Sl.SYNC_MASK, 0x01)]) id own
     let w := curWord b q s
     let mask := getF Sl.SYNC_MASK w
     (Issues b q .sync s) ∧ (bitAt mask 7 = false)) ∧
    (let b : Nat := 0
     let q : Nat := 0
     let s : State := at0 (slWord 0x60 [(Sl.SYNC_MASK, 0x81)])
     let w := curWord b q s
     let mask := getF Sl.SYNC_MASK w
     (Issues b q .sync s) ∧ (bitAt mask 7 = true)) := by
  dsimp only [Acts, Issues, Quiet, Working, Takes, Reaches]
  refine ⟨?_, ?_, ?_, ?_, ?_⟩ <;> decide +kernel

/-- O3, clauses 1 to 8. -/
theorem test_hypotheses_queued_instructions_complete_1 :
    (let b : Nat := 0
     let q : Nat := 0
     let s : State := at0 (slWord 0x10 [(Sl.PASS_TILE, 380), (Sl.PASS_XT, 1), (Sl.PASS_ACC, 63)]) (fun x => x.setIndex 1 3)
     let w := curWord b q s
     let sq := seqOf b q s
     let sd := sideOf b q s
     let pt := effOp Sl.PASS_TILE Sl.PASS_XT w sq
     let pa := effOp Sl.PASS_ACC Sl.PASS_XA w sq
     let inTiles := fun (x : Nat) => runInTiles b q x 1 s = true
     (Issues b q .pass s) ∧ (sd.rowQ.length < 16) ∧ (inTiles pt) ∧ (pa < accCount b s)) ∧
    (let b : Nat := 0
     let q : Nat := 0
     let s : State := at0 (slWord 0x20 [(Sl.PASS_TILE, 380), (Sl.PASS_XT, 1), (Sl.PASS_ACC, 63)]) (fun x => x.setIndex 1 3)
     let w := curWord b q s
     let sq := seqOf b q s
     let sd := sideOf b q s
     let pt := effOp Sl.PASS_TILE Sl.PASS_XT w sq
     let pa := effOp Sl.PASS_ACC Sl.PASS_XA w sq
     let inTiles := fun (x : Nat) => runInTiles b q x 1 s = true
     (Issues b q .shave s) ∧ (sd.shaveQ.length < 2) ∧ (inTiles pt) ∧ (pa < accCount b s)) ∧
    (let b : Nat := 0
     let q : Nat := 0
     let s : State := at0 (slWord 0x28 [(Sl.SAND_FUNC, 1), (Sl.SAND_SRC, 1), (Sl.SAND_SRC2, 2), (Sl.SAND_DST, 383), (Sl.SAND_DFMT, 2)])
     let w := curWord b q s
     let sq := seqOf b q s
     let sd := sideOf b q s
     let src := effOp Sl.SAND_SRC Sl.SAND_XS w sq
     let src2 := effOp Sl.SAND_SRC2 Sl.SAND_XU w sq
     let dst := effOp Sl.SAND_DST Sl.SAND_XD w sq
     let func := getF Sl.SAND_FUNC w
     let inTiles := fun (x : Nat) => runInTiles b q x 1 s = true
     (Issues b q .sand s) ∧ (sd.sandQ.length < 2) ∧ (sanderDefined func = true) ∧ (inTiles src) ∧ (inTiles dst) ∧ ((1 ≤ func → func ≤ 5 → inTiles src2)) ∧ (fmtDefined (getF Sl.SAND_DFMT w) = true)) ∧
    (let b : Nat := 0
     let q : Nat := 0
     let s : State := at0 (slWord 0x30 [(Sl.TILE, 383), (Sl.LOAD_PART, 1)])
     let w := curWord b q s
     let sq := seqOf b q s
     let sd := sideOf b q s
     let lt := effOp Sl.TILE Sl.XT w sq
     let inTiles := fun (x : Nat) => runInTiles b q x 1 s = true
     (Issues b q .loadStile s) ∧ (sd.loadQ.length < 2) ∧ (inTiles lt)) ∧
    (let b : Nat := 0
     let q : Nat := 0
     let s : State := at0 (slWord 0x31 [(Sl.TILE, 383), (Sl.LOAD_PART, 1)])
     let w := curWord b q s
     let sq := seqOf b q s
     let sd := sideOf b q s
     let lt := effOp Sl.TILE Sl.XT w sq
     let inTiles := fun (x : Nat) => runInTiles b q x 1 s = true
     (Issues b q .loadHold s) ∧ (sd.loadQ.length < 2) ∧ (inTiles lt)) ∧
    (let b : Nat := 0
     let q : Nat := 0
     let s : State := at0 (slWord 0x38 [(Sl.STORE_ACC, 62), (Sl.STORE_NACC, 2), (Sl.STORE_TILE, 5), (Sl.STORE_DFMT, 1)])
     let w := curWord b q s
     let sq := seqOf b q s
     let sd := sideOf b q s
     let st := effOp Sl.STORE_TILE Sl.STORE_XT w sq
     let sa := effOp Sl.STORE_ACC Sl.STORE_XA w sq
     let n := getF Sl.STORE_NACC w
     let inTiles := fun (x : Nat) => runInTiles b q x 1 s = true
     (Issues b q .store s) ∧ (sd.storeQ.length < 2) ∧ (inTiles st) ∧ (1 ≤ n) ∧ (sa + n ≤ accCount b s) ∧ (fmtDefined (getF Sl.STORE_DFMT w) = true) ∧ (n * laneCount b s ≤ fmtCapacity (getF Sl.STORE_DFMT w))) ∧
    (let b : Nat := 0
     let q : Nat := 0
     let s : State := side0 (fun x => { x with rowQ := List.replicate 16 (op0 .pass) }) (at0 (slWord 0x10 [(Sl.PASS_TILE, 380), (Sl.PASS_XT, 1), (Sl.PASS_ACC, 63)]))
     let sd := sideOf b q s
     (Issues b q .pass s) ∧ (16 ≤ sd.rowQ.length)) ∧
    (let b : Nat := 0
     let q : Nat := 0
     let s : State := side0 (fun x => { x with shaveQ := List.replicate 2 (op0 .shave) }) (at0 (slWord 0x20 []))
     let sd := sideOf b q s
     (Issues b q .shave s) ∧ (2 ≤ sd.shaveQ.length)) := by
  dsimp only [Acts, Issues, Quiet, Working, Takes, Reaches]
  refine ⟨?_, ?_, ?_, ?_, ?_, ?_, ?_, ?_⟩ <;> decide +kernel

/-- O3, clauses 9 to 12. -/
theorem test_hypotheses_queued_instructions_complete_2 :
    (let b : Nat := 0
     let q : Nat := 0
     let s : State := side0 (fun x => { x with sandQ := List.replicate 2 (op0 .sand) }) (at0 (slWord 0x28 [(Sl.SAND_FUNC, 1), (Sl.SAND_SRC, 1), (Sl.SAND_SRC2, 2), (Sl.SAND_DST, 383), (Sl.SAND_DFMT, 2)]))
     let sd := sideOf b q s
     (Issues b q .sand s) ∧ (2 ≤ sd.sandQ.length)) ∧
    (let b : Nat := 0
     let q : Nat := 0
     let s : State := side0 (fun x => { x with loadQ := List.replicate 2 (op0 .stile) }) (at0 (slWord 0x30 [(Sl.TILE, 383), (Sl.LOAD_PART, 1)]))
     let sd := sideOf b q s
     (Issues b q .loadStile s) ∧ (2 ≤ sd.loadQ.length)) ∧
    (let b : Nat := 0
     let q : Nat := 0
     let s : State := side0 (fun x => { x with loadQ := List.replicate 2 (op0 .hold) }) (at0 (slWord 0x31 [(Sl.TILE, 383), (Sl.LOAD_PART, 1)]))
     let sd := sideOf b q s
     (Issues b q .loadHold s) ∧ (2 ≤ sd.loadQ.length)) ∧
    (let b : Nat := 0
     let q : Nat := 0
     let s : State := side0 (fun x => { x with storeQ := List.replicate 2 (op0 .store) }) (at0 (slWord 0x38 [(Sl.STORE_ACC, 62), (Sl.STORE_NACC, 2), (Sl.STORE_TILE, 5), (Sl.STORE_DFMT, 1)]))
     let sd := sideOf b q s
     (Issues b q .store s) ∧ (2 ≤ sd.storeQ.length)) := by
  dsimp only [Acts, Issues, Quiet, Working, Takes, Reaches]
  refine ⟨?_, ?_, ?_, ?_⟩ <;> decide +kernel

/-- O4, clauses 1 to 6. -/
theorem test_hypotheses_move_tiles_issue :
    (let b : Nat := 0
     let q : Nat := 0
     let s : State := at0 (slWord 0x41 [(Sl.TILE, 5), (Sl.MOVET_FDESC, 3), (Sl.MOVET_NT, 2)])
     (Issues b q .moveTOut s) ∧ (floorArmed s = false)) ∧
    (let b : Nat := 0
     let q : Nat := 0
     let s : State := at0 (slWord 0x41 [(Sl.TILE, 5), (Sl.MOVET_FDESC, 3), (Sl.MOVET_NT, 2), (⟨42, 1⟩, 1)])
     (Issues b q .moveTIn s) ∧ (floorArmed s = false)) ∧
    (let b : Nat := 0
     let q : Nat := 0
     let s : State := at0 (slWord 0x41 [(Sl.TILE, 5), (Sl.MOVET_FDESC, 3)]) id (armed up)
     let w := curWord b q s
     let sq := seqOf b q s
     let x := effOp Sl.TILE Sl.XT w sq
     let n := effOp Sl.MOVET_NT Sl.MOVET_XN w sq
     let fd := getF Sl.MOVET_FDESC w
     let d := fdescOf b fd s
     let ep := getF Fld.FDESC_ENDPOINT d
     let dov := isDovPort ep = true
     let fits := floorArmed s = true ∧ runInTiles b q x (max n 1) s = true ∧ (¬ dov → getF Fld.FDESC_REMOTE d + n ≤ 384)
     let idleMove := n = 0 ∨ getF Fld.FDESC_SLOTS d = 0
     (Issues b q .moveTOut s) ∧ (fits) ∧ (idleMove)) ∧
    (let b : Nat := 0
     let q : Nat := 0
     let s : State := at0 (slWord 0x41 [(Sl.TILE, 5), (Sl.MOVET_FDESC, 3), (⟨42, 1⟩, 1)]) id (armed up)
     let w := curWord b q s
     let sq := seqOf b q s
     let x := effOp Sl.TILE Sl.XT w sq
     let n := effOp Sl.MOVET_NT Sl.MOVET_XN w sq
     let fd := getF Sl.MOVET_FDESC w
     let d := fdescOf b fd s
     let ep := getF Fld.FDESC_ENDPOINT d
     let dov := isDovPort ep = true
     let fits := floorArmed s = true ∧ runInTiles b q x (max n 1) s = true ∧ (¬ dov → getF Fld.FDESC_REMOTE d + n ≤ 384)
     let idleMove := n = 0 ∨ getF Fld.FDESC_SLOTS d = 0
     (Issues b q .moveTIn s) ∧ (fits) ∧ (¬ dov) ∧ (idleMove)) ∧
    (let b : Nat := 0
     let q : Nat := 0
     let s : State := at0 (slWord 0x41 [(Sl.TILE, 5), (Sl.MOVET_FDESC, 3), (Sl.MOVET_NT, 2)]) id (armed up)
     let w := curWord b q s
     let sq := seqOf b q s
     let x := effOp Sl.TILE Sl.XT w sq
     let n := effOp Sl.MOVET_NT Sl.MOVET_XN w sq
     let fd := getF Sl.MOVET_FDESC w
     let d := fdescOf b fd s
     let ep := getF Fld.FDESC_ENDPOINT d
     let dov := isDovPort ep = true
     let fits := floorArmed s = true ∧ runInTiles b q x (max n 1) s = true ∧ (¬ dov → getF Fld.FDESC_REMOTE d + n ≤ 384)
     let idleMove := n = 0 ∨ getF Fld.FDESC_SLOTS d = 0
     (Issues b q .moveTOut s) ∧ (fits) ∧ (¬ idleMove)) ∧
    (let b : Nat := 0
     let q : Nat := 0
     let s : State := at0 (slWord 0x41 [(Sl.TILE, 5), (Sl.MOVET_FDESC, 3), (Sl.MOVET_NT, 2), (⟨42, 1⟩, 1)]) id (armed up)
     let w := curWord b q s
     let sq := seqOf b q s
     let x := effOp Sl.TILE Sl.XT w sq
     let n := effOp Sl.MOVET_NT Sl.MOVET_XN w sq
     let fd := getF Sl.MOVET_FDESC w
     let d := fdescOf b fd s
     let ep := getF Fld.FDESC_ENDPOINT d
     let dov := isDovPort ep = true
     let fits := floorArmed s = true ∧ runInTiles b q x (max n 1) s = true ∧ (¬ dov → getF Fld.FDESC_REMOTE d + n ≤ 384)
     let idleMove := n = 0 ∨ getF Fld.FDESC_SLOTS d = 0
     (Issues b q .moveTIn s) ∧ (fits) ∧ (¬ dov) ∧ (¬ idleMove)) := by
  dsimp only [Acts, Issues, Quiet, Working, Takes, Reaches]
  refine ⟨?_, ?_, ?_, ?_, ?_, ?_⟩ <;> decide +kernel

/-- O5, clauses 1 to 2. -/
theorem test_hypotheses_messages_issue :
    (let b : Nat := 0
     let q : Nat := 0
     let s : State := at0 (slWord 0x51 [(Sl.TILE, 5), (Sl.SEND_DESC, 3), (Sl.SEND_NT, 4), (Sl.SEND_XN, 2)]) id (desc3 0 own)
     let w := curWord b q s
     let sq := seqOf b q s
     let x := effOp Sl.TILE Sl.XT w sq
     let d := getF Sl.SEND_DESC w
     (Issues b q .recv s) ∧ (runInTiles b q x 1 s = true) ∧ (fabricRefused b q d 0 false s = false)) ∧
    (let b : Nat := 0
     let q : Nat := 0
     let s : State := at0 (slWord 0x50 [(Sl.TILE, 5), (Sl.SEND_DESC, 3), (Sl.SEND_NT, 2)]) id (desc3 0 own)
     let w := curWord b q s
     let sq := seqOf b q s
     let x := effOp Sl.TILE Sl.XT w sq
     let n := effOp Sl.SEND_NT Sl.SEND_XN w sq
     let d := getF Sl.SEND_DESC w
     (Issues b q .send s) ∧ (runInTiles b q x (max n 1) s = true) ∧ (fabricRefused b q d n true s = false)) := by
  dsimp only [Acts, Issues, Quiet, Working, Takes, Reaches]
  refine ⟨?_, ?_⟩ <;> decide +kernel

/-- O6, clauses 1 to 4. -/
theorem test_hypotheses_semaphore_instructions_complete :
    (let b : Nat := 0
     let q : Nat := 0
     let s : State := at0 (slWord 0x58 [(Sl.SEM_SEM, 8), (Sl.SEM_NUM, 2)]) id (sem8 1 0 own)
     let w := curWord b q s
     let n := semNum b q w s
     (Issues b q .semWait s) ∧ (semCause b q w true s = none) ∧ (semLock n s = false)) ∧
    (let b : Nat := 0
     let q : Nat := 0
     let s : State := at0 (slWord 0x58 [(Sl.SEM_SEM, 8), (Sl.SEM_NUM, 1)]) id (sem8 0 1 own)
     let w := curWord b q s
     let n := semNum b q w s
     let c := 1
     (Issues b q .semWait s) ∧ (semCause b q w true s = none) ∧ (semLock n s = true) ∧ (ctxOf b q s = some c)) ∧
    (let b : Nat := 0
     let q : Nat := 0
     let s : State := at0 (slWord 0x59 [(Sl.SEM_SEM, 8), (Sl.SEM_NUM, 2)]) id (sem8 65534 0 own)
     let w := curWord b q s
     let n := semNum b q w s
     let c := 1
     (Issues b q .semSignal s) ∧ (semCause b q w false s = none) ∧ (semLock n s = false) ∧ (ctxOf b q s = some c)) ∧
    (let b : Nat := 0
     let q : Nat := 0
     let s : State := at0 (slWord 0x59 [(Sl.SEM_SEM, 8), (Sl.SEM_NUM, 1)]) id (held8 (sem8 0 1 own))
     let w := curWord b q s
     let n := semNum b q w s
     (Issues b q .semSignal s) ∧ (semCause b q w false s = none) ∧ (semLock n s = true)) := by
  dsimp only [Acts, Issues, Quiet, Working, Takes, Reaches]
  refine ⟨?_, ?_, ?_, ?_⟩ <;> decide +kernel

/-- O7, clauses 1 to 4. -/
theorem test_hypotheses_traps_stop_the_sequencer :
    (let b : Nat := 0
     let q : Nat := 0
     let s : State := at0 (slWord 0xF1 [(Sl.TRAP_CODE, 0xBEEF)]) id own
     (Issues b q .trap s)) ∧
    (let b : Nat := 0
     let q : Nat := 0
     let s : State := at0 (slWord 0xF1 [(Sl.TRAP_CODE, 0xBEEF)]) id own
     (Issues b q .trap s)) ∧
    (let b : Nat := 0
     let q : Nat := 0
     let s : State := seq0 (fun x => { x with pc := 8192 }) (at0 0 id own)
     let sq := seqOf b q s
     (Acts b q s) ∧ (canIssue b q s = true) ∧ (8192 ≤ sq.pc)) ∧
    (let b : Nat := 0
     let q : Nat := 0
     let s : State := seq0 (fun x => { x with pc := 8192 }) (at0 0 id own)
     let sq := seqOf b q s
     (Acts b q s) ∧ (canIssue b q s = true) ∧ (8192 ≤ sq.pc)) := by
  dsimp only [Acts, Issues, Quiet, Working, Takes, Reaches]
  refine ⟨?_, ?_, ?_, ?_⟩ <;> decide +kernel

/-- O8, clauses 1 to 8. -/
theorem test_hypotheses_tile_outside_the_half_faults_1 :
    (let b : Nat := 0
     let q : Nat := 0
     let s : State := at0 (slWord 0x10 [(Sl.PASS_TILE, 384)])
     let w := curWord b q s
     let sq := seqOf b q s
     let sd := sideOf b q s
     let outside := fun (x : Nat) => runInTiles b q x 1 s = false
     (Issues b q .pass s) ∧ (sd.rowQ.length < 16) ∧ (outside (effOp Sl.PASS_TILE Sl.PASS_XT w sq))) ∧
    (let b : Nat := 0
     let q : Nat := 0
     let s : State := at0 (slWord 0x20 [(Sl.PASS_TILE, 384)])
     let w := curWord b q s
     let sq := seqOf b q s
     let sd := sideOf b q s
     let outside := fun (x : Nat) => runInTiles b q x 1 s = false
     (Issues b q .shave s) ∧ (sd.shaveQ.length < 2) ∧ (outside (effOp Sl.PASS_TILE Sl.PASS_XT w sq))) ∧
    (let b : Nat := 0
     let q : Nat := 0
     let s : State := at0 (slWord 0x28 [(Sl.SAND_SRC, 384)])
     let w := curWord b q s
     let sq := seqOf b q s
     let sd := sideOf b q s
     let outside := fun (x : Nat) => runInTiles b q x 1 s = false
     let func := getF Sl.SAND_FUNC w
     (Issues b q .sand s) ∧ (sd.sandQ.length < 2) ∧ (sanderDefined func = true) ∧ (outside (effOp Sl.SAND_SRC Sl.SAND_XS w sq) ∨ outside (effOp Sl.SAND_DST Sl.SAND_XD w sq) ∨ (1 ≤ func ∧ func ≤ 5 ∧ outside (effOp Sl.SAND_SRC2 Sl.SAND_XU w sq)))) ∧
    (let b : Nat := 0
     let q : Nat := 0
     let s : State := at0 (slWord 0x30 [(Sl.TILE, 384)])
     let w := curWord b q s
     let sq := seqOf b q s
     let sd := sideOf b q s
     let outside := fun (x : Nat) => runInTiles b q x 1 s = false
     (Issues b q .loadStile s) ∧ (sd.loadQ.length < 2) ∧ (outside (effOp Sl.TILE Sl.XT w sq))) ∧
    (let b : Nat := 0
     let q : Nat := 0
     let s : State := at0 (slWord 0x31 [(Sl.TILE, 384)])
     let w := curWord b q s
     let sq := seqOf b q s
     let sd := sideOf b q s
     let outside := fun (x : Nat) => runInTiles b q x 1 s = false
     (Issues b q .loadHold s) ∧ (sd.loadQ.length < 2) ∧ (outside (effOp Sl.TILE Sl.XT w sq))) ∧
    (let b : Nat := 0
     let q : Nat := 0
     let s : State := at0 (slWord 0x38 [(Sl.STORE_TILE, 384)])
     let w := curWord b q s
     let sq := seqOf b q s
     let sd := sideOf b q s
     let outside := fun (x : Nat) => runInTiles b q x 1 s = false
     (Issues b q .store s) ∧ (sd.storeQ.length < 2) ∧ (outside (effOp Sl.STORE_TILE Sl.STORE_XT w sq))) ∧
    (let b : Nat := 0
     let q : Nat := 0
     let s : State := at0 (slWord 0x41 [(Sl.TILE, 384)]) id (armed up)
     let w := curWord b q s
     let sq := seqOf b q s
     let outside := fun (x : Nat) => runInTiles b q x 1 s = false
     (Issues b q .moveTOut s) ∧ (floorArmed s = true) ∧ (outside (effOp Sl.TILE Sl.XT w sq))) ∧
    (let b : Nat := 0
     let q : Nat := 0
     let s : State := at0 (slWord 0x41 [(Sl.TILE, 384), (⟨42, 1⟩, 1)]) id (armed up)
     let w := curWord b q s
     let sq := seqOf b q s
     let outside := fun (x : Nat) => runInTiles b q x 1 s = false
     (Issues b q .moveTIn s) ∧ (floorArmed s = true) ∧ (outside (effOp Sl.TILE Sl.XT w sq))) := by
  dsimp only [Acts, Issues, Quiet, Working, Takes, Reaches]
  refine ⟨?_, ?_, ?_, ?_, ?_, ?_, ?_, ?_⟩ <;> decide +kernel

/-- O8, clauses 9 to 10. -/
theorem test_hypotheses_tile_outside_the_half_faults_2 :
    (let b : Nat := 0
     let q : Nat := 0
     let s : State := at0 (slWord 0x50 [(Sl.TILE, 384)])
     let w := curWord b q s
     let sq := seqOf b q s
     let outside := fun (x : Nat) => runInTiles b q x 1 s = false
     (Issues b q .send s) ∧ (outside (effOp Sl.TILE Sl.XT w sq))) ∧
    (let b : Nat := 0
     let q : Nat := 0
     let s : State := at0 (slWord 0x51 [(Sl.TILE, 384)])
     let w := curWord b q s
     let sq := seqOf b q s
     let outside := fun (x : Nat) => runInTiles b q x 1 s = false
     (Issues b q .recv s) ∧ (outside (effOp Sl.TILE Sl.XT w sq))) := by
  dsimp only [Acts, Issues, Quiet, Working, Takes, Reaches]
  refine ⟨?_, ?_⟩ <;> decide +kernel

/-- O9, clauses 1 to 6. -/
theorem test_hypotheses_sequencer_starts_and_waits_complete :
    (let b : Nat := 0
     let q : Nat := 0
     let pc : Nat := 7
     let c : Nat := 32
     let s : State := setBench 0 { Bench.reset with seq0 := { Seq.reset with st := .done, startReq := some (7, 32), idx := [(1, 5)] } } { up with cycle := 40 }
     (Acts b q s) ∧ ((seqOf b q s).startReq = some (pc, c)) ∧ ((sideOf b q s).quiet = true) ∧ (inReset b s = false) ∧ (glueHeld b q s = false)) ∧
    (let b : Nat := 0
     let q : Nat := 0
     let s : State := waits (.sync 0x41 0 false) { up with cycle := 17 }
     let mask := 0x41
     let po := 0
     let marked := false
     (Acts b q s) ∧ ((seqOf b q s).blocked = .sync mask po marked) ∧ (syncDone b q mask marked s = true) ∧ (((bitAt mask 6 || bitAt mask 7) && glueHeld b q s) = false)) ∧
    (let b : Nat := 0
     let q : Nat := 0
     let s : State := waits (.semWait 8 2 3) (sem8 2 0 own)
     let n := 8
     let num := 2
     let since := 3
     let c := 1
     (Acts b q s) ∧ ((seqOf b q s).blocked = .semWait n num since) ∧ (num ≤ semValue n s) ∧ (earlierWaiter b q n s = false) ∧ (glueHeld b q s = false) ∧ (ctxOf b q s = some c) ∧ (c < 16)) ∧
    (let b : Nat := 0
     let q : Nat := 0
     let r : RecvOp := recv3 false 0
     let s : State := waits (.recv (recv3 false 0)) { desc3 0 own with xport := { Xport.empty with msgs := [msg3], rx := [⟨0, 1, 2, [], 0, 0⟩] } }
     let m := msg3
     (Acts b q s) ∧ ((seqOf b q s).blocked = .recv r) ∧ (r.taken = false) ∧ (xdKind r.desc s ≠ 1) ∧ (msgToTake r s = some m) ∧ (m.nchunk ≤ r.maxt) ∧ (runInTiles b q r.tile (max m.nchunk 1) s = true) ∧ (r.xr ≠ 0)) ∧
    (let b : Nat := 0
     let q : Nat := 0
     let r : RecvOp := recv3 true 2
     let s : State := waits (.recv (recv3 true 2)) { desc3 0 own with cycle := 33, xport := { Xport.empty with msgs := [{ msg3 with taker := some (0, 0) }] } }
     (Acts b q s) ∧ ((seqOf b q s).blocked = .recv r) ∧ (xdKind r.desc s ≠ 1) ∧ (recvWhole r = true) ∧ (glueHeld b q s = false)) ∧
    (let b : Nat := 0
     let q : Nat := 0
     let r : RecvOp := recv3 false 0
     let s : State := waits (.recv (recv3 false 0)) { desc3 1 own with dov := { Dov.empty with xs := [dx3 (some 0)] } }
     let x := dx3 (some 0)
     let e := dent (some 0)
     (Acts b q s) ∧ ((seqOf b q s).blocked = .recv r) ∧ (xdKind r.desc s = 1) ∧ (entNow (xdLocal r.desc s) s = some (x, e)) ∧ (x.final = true) ∧ (e.left = some 0) ∧ (glueHeld b q s = false) ∧ (e.rows.length ≤ r.maxt)) := by
  dsimp only [Acts, Issues, Quiet, Working, Takes, Reaches]
  refine ⟨?_, ?_, ?_, ?_, ?_, ?_⟩ <;> decide +kernel

/-- O10, clause 1. -/
theorem test_hypotheses_passes_run_1 :
    (let b : Nat := 0
     let h : Nat := 0
     let e : Ecc := noEcc
     let op : UOp := opAt .pass (slWord 0x10 [(Sl.PASS_TAG, 5)]) 3 0 0
     let rest : List UOp := []
     let s : State := side0 (fun x => { x with rowQ := [opAt .pass (slWord 0x10 [(Sl.PASS_TAG, 5)]) 3 0 0] }) (tile5 2 (at0 0))
     let fmt := fmtOf b op.tile s
     let stile := activeStile b h (if (flipOf b h op s).isSome then flipBanks b h s else s)
     let depth := if stile.any (·.width == 4) then 16 else 8
     (Acts b h s) ∧ (passReady b h s = true) ∧ ((sideOf b h s).rowQ = op :: rest) ∧ (rowHeld b h s = []) ∧ (e.bad.contains op.tile = false) ∧ (checkOk b op.tile s = true) ∧ (fmtDefined fmt = true) ∧ (isCb fmt = false) ∧ (op.num + depth / 8 ≤ elemsIn b op.tile s / 8)) := by
  dsimp only [Acts, Issues, Quiet, Working, Takes, Reaches]
  decide +kernel

/-- O10, clause 2. -/
theorem test_hypotheses_passes_run_2 :
    (let b : Nat := 0
     let h : Nat := 0
     let f : Flight := ⟨opAt .pass 0 3 0 0, 9, [.fin false 1 0], [⟨16, [.fin false 3 0]⟩], none, 0⟩
     let rest : List Flight := []
     let s : State := side0 (fun x => { x with flights := [⟨opAt .pass 0 3 0 0, 9, [.fin false 1 0], [⟨16, [.fin false 3 0]⟩], none, 0⟩] }) (at0 0)
     (Acts b h s) ∧ ((sideOf b h s).flights = f :: rest) ∧ (f.held = none)) := by
  dsimp only [Acts, Issues, Quiet, Working, Takes, Reaches]
  decide +kernel

/-- O11, clause 1. -/
theorem test_hypotheses_shaves_and_loads_run_1 :
    (let b : Nat := 0
     let h : Nat := 0
     let s : State := side0 (fun x => { x with shaveQ := [opAt .shave 0 3 0 0] }) (tile5 4 (at0 0))
     let e : Ecc := noEcc
     let op : UOp := opAt .shave 0 3 0 0
     let rest : List UOp := []
     let fmt := fmtOf b op.tile s
     let n := elemsIn b op.tile s
     let lanes := laneCount b s
     (Acts b h s) ∧ (shaveReady b h s = true) ∧ ((sideOf b h s).shaveQ = op :: rest) ∧ (e.bad.contains op.tile = false) ∧ (checkOk b op.tile s = true) ∧ (fmtDefined fmt = true) ∧ (isCb fmt = false) ∧ (op.num + (n - 1) / lanes < heldCap b (heldWidthOf b h s) s)) := by
  dsimp only [Acts, Issues, Quiet, Working, Takes, Reaches]
  decide +kernel

/-- O11, clause 2. -/
theorem test_hypotheses_shaves_and_loads_run_2 :
    (let b : Nat := 0
     let h : Nat := 0
     let s : State := side0 (fun x => { x with shaveRuns := [⟨opAt .shave 0 3 1 0, 2, 9, 1, [], [], [], 0, 0⟩] }) (at0 0 id own)
     let r : Run := ⟨opAt .shave 0 3 1 0, 2, 9, 1, [], [], [], 0, 0⟩
     let rest : List Run := []
     (Acts b h s) ∧ ((sideOf b h s).shaveRuns = r :: rest)) := by
  dsimp only [Acts, Issues, Quiet, Working, Takes, Reaches]
  decide +kernel

/-- O11, clause 3. -/
theorem test_hypotheses_shaves_and_loads_run_3 :
    (let b : Nat := 0
     let h : Nat := 0
     let s : State := side0 (fun x => { x with loadQ := [opAt .stile 0 0 1 0] }) (tile5 4 (at0 0))
     let e : Ecc := noEcc
     let op : UOp := opAt .stile 0 0 1 0
     let rest : List UOp := []
     let v : List FVal := valsOf (readRun 0 0 1 convStile 4 (elemsIn 0 5 (side0 (fun x => { x with loadQ := [opAt .stile 0 0 1 0] }) (tile5 4 (at0 0)))) noEcc (loadTiles 0 (opAt .stile 0 0 1 0) (side0 (fun x => { x with loadQ := [opAt .stile 0 0 1 0] }) (tile5 4 (at0 0)))) (eccCount 0 noEcc (serve 0 0 uLoad (advanceTo (freeAt 0 0 (·.loadFree) (side0 (fun x => { x with loadQ := [opAt .stile 0 0 1 0] }) (tile5 4 (at0 0)))) (side0 (fun x => { x with loadQ := [opAt .stile 0 0 1 0] }) (tile5 4 (at0 0)))))))
     let x : Nat := extraOf (readRun 0 0 1 convStile 4 (elemsIn 0 5 (side0 (fun x => { x with loadQ := [opAt .stile 0 0 1 0] }) (tile5 4 (at0 0)))) noEcc (loadTiles 0 (opAt .stile 0 0 1 0) (side0 (fun x => { x with loadQ := [opAt .stile 0 0 1 0] }) (tile5 4 (at0 0)))) (eccCount 0 noEcc (serve 0 0 uLoad (advanceTo (freeAt 0 0 (·.loadFree) (side0 (fun x => { x with loadQ := [opAt .stile 0 0 1 0] }) (tile5 4 (at0 0)))) (side0 (fun x => { x with loadQ := [opAt .stile 0 0 1 0] }) (tile5 4 (at0 0)))))))
     let w : State := (readRun 0 0 1 convStile 4 (elemsIn 0 5 (side0 (fun x => { x with loadQ := [opAt .stile 0 0 1 0] }) (tile5 4 (at0 0)))) noEcc (loadTiles 0 (opAt .stile 0 0 1 0) (side0 (fun x => { x with loadQ := [opAt .stile 0 0 1 0] }) (tile5 4 (at0 0)))) (eccCount 0 noEcc (serve 0 0 uLoad (advanceTo (freeAt 0 0 (·.loadFree) (side0 (fun x => { x with loadQ := [opAt .stile 0 0 1 0] }) (tile5 4 (at0 0)))) (side0 (fun x => { x with loadQ := [opAt .stile 0 0 1 0] }) (tile5 4 (at0 0))))))).2
     let u := eccCount b e (serve b h uLoad (advanceTo (freeAt b h (·.loadFree) s) s))
     let stile := op.kind == .stile
     let fmt := fmtOf b op.tile u
     let width := if stile then rowWidth fmt else heldWidth fmt
     let per := elemsIn b op.tile u
     (Acts b h s) ∧ (loadReady b h s = true) ∧ ((sideOf b h s).loadQ = op :: rest) ∧ (fmtDefined fmt = true) ∧ ((stile && shared b s && width == 32) = false) ∧ (per ≠ 0) ∧ ((∀ k ∈ loadTiles b op u, runInTiles b h k 1 s = true)) ∧ (readRun b h (if stile then 1 else 2) (if stile then convStile else convHeld) fmt per e (loadTiles b op u) u = (.vals v x, w))) := by
  dsimp only [Acts, Issues, Quiet, Working, Takes, Reaches]
  decide +kernel

/-- O11, clause 4. -/
theorem test_hypotheses_shaves_and_loads_run_4 :
    (let b : Nat := 0
     let h : Nat := 0
     let s : State := side0 (fun x => { x with loadRun := some ⟨opAt .stile 0 3 1 0, 2, 9, 8, [], [], [], 0, 0⟩ }) (at0 0)
     let r : Run := ⟨opAt .stile 0 3 1 0, 2, 9, 8, [], [], [], 0, 0⟩
     (Acts b h s) ∧ ((sideOf b h s).loadRun = some r)) := by
  dsimp only [Acts, Issues, Quiet, Working, Takes, Reaches]
  decide +kernel

/-- O12, clause 1. -/
theorem test_hypotheses_sands_and_stores_run_1 :
    (let b : Nat := 0
     let h : Nat := 0
     let s : State := side0 (fun x => { x with sandQ := [opAt .sand (slWord 0x28 [(Sl.SAND_FUNC, 0), (Sl.SAND_DFMT, 2)]) 7 1 5] }) (tile5 1 (at0 0))
     let e : Ecc := noEcc
     let op : UOp := opAt .sand (slWord 0x28 [(Sl.SAND_FUNC, 0), (Sl.SAND_DFMT, 2)]) 7 1 5
     let rest : List UOp := []
     let v : List FVal := valsOf (readTile 0 0 4 convSand 5 noEcc (eccCount 0 noEcc (serve 0 0 uSand (advanceTo (freeAt 0 0 (·.sandFree) (side0 (fun x => { x with sandQ := [opAt .sand (slWord 0x28 [(Sl.SAND_FUNC, 0), (Sl.SAND_DFMT, 2)]) 7 1 5] }) (tile5 1 (at0 0)))) (side0 (fun x => { x with sandQ := [opAt .sand (slWord 0x28 [(Sl.SAND_FUNC, 0), (Sl.SAND_DFMT, 2)]) 7 1 5] }) (tile5 1 (at0 0)))))))
     let v2 : List FVal := valsOf (readRun 0 0 4 convSand (fmtOf 0 5 (readTile 0 0 4 convSand 5 noEcc (eccCount 0 noEcc (serve 0 0 uSand (advanceTo (freeAt 0 0 (·.sandFree) (side0 (fun x => { x with sandQ := [opAt .sand (slWord 0x28 [(Sl.SAND_FUNC, 0), (Sl.SAND_DFMT, 2)]) 7 1 5] }) (tile5 1 (at0 0)))) (side0 (fun x => { x with sandQ := [opAt .sand (slWord 0x28 [(Sl.SAND_FUNC, 0), (Sl.SAND_DFMT, 2)]) 7 1 5] }) (tile5 1 (at0 0))))))).2) (elemsIn 0 5 (readTile 0 0 4 convSand 5 noEcc (eccCount 0 noEcc (serve 0 0 uSand (advanceTo (freeAt 0 0 (·.sandFree) (side0 (fun x => { x with sandQ := [opAt .sand (slWord 0x28 [(Sl.SAND_FUNC, 0), (Sl.SAND_DFMT, 2)]) 7 1 5] }) (tile5 1 (at0 0)))) (side0 (fun x => { x with sandQ := [opAt .sand (slWord 0x28 [(Sl.SAND_FUNC, 0), (Sl.SAND_DFMT, 2)]) 7 1 5] }) (tile5 1 (at0 0))))))).2) noEcc (src2Tiles 0 (opAt .sand (slWord 0x28 [(Sl.SAND_FUNC, 0), (Sl.SAND_DFMT, 2)]) 7 1 5) (readTile 0 0 4 convSand 5 noEcc (eccCount 0 noEcc (serve 0 0 uSand (advanceTo (freeAt 0 0 (·.sandFree) (side0 (fun x => { x with sandQ := [opAt .sand (slWord 0x28 [(Sl.SAND_FUNC, 0), (Sl.SAND_DFMT, 2)]) 7 1 5] }) (tile5 1 (at0 0)))) (side0 (fun x => { x with sandQ := [opAt .sand (slWord 0x28 [(Sl.SAND_FUNC, 0), (Sl.SAND_DFMT, 2)]) 7 1 5] }) (tile5 1 (at0 0))))))).2) (readTile 0 0 4 convSand 5 noEcc (eccCount 0 noEcc (serve 0 0 uSand (advanceTo (freeAt 0 0 (·.sandFree) (side0 (fun x => { x with sandQ := [opAt .sand (slWord 0x28 [(Sl.SAND_FUNC, 0), (Sl.SAND_DFMT, 2)]) 7 1 5] }) (tile5 1 (at0 0)))) (side0 (fun x => { x with sandQ := [opAt .sand (slWord 0x28 [(Sl.SAND_FUNC, 0), (Sl.SAND_DFMT, 2)]) 7 1 5] }) (tile5 1 (at0 0))))))).2)
     let bk : List FVal := []
     let x : Nat := extraOf (readTile 0 0 4 convSand 5 noEcc (eccCount 0 noEcc (serve 0 0 uSand (advanceTo (freeAt 0 0 (·.sandFree) (side0 (fun x => { x with sandQ := [opAt .sand (slWord 0x28 [(Sl.SAND_FUNC, 0), (Sl.SAND_DFMT, 2)]) 7 1 5] }) (tile5 1 (at0 0)))) (side0 (fun x => { x with sandQ := [opAt .sand (slWord 0x28 [(Sl.SAND_FUNC, 0), (Sl.SAND_DFMT, 2)]) 7 1 5] }) (tile5 1 (at0 0)))))))
     let y : Nat := extraOf (readRun 0 0 4 convSand (fmtOf 0 5 (readTile 0 0 4 convSand 5 noEcc (eccCount 0 noEcc (serve 0 0 uSand (advanceTo (freeAt 0 0 (·.sandFree) (side0 (fun x => { x with sandQ := [opAt .sand (slWord 0x28 [(Sl.SAND_FUNC, 0), (Sl.SAND_DFMT, 2)]) 7 1 5] }) (tile5 1 (at0 0)))) (side0 (fun x => { x with sandQ := [opAt .sand (slWord 0x28 [(Sl.SAND_FUNC, 0), (Sl.SAND_DFMT, 2)]) 7 1 5] }) (tile5 1 (at0 0))))))).2) (elemsIn 0 5 (readTile 0 0 4 convSand 5 noEcc (eccCount 0 noEcc (serve 0 0 uSand (advanceTo (freeAt 0 0 (·.sandFree) (side0 (fun x => { x with sandQ := [opAt .sand (slWord 0x28 [(Sl.SAND_FUNC, 0), (Sl.SAND_DFMT, 2)]) 7 1 5] }) (tile5 1 (at0 0)))) (side0 (fun x => { x with sandQ := [opAt .sand (slWord 0x28 [(Sl.SAND_FUNC, 0), (Sl.SAND_DFMT, 2)]) 7 1 5] }) (tile5 1 (at0 0))))))).2) noEcc (src2Tiles 0 (opAt .sand (slWord 0x28 [(Sl.SAND_FUNC, 0), (Sl.SAND_DFMT, 2)]) 7 1 5) (readTile 0 0 4 convSand 5 noEcc (eccCount 0 noEcc (serve 0 0 uSand (advanceTo (freeAt 0 0 (·.sandFree) (side0 (fun x => { x with sandQ := [opAt .sand (slWord 0x28 [(Sl.SAND_FUNC, 0), (Sl.SAND_DFMT, 2)]) 7 1 5] }) (tile5 1 (at0 0)))) (side0 (fun x => { x with sandQ := [opAt .sand (slWord 0x28 [(Sl.SAND_FUNC, 0), (Sl.SAND_DFMT, 2)]) 7 1 5] }) (tile5 1 (at0 0))))))).2) (readTile 0 0 4 convSand 5 noEcc (eccCount 0 noEcc (serve 0 0 uSand (advanceTo (freeAt 0 0 (·.sandFree) (side0 (fun x => { x with sandQ := [opAt .sand (slWord 0x28 [(Sl.SAND_FUNC, 0), (Sl.SAND_DFMT, 2)]) 7 1 5] }) (tile5 1 (at0 0)))) (side0 (fun x => { x with sandQ := [opAt .sand (slWord 0x28 [(Sl.SAND_FUNC, 0), (Sl.SAND_DFMT, 2)]) 7 1 5] }) (tile5 1 (at0 0))))))).2)
     let z : Nat := 0
     let s2 : State := (readTile 0 0 4 convSand 5 noEcc (eccCount 0 noEcc (serve 0 0 uSand (advanceTo (freeAt 0 0 (·.sandFree) (side0 (fun x => { x with sandQ := [opAt .sand (slWord 0x28 [(Sl.SAND_FUNC, 0), (Sl.SAND_DFMT, 2)]) 7 1 5] }) (tile5 1 (at0 0)))) (side0 (fun x => { x with sandQ := [opAt .sand (slWord 0x28 [(Sl.SAND_FUNC, 0), (Sl.SAND_DFMT, 2)]) 7 1 5] }) (tile5 1 (at0 0))))))).2
     let s3 : State := (readRun 0 0 4 convSand (fmtOf 0 5 (readTile 0 0 4 convSand 5 noEcc (eccCount 0 noEcc (serve 0 0 uSand (advanceTo (freeAt 0 0 (·.sandFree) (side0 (fun x => { x with sandQ := [opAt .sand (slWord 0x28 [(Sl.SAND_FUNC, 0), (Sl.SAND_DFMT, 2)]) 7 1 5] }) (tile5 1 (at0 0)))) (side0 (fun x => { x with sandQ := [opAt .sand (slWord 0x28 [(Sl.SAND_FUNC, 0), (Sl.SAND_DFMT, 2)]) 7 1 5] }) (tile5 1 (at0 0))))))).2) (elemsIn 0 5 (readTile 0 0 4 convSand 5 noEcc (eccCount 0 noEcc (serve 0 0 uSand (advanceTo (freeAt 0 0 (·.sandFree) (side0 (fun x => { x with sandQ := [opAt .sand (slWord 0x28 [(Sl.SAND_FUNC, 0), (Sl.SAND_DFMT, 2)]) 7 1 5] }) (tile5 1 (at0 0)))) (side0 (fun x => { x with sandQ := [opAt .sand (slWord 0x28 [(Sl.SAND_FUNC, 0), (Sl.SAND_DFMT, 2)]) 7 1 5] }) (tile5 1 (at0 0))))))).2) noEcc (src2Tiles 0 (opAt .sand (slWord 0x28 [(Sl.SAND_FUNC, 0), (Sl.SAND_DFMT, 2)]) 7 1 5) (readTile 0 0 4 convSand 5 noEcc (eccCount 0 noEcc (serve 0 0 uSand (advanceTo (freeAt 0 0 (·.sandFree) (side0 (fun x => { x with sandQ := [opAt .sand (slWord 0x28 [(Sl.SAND_FUNC, 0), (Sl.SAND_DFMT, 2)]) 7 1 5] }) (tile5 1 (at0 0)))) (side0 (fun x => { x with sandQ := [opAt .sand (slWord 0x28 [(Sl.SAND_FUNC, 0), (Sl.SAND_DFMT, 2)]) 7 1 5] }) (tile5 1 (at0 0))))))).2) (readTile 0 0 4 convSand 5 noEcc (eccCount 0 noEcc (serve 0 0 uSand (advanceTo (freeAt 0 0 (·.sandFree) (side0 (fun x => { x with sandQ := [opAt .sand (slWord 0x28 [(Sl.SAND_FUNC, 0), (Sl.SAND_DFMT, 2)]) 7 1 5] }) (tile5 1 (at0 0)))) (side0 (fun x => { x with sandQ := [opAt .sand (slWord 0x28 [(Sl.SAND_FUNC, 0), (Sl.SAND_DFMT, 2)]) 7 1 5] }) (tile5 1 (at0 0))))))).2).2
     let s4 : State := (readRun 0 0 4 convSand (fmtOf 0 5 (readTile 0 0 4 convSand 5 noEcc (eccCount 0 noEcc (serve 0 0 uSand (advanceTo (freeAt 0 0 (·.sandFree) (side0 (fun x => { x with sandQ := [opAt .sand (slWord 0x28 [(Sl.SAND_FUNC, 0), (Sl.SAND_DFMT, 2)]) 7 1 5] }) (tile5 1 (at0 0)))) (side0 (fun x => { x with sandQ := [opAt .sand (slWord 0x28 [(Sl.SAND_FUNC, 0), (Sl.SAND_DFMT, 2)]) 7 1 5] }) (tile5 1 (at0 0))))))).2) (elemsIn 0 5 (readTile 0 0 4 convSand 5 noEcc (eccCount 0 noEcc (serve 0 0 uSand (advanceTo (freeAt 0 0 (·.sandFree) (side0 (fun x => { x with sandQ := [opAt .sand (slWord 0x28 [(Sl.SAND_FUNC, 0), (Sl.SAND_DFMT, 2)]) 7 1 5] }) (tile5 1 (at0 0)))) (side0 (fun x => { x with sandQ := [opAt .sand (slWord 0x28 [(Sl.SAND_FUNC, 0), (Sl.SAND_DFMT, 2)]) 7 1 5] }) (tile5 1 (at0 0))))))).2) noEcc (src2Tiles 0 (opAt .sand (slWord 0x28 [(Sl.SAND_FUNC, 0), (Sl.SAND_DFMT, 2)]) 7 1 5) (readTile 0 0 4 convSand 5 noEcc (eccCount 0 noEcc (serve 0 0 uSand (advanceTo (freeAt 0 0 (·.sandFree) (side0 (fun x => { x with sandQ := [opAt .sand (slWord 0x28 [(Sl.SAND_FUNC, 0), (Sl.SAND_DFMT, 2)]) 7 1 5] }) (tile5 1 (at0 0)))) (side0 (fun x => { x with sandQ := [opAt .sand (slWord 0x28 [(Sl.SAND_FUNC, 0), (Sl.SAND_DFMT, 2)]) 7 1 5] }) (tile5 1 (at0 0))))))).2) (readTile 0 0 4 convSand 5 noEcc (eccCount 0 noEcc (serve 0 0 uSand (advanceTo (freeAt 0 0 (·.sandFree) (side0 (fun x => { x with sandQ := [opAt .sand (slWord 0x28 [(Sl.SAND_FUNC, 0), (Sl.SAND_DFMT, 2)]) 7 1 5] }) (tile5 1 (at0 0)))) (side0 (fun x => { x with sandQ := [opAt .sand (slWord 0x28 [(Sl.SAND_FUNC, 0), (Sl.SAND_DFMT, 2)]) 7 1 5] }) (tile5 1 (at0 0))))))).2).2
     let book : CbRes := .none
     let u := eccCount b e (serve b h uSand (advanceTo (freeAt b h (·.sandFree) s) s))
     let n := elemsIn b op.tile u
     (Acts b h s) ∧ (sandReady b h s = true) ∧ ((sideOf b h s).sandQ = op :: rest) ∧ (readTile b h 4 convSand op.tile e u = (.vals v x, s2)) ∧ (n ≤ fmtCapacity (sandDfmt op)) ∧ ((sandBinary op = true → fmtDefined (fmtOf b op.aux s2) = true ∧ elemsIn b op.aux s2 ≠ 0 ∧ ∀ k ∈ src2Tiles b op s2, runInTiles b h k 1 s2 = true)) ∧ (readRun b h 4 convSand (fmtOf b op.aux s2) (elemsIn b op.aux s2) e (src2Tiles b op s2) s2 = (.vals v2 y, s3)) ∧ (bookForEncode b h 6 op.dst (sandDfmt op) e s3 = (book, s4)) ∧ ((book = .none ∧ bk = [] ∧ z = 0) ∨ book = .book bk z)) := by
  dsimp only [Acts, Issues, Quiet, Working, Takes, Reaches]
  decide +kernel

/-- O12, clause 2. -/
theorem test_hypotheses_sands_and_stores_run_2 :
    (let b : Nat := 0
     let h : Nat := 0
     let s : State := side0 (fun x => { x with sandRuns := [⟨opAt .sand (slWord 0x28 [(Sl.SAND_FUNC, 1), (Sl.SAND_DFMT, 2)]) 7 1 0, 2, 9, 1, [.fin false 3 0], [.fin false 5 0], [], 0, 0⟩] }) (at0 0)
     let r : Run := ⟨opAt .sand (slWord 0x28 [(Sl.SAND_FUNC, 1), (Sl.SAND_DFMT, 2)]) 7 1 0, 2, 9, 1, [.fin false 3 0], [.fin false 5 0], [], 0, 0⟩
     let rest : List Run := []
     let res := sandResults r
     let code := Config.freeCode s.fresh % 255
     let d := sandDfmt r.op
     let enc := encodeTile d (if d = fmtCB16 then code % 16 else code) r.book (res.map (·.1))
     let own := orAll (res.map (·.2))
     (Acts b h s) ∧ ((sideOf b h s).sandRuns = r :: rest) ∧ (writeHeld b h r.op s = false) ∧ (trapMask b s &&& (own ||| enc.flags) = 0)) := by
  dsimp only [Acts, Issues, Quiet, Working, Takes, Reaches]
  decide +kernel

/-- O12, clause 3. -/
theorem test_hypotheses_sands_and_stores_run_3 :
    (let b : Nat := 0
     let h : Nat := 0
     let s : State := side0 (fun x => { x with storeQ := [opAt .store (slWord 0x38 [(Sl.STORE_DFMT, 2)]) 7 2 0] }) (at0 0)
     let op : UOp := opAt .store (slWord 0x38 [(Sl.STORE_DFMT, 2)]) 7 2 0
     let rest : List UOp := []
     (Acts b h s) ∧ (storeReady b h s = true) ∧ ((sideOf b h s).storeQ = op :: rest) ∧ (isCb (storeDfmt op) = false)) := by
  dsimp only [Acts, Issues, Quiet, Working, Takes, Reaches]
  decide +kernel

/-- O12, clause 4. -/
theorem test_hypotheses_sands_and_stores_run_4 :
    (let b : Nat := 0
     let h : Nat := 0
     let s : State := side0 (fun x => { x with storeQ := [opAt .store (slWord 0x38 [(Sl.STORE_DFMT, 9)]) 6 2 0] }) (tile5 1 (at0 0))
     let e : Ecc := noEcc
     let op : UOp := opAt .store (slWord 0x38 [(Sl.STORE_DFMT, 9)]) 6 2 0
     let rest : List UOp := []
     let bk : List FVal := bookOf (bookForEncode 0 0 5 6 9 noEcc (eccCount 0 noEcc (serve 0 0 uStore (advanceTo (freeAt 0 0 (·.storeFree) (side0 (fun x => { x with storeQ := [opAt .store (slWord 0x38 [(Sl.STORE_DFMT, 9)]) 6 2 0] }) (tile5 1 (at0 0)))) (side0 (fun x => { x with storeQ := [opAt .store (slWord 0x38 [(Sl.STORE_DFMT, 9)]) 6 2 0] }) (tile5 1 (at0 0)))))))
     let x : Nat := bookX (bookForEncode 0 0 5 6 9 noEcc (eccCount 0 noEcc (serve 0 0 uStore (advanceTo (freeAt 0 0 (·.storeFree) (side0 (fun x => { x with storeQ := [opAt .store (slWord 0x38 [(Sl.STORE_DFMT, 9)]) 6 2 0] }) (tile5 1 (at0 0)))) (side0 (fun x => { x with storeQ := [opAt .store (slWord 0x38 [(Sl.STORE_DFMT, 9)]) 6 2 0] }) (tile5 1 (at0 0)))))))
     let w : State := (bookForEncode 0 0 5 6 9 noEcc (eccCount 0 noEcc (serve 0 0 uStore (advanceTo (freeAt 0 0 (·.storeFree) (side0 (fun x => { x with storeQ := [opAt .store (slWord 0x38 [(Sl.STORE_DFMT, 9)]) 6 2 0] }) (tile5 1 (at0 0)))) (side0 (fun x => { x with storeQ := [opAt .store (slWord 0x38 [(Sl.STORE_DFMT, 9)]) 6 2 0] }) (tile5 1 (at0 0))))))).2
     let u := eccCount b e (serve b h uStore (advanceTo (freeAt b h (·.storeFree) s) s))
     (Acts b h s) ∧ (storeReady b h s = true) ∧ ((sideOf b h s).storeQ = op :: rest) ∧ (bookForEncode b h 5 op.dst (storeDfmt op) e u = (.book bk x, w))) := by
  dsimp only [Acts, Issues, Quiet, Working, Takes, Reaches]
  decide +kernel

/-- O12, clause 5. -/
theorem test_hypotheses_sands_and_stores_run_5 :
    (let b : Nat := 0
     let h : Nat := 0
     let s : State := side0 (fun x => { x with storeRuns := [⟨opAt .store (slWord 0x38 [(Sl.STORE_DFMT, 2)]) 7 2 0, 2, 11, 2, [], [], [], 0, 0⟩] }) (at0 0)
     let r : Run := ⟨opAt .store (slWord 0x38 [(Sl.STORE_DFMT, 2)]) 7 2 0, 2, 11, 2, [], [], [], 0, 0⟩
     let rest : List Run := []
     let v := storeUpto b h r.due r (advanceTo r.due s)
     let code := Config.freeCode s.fresh % 255
     let enc := encodeTile v.1.fmt (if v.1.fmt = fmtCB16 then code % 16 else code) v.1.book v.1.vals
     (Acts b h s) ∧ ((sideOf b h s).storeRuns = r :: rest) ∧ (writeHeld b h r.op s = false) ∧ (trapMask b s &&& (v.1.flags ||| enc.flags) = 0)) := by
  dsimp only [Acts, Issues, Quiet, Working, Takes, Reaches]
  decide +kernel

/-- O13, clauses 1 to 2. -/
theorem test_hypotheses_tiles_land :
    (let b : Nat := 0
     let q : Nat := 0
     let s : State := side0 (fun x => { x with moveQ := [⟨opAt .moveOut 0 0 2 3, 3, 9, 0, [], [], [], 0, 2⟩] }) (armedDov (tile5 2 (at0 0)))
     let e : Ecc := noEcc
     let r : Run := ⟨opAt .moveOut 0 0 2 3, 3, 9, 0, [], [], [], 0, 2⟩
     let u : State := eccCount 0 noEcc (advanceTo 9 (side0 (fun x => { x with moveQ := [⟨opAt .moveOut 0 0 2 3, 3, 9, 0, [], [], [], 0, 2⟩] }) (armedDov (tile5 2 (at0 0)))))
     (Acts b q s) ∧ (moveReady b q s = some r) ∧ (let v := eccCount (movePlaces b r.op r.prog (advanceTo r.due s)).1.1 e (advanceTo r.due s);
     (r.prog = r.op.num ∧ u = v) ∨ (r.prog ≠ r.op.num ∧ moveTiles b q r.op e (r.op.num - r.prog) r.prog v = (.landed, u)))) ∧
    (let b : Nat := 0
     let q : Nat := 0
     let s : State := setBench 0 { benchOf 0 (at0 0) with refetch := [⟨5, [2], some 40⟩] } { at0 0 with tier := { Tier.empty with xfers := [⟨.refetch, 7, 2, 0, 5, 100, 20, 40, none⟩] } }
     let t : Nat := 5
     let e : Ecc := noEcc
     let rf : Refetch := ⟨5, [2], some 40⟩
     let x : TierXfer := ⟨.refetch, 7, 2, 0, 5, 100, 20, 40, none⟩
     let mode := objF x.obj 0 Fld.OBJ0_MITRE s
     let raw := rurilTile x.rtn s
     let tile := if mode = 0 then raw else mitreTile mode raw
     (Acts b q s) ∧ ((benchOf b s).refetch.find? (fun r => r.tile == t) = some rf) ∧ (s.tier.xfers.find? (fun y => y.kind == .refetch && y.bench == b && y.btile == t) = some x) ∧ (e.bad.contains x.rtn = false) ∧ (s.rbad.contains x.rtn = false) ∧ ((mode = 0 ∨ tagF Fld.TAG_CRC raw.tag = crc32c raw.payload))) := by
  dsimp only [Acts, Issues, Quiet, Working, Takes, Reaches]
  refine ⟨?_, ?_⟩ <;> decide +kernel

/-- O14, clauses 1 to 8. -/
theorem test_hypotheses_bench_registers_complete_1 :
    (let b : Nat := 0
     let v : Word := 1
     let src : Src := .host
     let s : State := up
     let writes := fun (off : Nat) => Reaches src off (.write v) s
     (b < 1176) ∧ (Quiet s) ∧ (s.priv = false) ∧ (writes (Reg.BEN_CTL b)) ∧ (benchStopped b s = true)) ∧
    (let b : Nat := 0
     let v : Word := 1
     let src : Src := .host
     let s : State := at0 0
     let u := arrived src s
     let writes := fun (off : Nat) => Reaches src off (.write v) s
     (b < 1176) ∧ (Quiet s) ∧ (s.priv = false) ∧ (writes (Reg.BEN_CTL b)) ∧ (benchStopped b s = false) ∧ (getF Fld.BEN_CTL_SPLIT v ≠ rdF (Reg.BEN_CTL b) Fld.BEN_CTL_SPLIT u)) ∧
    (let b : Nat := 0
     let v : Word := 77
     let src : Src := .host
     let s : State := wr (Reg.BEN_IMEM_ADDR 0) 8191 up
     let u := arrived src s
     let writes := fun (off : Nat) => Reaches src off (.write v) s
     let p := imemPlace b u
     (b < 1176) ∧ (Quiet s) ∧ (s.priv = false) ∧ (writes (Reg.BEN_IMEM_DATA b)) ∧ ((seqOf b p.1 s).st.active = false)) ∧
    (let b : Nat := 0
     let src : Src := .host
     let s : State := wr (Reg.BEN_IMEM_ADDR 0) 8191 up
     let u := arrived src s
     let p := imemPlace b u
     (b < 1176) ∧ (Quiet s) ∧ (s.priv = false) ∧ (Reaches src (Reg.BEN_IMEM_DATA b) .read s) ∧ ((seqOf b p.1 s).st.active = false)) ∧
    (let b : Nat := 0
     let v : Word := 0xFFFFFF
     let src : Src := .host
     let s : State := up
     let writes := fun (off : Nat) => Reaches src off (.write v) s
     (b < 1176) ∧ (Quiet s) ∧ (s.priv = false) ∧ (writes (Reg.BEN_EXC_CTL b)) ∧ (benchStopped b s = true)) ∧
    (let b : Nat := 0
     let v : Word := 1
     let src : Src := .host
     let s : State := up
     let u := arrived src s
     let writes := fun (off : Nat) => Reaches src off (.write v) s
     (b < 1176) ∧ (Quiet s) ∧ (s.priv = false) ∧ (writes (Reg.BEN_FDESC_DATA b)) ∧ (floorBusy u = false)) ∧
    (let b : Nat := 0
     let src : Src := .host
     let s : State := armed up
     (b < 1176) ∧ (Quiet s) ∧ (s.priv = false) ∧ (Reaches src (Reg.BEN_FDESC_DATA b) .read s)) ∧
    (let b : Nat := 0
     let v : Word := 1
     let src : Src := .host
     let s : State := up
     let u := arrived src s
     let writes := fun (off : Nat) => Reaches src off (.write v) s
     (b < 1176) ∧ (Quiet s) ∧ (s.priv = false) ∧ (writes (Reg.BEN_FLOOR_SYS b)) ∧ (floorBusy u = false)) := by
  dsimp only [Acts, Issues, Quiet, Working, Takes, Reaches]
  refine ⟨?_, ?_, ?_, ?_, ?_, ?_, ?_, ?_⟩ <;> decide +kernel

/-- O14, clause 9. -/
theorem test_hypotheses_bench_registers_complete_2 :
    (let b : Nat := 0
     let v : Word := 1
     let src : Src := .host
     let s : State := armed up
     let u := arrived src s
     let writes := fun (off : Nat) => Reaches src off (.write v) s
     (b < 1176) ∧ (Quiet s) ∧ (s.priv = false) ∧ (writes (Reg.BEN_FLOOR_SYS b)) ∧ (floorBusy u = true)) := by
  dsimp only [Acts, Issues, Quiet, Working, Takes, Reaches]
  decide +kernel

/-- O15, clauses 1 to 5. -/
theorem test_hypotheses_bench_starts_and_resets_complete :
    (let b : Nat := 0
     let v : Word := 0x123
     let src : Src := .host
     let s : State := { up with cycle := 5 }
     let go0 := v ||| maskF Fld.BEN_START_GO0
     (b < 1176) ∧ (Quiet s) ∧ (Reaches src (Reg.BEN_START b) (.write go0) s) ∧ (goOk b 0 s = true) ∧ ((bitF Fld.BEN_START_GO1 v = true → goOk b 1 s = true))) ∧
    (let b : Nat := 0
     let v : Word := 0x123
     let src : Src := .host
     let s : State := wrF (Reg.BEN_CTL 0) Fld.BEN_CTL_SPLIT 1 up
     let go1 := v ||| maskF Fld.BEN_START_GO1
     (b < 1176) ∧ (Quiet s) ∧ (Reaches src (Reg.BEN_START b) (.write go1) s) ∧ (goOk b 1 s = true) ∧ ((bitF Fld.BEN_START_GO0 v = true → goOk b 0 s = true))) ∧
    (let b : Nat := 0
     let v : Word := 0x123
     let src : Src := .host
     let s : State := tile5 2 up
     let u := arrived src s
     let res := v ||| maskF Fld.BEN_RESET_RESET
     (b < 1176) ∧ (Quiet s) ∧ (Reaches src (Reg.BEN_RESET b) (.write res) s) ∧ (inReset b s = false) ∧ ((benchOf b s).resetWait = false) ∧ (benchStopped b s = true) ∧ (benchCtxsIdle b u = true) ∧ (benchMapped b u = false)) ∧
    (let b : Nat := 0
     let s : State := setBench 0 { Bench.reset with resetDue := some 9 } up
     let c := 9
     (b < 1176) ∧ (runs s = true) ∧ (s.work = []) ∧ ((benchOf b s).resetWait = false) ∧ ((benchOf b s).resetDue = some c)) ∧
    (let b : Nat := 0
     let s : State := tile5 1 (setBench 0 { Bench.reset with resetWait := true } up)
     (b < 1176) ∧ (runs s = true) ∧ (s.work = []) ∧ ((benchOf b s).resetWait = true) ∧ ((benchOf b s).side0.quiet = true) ∧ ((benchOf b s).side1.quiet = true)) := by
  dsimp only [Acts, Issues, Quiet, Working, Takes, Reaches]
  refine ⟨?_, ?_, ?_, ?_, ?_⟩ <;> decide +kernel

/-- O16, clauses 1, 2, 3, 4, 6, 7, 8 and 9. -/
theorem test_hypotheses_floor_arms_and_first_records_clear_1 :
    (let v : Word := 0
     let src : Src := .host
     let s : State := up
     let u := arrived src s
     let arm := v ||| maskF Fld.GLB_FLOOR_CTL_ARM
     (Quiet s) ∧ (Reaches src Reg.GLB_FLOOR_CTL (.write arm) s) ∧ (bitF Fld.GLB_FLOOR_CTL_DISARM v = false) ∧ (floorBusy u = false)) ∧
    (let v : Word := maskF Fld.GLB_FLOOR_CTL_DISARM
     let src : Src := .host
     let s : State := armed up
     let u := arrived src s
     let arm := v ||| maskF Fld.GLB_FLOOR_CTL_ARM
     (Quiet s) ∧ (Reaches src Reg.GLB_FLOOR_CTL (.write arm) s) ∧ (bitF Fld.GLB_FLOOR_CTL_DISARM v = true) ∧ (bitF Fld.GLB_FLOOR_STATUS_BUSY (rd Reg.GLB_FLOOR_STATUS u) = false) ∧ (anyRunning s = false)) ∧
    (let v : Word := 0
     let src : Src := .host
     let s : State := armed up
     let u := arrived src s
     let dis := v ||| maskF Fld.GLB_FLOOR_CTL_DISARM
     (Quiet s) ∧ (Reaches src Reg.GLB_FLOOR_CTL (.write dis) s) ∧ (bitF Fld.GLB_FLOOR_CTL_ARM v = false) ∧ (bitF Fld.GLB_FLOOR_STATUS_BUSY (rd Reg.GLB_FLOOR_STATUS u) = false) ∧ (anyRunning s = false)) ∧
    (let v : Word := 0
     let src : Src := .host
     let s : State := armed (at0 0)
     let u := arrived src s
     let dis := v ||| maskF Fld.GLB_FLOOR_CTL_DISARM
     (Quiet s) ∧ (Reaches src Reg.GLB_FLOOR_CTL (.write dis) s) ∧ (s.priv = false) ∧ (bitF Fld.GLB_FLOOR_STATUS_BUSY (rd Reg.GLB_FLOOR_STATUS u) = true ∨ anyRunning s = true)) ∧
    (let b : Nat := 0
     let q : Nat := 1
     let c : Nat := 15
     let v : Word := 0
     let src : Src := .host
     let s : State := up
     let at' := fun (off : Nat) (m : Word) => Reaches src off (.write m) s
     let w := v ||| maskF ⟨63, 1⟩
     (b < 1176) ∧ (q < 2) ∧ (c < 16) ∧ (Quiet s) ∧ (at' (faultReg b q) w)) ∧
    (let b : Nat := 0
     let q : Nat := 1
     let c : Nat := 15
     let v : Word := 0
     let src : Src := .host
     let s : State := up
     let at' := fun (off : Nat) (m : Word) => Reaches src off (.write m) s
     let w := v ||| maskF ⟨63, 1⟩
     (b < 1176) ∧ (q < 2) ∧ (c < 16) ∧ (Quiet s) ∧ (at' (Reg.BEN_EXC_FIRST b) w)) ∧
    (let b : Nat := 0
     let q : Nat := 1
     let c : Nat := 15
     let v : Word := 0
     let src : Src := .host
     let s : State := up
     let at' := fun (off : Nat) (m : Word) => Reaches src off (.write m) s
     let w := v ||| maskF ⟨63, 1⟩
     (b < 1176) ∧ (q < 2) ∧ (c < 16) ∧ (Quiet s) ∧ (at' (Reg.BEN_CHECK_FIRST b) w)) ∧
    (let b : Nat := 0
     let q : Nat := 1
     let c : Nat := 15
     let v : Word := 0
     let src : Src := .host
     let s : State := up
     let at' := fun (off : Nat) (m : Word) => Reaches src off (.write m) s
     let w := v ||| maskF ⟨63, 1⟩
     (b < 1176) ∧ (q < 2) ∧ (c < 16) ∧ (Quiet s) ∧ (at' Reg.FAB_TREE_FAILED w)) := by
  dsimp only [Acts, Issues, Quiet, Working, Takes, Reaches]
  refine ⟨?_, ?_, ?_, ?_, ?_, ?_, ?_, ?_⟩ <;> decide +kernel

/-- O16, clauses 5 and 10. -/
theorem test_hypotheses_floor_arms_and_first_records_clear_2 :
    (let b : Nat := 0
     let q : Nat := 1
     let c : Nat := 15
     let v : Word := 0
     let src : Src := .host
     let s : State := up
     let at' := fun (off : Nat) (m : Word) => Reaches src off (.write m) s
     let w := v ||| maskF ⟨63, 1⟩
     (b < 1176) ∧ (q < 2) ∧ (c < 16) ∧ (Quiet s) ∧ (at' (Reg.DET_TCC_FIRST c) w)) ∧
    (let s : State := wrF Reg.GLB_FLOOR_STATUS Fld.GLB_FLOOR_STATUS_BUSY 1 up
     (Quiet s) ∧ (held s = false) ∧ (dead s = false) ∧ (bitF Fld.GLB_FLOOR_STATUS_BUSY (rd Reg.GLB_FLOOR_STATUS s) = true)) := by
  dsimp only [Acts, Issues, Quiet, Working, Takes, Reaches]
  refine ⟨?_, ?_⟩ <;> decide +kernel

/-- O17, clauses 1 to 8. -/
theorem test_hypotheses_table_reads_complete_1 :
    (let src : Src := .host
     let s : State := wr Reg.TIR_OBJ_ADDR 0xFFFFFFFF (obj2 1 0 up)
     (Quiet s) ∧ (Reaches src Reg.TIR_OBJ_DATA .read s)) ∧
    (let src : Src := .host
     let s : State := wr Reg.DOV_LAYER_ADDR 0xFFFFFFFF (obj2 1 0 up)
     (Quiet s) ∧ (Reaches src Reg.DOV_LAYER_DATA .read s)) ∧
    (let src : Src := .host
     let s : State := wr Reg.DOV_SEL_ADDR 0xFFFFFFFF (obj2 1 0 up)
     (Quiet s) ∧ (Reaches src Reg.DOV_SEL_DATA .read s)) ∧
    (let src : Src := .host
     let s : State := wr Reg.DOV_DISP_ADDR 0xFFFFFFFF (obj2 1 0 up)
     (Quiet s) ∧ (Reaches src Reg.DOV_DISP_DATA .read s)) ∧
    (let src : Src := .host
     let s : State := wr Reg.DOV_MAP_ADDR 0xFFFFFFFF (obj2 1 0 up)
     (Quiet s) ∧ (Reaches src Reg.DOV_MAP_DATA .read s)) ∧
    (let src : Src := .host
     let s : State := wr Reg.DOV_LOC_ADDR 0xFFFFFFFF (obj2 1 0 up)
     (Quiet s) ∧ (Reaches src Reg.DOV_LOC_DATA .read s)) ∧
    (let src : Src := .host
     let s : State := wr Reg.FAB_RANK_ADDR 0xFFFFFFFF (obj2 1 0 up)
     (Quiet s) ∧ (Reaches src Reg.FAB_RANK_DATA .read s)) ∧
    (let src : Src := .host
     let s : State := wr Reg.FAB_PLANE_ADDR 0xFFFFFFFF (obj2 1 0 up)
     (Quiet s) ∧ (Reaches src Reg.FAB_PLANE_DATA .read s)) := by
  dsimp only [Acts, Issues, Quiet, Working, Takes, Reaches]
  refine ⟨?_, ?_, ?_, ?_, ?_, ?_, ?_, ?_⟩ <;> decide +kernel

/-- O17, clauses 9 to 16. -/
theorem test_hypotheses_table_reads_complete_2 :
    (let src : Src := .host
     let s : State := wr Reg.FAB_TREE_ADDR 0xFFFFFFFF (obj2 1 0 up)
     (Quiet s) ∧ (Reaches src Reg.FAB_TREE_DATA .read s)) ∧
    (let src : Src := .host
     let s : State := wr Reg.FAB_XDESC_ADDR 0xFFFFFFFF (obj2 1 0 up)
     (Quiet s) ∧ (Reaches src Reg.FAB_XDESC_DATA .read s)) ∧
    (let src : Src := .host
     let s : State := wr Reg.COL_GROUP_ADDR 0xFFFFFFFF (obj2 1 0 up)
     (Quiet s) ∧ (Reaches src Reg.COL_GROUP_DATA .read s)) ∧
    (let src : Src := .host
     let s : State := wr Reg.COL_LIST_ADDR 0xFFFFFFFF (obj2 1 0 up)
     (Quiet s) ∧ (Reaches src Reg.COL_LIST_DATA .read s)) ∧
    (let src : Src := .host
     let s : State := wr Reg.COL_DESC_ADDR 0xFFFFFFFF (obj2 1 0 up)
     (Quiet s) ∧ (Reaches src Reg.COL_DESC_DATA .read s)) ∧
    (let src : Src := .host
     let s : State := wr Reg.COL_GSEQ_ADDR 0xFFFFFFFF (obj2 1 0 up)
     (Quiet s) ∧ (Reaches src Reg.COL_GSEQ_DATA .read s)) ∧
    (let src : Src := .host
     let s : State := wr Reg.CTX_BENCH_ADDR 1175 (sem8 3 0 own)
     (Quiet s) ∧ (Reaches src Reg.BPM_SLOT_DATA .read s)) ∧
    (let src : Src := .host
     let s : State := wr Reg.CTX_BENCH_ADDR 1175 (sem8 3 0 own)
     (Quiet s) ∧ (Reaches src Reg.CTX_SEM_DATA .read s)) := by
  dsimp only [Acts, Issues, Quiet, Working, Takes, Reaches]
  refine ⟨?_, ?_, ?_, ?_, ?_, ?_, ?_, ?_⟩ <;> decide +kernel

/-- O17, clause 17. -/
theorem test_hypotheses_table_reads_complete_3 :
    (let src : Src := .host
     let s : State := wr Reg.CTX_BENCH_ADDR 1175 (sem8 3 0 own)
     let u := arrived src s
     let bench := rdF Reg.CTX_BENCH_ADDR Fld.CTX_BENCH_ADDR_INDEX u
     (Quiet s) ∧ (Reaches src Reg.CTX_BENCH_DATA .read s) ∧ (bench < 1176)) := by
  dsimp only [Acts, Issues, Quiet, Working, Takes, Reaches]
  decide +kernel

/-- O18, clauses 1 to 8. -/
theorem test_hypotheses_fabric_tables_complete_1 :
    (let v : Word := 0xFFFFFFFFFFFFFFFF
     let src : Src := .host
     let s : State := up
     let u := arrived src s
     let none' := jobState u = 0
     (Quiet s) ∧ (s.priv = false) ∧ (Reaches src Reg.FAB_PLANE_DATA (.write v) s ∧ none')) ∧
    (let v : Word := 0xFFFFFFFFFFFFFFFF
     let src : Src := .host
     let s : State := up
     let u := arrived src s
     let none' := jobState u = 0
     (Quiet s) ∧ (s.priv = false) ∧ (Reaches src Reg.FAB_TREE_DATA (.write v) s ∧ none')) ∧
    (let v : Word := 0xFFFFFFFFFFFFFFFF
     let src : Src := .host
     let s : State := up
     let u := arrived src s
     let none' := jobState u = 0
     (Quiet s) ∧ (s.priv = false) ∧ (Reaches src Reg.FAB_XDESC_DATA (.write v) s ∧ none')) ∧
    (let v : Word := 0xFFFFFFFFFFFFFFFF
     let src : Src := .host
     let s : State := up
     let u := arrived src s
     let none' := jobState u = 0
     (Quiet s) ∧ (s.priv = false) ∧ (Reaches src Reg.COL_GROUP_DATA (.write v) s ∧ none')) ∧
    (let v : Word := 0xFFFFFFFFFFFFFFFF
     let src : Src := .host
     let s : State := up
     let u := arrived src s
     let none' := jobState u = 0
     (Quiet s) ∧ (s.priv = false) ∧ (Reaches src Reg.COL_LIST_DATA (.write v) s ∧ none')) ∧
    (let v : Word := 0xFFFFFFFFFFFFFFFF
     let src : Src := .host
     let s : State := up
     let u := arrived src s
     let none' := jobState u = 0
     (Quiet s) ∧ (s.priv = false) ∧ (Reaches src Reg.COL_DESC_DATA (.write v) s ∧ none')) ∧
    (let v : Word := 0xFFFFFFFFFFFFFFFF
     let src : Src := .host
     let s : State := up
     let u := arrived src s
     let none' := jobState u = 0
     (Quiet s) ∧ (s.priv = false) ∧ (Reaches src Reg.COL_GSEQ_DATA (.write v) s ∧ none')) ∧
    (let v : Word := 0x4000000000000009
     let src : Src := .host
     let s : State := up
     let u := arrived src s
     let none' := jobState u = 0
     let r := (rd Reg.FAB_RANK_ADDR u).toNat % 2 ^ 15
     let ranked := tbW (Tab.RANK r) (v &&& 0xC000000000007FFF) u
     (Quiet s) ∧ (s.priv = false) ∧ (Reaches src Reg.FAB_RANK_DATA (.write v) s) ∧ (none') ∧ ((rankState r u = 2 → rankState r (refreshRank ranked) ≠ 1))) := by
  dsimp only [Acts, Issues, Quiet, Working, Takes, Reaches]
  refine ⟨?_, ?_, ?_, ?_, ?_, ?_, ?_, ?_⟩ <;> decide +kernel

/-- O18, clauses 9 to 11. -/
theorem test_hypotheses_fabric_tables_complete_2 :
    (let v : Word := 0x4000000000000004
     let src : Src := .host
     let s : State := tbW (Tab.RANK 0) 0x8000000000000004 up
     let u := arrived src s
     let none' := jobState u = 0
     let r := (rd Reg.FAB_RANK_ADDR u).toNat % 2 ^ 15
     let ranked := tbW (Tab.RANK r) (v &&& 0xC000000000007FFF) u
     (Quiet s) ∧ (s.priv = false) ∧ (Reaches src Reg.FAB_RANK_DATA (.write v) s) ∧ (none') ∧ (rankState r u = 2) ∧ (rankState r (refreshRank ranked) = 1)) ∧
    (let v : Word := 0x8000000000000004
     let src : Src := .host
     let s : State := job up
     let u := arrived src s
     let none' := jobState u = 0
     let r := (rd Reg.FAB_RANK_ADDR u).toNat % 2 ^ 15
     (Quiet s) ∧ (s.priv = false) ∧ (Reaches src Reg.FAB_RANK_DATA (.write v) s) ∧ (¬ none') ∧ (rankState r u = 1) ∧ (getF ⟨62, 2⟩ v = 2) ∧ (getF ⟨0, 15⟩ v = rankPhys r u)) ∧
    (let v : Word := 0x8000000000000005
     let src : Src := .host
     let s : State := job up
     let u := arrived src s
     let none' := jobState u = 0
     let r := (rd Reg.FAB_RANK_ADDR u).toNat % 2 ^ 15
     (Quiet s) ∧ (s.priv = false) ∧ (Reaches src Reg.FAB_RANK_DATA (.write v) s) ∧ (¬ none') ∧ (¬ (rankState r u = 1 ∧ getF ⟨62, 2⟩ v = 2 ∧ getF ⟨0, 15⟩ v = rankPhys r u))) := by
  dsimp only [Acts, Issues, Quiet, Working, Takes, Reaches]
  refine ⟨?_, ?_, ?_⟩ <;> decide +kernel

/-- O19, clauses 1 to 8. -/
theorem test_hypotheses_context_tables_complete :
    (let v : Word := 0xFFFFFFFFFFFFFFFF
     let src : Src := .host
     let s : State := wr Reg.TIR_OBJ_ADDR 22 (obj2 1 0 up)
     let u := arrived src s
     let w := rdF Reg.TIR_OBJ_ADDR Fld.TIR_OBJ_ADDR_WORD u
     let obj := Reaches src Reg.TIR_OBJ_DATA (.write v) s
     (Quiet s) ∧ (s.priv = false) ∧ (obj) ∧ (6 ≤ w)) ∧
    (let v : Word := 0x5
     let src : Src := .host
     let s : State := wr Reg.TIR_OBJ_ADDR 20 (obj2 osRuril 0 up)
     let u := arrived src s
     let o := rdF Reg.TIR_OBJ_ADDR Fld.TIR_OBJ_ADDR_INDEX u
     let w := rdF Reg.TIR_OBJ_ADDR Fld.TIR_OBJ_ADDR_WORD u
     let t := tbW (objKey o w) ((tb (objKey o w) u &&& ~~~(objMask w)) ||| (v &&& objMask w)) u
     let obj := Reaches src Reg.TIR_OBJ_DATA (.write v) s
     (Quiet s) ∧ (s.priv = false) ∧ (obj) ∧ (w < 6) ∧ (objOpen o u = true) ∧ ((objF o 0 Fld.OBJ0_VALID t = 1 → objLegal o t = true)) ∧ (¬ (objF o 0 Fld.OBJ0_VALID u = 1 ∧ objState o t = osPoisoned))) ∧
    (let v : Word := 5
     let src : Src := .host
     let s : State := wr Reg.TIR_OBJ_ADDR 20 { obj2 osPoisoned 0 up with tier := { Tier.empty with recov := [⟨2, [0], 0, 0, true⟩] } }
     let u := arrived src s
     let o := rdF Reg.TIR_OBJ_ADDR Fld.TIR_OBJ_ADDR_INDEX u
     let w := rdF Reg.TIR_OBJ_ADDR Fld.TIR_OBJ_ADDR_WORD u
     let t := tbW (objKey o w) ((tb (objKey o w) u &&& ~~~(objMask w)) ||| (v &&& objMask w)) u
     let obj := Reaches src Reg.TIR_OBJ_DATA (.write v) s
     (Quiet s) ∧ (s.priv = false) ∧ (obj) ∧ (w < 6) ∧ (objOpen o u = true) ∧ ((objF o 0 Fld.OBJ0_VALID t = 1 → objLegal o t = true)) ∧ (objF o 0 Fld.OBJ0_VALID u = 1) ∧ (objState o t = osPoisoned)) ∧
    (let v : Word := 0xFFFFFFFFFFFFFFFF
     let src : Src := .host
     let s : State := wr Reg.TIR_OBJ_ADDR 20 (obj2 osPromoting 1 up)
     let u := arrived src s
     let o := rdF Reg.TIR_OBJ_ADDR Fld.TIR_OBJ_ADDR_INDEX u
     let w := rdF Reg.TIR_OBJ_ADDR Fld.TIR_OBJ_ADDR_WORD u
     let t := tbW (objKey o w) ((tb (objKey o w) u &&& ~~~(objMask w)) ||| (v &&& objMask w)) u
     let obj := Reaches src Reg.TIR_OBJ_DATA (.write v) s
     (Quiet s) ∧ (s.priv = false) ∧ (obj) ∧ (w < 6) ∧ (objOpen o u = false ∨ (objF o 0 Fld.OBJ0_VALID t = 1 ∧ objLegal o t = false))) ∧
    (let v : Word := 0x21
     let src : Src := .host
     let s : State := up
     let u := arrived src s
     let b := rdF Reg.CTX_BENCH_ADDR Fld.CTX_BENCH_ADDR_INDEX u
     let entry := v &&& 0x3FF
     let mayBench := b < 1176 ∧ ∀ c ∈ entryCtxs (tb (Tab.BENCHTAB b) u) ++ entryCtxs entry, ctxIdle c u = true
     (Quiet s) ∧ (s.priv = false) ∧ (Reaches src Reg.CTX_BENCH_DATA (.write v) s) ∧ (mayBench)) ∧
    (let v : Word := 0
     let src : Src := .host
     let s : State := own
     let u := arrived src s
     let b := rdF Reg.CTX_BENCH_ADDR Fld.CTX_BENCH_ADDR_INDEX u
     let entry := v &&& 0x3FF
     let mayBench := b < 1176 ∧ ∀ c ∈ entryCtxs (tb (Tab.BENCHTAB b) u) ++ entryCtxs entry, ctxIdle c u = true
     (Quiet s) ∧ (s.priv = false) ∧ (Reaches src Reg.CTX_BENCH_DATA (.write v) s) ∧ (¬ mayBench)) ∧
    (let v : Word := 0x7
     let src : Src := .host
     let s : State := wrF Reg.CTX_SEM_ADDR Fld.CTX_SEM_ADDR_INDEX 8 (sem8 3 0 up)
     let u := arrived src s
     let n := rdF Reg.CTX_SEM_ADDR Fld.CTX_SEM_ADDR_INDEX u
     let e := semEntry n u
     let maySem := (semCfg e = semCfg v ∨ ∀ c ∈ semCtxs e ++ semCtxs v, ctxIdle c u = true) ∧
           (getF Fld.SEM_VALUE e = getF Fld.SEM_VALUE v ∨ bitF Fld.SEM_HELD e = false)
     (Quiet s) ∧ (s.priv = false) ∧ (Reaches src Reg.CTX_SEM_DATA (.write v) s) ∧ (maySem)) ∧
    (let v : Word := 0x7
     let src : Src := .host
     let s : State := wrF Reg.CTX_SEM_ADDR Fld.CTX_SEM_ADDR_INDEX 8 (sem8 3 0 own)
     let u := arrived src s
     let n := rdF Reg.CTX_SEM_ADDR Fld.CTX_SEM_ADDR_INDEX u
     let e := semEntry n u
     let maySem := (semCfg e = semCfg v ∨ ∀ c ∈ semCtxs e ++ semCtxs v, ctxIdle c u = true) ∧
           (getF Fld.SEM_VALUE e = getF Fld.SEM_VALUE v ∨ bitF Fld.SEM_HELD e = false)
     (Quiet s) ∧ (s.priv = false) ∧ (Reaches src Reg.CTX_SEM_DATA (.write v) s) ∧ (¬ maySem)) := by
  dsimp only [Acts, Issues, Quiet, Working, Takes, Reaches]
  refine ⟨?_, ?_, ?_, ?_, ?_, ?_, ?_, ?_⟩ <;> decide +kernel

/-- O20, clauses 1 to 8. -/
theorem test_hypotheses_tier_requests_and_transfers_land_1 :
    (let c : Nat := 15
     let s : State := up
     (c < 16) ∧ (Working s)) ∧
    (let c : Nat := 15
     let s : State := up
     (c < 16) ∧ (Working s)) ∧
    (let c : Nat := 15
     let s : State := up
     (c < 16) ∧ (Working s)) ∧
    (let c : Nat := 15
     let s : State := up
     (c < 16) ∧ (Working s)) ∧
    (let c : Nat := 15
     let v : Word := 0
     let src : Src := .host
     let s : State := wr Reg.TIR_POISON_FIRST 0x8000000000000000 up
     (c < 16) ∧ (Quiet s) ∧ (Reaches src Reg.TIR_POISON_FIRST (.write (v ||| maskF Fld.TIR_POISON_FIRST_VALID)) s)) ∧
    (let j : Nat := 0
     let x : TierXfer := xfer .promote
     let s : State := both4 2 ( (moving 1 1 (xfer .promote) up))
     let mode := objF x.obj 0 Fld.OBJ0_MITRE s
     (Working s) ∧ (s.tier.xfers[j]? = some x) ∧ (x.kind = .promote) ∧ (s.rbad.contains x.rtn = false) ∧ (mode = 0)) ∧
    (let j : Nat := 0
     let x : TierXfer := xfer .promote
     let s : State := both4 2 (mitre2 (moving 1 1 (xfer .promote) up))
     let mode := objF x.obj 0 Fld.OBJ0_MITRE s
     let inTile := rurilTile x.rtn s
     let sound := fun (y : Tile) => tagF Fld.TAG_CRC y.tag = crc32c y.payload ∧ mitreTakes (tagF Fld.TAG_FORMAT y.tag) = true
     (Working s) ∧ (s.tier.xfers[j]? = some x) ∧ (x.kind = .promote) ∧ (s.rbad.contains x.rtn = false) ∧ (mode ≠ 0) ∧ (sound inTile)) ∧
    (let j : Nat := 0
     let x : TierXfer := xfer .flush
     let s : State := both4 2 ( (moving 3 2 (xfer .flush) up))
     let mode := objF x.obj 0 Fld.OBJ0_MITRE s
     let out := (x.kind = .evict ∨ x.kind = .flush) ∧ s.sbad.contains (btKey x.bench x.btile) = false
     (Working s) ∧ (s.tier.xfers[j]? = some x) ∧ (out) ∧ (mode = 0)) := by
  dsimp only [Acts, Issues, Quiet, Working, Takes, Reaches]
  refine ⟨?_, ?_, ?_, ?_, ?_, ?_, ?_, ?_⟩ <;> decide +kernel

/-- O20, clause 9. -/
theorem test_hypotheses_tier_requests_and_transfers_land_2 :
    (let j : Nat := 0
     let x : TierXfer := xfer .flush
     let s : State := both4 2 (mitre2 (moving 3 2 (xfer .flush) up))
     let mode := objF x.obj 0 Fld.OBJ0_MITRE s
     let outTile := x.saved.getD (benchTile x.bench x.btile s)
     let sound := fun (y : Tile) => tagF Fld.TAG_CRC y.tag = crc32c y.payload ∧ mitreTakes (tagF Fld.TAG_FORMAT y.tag) = true
     let out := (x.kind = .evict ∨ x.kind = .flush) ∧ s.sbad.contains (btKey x.bench x.btile) = false
     (Working s) ∧ (s.tier.xfers[j]? = some x) ∧ (out) ∧ (mode ≠ 0) ∧ (sound outTile)) := by
  dsimp only [Acts, Issues, Quiet, Working, Takes, Reaches]
  decide +kernel

/-- O21, clauses 1 to 4. -/
theorem test_hypotheses_tier_bookings_complete :
    (let o : Nat := 2
     let s : State := sem8 3 0 { obj2 0 0 own with tier := { Tier.empty with promos := [promo2 true] } }
     let p := promo2 true
     (o < 65536) ∧ (Working s) ∧ (s.tier.promos.find? (fun p => p.obj == o) = some p) ∧ (p.dead = true)) ∧
    (let o : Nat := 2
     let s : State := sem8 3 0 { obj2 1 1 own with tier := { Tier.empty with promos := [promo2 false] } }
     let p := promo2 false
     (o < 65536) ∧ (Working s) ∧ (s.tier.promos.find? (fun p => p.obj == o) = some p) ∧ (p.dead = false) ∧ (xfersDone .promote o s = true) ∧ (objState o s = osPromoting) ∧ (objF o 0 Fld.OBJ0_EVICT_PENDING s = 0) ∧ ((∀ r ∈ p.reqs, r.sem < 4096))) ∧
    (let o : Nat := 2
     let s : State := { obj2 4 2 up with tier := { Tier.empty with backs := [back2 false] } }
     let w := back2 false
     (o < 65536) ∧ (Working s) ∧ (s.tier.backs.find? (fun w => w.obj == o && !w.flush) = some w) ∧ (xfersDone .evict o s = true) ∧ (objState o s = osEvicting)) ∧
    (let o : Nat := 2
     let s : State := { obj2 3 2 up with tier := { Tier.empty with backs := [back2 true] } }
     let w := back2 true
     (o < 65536) ∧ (Working s) ∧ (s.tier.backs.find? (fun w => w.obj == o && w.flush) = some w) ∧ (xfersDone .flush o s = true)) := by
  dsimp only [Acts, Issues, Quiet, Working, Takes, Reaches]
  refine ⟨?_, ?_, ?_, ?_⟩ <;> decide +kernel

/-- O22, clauses 1 to 6. -/
theorem test_hypotheses_recovery_proceeds :
    (let o : Nat := 2
     let j : Nat := 0
     let x : Tile := ⟨BitVec.ofNat 128 zeroCrc, zeros⟩
     let r : Recovery := ⟨2, [0, 1], 1, 7, false⟩
     let s : State := recovers [0, 1] 1 2 up
     let rest := r.tiles.filter (· != j)
     let good := tagF Fld.TAG_CRC x.tag = crc32c (subBytes x.payload 0 4096)
     (o < 65536) ∧ (Working s) ∧ (recovOf o s = some r) ∧ (r.failed = false) ∧ (r.tiles.contains j = true) ∧ (good) ∧ (rest ≠ [])) ∧
    (let o : Nat := 2
     let j : Nat := 0
     let x : Tile := ⟨BitVec.ofNat 128 zeroCrc, zeros⟩
     let r : Recovery := ⟨2, [0], 1, 7, false⟩
     let s : State := recovers [0] 1 0 up
     let rest := r.tiles.filter (· != j)
     let good := tagF Fld.TAG_CRC x.tag = crc32c (subBytes x.payload 0 4096)
     (o < 65536) ∧ (Working s) ∧ (recovOf o s = some r) ∧ (r.failed = false) ∧ (r.tiles.contains j = true) ∧ (good) ∧ (rest = [])) ∧
    (let o : Nat := 2
     let j : Nat := 0
     let x : Tile := ⟨0, zeros⟩
     let r : Recovery := ⟨2, [0], 0, 7, false⟩
     let s : State := hostCopy (recovers [0] 0 2 up)
     let good := tagF Fld.TAG_CRC x.tag = crc32c (subBytes x.payload 0 4096)
     let host := r.src = 0 ∧ objF o 4 Fld.OBJ4_HOST_VALID s = 1
     (o < 65536) ∧ (Working s) ∧ (recovOf o s = some r) ∧ (r.failed = false) ∧ (r.tiles.contains j = true) ∧ (¬ good) ∧ (host)) ∧
    (let o : Nat := 2
     let r : Recovery := ⟨2, [0], 0, 7, false⟩
     let s : State := hostCopy (recovers [0] 0 2 up)
     let host := r.src = 0 ∧ objF o 4 Fld.OBJ4_HOST_VALID s = 1
     (o < 65536) ∧ (Working s) ∧ (recovOf o s = some r) ∧ (r.failed = false) ∧ (host)) ∧
    (let o : Nat := 2
     let j : Nat := 0
     let x : Tile := ⟨0, zeros⟩
     let r : Recovery := ⟨2, [0], 1, 7, false⟩
     let s : State := hostCopy (recovers [0] 1 2 up)
     let good := tagF Fld.TAG_CRC x.tag = crc32c (subBytes x.payload 0 4096)
     let host := r.src = 0 ∧ objF o 4 Fld.OBJ4_HOST_VALID s = 1
     (o < 65536) ∧ (Working s) ∧ (recovOf o s = some r) ∧ (r.failed = false) ∧ (r.tiles.contains j = true) ∧ (¬ good) ∧ (¬ host)) ∧
    (let o : Nat := 2
     let r : Recovery := ⟨2, [0], 1, 7, false⟩
     let s : State := hostCopy (recovers [0] 1 2 up)
     let host := r.src = 0 ∧ objF o 4 Fld.OBJ4_HOST_VALID s = 1
     (o < 65536) ∧ (Working s) ∧ (recovOf o s = some r) ∧ (r.failed = false) ∧ (¬ host)) := by
  dsimp only [Acts, Issues, Quiet, Working, Takes, Reaches]
  refine ⟨?_, ?_, ?_, ?_, ?_, ?_⟩ <;> decide +kernel

/-- O23, clauses 1 to 8. -/
theorem test_hypotheses_pool_and_buffer_requests_complete_1 :
    (let v : Word := setF Fld.BPM_POOL_CTL_DBASE 0 77
     let src : Src := .host
     let s : State := pool3 up
     let init := v ||| maskF Fld.BPM_POOL_CTL_INIT
     let idle := rdF Reg.BPM_POOL_CTL Fld.BPM_POOL_CTL_BUSY s ≠ 1 ∧ usedSlots s = []
     let asked := Quiet s ∧ Reaches src Reg.BPM_POOL_CTL (.write init) s
     (asked) ∧ (idle)) ∧
    (let v : Word := 0
     let src : Src := .host
     let s : State := slot3 1 (pool3 up)
     let init := v ||| maskF Fld.BPM_POOL_CTL_INIT
     let idle := rdF Reg.BPM_POOL_CTL Fld.BPM_POOL_CTL_BUSY s ≠ 1 ∧ usedSlots s = []
     let asked := Quiet s ∧ Reaches src Reg.BPM_POOL_CTL (.write init) s
     (asked) ∧ (¬ idle)) ∧
    (let s : State := ruril <| wrF Reg.BPM_POOL_CTL Fld.BPM_POOL_CTL_BUSY 1 (buf1000 2 9 3 0 (pool3 up))
     (held s = false) ∧ (dead s = false) ∧ (s.power.ruril = true) ∧ (rdF Reg.BPM_POOL_CTL Fld.BPM_POOL_CTL_BUSY s = 1)) ∧
    (let v : Word := setF Fld.BPM_SLOT_REQ_STATUS (setF Fld.BPM_SLOT_REQ_SLOT 0 3) 3
     let src : Src := .host
     let s : State := slot3 1 up
     let req := Quiet s ∧ Reaches src Reg.BPM_SLOT_REQ (.write v) s
     let n := getF Fld.BPM_SLOT_REQ_SLOT v
     let st := getF Fld.BPM_SLOT_REQ_STATUS v
     (req) ∧ (st = 2 ∨ st = 3) ∧ (boundaryRuns s = false) ∧ (slotState n s = 1)) ∧
    (let v : Word := setF Fld.BPM_SLOT_REQ_STATUS (setF Fld.BPM_SLOT_REQ_SLOT 0 3) 2
     let src : Src := .host
     let s : State := inPhase 3 (slot3 1 up)
     let req := Quiet s ∧ Reaches src Reg.BPM_SLOT_REQ (.write v) s
     let st := getF Fld.BPM_SLOT_REQ_STATUS v
     (req) ∧ (st = 2 ∨ st = 3) ∧ (boundaryRuns s = true)) ∧
    (let v : Word := setF Fld.BPM_SLOT_REQ_STATUS (setF Fld.BPM_SLOT_REQ_SLOT 0 3) 1
     let src : Src := .host
     let s : State := slot3 1 up
     let req := Quiet s ∧ Reaches src Reg.BPM_SLOT_REQ (.write v) s
     let n := getF Fld.BPM_SLOT_REQ_SLOT v
     let st := getF Fld.BPM_SLOT_REQ_STATUS v
     (req) ∧ (st ≠ 2 ∧ st ≠ 3 ∨ (boundaryRuns s = false ∧ slotState n s ≠ 1))) ∧
    (let s : State := inPhase 3 up
     (Working s) ∧ (boundaryRuns s = true)) ∧
    (let s : State := up
     let now := boundaryRuns s = false
     (Working s) ∧ (now) ∧ (freeCount s = 0)) := by
  dsimp only [Acts, Issues, Quiet, Working, Takes, Reaches]
  refine ⟨?_, ?_, ?_, ?_, ?_, ?_, ?_, ?_⟩ <;> decide +kernel

/-- O23, clauses 9 to 16. -/
theorem test_hypotheses_pool_and_buffer_requests_complete_2 :
    (let ok : Bool := true
     let s : State := pool3 up
     let now := boundaryRuns s = false
     (Working s) ∧ (now) ∧ (freeCount s ≠ 0) ∧ (ok = true)) ∧
    (let h : Nat := 9
     let buf : Nat := 1000
     let n : Nat := 2
     let s : State := buf1000 1 9 0 0 (pool3 up)
     let now := boundaryRuns s = false
     let users := bdF buf BD.users s
     let live := isBuf buf s = true ∧ (bdF buf BD.state s = 1 ∨ bdF buf BD.state s = 2) ∧ bdF buf BD.final s = h
     (Working s) ∧ (now) ∧ (live) ∧ (users + n ≤ 255)) ∧
    (let h : Nat := 9
     let buf : Nat := 1000
     let n : Nat := 2
     let s : State := buf1000 2 9 254 0 (pool3 up)
     let now := boundaryRuns s = false
     let users := bdF buf BD.users s
     let live := isBuf buf s = true ∧ (bdF buf BD.state s = 1 ∨ bdF buf BD.state s = 2) ∧ bdF buf BD.final s = h
     (Working s) ∧ (now) ∧ (¬ (live ∧ users + n ≤ 255))) ∧
    (let buf : Nat := 1000
     let s : State := buf1000 2 9 2 1 (pool3 up)
     let now := boundaryRuns s = false
     let users := bdF buf BD.users s
     (Working s) ∧ (now) ∧ (isBuf buf s = true) ∧ (bdF buf BD.state s = 2) ∧ (1 < users)) ∧
    (let buf : Nat := 1000
     let s : State := buf1000 2 9 1 1 (pool3 up)
     let now := boundaryRuns s = false
     let users := bdF buf BD.users s
     (Working s) ∧ (now) ∧ (isBuf buf s = true) ∧ (bdF buf BD.state s = 2) ∧ (users = 1)) ∧
    (let buf : Nat := 1000
     let s : State := buf1000 1 9 1 0 (pool3 up)
     let now := boundaryRuns s = false
     let users := bdF buf BD.users s
     (Working s) ∧ (now) ∧ (¬ (isBuf buf s = true ∧ bdF buf BD.state s = 2 ∧ 0 < users))) ∧
    (let h : Nat := 9
     let buf : Nat := 1000
     let ok : Bool := true
     let s : State := buf1000 1 9 0 0 (pool3 up)
     let now := boundaryRuns s = false
     let live := isBuf buf s = true ∧ (bdF buf BD.state s = 1 ∨ bdF buf BD.state s = 2) ∧ bdF buf BD.final s = h
     (Working s) ∧ (now) ∧ (ok = true) ∧ (live) ∧ (bdF buf BD.freeing s = 0)) ∧
    (let h : Nat := 9
     let buf : Nat := 1000
     let ok : Bool := true
     let s : State := buf1000 2 9 2 1 (pool3 up)
     let now := boundaryRuns s = false
     let live := isBuf buf s = true ∧ (bdF buf BD.state s = 1 ∨ bdF buf BD.state s = 2) ∧ bdF buf BD.final s = h
     (Working s) ∧ (now) ∧ (ok = true) ∧ (¬ (live ∧ bdF buf BD.freeing s = 0))) := by
  dsimp only [Acts, Issues, Quiet, Working, Takes, Reaches]
  refine ⟨?_, ?_, ?_, ?_, ?_, ?_, ?_, ?_⟩ <;> decide +kernel

/-- O24, clauses 1 to 8. -/
theorem test_hypotheses_step_boundaries_run :
    (let v : Word := 0
     let src : Src := .host
     let s : State := { up with cycle := 33 }
     let fin := v ||| maskF Fld.BPM_STEP_END_END
     let asked := Quiet s ∧ Reaches src Reg.BPM_STEP_END (.write fin) s
     let byHand := rdF Reg.BPM_STEP_CTL Fld.BPM_STEP_CTL_MODE s = 0
     let may := s.pool.bnd = none ∧ s.ctxs.step7 = [] ∧ 4 ≤ s.dev ∧ s.dev ≤ 7
     (asked) ∧ (byHand) ∧ (may)) ∧
    (let v : Word := 0
     let src : Src := .host
     let s : State := inPhase 3 up
     let fin := v ||| maskF Fld.BPM_STEP_END_END
     let asked := Quiet s ∧ Reaches src Reg.BPM_STEP_END (.write fin) s
     let byHand := rdF Reg.BPM_STEP_CTL Fld.BPM_STEP_CTL_MODE s = 0
     (asked) ∧ (byHand) ∧ (s.pool.bnd ≠ none)) ∧
    (let v : Word := 0
     let src : Src := .host
     let s : State := wrF Reg.BPM_STEP_CTL Fld.BPM_STEP_CTL_MODE 1 up
     let fin := v ||| maskF Fld.BPM_STEP_END_END
     let asked := Quiet s ∧ Reaches src Reg.BPM_STEP_END (.write fin) s
     let byHand := rdF Reg.BPM_STEP_CTL Fld.BPM_STEP_CTL_MODE s = 0
     (asked) ∧ (¬ byHand)) ∧
    (let s : State := { up with pool := { up.pool with triggers := 2 } }
     let may := s.pool.bnd = none ∧ s.ctxs.step7 = [] ∧ 4 ≤ s.dev ∧ s.dev ≤ 7
     (Working s) ∧ (may) ∧ (0 < s.pool.triggers)) ∧
    (let n : Nat := 3
     let b : Boundary := ⟨3, 9, 0, true, [3, 4], none, []⟩
     let s : State := parks [3, 4] own
     let rest := [4]
     (n < 262144) ∧ (Working s) ∧ (s.pool.bnd = some b) ∧ (b.parking = n :: rest) ∧ (rest ≠ [])) ∧
    (let n : Nat := 3
     let b : Boundary := ⟨3, 9, 0, true, [3], none, []⟩
     let s : State := parks [3] own
     (n < 262144) ∧ (Working s) ∧ (s.pool.bnd = some b) ∧ (b.parking = [n])) ∧
    (let n : Nat := 3
     let j : Join := ⟨1, 0, 0, 0, 55, 7, true⟩
     let b : Boundary := ⟨4, 9, 0, false, [], some (3, ⟨1, 0, 0, 0, 55, 7, true⟩), []⟩
     let s : State := resumes ⟨1, 0, 0, 0, 55, 7, true⟩ own
     (n < 262144) ∧ (Working s) ∧ (s.pool.bnd = some b) ∧ (b.resuming = some (n, j))) ∧
    (let n : Nat := 3
     let b : Boundary := ⟨6, 9, 0, false, [], none, []⟩
     let s : State := inPhase 6 { up with cycle := 5 }
     (n < 262144) ∧ (Working s) ∧ (s.pool.bnd = some b) ∧ (b.phase = 6)) := by
  dsimp only [Acts, Issues, Quiet, Working, Takes, Reaches]
  refine ⟨?_, ?_, ?_, ?_, ?_, ?_, ?_, ?_⟩ <;> decide +kernel

/-- O25, clauses 1 to 8. -/
theorem test_hypotheses_dovetail_control_and_tables_complete_1 :
    (let c : Nat := 15
     let v : Word := 1
     let src : Src := .host
     let s : State := dovOn up
     let ctl := Reaches src Reg.DOV_CTL (.write v) s
     let en := bitF Fld.DOV_CTL_EN v = true
     (c < 16) ∧ (Quiet s) ∧ (ctl) ∧ (en) ∧ (dovRun s = true)) ∧
    (let c : Nat := 15
     let v : Word := 1
     let src : Src := .host
     let s : State := layer3 2 up
     let u := arrived src s
     let ctl := Reaches src Reg.DOV_CTL (.write v) s
     let en := bitF Fld.DOV_CTL_EN v = true
     (c < 16) ∧ (Quiet s) ∧ (ctl) ∧ (en) ∧ (dovRun s = false) ∧ (dovEnableOk u = true)) ∧
    (let c : Nat := 15
     let v : Word := 1
     let src : Src := .host
     let s : State := layer3 1 up
     let u := arrived src s
     let ctl := Reaches src Reg.DOV_CTL (.write v) s
     let en := bitF Fld.DOV_CTL_EN v = true
     (c < 16) ∧ (Quiet s) ∧ (ctl) ∧ (en) ∧ (dovRun s = false) ∧ (dovEnableOk u = false)) ∧
    (let c : Nat := 15
     let v : Word := 0
     let src : Src := .host
     let s : State := dovOn up
     let ctl := Reaches src Reg.DOV_CTL (.write v) s
     let en := bitF Fld.DOV_CTL_EN v = true
     (c < 16) ∧ (Quiet s) ∧ (ctl) ∧ (¬ en)) ∧
    (let c : Nat := 15
     let v : Word := 16384
     let src : Src := .host
     let s : State := dovOn up
     let tok := Reaches src (Reg.DOV_CTX_TOKENS c) (.write v) s
     (c < 16) ∧ (Quiet s) ∧ (tok) ∧ (getF Fld.DOV_CTX_TOKENS_TOKENS v ≤ 16384)) ∧
    (let c : Nat := 15
     let v : Word := 16385
     let src : Src := .host
     let s : State := up
     let tok := Reaches src (Reg.DOV_CTX_TOKENS c) (.write v) s
     (c < 16) ∧ (Quiet s) ∧ (tok) ∧ (16384 < getF Fld.DOV_CTX_TOKENS_TOKENS v)) ∧
    (let v : Word := 0xFFFFFFFFFFFFFFFF
     let src : Src := .host
     let s : State := wr Reg.DOV_LAYER_ADDR 0xFFFFFFFF (layer3 2 up)
     (Quiet s) ∧ (s.priv = false) ∧ (Reaches src Reg.DOV_LAYER_DATA (.write v) s)) ∧
    (let v : Word := 0xFFFFFFFFFFFFFFFF
     let src : Src := .host
     let s : State := wr Reg.DOV_SEL_ADDR 0xFFFFFFFF (layer3 2 up)
     (Quiet s) ∧ (s.priv = false) ∧ (Reaches src Reg.DOV_SEL_DATA (.write v) s)) := by
  dsimp only [Acts, Issues, Quiet, Working, Takes, Reaches]
  refine ⟨?_, ?_, ?_, ?_, ?_, ?_, ?_, ?_⟩ <;> decide +kernel

/-- O25, clauses 9 to 11. -/
theorem test_hypotheses_dovetail_control_and_tables_complete_2 :
    (let v : Word := 0xFFFFFFFFFFFFFFFF
     let src : Src := .host
     let s : State := wr Reg.DOV_DISP_ADDR 0xFFFFFFFF (layer3 2 up)
     (Quiet s) ∧ (s.priv = false) ∧ (Reaches src Reg.DOV_DISP_DATA (.write v) s)) ∧
    (let v : Word := 0xFFFFFFFFFFFFFFFF
     let src : Src := .host
     let s : State := wr Reg.DOV_MAP_ADDR 0xFFFFFFFF (layer3 2 up)
     (Quiet s) ∧ (s.priv = false) ∧ (Reaches src Reg.DOV_MAP_DATA (.write v) s)) ∧
    (let v : Word := 0xFFFFFFFFFFFFFFFF
     let src : Src := .host
     let s : State := wr Reg.DOV_LOC_ADDR 0xFFFFFFFF (layer3 2 up)
     (Quiet s) ∧ (s.priv = false) ∧ (Reaches src Reg.DOV_LOC_DATA (.write v) s)) := by
  dsimp only [Acts, Issues, Quiet, Working, Takes, Reaches]
  refine ⟨?_, ?_, ?_⟩ <;> decide +kernel

/-- O26, clauses 1 to 4. -/
theorem test_hypotheses_layers_run :
    (let d : Nat := 3
     let c : Nat := 0
     let x : DovDesc := desc3x 2
     let s : State := inStep (desc3x 2) (layer3 4 ( own))
     let skips := lyF d 0 Fld.LAYER0_LAYER_SKIP s = 1
     (Working s) ∧ (dovDesc d s = some x) ∧ (x.started = none) ∧ (startCycle x s = some c) ∧ (ctxState x.ctx s = 1) ∧ (bitAt s.glueHold x.ctx = false) ∧ (¬ skips) ∧ (x.num ≠ 0)) ∧
    (let d : Nat := 3
     let c : Nat := 0
     let x : DovDesc := desc3x 2
     let s : State := layerW Fld.LAYER0_LAYER_SKIP 1 (inStep (desc3x 2) (layer3 4 ( own)))
     let skips := lyF d 0 Fld.LAYER0_LAYER_SKIP s = 1
     (Working s) ∧ (dovDesc d s = some x) ∧ (x.started = none) ∧ (startCycle x s = some c) ∧ (ctxState x.ctx s = 1) ∧ (bitAt s.glueHold x.ctx = false) ∧ (skips ∨ x.num = 0)) ∧
    (let d : Nat := 3
     let t : Nat := 0
     let x : DovDesc := { desc3x 1 with started := some 5, toks := [tok0 0 false true] }
     let k : DovTok := tok0 0 false true
     let s : State := inStep ({ desc3x 1 with started := some 5, toks := [tok0 0 false true] }) (layer3 4 ( own))
     (Working s) ∧ (dovDesc d s = some x) ∧ (x.toks.find? (fun k => k.t == t && k.formed) = some k) ∧ (x.walked = t) ∧ (x.done = none)) ∧
    (let l : Nat := 5
     let x : DovX := exch ent5
     let e : DovEnt := ent5
     let s : State := local5 (sem8 2 0 { own with dov := { Dov.empty with xs := [exch ent5] } })
     let sem := lcF' l 2 Fld.LOC2_RSEM s
     let num := lcF' l 2 Fld.LOC2_RNUM s
     (Working s) ∧ (entNow l s = some (x, e)) ∧ (x.final = true) ∧ (e.left = some 0) ∧ (e.rows ≠ []) ∧ (e.asked = false) ∧ (num ≤ semValue sem s) ∧ (ctxState x.ctx s = 1)) := by
  dsimp only [Acts, Issues, Quiet, Working, Takes, Reaches]
  refine ⟨?_, ?_, ?_, ?_⟩ <;> decide +kernel

/-- O27, clause 1. -/
theorem test_hypotheses_scores_are_selected_1 :
    (let b : Nat := 0
     let q : Nat := 0
     let c : Nat := 1
     let r : Run := run5
     let s : State := toPort 0 (both4 1 (inStep ({ desc3x 1 with started := some 5 }) (layer3 4 ( own))))
     let f := fdescOf b r.op.aux s
     let p := getF Fld.FDESC_ENDPOINT f - 0x600
     let kind := getF Fld.FDESC_REMOTE f
     let x := benchTile b (r.op.tile + r.prog) s
     let lastSlot := (slotsFrom (getF Fld.FDESC_SLOTS f) (16 * (r.prog + 1)) r.start).getLastD r.start
     let u := setMove b q r (some { r with prog := r.prog + 1 }) (advanceTo (lastSlot + floorLatency f) s)
     let owned := (upto 16).find? (fun k => bitAt (dovPorts k s) p) = some c
     let wants := fun (y : DovDesc) => y.ctx = c ∧ y.done = none ∧ tilesTaken y kind < tilesWanted y kind s
     let first := fun (y : DovDesc) => ∃ before after, s.dov.descs = before ++ y :: after ∧ wants y ∧ ∀ z ∈ before, ¬ wants z
     let good := tagF Fld.TAG_CRC x.tag = crc32c x.payload ∧ tagF Fld.TAG_FORMAT x.tag = fmtFP32
     let y := { desc3x 1 with started := some 5 }
     (Acts b q s) ∧ (dovMove b q s = some r) ∧ (s.sbad.contains (btKey b (r.op.tile + r.prog)) = false) ∧ (owned) ∧ (ctxState c s = 1) ∧ (kind ≤ 32) ∧ (first y) ∧ (good) ∧ (shareUsed c u < storeShare c s)) := by
  dsimp only [Acts, Issues, Quiet, Working, Takes, Reaches]
  refine ⟨?_, ?_, ?_, ?_, ?_, ?_, ?_, ?_, ?_⟩
  · decide +kernel
  · decide +kernel
  · decide +kernel
  · decide +kernel
  · decide +kernel
  · decide +kernel
  · exact ⟨[], [], by decide +kernel⟩
  · decide +kernel
  · decide +kernel

/-- O27, clause 2. -/
theorem test_hypotheses_scores_are_selected_2 :
    (let b : Nat := 0
     let q : Nat := 0
     let c : Nat := 1
     let r : Run := run5
     let s : State := toPort 0 (both4 2 (inStep ({ desc3x 1 with started := some 5 }) (layer3 4 ( own))))
     let f := fdescOf b r.op.aux s
     let p := getF Fld.FDESC_ENDPOINT f - 0x600
     let kind := getF Fld.FDESC_REMOTE f
     let x := benchTile b (r.op.tile + r.prog) s
     let owned := (upto 16).find? (fun k => bitAt (dovPorts k s) p) = some c
     let wants := fun (y : DovDesc) => y.ctx = c ∧ y.done = none ∧ tilesTaken y kind < tilesWanted y kind s
     let first := fun (y : DovDesc) => ∃ before after, s.dov.descs = before ++ y :: after ∧ wants y ∧ ∀ z ∈ before, ¬ wants z
     let good := tagF Fld.TAG_CRC x.tag = crc32c x.payload ∧ tagF Fld.TAG_FORMAT x.tag = fmtFP32
     let y := { desc3x 1 with started := some 5 }
     (Acts b q s) ∧ (dovMove b q s = some r) ∧ (s.sbad.contains (btKey b (r.op.tile + r.prog)) = false) ∧ (owned) ∧ (ctxState c s = 1) ∧ (kind ≤ 32) ∧ (first y) ∧ (¬ good)) := by
  dsimp only [Acts, Issues, Quiet, Working, Takes, Reaches]
  refine ⟨?_, ?_, ?_, ?_, ?_, ?_, ?_, ?_⟩
  · decide +kernel
  · decide +kernel
  · decide +kernel
  · decide +kernel
  · decide +kernel
  · decide +kernel
  · exact ⟨[], [], by decide +kernel⟩
  · decide +kernel

/-- O27, clause 3. -/
theorem test_hypotheses_scores_are_selected_3 :
    (let b : Nat := 0
     let q : Nat := 0
     let c : Nat := 1
     let r : Run := run5
     let s : State := toPort 0 (both4 1 (inStep ({ desc3x 1 with started := some 5 }) (layer3 0 ( own))))
     let f := fdescOf b r.op.aux s
     let p := getF Fld.FDESC_ENDPOINT f - 0x600
     let kind := getF Fld.FDESC_REMOTE f
     let x := benchTile b (r.op.tile + r.prog) s
     let lastSlot := (slotsFrom (getF Fld.FDESC_SLOTS f) (16 * (r.prog + 1)) r.start).getLastD r.start
     let u := setMove b q r (some { r with prog := r.prog + 1 }) (advanceTo (lastSlot + floorLatency f) s)
     let owned := (upto 16).find? (fun k => bitAt (dovPorts k s) p) = some c
     let wants := fun (y : DovDesc) => y.ctx = c ∧ y.done = none ∧ tilesTaken y kind < tilesWanted y kind s
     let first := fun (y : DovDesc) => ∃ before after, s.dov.descs = before ++ y :: after ∧ wants y ∧ ∀ z ∈ before, ¬ wants z
     let good := tagF Fld.TAG_CRC x.tag = crc32c x.payload ∧ tagF Fld.TAG_FORMAT x.tag = fmtFP32
     let y := { desc3x 1 with started := some 5 }
     (Acts b q s) ∧ (dovMove b q s = some r) ∧ (s.sbad.contains (btKey b (r.op.tile + r.prog)) = false) ∧ (owned) ∧ (ctxState c s = 1) ∧ (kind ≤ 32) ∧ (first y) ∧ (good) ∧ (storeShare c s ≤ shareUsed c u)) := by
  dsimp only [Acts, Issues, Quiet, Working, Takes, Reaches]
  refine ⟨?_, ?_, ?_, ?_, ?_, ?_, ?_, ?_, ?_⟩
  · decide +kernel
  · decide +kernel
  · decide +kernel
  · decide +kernel
  · decide +kernel
  · decide +kernel
  · exact ⟨[], [], by decide +kernel⟩
  · decide +kernel
  · decide +kernel

/-- O27, clauses 4 to 7. -/
theorem test_hypotheses_scores_are_selected_4 :
    (let b : Nat := 0
     let q : Nat := 0
     let c : Nat := 1
     let r : Run := run5
     let s : State := setDv (fun v => { v with disc := [1] }) (toPort 33 (both4 1 (inStep ({ desc3x 1 with started := some 5 }) (layer3 4 ( own)))))
     let f := fdescOf b r.op.aux s
     let p := getF Fld.FDESC_ENDPOINT f - 0x600
     let kind := getF Fld.FDESC_REMOTE f
     let owned := (upto 16).find? (fun k => bitAt (dovPorts k s) p) = some c
     let wants := fun (y : DovDesc) => y.ctx = c ∧ y.done = none ∧ tilesTaken y kind < tilesWanted y kind s
     (Acts b q s) ∧ (dovMove b q s = some r) ∧ (s.sbad.contains (btKey b (r.op.tile + r.prog)) = false) ∧ (owned) ∧ (ctxState c s ≠ 1 ∨ 32 < kind ∨ (∀ y ∈ s.dov.descs, ¬ wants y)) ∧ (s.dov.disc.contains c = true)) ∧
    (let b : Nat := 0
     let q : Nat := 0
     let r : Run := run5
     let s : State := wr (Reg.DOV_CTX_PORTS 1) 2 (toPort 0 (both4 1 (inStep ({ desc3x 1 with started := some 5 }) (layer3 4 ( own)))))
     let f := fdescOf b r.op.aux s
     let p := getF Fld.FDESC_ENDPOINT f - 0x600
     (Acts b q s) ∧ (dovMove b q s = some r) ∧ (s.sbad.contains (btKey b (r.op.tile + r.prog)) = false) ∧ ((upto 16).find? (fun k => bitAt (dovPorts k s) p) = none)) ∧
    (let d : Nat := 3
     let t : Nat := 0
     let c0 : Nat := 5
     let c1 : Nat := 0
     let x : DovDesc := { desc3x 1 with started := some 5, cnt := [(0, 1)], store := [(0, 0, ⟨BitVec.ofNat 128 (zeroCrc + 2 ^ 32), zeros⟩)] }
     let s : State := inStep ({ desc3x 1 with started := some 5, cnt := [(0, 1)], store := [(0, 0, ⟨BitVec.ofNat 128 (zeroCrc + 2 ^ 32), zeros⟩)] }) (layer3 4 ( own))
     let n := (gauges x.ctx s).length
     let free := if t < n then some 0 else (x.toks.find? (fun k => k.t + n == t)).map (·.readEnd)
     (Working s) ∧ (dovDesc d s = some x) ∧ (x.started = some c0) ∧ (free = some c1) ∧ (x.done = none) ∧ (0 < n) ∧ (t < x.num) ∧ ((∀ y ∈ x.toks, y.t ≠ t)) ∧ (groupReady x t s = true)) ∧
    (let d : Nat := 3
     let t : Nat := 0
     let x : DovDesc := { desc3x 1 with started := some 5, toks := [tok0 0 false false] }
     let s : State := inStep ({ desc3x 1 with started := some 5, toks := [tok0 0 false false] }) (layer3 4 ( own))
     let k := lyF d 0 Fld.LAYER0_K s
     let y := tok0 0 false false
     (Working s) ∧ (dovDesc d s = some x) ∧ (x.toks.find? (fun k => k.t == t && !k.formed) = some y)) := by
  dsimp only [Acts, Issues, Quiet, Working, Takes, Reaches]
  refine ⟨?_, ?_, ?_, ?_⟩ <;> decide +kernel

/-- O28, clauses 1 to 7. -/
theorem test_hypotheses_dovetail_transfers_land :
    (let j : Nat := 0
     let z : DovXfer := ⟨3, 0, 0, 5, 60, .inbox 5 [1, 2]⟩
     let x : DovX := exch { ent5 with left := some 2 }
     let s : State := local5 (both4 1 { layer3 4 own with dov := { Dov.empty with xs := [exch { ent5 with left := some 2 }], xfers := [⟨3, 0, 0, 5, 60, .inbox 5 [1, 2]⟩] } })
     let l := 5
     let p := [1, 2]
     let e := { ent5 with left := some 2 }
     (Working s) ∧ (s.dov.xfers[j]? = some z) ∧ (dovX z.d z.step s = some x) ∧ (z.use = .inbox l p) ∧ (x.ents.find? (fun y => y.l == l) = some e)) ∧
    (let j : Nat := 0
     let z : DovXfer := ⟨3, 0, 0, 5, 60, .source⟩
     let x : DovX := { exch ent5 with srcLeft := 2 }
     let s : State := local5 (both4 2 { layer3 4 own with dov := { Dov.empty with xs := [{ exch ent5 with srcLeft := 2 }], xfers := [⟨3, 0, 0, 5, 60, .source⟩] } })
     let good := fun (fmt : Nat) => z.btile < 384 ∧ checkOk z.bench z.btile s = true ∧
           tagF Fld.TAG_FORMAT (benchTag z.bench z.btile s) = fmt
     (Working s) ∧ (s.dov.xfers[j]? = some z) ∧ (dovX z.d z.step s = some x) ∧ (z.use = .source) ∧ (good (partFmt z.d 0 s)) ∧ (x.srcLeft ≠ 1) ∧ (x.srcLeft ≠ 0)) ∧
    (let j : Nat := 0
     let z : DovXfer := ⟨3, 0, 0, 5, 60, .source⟩
     let x : DovX := { exch ent5 with srcLeft := 1 }
     let s : State := local5 (both4 2 { layer3 4 own with dov := { Dov.empty with xs := [{ exch ent5 with srcLeft := 1 }], xfers := [⟨3, 0, 0, 5, 60, .source⟩] } })
     let good := fun (fmt : Nat) => z.btile < 384 ∧ checkOk z.bench z.btile s = true ∧
           tagF Fld.TAG_FORMAT (benchTag z.bench z.btile s) = fmt
     (Working s) ∧ (s.dov.xfers[j]? = some z) ∧ (dovX z.d z.step s = some x) ∧ (z.use = .source) ∧ (good (partFmt z.d 0 s)) ∧ (x.srcLeft = 1)) ∧
    (let j : Nat := 0
     let z : DovXfer := ⟨3, 0, 0, 5, 60, .outbox 5⟩
     let x : DovX := exch { ent5 with asked := true, toRead := 2 }
     let s : State := local5 (both4 2 { layer3 4 own with dov := { Dov.empty with xs := [exch { ent5 with asked := true, toRead := 2 }], xfers := [⟨3, 0, 0, 5, 60, .outbox 5⟩] } })
     let good := fun (fmt : Nat) => z.btile < 384 ∧ checkOk z.bench z.btile s = true ∧
           tagF Fld.TAG_FORMAT (benchTag z.bench z.btile s) = fmt
     let l := 5
     let e := { ent5 with asked := true, toRead := 2 }
     (Working s) ∧ (s.dov.xfers[j]? = some z) ∧ (dovX z.d z.step s = some x) ∧ (z.use = .outbox l) ∧ (good (partFmt z.d 1 s)) ∧ (x.ents.find? (fun y => y.l == l) = some e) ∧ (1 < e.toRead)) ∧
    (let j : Nat := 0
     let z : DovXfer := ⟨3, 0, 0, 5, 60, .output [1, 2] 3⟩
     let x : DovX := exch ent5
     let s : State := local5 (both4 1 { layer3 4 own with dov := { Dov.empty with xs := [exch ent5], xfers := [⟨3, 0, 0, 5, 60, .output [1, 2] 3⟩] } })
     let p := [1, 2]
     let fl := 3
     (Working s) ∧ (s.dov.xfers[j]? = some z) ∧ (dovX z.d z.step s = some x) ∧ (z.use = .output p fl)) ∧
    (let j : Nat := 0
     let z : DovXfer := ⟨3, 0, 0, 400, 60, .source⟩
     let x : DovX := { exch ent5 with srcLeft := 1 }
     let s : State := local5 (both4 1 { layer3 4 own with dov := { Dov.empty with xs := [{ exch ent5 with srcLeft := 1 }], xfers := [⟨3, 0, 0, 400, 60, .source⟩] } })
     (Working s) ∧ (s.dov.xfers[j]? = some z) ∧ (dovX z.d z.step s = some x) ∧ (z.use = .source) ∧ (384 ≤ z.btile)) ∧
    (let j : Nat := 0
     let z : DovXfer := ⟨3, 0, 0, 384, 60, .outbox 5⟩
     let x : DovX := exch { ent5 with asked := true, toRead := 2 }
     let s : State := local5 (both4 1 { layer3 4 own with dov := { Dov.empty with xs := [exch { ent5 with asked := true, toRead := 2 }], xfers := [⟨3, 0, 0, 384, 60, .outbox 5⟩] } })
     let l := 5
     (Working s) ∧ (s.dov.xfers[j]? = some z) ∧ (dovX z.d z.step s = some x) ∧ (z.use = .outbox l) ∧ (384 ≤ z.btile)) := by
  dsimp only [Acts, Issues, Quiet, Working, Takes, Reaches]
  refine ⟨?_, ?_, ?_, ?_, ?_, ?_, ?_⟩ <;> decide +kernel

/-- O29, clauses 1 to 7. -/
theorem test_hypotheses_port_control_completes :
    (let n : Nat := 2
     let v : Word := 0x19
     let src : Src := .host
     let s : State := up
     let at' := fun (m : Word) => Reaches src (Reg.FAB_PORT_CTL n) (.write m) s
     let bit := fun (f : Fld) => getF f v = 1
     let quietly := ¬ bit Fld.FAB_PORT_CTL_RESET ∧ ¬ bit Fld.FAB_PORT_CTL_RETRAIN
     (n < 16) ∧ (Quiet s) ∧ (fabricOn s = true) ∧ (s.priv = false) ∧ (at' v) ∧ (quietly) ∧ (bit Fld.FAB_PORT_CTL_ENABLE) ∧ (portState n s = 0)) ∧
    (let n : Nat := 2
     let v : Word := 0x11
     let src : Src := .host
     let s : State := port 2 5 3 (fun p => p) up
     let at' := fun (m : Word) => Reaches src (Reg.FAB_PORT_CTL n) (.write m) s
     let bit := fun (f : Fld) => getF f v = 1
     let quietly := ¬ bit Fld.FAB_PORT_CTL_RESET ∧ ¬ bit Fld.FAB_PORT_CTL_RETRAIN
     (n < 16) ∧ (Quiet s) ∧ (fabricOn s = true) ∧ (s.priv = false) ∧ (at' v) ∧ (quietly) ∧ (bit Fld.FAB_PORT_CTL_ENABLE) ∧ (portState n s ≠ 0)) ∧
    (let n : Nat := 2
     let v : Word := 0x10
     let src : Src := .host
     let s : State := port 2 5 3 (fun p => p) up
     let at' := fun (m : Word) => Reaches src (Reg.FAB_PORT_CTL n) (.write m) s
     let bit := fun (f : Fld) => getF f v = 1
     (n < 16) ∧ (Quiet s) ∧ (fabricOn s = true) ∧ (s.priv = false) ∧ (at' v) ∧ (¬ bit Fld.FAB_PORT_CTL_ENABLE) ∧ (portState n s ≠ 0)) ∧
    (let n : Nat := 2
     let v : Word := 1
     let src : Src := .host
     let s : State := port 2 7 0 (fun p => p) up
     let at' := fun (m : Word) => Reaches src (Reg.FAB_PORT_CTL n) (.write m) s
     let bit := fun (f : Fld) => getF f v = 1
     let reset := v ||| maskF Fld.FAB_PORT_CTL_RESET
     (n < 16) ∧ (Quiet s) ∧ (fabricOn s = true) ∧ (s.priv = false) ∧ (at' reset) ∧ (¬ bit Fld.FAB_PORT_CTL_RETRAIN) ∧ (bit Fld.FAB_PORT_CTL_ENABLE) ∧ (portState n s ≠ 0)) ∧
    (let n : Nat := 2
     let v : Word := 1
     let src : Src := .host
     let s : State := port 2 5 1 (fun p => p) up
     let at' := fun (m : Word) => Reaches src (Reg.FAB_PORT_CTL n) (.write m) s
     let bit := fun (f : Fld) => getF f v = 1
     let retrain := v ||| maskF Fld.FAB_PORT_CTL_RETRAIN
     (n < 16) ∧ (Quiet s) ∧ (fabricOn s = true) ∧ (s.priv = false) ∧ (at' retrain) ∧ (¬ bit Fld.FAB_PORT_CTL_RESET) ∧ (bit Fld.FAB_PORT_CTL_ENABLE) ∧ (portState n s = 5)) ∧
    (let n : Nat := 2
     let v : Word := 0xFFFFFFFFFFFFFFFF
     let src : Src := .host
     let s : State := port 2 7 0 (fun p => p) up
     (n < 16) ∧ (Quiet s) ∧ (fabricOn s = true) ∧ (s.priv = false) ∧ (Reaches src (Reg.FAB_LINK_CFG n) (.write v) s) ∧ (portState n s = 0 ∨ portState n s = 7)) ∧
    (let n : Nat := 2
     let v : Word := 1
     let src : Src := .host
     let s : State := port 2 1 0 (fun p => p) up
     (n < 16) ∧ (Quiet s) ∧ (fabricOn s = true) ∧ (s.priv = false) ∧ (Reaches src (Reg.FAB_LINK_CFG n) (.write v) s) ∧ (portState n s ≠ 0) ∧ (portState n s ≠ 7)) := by
  dsimp only [Acts, Issues, Quiet, Working, Takes, Reaches]
  refine ⟨?_, ?_, ?_, ?_, ?_, ?_, ?_⟩ <;> decide +kernel

/-- O30, clauses 1 to 8. -/
theorem test_hypotheses_port_trains_1 :
    (let n : Nat := 0
     let half : Nat := 1
     let s : State := port 0 1 0 (fun p => { p with cblOn := true }) (up)
     let p := portOf n s
     let st := portState n s
     (n < 16) ∧ (Working s) ∧ (half < 2) ∧ (st = 1) ∧ (p.cblOn = true)) ∧
    (let n : Nat := 0
     let half : Nat := 1
     let s : State := port 0 1 0 (fun p => { p with cblOn := false }) (up)
     let p := portOf n s
     let st := portState n s
     (n < 16) ∧ (Working s) ∧ (half < 2) ∧ (st = 1) ∧ (p.cblOn = false)) ∧
    (let n : Nat := 0
     let s : State := port 0 2 0 (fun p => p) (up)
     let p := portOf n s
     let st := portState n s
     (n < 16) ∧ (Working s) ∧ (st = 2) ∧ (s.cycle ≤ p.entered + msCycles 50)) ∧
    (let n : Nat := 0
     let s : State := port 0 2 0 (fun p => p) (up)
     let st := portState n s
     let wide := pcBit n Fld.FAB_PORT_CTL_MINW s = false
     (n < 16) ∧ (Working s) ∧ (st = 2) ∧ (wide)) ∧
    (let n : Nat := 0
     let s : State := port 0 2 0 (fun p => p) (up)
     let st := portState n s
     let wide := pcBit n Fld.FAB_PORT_CTL_MINW s = false
     (n < 16) ∧ (Working s) ∧ (st = 2) ∧ (wide)) ∧
    (let n : Nat := 0
     let s : State := port 0 2 0 (fun p => p) (up)
     let st := portState n s
     (n < 16) ∧ (Working s) ∧ (st = 2)) ∧
    (let n : Nat := 0
     let ident : Word := slot2 2 4
     let s : State := port 0 3 0 (fun p => p) (self9 up)
     let p := portOf n s
     let st := portState n s
     let timely := selfValid s = true ∧ s.cycle ≤ p.entered + msCycles 1
     (n < 16) ∧ (Working s) ∧ (st = 3) ∧ (timely) ∧ (partnerOk n ident s = true) ∧ (versionOk n ident = true)) ∧
    (let n : Nat := 0
     let ident : Word := slot2 2 4 ^^^ 0x100000000
     let s : State := port 0 3 0 (fun p => p) (self9 up)
     let p := portOf n s
     let st := portState n s
     let timely := selfValid s = true ∧ s.cycle ≤ p.entered + msCycles 1
     (n < 16) ∧ (Working s) ∧ (st = 3) ∧ (timely) ∧ (partnerOk n ident s = false)) := by
  dsimp only [Acts, Issues, Quiet, Working, Takes, Reaches]
  refine ⟨?_, ?_, ?_, ?_, ?_, ?_, ?_, ?_⟩ <;> decide +kernel

/-- O30, clauses 9 to 13. -/
theorem test_hypotheses_port_trains_2 :
    (let n : Nat := 0
     let ident : Word := slot2 4 5
     let s : State := port 0 3 0 (fun p => p) (self9 up)
     let p := portOf n s
     let st := portState n s
     let timely := selfValid s = true ∧ s.cycle ≤ p.entered + msCycles 1
     (n < 16) ∧ (Working s) ∧ (st = 3) ∧ (timely) ∧ (partnerOk n ident s = true) ∧ (versionOk n ident = false)) ∧
    (let n : Nat := 0
     let s : State := port 0 3 0 (fun p => p) (up)
     let st := portState n s
     (n < 16) ∧ (Working s) ∧ (st = 3)) ∧
    (let n : Nat := 0
     let s : State := port 0 4 0 (fun p => p) (up)
     let st := portState n s
     (n < 16) ∧ (Working s) ∧ (st = 4)) ∧
    (let n : Nat := 0
     let s : State := port 0 4 0 (fun p => { p with adv := [(0, 3)] }) (up)
     let p := portOf n s
     let st := portState n s
     (n < 16) ∧ (Working s) ∧ (st = 4) ∧ (s.cycle ≤ p.entered + msCycles 1)) ∧
    (let n : Nat := 0
     let s : State := wrF (Reg.FAB_PORT_CTL 0) Fld.FAB_PORT_CTL_AUTO 1 (port 0 7 0 (fun p => p) (up))
     let st := portState n s
     (n < 16) ∧ (Working s) ∧ (st = 7) ∧ (pcBit n Fld.FAB_PORT_CTL_AUTO s = true)) := by
  dsimp only [Acts, Issues, Quiet, Working, Takes, Reaches]
  refine ⟨?_, ?_, ?_, ?_, ?_⟩ <;> decide +kernel

/-- O31, clauses 1 to 8. -/
theorem test_hypotheses_port_retrains_1 :
    (let n : Nat := 0
     let l : Nat := 5
     let s : State := port 0 5 1 (fun p => { p with retry := [(4, ⟨1, true, true, [7]⟩)] }) (up)
     let st := portState n s
     (n < 16) ∧ (l < 8) ∧ (Working s) ∧ (st = 5)) ∧
    (let n : Nat := 0
     let l : Nat := 5
     let s : State := port 0 6 3 (fun p => { p with retry := [(4, ⟨1, true, true, [7]⟩)] }) (up)
     let p := portOf n s
     let st := portState n s
     (n < 16) ∧ (l < 8) ∧ (Working s) ∧ (st = 6) ∧ (s.cycle ≤ p.entered + 17000)) ∧
    (let n : Nat := 0
     let l : Nat := 5
     let s : State := port 0 6 3 (fun p => { p with fallback := 2 }) (up)
     let p := portOf n s
     let st := portState n s
     (n < 16) ∧ (l < 8) ∧ (Working s) ∧ (st = 6) ∧ (p.tries + 1 < lcF n Fld.FAB_LINK_CFG_ATTEMPTS s)) ∧
    (let n : Nat := 0
     let l : Nat := 5
     let s : State := port 0 6 3 (fun p => { p with tries := 4000 }) (up)
     let p := portOf n s
     let st := portState n s
     (n < 16) ∧ (l < 8) ∧ (Working s) ∧ (st = 6) ∧ (lcF n Fld.FAB_LINK_CFG_ATTEMPTS s ≤ p.tries + 1)) ∧
    (let n : Nat := 0
     let l : Nat := 5
     let s : State := port 0 5 1 (fun p => p) (up)
     let st := portState n s
     let active := st = 5 ∧ bitAt (widthLanes (widthCode n s)) l = true
     (n < 16) ∧ (l < 8) ∧ (Working s) ∧ (¬ active)) ∧
    (let n : Nat := 0
     let l : Nat := 5
     let s : State := port 0 5 3 (fun p => p) (up)
     let st := portState n s
     let bad := badLanes n s ||| 2 ^ l
     let active := st = 5 ∧ bitAt (widthLanes (widthCode n s)) l = true
     let narrow := pcBit n Fld.FAB_PORT_CTL_MINW s = true ∨ (bad % 16 ≠ 0 ∧ bad / 16 ≠ 0)
     (n < 16) ∧ (l < 8) ∧ (Working s) ∧ (active) ∧ (¬ narrow)) ∧
    (let n : Nat := 0
     let l : Nat := 5
     let s : State := psW 0 Fld.FAB_PORT_STATUS_BAD 0x0F (port 0 5 2 (fun p => p) (up))
     let st := portState n s
     let bad := badLanes n s ||| 2 ^ l
     let active := st = 5 ∧ bitAt (widthLanes (widthCode n s)) l = true
     let narrow := pcBit n Fld.FAB_PORT_CTL_MINW s = true ∨ (bad % 16 ≠ 0 ∧ bad / 16 ≠ 0)
     (n < 16) ∧ (l < 8) ∧ (Working s) ∧ (active) ∧ (narrow)) ∧
    (let n : Nat := 0
     let l : Nat := 5
     let s : State := port 0 5 3 (fun p => p) (up)
     (n < 16) ∧ (l < 8) ∧ (Working s)) := by
  dsimp only [Acts, Issues, Quiet, Working, Takes, Reaches]
  refine ⟨?_, ?_, ?_, ?_, ?_, ?_, ?_, ?_⟩ <;> decide +kernel

/-- O31, clause 9. -/
theorem test_hypotheses_port_retrains_2 :
    (let n : Nat := 0
     let l : Nat := 5
     let s : State := up
     (n < 16) ∧ (l < 8) ∧ (Working s) ∧ (powerGood s = true)) := by
  dsimp only [Acts, Issues, Quiet, Working, Takes, Reaches]
  decide +kernel

/-- O32, clause 1. -/
theorem test_hypotheses_port_carries_blocks_1 :
    (let n : Nat := 0
     let s : State := port 0 5 3 (fun p => { p with nakOwed := true }) (up)
     (n < 16) ∧ (Working s) ∧ (portState n s = 5)) := by
  dsimp only [Acts, Issues, Quiet, Working, Takes, Reaches]
  decide +kernel

/-- O32, clause 2. -/
theorem test_hypotheses_port_carries_blocks_2 :
    (let n : Nat := 0
     let bytes : List Byte := List.replicate 800 0
     let s : State := port 0 5 3 (fun p => p) (up)
     let p := portOf n s
     let raw := scramble (laneNum n s) p.rxPrbs bytes
     let got := bytes.length = 800
     (n < 16) ∧ (Working s) ∧ (portState n s = 5) ∧ (got) ∧ (fecDecode raw.1 = none)) := by
  dsimp only [Acts, Issues, Quiet, Working, Takes, Reaches]
  decide +kernel

/-- O32, clause 3. -/
theorem test_hypotheses_port_carries_blocks_3 :
    (let n : Nat := 0
     let bytes : List Byte := (scramble 8 Port.reset.rxPrbs (List.replicate 800 0)).1
     let s : State := port 0 5 3 (fun p => p) (up)
     let p := portOf n s
     let raw := scramble (laneNum n s) p.rxPrbs bytes
     let got := bytes.length = 800
     let fl := List.replicate 768 0
     let fixed := ([] : List Nat)
     (n < 16) ∧ (Working s) ∧ (portState n s = 5) ∧ (got) ∧ (fecDecode raw.1 = some (fl, fixed))) := by
  dsimp only [Acts, Issues, Quiet, Working, Takes, Reaches]
  refine ⟨?_, ?_, ?_, ?_, ?_⟩
  · decide +kernel
  · decide +kernel
  · decide +kernel
  · decide +kernel
  · exact fec_clean (by decide +kernel) (by decide +kernel)

/-- O32, clause 4. -/
theorem test_hypotheses_port_carries_blocks_4 :
    (let n : Nat := 0
     let seq : Nat := 4
     let f : Flit := ⟨1, true, true, [7]⟩
     let rest : List (Nat × Flit) := []
     let s : State := port 0 5 3 (fun p => { p with retry := [(4, ⟨1, true, true, [7]⟩)] }) (up)
     let p := portOf n s
     (n < 16) ∧ (Working s) ∧ (portState n s = 5) ∧ (p.retry = (seq, f) :: rest)) := by
  dsimp only [Acts, Issues, Quiet, Working, Takes, Reaches]
  decide +kernel

/-- O32, clause 5. -/
theorem test_hypotheses_port_carries_blocks_5 :
    (let n : Nat := 0
     let t0 : Nat := 9
     let s : State := port 0 5 3 (fun p => { p with nakWait := some 9 }) (up)
     let p := portOf n s
     (n < 16) ∧ (Working s) ∧ (portState n s = 5) ∧ (p.nakWait = some t0)) := by
  dsimp only [Acts, Issues, Quiet, Working, Takes, Reaches]
  decide +kernel

/-- O32, clause 6. -/
theorem test_hypotheses_port_carries_blocks_6 :
    (let n : Nat := 0
     let s : State := port 0 6 3 (fun p => p) (up)
     (n < 16) ∧ (Working s) ∧ (portState n s ≠ 5)) := by
  dsimp only [Acts, Issues, Quiet, Working, Takes, Reaches]
  decide +kernel

/-- O33, clauses 1 to 3. -/
theorem test_hypotheses_jobs_start_and_end_1 :
    (let v : Word := 0
     let src : Src := .host
     let s : State := job up
     let go := v ||| maskF Fld.FAB_JOB_CTL_START
     let asked := Quiet s ∧ Reaches src Reg.FAB_JOB_CTL (.write go) s ∧ bitF Fld.FAB_JOB_CTL_TEARDOWN v = false
     let free := s.xport.start = none ∧ jobState s = 0
     (asked) ∧ (¬ free)) ∧
    (let v : Word := 0
     let src : Src := .host
     let s : State := up
     let go := v ||| maskF Fld.FAB_JOB_CTL_START
     let k := rdF Reg.FAB_START Fld.FAB_START_KEY s
     let asked := Quiet s ∧ Reaches src Reg.FAB_JOB_CTL (.write go) s ∧ bitF Fld.FAB_JOB_CTL_TEARDOWN v = false
     let free := s.xport.start = none ∧ jobState s = 0
     (asked) ∧ (free) ∧ (k = 0)) ∧
    (let v : Word := 0
     let src : Src := .host
     let s : State := names 6 65535 (wrF Reg.FAB_JOB Fld.FAB_JOB_KEY 6 up)
     let go := v ||| maskF Fld.FAB_JOB_CTL_START
     let k := rdF Reg.FAB_START Fld.FAB_START_KEY s
     let e := rdF Reg.FAB_START Fld.FAB_START_EPOCH s
     let asked := Quiet s ∧ Reaches src Reg.FAB_JOB_CTL (.write go) s ∧ bitF Fld.FAB_JOB_CTL_TEARDOWN v = false
     let free := s.xport.start = none ∧ jobState s = 0
     let stale := k = jobKey s ∧ (e = jobEpoch s ∨ e = (jobEpoch s + 65535) % 65536)
     (asked) ∧ (free) ∧ (k ≠ 0) ∧ (stale)) := by
  dsimp only [Acts, Issues, Quiet, Working, Takes, Reaches]
  refine ⟨?_, ?_, ?_⟩ <;> decide +kernel

/-- O33, clause 4. -/
theorem test_hypotheses_jobs_start_and_end_2 :
    (let v : Word := 0
     let src : Src := .host
     let s : State := expects (setupDigest up) 6 2 up
     let u := arrived src s
     let go := v ||| maskF Fld.FAB_JOB_CTL_START
     let k := rdF Reg.FAB_START Fld.FAB_START_KEY s
     let e := rdF Reg.FAB_START Fld.FAB_START_EPOCH s
     let expect := (upto 4).map (fun i => (rd (Reg.FAB_EXPECT i) s).toNat)
     let asked := Quiet s ∧ Reaches src Reg.FAB_JOB_CTL (.write go) s ∧ bitF Fld.FAB_JOB_CTL_TEARDOWN v = false
     let free := s.xport.start = none ∧ jobState s = 0
     let stale := k = jobKey s ∧ (e = jobEpoch s ∨ e = (jobEpoch s + 65535) % 65536)
     (asked) ∧ (free) ∧ (k ≠ 0) ∧ (¬ stale) ∧ (digestIs expect (digestNow u) = true) ∧ ((selfRanks s).length ≤ 1) ∧ (routeLacks s = false)) := by
  dsimp only [Acts, Issues, Quiet, Working, Takes, Reaches]
  refine ⟨?_, ?_, ?_, ?_, ?_, ?_, ?_⟩
  · decide +kernel
  · decide +kernel
  · decide +kernel
  · decide +kernel
  · exact expects_digest 6 2
  · decide +kernel
  · decide +kernel

/-- O33, clauses 5 to 11. -/
theorem test_hypotheses_jobs_start_and_end_3 :
    (let key : Nat := 6
     let epoch : Nat := 2
     let tree : Nat := 1
     let byPacket : Bool := true
     let s : State := port 3 6 0 id (setX1 { Xport.empty with start := some (6, 2, 1, true) } up)
     let started := s.xport.start = some (key, epoch, tree, byPacket) ∧ Working s
     (started) ∧ (portsTrain s = true)) ∧
    (let key : Nat := 6
     let epoch : Nat := 2
     let tree : Nat := 1
     let byPacket : Bool := true
     let s : State := setX1 { Xport.empty with start := some (6, 2, 1, true) } up
     let started := s.xport.start = some (key, epoch, tree, byPacket) ∧ Working s
     (started) ∧ (portsTrain s = false) ∧ ((selfRanks s).length ≤ 1) ∧ (routeLacks s = false) ∧ (0 < key) ∧ (key < 2 ^ 32) ∧ (epoch < 2 ^ 16) ∧ (tree < 256)) ∧
    (let v : Word := 0
     let src : Src := .host
     let s : State := job up
     let stop := v ||| maskF Fld.FAB_JOB_CTL_TEARDOWN
     (Quiet s) ∧ (Reaches src Reg.FAB_JOB_CTL (.write stop) s) ∧ (bitF Fld.FAB_JOB_CTL_START v = false) ∧ (jobState s = 1)) ∧
    (let v : Word := 0
     let src : Src := .host
     let s : State := up
     let stop := v ||| maskF Fld.FAB_JOB_CTL_TEARDOWN
     (Quiet s) ∧ (Reaches src Reg.FAB_JOB_CTL (.write stop) s) ∧ (bitF Fld.FAB_JOB_CTL_START v = false) ∧ (jobState s ≠ 1)) ∧
    (let s : State := draining up
     (Working s) ∧ (jobState s = 2) ∧ ((∀ n < 16, jobFlits n s = false))) ∧
    (let s : State := port 3 5 3 (fun p => { p with retry := [(0, ⟨1, true, true, []⟩)] }) (draining up)
     (Working s) ∧ (jobState s = 2) ∧ ((∃ n < 16, jobFlits n s = true))) ∧
    (let s : State := draining up
     (Working s) ∧ (jobState s = 2)) ∧
    (let s : State := port 3 5 3 (fun p => { p with retry := [(0, ⟨1, true, true, []⟩)] }) (draining up)
     (Working s) ∧ (jobState s = 2)) := by
  dsimp only [Acts, Issues, Quiet, Working, Takes, Reaches]
  refine ⟨?_, ?_, ?_, ?_, ?_, ?_, ?_, ?_⟩ <;> decide +kernel

/-- O34, clause 1. -/
theorem test_hypotheses_job_and_tree_packets_1 :
    (let n : Nat := 0
     let p : Packet := ctl 1 [2 * 2 ^ 32 + 6, 0, 0, 0, 0, 0]
     let a : RxPkt := rxOf (ctl 1 [2 * 2 ^ 32 + 6, 0, 0, 0, 0, 0])
     let s : State := holds (ctl 1 [2 * 2 ^ 32 + 6, 0, 0, 0, 0, 0]) (job up)
     let mine := fun (k : Nat) => Takes n p a s ∧ ctlIs k p = true
     let free := s.xport.start = none ∧ jobState s = 0
     (mine 1) ∧ (¬ free)) := by
  dsimp only [Acts, Issues, Quiet, Working, Takes, Reaches]
  decide +kernel

/-- O34, clause 2. -/
theorem test_hypotheses_job_and_tree_packets_2 :
    (let n : Nat := 0
     let p : Packet := startPkt
     let a : RxPkt := rxOf (startPkt)
     let s : State := holds (startPkt) (self9 up)
     let v := takePacket n a s
     let w := pkC p 1
     let mine := fun (k : Nat) => Takes n p a s ∧ ctlIs k p = true
     let free := s.xport.start = none ∧ jobState s = 0
     (mine 1) ∧ (free) ∧ (w % 2 ^ 32 ≠ 0) ∧ (w % 2 ^ 32 ≠ jobKey s) ∧ (digestIs ((upto 4).map (fun i => pkC p (2 + i))) (digestNow v) = true) ∧ ((selfRanks s).length ≤ 1) ∧ (routeLacks s = false)) := by
  dsimp only [Acts, Issues, Quiet, Working, Takes, Reaches]
  refine ⟨?_, ?_, ?_, ?_, ?_, ?_, ?_⟩
  · exact ⟨⟨by decide, by decide +kernel, heldPacket_holds _ _, by decide +kernel⟩, by decide +kernel⟩
  · decide +kernel
  · decide +kernel
  · decide +kernel
  · exact jobStart_digest
  · decide +kernel
  · decide +kernel

/-- O34, clauses 3 to 10. -/
theorem test_hypotheses_job_and_tree_packets_3 :
    (let n : Nat := 0
     let p : Packet := ctl 2 [3 * 2 ^ 32 + 5, 0, 0, 0, 0, 0]
     let a : RxPkt := rxOf (ctl 2 [3 * 2 ^ 32 + 5, 0, 0, 0, 0, 0])
     let s : State := holds (ctl 2 [3 * 2 ^ 32 + 5, 0, 0, 0, 0, 0]) (job up)
     let w := pkC p 1
     let mine := fun (k : Nat) => Takes n p a s ∧ ctlIs k p = true
     (mine 2) ∧ (jobState s = 1) ∧ (w % 2 ^ 32 = jobKey s)) ∧
    (let n : Nat := 0
     let p : Packet := ctl 2 [3 * 2 ^ 32 + 6, 0, 0, 0, 0, 0]
     let a : RxPkt := rxOf (ctl 2 [3 * 2 ^ 32 + 6, 0, 0, 0, 0, 0])
     let s : State := holds (ctl 2 [3 * 2 ^ 32 + 6, 0, 0, 0, 0, 0]) (job up)
     let w := pkC p 1
     let mine := fun (k : Nat) => Takes n p a s ∧ ctlIs k p = true
     (mine 2) ∧ (w % 2 ^ 32 ≠ jobKey s)) ∧
    (let n : Nat := 0
     let c : Nat := 0
     let p : Packet := ctl 3 [2 * 2 ^ 56 + 1 * 2 ^ 16]
     let a : RxPkt := rxOf (ctl 3 [2 * 2 ^ 56 + 1 * 2 ^ 16])
     let s : State := holds (ctl 3 [2 * 2 ^ 56 + 1 * 2 ^ 16]) (tree2 0 (job up))
     let mine := fun (k : Nat) => Takes n p a s ∧ ctlIs k p = true
     (mine 3) ∧ (rankAt (pkN0 p Pk.SRC) s = some c)) ∧
    (let n : Nat := 0
     let p : Packet := ctl 3 [2 * 2 ^ 56 + 1 * 2 ^ 16]
     let a : RxPkt := rxOf (ctl 3 [2 * 2 ^ 56 + 1 * 2 ^ 16])
     let s : State := holds (ctl 3 [2 * 2 ^ 56 + 1 * 2 ^ 16]) (tbW (Tab.RANK 0) 0 (job up))
     let mine := fun (k : Nat) => Takes n p a s ∧ ctlIs k p = true
     (mine 3) ∧ (rankAt (pkN0 p Pk.SRC) s = none)) ∧
    (let n : Nat := 0
     let c : Nat := 0
     let p : Packet := ctl 4 [2 * 2 ^ 56 + 3 * 2 ^ 41, 9, 0, 0, 0, 0]
     let a : RxPkt := rxOf (ctl 4 [2 * 2 ^ 56 + 3 * 2 ^ 41, 9, 0, 0, 0, 0])
     let s : State := holds (ctl 4 [2 * 2 ^ 56 + 3 * 2 ^ 41, 9, 0, 0, 0, 0]) (tree2 0 (job up))
     let mine := fun (k : Nat) => Takes n p a s ∧ ctlIs k p = true
     (mine 4) ∧ (rankAt (pkN0 p Pk.SRC) s = some c)) ∧
    (let n : Nat := 0
     let p : Packet := ctl 4 [2 * 2 ^ 56 + 3 * 2 ^ 41, 9, 0, 0, 0, 0]
     let a : RxPkt := rxOf (ctl 4 [2 * 2 ^ 56 + 3 * 2 ^ 41, 9, 0, 0, 0, 0])
     let s : State := holds (ctl 4 [2 * 2 ^ 56 + 3 * 2 ^ 41, 9, 0, 0, 0, 0]) (tbW (Tab.RANK 0) 0 (job up))
     let mine := fun (k : Nat) => Takes n p a s ∧ ctlIs k p = true
     (mine 4) ∧ (rankAt (pkN0 p Pk.SRC) s = none)) ∧
    (let n : Nat := 0
     let p : Packet := ctl 5 [2 * 2 ^ 56 + 3 * 2 ^ 41, 9, 0, 0, 0, 0]
     let a : RxPkt := rxOf (ctl 5 [2 * 2 ^ 56 + 3 * 2 ^ 41, 9, 0, 0, 0, 0])
     let s : State := holds (ctl 5 [2 * 2 ^ 56 + 3 * 2 ^ 41, 9, 0, 0, 0, 0]) (tree2 1 (job up))
     let w := pkC p 1
     let mine := fun (k : Nat) => Takes n p a s ∧ ctlIs k p = true
     let tr := bitsOf w 63 56
     let f := bitsOf w 55 41
     (mine 5) ∧ (ownRank s = some (treeRoot tr s)) ∧ (f ∉ (treeSt tr s).reported)) ∧
    (let n : Nat := 0
     let p : Packet := ctl 5 [2 * 2 ^ 56 + 3 * 2 ^ 41, 9, 0, 0, 0, 0]
     let a : RxPkt := rxOf (ctl 5 [2 * 2 ^ 56 + 3 * 2 ^ 41, 9, 0, 0, 0, 0])
     let s : State := holds (ctl 5 [2 * 2 ^ 56 + 3 * 2 ^ 41, 9, 0, 0, 0, 0]) (tree2 0 (job up))
     let w := pkC p 1
     let mine := fun (k : Nat) => Takes n p a s ∧ ctlIs k p = true
     let tr := bitsOf w 63 56
     let f := bitsOf w 55 41
     (mine 5) ∧ (ownRank s ≠ some (treeRoot tr s) ∨ f ∈ (treeSt tr s).reported)) := by
  dsimp only [Acts, Issues, Quiet, Working, Takes, Reaches]
  refine ⟨?_, ?_, ?_, ?_, ?_, ?_, ?_, ?_⟩ <;> decide +kernel

/-- O34, clauses 11 to 13. -/
theorem test_hypotheses_job_and_tree_packets_4 :
    (let t : Nat := 2
     let s : State := setX1 { Xport.empty with trees := [treeAt 0 0 false] } (tree2 0 (job up))
     let x := treeSt t s
     (Working s) ∧ (x.mode = 0) ∧ (x.opened = false)) ∧
    (let t : Nat := 2
     let s : State := setX1 { Xport.empty with trees := [treeAt 0 0 true] } (tree2 0 (job up))
     let x := treeSt t s
     (Working s) ∧ (x.mode = 0) ∧ (x.opened = true)) ∧
    (let t : Nat := 2
     let g : Nat := 0
     let s : State := setX1 { Xport.empty with trees := [treeAt 1 1 true] } (tree2 0 (job up))
     let x := treeSt t s
     (Working s) ∧ (x.mode = 1) ∧ (treeParent t x.parent s = some g)) := by
  dsimp only [Acts, Issues, Quiet, Working, Takes, Reaches]
  refine ⟨?_, ?_, ?_⟩ <;> decide +kernel

/-- O35, clauses 1 to 7. -/
theorem test_hypotheses_chunks_are_received :
    (let n : Nat := 0
     let p : Packet := { xp 0 6 9 0 0 (some ⟨BitVec.ofNat 128 (zeroCrc + 2 ^ 32), zeros⟩) with h0 := netWord0 3 0 0 1 9 4 0, t := [w64 0, w64 0, 0, 1] }
     let a : RxPkt := rxOf ({ xp 0 6 9 0 0 (some ⟨BitVec.ofNat 128 (zeroCrc + 2 ^ 32), zeros⟩) with h0 := netWord0 3 0 0 1 9 4 0, t := [w64 0, w64 0, 0, 1] })
     let x : Tile := ⟨BitVec.ofNat 128 (zeroCrc + 2 ^ 32), zeros⟩
     let s : State := holds ({ xp 0 6 9 0 0 (some ⟨BitVec.ofNat 128 (zeroCrc + 2 ^ 32), zeros⟩) with h0 := netWord0 3 0 0 1 9 4 0, t := [w64 0, w64 0, 0, 1] }) (job up)
     let chunk := xportIs 0 p = true ∧ p.tile = some x
     (Takes n p a s) ∧ (chunk) ∧ (hcrcOk p = false)) ∧
    (let n : Nat := 0
     let p : Packet := { xp 1 6 9 0 0 none with t := [w64 (2 ^ 60), w64 0, 0, 1] }
     let a : RxPkt := rxOf ({ xp 1 6 9 0 0 none with t := [w64 (2 ^ 60), w64 0, 0, 1] })
     let s : State := holds ({ xp 1 6 9 0 0 none with t := [w64 (2 ^ 60), w64 0, 0, 1] }) (job up)
     let empty := xportIs 1 p = true ∧ p.tile = none
     (Takes n p a s) ∧ (empty) ∧ (hcrcOk p = false)) ∧
    (let n : Nat := 0
     let p : Packet := xp 0 6 9 0 0 (some ⟨0, zeros⟩)
     let a : RxPkt := rxOf (xp 0 6 9 0 0 (some ⟨0, zeros⟩))
     let x : Tile := ⟨0, zeros⟩
     let s : State := holds (xp 0 6 9 0 0 (some ⟨0, zeros⟩)) (setX1 { Xport.empty with rx := [⟨0, 1, 6, [], 0, 0⟩] } (job up))
     let sound := tagF Fld.TAG_CRC x.tag = crc32c x.payload
     let chunk := xportIs 0 p = true ∧ p.tile = some x
     let pair := hcrcOk p = true ∧ isTree p = false
     (Takes n p a s) ∧ (chunk) ∧ (pair) ∧ (¬ sound)) ∧
    (let n : Nat := 0
     let p : Packet := xp 0 5 9 0 0 (some ⟨BitVec.ofNat 128 (zeroCrc + 2 ^ 32), zeros⟩)
     let a : RxPkt := rxOf (xp 0 5 9 0 0 (some ⟨BitVec.ofNat 128 (zeroCrc + 2 ^ 32), zeros⟩))
     let x : Tile := ⟨BitVec.ofNat 128 (zeroCrc + 2 ^ 32), zeros⟩
     let s : State := holds (xp 0 5 9 0 0 (some ⟨BitVec.ofNat 128 (zeroCrc + 2 ^ 32), zeros⟩)) (setX1 { Xport.empty with rx := [⟨0, 1, 6, [], 0, 0⟩] } (job up))
     let src := pkN0 p Pk.SRCRANK
     let ctx := pkN0 p Pk.CTX
     let seq := pkT p 1 Pk.SEQ
     let r := rxPair src ctx s
     let d := seqSub seq r.e
     let sound := tagF Fld.TAG_CRC x.tag = crc32c x.payload
     let chunk := xportIs 0 p = true ∧ p.tile = some x
     let pair := hcrcOk p = true ∧ isTree p = false
     let seen := 2 ^ 31 ≤ d ∨ seq ∈ r.ahead
     (Takes n p a s) ∧ (chunk ∧ sound ∧ pair ∧ seen)) ∧
    (let n : Nat := 0
     let p : Packet := xp 0 300 9 0 0 (some ⟨BitVec.ofNat 128 (zeroCrc + 2 ^ 32), zeros⟩)
     let a : RxPkt := rxOf (xp 0 300 9 0 0 (some ⟨BitVec.ofNat 128 (zeroCrc + 2 ^ 32), zeros⟩))
     let x : Tile := ⟨BitVec.ofNat 128 (zeroCrc + 2 ^ 32), zeros⟩
     let s : State := holds (xp 0 300 9 0 0 (some ⟨BitVec.ofNat 128 (zeroCrc + 2 ^ 32), zeros⟩)) (setX1 { Xport.empty with rx := [⟨0, 1, 6, [], 0, 0⟩] } (job up))
     let src := pkN0 p Pk.SRCRANK
     let ctx := pkN0 p Pk.CTX
     let seq := pkT p 1 Pk.SEQ
     let r := rxPair src ctx s
     let d := seqSub seq r.e
     let sound := tagF Fld.TAG_CRC x.tag = crc32c x.payload
     let chunk := xportIs 0 p = true ∧ p.tile = some x
     let pair := hcrcOk p = true ∧ isTree p = false
     let seen := 2 ^ 31 ≤ d ∨ seq ∈ r.ahead
     let far := 256 ≤ d ∨ (0 < d ∧ pkN0 p Pk.ORDERED = 1)
     (Takes n p a s) ∧ (chunk ∧ sound ∧ pair ∧ ¬ seen ∧ far)) ∧
    (let n : Nat := 0
     let p : Packet := xp 0 6 9 0 0 (some ⟨BitVec.ofNat 128 (zeroCrc + 2 ^ 32), zeros⟩)
     let a : RxPkt := rxOf (xp 0 6 9 0 0 (some ⟨BitVec.ofNat 128 (zeroCrc + 2 ^ 32), zeros⟩))
     let x : Tile := ⟨BitVec.ofNat 128 (zeroCrc + 2 ^ 32), zeros⟩
     let s : State := holds (xp 0 6 9 0 0 (some ⟨BitVec.ofNat 128 (zeroCrc + 2 ^ 32), zeros⟩)) (setX1 { Xport.empty with rx := [⟨0, 1, 6, [], 0, 0⟩] } (job up))
     let src := pkN0 p Pk.SRCRANK
     let ctx := pkN0 p Pk.CTX
     let seq := pkT p 1 Pk.SEQ
     let r := rxPair src ctx s
     let sound := tagF Fld.TAG_CRC x.tag = crc32c x.payload
     let chunk := xportIs 0 p = true ∧ p.tile = some x
     let pair := hcrcOk p = true ∧ isTree p = false
     let next := pair ∧ seq = r.e ∧ r.e < 2 ^ 32 ∧ r.ahead = []
     (Takes n p a s) ∧ (chunk ∧ sound ∧ next ∧ ctxState ctx s ≠ 1)) ∧
    (let n : Nat := 0
     let k : Nat := 3
     let p : Packet := xp 0 6 0 2 0 (some ⟨BitVec.ofNat 128 (zeroCrc + 2 ^ 32), zeros⟩)
     let a : RxPkt := rxOf (xp 0 6 0 2 0 (some ⟨BitVec.ofNat 128 (zeroCrc + 2 ^ 32), zeros⟩))
     let x : Tile := ⟨BitVec.ofNat 128 (zeroCrc + 2 ^ 32), zeros⟩
     let s : State := holds (xp 0 6 0 2 0 (some ⟨BitVec.ofNat 128 (zeroCrc + 2 ^ 32), zeros⟩)) (tbWF (Tab.XDESC 7) Fld.XDESC1_RBASE 1000 (tbWF (Tab.XDESC 6) Fld.XDESC0_LAND 1 (desc3 0 (setX1 { Xport.empty with rx := [⟨0, 1, 6, [], 0, 0⟩] } (job own)))))
     let src := pkN0 p Pk.SRCRANK
     let ctx := pkN0 p Pk.CTX
     let seq := pkT p 1 Pk.SEQ
     let r := rxPair src ctx s
     let sound := tagF Fld.TAG_CRC x.tag = crc32c x.payload
     let chunk := xportIs 0 p = true ∧ p.tile = some x
     let pair := hcrcOk p = true ∧ isTree p = false
     let next := pair ∧ seq = r.e ∧ r.e < 2 ^ 32 ∧ r.ahead = []
     let chan := pkT p 0 Pk.CHAN
     (Takes n p a s) ∧ (chunk) ∧ (sound) ∧ (next) ∧ (ctxState ctx s = 1) ∧ (chan < 0xFFFE) ∧ (descFor 0 src ctx chan s = some k) ∧ (xdLand k s = true) ∧ (xdBase k s + pkT p 0 Pk.CHUNK ≤ rtnMax)) := by
  dsimp only [Acts, Issues, Quiet, Working, Takes, Reaches]
  refine ⟨?_, ?_, ?_, ?_, ?_, ?_, ?_⟩ <;> decide +kernel

/-- O36, clauses 1 to 8. -/
theorem test_hypotheses_transport_replies_and_timers_1 :
    (let n : Nat := 0
     let p : Packet := xp 2 6 0 0 0 none
     let a : RxPkt := rxOf (xp 2 6 0 0 0 none)
     let s : State := holds (xp 2 6 0 0 0 none) (pair1 [unack1 5, unack1 6, unack1 7] true (job own))
     let mine := fun (k : Nat) => Takes n p a s ∧ xportIs k p = true ∧ hcrcOk p = true ∧ isTree p = false
     let dst := pkN0 p Pk.SRCRANK
     let cx := pkN0 p Pk.CTX
     let seq := pkT p 1 Pk.SEQ
     let pair := txPair false dst cx s
     let done := pair.unack.filter (fun z => !seqLt seq z.seq)
     (mine 2) ∧ (done ≠ [])) ∧
    (let n : Nat := 0
     let p : Packet := xp 2 4 0 0 0 none
     let a : RxPkt := rxOf (xp 2 4 0 0 0 none)
     let s : State := holds (xp 2 4 0 0 0 none) (pair1 [unack1 5] true (job own))
     let mine := fun (k : Nat) => Takes n p a s ∧ xportIs k p = true ∧ hcrcOk p = true ∧ isTree p = false
     let dst := pkN0 p Pk.SRCRANK
     let cx := pkN0 p Pk.CTX
     let seq := pkT p 1 Pk.SEQ
     let pair := txPair false dst cx s
     let done := pair.unack.filter (fun z => !seqLt seq z.seq)
     (mine 2) ∧ (done = []) ∧ (pkT p 0 Pk.WAIT ≠ 1)) ∧
    (let n : Nat := 0
     let p : Packet := xp 3 6 0 0 0 none
     let a : RxPkt := rxOf (xp 3 6 0 0 0 none)
     let y : TxPkt := unack1 6
     let q : Packet := (again (txPair false 0 1 snackS) (unack1 6) (takePacket 0 (rxOf (xp 3 6 0 0 0 none)) snackS)).getD cell2
     let s : State := snackS
     let v := takePacket n a s
     let mine := fun (k : Nat) => Takes n p a s ∧ xportIs k p = true ∧ hcrcOk p = true ∧ isTree p = false
     let dst := pkN0 p Pk.SRCRANK
     let cx := pkN0 p Pk.CTX
     let seq := pkT p 1 Pk.SEQ
     let pair := txPair false dst cx s
     (mine 3) ∧ (pair.unack.find? (fun z => z.seq == seq) = some y) ∧ (mayXmit s = true) ∧ (rankLive pair.dst s = true) ∧ (again pair y v = some q)) ∧
    (let n : Nat := 0
     let p : Packet := xp 3 8 0 0 0 none
     let a : RxPkt := rxOf (xp 3 8 0 0 0 none)
     let s : State := holds (xp 3 8 0 0 0 none) (pair1 [unack1 5] true (job own))
     let mine := fun (k : Nat) => Takes n p a s ∧ xportIs k p = true ∧ hcrcOk p = true ∧ isTree p = false
     let dst := pkN0 p Pk.SRCRANK
     let cx := pkN0 p Pk.CTX
     let seq := pkT p 1 Pk.SEQ
     let pair := txPair false dst cx s
     (mine 3) ∧ (pair.unack.find? (fun z => z.seq == seq) = none)) ∧
    (let n : Nat := 0
     let ctx : Nat := 1
     let p : Packet := xp 4 77 0 0 0 none
     let a : RxPkt := rxOf (xp 4 77 0 0 0 none)
     let s : State := holds (xp 4 77 0 0 0 none) (job own)
     let mine := fun (k : Nat) => Takes n p a s ∧ xportIs k p = true ∧ hcrcOk p = true ∧ isTree p = false
     let dst := pkN0 p Pk.SRCRANK
     let cx := pkN0 p Pk.CTX
     (mine 4) ∧ ((∀ z ∈ s.xport.rx, ¬ (z.src = dst ∧ z.ctx = cx)))) ∧
    (let n : Nat := 0
     let ctx : Nat := 1
     let p : Packet := xp 4 77 0 0 0 none
     let a : RxPkt := rxOf (xp 4 77 0 0 0 none)
     let s : State := holds (xp 4 77 0 0 0 none) (setX1 { Xport.empty with rx := [⟨0, 1, 6, [], 0, 0⟩] } (job own))
     let mine := fun (k : Nat) => Takes n p a s ∧ xportIs k p = true ∧ hcrcOk p = true ∧ isTree p = false
     let dst := pkN0 p Pk.SRCRANK
     let cx := pkN0 p Pk.CTX
     (mine 4) ∧ ((∃ z ∈ s.xport.rx, z.src = dst ∧ z.ctx = cx))) ∧
    (let n : Nat := 0
     let phys : Nat := 4
     let dsc : Nat := 3
     let ctx : Nat := 1
     let p : Packet := cell2
     let a : RxPkt := rxOf (cell2)
     let s : State := holds (cell2) (tbWF (Tab.XDESC 6) Fld.XDESC0_PEER 4 (desc3 3 (key2 (job own))))
     let cell := subBytes p.cells 0 256
     let v2 := Takes n p a s ∧ pkN0 p Pk.VER = 2 ∧ pkN0 p Pk.SRC = phys ∧ p.cells.length = 256
     (v2) ∧ (v2Desc phys s = some (dsc, ctx)) ∧ (bitAt (leAt cell 0 8) 63 = true) ∧ (bitAt (leAt cell 0 8) 62 = false) ∧ ((∀ z ∈ s.xport.v2, z.src ≠ phys)) ∧ (stageRoom ctx s = true)) ∧
    (let n : Nat := 0
     let phys : Nat := 4
     let p : Packet := cell2
     let a : RxPkt := rxOf (cell2)
     let s : State := holds (cell2) (key2 (job own))
     let cell := subBytes p.cells 0 256
     let v2 := Takes n p a s ∧ pkN0 p Pk.VER = 2 ∧ pkN0 p Pk.SRC = phys ∧ p.cells.length = 256
     (v2) ∧ (v2Desc phys s = none) ∧ (bitAt (leAt cell 0 8) 63 = true)) := by
  dsimp only [Acts, Issues, Quiet, Working, Takes, Reaches]
  refine ⟨?_, ?_, ?_, ?_, ?_, ?_, ?_, ?_⟩ <;> decide +kernel

/-- O36, clauses 9 to 13. -/
theorem test_hypotheses_transport_replies_and_timers_2 :
    (let r : Nat := 0
     let c : Nat := 1
     let s : State := job own
     (Working s) ∧ ((rxPair r c s).owed = 0)) ∧
    (let r : Nat := 0
     let c : Nat := 1
     let s : State := setX1 { Xport.empty with rx := [⟨0, 1, 6, [], 3, 40⟩] } (job own)
     (Working s) ∧ ((rxPair r c s).owed ≠ 0)) ∧
    (let r : Nat := 0
     let c : Nat := 1
     let s : State := job own
     let tree := decide (2 ^ 17 ≤ r)
     let timer := txPair tree (r % 2 ^ 17) c s
     (Working s) ∧ (timer.timed = false)) ∧
    (let r : Nat := 0
     let c : Nat := 1
     let s : State := pair1 [unack1 5] false (job own)
     let tree := decide (2 ^ 17 ≤ r)
     let timer := txPair tree (r % 2 ^ 17) c s
     (Working s) ∧ (timer.timed = true) ∧ (tree = false) ∧ (r < 2 ^ 15) ∧ (rankLive r s = false)) ∧
    (let r : Nat := 0
     let c : Nat := 1
     let s : State := pair1 [unack1 5] true (job own)
     let tree := decide (2 ^ 17 ≤ r)
     let timer := txPair tree (r % 2 ^ 17) c s
     (Working s) ∧ (timer.timed = true)) := by
  dsimp only [Acts, Issues, Quiet, Working, Takes, Reaches]
  refine ⟨?_, ?_, ?_, ?_, ?_⟩ <;> decide +kernel

/-- O37, clauses 1 to 2. -/
theorem test_hypotheses_failing_packets_are_dropped :
    (let n : Nat := 0
     let r : Nat := Reg.FAB_KEY_DROP
     let p : Packet := ctl 1 []
     let a : RxPkt := rxOf (ctl 1 [])
     let i : Instr := .jobStart 0 (ctl 1 [])
     let s : State := holds (ctl 1 []) (wrF Reg.FAB_ADMIN_KEY Fld.FAB_ADMIN_KEY_KEY 1 (job own))
     (n ≤ 16) ∧ (Working s) ∧ ((i = .jobStart n p ∧ ctlIs 1 p = true) ∨ (i = .teardown n p ∧ ctlIs 2 p = true) ∨ (i = .resend n p ∧ ctlIs 3 p = true) ∨ (i = .reattach n p ∧ ctlIs 4 p = true) ∨ (i = .treeFail n p ∧ ctlIs 5 p = true) ∨ (i = .chunk n p ∧ xportIs 0 p = true) ∨ (i = .empty n p ∧ xportIs 1 p = true) ∨ (i = .ack n p ∧ xportIs 2 p = true) ∨ (i = .snack n p ∧ xportIs 3 p = true) ∨ (i = .xportSync n p ∧ xportIs 4 p = true) ∨ (i = .v2CellPacket n p ∧ pkN0 p Pk.VER = 2)) ∧ (heldPacket n p s = some a) ∧ (netCheck p (takePacket n a s) = some r)) ∧
    (let n : Nat := 0
     let p : Packet := ctl 1 []
     let i : Instr := .jobStart 0 (ctl 1 [])
     let s : State := job own
     (n ≤ 16) ∧ (Working s) ∧ ((i = .jobStart n p ∧ ctlIs 1 p = true) ∨ (i = .teardown n p ∧ ctlIs 2 p = true) ∨ (i = .resend n p ∧ ctlIs 3 p = true) ∨ (i = .reattach n p ∧ ctlIs 4 p = true) ∨ (i = .treeFail n p ∧ ctlIs 5 p = true) ∨ (i = .chunk n p ∧ xportIs 0 p = true) ∨ (i = .empty n p ∧ xportIs 1 p = true) ∨ (i = .ack n p ∧ xportIs 2 p = true) ∨ (i = .snack n p ∧ xportIs 3 p = true) ∨ (i = .xportSync n p ∧ xportIs 4 p = true) ∨ (i = .v2CellPacket n p ∧ pkN0 p Pk.VER = 2)) ∧ (heldPacket n p s = none)) := by
  dsimp only [Acts, Issues, Quiet, Working, Takes, Reaches]
  refine ⟨?_, ?_⟩ <;> decide +kernel

/-- O38, clauses 1 to 5. -/
theorem test_hypotheses_fabric_transfers_land :
    (let j : Nat := 0
     let b : Nat := 0
     let q : Nat := 0
     let po : Nat := 4
     let k : Nat := 1
     let x : FabXfer := ⟨0, 5, 60, .recv 0 0 1 ⟨9, [3]⟩ none⟩
     let y : Tile := ⟨9, [3]⟩
     let r : RecvOp := recv3 true 0
     let s : State := setX1 { Xport.empty with xfers := [⟨0, 5, 60, .recv 0 0 1 ⟨9, [3]⟩ none⟩], msgs := [{ msg3 with taker := some (0, 0) }] } (desc3 0 (waits (.recv (recv3 true 0)) own))
     (Working s) ∧ (s.xport.xfers[j]? = some x) ∧ (x.use = .recv b q k y none) ∧ ((seqOf b q s).blocked = .recv r) ∧ (landHeld b q x.btile r.po s = false)) ∧
    (let j : Nat := 0
     let b : Nat := 0
     let q : Nat := 0
     let po : Nat := 4
     let x : FabXfer := ⟨0, 5, 60, .send 0 0 4⟩
     let z : SendJob := send1
     let w : Run := sendRun1
     let s : State := sends1 ⟨0, 5, 60, .send 0 0 4⟩ (tile5 2 (at0 0 id (job own)))
     (Working s) ∧ (s.xport.xfers[j]? = some x) ∧ (x.use = .send b q po) ∧ (jobOf b q po s = some z) ∧ (sendRun b q po s = some w) ∧ (readHeld b q w.op s = false) ∧ (heldUnit b q 7 s = false) ∧ (checkOk b x.btile s = true) ∧ (fmtDefined (tagF Fld.TAG_FORMAT (benchTag b x.btile s)) = true) ∧ (z.kind ≠ 3)) ∧
    (let j : Nat := 0
     let b : Nat := 0
     let q : Nat := 0
     let po : Nat := 4
     let x : FabXfer := ⟨0, 5, 60, .send 0 0 4⟩
     let s : State := setX1 { Xport.empty with xfers := [⟨0, 5, 60, .send 0 0 4⟩] } own
     (Working s) ∧ (s.xport.xfers[j]? = some x) ∧ (x.use = .send b q po) ∧ (jobOf b q po s = none ∨ sendRun b q po s = none)) ∧
    (let j : Nat := 0
     let g : Nat := 1
     let gs : Nat := 0
     let k : Nat := 1
     let x : FabXfer := ⟨0, 5, 60, .colRead 1 0 1⟩
     let s : State := setX1 { Xport.empty with xfers := [⟨0, 5, 60, .colRead 1 0 1⟩] } (job own)
     (Working s) ∧ (s.xport.xfers[j]? = some x) ∧ (x.use = .colRead g gs k)) ∧
    (let j : Nat := 0
     let g : Nat := 1
     let gs : Nat := 0
     let k : Nat := 1
     let x : FabXfer := ⟨0, 5, 60, .colWrite 1 0 1 ⟨9, [3]⟩⟩
     let y : Tile := ⟨9, [3]⟩
     let s : State := setX1 { Xport.empty with xfers := [⟨0, 5, 60, .colWrite 1 0 1 ⟨9, [3]⟩⟩] } (job own)
     (Working s) ∧ (s.xport.xfers[j]? = some x) ∧ (x.use = .colWrite g gs k y)) := by
  dsimp only [Acts, Issues, Quiet, Working, Takes, Reaches]
  refine ⟨?_, ?_, ?_, ?_, ?_⟩ <;> decide +kernel

/-- O39, clauses 1 to 8. -/
theorem test_hypotheses_collectives_start_and_end_1 :
    (let v : Word := 2
     let src : Src := .host
     let s : State := coll 0 2 (job up)
     let u := arrived src s
     let d := getF Fld.COL_START_DESC v
     let ws := colWords d u
     let ctx := cdF ws 0 Fld.DESC0_CTX
     let asks := Quiet s ∧ Reaches src Reg.COL_START (.write v) s
     (asks) ∧ (ctxState ctx u ≠ 1)) ∧
    (let v : Word := 2
     let src : Src := .host
     let s : State := coll 7 2 (job own)
     let u := arrived src s
     let d := getF Fld.COL_START_DESC v
     let ws := colWords d u
     let dg := cdGroup ws
     let ctx := cdF ws 0 Fld.DESC0_CTX
     let e := tb (Tab.GSEQ dg) u
     let next := getF Fld.COL_GSEQ_DATA_NEXT e
     let asks := Quiet s ∧ Reaches src Reg.COL_START (.write v) s
     let counted := bump Reg.COL_STARTED (tbWF (Tab.GSEQ dg) Fld.COL_GSEQ_DATA_NEXT (next + 1) u)
     (asks) ∧ (ctxState ctx u = 1) ∧ (startOk ws 0 false counted = false)) ∧
    (let v : Word := 2
     let src : Src := .host
     let s : State := gseqAt 1 3 5 (coll 0 2 (job own))
     let u := arrived src s
     let d := getF Fld.COL_START_DESC v
     let ws := colWords d u
     let dg := cdGroup ws
     let ctx := cdF ws 0 Fld.DESC0_CTX
     let e := tb (Tab.GSEQ dg) u
     let next := getF Fld.COL_GSEQ_DATA_NEXT e
     let asks := Quiet s ∧ Reaches src Reg.COL_START (.write v) s
     let counted := bump Reg.COL_STARTED (tbWF (Tab.GSEQ dg) Fld.COL_GSEQ_DATA_NEXT (next + 1) u)
     let aborted := bitF Fld.COL_GSEQ_DATA_ABORTED e = true ∧ getF Fld.COL_GSEQ_DATA_ABORT_FROM e ≤ next % 2 ^ 31
     (asks) ∧ (ctxState ctx u = 1) ∧ (startOk ws 0 false counted = true) ∧ (aborted)) ∧
    (let v : Word := 2
     let src : Src := .host
     let s : State := gseqAt 1 6 5 (coll 0 2 (job own))
     let u := arrived src s
     let d := getF Fld.COL_START_DESC v
     let ws := colWords d u
     let dg := cdGroup ws
     let ctx := cdF ws 0 Fld.DESC0_CTX
     let e := tb (Tab.GSEQ dg) u
     let next := getF Fld.COL_GSEQ_DATA_NEXT e
     let asks := Quiet s ∧ Reaches src Reg.COL_START (.write v) s
     let counted := bump Reg.COL_STARTED (tbWF (Tab.GSEQ dg) Fld.COL_GSEQ_DATA_NEXT (next + 1) u)
     let aborted := bitF Fld.COL_GSEQ_DATA_ABORTED e = true ∧ getF Fld.COL_GSEQ_DATA_ABORT_FROM e ≤ next % 2 ^ 31
     (asks) ∧ (ctxState ctx u = 1) ∧ (startOk ws 0 false counted = true) ∧ (¬ aborted) ∧ (colRoom ctx counted = true)) ∧
    (let v : Word := 2
     let src : Src := .host
     let s : State := gseqAt 0 0 0xFFFFFFFF (coll 0 0 (job own))
     let u := arrived src s
     let d := getF Fld.COL_START_DESC v
     let ws := colWords d u
     let dg := cdGroup ws
     let ctx := cdF ws 0 Fld.DESC0_CTX
     let e := tb (Tab.GSEQ dg) u
     let next := getF Fld.COL_GSEQ_DATA_NEXT e
     let asks := Quiet s ∧ Reaches src Reg.COL_START (.write v) s
     let counted := bump Reg.COL_STARTED (tbWF (Tab.GSEQ dg) Fld.COL_GSEQ_DATA_NEXT (next + 1) u)
     let aborted := bitF Fld.COL_GSEQ_DATA_ABORTED e = true ∧ getF Fld.COL_GSEQ_DATA_ABORT_FROM e ≤ next % 2 ^ 31
     (asks) ∧ (ctxState ctx u = 1) ∧ (startOk ws 0 false counted = true) ∧ (¬ aborted) ∧ (colRoom ctx counted = false)) ∧
    (let c : Nat := 1
     let g : Nat := 1
     let v : Word := 2
     let src : Src := .host
     let w : ColWait := wait1
     let s : State := withCol [] [wait1] (coll 0 1 (job own))
     let u := arrived src s
     let d := getF Fld.COL_START_DESC v
     let ws := colWords d u
     let ctx := cdF ws 0 Fld.DESC0_CTX
     let waiter := s.col.waits.find? (fun w => w.ctx == c)
     (c < 16) ∧ (Working s) ∧ (waiter = some w) ∧ (colRoom c s = true ∨ (colOpen w.g w.gseq s).isSome = true)) ∧
    (let c : Nat := 1
     let g : Nat := 1
     let v : Word := 2
     let src : Src := .host
     let w : ColWait := wait1
     let s : State := withCol [] [wait1] (coll 0 0 (job own))
     let u := arrived src s
     let d := getF Fld.COL_START_DESC v
     let ws := colWords d u
     let ctx := cdF ws 0 Fld.DESC0_CTX
     let waiter := s.col.waits.find? (fun w => w.ctx == c)
     (c < 16) ∧ (Working s) ∧ ((∀ w ∈ waiter, colRoom c s = false ∧ colOpen w.g w.gseq s = none))) ∧
    (let c : Nat := 1
     let v : Word := 2
     let src : Src := .host
     let w : ColWait := wait1
     let p : Packet := ctl 6 []
     let s : State := (job own)
     let u := arrived src s
     let d := getF Fld.COL_START_DESC v
     let ws := colWords d u
     let ctx := cdF ws 0 Fld.DESC0_CTX
     let since := (s.col.waits.filter (fun w => w.ctx == c)).map (·.since) ++
           (s.col.refused.filter (fun p => p.1 == c)).map (fun p => p.2 - 1)
     (c < 16) ∧ (Working s) ∧ (since = [] ∨ colRoom c s = true)) := by
  dsimp only [Acts, Issues, Quiet, Working, Takes, Reaches]
  refine ⟨?_, ?_, ?_, ?_, ?_, ?_, ?_, ?_⟩ <;> decide +kernel

/-- O39, clauses 9 to 15. -/
theorem test_hypotheses_collectives_start_and_end_2 :
    (let c : Nat := 1
     let v : Word := 2
     let src : Src := .host
     let w : ColWait := wait1
     let p : Packet := ctl 6 []
     let s : State := withCol [inst1] [wait1] (coll 0 1 (job own))
     let u := arrived src s
     let d := getF Fld.COL_START_DESC v
     let ws := colWords d u
     let ctx := cdF ws 0 Fld.DESC0_CTX
     let since := (s.col.waits.filter (fun w => w.ctx == c)).map (·.since) ++
           (s.col.refused.filter (fun p => p.1 == c)).map (fun p => p.2 - 1)
     (c < 16) ∧ (Working s) ∧ (since ≠ []) ∧ (colRoom c s = false)) ∧
    (let g : Nat := 1
     let q : Nat := 4
     let i : ColInst := inst1
     let s : State := wrF Reg.COL_CFG Fld.COL_CFG_OPEN_LIMIT_MS 2 (withCol [inst1] [] (coll 0 1 (job own)))
     let limit := rdF Reg.COL_CFG Fld.COL_CFG_OPEN_LIMIT_MS s
     (Working s) ∧ (colOpen g q s = some i) ∧ (limit ≠ 0)) ∧
    (let g : Nat := 1
     let q : Nat := 4
     let s : State := (job own)
     let limit := rdF Reg.COL_CFG Fld.COL_CFG_OPEN_LIMIT_MS s
     (Working s) ∧ (colOpen g q s = none ∨ limit = 0)) ∧
    (let n : Nat := 0
     let p : Packet := ctl 6 [1 * 2 ^ 48 + 4 * 2 ^ 16 + 2, 4 * 2 ^ 32 + 5, 0, 0, 0, 0]
     let a : RxPkt := rxOf (ctl 6 [1 * 2 ^ 48 + 4 * 2 ^ 16 + 2, 4 * 2 ^ 32 + 5, 0, 0, 0, 0])
     let s : State := holds (ctl 6 [1 * 2 ^ 48 + 4 * 2 ^ 16 + 2, 4 * 2 ^ 32 + 5, 0, 0, 0, 0]) ((job own))
     let k := takePacket n a s
     let mine := Takes n p a s ∧ ctlIs 6 p = true
     let ours := bitsOf (pkC p 2) 31 0 = jobKey k ∧ bitsOf (pkC p 2) 47 32 = jobEpoch k ∧ jobState k ≠ 0
     (mine) ∧ (¬ ours)) ∧
    (let n : Nat := 0
     let i : ColInst := inst1
     let p : Packet := ctl 6 [1 * 2 ^ 48 + 4 * 2 ^ 16 + 2, 3 * 2 ^ 32 + 5, 0, 0, 0, 0]
     let a : RxPkt := rxOf (ctl 6 [1 * 2 ^ 48 + 4 * 2 ^ 16 + 2, 3 * 2 ^ 32 + 5, 0, 0, 0, 0])
     let s : State := holds (ctl 6 [1 * 2 ^ 48 + 4 * 2 ^ 16 + 2, 3 * 2 ^ 32 + 5, 0, 0, 0, 0]) (withCol [inst1] [] (coll 0 1 (job own)))
     let k := takePacket n a s
     let w1 := pkC p 1
     let ag := bitsOf w1 63 48
     let aq := bitsOf w1 47 16
     let mine := Takes n p a s ∧ ctlIs 6 p = true
     let ours := bitsOf (pkC p 2) 31 0 = jobKey k ∧ bitsOf (pkC p 2) 47 32 = jobEpoch k ∧ jobState k ≠ 0
     (mine) ∧ (ours) ∧ (colOpen ag aq k = some i)) ∧
    (let n : Nat := 0
     let p : Packet := ctl 6 [1024 * 2 ^ 48 + 4 * 2 ^ 16 + 2, 3 * 2 ^ 32 + 5, 0, 0, 0, 0]
     let a : RxPkt := rxOf (ctl 6 [1024 * 2 ^ 48 + 4 * 2 ^ 16 + 2, 3 * 2 ^ 32 + 5, 0, 0, 0, 0])
     let s : State := holds (ctl 6 [1024 * 2 ^ 48 + 4 * 2 ^ 16 + 2, 3 * 2 ^ 32 + 5, 0, 0, 0, 0]) ((job own))
     let k := takePacket n a s
     let w1 := pkC p 1
     let ag := bitsOf w1 63 48
     let aq := bitsOf w1 47 16
     let mine := Takes n p a s ∧ ctlIs 6 p = true
     let ours := bitsOf (pkC p 2) 31 0 = jobKey k ∧ bitsOf (pkC p 2) 47 32 = jobEpoch k ∧ jobState k ≠ 0
     let ae := tb (Tab.GSEQ ag) k
     let marked := bitF Fld.COL_GSEQ_DATA_ABORTED ae = true ∧ getF Fld.COL_GSEQ_DATA_ABORT_FROM ae ≤ aq % 2 ^ 31
     (mine) ∧ (ours) ∧ (colOpen ag aq k = none) ∧ (1024 ≤ ag ∨ colPast ag aq k = true ∨ marked)) ∧
    (let n : Nat := 0
     let p : Packet := ctl 6 [1 * 2 ^ 48 + 4 * 2 ^ 16 + 2, 3 * 2 ^ 32 + 5, 0, 0, 0, 0]
     let a : RxPkt := rxOf (ctl 6 [1 * 2 ^ 48 + 4 * 2 ^ 16 + 2, 3 * 2 ^ 32 + 5, 0, 0, 0, 0])
     let s : State := holds (ctl 6 [1 * 2 ^ 48 + 4 * 2 ^ 16 + 2, 3 * 2 ^ 32 + 5, 0, 0, 0, 0]) (gseqAt 1 6 4 (coll 0 1 (job own)))
     let k := takePacket n a s
     let w1 := pkC p 1
     let ag := bitsOf w1 63 48
     let aq := bitsOf w1 47 16
     let mine := Takes n p a s ∧ ctlIs 6 p = true
     let ours := bitsOf (pkC p 2) 31 0 = jobKey k ∧ bitsOf (pkC p 2) 47 32 = jobEpoch k ∧ jobState k ≠ 0
     let ae := tb (Tab.GSEQ ag) k
     let marked := bitF Fld.COL_GSEQ_DATA_ABORTED ae = true ∧ getF Fld.COL_GSEQ_DATA_ABORT_FROM ae ≤ aq % 2 ^ 31
     (mine) ∧ (ours) ∧ (colOpen ag aq k = none) ∧ (ag < 1024) ∧ (colPast ag aq k = false) ∧ (¬ marked)) := by
  dsimp only [Acts, Issues, Quiet, Working, Takes, Reaches]
  refine ⟨?_, ?_, ?_, ?_, ?_, ?_, ?_⟩ <;> decide +kernel

/-- O40, clauses 1 to 8. -/
theorem test_hypotheses_contexts_live_1 :
    (let c : Nat := 1
     let v : Word := setF Fld.CTX_CTL_PRIORITY 0 3
     let src : Src := .host
     let s : State := { up with dev := 5 }
     let u := arrived src s
     let start := v ||| maskF Fld.CTX_CTL_START
     let may := fun (x : Word) => Quiet s ∧ Reaches src (Reg.CTX_CTL c) (.write x) s ∧ ctxResetting c u = false
     let ready := may start ∧ bitF Fld.CTX_CTL_TEARDOWN v = false ∧ ctxState c u = 0 ∧ s.dev ≠ 7
     let prio := wrF (Reg.CTX_CTL c) Fld.CTX_CTL_PRIORITY (getF Fld.CTX_CTL_PRIORITY v) u
     (c < 16) ∧ (ready) ∧ (startCode c prio = 0)) ∧
    (let c : Nat := 1
     let v : Word := setF Fld.CTX_CTL_PRIORITY 0 3
     let src : Src := .host
     let s : State := wrF (Reg.CTX_FABRIC 1) Fld.CTX_FABRIC_POOL 31 up
     let u := arrived src s
     let start := v ||| maskF Fld.CTX_CTL_START
     let may := fun (x : Word) => Quiet s ∧ Reaches src (Reg.CTX_CTL c) (.write x) s ∧ ctxResetting c u = false
     let ready := may start ∧ bitF Fld.CTX_CTL_TEARDOWN v = false ∧ ctxState c u = 0 ∧ s.dev ≠ 7
     let prio := wrF (Reg.CTX_CTL c) Fld.CTX_CTL_PRIORITY (getF Fld.CTX_CTL_PRIORITY v) u
     (c < 16) ∧ (ready) ∧ (startCode c prio ≠ 0)) ∧
    (let c : Nat := 1
     let v : Word := setF Fld.CTX_CTL_PRIORITY 0 3
     let src : Src := .host
     let s : State := own
     let u := arrived src s
     let start := v ||| maskF Fld.CTX_CTL_START
     let may := fun (x : Word) => Quiet s ∧ Reaches src (Reg.CTX_CTL c) (.write x) s ∧ ctxResetting c u = false
     (c < 16) ∧ (may start) ∧ (bitF Fld.CTX_CTL_TEARDOWN v = true ∨ ctxState c u ≠ 0 ∨ s.dev = 7)) ∧
    (let c : Nat := 1
     let v : Word := setF Fld.CTX_CTL_PRIORITY 0 3
     let src : Src := .host
     let s : State := own
     let u := arrived src s
     let tear := v ||| maskF Fld.CTX_CTL_TEARDOWN
     let may := fun (x : Word) => Quiet s ∧ Reaches src (Reg.CTX_CTL c) (.write x) s ∧ ctxResetting c u = false
     (c < 16) ∧ (may tear) ∧ (bitF Fld.CTX_CTL_START v = false) ∧ (ctxState c u = 1)) ∧
    (let c : Nat := 1
     let v : Word := setF Fld.CTX_CTL_PRIORITY 0 3
     let src : Src := .host
     let s : State := up
     let u := arrived src s
     let tear := v ||| maskF Fld.CTX_CTL_TEARDOWN
     let may := fun (x : Word) => Quiet s ∧ Reaches src (Reg.CTX_CTL c) (.write x) s ∧ ctxResetting c u = false
     (c < 16) ∧ (may tear) ∧ (bitF Fld.CTX_CTL_START v = true ∨ ctxState c u ≠ 1)) ∧
    (let c : Nat := 1
     let s : State := ctxs { CtxSt.empty with step7 := [1], cleared := [1] } (wrF (Reg.CTX_STATUS 1) Fld.CTX_STATUS_STATE 2 up)
     (c < 16) ∧ (Working s) ∧ (c ∈ s.ctxs.step7) ∧ (boundaryRuns s = false)) ∧
    (let c : Nat := 1
     let s : State := inPhase 3 (ctxs { CtxSt.empty with step7 := [1] } up)
     (c < 16) ∧ (Working s) ∧ (c ∈ s.ctxs.step7) ∧ (boundaryRuns s = true)) ∧
    (let c : Nat := 1
     let d : Deferral := defer1
     let s : State := wrF (Reg.CTX_HOLD 1) Fld.CTX_HOLD_HOLD_MAX 9 (ctxs { CtxSt.empty with deferrals := [defer1] } own)
     let limit := rdF (Reg.CTX_HOLD c) Fld.CTX_HOLD_HOLD_MAX s
     (c < 16) ∧ (Working s) ∧ (oldestDeferral c s = some d) ∧ (limit ≠ 0) ∧ (ctxState c s = 1)) := by
  dsimp only [Acts, Issues, Quiet, Working, Takes, Reaches]
  refine ⟨?_, ?_, ?_, ?_, ?_, ?_, ?_, ?_⟩ <;> decide +kernel

/-- O40, clauses 9 to 13. -/
theorem test_hypotheses_contexts_live_2 :
    (let c : Nat := 1
     let s : State := own
     let limit := rdF (Reg.CTX_HOLD c) Fld.CTX_HOLD_HOLD_MAX s
     (c < 16) ∧ (Working s) ∧ (oldestDeferral c s = none ∨ limit = 0 ∨ ctxState c s ≠ 1)) ∧
    (let c : Nat := 1
     let v : Word := setF Fld.CTX_CTL_PRIORITY 0 3
     let src : Src := .host
     let s : State := { up with cycle := 70 }
     let u := arrived src s
     let reset := v ||| maskF Fld.CTX_RESET_RESET
     let asksReset := Quiet s ∧ Reaches src (Reg.CTX_RESET c) (.write reset) s
     (c < 16) ∧ (asksReset) ∧ (ctxResetting c u = false) ∧ (ctxIdle c u = true)) ∧
    (let c : Nat := 1
     let v : Word := setF Fld.CTX_CTL_PRIORITY 0 3
     let src : Src := .host
     let s : State := own
     let u := arrived src s
     let reset := v ||| maskF Fld.CTX_RESET_RESET
     let asksReset := Quiet s ∧ Reaches src (Reg.CTX_RESET c) (.write reset) s
     (c < 16) ∧ (asksReset) ∧ (ctxResetting c u = true ∨ ctxIdle c u = false)) ∧
    (let c : Nat := 1
     let s : State := up
     (c < 16) ∧ (held s = false) ∧ (dead s = false) ∧ (s.work = []) ∧ (s.ctxs.resets.find? (fun p => p.1 == c) = none)) ∧
    (let c : Nat := 1
     let r : Nat × Nat := (1, 77)
     let s : State := resetting (sem8 3 0 (wrF (Reg.CTX_STATUS 1) Fld.CTX_STATUS_STATE 3 own))
     (c < 16) ∧ (held s = false) ∧ (dead s = false) ∧ (s.work = []) ∧ (s.ctxs.resets.find? (fun p => p.1 == c) = some r) ∧ ((∀ x ∈ seqsOf c s, inReset x.1 s = false ∧ (benchOf x.1 s).resetWait = false))) := by
  dsimp only [Acts, Issues, Quiet, Working, Takes, Reaches]
  refine ⟨?_, ?_, ?_, ?_, ?_⟩ <;> decide +kernel

/-- O41, clauses 1 to 8. -/
theorem test_hypotheses_clamp_and_mark_complete_1 :
    (let v : Word := 0xFFFFFFFFFFFFFFFF
     let src : Src := .host
     let s : State := at0 0
     let writes := fun (off : Nat) (x : Word) => Quiet s ∧ Reaches src off (.write x) s
     (writes Reg.DET_CLAMP_CTL v) ∧ (anyRunning s = true) ∧ (s.priv = false)) ∧
    (let v : Word := 0xFFFFFFFFFFFFFFFF
     let src : Src := .host
     let s : State := clampOut up
     let writes := fun (off : Nat) (x : Word) => Quiet s ∧ Reaches src off (.write x) s
     (writes Reg.DET_CLAMP_CTL v) ∧ (anyRunning s = false)) ∧
    (let s : State := up
     (Working s) ∧ (s.clamp.out = [] ∨ portActive 7 s = false)) ∧
    (let s : State := clampOut up
     (Working s) ∧ (s.clamp.out ≠ []) ∧ (portActive 7 s = true)) ∧
    (let n : Nat := 0
     let p : Packet := ctl 9 ((rec1 7).words ++ (rec1 8).words)
     let a : RxPkt := rxOf (ctl 9 ((rec1 7).words ++ (rec1 8).words))
     let s : State := holds (ctl 9 ((rec1 7).words ++ (rec1 8).words)) (clampOut up)
     let mine := fun (type : Nat) => Takes n p a s ∧ ctlIs type p = true
     (mine 9)) ∧
    (let v : Word := 0xFFFFFFFFFFFFFFFF
     let src : Src := .host
     let s : State := wr Reg.DET_CLAMP_FIRST 0x8000000000000000 up
     let writes := fun (off : Nat) (x : Word) => Quiet s ∧ Reaches src off (.write x) s
     let first := v ||| maskF ⟨63, 1⟩
     (writes Reg.DET_CLAMP_FIRST first)) ∧
    (let v : Word := 0xFFFFFFFFFFFFFFFF
     let src : Src := .host
     let s : State := waiting up
     let u := arrived src s
     let writes := fun (off : Nat) (x : Word) => Quiet s ∧ Reaches src off (.write x) s
     let waits := bitF Fld.DET_MARK_STATUS_WAITING (rd Reg.DET_MARK_STATUS u) = true ∨ markBlocked u ≠ 0
     (writes Reg.DET_MARK_CFG v) ∧ (waits) ∧ (s.priv = false)) ∧
    (let v : Word := 0xFFFFFFFFFFFFFFFF
     let src : Src := .host
     let s : State := up
     let u := arrived src s
     let writes := fun (off : Nat) (x : Word) => Quiet s ∧ Reaches src off (.write x) s
     let waits := bitF Fld.DET_MARK_STATUS_WAITING (rd Reg.DET_MARK_STATUS u) = true ∨ markBlocked u ≠ 0
     (writes Reg.DET_MARK_CFG v) ∧ (¬ waits)) := by
  dsimp only [Acts, Issues, Quiet, Working, Takes, Reaches]
  refine ⟨?_, ?_, ?_, ?_, ?_, ?_, ?_, ?_⟩ <;> decide +kernel

/-- O41, clauses 9 to 16. -/
theorem test_hypotheses_clamp_and_mark_complete_2 :
    (let v : Word := 0
     let src : Src := .host
     let s : State := markTree2 (job up)
     let writes := fun (off : Nat) (x : Word) => Quiet s ∧ Reaches src off (.write x) s
     let arriveW := v ||| maskF Fld.DET_MARK_CTL_ARRIVE
     (writes Reg.DET_MARK_CTL arriveW) ∧ (bitF Fld.DET_MARK_CTL_CANCEL v = false)) ∧
    (let v : Word := 0
     let src : Src := .host
     let s : State := waiting (inMark (markTree2 (job up)))
     let writes := fun (off : Nat) (x : Word) => Quiet s ∧ Reaches src off (.write x) s
     let cancelW := v ||| maskF Fld.DET_MARK_CTL_CANCEL
     (writes Reg.DET_MARK_CTL cancelW) ∧ (bitF Fld.DET_MARK_CTL_ARRIVE v = false)) ∧
    (let n : Nat := 0
     let p : Packet := ctl 8 [2 * 2 ^ 56 + 9 * 2 ^ 32 + 2, 0, 3 * 2 ^ 32 + 5, 0, 0, 0]
     let a : RxPkt := rxOf (ctl 8 [2 * 2 ^ 56 + 9 * 2 ^ 32 + 2, 0, 3 * 2 ^ 32 + 5, 0, 0, 0])
     let s : State := holds (ctl 8 [2 * 2 ^ 56 + 9 * 2 ^ 32 + 2, 0, 3 * 2 ^ 32 + 5, 0, 0, 0]) (mark1 { MarkSt.empty with got := [2] } (markTree2 (job up)))
     let k := takePacket n a s
     let mine := fun (type : Nat) => Takes n p a s ∧ ctlIs type p = true
     let child := pkC p 1 % 2 ^ 15
     (mine 8) ∧ (markMine p k = false ∨ child ∈ k.mark.got)) ∧
    (let n : Nat := 0
     let p : Packet := ctl 8 [2 * 2 ^ 56 + 9 * 2 ^ 32 + 2, 0, 3 * 2 ^ 32 + 5, 0, 0, 0]
     let a : RxPkt := rxOf (ctl 8 [2 * 2 ^ 56 + 9 * 2 ^ 32 + 2, 0, 3 * 2 ^ 32 + 5, 0, 0, 0])
     let s : State := holds (ctl 8 [2 * 2 ^ 56 + 9 * 2 ^ 32 + 2, 0, 3 * 2 ^ 32 + 5, 0, 0, 0]) (mark1 { MarkSt.empty with sw := true } (markTree2 (job up)))
     let k := takePacket n a s
     let mine := fun (type : Nat) => Takes n p a s ∧ ctlIs type p = true
     let child := pkC p 1 % 2 ^ 15
     (mine 8) ∧ (markMine p k = true) ∧ (child ∉ k.mark.got)) ∧
    (let n : Nat := 0
     let r : Nat := 1
     let p : Packet := ctl 7 [2 * 2 ^ 56 + 9 * 2 ^ 32 + 100, 5, 3 * 2 ^ 32 + 5, 0, 0, 0]
     let a : RxPkt := rxOf (ctl 7 [2 * 2 ^ 56 + 9 * 2 ^ 32 + 100, 5, 3 * 2 ^ 32 + 5, 0, 0, 0])
     let s : State := holds (ctl 7 [2 * 2 ^ 56 + 9 * 2 ^ 32 + 100, 5, 3 * 2 ^ 32 + 5, 0, 0, 0]) (mark1 { MarkSt.empty with phase := .awaitMark } (markTree2 (job up)))
     let k := takePacket n a s
     let mine := fun (type : Nat) => Takes n p a s ∧ ctlIs type p = true
     (mine 7) ∧ (a.pkt = p) ∧ (markMine p k = true) ∧ (k.mark.phase = .awaitMark) ∧ (ownRank k = some r)) ∧
    (let n : Nat := 0
     let p : Packet := ctl 7 [2 * 2 ^ 56 + 9 * 2 ^ 32 + 100, 5, 3 * 2 ^ 32 + 5, 0, 0, 0]
     let a : RxPkt := rxOf (ctl 7 [2 * 2 ^ 56 + 9 * 2 ^ 32 + 100, 5, 3 * 2 ^ 32 + 5, 0, 0, 0])
     let s : State := holds (ctl 7 [2 * 2 ^ 56 + 9 * 2 ^ 32 + 100, 5, 3 * 2 ^ 32 + 5, 0, 0, 0]) (markTree2 (job up))
     let k := takePacket n a s
     let mine := fun (type : Nat) => Takes n p a s ∧ ctlIs type p = true
     (mine 7) ∧ (a.pkt = p) ∧ (markMine p k = false ∨ k.mark.phase ≠ .awaitMark)) ∧
    (let n : Nat := 0
     let p : Packet := ctl 10 [0]
     let a : RxPkt := rxOf (ctl 10 [0])
     let s : State := holds (ctl 10 [0]) (self9 up)
     let k := takePacket n a s
     let mine := fun (type : Nat) => Takes n p a s ∧ ctlIs type p = true
     (mine 10) ∧ (n ≠ 7 ∨ bitF Fld.DET_MARK_CFG_TWIN (rd Reg.DET_MARK_CFG k) = false)) ∧
    (let n : Nat := 7
     let p : Packet := ctl 10 [0]
     let a : RxPkt := rxOf (ctl 10 [0])
     let s : State := holdsAt 7 (ctl 10 [0]) (mark1 { MarkSt.empty with phase := .awaitTwin } (wrF Reg.DET_MARK_CFG Fld.DET_MARK_CFG_TWIN 1 (job up)))
     let k := takePacket n a s
     let mine := fun (type : Nat) => Takes n p a s ∧ ctlIs type p = true
     (mine 10) ∧ (n = 7) ∧ (bitF Fld.DET_MARK_CFG_TWIN (rd Reg.DET_MARK_CFG k) = true) ∧ (pkC a.pkt 1 % 2 = 0)) := by
  dsimp only [Acts, Issues, Quiet, Working, Takes, Reaches]
  refine ⟨?_, ?_, ?_, ?_, ?_, ?_, ?_, ?_⟩ <;> decide +kernel

/-- O41, clauses 17 to 20. -/
theorem test_hypotheses_clamp_and_mark_complete_3 :
    (let n : Nat := 0
     let p : Packet := ctl 6 []
     let a : RxPkt := rxOf (ctl 6 [])
     let s : State := up
     let k := takePacket n a s
     let delay := pkC p 2 % 2 ^ 40 + portDelay n k
     let lead := pkC p 1 % 4096
     let rel := relOf a.when delay lead (pkC p 1 / 2 ^ 32 % 65536)
     (Working s) ∧ (s.mark.rel = none)) ∧
    (let n : Nat := 0
     let f : Nat := 64
     let h : Nat := 0
     let id : Nat := 9
     let late : Bool := true
     let p : Packet := ctl 6 []
     let a : RxPkt := rxOf (ctl 6 [])
     let s : State := mark1 { MarkSt.empty with phase := .releaseSet, rel := some (64, 0, 9, true) } (inMark (job up))
     let k := takePacket n a s
     let delay := pkC p 2 % 2 ^ 40 + portDelay n k
     let lead := pkC p 1 % 4096
     let rel := relOf a.when delay lead (pkC p 1 / 2 ^ 32 % 65536)
     (Working s) ∧ (s.mark.rel = some (f, h, id, late))) ∧
    (let s : State := up
     let limit := rdF Reg.DET_MARK_CFG Fld.DET_MARK_CFG_TIMEOUT_MS s
     let waiting := bitF Fld.DET_MARK_STATUS_WAITING (rd Reg.DET_MARK_STATUS s) = true ∧ s.mark.timedOut = false ∧ limit ≠ 0
     (Working s) ∧ (¬ waiting)) ∧
    (let s : State := waiting up
     let limit := rdF Reg.DET_MARK_CFG Fld.DET_MARK_CFG_TIMEOUT_MS s
     let waiting := bitF Fld.DET_MARK_STATUS_WAITING (rd Reg.DET_MARK_STATUS s) = true ∧ s.mark.timedOut = false ∧ limit ≠ 0
     (Working s) ∧ (waiting)) := by
  dsimp only [Acts, Issues, Quiet, Working, Takes, Reaches]
  refine ⟨?_, ?_, ?_, ?_⟩ <;> decide +kernel

/-- O42, clauses 1, 3, 4, 5, 6, 7, 10 and 11. -/
theorem test_hypotheses_images_complete :
    (let s : State := jigOf (fun j => { j with rebuild := true }) (inState 2 up)
     let loads := Quiet s ∧ s.dev = 2 ∧ held s = false ∧ s.power.ruril = true
     (s.work = []) ∧ (loads) ∧ (s.jig.rebuild = true)) ∧
    (let ok : Bool := true
     let s : State := inState 2 up
     let loads := Quiet s ∧ s.dev = 2 ∧ held s = false ∧ s.power.ruril = true
     let fail := imageFail (flashImg s) 268435456 ok s
     (s.work = []) ∧ (loads) ∧ (s.jig.rebuild = false) ∧ (fail ≠ 0)) ∧
    (let v : Word := 0
     let src : Src := .host
     let s : State := inState 3 up
     let asks := fun (f : Fld) => Quiet s ∧ Reaches src Reg.JIG_CTL (.write (v ||| maskF f)) s
     let startOk := (s.dev = 3 ∨ s.dev = 5 ∨ s.dev = 7) ∧ s.jig.prog = none
     (s.work = []) ∧ (asks Fld.JIG_CTL_PROGRAM) ∧ (bitF Fld.JIG_CTL_RESUME v = false) ∧ (startOk)) ∧
    (let v : Word := 0
     let src : Src := .host
     let s : State := up
     let asks := fun (f : Fld) => Quiet s ∧ Reaches src Reg.JIG_CTL (.write (v ||| maskF f)) s
     let startOk := (s.dev = 3 ∨ s.dev = 5 ∨ s.dev = 7) ∧ s.jig.prog = none
     (s.work = []) ∧ (asks Fld.JIG_CTL_PROGRAM) ∧ (bitF Fld.JIG_CTL_RESUME v = false) ∧ (¬ startOk)) ∧
    (let s : State := up
     (s.work = []) ∧ (s.jig.prog = none)) ∧
    (let first : Nat := 5000
     let tiles : Nat := 2
     let st : Nat := 5
     let s : State := jigOf (fun j => { j with prog := some (5000, 2, 5) }) (inState 5 up)
     let image := tileImg first s
     let clean := s.rbad.all (fun n => !(decide (first ≤ n) && decide (n * 4096 < first * 4096 + imgLen image)))
     let bad := if st ≠ 3 ∧ sysTile < first + tiles then 1 else imageFail image (tiles * 4096) clean s
     let programs := s.jig.prog = some (first, tiles, st) ∧ held s = false ∧ dead s = false
     (s.work = []) ∧ (programs) ∧ (bad ≠ 0)) ∧
    (let v : Word := 0
     let src : Src := .host
     let s : State := inState 7 up
     let asks := fun (f : Fld) => Quiet s ∧ Reaches src Reg.JIG_CTL (.write (v ||| maskF f)) s
     (s.work = []) ∧ (asks Fld.JIG_CTL_RESUME) ∧ (bitF Fld.JIG_CTL_PROGRAM v = false) ∧ (s.dev = 7)) ∧
    (let v : Word := 0
     let src : Src := .host
     let s : State := up
     let asks := fun (f : Fld) => Quiet s ∧ Reaches src Reg.JIG_CTL (.write (v ||| maskF f)) s
     (s.work = []) ∧ (asks Fld.JIG_CTL_RESUME) ∧ (bitF Fld.JIG_CTL_PROGRAM v = false) ∧ (s.dev ≠ 7)) := by
  dsimp only [Acts, Issues, Quiet, Working, Takes, Reaches]
  refine ⟨?_, ?_, ?_, ?_, ?_, ?_, ?_, ?_⟩ <;> decide +kernel

/-- O43, clauses 1 to 8. -/
theorem test_hypotheses_glue_up_complete_1 :
    (let v : Word := 0
     let src : Src := .host
     let s : State := wrF Reg.JIG_STATUS Fld.JIG_STATUS_LOADED 1 (wrF Reg.JIG_GLUE_SRC Fld.JIG_GLUE_SRC_RBASE 100 (ruril100 0 up))
     let u := arrived src s
     let asks := fun (f : Fld) => Quiet s ∧ Reaches src Reg.JIG_GLUE_CTL (.write (v ||| maskF f)) s
     let no := fun (f : Fld) => bitF f v = false
     let dry := asks Fld.JIG_GLUE_CTL_DRYFIT ∧ no Fld.JIG_GLUE_CTL_CANCEL ∧ no Fld.JIG_GLUE_CTL_GO
     let mayOpen := glueState u = 0 ∧ runs s = true ∧ bitF Fld.JIG_STATUS_LOADED (rd Reg.JIG_STATUS u) = true
     (dry) ∧ (mayOpen)) ∧
    (let v : Word := 0
     let src : Src := .host
     let s : State := up
     let u := arrived src s
     let asks := fun (f : Fld) => Quiet s ∧ Reaches src Reg.JIG_GLUE_CTL (.write (v ||| maskF f)) s
     let no := fun (f : Fld) => bitF f v = false
     let dry := asks Fld.JIG_GLUE_CTL_DRYFIT ∧ no Fld.JIG_GLUE_CTL_CANCEL ∧ no Fld.JIG_GLUE_CTL_GO
     let mayOpen := glueState u = 0 ∧ runs s = true ∧ bitF Fld.JIG_STATUS_LOADED (rd Reg.JIG_STATUS u) = true
     (dry) ∧ (¬ mayOpen)) ∧
    (let s : State := up
     (Working s) ∧ (glueState s ≠ 1)) ∧
    (let s : State := setGlue 1 (mapOnly up)
     (Working s) ∧ (glueState s = 1) ∧ (glueFit s = none)) ∧
    (let k : Nat := fitKey 1 none
     let s : State := setGlue 1 (jigOf (fun j => { j with base := 2002 }) (mapOnly up))
     (Working s) ∧ (glueState s = 1) ∧ (glueFit s = some k)) ∧
    (let v : Word := 0
     let src : Src := .host
     let s : State := setGlue 2 (mapOnly up)
     let u := arrived src s
     let asks := fun (f : Fld) => Quiet s ∧ Reaches src Reg.JIG_GLUE_CTL (.write (v ||| maskF f)) s
     let no := fun (f : Fld) => bitF f v = false
     let go := asks Fld.JIG_GLUE_CTL_GO ∧ no Fld.JIG_GLUE_CTL_CANCEL ∧ no Fld.JIG_GLUE_CTL_DRYFIT
     (go) ∧ (glueState u = 2)) ∧
    (let v : Word := 0
     let src : Src := .host
     let s : State := setGlue 1 (mapOnly up)
     let u := arrived src s
     let asks := fun (f : Fld) => Quiet s ∧ Reaches src Reg.JIG_GLUE_CTL (.write (v ||| maskF f)) s
     let no := fun (f : Fld) => bitF f v = false
     let go := asks Fld.JIG_GLUE_CTL_GO ∧ no Fld.JIG_GLUE_CTL_CANCEL ∧ no Fld.JIG_GLUE_CTL_DRYFIT
     (go) ∧ (glueState u ≠ 2)) ∧
    (let s : State := up
     (Quiet s) ∧ (runs s = true) ∧ (glueState s ≠ 3 ∨ fetchesDone s = true)) := by
  dsimp only [Acts, Issues, Quiet, Working, Takes, Reaches]
  refine ⟨?_, ?_, ?_, ?_, ?_, ?_, ?_, ?_⟩ <;> decide +kernel

/-- O43, clauses 9 to 16. -/
theorem test_hypotheses_glue_up_complete_2 :
    (let ts : List Tile := []
     let s : State := setGlue 3 (fetchOnly up)
     let f := s.jig.fetch
     let fetching := Quiet s ∧ runs s = true ∧ glueState s = 3 ∧ fetchesDone s = false
     let want := (recWord f 1 s).toNat % 2 ^ 24
     (fetching) ∧ (ts.length ≠ want)) ∧
    (let ts : List Tile := [⟨1, [2]⟩, ⟨3, [4]⟩]
     let s : State := setGlue 3 (fetchOnly up)
     let f := s.jig.fetch
     let fetching := Quiet s ∧ runs s = true ∧ glueState s = 3 ∧ fetchesDone s = false
     let want := (recWord f 1 s).toNat % 2 ^ 24
     (fetching) ∧ (ts.length = want)) ∧
    (let s : State := setGlue 3 (fetchOnly up)
     let fetching := Quiet s ∧ runs s = true ∧ glueState s = 3 ∧ fetchesDone s = false
     (fetching)) ∧
    (let v : Word := 0
     let src : Src := .host
     let s : State := setGlue 2 (mapOnly up)
     let u := arrived src s
     let asks := fun (f : Fld) => Quiet s ∧ Reaches src Reg.JIG_GLUE_CTL (.write (v ||| maskF f)) s
     let no := fun (f : Fld) => bitF f v = false
     let cancel := asks Fld.JIG_GLUE_CTL_CANCEL ∧ no Fld.JIG_GLUE_CTL_GO ∧ no Fld.JIG_GLUE_CTL_DRYFIT
     (cancel) ∧ (glueState u = 2 ∨ glueState u = 3)) ∧
    (let v : Word := 0
     let src : Src := .host
     let s : State := setGlue 4 (fetchOnly up)
     let u := arrived src s
     let asks := fun (f : Fld) => Quiet s ∧ Reaches src Reg.JIG_GLUE_CTL (.write (v ||| maskF f)) s
     let no := fun (f : Fld) => bitF f v = false
     let cancel := asks Fld.JIG_GLUE_CTL_CANCEL ∧ no Fld.JIG_GLUE_CTL_GO ∧ no Fld.JIG_GLUE_CTL_DRYFIT
     (cancel) ∧ (glueState u ≠ 2) ∧ (glueState u ≠ 3)) ∧
    (let s : State := up
     let still := ∀ c < 16, bitAt s.glueHold c = true → ∀ p ∈ seqsOf c s, seqHeld p.1 p.2 s = true
     (Quiet s) ∧ (runs s = true) ∧ (glueState s ≠ 4 ∨ ¬ still)) ∧
    (let s : State := setGlue 4 (holdOne (jigOf (fun j => { j with bad := 3 }) (fetchOnly own)))
     let still := ∀ c < 16, bitAt s.glueHold c = true → ∀ p ∈ seqsOf c s, seqHeld p.1 p.2 s = true
     let stopping := runs s = true ∧ glueState s = 4
     (stopping) ∧ (still) ∧ (s.jig.bad ≠ 0)) ∧
    (let s : State := setGlue 4 (holdOne (mapOnly own))
     let still := ∀ c < 16, bitAt s.glueHold c = true → ∀ p ∈ seqsOf c s, seqHeld p.1 p.2 s = true
     let stopping := runs s = true ∧ glueState s = 4
     (stopping) ∧ (still) ∧ (s.jig.bad = 0) ∧ (glueFit s = none)) := by
  dsimp only [Acts, Issues, Quiet, Working, Takes, Reaches]
  refine ⟨?_, ?_, ?_, ?_, ?_, ?_, ?_, ?_⟩ <;> decide +kernel

/-- O43, clauses 17 to 20. -/
theorem test_hypotheses_glue_up_complete_3 :
    (let k : Nat := fitKey 11 (some 0)
     let s : State := setGlue 4 (holdOne (fetchOnly own))
     let still := ∀ c < 16, bitAt s.glueHold c = true → ∀ p ∈ seqsOf c s, seqHeld p.1 p.2 s = true
     let stopping := runs s = true ∧ glueState s = 4
     (stopping) ∧ (still) ∧ (s.jig.bad = 0) ∧ (glueFit s = some k)) ∧
    (let s : State := setGlue 4 (mapOnly own)
     let stopping := runs s = true ∧ glueState s = 4
     (stopping)) ∧
    (let i : ColInst := inst1
     let s : State := setGlue 5 (withCol [inst1] [] (jigOf (fun j => { j with gseq := 4 }) (fetchOnly (coll 0 1 own))))
     let voting := runs s = true ∧ glueState s = 5 ∧ glueGroup s ≠ 0
     let g := glueGroup s % 1024
     (voting) ∧ (colOpen g s.jig.gseq s = some i)) ∧
    (let s : State := setGlue 5 (fetchOnly own)
     let voting := runs s = true ∧ glueState s = 5 ∧ glueGroup s ≠ 0
     let g := glueGroup s % 1024
     (voting) ∧ (colOpen g s.jig.gseq s = none)) := by
  dsimp only [Acts, Issues, Quiet, Working, Takes, Reaches]
  refine ⟨?_, ?_, ?_, ?_⟩ <;> decide +kernel

/-- O44, clauses 1 to 8. -/
theorem test_hypotheses_supplies_and_resets_complete_1 :
    (let s : State := up
     (s.work = []) ∧ (s.power.aux = true)) ∧
    (let s : State := power (fun p => { p with aux := false }) ({ up with dev := 0 })
     (s.work = []) ∧ (s.power.aux = false) ∧ (s.dev = 0)) ∧
    (let s : State := power (fun p => { p with aux := false }) (up)
     (s.work = []) ∧ (s.power.aux = false) ∧ (s.dev ≠ 0)) ∧
    (let s : State := power (fun p => { p with aux := false }) (up)
     (s.work = []) ∧ (s.power.aux = false)) ∧
    (let s : State := tile5 2 (wr Reg.GLB_RESET_CAUSE 5 up)
     (s.work = []) ∧ (s.power.aux = true) ∧ (2 ≤ s.dev)) ∧
    (let s : State := power (fun p => { p with ramp := true }) ({ up with dev := 1 })
     (s.work = []) ∧ (s.power.aux = true) ∧ (s.dev < 2)) ∧
    (let s : State := up
     (s.work = []) ∧ (s.power.main = true)) ∧
    (let s : State := power (fun p => { p with main := false }) ({ up with dev := 1 })
     (s.work = []) ∧ (s.power.main = false)) := by
  dsimp only [Acts, Issues, Quiet, Working, Takes, Reaches]
  refine ⟨?_, ?_, ?_, ?_, ?_, ?_, ?_, ?_⟩ <;> decide +kernel

/-- O44, clauses 9 to 16. -/
theorem test_hypotheses_supplies_and_resets_complete_2 :
    (let s : State := power (fun p => { p with main := false }) (up)
     (s.work = []) ∧ (s.power.main = false)) ∧
    (let s : State := tile5 2 (job own)
     (s.work = []) ∧ (s.power.main = true) ∧ (2 ≤ s.dev) ∧ (s.power.aux = true)) ∧
    (let s : State := power (fun p => { p with aux := false }) (tile5 2 (job own))
     (s.work = []) ∧ (s.power.main = true) ∧ (2 ≤ s.dev) ∧ (s.power.aux = false)) ∧
    (let s : State := power (fun p => { p with ramp := true }) ({ up with dev := 1 })
     (s.work = []) ∧ (s.power.main = true) ∧ (s.dev < 2)) ∧
    (let s : State := up
     (s.work = []) ∧ (s.dev ≠ 1 ∨ s.power.ramp = false)) ∧
    (let s : State := power (fun p => { p with ramp := true, lost := 2 }) (tile5 2 { up with dev := 1 })
     (s.work = []) ∧ (s.dev = 1) ∧ (s.power.ramp = true)) ∧
    (let s : State := { up with dev := 1 }
     (s.work = []) ∧ (held s = true)) ∧
    (let s : State := up
     (s.work = []) ∧ (held s = false)) := by
  dsimp only [Acts, Issues, Quiet, Working, Takes, Reaches]
  refine ⟨?_, ?_, ?_, ?_, ?_, ?_, ?_, ?_⟩ <;> decide +kernel

/-- O44, clauses 17 to 24. -/
theorem test_hypotheses_supplies_and_resets_complete_3 :
    (let s : State := power (fun p => { p with aux := false }) (up)
     (s.work = []) ∧ (s.power.aux = false ∨ held s = true)) ∧
    (let s : State := tile5 2 (job own)
     (s.work = []) ∧ (s.power.aux = true) ∧ (held s = false)) ∧
    (let v : Word := 0x7A300000000
     let src : Src := .host
     let s : State := up
     let warm := v ||| maskF Fld.GLB_RESET_CTL_WARM
     let keyed := getF Fld.GLB_RESET_CTL_KEY v = 0x7A31
     let asks := Quiet s ∧ Reaches src Reg.GLB_RESET_CTL (.write warm) s
     (s.work = []) ∧ (asks) ∧ (¬ keyed)) ∧
    (let v : Word := setF Fld.GLB_RESET_CTL_KEY 0 0x7A31
     let src : Src := .host
     let s : State := tile5 2 (job own)
     let warm := v ||| maskF Fld.GLB_RESET_CTL_WARM
     let keyed := getF Fld.GLB_RESET_CTL_KEY v = 0x7A31
     let asks := Quiet s ∧ Reaches src Reg.GLB_RESET_CTL (.write warm) s
     (s.work = []) ∧ (asks) ∧ (keyed) ∧ (held s = false)) ∧
    (let v : Word := 0
     let s : State := up
     let warm := v ||| maskF Fld.GLB_RESET_CTL_WARM
     (s.work = []) ∧ (s.power.warm = none)) ∧
    (let c : Nat := 3
     let v : Word := 0
     let s : State := power (fun p => { p with warm := some 3 }) (job up)
     let warm := v ||| maskF Fld.GLB_RESET_CTL_WARM
     (s.work = []) ∧ (s.power.warm = some c)) ∧
    (let s : State := power (fun p => { p with perst := true }) (up)
     (s.work = []) ∧ (held s = true ∨ s.power.aux = false ∨ s.power.perst = true)) ∧
    (let s : State := { up with msixEn := true }
     (s.work = []) ∧ (held s = false) ∧ (s.power.aux = true) ∧ (s.power.perst = false)) := by
  dsimp only [Acts, Issues, Quiet, Working, Takes, Reaches]
  refine ⟨?_, ?_, ?_, ?_, ?_, ?_, ?_, ?_⟩ <;> decide +kernel

/-- O44, clauses 25 to 26. -/
theorem test_hypotheses_supplies_and_resets_complete_4 :
    (let s : State := power (fun p => { p with perst := true }) (up)
     (s.work = [])) ∧
    (let v : Word := 0
     let src : Src := .host
     let s : State := wrF Reg.GLB_SUPPLY Fld.GLB_SUPPLY_AUX_LOST 1 up
     (s.work = []) ∧ (Quiet s) ∧ (Reaches src Reg.GLB_SUPPLY (.write (v ||| maskF Fld.GLB_SUPPLY_AUX_LOST)) s)) := by
  dsimp only [Acts, Issues, Quiet, Working, Takes, Reaches]
  refine ⟨?_, ?_⟩ <;> decide +kernel

/-- O45, clauses 1 to 8. -/
theorem test_hypotheses_training_and_clocks_complete_1 :
    (let s : State := portsFollow (inState 4 up)
     (Quiet s) ∧ (runs s = true) ∧ (s.dev = 4) ∧ (portsSettled s = true)) ∧
    (let s : State := up
     (Quiet s) ∧ (runs s = true) ∧ (s.dev ≠ 4 ∨ portsSettled s = false)) ∧
    (let s : State := port 3 2 0 id (inState 4 up)
     (Quiet s) ∧ (runs s = true) ∧ (s.dev = 4)) ∧
    (let s : State := up
     (Quiet s) ∧ (runs s = true) ∧ (s.dev ≠ 4)) ∧
    (let v : Word := 0
     let src : Src := .host
     let s : State := inState 5 up
     let stop := Reaches src Reg.GLB_STATE_CTL (.write (v ||| maskF Fld.GLB_STATE_CTL_STOP)) s
     (Quiet s) ∧ (stop) ∧ (s.dev = 5)) ∧
    (let v : Word := 0
     let src : Src := .host
     let s : State := up
     let stop := Reaches src Reg.GLB_STATE_CTL (.write (v ||| maskF Fld.GLB_STATE_CTL_STOP)) s
     (Quiet s) ∧ (stop) ∧ (s.dev ≠ 5)) ∧
    (let s : State := inState 6 own
     (Quiet s) ∧ (held s = false ∧ s.dev ≤ 7)) ∧
    (let s : State := inState 6 own
     (Quiet s) ∧ (held s = false ∧ s.dev ≤ 7)) := by
  dsimp only [Acts, Issues, Quiet, Working, Takes, Reaches]
  refine ⟨?_, ?_, ?_, ?_, ?_, ?_, ?_, ?_⟩ <;> decide +kernel

/-- O45, clauses 9 to 12. -/
theorem test_hypotheses_training_and_clocks_complete_2 :
    (let d : Nat := 3
     let s : State := inState 6 own
     (Quiet s) ∧ (d < 4) ∧ (held s = false ∧ s.dev ≤ 7)) ∧
    (let s : State := inState 6 own
     (Quiet s) ∧ (held s = false ∧ s.dev ≤ 7)) ∧
    (let s : State := inState 1 up
     (Quiet s) ∧ (held s = true ∨ linkUp s = false)) ∧
    (let s : State := own
     (Quiet s) ∧ (held s = false) ∧ (linkUp s = true)) := by
  dsimp only [Acts, Issues, Quiet, Working, Takes, Reaches]
  refine ⟨?_, ?_, ?_, ?_⟩ <;> decide +kernel

/-- O46, clauses 1 to 3. -/
theorem test_hypotheses_host_link_complete_1 :
    (let rate : Nat := 2
     let width : Nat := 9
     let s : State := noLink up
     let trains := held s = false ∧ s.power.perst = false ∧ linkUp s = false ∧ s.host.retryAt = none
     let good := 1 ≤ rate ∧ rate ≤ 3 ∧ 4 ≤ width
     (s.work = []) ∧ (trains) ∧ (good)) ∧
    (let rate : Nat := 3
     let width : Nat := 16
     let s : State := noLink { up with dev := 3 }
     let trains := held s = false ∧ s.power.perst = false ∧ linkUp s = false ∧ s.host.retryAt = none
     let good := 1 ≤ rate ∧ rate ≤ 3 ∧ 4 ≤ width
     (s.work = []) ∧ (trains) ∧ (good)) ∧
    (let rate : Nat := 1
     let width : Nat := 4
     let s : State := noLink up
     let trains := held s = false ∧ s.power.perst = false ∧ linkUp s = false ∧ s.host.retryAt = none
     let good := 1 ≤ rate ∧ rate ≤ 3 ∧ 4 ≤ width
     (s.work = []) ∧ (trains) ∧ (good)) ∧
    (let rate : Nat := 2
     let width : Nat := 3
     let s : State := noLink up
     let trains := held s = false ∧ s.power.perst = false ∧ linkUp s = false ∧ s.host.retryAt = none
     let good := 1 ≤ rate ∧ rate ≤ 3 ∧ 4 ≤ width
     (s.work = []) ∧ (trains) ∧ (¬ good)) ∧
    (let rate : Nat := 4
     let width : Nat := 9
     let s : State := noLink up
     let trains := held s = false ∧ s.power.perst = false ∧ linkUp s = false ∧ s.host.retryAt = none
     let good := 1 ≤ rate ∧ rate ≤ 3 ∧ 4 ≤ width
     (s.work = []) ∧ (trains) ∧ (¬ good)) ∧
    (let rate : Nat := 0
     let width : Nat := 9
     let s : State := noLink up
     let trains := held s = false ∧ s.power.perst = false ∧ linkUp s = false ∧ s.host.retryAt = none
     let good := 1 ≤ rate ∧ rate ≤ 3 ∧ 4 ≤ width
     (s.work = []) ∧ (trains) ∧ (¬ good)) ∧
    (let s : State := up
     let trains := held s = false ∧ s.power.perst = false ∧ linkUp s = false ∧ s.host.retryAt = none
     (s.work = []) ∧ (¬ trains)) ∧
    (let s : State := power (fun p => { p with perst := true }) (noLink up)
     let trains := held s = false ∧ s.power.perst = false ∧ linkUp s = false ∧ s.host.retryAt = none
     (s.work = []) ∧ (¬ trains)) := by
  dsimp only [Acts, Issues, Quiet, Working, Takes, Reaches]
  refine ⟨?_, ?_, ?_, ?_, ?_, ?_, ?_, ?_⟩ <;> decide +kernel

/-- O46, clauses 3 to 8. -/
theorem test_hypotheses_host_link_complete_2 :
    (let s : State := hostOf (fun h => { h with retryAt := some 5 }) (noLink up)
     let trains := held s = false ∧ s.power.perst = false ∧ linkUp s = false ∧ s.host.retryAt = none
     (s.work = []) ∧ (¬ trains)) ∧
    (let s : State := up
     (s.work = []) ∧ (s.host.retryAt = none)) ∧
    (let c : Nat := 3
     let s : State := hostOf (fun h => { h with retryAt := some 3 }) (noLink up)
     (s.work = []) ∧ (s.host.retryAt = some c)) ∧
    (let s : State := noLink up
     (s.work = []) ∧ (held s = true ∨ linkUp s = false)) ∧
    (let s : State := own
     (s.work = []) ∧ (held s = false) ∧ (linkUp s = true)) ∧
    (let s : State := { own with msixEn := true }
     (s.work = [])) ∧
    (let s : State := noLink up
     (s.work = [])) ∧
    (let s : State := { up with dev := 1 }
     (s.work = [])) := by
  dsimp only [Acts, Issues, Quiet, Working, Takes, Reaches]
  refine ⟨?_, ?_, ?_, ?_, ?_, ?_, ?_, ?_⟩ <;> decide +kernel

/-- O46, clauses 9 to 11. -/
theorem test_hypotheses_host_link_complete_3 :
    (let s : State := { own with msixEn := true }
     (s.work = [])) ∧
    (let s : State := noLink up
     (s.work = [])) ∧
    (let s : State := { up with dev := 1 }
     (s.work = [])) ∧
    (let s : State := { own with msixEn := true }
     (s.work = [])) ∧
    (let s : State := noLink up
     (s.work = [])) ∧
    (let s : State := { up with dev := 1 }
     (s.work = [])) ∧
    (let s : State := hdm { own with msixEn := true, msixOpen := [3] }
     (s.work = [])) ∧
    (let s : State := hdm own
     (s.work = [])) := by
  dsimp only [Acts, Issues, Quiet, Working, Takes, Reaches]
  refine ⟨?_, ?_, ?_, ?_, ?_, ?_, ?_, ?_⟩ <;> decide +kernel

/-- O46, clauses 12 to 14. -/
theorem test_hypotheses_host_link_complete_4 :
    (let addr : Nat := 2 ^ 28 + 100 * 4096 + 130
     let s : State := up
     let asked := if memOpen s then hdmAddr addr s else none
     (s.work = []) ∧ (asked = none)) ∧
    (let addr : Nat := 5
     let s : State := hdm up
     let asked := if memOpen s then hdmAddr addr s else none
     (s.work = []) ∧ (asked = none)) ∧
    (let addr : Nat := 2 ^ 28 + 100 * 4096 + 130
     let s : State := noLink (hdm up)
     let asked := if memOpen s then hdmAddr addr s else none
     (s.work = []) ∧ (asked = none)) ∧
    (let addr : Nat := 2 ^ 28 + 100 * 4096 + 130
     let e : Ecc := noEcc
     let s : State := hdm (ruril100 2 up)
     let asked := if memOpen s then hdmAddr addr s else none
     let secure := s.power.ruril = true ∧ (bitF Fld.SEC_POLICY_IDE_REQUIRED (rd Reg.SEC_POLICY s) = true →
           bitF Fld.GLB_HIF_LINK_IDE_CM (rd Reg.GLB_HIF_LINK s) = true)
     let open' := fun (d : Nat) => asked = some d ∧ secure ∧ (d / 4096 < sysTile ∨ s.dev = 3)
     let sound := fun (d : Nat) => (rurilRead (d / 4096) e s).1 = true ∧
           ∀ p ∈ objOfRtn (d / 4096) s, ∀ r ∈ recovOf p.1 s, p.2 ∉ r.tiles
     let d := 100 * 4096 + 128
     (s.work = []) ∧ (open' d) ∧ (sound d)) ∧
    (let addr : Nat := 2 ^ 28 + sysTile * 4096
     let e : Ecc := noEcc
     let s : State := hdm { up with dev := 3 }
     let asked := if memOpen s then hdmAddr addr s else none
     let secure := s.power.ruril = true ∧ (bitF Fld.SEC_POLICY_IDE_REQUIRED (rd Reg.SEC_POLICY s) = true →
           bitF Fld.GLB_HIF_LINK_IDE_CM (rd Reg.GLB_HIF_LINK s) = true)
     let open' := fun (d : Nat) => asked = some d ∧ secure ∧ (d / 4096 < sysTile ∨ s.dev = 3)
     let sound := fun (d : Nat) => (rurilRead (d / 4096) e s).1 = true ∧
           ∀ p ∈ objOfRtn (d / 4096) s, ∀ r ∈ recovOf p.1 s, p.2 ∉ r.tiles
     let d := sysTile * 4096
     (s.work = []) ∧ (open' d) ∧ (sound d)) ∧
    (let addr : Nat := 2 ^ 28 + 100 * 4096 + 130
     let e : Ecc := ⟨2, []⟩
     let s : State := hdm up
     let asked := if memOpen s then hdmAddr addr s else none
     let secure := s.power.ruril = true ∧ (bitF Fld.SEC_POLICY_IDE_REQUIRED (rd Reg.SEC_POLICY s) = true →
           bitF Fld.GLB_HIF_LINK_IDE_CM (rd Reg.GLB_HIF_LINK s) = true)
     let open' := fun (d : Nat) => asked = some d ∧ secure ∧ (d / 4096 < sysTile ∨ s.dev = 3)
     let sound := fun (d : Nat) => (rurilRead (d / 4096) e s).1 = true ∧
           ∀ p ∈ objOfRtn (d / 4096) s, ∀ r ∈ recovOf p.1 s, p.2 ∉ r.tiles
     let d := 100 * 4096 + 128
     (s.work = []) ∧ (open' d) ∧ (sound d)) ∧
    (let addr : Nat := 2 ^ 28 + 100 * 4096 + 130
     let e : Ecc := ⟨2, [100]⟩
     let s : State := hdm up
     let asked := if memOpen s then hdmAddr addr s else none
     let secure := s.power.ruril = true ∧ (bitF Fld.SEC_POLICY_IDE_REQUIRED (rd Reg.SEC_POLICY s) = true →
           bitF Fld.GLB_HIF_LINK_IDE_CM (rd Reg.GLB_HIF_LINK s) = true)
     let open' := fun (d : Nat) => asked = some d ∧ secure ∧ (d / 4096 < sysTile ∨ s.dev = 3)
     let sound := fun (d : Nat) => (rurilRead (d / 4096) e s).1 = true ∧
           ∀ p ∈ objOfRtn (d / 4096) s, ∀ r ∈ recovOf p.1 s, p.2 ∉ r.tiles
     let d := 100 * 4096 + 128
     (s.work = []) ∧ (open' d) ∧ (¬ sound d)) ∧
    (let addr : Nat := 2 ^ 28 + 100 * 4096 + 130
     let e : Ecc := noEcc
     let s : State := recovers [0] 0 3 (hdm up)
     let asked := if memOpen s then hdmAddr addr s else none
     let secure := s.power.ruril = true ∧ (bitF Fld.SEC_POLICY_IDE_REQUIRED (rd Reg.SEC_POLICY s) = true →
           bitF Fld.GLB_HIF_LINK_IDE_CM (rd Reg.GLB_HIF_LINK s) = true)
     let open' := fun (d : Nat) => asked = some d ∧ secure ∧ (d / 4096 < sysTile ∨ s.dev = 3)
     let sound := fun (d : Nat) => (rurilRead (d / 4096) e s).1 = true ∧
           ∀ p ∈ objOfRtn (d / 4096) s, ∀ r ∈ recovOf p.1 s, p.2 ∉ r.tiles
     let d := 100 * 4096 + 128
     (s.work = []) ∧ (open' d) ∧ (¬ sound d)) := by
  dsimp only [Acts, Issues, Quiet, Working, Takes, Reaches]
  refine ⟨?_, ?_, ?_, ?_, ?_, ?_, ?_, ?_⟩ <;> decide +kernel

/-- O46, clauses 15 to 18. -/
theorem test_hypotheses_host_link_complete_5 :
    (let addr : Nat := 2 ^ 28 + sysTile * 4096
     let s : State := hdm up
     let asked := if memOpen s then hdmAddr addr s else none
     let secure := s.power.ruril = true ∧ (bitF Fld.SEC_POLICY_IDE_REQUIRED (rd Reg.SEC_POLICY s) = true →
           bitF Fld.GLB_HIF_LINK_IDE_CM (rd Reg.GLB_HIF_LINK s) = true)
     let shut := fun (d : Nat) => asked = some d ∧ secure ∧ sysTile ≤ d / 4096 ∧ s.dev ≠ 3
     let d := sysTile * 4096
     (s.work = []) ∧ (shut d)) ∧
    (let addr : Nat := 2 ^ 28 + 100 * 4096 + 130
     let s : State := power (fun p => { p with ruril := false }) (hdm up)
     let asked := if memOpen s then hdmAddr addr s else none
     let secure := s.power.ruril = true ∧ (bitF Fld.SEC_POLICY_IDE_REQUIRED (rd Reg.SEC_POLICY s) = true →
           bitF Fld.GLB_HIF_LINK_IDE_CM (rd Reg.GLB_HIF_LINK s) = true)
     let d := 100 * 4096 + 128
     (s.work = []) ∧ (asked = some d) ∧ (¬ secure)) ∧
    (let addr : Nat := 2 ^ 28 + 100 * 4096 + 130
     let s : State := ideOnly (hdm up)
     let asked := if memOpen s then hdmAddr addr s else none
     let secure := s.power.ruril = true ∧ (bitF Fld.SEC_POLICY_IDE_REQUIRED (rd Reg.SEC_POLICY s) = true →
           bitF Fld.GLB_HIF_LINK_IDE_CM (rd Reg.GLB_HIF_LINK s) = true)
     let d := 100 * 4096 + 128
     (s.work = []) ∧ (asked = some d) ∧ (¬ secure)) ∧
    (let addr : Nat := 2 ^ 28 + 100 * 4096 + 130
     let s : State := hdm (ruril100 2 up)
     let asked := if memOpen s then hdmAddr addr s else none
     let secure := s.power.ruril = true ∧ (bitF Fld.SEC_POLICY_IDE_REQUIRED (rd Reg.SEC_POLICY s) = true →
           bitF Fld.GLB_HIF_LINK_IDE_CM (rd Reg.GLB_HIF_LINK s) = true)
     let open' := fun (d : Nat) => asked = some d ∧ secure ∧ (d / 4096 < sysTile ∨ s.dev = 3)
     let free := fun (d : Nat) => ∀ p ∈ objOfRtn (d / 4096) s, objState p.1 s = osRuril
     let d := 100 * 4096 + 128
     (s.work = []) ∧ (open' d) ∧ (free d)) ∧
    (let addr : Nat := 2 ^ 28 + 100 * 4096 + 130
     let s : State := obj2 osRuril 0 (hdm up)
     let asked := if memOpen s then hdmAddr addr s else none
     let secure := s.power.ruril = true ∧ (bitF Fld.SEC_POLICY_IDE_REQUIRED (rd Reg.SEC_POLICY s) = true →
           bitF Fld.GLB_HIF_LINK_IDE_CM (rd Reg.GLB_HIF_LINK s) = true)
     let open' := fun (d : Nat) => asked = some d ∧ secure ∧ (d / 4096 < sysTile ∨ s.dev = 3)
     let free := fun (d : Nat) => ∀ p ∈ objOfRtn (d / 4096) s, objState p.1 s = osRuril
     let d := 100 * 4096 + 128
     (s.work = []) ∧ (open' d) ∧ (free d)) ∧
    (let addr : Nat := 2 ^ 28 + sysTile * 4096
     let s : State := hdm { up with dev := 3 }
     let asked := if memOpen s then hdmAddr addr s else none
     let secure := s.power.ruril = true ∧ (bitF Fld.SEC_POLICY_IDE_REQUIRED (rd Reg.SEC_POLICY s) = true →
           bitF Fld.GLB_HIF_LINK_IDE_CM (rd Reg.GLB_HIF_LINK s) = true)
     let open' := fun (d : Nat) => asked = some d ∧ secure ∧ (d / 4096 < sysTile ∨ s.dev = 3)
     let free := fun (d : Nat) => ∀ p ∈ objOfRtn (d / 4096) s, objState p.1 s = osRuril
     let d := sysTile * 4096
     (s.work = []) ∧ (open' d) ∧ (free d)) ∧
    (let addr : Nat := 2 ^ 28 + sysTile * 4096
     let s : State := hdm up
     let asked := if memOpen s then hdmAddr addr s else none
     let secure := s.power.ruril = true ∧ (bitF Fld.SEC_POLICY_IDE_REQUIRED (rd Reg.SEC_POLICY s) = true →
           bitF Fld.GLB_HIF_LINK_IDE_CM (rd Reg.GLB_HIF_LINK s) = true)
     let open' := fun (d : Nat) => asked = some d ∧ secure ∧ (d / 4096 < sysTile ∨ s.dev = 3)
     let shut := fun (d : Nat) => asked = some d ∧ secure ∧ sysTile ≤ d / 4096 ∧ s.dev ≠ 3
     let free := fun (d : Nat) => ∀ p ∈ objOfRtn (d / 4096) s, objState p.1 s = osRuril
     let d := sysTile * 4096
     (s.work = []) ∧ (shut d ∨ (open' d ∧ ¬ free d))) ∧
    (let addr : Nat := 2 ^ 28 + 100 * 4096 + 130
     let s : State := obj2 osPoisoned 3 (hdm up)
     let asked := if memOpen s then hdmAddr addr s else none
     let secure := s.power.ruril = true ∧ (bitF Fld.SEC_POLICY_IDE_REQUIRED (rd Reg.SEC_POLICY s) = true →
           bitF Fld.GLB_HIF_LINK_IDE_CM (rd Reg.GLB_HIF_LINK s) = true)
     let open' := fun (d : Nat) => asked = some d ∧ secure ∧ (d / 4096 < sysTile ∨ s.dev = 3)
     let shut := fun (d : Nat) => asked = some d ∧ secure ∧ sysTile ≤ d / 4096 ∧ s.dev ≠ 3
     let free := fun (d : Nat) => ∀ p ∈ objOfRtn (d / 4096) s, objState p.1 s = osRuril
     let d := 100 * 4096 + 128
     (s.work = []) ∧ (shut d ∨ (open' d ∧ ¬ free d))) := by
  dsimp only [Acts, Issues, Quiet, Working, Takes, Reaches]
  refine ⟨?_, ?_, ?_, ?_, ?_, ?_, ?_, ?_⟩ <;> decide +kernel

/-- O46, clauses 19 to 23. -/
theorem test_hypotheses_host_link_complete_6 :
    (let s : State := up
     (s.work = [])) ∧
    (let s : State := noLink up
     (s.work = [])) ∧
    (let s : State := up
     let scrubs := held s = false ∧ dead s = false ∧ s.power.ruril = true
     (s.work = []) ∧ (¬ scrubs)) ∧
    (let s : State := ruril { up with dev := 1 }
     let scrubs := held s = false ∧ dead s = false ∧ s.power.ruril = true
     (s.work = []) ∧ (¬ scrubs)) ∧
    (let bad : Bool := false
     let s : State := ruril up
     let scrubs := held s = false ∧ dead s = false ∧ s.power.ruril = true
     (s.work = []) ∧ (scrubs) ∧ (bad = false)) ∧
    (let bad : Bool := false
     let s : State := ruril up
     let scrubs := held s = false ∧ dead s = false ∧ s.power.ruril = true
     (s.work = []) ∧ (scrubs) ∧ (bad = false)) ∧
    (let n : Nat := 100
     let bad : Bool := true
     let s : State := ruril up
     let scrubs := held s = false ∧ dead s = false ∧ s.power.ruril = true
     (s.work = []) ∧ (scrubs) ∧ (bad = true) ∧ (objOfRtn n s = none)) ∧
    (let n : Nat := 100
     let bad : Bool := true
     let s : State := obj2 osRuril 0 (ruril up)
     let scrubs := held s = false ∧ dead s = false ∧ s.power.ruril = true
     let o := 2
     let i := 0
     (s.work = []) ∧ (scrubs) ∧ (bad = true) ∧ (objOfRtn n s = some (o, i))) := by
  dsimp only [Acts, Issues, Quiet, Working, Takes, Reaches]
  refine ⟨?_, ?_, ?_, ?_, ?_, ?_, ?_, ?_⟩ <;> decide +kernel

/-- O46, clauses 24 to 29. -/
theorem test_hypotheses_host_link_complete_7 :
    (let base : Nat := 2 ^ 28
     let size : Nat := 2 ^ 29
     let s : State := up
     (s.work = []) ∧ (linkOpen s = true) ∧ (size % 2 ^ 28 = 0) ∧ (size ≤ 768 * 2 ^ 30) ∧ (base % 2 ^ 28 = 0)) ∧
    (let base : Nat := 0
     let size : Nat := 768 * 2 ^ 30
     let s : State := up
     (s.work = []) ∧ (linkOpen s = true) ∧ (size % 2 ^ 28 = 0) ∧ (size ≤ 768 * 2 ^ 30) ∧ (base % 2 ^ 28 = 0)) ∧
    (let s : State := up
     (s.work = []) ∧ (linkOpen s = true)) ∧
    (let s : State := up
     (s.work = []) ∧ (linkOpen s = true)) ∧
    (let s : State := { up with msixOpen := [3, 5], msixPba := [3, 4] }
     (s.work = []) ∧ (linkOpen s = true)) ∧
    (let s : State := noLink up
     (s.work = []) ∧ (linkOpen s = false)) ∧
    (let s : State := up
     (s.work = []) ∧ (linkOpen s = true)) ∧
    (let s : State := up
     (s.work = []) ∧ (linkOpen s = true)) := by
  dsimp only [Acts, Issues, Quiet, Working, Takes, Reaches]
  refine ⟨?_, ?_, ?_, ?_, ?_, ?_, ?_, ?_⟩ <;> decide +kernel

/-- O46, clauses 29 to 33. -/
theorem test_hypotheses_host_link_complete_8 :
    (let s : State := up
     (s.work = []) ∧ (linkOpen s = true)) ∧
    (let s : State := up
     (s.work = []) ∧ (linkOpen s = true)) ∧
    (let s : State := noLink up
     (s.work = []) ∧ (linkOpen s = false)) ∧
    (let idx : Nat := 1
     let s : State := noLink up
     (s.work = []) ∧ (hostOpen s = false ∨ 128 ≤ idx)) ∧
    (let idx : Nat := 128
     let s : State := up
     (s.work = []) ∧ (hostOpen s = false ∨ 128 ≤ idx)) ∧
    (let idx : Nat := 1
     let s : State := up
     (s.work = []) ∧ (hostOpen s = true) ∧ (idx < 128)) ∧
    (let idx : Nat := 127
     let s : State := up
     (s.work = []) ∧ (hostOpen s = true) ∧ (idx < 128)) ∧
    (let idx : Nat := 126
     let s : State := up
     (s.work = []) ∧ (hostOpen s = true) ∧ (idx < 128)) := by
  dsimp only [Acts, Issues, Quiet, Working, Takes, Reaches]
  refine ⟨?_, ?_, ?_, ?_, ?_, ?_, ?_, ?_⟩ <;> decide +kernel

/-- O47, clauses 1 to 3. -/
theorem test_hypotheses_host_rings_complete_1 :
    (let r : Nat := 3
     let v : Word := 5
     let s : State := irRing 2 2 up
     let rings := hostOpen s = true ∧ hostShut (r * 0x1000) s = false
     let tail := getF Fld.IR_TAIL_TAIL v
     let span := fun (x : Nat) => (x + irSize r s - irHead r s) % irSize r s
     let tailOk := s.dev ≠ 2 ∧ s.dev ≠ 3 ∧ irOn r s = true ∧ tail < irSize r s ∧ span (irTailOf r s) ≤ span tail
     (r < 16) ∧ (s.work = []) ∧ (rings) ∧ (tailOk)) ∧
    (let r : Nat := 3
     let v : Word := 1
     let s : State := irRing 14 15 up
     let rings := hostOpen s = true ∧ hostShut (r * 0x1000) s = false
     let tail := getF Fld.IR_TAIL_TAIL v
     let span := fun (x : Nat) => (x + irSize r s - irHead r s) % irSize r s
     let tailOk := s.dev ≠ 2 ∧ s.dev ≠ 3 ∧ irOn r s = true ∧ tail < irSize r s ∧ span (irTailOf r s) ≤ span tail
     (r < 16) ∧ (s.work = []) ∧ (rings) ∧ (tailOk)) ∧
    (let r : Nat := 3
     let v : Word := 2
     let s : State := irRing 2 2 up
     let rings := hostOpen s = true ∧ hostShut (r * 0x1000) s = false
     let tail := getF Fld.IR_TAIL_TAIL v
     let span := fun (x : Nat) => (x + irSize r s - irHead r s) % irSize r s
     let tailOk := s.dev ≠ 2 ∧ s.dev ≠ 3 ∧ irOn r s = true ∧ tail < irSize r s ∧ span (irTailOf r s) ≤ span tail
     (r < 16) ∧ (s.work = []) ∧ (rings) ∧ (tailOk)) ∧
    (let r : Nat := 3
     let v : Word := 5
     let s : State := irRing 2 6 up
     let rings := hostOpen s = true ∧ hostShut (r * 0x1000) s = false
     let tail := getF Fld.IR_TAIL_TAIL v
     let span := fun (x : Nat) => (x + irSize r s - irHead r s) % irSize r s
     let tailOk := s.dev ≠ 2 ∧ s.dev ≠ 3 ∧ irOn r s = true ∧ tail < irSize r s ∧ span (irTailOf r s) ≤ span tail
     (r < 16) ∧ (s.work = []) ∧ (rings) ∧ (s.dev ≠ 2) ∧ (s.dev ≠ 3) ∧ (¬ tailOk)) ∧
    (let r : Nat := 3
     let v : Word := 16
     let s : State := irRing 2 2 up
     let rings := hostOpen s = true ∧ hostShut (r * 0x1000) s = false
     let tail := getF Fld.IR_TAIL_TAIL v
     let span := fun (x : Nat) => (x + irSize r s - irHead r s) % irSize r s
     let tailOk := s.dev ≠ 2 ∧ s.dev ≠ 3 ∧ irOn r s = true ∧ tail < irSize r s ∧ span (irTailOf r s) ≤ span tail
     (r < 16) ∧ (s.work = []) ∧ (rings) ∧ (s.dev ≠ 2) ∧ (s.dev ≠ 3) ∧ (¬ tailOk)) ∧
    (let r : Nat := 3
     let v : Word := 5
     let s : State := up
     let rings := hostOpen s = true ∧ hostShut (r * 0x1000) s = false
     let tail := getF Fld.IR_TAIL_TAIL v
     let span := fun (x : Nat) => (x + irSize r s - irHead r s) % irSize r s
     let tailOk := s.dev ≠ 2 ∧ s.dev ≠ 3 ∧ irOn r s = true ∧ tail < irSize r s ∧ span (irTailOf r s) ≤ span tail
     (r < 16) ∧ (s.work = []) ∧ (rings) ∧ (s.dev ≠ 2) ∧ (s.dev ≠ 3) ∧ (¬ tailOk)) ∧
    (let r : Nat := 3
     let v : Word := 5
     let s : State := crRing 4 6 up
     let rings := hostOpen s = true ∧ hostShut (r * 0x1000) s = false
     let head := getF Fld.CR_HEAD_HEAD v
     let ahead := fun (x : Nat) => (x + crSize r s - crHeadOf r s) % crSize r s
     let headOk := head < crSize r s ∧ ahead head ≤ ahead (crTail r s)
     (r < 16) ∧ (s.work = []) ∧ (rings) ∧ (headOk)) ∧
    (let r : Nat := 3
     let v : Word := 5
     let s : State := crRing 7 6 own
     let rings := hostOpen s = true ∧ hostShut (r * 0x1000) s = false
     let head := getF Fld.CR_HEAD_HEAD v
     let ahead := fun (x : Nat) => (x + crSize r s - crHeadOf r s) % crSize r s
     let headOk := head < crSize r s ∧ ahead head ≤ ahead (crTail r s)
     (r < 16) ∧ (s.work = []) ∧ (rings) ∧ (headOk)) := by
  dsimp only [Acts, Issues, Quiet, Working, Takes, Reaches]
  refine ⟨?_, ?_, ?_, ?_, ?_, ?_, ?_, ?_⟩ <;> decide +kernel

/-- O47, clauses 3 to 9. -/
theorem test_hypotheses_host_rings_complete_2 :
    (let r : Nat := 3
     let v : Word := 5
     let s : State := crRing 4 5 up
     let rings := hostOpen s = true ∧ hostShut (r * 0x1000) s = false
     let head := getF Fld.CR_HEAD_HEAD v
     let ahead := fun (x : Nat) => (x + crSize r s - crHeadOf r s) % crSize r s
     let headOk := head < crSize r s ∧ ahead head ≤ ahead (crTail r s)
     (r < 16) ∧ (s.work = []) ∧ (rings) ∧ (headOk)) ∧
    (let r : Nat := 3
     let v : Word := 5
     let s : State := crRing 6 7 up
     let rings := hostOpen s = true ∧ hostShut (r * 0x1000) s = false
     let head := getF Fld.CR_HEAD_HEAD v
     let ahead := fun (x : Nat) => (x + crSize r s - crHeadOf r s) % crSize r s
     let headOk := head < crSize r s ∧ ahead head ≤ ahead (crTail r s)
     (r < 16) ∧ (s.work = []) ∧ (rings) ∧ (¬ headOk)) ∧
    (let r : Nat := 3
     let v : Word := 8
     let s : State := crRing 4 6 up
     let rings := hostOpen s = true ∧ hostShut (r * 0x1000) s = false
     let head := getF Fld.CR_HEAD_HEAD v
     let ahead := fun (x : Nat) => (x + crSize r s - crHeadOf r s) % crSize r s
     let headOk := head < crSize r s ∧ ahead head ≤ ahead (crTail r s)
     (r < 16) ∧ (s.work = []) ∧ (rings) ∧ (¬ headOk)) ∧
    (let r : Nat := 3
     let s : State := { up with dev := 3 }
     (r < 16) ∧ (s.work = []) ∧ (hostOpen s = true) ∧ (hostShut (r * 0x1000) s = true)) ∧
    (let r : Nat := 3
     let s : State := noLink up
     (r < 16) ∧ (s.work = []) ∧ (hostOpen s = false)) ∧
    (let r : Nat := 3
     let s : State := irRing 2 2 up
     (r < 16) ∧ (s.work = [])) ∧
    (let r : Nat := 3
     let s : State := crRing 4 6 up
     (r < 16) ∧ (s.work = [])) ∧
    (let r : Nat := 3
     let s : State := irRing 2 2 up
     (r < 16) ∧ (s.work = []) ∧ (Working s) ∧ (irFetches r s = [])) := by
  dsimp only [Acts, Issues, Quiet, Working, Takes, Reaches]
  refine ⟨?_, ?_, ?_, ?_, ?_, ?_, ?_, ?_⟩ <;> decide +kernel

/-- O47, clauses 10 to 14. -/
theorem test_hypotheses_host_rings_complete_3 :
    (let r : Nat := 3
     let first : Nat := 14
     let len : Nat := 2
     let rest : List (Nat × Nat) := []
     let s : State := setFetches 3 [(14, 2)] (irRing 14 2 up)
     (r < 16) ∧ (s.work = []) ∧ (Working s) ∧ (irFetches r s = (first, len) :: rest)) ∧
    (let r : Nat := 3
     let first : Nat := 14
     let len : Nat := 2
     let rest : List (Nat × Nat) := [(0, 2)]
     let s : State := setFetches 3 [(14, 2), (0, 2)] (irRing 14 2 (pool3 up))
     (r < 16) ∧ (s.work = []) ∧ (Working s) ∧ (irFetches r s = (first, len) :: rest)) ∧
    (let r : Nat := 3
     let first : Nat := 14
     let len : Nat := 2
     let rest : List (Nat × Nat) := []
     let s : State := setFetches 3 [(14, 2)] (irRing 14 2 up)
     (r < 16) ∧ (s.work = []) ∧ (Working s) ∧ (irFetches r s = (first, len) :: rest)) ∧
    (let r : Nat := 3
     let first : Nat := 14
     let len : Nat := 2
     let rest : List (Nat × Nat) := [(0, 2)]
     let s : State := setFetches 3 [(14, 2), (0, 2)] (irRing 14 2 (pool3 up))
     (r < 16) ∧ (s.work = []) ∧ (Working s) ∧ (irFetches r s = (first, len) :: rest)) ∧
    (let r : Nat := 3
     let s : State := irRing 2 2 up
     (r < 16) ∧ (s.work = []) ∧ (irFetches r s = [])) ∧
    (let r : Nat := 3
     let first : Nat := 14
     let len : Nat := 2
     let rest : List (Nat × Nat) := []
     let s : State := setFetches 3 [(14, 2)] (irRing 14 2 up)
     (r < 16) ∧ (s.work = []) ∧ (irFetches r s = (first, len) :: rest)) ∧
    (let r : Nat := 3
     let first : Nat := 14
     let len : Nat := 2
     let rest : List (Nat × Nat) := [(0, 2)]
     let s : State := setFetches 3 [(14, 2), (0, 2)] (irRing 14 2 (pool3 up))
     (r < 16) ∧ (s.work = []) ∧ (irFetches r s = (first, len) :: rest)) ∧
    (let r : Nat := 3
     let s : State := resumes ⟨1, 64, bufEnd, 0, 0, 5, true⟩ up
     (r < 16) ∧ (s.work = [])) := by
  dsimp only [Acts, Issues, Quiet, Working, Takes, Reaches]
  refine ⟨?_, ?_, ?_, ?_, ?_, ?_, ?_, ?_⟩ <;> decide +kernel

/-- O47, clauses 14 to 18. -/
theorem test_hypotheses_host_rings_complete_4 :
    (let r : Nat := 3
     let s : State := up
     (r < 16) ∧ (s.work = [])) ∧
    (let r : Nat := 3
     let s : State := recovers [0] 1 3 (hostCopy up)
     (r < 16) ∧ (s.work = [])) ∧
    (let r : Nat := 3
     let s : State := up
     (r < 16) ∧ (s.work = [])) ∧
    (let r : Nat := 3
     let v : Word := 5
     let src : Src := .host
     let s : State := irRing 2 2 up
     let u := arrived src s
     let cfg := Reg.GLB_HIF_IR_CFG r
     let writes := fun (off : Nat) => Quiet s ∧ Reaches src off (.write v) s
     let size := getF Fld.GLB_HIF_IR_CFG_LOG2SIZE v
     let busy := irOn r u = true ∧ size ≠ rdF cfg Fld.GLB_HIF_IR_CFG_LOG2SIZE u
     (r < 16) ∧ (s.work = []) ∧ (writes cfg) ∧ (busy)) ∧
    (let r : Nat := 3
     let v : Word := 4
     let src : Src := .host
     let s : State := irRing 2 5 up
     let u := arrived src s
     let cfg := Reg.GLB_HIF_IR_CFG r
     let writes := fun (off : Nat) => Quiet s ∧ Reaches src off (.write v) s
     let size := getF Fld.GLB_HIF_IR_CFG_LOG2SIZE v
     let busy := irOn r u = true ∧ size ≠ rdF cfg Fld.GLB_HIF_IR_CFG_LOG2SIZE u
     (r < 16) ∧ (s.work = []) ∧ (writes cfg) ∧ (¬ busy)) ∧
    (let r : Nat := 3
     let v : Word := 2 ^ 63 + 9 * 2 ^ 16 + 4
     let src : Src := .host
     let s : State := setFetches 3 [(2, 3)] (irRing 2 5 up)
     let u := arrived src s
     let cfg := Reg.GLB_HIF_IR_CFG r
     let writes := fun (off : Nat) => Quiet s ∧ Reaches src off (.write v) s
     let size := getF Fld.GLB_HIF_IR_CFG_LOG2SIZE v
     let busy := irOn r u = true ∧ size ≠ rdF cfg Fld.GLB_HIF_IR_CFG_LOG2SIZE u
     (r < 16) ∧ (s.work = []) ∧ (writes cfg) ∧ (¬ busy)) ∧
    (let r : Nat := 3
     let v : Word := 2 ^ 63 + 9 * 2 ^ 16 + 5
     let src : Src := .host
     let s : State := up
     let u := arrived src s
     let cfg := Reg.GLB_HIF_IR_CFG r
     let writes := fun (off : Nat) => Quiet s ∧ Reaches src off (.write v) s
     let size := getF Fld.GLB_HIF_IR_CFG_LOG2SIZE v
     let busy := irOn r u = true ∧ size ≠ rdF cfg Fld.GLB_HIF_IR_CFG_LOG2SIZE u
     (r < 16) ∧ (s.work = []) ∧ (writes cfg) ∧ (¬ busy)) ∧
    (let r : Nat := 3
     let v : Word := 2 ^ 63 + 3
     let src : Src := .host
     let s : State := up
     let writes := fun (off : Nat) => Quiet s ∧ Reaches src off (.write v) s
     (r < 16) ∧ (s.work = []) ∧ (writes (Reg.GLB_HIF_CR_CFG r)) ∧ (bitF Fld.GLB_HIF_CR_CFG_ENABLE v = true)) := by
  dsimp only [Acts, Issues, Quiet, Working, Takes, Reaches]
  refine ⟨?_, ?_, ?_, ?_, ?_, ?_, ?_, ?_⟩ <;> decide +kernel

/-- O47, clauses 18 to 21. -/
theorem test_hypotheses_host_rings_complete_5 :
    (let r : Nat := 3
     let v : Word := 2 ^ 63 + 33
     let src : Src := .host
     let s : State := crRing 4 6 own
     let writes := fun (off : Nat) => Quiet s ∧ Reaches src off (.write v) s
     (r < 16) ∧ (s.work = []) ∧ (writes (Reg.GLB_HIF_CR_CFG r)) ∧ (bitF Fld.GLB_HIF_CR_CFG_ENABLE v = true)) ∧
    (let r : Nat := 3
     let v : Word := 2 ^ 50 + 2 ^ 6 + 3
     let src : Src := .host
     let s : State := crRing 4 6 up
     let writes := fun (off : Nat) => Quiet s ∧ Reaches src off (.write v) s
     (r < 16) ∧ (s.work = []) ∧ (writes (Reg.GLB_HIF_CR_CFG r)) ∧ (bitF Fld.GLB_HIF_CR_CFG_ENABLE v = false)) ∧
    (let r : Nat := 3
     let s : State := up
     (r < 16) ∧ (s.work = []) ∧ (s.host.coalPend.contains r = false)) ∧
    (let r : Nat := 3
     let s : State := hostOf (fun h => { h with coalPend := [3], coalEnd := [(3, 99)] }) { up with msixEn := true, msixOpen := [3] }
     (r < 16) ∧ (s.work = []) ∧ (s.host.coalPend.contains r = true)) ∧
    (let r : Nat := 3
     let s : State := hostOf (fun h => { h with coalPend := [2, 3], coalEnd := [(3, 99)] }) { up with msixEn := true, msixOpen := [2] }
     (r < 16) ∧ (s.work = []) ∧ (s.host.coalPend.contains r = true)) := by
  dsimp only [Acts, Issues, Quiet, Working, Takes, Reaches]
  refine ⟨?_, ?_, ?_, ?_, ?_⟩ <;> decide +kernel

/-- O48, clauses 1 to 8. -/
theorem test_hypotheses_security_complete_1 :
    (let src : Src := .host
     let s : State := up
     let may := match src with
           | .host => linkOpen s = true
           | .sideband => held s = false ∧ dead s = false ∧ sbAddressed s = true ∧ bitF Fld.SEC_POLICY_SB_ATTEST (rd Reg.SEC_POLICY s) = true
     (s.work = []) ∧ (may)) ∧
    (let payload : List Byte := List.replicate 32 6
     let src : Src := .host
     let s : State := up
     let may := match src with
           | .host => linkOpen s = true
           | .sideband => held s = false ∧ dead s = false ∧ sbAddressed s = true ∧ bitF Fld.SEC_POLICY_SB_ATTEST (rd Reg.SEC_POLICY s) = true
     (s.work = []) ∧ (may) ∧ (payload.length ≠ 64)) ∧
    (let payload : List Byte := List.replicate 64 6
     let src : Src := .host
     let s : State := signer up
     let may := match src with
           | .host => linkOpen s = true
           | .sideband => held s = false ∧ dead s = false ∧ sbAddressed s = true ∧ bitF Fld.SEC_POLICY_SB_ATTEST (rd Reg.SEC_POLICY s) = true
     let leaf := rdF Reg.SEC_LEAF Fld.SEC_LEAF_NEXT s
     let engine := s.sec.resv < 4096 ∧ s.sec.signing = true ∧ leaf ≠ (rdF Reg.SEC_LEAF Fld.SEC_LEAF_RES s + 1) * 2 ^ 28
     let signs := engine ∧ 0 < s.sec.tokens ∧ s.sec.build = false
     (s.work = []) ∧ (may) ∧ (payload.length = 64) ∧ (signs)) ∧
    (let payload : List Byte := List.replicate 64 6
     let src : Src := .host
     let s : State := signer (secOf (fun x => { x with tokens := 0 }) up)
     let may := match src with
           | .host => linkOpen s = true
           | .sideband => held s = false ∧ dead s = false ∧ sbAddressed s = true ∧ bitF Fld.SEC_POLICY_SB_ATTEST (rd Reg.SEC_POLICY s) = true
     let leaf := rdF Reg.SEC_LEAF Fld.SEC_LEAF_NEXT s
     let engine := s.sec.resv < 4096 ∧ s.sec.signing = true ∧ leaf ≠ (rdF Reg.SEC_LEAF Fld.SEC_LEAF_RES s + 1) * 2 ^ 28
     (s.work = []) ∧ (may) ∧ (payload.length = 64) ∧ (engine) ∧ (s.sec.tokens = 0)) ∧
    (let payload : List Byte := List.replicate 64 6
     let src : Src := .host
     let s : State := secOf (fun x => { x with resv := 4096 }) up
     let may := match src with
           | .host => linkOpen s = true
           | .sideband => held s = false ∧ dead s = false ∧ sbAddressed s = true ∧ bitF Fld.SEC_POLICY_SB_ATTEST (rd Reg.SEC_POLICY s) = true
     (s.work = []) ∧ (may) ∧ (payload.length = 64) ∧ (4096 ≤ s.sec.resv)) ∧
    (let payload : List Byte := List.replicate 64 6
     let src : Src := .host
     let s : State := up
     let may := match src with
           | .host => linkOpen s = true
           | .sideband => held s = false ∧ dead s = false ∧ sbAddressed s = true ∧ bitF Fld.SEC_POLICY_SB_ATTEST (rd Reg.SEC_POLICY s) = true
     (s.work = []) ∧ (may) ∧ (payload.length ≠ 32)) ∧
    (let payload : List Byte := List.replicate 32 6
     let src : Src := .host
     let s : State := signer up
     let may := match src with
           | .host => linkOpen s = true
           | .sideband => held s = false ∧ dead s = false ∧ sbAddressed s = true ∧ bitF Fld.SEC_POLICY_SB_ATTEST (rd Reg.SEC_POLICY s) = true
     let leaf := rdF Reg.SEC_LEAF Fld.SEC_LEAF_NEXT s
     let engine := s.sec.resv < 4096 ∧ s.sec.signing = true ∧ leaf ≠ (rdF Reg.SEC_LEAF Fld.SEC_LEAF_RES s + 1) * 2 ^ 28
     let signs := engine ∧ 0 < s.sec.tokens ∧ s.sec.build = false
     (s.work = []) ∧ (may) ∧ (payload.length = 32) ∧ (signs)) ∧
    (let s : State := up
     (s.work = []) ∧ (linkOpen s = true) ∧ (s.sec.kem = none)) := by
  dsimp only [Acts, Issues, Quiet, Working, Takes, Reaches]
  refine ⟨?_, ?_, ?_, ?_, ?_, ?_, ?_, ?_⟩ <;> decide +kernel

/-- O48, clauses 9 to 15. -/
theorem test_hypotheses_security_complete_2 :
    (let n : Nat := 3
     let made : Nat := 0
     let nonce : List Byte := List.replicate 32 5
     let ct : List Byte := []
     let s : State := secOf (fun x => { x with kem := some (0, List.replicate 32 5, 3) }) (ideOnly up)
     (s.work = []) ∧ (linkOpen s = true) ∧ (s.sec.kem = some (made, nonce, n)) ∧ (ct.length ≠ 1568)) ∧
    (let n : Nat := 3
     let made : Nat := 0
     let nonce : List Byte := List.replicate 32 5
     let ct : List Byte := List.replicate 1568 7
     let s : State := secOf (fun x => { x with kem := some (0, List.replicate 32 5, 3) }) (ideOnly up)
     (s.work = []) ∧ (linkOpen s = true) ∧ (s.sec.kem = some (made, nonce, n)) ∧ (ct.length = 1568)) ∧
    (let n : Nat := 3
     let made : Nat := 0
     let nonce : List Byte := List.replicate 32 5
     let s : State := secOf (fun x => { x with kem := some (0, List.replicate 32 5, 3) }) (ideOnly up)
     (s.work = []) ∧ (s.sec.kem = some (made, nonce, n))) ∧
    (let s : State := wrF Reg.SEC_POLICY Fld.SEC_POLICY_SB_ATTEST 0 (sb up)
     (s.work = []) ∧ (held s = false) ∧ (dead s = false) ∧ (sbAddressed s = true) ∧ (bitF Fld.SEC_POLICY_SB_ATTEST (rd Reg.SEC_POLICY s) = false)) ∧
    (let s : State := noLink up
     (s.work = []) ∧ (linkOpen s = false)) ∧
    (let s : State := up
     (s.work = []) ∧ (s.sec.kem = none)) ∧
    (let k : Nat := 1
     let s : State := up
     let stream := if k = 0 then Fld.GLB_HIF_LINK_IDE_IO else Fld.GLB_HIF_LINK_IDE_CM
     let on := held s = false ∧ k ≤ 1 ∧ bitF stream (rd Reg.GLB_HIF_LINK s) = true
     (s.work = []) ∧ (¬ on)) ∧
    (let k : Nat := 2
     let s : State := ideOn up
     let stream := if k = 0 then Fld.GLB_HIF_LINK_IDE_IO else Fld.GLB_HIF_LINK_IDE_CM
     let on := held s = false ∧ k ≤ 1 ∧ bitF stream (rd Reg.GLB_HIF_LINK s) = true
     (s.work = []) ∧ (¬ on)) := by
  dsimp only [Acts, Issues, Quiet, Working, Takes, Reaches]
  refine ⟨?_, ?_, ?_, ?_, ?_, ?_, ?_, ?_⟩ <;> decide +kernel

/-- O48, clauses 16 to 19. -/
theorem test_hypotheses_security_complete_3 :
    (let k : Nat := 0
     let s : State := ideOn up
     let stream := if k = 0 then Fld.GLB_HIF_LINK_IDE_IO else Fld.GLB_HIF_LINK_IDE_CM
     let on := held s = false ∧ k ≤ 1 ∧ bitF stream (rd Reg.GLB_HIF_LINK s) = true
     (s.work = []) ∧ (on)) ∧
    (let k : Nat := 1
     let s : State := ideOn up
     let stream := if k = 0 then Fld.GLB_HIF_LINK_IDE_IO else Fld.GLB_HIF_LINK_IDE_CM
     let on := held s = false ∧ k ≤ 1 ∧ bitF stream (rd Reg.GLB_HIF_LINK s) = true
     (s.work = []) ∧ (on)) ∧
    (let v : Word := 0
     let src : Src := .host
     let s : State := up
     let u := arrived src s
     let asks := fun (f : Fld) => Quiet s ∧ Reaches src Reg.SEC_FUSE_CTL (.write (v ||| maskF f)) s
     let keyed := getF Fld.SEC_FUSE_CTL_KEY v = 0x5EC5 ∧ burnBusy u = false
     (s.work = []) ∧ (asks Fld.SEC_FUSE_CTL_BURN_SVN) ∧ (¬ keyed)) ∧
    (let v : Word := setF Fld.SEC_FUSE_CTL_KEY 0 0x5EC5
     let src : Src := .host
     let s : State := burning 1 [1,2,3,4] up
     let u := arrived src s
     let asks := fun (f : Fld) => Quiet s ∧ Reaches src Reg.SEC_FUSE_CTL (.write (v ||| maskF f)) s
     let keyed := getF Fld.SEC_FUSE_CTL_KEY v = 0x5EC5 ∧ burnBusy u = false
     (s.work = []) ∧ (asks Fld.SEC_FUSE_CTL_BURN_SVN) ∧ (¬ keyed)) ∧
    (let v : Word := setF Fld.SEC_FUSE_CTL_KEY 0 0x5EC5
     let src : Src := .host
     let s : State := loaded 3 up
     let u := arrived src s
     let asks := fun (f : Fld) => Quiet s ∧ Reaches src Reg.SEC_FUSE_CTL (.write (v ||| maskF f)) s
     let keyed := getF Fld.SEC_FUSE_CTL_KEY v = 0x5EC5 ∧ burnBusy u = false
     let svn := rdF Reg.JIG_STATUS Fld.JIG_STATUS_SVN u
     let maySvn := bitF Fld.JIG_STATUS_LOADED (rd Reg.JIG_STATUS u) = true ∧ svn ≤ 64 ∧ s.sec.svn < svn
     (s.work = []) ∧ (asks Fld.SEC_FUSE_CTL_BURN_SVN) ∧ (keyed) ∧ (bitF Fld.SEC_FUSE_CTL_BURN_OWNER v = false) ∧ (maySvn)) ∧
    (let v : Word := setF Fld.SEC_FUSE_CTL_KEY 0 0x5EC5
     let src : Src := .host
     let s : State := loaded 64 up
     let u := arrived src s
     let asks := fun (f : Fld) => Quiet s ∧ Reaches src Reg.SEC_FUSE_CTL (.write (v ||| maskF f)) s
     let keyed := getF Fld.SEC_FUSE_CTL_KEY v = 0x5EC5 ∧ burnBusy u = false
     let svn := rdF Reg.JIG_STATUS Fld.JIG_STATUS_SVN u
     let maySvn := bitF Fld.JIG_STATUS_LOADED (rd Reg.JIG_STATUS u) = true ∧ svn ≤ 64 ∧ s.sec.svn < svn
     (s.work = []) ∧ (asks Fld.SEC_FUSE_CTL_BURN_SVN) ∧ (keyed) ∧ (bitF Fld.SEC_FUSE_CTL_BURN_OWNER v = false) ∧ (maySvn)) ∧
    (let v : Word := setF Fld.SEC_FUSE_CTL_KEY 0 0x5EC5
     let src : Src := .host
     let s : State := up
     let u := arrived src s
     let asks := fun (f : Fld) => Quiet s ∧ Reaches src Reg.SEC_FUSE_CTL (.write (v ||| maskF f)) s
     let keyed := getF Fld.SEC_FUSE_CTL_KEY v = 0x5EC5 ∧ burnBusy u = false
     let svn := rdF Reg.JIG_STATUS Fld.JIG_STATUS_SVN u
     let maySvn := bitF Fld.JIG_STATUS_LOADED (rd Reg.JIG_STATUS u) = true ∧ svn ≤ 64 ∧ s.sec.svn < svn
     (s.work = []) ∧ (asks Fld.SEC_FUSE_CTL_BURN_SVN) ∧ (keyed) ∧ (bitF Fld.SEC_FUSE_CTL_BURN_OWNER v = false) ∧ (¬ maySvn)) ∧
    (let v : Word := setF Fld.SEC_FUSE_CTL_KEY 0 0x5EC5
     let src : Src := .host
     let s : State := loaded 65 up
     let u := arrived src s
     let asks := fun (f : Fld) => Quiet s ∧ Reaches src Reg.SEC_FUSE_CTL (.write (v ||| maskF f)) s
     let keyed := getF Fld.SEC_FUSE_CTL_KEY v = 0x5EC5 ∧ burnBusy u = false
     let svn := rdF Reg.JIG_STATUS Fld.JIG_STATUS_SVN u
     let maySvn := bitF Fld.JIG_STATUS_LOADED (rd Reg.JIG_STATUS u) = true ∧ svn ≤ 64 ∧ s.sec.svn < svn
     (s.work = []) ∧ (asks Fld.SEC_FUSE_CTL_BURN_SVN) ∧ (keyed) ∧ (bitF Fld.SEC_FUSE_CTL_BURN_OWNER v = false) ∧ (¬ maySvn)) := by
  dsimp only [Acts, Issues, Quiet, Working, Takes, Reaches]
  refine ⟨?_, ?_, ?_, ?_, ?_, ?_, ?_, ?_⟩ <;> decide +kernel

/-- O48, clauses 19 to 24. -/
theorem test_hypotheses_security_complete_4 :
    (let v : Word := setF Fld.SEC_FUSE_CTL_KEY 0 0x5EC5
     let src : Src := .host
     let s : State := loaded 3 (secOf (fun x => { x with svn := 3 }) up)
     let u := arrived src s
     let asks := fun (f : Fld) => Quiet s ∧ Reaches src Reg.SEC_FUSE_CTL (.write (v ||| maskF f)) s
     let keyed := getF Fld.SEC_FUSE_CTL_KEY v = 0x5EC5 ∧ burnBusy u = false
     let svn := rdF Reg.JIG_STATUS Fld.JIG_STATUS_SVN u
     let maySvn := bitF Fld.JIG_STATUS_LOADED (rd Reg.JIG_STATUS u) = true ∧ svn ≤ 64 ∧ s.sec.svn < svn
     (s.work = []) ∧ (asks Fld.SEC_FUSE_CTL_BURN_SVN) ∧ (keyed) ∧ (bitF Fld.SEC_FUSE_CTL_BURN_OWNER v = false) ∧ (¬ maySvn)) ∧
    (let v : Word := 0
     let src : Src := .host
     let s : State := up
     let u := arrived src s
     let asks := fun (f : Fld) => Quiet s ∧ Reaches src Reg.SEC_FUSE_CTL (.write (v ||| maskF f)) s
     let keyed := getF Fld.SEC_FUSE_CTL_KEY v = 0x5EC5 ∧ burnBusy u = false
     (s.work = []) ∧ (asks Fld.SEC_FUSE_CTL_BURN_OWNER) ∧ (¬ keyed)) ∧
    (let v : Word := setF Fld.SEC_FUSE_CTL_KEY 0 0x5EC5
     let src : Src := .host
     let s : State := wr (Reg.SEC_OWNER_STAGE 1) 7 up
     let u := arrived src s
     let asks := fun (f : Fld) => Quiet s ∧ Reaches src Reg.SEC_FUSE_CTL (.write (v ||| maskF f)) s
     let keyed := getF Fld.SEC_FUSE_CTL_KEY v = 0x5EC5 ∧ burnBusy u = false
     let mayOwner := ownerUnset s = true ∨ ((∃ h ∈ s.sec.owner, allZero h = true) ∧ transferOk u = true)
     (s.work = []) ∧ (asks Fld.SEC_FUSE_CTL_BURN_OWNER) ∧ (keyed) ∧ (bitF Fld.SEC_FUSE_CTL_BURN_SVN v = false) ∧ (mayOwner)) ∧
    (let v : Word := setF Fld.SEC_FUSE_CTL_KEY 0 0x5EC5
     let src : Src := .host
     let s : State := secOf (fun x => { x with owner := List.replicate 4 [1, 0, 0, 0] }) up
     let u := arrived src s
     let asks := fun (f : Fld) => Quiet s ∧ Reaches src Reg.SEC_FUSE_CTL (.write (v ||| maskF f)) s
     let keyed := getF Fld.SEC_FUSE_CTL_KEY v = 0x5EC5 ∧ burnBusy u = false
     let mayOwner := ownerUnset s = true ∨ ((∃ h ∈ s.sec.owner, allZero h = true) ∧ transferOk u = true)
     (s.work = []) ∧ (asks Fld.SEC_FUSE_CTL_BURN_OWNER) ∧ (keyed) ∧ (bitF Fld.SEC_FUSE_CTL_BURN_SVN v = false) ∧ (¬ mayOwner)) ∧
    (let v : Word := setF Fld.SEC_FUSE_CTL_KEY 0 0x5EC5
     let src : Src := .host
     let s : State := secOf (fun x => { x with owner := [1, 0, 0, 0] :: List.replicate 3 [0, 0, 0, 0] }) up
     let u := arrived src s
     let asks := fun (f : Fld) => Quiet s ∧ Reaches src Reg.SEC_FUSE_CTL (.write (v ||| maskF f)) s
     let keyed := getF Fld.SEC_FUSE_CTL_KEY v = 0x5EC5 ∧ burnBusy u = false
     let mayOwner := ownerUnset s = true ∨ ((∃ h ∈ s.sec.owner, allZero h = true) ∧ transferOk u = true)
     (s.work = []) ∧ (asks Fld.SEC_FUSE_CTL_BURN_OWNER) ∧ (keyed) ∧ (bitF Fld.SEC_FUSE_CTL_BURN_SVN v = false) ∧ (¬ mayOwner)) ∧
    (let s : State := up
     (s.work = []) ∧ (s.sec.burn = none ∨ held s = true)) ∧
    (let s : State := burning 0 [7] { up with dev := 1 }
     (s.work = []) ∧ (s.sec.burn = none ∨ held s = true)) ∧
    (let ws : List Word := [7]
     let s : State := burning 0 [7] up
     (s.work = []) ∧ (s.sec.burn = some (0, ws)) ∧ (held s = false)) := by
  dsimp only [Acts, Issues, Quiet, Working, Takes, Reaches]
  refine ⟨?_, ?_, ?_, ?_, ?_, ?_, ?_, ?_⟩ <;> decide +kernel

/-- O48, clauses 25 to 28. -/
theorem test_hypotheses_security_complete_5 :
    (let kind : Nat := 1
     let ws : List Word := [1, 2, 3, 4]
     let s : State := burning 1 [1, 2, 3, 4] up
     (s.work = []) ∧ (s.sec.burn = some (kind, ws)) ∧ (kind ≠ 0) ∧ (held s = false)) ∧
    (let kind : Nat := 1
     let ws : List Word := [1, 2, 3, 4]
     let s : State := burning 1 [1, 2, 3, 4] up
     (s.work = []) ∧ (s.sec.burn = some (kind, ws)) ∧ (held s = false)) ∧
    (let kind : Nat := 0
     let ws : List Word := [7]
     let s : State := burning 0 [7] up
     (s.work = []) ∧ (s.sec.burn = some (kind, ws)) ∧ (held s = false)) ∧
    (let s : State := secOf (fun x => { x with build := true }) up
     (s.work = [])) ∧
    (let s : State := { up with dev := 1 }
     (s.work = [])) ∧
    (let s : State := secOf (fun x => { x with tokens := 5 }) up
     (s.work = [])) ∧
    (let s : State := up
     (s.work = [])) := by
  dsimp only [Acts, Issues, Quiet, Working, Takes, Reaches]
  refine ⟨?_, ?_, ?_, ?_, ?_, ?_, ?_⟩ <;> decide +kernel

/-- O49, clauses 1, 3, 5, 8, 13, 15, 18 and 20. -/
theorem test_hypotheses_kiln_complete_1 :
    (let s : State := { up with dev := 1 }
     let off' := kilnRuns s = false
     (s.work = []) ∧ (off')) ∧
    (let s : State := { up with dev := 1 }
     let off' := kilnRuns s = false
     (s.work = []) ∧ (off')) ∧
    (let g : Nat := 5
     let s : State := { up with dev := 1 }
     let off' := kilnRuns s = false
     (s.work = []) ∧ (off' ∨ 84 ≤ g)) ∧
    (let s : State := { up with dev := 1 }
     (s.work = []) ∧ (s.kiln.droop = none)) ∧
    (let s : State := { up with dev := 1 }
     let off' := kilnRuns s = false
     (s.work = []) ∧ (off' ∨ bitF Fld.KLN_CTL_ESTORE_EN s.kiln.ctl = false)) ∧
    (let s : State := { up with dev := 1 }
     let off' := kilnRuns s = false
     (s.work = []) ∧ (off')) ∧
    (let s : State := { up with dev := 1 }
     let off' := kilnRuns s = false
     (s.work = []) ∧ (off')) ∧
    (let s : State := { up with dev := 1 }
     let off' := kilnRuns s = false
     (s.work = []) ∧ (off')) := by
  dsimp only [Acts, Issues, Quiet, Working, Takes, Reaches]
  refine ⟨?_, ?_, ?_, ?_, ?_, ?_, ?_, ?_⟩ <;> decide +kernel

/-- O49, clauses 2, 4, 5, 24 and 26. -/
theorem test_hypotheses_kiln_complete_2 :
    (let fb : Nat := 50
     let s : State := { up with dev := 1 }
     let off' := kilnRuns s = false
     let duty := rdF Reg.KLN_VALVE Fld.KLN_VALVE_CMD s
     (s.work = []) ∧ (off' ∨ dutyGap fb duty ≤ 10)) ∧
    (let s : State := { up with dev := 1 }
     let off' := kilnRuns s = false
     (s.work = []) ∧ (off')) ∧
    (let s : State := up
     let on := kilnRuns s = true
     (s.work = []) ∧ (on)) ∧
    (let s : State := kilnOf (fun k => { k with ramp := some 3, ceil := 1000, limited := [4] }) (up)
     let on := kilnRuns s = true
     (s.work = []) ∧ (on)) ∧
    (let s : State := kilnOf (fun k => { k with ramp := some 3, ceil := 2000 }) (wrF Reg.KLN_STATUS Fld.KLN_STATUS_LEVEL 5 own)
     let on := kilnRuns s = true
     (s.work = []) ∧ (on)) ∧
    (let s : State := up
     let on := kilnRuns s = true
     (s.work = []) ∧ (on)) ∧
    (let s : State := kilnOf (fun k => { k with ctl := 0 }) (own)
     let on := kilnRuns s = true
     (s.work = []) ∧ (on)) ∧
    (let g : Nat := 84
     let s : State := up
     let off' := kilnRuns s = false
     (s.work = []) ∧ (off' ∨ 84 ≤ g)) := by
  dsimp only [Acts, Issues, Quiet, Working, Takes, Reaches]
  refine ⟨?_, ?_, ?_, ?_, ?_, ?_, ?_, ?_⟩ <;> decide +kernel

/-- O49, clauses 6 to 10. -/
theorem test_hypotheses_kiln_complete_3 :
    (let g : Nat := 5
     let s : State := up
     let on := kilnRuns s = true
     (s.work = []) ∧ (on) ∧ (g < 84) ∧ (s.kiln.droop = none)) ∧
    (let g : Nat := 83
     let s : State := own
     let on := kilnRuns s = true
     (s.work = []) ∧ (on) ∧ (g < 84) ∧ (s.kiln.droop = none)) ∧
    (let g : Nat := 5
     let c : Nat := 7
     let s : State := kilnOf (fun k => { k with droop := some 7 }) (up)
     let on := kilnRuns s = true
     (s.work = []) ∧ (on) ∧ (g < 84) ∧ (s.kiln.droop = some c)) ∧
    (let s : State := up
     (s.work = []) ∧ (s.kiln.droop = none)) ∧
    (let c : Nat := 7
     let s : State := kilnOf (fun k => { k with droop := some 7 }) (up)
     (s.work = []) ∧ (s.kiln.droop = some c)) ∧
    (let s : State := up
     (s.work = []) ∧ (s.kiln.overAt = none)) ∧
    (let s : State := kilnOf (fun k => { k with overAt := some 7 }) ({ up with dev := 1 })
     let off' := kilnRuns s = false
     (s.work = []) ∧ (off')) ∧
    (let c : Nat := 7
     let s : State := kilnOf (fun k => { k with overAt := some 7 }) (own)
     let on := kilnRuns s = true
     (s.work = []) ∧ (s.kiln.overAt = some c ∧ on ∧ s.dev ≤ 7)) := by
  dsimp only [Acts, Issues, Quiet, Working, Takes, Reaches]
  refine ⟨?_, ?_, ?_, ?_, ?_, ?_, ?_, ?_⟩ <;> decide +kernel

/-- O49, clauses 11 to 14. -/
theorem test_hypotheses_kiln_complete_4 :
    (let s : State := up
     (s.work = []) ∧ (s.kiln.hotAt = none)) ∧
    (let s : State := kilnOf (fun k => { k with hotAt := some 7 }) ({ up with dev := 1 })
     let off' := kilnRuns s = false
     (s.work = []) ∧ (off')) ∧
    (let c : Nat := 7
     let s : State := kilnOf (fun k => { k with hotAt := some 7 }) (own)
     let on := kilnRuns s = true
     (s.work = []) ∧ (s.kiln.hotAt = some c ∧ on ∧ s.dev ≤ 7)) ∧
    (let s : State := up
     (s.work = []) ∧ (s.kiln.outAt = none)) ∧
    (let s : State := kilnOf (fun k => { k with outAt := some 7 }) ({ up with dev := 1 })
     let off' := kilnRuns s = false
     (s.work = []) ∧ (off')) ∧
    (let c : Nat := 7
     let s : State := kilnOf (fun k => { k with outAt := some 7 }) (own)
     let on := kilnRuns s = true
     (s.work = []) ∧ (s.kiln.outAt = some c ∧ on ∧ s.dev ≤ 7)) ∧
    (let s : State := kilnOf (fun k => { k with ctl := 0 }) (up)
     let off' := kilnRuns s = false
     (s.work = []) ∧ (off' ∨ bitF Fld.KLN_CTL_ESTORE_EN s.kiln.ctl = false)) ∧
    (let s : State := kilnOf (fun k => { k with ctl := BitVec.ofNat 64 8 }) (up)
     let on := kilnRuns s = true
     (s.work = []) ∧ (on) ∧ (bitF Fld.KLN_CTL_ESTORE_EN s.kiln.ctl = true)) := by
  dsimp only [Acts, Issues, Quiet, Working, Takes, Reaches]
  refine ⟨?_, ?_, ?_, ?_, ?_, ?_, ?_, ?_⟩ <;> decide +kernel

/-- O49, clauses 16, 17, 19, 21 and 22. -/
theorem test_hypotheses_kiln_complete_5 :
    (let bytes : List Byte := []
     let s : State := up
     let on := kilnRuns s = true
     let valid := bytes.length = 8 ∧ leAt bytes 0 1 = 0xA5 ∧ leAt bytes 1 1 = 0x81 ∧ leAt bytes 6 2 = crc16 (subBytes bytes 1 5)
     (s.work = []) ∧ (on) ∧ (¬ valid)) ∧
    (let bytes : List Byte := List.replicate 8 0xA5
     let s : State := up
     let on := kilnRuns s = true
     let valid := bytes.length = 8 ∧ leAt bytes 0 1 = 0xA5 ∧ leAt bytes 1 1 = 0x81 ∧ leAt bytes 6 2 = crc16 (subBytes bytes 1 5)
     (s.work = []) ∧ (on) ∧ (¬ valid)) ∧
    (let bytes : List Byte := capFrame
     let s : State := up
     let on := kilnRuns s = true
     let valid := bytes.length = 8 ∧ leAt bytes 0 1 = 0xA5 ∧ leAt bytes 1 1 = 0x81 ∧ leAt bytes 6 2 = crc16 (subBytes bytes 1 5)
     (s.work = []) ∧ (on) ∧ (valid)) ∧
    (let s : State := own
     let on := kilnRuns s = true
     (s.work = []) ∧ (on)) ∧
    (let fb : Nat := 50
     let s : State := { up with dev := 8 }
     let on := kilnRuns s = true
     (s.work = []) ∧ (on) ∧ (s.dev = 8 ∨ stillForced fb s = true)) ∧
    (let fb : Nat := 50
     let s : State := kilnOf (fun k => { k with forced := true }) (wrF Reg.KLN_STATUS Fld.KLN_STATUS_WARN 4 up)
     let on := kilnRuns s = true
     (s.work = []) ∧ (on) ∧ (s.dev = 8 ∨ stillForced fb s = true)) ∧
    (let fb : Nat := 50
     let s : State := kilnOf (fun k => { k with ctl := 0 }) ({ up with dev := 8 })
     let on := kilnRuns s = true
     (s.work = []) ∧ (on) ∧ (s.dev = 8 ∨ stillForced fb s = true)) ∧
    (let fb : Nat := 50
     let s : State := kilnOf (fun k => { k with ctl := 0 }) (up)
     let on := kilnRuns s = true
     let auto := bitF Fld.KLN_CTL_VALVE_AUTO s.kiln.ctl
     (s.work = []) ∧ (on) ∧ (s.dev ≠ 8) ∧ (stillForced fb s = false) ∧ (auto = false)) := by
  dsimp only [Acts, Issues, Quiet, Working, Takes, Reaches]
  refine ⟨?_, ?_, ?_, ?_, ?_, ?_, ?_, ?_⟩ <;> decide +kernel

/-- O49, clauses 22, 23, 24, 25 and 27. -/
theorem test_hypotheses_kiln_complete_6 :
    (let fb : Nat := 50
     let s : State := kilnOf (fun k => { k with ctl := 0, forced := true }) (valveAt 55 up)
     let on := kilnRuns s = true
     let auto := bitF Fld.KLN_CTL_VALVE_AUTO s.kiln.ctl
     (s.work = []) ∧ (on) ∧ (s.dev ≠ 8) ∧ (stillForced fb s = false) ∧ (auto = false)) ∧
    (let fb : Nat := 50
     let s : State := kilnOf (fun k => { k with ctl := 2 }) (up)
     let on := kilnRuns s = true
     let auto := bitF Fld.KLN_CTL_VALVE_AUTO s.kiln.ctl
     (s.work = []) ∧ (on) ∧ (s.dev ≠ 8) ∧ (stillForced fb s = false) ∧ (auto = true)) ∧
    (let fb : Nat := 50
     let s : State := kilnOf (fun k => { k with ctl := 2, integ := -400 }) (wrF Reg.KLN_TEMPS Fld.KLN_TEMPS_OUTLET 900 own)
     let on := kilnRuns s = true
     let auto := bitF Fld.KLN_CTL_VALVE_AUTO s.kiln.ctl
     (s.work = []) ∧ (on) ∧ (s.dev ≠ 8) ∧ (stillForced fb s = false) ∧ (auto = true)) ∧
    (let fb : Nat := 50
     let s : State := valveAt 60 up
     let off' := kilnRuns s = false
     let duty := rdF Reg.KLN_VALVE Fld.KLN_VALVE_CMD s
     (s.work = []) ∧ (off' ∨ dutyGap fb duty ≤ 10)) ∧
    (let fb : Nat := 50
     let s : State := valveAt 61 own
     let on := kilnRuns s = true
     let duty := rdF Reg.KLN_VALVE Fld.KLN_VALVE_CMD s
     (s.work = []) ∧ (on) ∧ (10 < dutyGap fb duty)) ∧
    (let fb : Nat := 50
     let s : State := valveAt 39 up
     let on := kilnRuns s = true
     let duty := rdF Reg.KLN_VALVE Fld.KLN_VALVE_CMD s
     (s.work = []) ∧ (on) ∧ (10 < dutyGap fb duty)) ∧
    (let s : State := up
     let on := kilnRuns s = true
     (s.work = []) ∧ (on)) ∧
    (let s : State := up
     let on := kilnRuns s = true
     (s.work = []) ∧ (on)) := by
  dsimp only [Acts, Issues, Quiet, Working, Takes, Reaches]
  refine ⟨?_, ?_, ?_, ?_, ?_, ?_, ?_, ?_⟩ <;> decide +kernel

/-- O49, clauses 27 to 31. -/
theorem test_hypotheses_kiln_complete_7 :
    (let s : State := up
     let on := kilnRuns s = true
     (s.work = []) ∧ (on)) ∧
    (let v : Word := 7 * 2 ^ 32
     let src : Src := .host
     let s : State := wrF Reg.KLN_STATUS Fld.KLN_STATUS_WARN 31 up
     (s.work = []) ∧ (Quiet s) ∧ (Reaches src Reg.KLN_STATUS (.write v) s)) ∧
    (let off : Nat := Reg.KLN_CTL
     let v : Word := 5
     let src : Src := .host
     let row : RegRow := (regRowAt off).getD noRow
     let s : State := up
     let asks := Quiet s ∧ Reaches src off (.write v) s
     (s.work = []) ∧ (asks) ∧ (regRowAt off = some row) ∧ (off ∈ kilnCfgs) ∧ (kilnRange off v = true)) ∧
    (let off : Nat := Reg.KLN_POWER_CFG
     let v : Word := setF Fld.KLN_POWER_CFG_RAMP (setF Fld.KLN_POWER_CFG_PMAX 0 500) 1
     let src : Src := .host
     let row : RegRow := (regRowAt off).getD noRow
     let s : State := own
     let asks := Quiet s ∧ Reaches src off (.write v) s
     (s.work = []) ∧ (asks) ∧ (regRowAt off = some row) ∧ (off ∈ kilnCfgs) ∧ (kilnRange off v = true)) ∧
    (let off : Nat := Reg.KLN_POWER_CFG
     let v : Word := setF Fld.KLN_POWER_CFG_RAMP (setF Fld.KLN_POWER_CFG_PMAX 0 2400) 1
     let src : Src := .host
     let row : RegRow := (regRowAt off).getD noRow
     let s : State := up
     let asks := Quiet s ∧ Reaches src off (.write v) s
     (s.work = []) ∧ (asks) ∧ (regRowAt off = some row) ∧ (off ∈ kilnCfgs) ∧ (kilnRange off v = true)) ∧
    (let off : Nat := Reg.KLN_POWER_CFG
     let v : Word := setF Fld.KLN_POWER_CFG_RAMP (setF Fld.KLN_POWER_CFG_PMAX 0 499) 1
     let src : Src := .host
     let s : State := up
     let asks := Quiet s ∧ Reaches src off (.write v) s
     (s.work = []) ∧ (asks) ∧ (off ∈ kilnCfgs) ∧ (kilnRange off v = false)) ∧
    (let off : Nat := Reg.KLN_POWER_CFG
     let v : Word := setF Fld.KLN_POWER_CFG_RAMP (setF Fld.KLN_POWER_CFG_PMAX 0 2401) 1
     let src : Src := .host
     let s : State := up
     let asks := Quiet s ∧ Reaches src off (.write v) s
     (s.work = []) ∧ (asks) ∧ (off ∈ kilnCfgs) ∧ (kilnRange off v = false)) ∧
    (let off : Nat := 0x0400000
     let s : State := up
     let in' := 0x0200000 ≤ off ∧ off < 0x0400000
     (s.work = []) ∧ (¬ in')) := by
  dsimp only [Acts, Issues, Quiet, Working, Takes, Reaches]
  refine ⟨?_, ?_, ?_, ?_, ?_, ?_, ?_, ?_⟩ <;> decide +kernel

/-- O49, clause 29. -/
theorem test_hypotheses_kiln_complete_8 :
    (let off : Nat := 0x01FFFF8
     let s : State := up
     let in' := 0x0200000 ≤ off ∧ off < 0x0400000
     (s.work = []) ∧ (¬ in')) := by
  dsimp only [Acts, Issues, Quiet, Working, Takes, Reaches]
  decide +kernel

/-- O50, clauses 1 to 5. -/
theorem test_hypotheses_sideband_complete_1 :
    (let s : State := sb up
     let here := sbAddressed s = true
     (Quiet s) ∧ (sbRuns s = false ∨ here)) ∧
    (let s : State := power (fun p => { p with aux := false }) ({ up with dev := 0 })
     let here := sbAddressed s = true
     (Quiet s) ∧ (sbRuns s = false ∨ here)) ∧
    (let s : State := up
     let gone := sbAddressed s = false
     (Quiet s) ∧ (sbRuns s = true) ∧ (gone)) ∧
    (let s : State := power (fun p => { p with aux := false }) ({ up with dev := 0 })
     (Quiet s) ∧ (sbRuns s = false)) ∧
    (let s : State := sb up
     (Quiet s) ∧ (sbRuns s = true)) ∧
    (let s : State := sb up
     (Quiet s) ∧ (sbRuns s = true)) ∧
    (let s : State := ibis 3 up
     (Quiet s) ∧ (sbRuns s = true)) ∧
    (let s : State := ibis 3 up
     (Quiet s) ∧ (sbRuns s = true)) := by
  dsimp only [Acts, Issues, Quiet, Working, Takes, Reaches]
  refine ⟨?_, ?_, ?_, ?_, ?_, ?_, ?_, ?_⟩ <;> decide +kernel

/-- O50, clauses 6 to 8. -/
theorem test_hypotheses_sideband_complete_2 :
    (let s : State := sb (ibis 3 up)
     (Quiet s)) ∧
    (let s : State := sb up
     (Quiet s)) ∧
    (let s : State := up
     (Quiet s)) ∧
    (let s : State := sb (ibis 3 up)
     (Quiet s)) ∧
    (let s : State := sb up
     (Quiet s)) ∧
    (let s : State := up
     (Quiet s)) ∧
    (let s : State := sb (ibis 3 up)
     (Quiet s)) ∧
    (let s : State := sb up
     (Quiet s)) := by
  dsimp only [Acts, Issues, Quiet, Working, Takes, Reaches]
  refine ⟨?_, ?_, ?_, ?_, ?_, ?_, ?_, ?_⟩ <;> decide +kernel

/-- O50, clauses 8 to 11. -/
theorem test_hypotheses_sideband_complete_3 :
    (let s : State := up
     (Quiet s)) ∧
    (let s : State := sb (ibis 3 up)
     (Quiet s)) ∧
    (let s : State := sb up
     (Quiet s)) ∧
    (let s : State := up
     (Quiet s)) ∧
    (let s : State := sb (ibis 3 up)
     (Quiet s)) ∧
    (let s : State := sb up
     (Quiet s)) ∧
    (let s : State := up
     (Quiet s)) ∧
    (let s : State := sb (ibis 3 up)
     (Quiet s)) := by
  dsimp only [Acts, Issues, Quiet, Working, Takes, Reaches]
  refine ⟨?_, ?_, ?_, ?_, ?_, ?_, ?_, ?_⟩ <;> decide +kernel

/-- O50, clauses 11 to 15. -/
theorem test_hypotheses_sideband_complete_4 :
    (let s : State := sb up
     (Quiet s)) ∧
    (let s : State := up
     (Quiet s)) ∧
    (let won : Bool := true
     let s : State := ibis 3 up
     let gone := sbAddressed s = false
     (Quiet s) ∧ (gone ∨ s.ibiEn = false ∨ s.ibiPend = 0 ∨ won = false)) ∧
    (let won : Bool := true
     let s : State := sb up
     let gone := sbAddressed s = false
     (Quiet s) ∧ (gone ∨ s.ibiEn = false ∨ s.ibiPend = 0 ∨ won = false)) ∧
    (let won : Bool := false
     let s : State := sb (ibis 3 up)
     let gone := sbAddressed s = false
     (Quiet s) ∧ (gone ∨ s.ibiEn = false ∨ s.ibiPend = 0 ∨ won = false)) ∧
    (let s : State := sb (ibis 3 up)
     let here := sbAddressed s = true
     (Quiet s) ∧ (here) ∧ (s.ibiEn = true) ∧ (s.ibiPend ≠ 0)) ∧
    (let s : State := up
     let gone := sbAddressed s = false
     (Quiet s) ∧ (gone)) ∧
    (let addr : Nat := 4
     let data : List Byte := List.replicate 16 3
     let s : State := sb up
     let here := sbAddressed s = true
     let sized := data.length % 8 = 0 ∧ 8 ≤ data.length ∧ data.length ≤ 64 ∧ addr % 8 = 0
     (Quiet s) ∧ (here) ∧ (¬ sized)) := by
  dsimp only [Acts, Issues, Quiet, Working, Takes, Reaches]
  refine ⟨?_, ?_, ?_, ?_, ?_, ?_, ?_, ?_⟩ <;> decide +kernel

/-- O50, clauses 15 to 19. -/
theorem test_hypotheses_sideband_complete_5 :
    (let addr : Nat := 64
     let data : List Byte := []
     let s : State := sb up
     let here := sbAddressed s = true
     let sized := data.length % 8 = 0 ∧ 8 ≤ data.length ∧ data.length ≤ 64 ∧ addr % 8 = 0
     (Quiet s) ∧ (here) ∧ (¬ sized)) ∧
    (let addr : Nat := 64
     let data : List Byte := List.replicate 72 0
     let s : State := sb up
     let here := sbAddressed s = true
     let sized := data.length % 8 = 0 ∧ 8 ≤ data.length ∧ data.length ≤ 64 ∧ addr % 8 = 0
     (Quiet s) ∧ (here) ∧ (¬ sized)) ∧
    (let addr : Nat := 64
     let data : List Byte := List.replicate 16 3
     let s : State := sb up
     let here := sbAddressed s = true
     let sized := data.length % 8 = 0 ∧ 8 ≤ data.length ∧ data.length ≤ 64 ∧ addr % 8 = 0
     let bare := s.dev = 3 ∧ held s = false ∧ addr + data.length ≤ 262144 * 4096
     (Quiet s) ∧ (here) ∧ (sized) ∧ (¬ bare)) ∧
    (let addr : Nat := 64
     let data : List Byte := List.replicate 16 3
     let s : State := sb { up with dev := 3 }
     let here := sbAddressed s = true
     let sized := data.length % 8 = 0 ∧ 8 ≤ data.length ∧ data.length ≤ 64 ∧ addr % 8 = 0
     let bare := s.dev = 3 ∧ held s = false ∧ addr + data.length ≤ 262144 * 4096
     (Quiet s) ∧ (here) ∧ (sized) ∧ (bare)) ∧
    (let addr : Nat := 262144 * 4096 - 64
     let data : List Byte := List.replicate 64 7
     let s : State := sb { up with dev := 3 }
     let here := sbAddressed s = true
     let sized := data.length % 8 = 0 ∧ 8 ≤ data.length ∧ data.length ≤ 64 ∧ addr % 8 = 0
     let bare := s.dev = 3 ∧ held s = false ∧ addr + data.length ≤ 262144 * 4096
     (Quiet s) ∧ (here) ∧ (sized) ∧ (bare)) ∧
    (let addr : Nat := 64
     let data : List Byte := []
     let s : State := sb up
     let here := sbAddressed s = true
     let fits := 1 ≤ data.length ∧ data.length ≤ 64 ∧ addr + data.length ≤ mboxSize
     (Quiet s) ∧ (here) ∧ (¬ fits)) ∧
    (let addr : Nat := mboxSize - 15
     let data : List Byte := List.replicate 16 3
     let s : State := sb up
     let here := sbAddressed s = true
     let fits := 1 ≤ data.length ∧ data.length ≤ 64 ∧ addr + data.length ≤ mboxSize
     (Quiet s) ∧ (here) ∧ (¬ fits)) ∧
    (let addr : Nat := mboxSize - 16
     let data : List Byte := List.replicate 16 3
     let s : State := sb up
     let here := sbAddressed s = true
     let fits := 1 ≤ data.length ∧ data.length ≤ 64 ∧ addr + data.length ≤ mboxSize
     (Quiet s) ∧ (here) ∧ (fits)) := by
  dsimp only [Acts, Issues, Quiet, Working, Takes, Reaches]
  refine ⟨?_, ?_, ?_, ?_, ?_, ?_, ?_, ?_⟩ <;> decide +kernel

/-- O50, clauses 20 to 24. -/
theorem test_hypotheses_sideband_complete_6 :
    (let s : State := sb (power (fun p => { p with warm := some 3 }) up)
     let here := sbAddressed s = true
     let low := held s = true ∨ dead s = true
     (Quiet s) ∧ (here) ∧ (low)) ∧
    (let s : State := sb up
     let here := sbAddressed s = true
     let low := held s = true ∨ dead s = true
     (Quiet s) ∧ (here) ∧ (¬ low)) ∧
    (let s : State := attests (mgtOf (fun m => { m with req := memWrite [] 0 (leBytes 2 1 ++ leBytes 2 0 ++ leBytes 4 8) }) up)
     let here := sbAddressed s = true
     let low := held s = true ∨ dead s = true
     (Quiet s) ∧ (here) ∧ (¬ low)) ∧
    (let s : State := sb (mgtOf (fun m => { m with rsp := List.replicate 100 4 }) up)
     let here := sbAddressed s = true
     (Quiet s) ∧ (here)) ∧
    (let data : List Byte := List.replicate 16 3
     let s : State := sb (mgtOf (fun m => { m with data := List.replicate 64 4 }) up)
     let here := sbAddressed s = true
     (Quiet s) ∧ (here)) ∧
    (let s : State := sb up
     let here := sbAddressed s = true
     (Quiet s) ∧ (here)) ∧
    (let cmd : Nat := 1
     let s : State := sb up
     (Quiet s) ∧ (1 ≤ cmd) ∧ (cmd ≤ 6)) ∧
    (let cmd : Nat := 6
     let s : State := sb up
     (Quiet s) ∧ (1 ≤ cmd) ∧ (cmd ≤ 6)) := by
  dsimp only [Acts, Issues, Quiet, Working, Takes, Reaches]
  refine ⟨?_, ?_, ?_, ?_, ?_, ?_, ?_, ?_⟩ <;> decide +kernel

/-- O50, clauses 25 to 29. -/
theorem test_hypotheses_sideband_complete_7 :
    (let cmd : Nat := 0
     let s : State := sb up
     let here := sbAddressed s = true
     (Quiet s) ∧ (here) ∧ (cmd = 0 ∨ 6 < cmd)) ∧
    (let cmd : Nat := 7
     let s : State := sb up
     let here := sbAddressed s = true
     (Quiet s) ∧ (here) ∧ (cmd = 0 ∨ 6 < cmd)) ∧
    (let v : Word := setF Fld.MGT_TRAY_TRAY 0 9
     let s : State := up
     let writes := fun (src : Src) => Reaches src Reg.MGT_TRAY (.write v) s
     (Quiet s) ∧ (writes .host)) ∧
    (let v : Word := setF Fld.MGT_TRAY_TRAY 0 9
     let s : State := sb (trayAt 9 up)
     let tray := getF Fld.MGT_TRAY_TRAY v
     let set := bitF Fld.MGT_TRAY_VALID (rd Reg.MGT_TRAY s) = true
     let current := rdF Reg.MGT_TRAY Fld.MGT_TRAY_TRAY s
     let writes := fun (src : Src) => Reaches src Reg.MGT_TRAY (.write v) s
     (Quiet s) ∧ (writes .sideband) ∧ (set) ∧ (tray = current)) ∧
    (let v : Word := setF Fld.MGT_TRAY_TRAY 0 9
     let s : State := sb (trayAt 8 up)
     let tray := getF Fld.MGT_TRAY_TRAY v
     let set := bitF Fld.MGT_TRAY_VALID (rd Reg.MGT_TRAY s) = true
     let current := rdF Reg.MGT_TRAY Fld.MGT_TRAY_TRAY s
     let writes := fun (src : Src) => Reaches src Reg.MGT_TRAY (.write v) s
     (Quiet s) ∧ (writes .sideband) ∧ (set) ∧ (tray ≠ current)) ∧
    (let v : Word := setF Fld.MGT_TRAY_TRAY 0 9
     let s : State := sb up
     let set := bitF Fld.MGT_TRAY_VALID (rd Reg.MGT_TRAY s) = true
     let writes := fun (src : Src) => Reaches src Reg.MGT_TRAY (.write v) s
     (Quiet s) ∧ (writes .sideband) ∧ (¬ set)) ∧
    (let v : Word := setF Fld.MGT_TRAY_TRAY 0 9
     let s : State := sb (wrF Reg.FAB_SELF Fld.FAB_SELF_SLOT 1 up)
     let set := bitF Fld.MGT_TRAY_VALID (rd Reg.MGT_TRAY s) = true
     let writes := fun (src : Src) => Reaches src Reg.MGT_TRAY (.write v) s
     (Quiet s) ∧ (writes .sideband) ∧ (¬ set)) := by
  dsimp only [Acts, Issues, Quiet, Working, Takes, Reaches]
  refine ⟨?_, ?_, ?_, ?_, ?_, ?_, ?_⟩ <;> decide +kernel

/-- O51, clauses 1 to 8. -/
theorem test_hypotheses_register_accesses_complete_1 :
    (let off : Nat := 0x3800100
     let size : Nat := 4
     let src : Src := .host
     let s : State := up
     let reads := Reaches src off .read s
     (Quiet s) ∧ (reads) ∧ (size ≠ 8)) ∧
    (let off : Nat := 4
     let src : Src := .host
     let s : State := up
     let reads := Reaches src off .read s
     let aligned := off % 8 = 0
     (Quiet s) ∧ (reads) ∧ (¬ aligned)) ∧
    (let off : Nat := 0x3BFFFF8
     let src : Src := .host
     let s : State := up
     let reads := Reaches src off .read s
     let undefined := regRowAt off = none ∧ errWindow off = false
     let aligned := off % 8 = 0
     (Quiet s) ∧ (reads) ∧ (aligned) ∧ (undefined)) ∧
    (let off : Nat := Reg.GLB_STATE
     let r : RegRow := (regRowAt off).getD noRow
     let src : Src := .host
     let s : State := own
     let reads := Reaches src off .read s
     let aligned := off % 8 = 0
     (Quiet s) ∧ (reads) ∧ (aligned) ∧ (regRowAt off = some r)) ∧
    (let off : Nat := 0x3C10008
     let src : Src := .host
     let s : State := own
     let reads := Reaches src off .read s
     let aligned := off % 8 = 0
     (Quiet s) ∧ (reads) ∧ (aligned) ∧ (regRowAt off = none) ∧ (errWindow off = true)) ∧
    (let off : Nat := Reg.GLB_HIF_CTL
     let src : Src := .host
     let s : State := own
     let reads := Reaches src off .read s
     let rows := [Reg.GLB_HIF_CTL, Reg.JIG_IMG, Reg.JIG_GLUE_SRC, Reg.JIG_GLUE_CFG, Reg.TIR_RECOVER_CTL, Reg.COL_CFG, Reg.FAB_V2_KEY,
           Reg.SEC_OWNER_STAGE 0, Reg.SEC_OWNER_STAGE 1, Reg.SEC_OWNER_STAGE 2, Reg.SEC_OWNER_STAGE 3, Reg.SEC_OWNER_SIGTILE,
           Reg.MGT_IBI_MASK, Reg.ERR_CTL]
     (Quiet s) ∧ (reads) ∧ (off ∈ rows)) ∧
    (let off : Nat := 0x3800100
     let size : Nat := 4
     let v : Word := 5
     let src : Src := .host
     let s : State := up
     let writes := Reaches src off (.write v) s
     (Quiet s) ∧ (writes) ∧ (size ≠ 8)) ∧
    (let off : Nat := 4
     let v : Word := 5
     let src : Src := .host
     let s : State := up
     let writes := Reaches src off (.write v) s
     let aligned := off % 8 = 0
     (Quiet s) ∧ (writes) ∧ (¬ aligned)) := by
  dsimp only [Acts, Issues, Quiet, Working, Takes, Reaches]
  refine ⟨?_, ?_, ?_, ?_, ?_, ?_, ?_, ?_⟩ <;> decide +kernel

/-- O51, clauses 9, 10, 11, 12, 20, 21, 22 and 23. -/
theorem test_hypotheses_register_accesses_complete_2 :
    (let off : Nat := 0x3BFFFF8
     let v : Word := 5
     let src : Src := .host
     let s : State := up
     let writes := Reaches src off (.write v) s
     let undefined := regRowAt off = none ∧ errWindow off = false
     let aligned := off % 8 = 0
     (Quiet s) ∧ (writes) ∧ (aligned) ∧ (undefined)) ∧
    (let off : Nat := Reg.GLB_STATE
     let r : RegRow := (regRowAt off).getD noRow
     let v : Word := 5
     let src : Src := .host
     let s : State := own
     let writes := Reaches src off (.write v) s
     let aligned := off % 8 = 0
     (Quiet s) ∧ (writes) ∧ (aligned) ∧ (regRowAt off = some r)) ∧
    (let off : Nat := Reg.GLB_HIF_CTL
     let v : Word := 0x123456789ABCDEF0
     let src : Src := .host
     let s : State := own
     let writes := Reaches src off (.write v) s
     let rows := [Reg.GLB_HIF_CTL, Reg.JIG_IMG, Reg.JIG_GLUE_SRC, Reg.JIG_GLUE_CFG, Reg.TIR_RECOVER_CTL, Reg.COL_CFG, Reg.FAB_V2_KEY,
           Reg.SEC_OWNER_STAGE 0, Reg.SEC_OWNER_STAGE 1, Reg.SEC_OWNER_STAGE 2, Reg.SEC_OWNER_STAGE 3, Reg.SEC_OWNER_SIGTILE,
           Reg.MGT_IBI_MASK, Reg.ERR_CTL]
     (Quiet s) ∧ (writes) ∧ (off ∈ rows)) ∧
    (let v : Word := 9
     let src : Src := .host
     let s : State := errLog 3 9 up
     let u := arrived src s
     let head := v.toNat % 2 ^ 32
     let from' := rdF Reg.ERR_STATE Fld.ERR_STATE_HEAD u
     let till := rdF Reg.ERR_STATE Fld.ERR_STATE_TAIL u
     let moves := (head + 2 ^ 32 - from') % 2 ^ 32 ≤ (till + 2 ^ 32 - from') % 2 ^ 32
     let asks := Reaches src Reg.ERR_HEAD (.write v) s
     (Quiet s) ∧ (asks) ∧ (moves) ∧ (s.errPending = 0)) ∧
    (let v : Word := 10
     let src : Src := .host
     let s : State := errLog 3 9 up
     let u := arrived src s
     let head := v.toNat % 2 ^ 32
     let from' := rdF Reg.ERR_STATE Fld.ERR_STATE_HEAD u
     let till := rdF Reg.ERR_STATE Fld.ERR_STATE_TAIL u
     let moves := (head + 2 ^ 32 - from') % 2 ^ 32 ≤ (till + 2 ^ 32 - from') % 2 ^ 32
     let asks := Reaches src Reg.ERR_HEAD (.write v) s
     (Quiet s) ∧ (asks) ∧ (¬ moves)) ∧
    (let v : Word := 4
     let src : Src := .host
     let s : State := { errLog 3 4099 up with errPending := 6 }
     let u := arrived src s
     let head := v.toNat % 2 ^ 32
     let from' := rdF Reg.ERR_STATE Fld.ERR_STATE_HEAD u
     let till := rdF Reg.ERR_STATE Fld.ERR_STATE_TAIL u
     let moves := (head + 2 ^ 32 - from') % 2 ^ 32 ≤ (till + 2 ^ 32 - from') % 2 ^ 32
     let asks := Reaches src Reg.ERR_HEAD (.write v) s
     (Quiet s) ∧ (asks) ∧ (moves) ∧ (s.errPending ≠ 0) ∧ (errFull (wrF Reg.ERR_STATE Fld.ERR_STATE_HEAD head u) = false) ∧ (2 ≤ s.dev) ∧ (dead s = false)) ∧
    (let v : Word := 0
     let src : Src := .host
     let s : State := wr Reg.GLB_BAD_FIRST 5 up
     (Quiet s) ∧ (Reaches src Reg.GLB_BAD_FIRST (.write (v ||| maskF Fld.GLB_BAD_FIRST_VALID)) s)) ∧
    (let off : Nat := 4
     let s : State := sb up
     let aligned := off % 8 = 0
     (Quiet s) ∧ (Reaches .sideband off .read s) ∧ (¬ aligned)) := by
  dsimp only [Acts, Issues, Quiet, Working, Takes, Reaches]
  refine ⟨?_, ?_, ?_, ?_, ?_, ?_, ?_, ?_⟩ <;> decide +kernel

/-- O51, clauses 13 to 19. -/
theorem test_hypotheses_register_accesses_complete_3 :
    (let off : Nat := 0x3BFFFF8
     let s : State := sb up
     let undefined := regRowAt off = none ∧ errWindow off = false
     let aligned := off % 8 = 0
     (Quiet s) ∧ (Reaches .sideband off .read s) ∧ (aligned) ∧ (undefined)) ∧
    (let off : Nat := Reg.KLN_STATUS
     let r : RegRow := (regRowAt off).getD noRow
     let s : State := sb own
     let aligned := off % 8 = 0
     (Quiet s) ∧ (Reaches .sideband off .read s) ∧ (aligned) ∧ (regRowAt off = some r)) ∧
    (let off : Nat := Reg.GLB_HIF_CTL
     let s : State := sb own
     let rows := [Reg.GLB_HIF_CTL, Reg.JIG_IMG, Reg.JIG_GLUE_SRC, Reg.JIG_GLUE_CFG, Reg.TIR_RECOVER_CTL, Reg.COL_CFG, Reg.FAB_V2_KEY,
           Reg.SEC_OWNER_STAGE 0, Reg.SEC_OWNER_STAGE 1, Reg.SEC_OWNER_STAGE 2, Reg.SEC_OWNER_STAGE 3, Reg.SEC_OWNER_SIGTILE,
           Reg.MGT_IBI_MASK, Reg.ERR_CTL]
     (Quiet s) ∧ (Reaches .sideband off .read s) ∧ (off ∈ rows)) ∧
    (let off : Nat := Reg.KLN_STATUS
     let r : RegRow := (regRowAt off).getD noRow
     let v : Word := 5
     let s : State := sb own
     let aligned := off % 8 = 0
     (Quiet s) ∧ (Reaches .sideband off (.write v) s) ∧ (aligned) ∧ (regRowAt off = some r)) ∧
    (let off : Nat := Reg.GLB_HIF_CTL
     let v : Word := 0x123456789ABCDEF0
     let s : State := sb own
     let rows := [Reg.GLB_HIF_CTL, Reg.JIG_IMG, Reg.JIG_GLUE_SRC, Reg.JIG_GLUE_CFG, Reg.TIR_RECOVER_CTL, Reg.COL_CFG, Reg.FAB_V2_KEY,
           Reg.SEC_OWNER_STAGE 0, Reg.SEC_OWNER_STAGE 1, Reg.SEC_OWNER_STAGE 2, Reg.SEC_OWNER_STAGE 3, Reg.SEC_OWNER_SIGTILE,
           Reg.MGT_IBI_MASK, Reg.ERR_CTL]
     (Quiet s) ∧ (Reaches .sideband off (.write v) s) ∧ (off ∈ rows)) ∧
    (let off : Nat := Reg.KLN_STATUS
     let s : State := sb (power (fun p => { p with warm := some 3 }) up)
     (Quiet s) ∧ (sbAddressed s = true) ∧ (sbReaches .read off (bump Reg.MGT_SB_XFERS s) = false)) ∧
    (let off : Nat := Reg.KLN_STATUS
     let v : Word := 5
     let s : State := sb { up with dev := 1 }
     (Quiet s) ∧ (sbAddressed s = true) ∧ (sbReaches (.write v) off (bump Reg.MGT_SB_XFERS s) = false)) := by
  dsimp only [Acts, Issues, Quiet, Working, Takes, Reaches]
  refine ⟨?_, ?_, ?_, ?_, ?_, ?_, ?_⟩ <;> decide +kernel

/-- O58, clauses 1 to 5. -/
theorem test_hypotheses_locked_bench_registers_1 :
    (let b : Nat := 0
     let v : Word := 1
     let src : Src := .host
     let s : State := up
     let writes := fun (off : Nat) => Reaches src off (.write v) s
     let still := ∀ q < 2, (seqOf b q s).st = .idle ∨ (seqOf b q s).st = .done ∨ (seqOf b q s).st = .fault
     (b < 1176) ∧ (Quiet s) ∧ (s.priv = false) ∧ (writes (Reg.BEN_CTL b)) ∧ (still)) ∧
    (let b : Nat := 0
     let v : Word := 1
     let src : Src := .host
     let s : State := seq0 (fun x => { x with st := .fault }) up
     let writes := fun (off : Nat) => Reaches src off (.write v) s
     let still := ∀ q < 2, (seqOf b q s).st = .idle ∨ (seqOf b q s).st = .done ∨ (seqOf b q s).st = .fault
     (b < 1176) ∧ (Quiet s) ∧ (s.priv = false) ∧ (writes (Reg.BEN_CTL b)) ∧ (still)) ∧
    (let b : Nat := 0
     let v : Word := 1
     let src : Src := .host
     let s : State := busy 0 up
     let u := arrived src s
     let writes := fun (off : Nat) => Reaches src off (.write v) s
     let running := ∃ q < 2, (seqOf b q s).st = .run ∨ (seqOf b q s).st = .wait
     (b < 1176) ∧ (Quiet s) ∧ (s.priv = false) ∧ (writes (Reg.BEN_CTL b)) ∧ (running) ∧ (getF Fld.BEN_CTL_SPLIT v ≠ rdF (Reg.BEN_CTL b) Fld.BEN_CTL_SPLIT u)) ∧
    (let b : Nat := 0
     let v : Word := 1
     let src : Src := .host
     let s : State := busy 1 (wr Reg.GLB_BAD_FIRST 0x8000000000000000 up)
     let u := arrived src s
     let writes := fun (off : Nat) => Reaches src off (.write v) s
     let running := ∃ q < 2, (seqOf b q s).st = .run ∨ (seqOf b q s).st = .wait
     (b < 1176) ∧ (Quiet s) ∧ (s.priv = false) ∧ (writes (Reg.BEN_CTL b)) ∧ (running) ∧ (getF Fld.BEN_CTL_SPLIT v ≠ rdF (Reg.BEN_CTL b) Fld.BEN_CTL_SPLIT u)) ∧
    (let b : Nat := 0
     let v : Word := 0x1F0F
     let src : Src := .host
     let s : State := up
     let writes := fun (off : Nat) => Reaches src off (.write v) s
     let still := ∀ q < 2, (seqOf b q s).st = .idle ∨ (seqOf b q s).st = .done ∨ (seqOf b q s).st = .fault
     (b < 1176) ∧ (Quiet s) ∧ (s.priv = false) ∧ (writes (Reg.BEN_EXC_CTL b)) ∧ (still)) ∧
    (let b : Nat := 1175
     let v : Word := 0xFFFF
     let src : Src := .host
     let s : State := up
     let writes := fun (off : Nat) => Reaches src off (.write v) s
     let still := ∀ q < 2, (seqOf b q s).st = .idle ∨ (seqOf b q s).st = .done ∨ (seqOf b q s).st = .fault
     (b < 1176) ∧ (Quiet s) ∧ (s.priv = false) ∧ (writes (Reg.BEN_EXC_CTL b)) ∧ (still)) ∧
    (let b : Nat := 0
     let v : Word := 1
     let src : Src := .host
     let s : State := busy 1 up
     let writes := fun (off : Nat) => Reaches src off (.write v) s
     let running := ∃ q < 2, (seqOf b q s).st = .run ∨ (seqOf b q s).st = .wait
     (b < 1176) ∧ (Quiet s) ∧ (s.priv = false) ∧ (writes (Reg.BEN_EXC_CTL b)) ∧ (running)) ∧
    (let b : Nat := 0
     let v : Word := 1
     let src : Src := .host
     let s : State := busy 0 up
     let u := arrived src s
     let writes := fun (off : Nat) => Reaches src off (.write v) s
     let at' := (seqOf b (rdF (Reg.BEN_IMEM_ADDR b) Fld.BEN_IMEM_ADDR_SEQ u) s).st
     (b < 1176) ∧ (Quiet s) ∧ (s.priv = false) ∧ (writes (Reg.BEN_IMEM_DATA b)) ∧ (at' = .run ∨ at' = .wait)) := by
  dsimp only [Acts, Issues, Quiet, Working, Takes, Reaches]
  refine ⟨?_, ?_, ?_, ?_, ?_, ?_, ?_, ?_⟩ <;> decide +kernel

/-- O58, clauses 5 to 6. -/
theorem test_hypotheses_locked_bench_registers_2 :
    (let b : Nat := 0
     let v : Word := 1
     let src : Src := .host
     let s : State := wrF (Reg.BEN_IMEM_ADDR 0) Fld.BEN_IMEM_ADDR_SEQ 1 (busy 1 up)
     let u := arrived src s
     let writes := fun (off : Nat) => Reaches src off (.write v) s
     let at' := (seqOf b (rdF (Reg.BEN_IMEM_ADDR b) Fld.BEN_IMEM_ADDR_SEQ u) s).st
     (b < 1176) ∧ (Quiet s) ∧ (s.priv = false) ∧ (writes (Reg.BEN_IMEM_DATA b)) ∧ (at' = .run ∨ at' = .wait)) ∧
    (let b : Nat := 0
     let src : Src := .host
     let s : State := busy 0 up
     let u := arrived src s
     let at' := (seqOf b (rdF (Reg.BEN_IMEM_ADDR b) Fld.BEN_IMEM_ADDR_SEQ u) s).st
     (b < 1176) ∧ (Quiet s) ∧ (s.priv = false) ∧ (Reaches src (Reg.BEN_IMEM_DATA b) .read s) ∧ (at' = .run ∨ at' = .wait)) := by
  dsimp only [Acts, Issues, Quiet, Working, Takes, Reaches]
  refine ⟨?_, ?_⟩ <;> decide +kernel

/-- O59, clauses 1 to 7. -/
theorem test_hypotheses_branches_end_loops :
    (let b : Nat := 0
     let q : Nat := 0
     let s : State := at0 (slWord 0x78 [(Sl.BRANCH_XA, 3), (Sl.BRANCH_XB, 2), (Sl.BRANCH_TARGET, 9), (Sl.BRANCH_IMM, 1), (Sl.BRANCH_IMMV, 0xFFFE)]) looping
     let w := curWord b q s
     let x := (seqOf b q s).index (getF Sl.BRANCH_XA w)
     let y := if getF Sl.BRANCH_IMM w = 1 then wrap32 (signExt 16 (getF Sl.BRANCH_IMMV w))
           else (seqOf b q s).index (getF Sl.BRANCH_XB w)
     (Issues b q .branchEq s) ∧ (x = y)) ∧
    (let b : Nat := 0
     let q : Nat := 0
     let s : State := at0 (slWord 0x79 [(Sl.BRANCH_XA, 3), (Sl.BRANCH_XB, 2), (Sl.BRANCH_TARGET, 9)]) looping
     let w := curWord b q s
     let x := (seqOf b q s).index (getF Sl.BRANCH_XA w)
     let y := if getF Sl.BRANCH_IMM w = 1 then wrap32 (signExt 16 (getF Sl.BRANCH_IMMV w))
           else (seqOf b q s).index (getF Sl.BRANCH_XB w)
     (Issues b q .branchNe s) ∧ (x ≠ y)) ∧
    (let b : Nat := 0
     let q : Nat := 0
     let s : State := at0 (slWord 0x7a [(Sl.BRANCH_XA, 3), (Sl.BRANCH_XB, 2), (Sl.BRANCH_TARGET, 9)]) looping
     let w := curWord b q s
     let x := (seqOf b q s).index (getF Sl.BRANCH_XA w)
     let y := if getF Sl.BRANCH_IMM w = 1 then wrap32 (signExt 16 (getF Sl.BRANCH_IMMV w))
           else (seqOf b q s).index (getF Sl.BRANCH_XB w)
     (Issues b q .branchLt s) ∧ (signExt 32 x < signExt 32 y)) ∧
    (let b : Nat := 0
     let q : Nat := 0
     let s : State := at0 (slWord 0x7b [(Sl.BRANCH_XA, 3), (Sl.BRANCH_XB, 2), (Sl.BRANCH_TARGET, 9), (Sl.BRANCH_IMM, 1), (Sl.BRANCH_IMMV, 0xFFFE)]) looping
     let w := curWord b q s
     let x := (seqOf b q s).index (getF Sl.BRANCH_XA w)
     let y := if getF Sl.BRANCH_IMM w = 1 then wrap32 (signExt 16 (getF Sl.BRANCH_IMMV w))
           else (seqOf b q s).index (getF Sl.BRANCH_XB w)
     (Issues b q .branchGe s) ∧ (signExt 32 y ≤ signExt 32 x)) ∧
    (let b : Nat := 0
     let q : Nat := 0
     let s : State := at0 (slWord 0x7c [(Sl.BRANCH_XA, 2), (Sl.BRANCH_XB, 3), (Sl.BRANCH_TARGET, 9)]) looping
     let w := curWord b q s
     let x := (seqOf b q s).index (getF Sl.BRANCH_XA w)
     let y := if getF Sl.BRANCH_IMM w = 1 then wrap32 (signExt 16 (getF Sl.BRANCH_IMMV w))
           else (seqOf b q s).index (getF Sl.BRANCH_XB w)
     (Issues b q .branchLtu s) ∧ (x < y)) ∧
    (let b : Nat := 0
     let q : Nat := 0
     let s : State := at0 (slWord 0x7d [(Sl.BRANCH_XA, 3), (Sl.BRANCH_XB, 2), (Sl.BRANCH_TARGET, 9)]) looping
     let w := curWord b q s
     let x := (seqOf b q s).index (getF Sl.BRANCH_XA w)
     let y := if getF Sl.BRANCH_IMM w = 1 then wrap32 (signExt 16 (getF Sl.BRANCH_IMMV w))
           else (seqOf b q s).index (getF Sl.BRANCH_XB w)
     (Issues b q .branchGeu s) ∧ (y ≤ x)) ∧
    (let b : Nat := 0
     let q : Nat := 0
     let s : State := at0 (slWord 0x7e [(Sl.BRANCH_XA, 3), (Sl.BRANCH_XB, 2), (Sl.BRANCH_TARGET, 9)]) looping
     (Issues b q .branchAl s)) := by
  dsimp only [Acts, Issues, Quiet, Working, Takes, Reaches]
  refine ⟨?_, ?_, ?_, ?_, ?_, ?_, ?_⟩ <;> decide +kernel

/-- O60, clauses 1 to 5. -/
theorem test_hypotheses_shut_accesses_change_nothing :
    (let s : State := noLink up
     (Quiet s) ∧ (hostOpen s = false)) ∧
    (let s : State := up
     (Quiet s) ∧ (sbAddressed s = false)) ∧
    (let off : Nat := Reg.KLN_CTL
     let s : State := { up with dev := 3 }
     (Quiet s) ∧ (hostOpen s = true) ∧ (hostShut off s = true ∨ glueShuts off s = true)) ∧
    (let off : Nat := Reg.KLN_CTL
     let v : Word := 5
     let s : State := sb (setGlue 3 (change (9 * 2 ^ 48) (2 ^ 34) [] up))
     let u := bump Reg.MGT_SB_XFERS s
     (Quiet s) ∧ (sbAddressed s = true) ∧ (sbReaches (.write v) off u = true) ∧ (glueShuts off (sbLast 0 u) = true)) ∧
    (let off : Nat := Reg.KLN_CTL
     let a : Access := .read
     let s : State := sb { up with dev := 1 }
     let u := bump Reg.MGT_SB_XFERS s
     (Quiet s) ∧ (sbAddressed s = true) ∧ (sbReaches a off u = false)) := by
  dsimp only [Acts, Issues, Quiet, Working, Takes, Reaches]
  refine ⟨?_, ?_, ?_, ?_, ?_⟩ <;> decide +kernel

/-- O57, clauses 3 to 5. -/
theorem test_hypotheses_slasal_words_follow_the_tables :
    (let b : Nat := 0
     let q : Nat := 0
     let s : State := at0 0
     (Acts b q s) ∧ (canIssue b q s = true) ∧ ((seqOf b q s).pc < 8192) ∧ (slDecode (curWord b q s) = none)) ∧
    (let b : Nat := 0
     let q : Nat := 0
     let s : State := at0 0
     (Acts b q s) ∧ (canIssue b q s = true) ∧ ((seqOf b q s).pc < 8192) ∧ (slDecode (curWord b q s) = none)) ∧
    (let b : Nat := 0
     let q : Nat := 0
     let s : State := at0 (slWord 0x02 [])
     (Acts b q s) ∧ (canIssue b q s = true) ∧ ((seqOf b q s).pc < 8192) ∧ (slDecode (curWord b q s) = none)) := by
  dsimp only [Acts, Issues, Quiet, Working, Takes, Reaches]
  refine ⟨?_, ?_, ?_⟩ <;> decide +kernel

/-- O42, clause 2, where the image in flash has the vendor's signature. -/
theorem test_hypotheses_image_loads (h : lmsVerify Config.vendorKey (flashImg loadable 1924 1612) (vendorMsg (flashImg loadable)) = true) :
    loadable.work = [] ∧ (Quiet loadable ∧ loadable.dev = 2 ∧ held loadable = false ∧ loadable.power.ruril = true) ∧
    loadable.jig.rebuild = false ∧ imageFail (flashImg loadable) 268435456 true loadable = 0 ∧
    (sectionsApply (flashImg loadable) loadable).1 = true := by
  have e : imageFail (flashImg loadable) 268435456 true loadable = 0 := by
    unfold imageFail
    rw [h]
    decide +kernel
  exact ⟨by decide +kernel, by unfold Quiet; decide +kernel, by decide +kernel, e, by decide +kernel⟩

/-- O42, clauses 8 and 9, where the staged image has the vendor's signature. -/
theorem test_hypotheses_image_programs
    (h : lmsVerify Config.vendorKey (tileImg 5000 staged 1924 1612) (vendorMsg (tileImg 5000 staged)) = true) :
    staged.work = [] ∧ (staged.jig.prog = some (5000, 2, 5) ∧ held staged = false ∧ dead staged = false) ∧
    (let image := tileImg 5000 staged
     let clean := staged.rbad.all (fun n => !(decide (5000 ≤ n) && decide (n * 4096 < 5000 * 4096 + imgLen image)))
     (if 5 ≠ 3 ∧ sysTile < 5000 + 2 then 1 else imageFail image (2 * 4096) clean staged) = 0) := by
  refine ⟨by decide +kernel, by decide +kernel, ?_⟩
  dsimp only
  rw [if_neg (by decide +kernel)]
  unfold imageFail
  rw [h]
  decide +kernel

/-- O52: a state whose queue is empty. -/
theorem test_hypotheses_idle : State.reset.pending = [] := rfl

/-- O53: a row of the register index. -/
theorem test_hypotheses_reset_row : (regRowAt (Reg.BEN_CTL 1175)).isSome = true ∧ (regRowAt Reg.KLN_CTL).isSome = true := by decide +kernel

/-- O54 and O55: a step from a canonical state answers a next state, with a command waiting and with none. -/
theorem test_hypotheses_step_keeps :
    State.reset.canonical = true ∧ (∃ t, step State.reset = .next t) ∧ State.reset.dev ≤ 8 ∧
      { up with pending := [.getbcr] }.canonical = true ∧ ∃ t, step { up with pending := [.getbcr] } = .next t := by
  refine ⟨by decide +kernel, ⟨_, rfl⟩, by decide +kernel, by decide +kernel, ⟨_, rfl⟩⟩

/-- O56: a well-formed command, a command that is a fault, and a bench that is not there. -/
theorem test_hypotheses_well_formed_commands :
    (Instr.pass 1175 1).wellFormed = true ∧ exec (.pass 1176 0) State.reset = .fault .noSuchBench ∧ 1176 ≤ 1176 :=
  ⟨by decide +kernel, rfl, by decide⟩

/-- O57, clauses 1 and 2: a value for each field of a form, and a word that decodes. -/
theorem test_hypotheses_slasal_words :
    [0, 15].length = [(⟨52, 4⟩ : Fld), ⟨43, 9⟩].length ∧ slDecode (slWord 0xF1 [(⟨0, 16⟩, 7)]) = some .trap := by decide +kernel

end Sys2Proof.Tests
end

section
/-!
The register file (O51): what an access does once it reaches its register, by size, alignment and offset; the registers
whose fields are all plain; and the two registers with a rule of their own, ERR_HEAD and GLB_BAD_FIRST.
-/
namespace Sys2Proof.Machine

/-! ## Reading and writing apart from what an operation touches -/

theorem rd_of_regs {s t : State} (k : Nat) (h : t.regs = s.regs) : rd k t = rd k s := by unfold rd; rw [h]

theorem tb_of_tabs {s t : State} (k : Nat) (h : t.tabs = s.tabs) : tb k t = tb k s := by unfold tb; rw [h]

/-- The sideband's arrival writes the two registers of its own transfers only. -/
theorem rd_arrived (src : Src) (s : State) {k : Nat} (hx : k ≠ Reg.MGT_SB_XFERS) (hl : k ≠ Reg.MGT_SB_STATUS) :
    rd k (arrived src s) = rd k s := by
  cases src with
  | host => rfl
  | sideband => exact (rd_wrF_other _ _ _ hl).trans (rd_bump_other s hx)

@[simp] theorem arrived_errPending (src : Src) (s : State) : (arrived src s).errPending = s.errPending := by cases src <;> rfl

/-- The parts of the state that decide whether a step has something to settle. -/
theorem Quiet.of_frame {s t : State} (h : Quiet s) (hw : t.work = s.work) (hc : t.col = s.col) : Quiet t :=
  ⟨hw.trans h.1, hc.trans h.2⟩

theorem Quiet.wr {s : State} (h : Quiet s) (k : Nat) (v : Word) : Quiet (wr k v s) := h.of_frame rfl rfl

/-! ## Bad accesses and replies (R6, R523) -/

section
variable (src : Src) (kind off : Nat) (s : State)
@[simp] theorem badAccess_work : (badAccess src kind off s).work = s.work := by unfold badAccess; dsimp only; split <;> rfl
@[simp] theorem badAccess_col : (badAccess src kind off s).col = s.col := by unfold badAccess; dsimp only; split <;> rfl

/-- A bad access counts. -/
theorem rd_badAccess_count : rd Reg.GLB_BAD_ACCESS (badAccess src kind off s) = rd Reg.GLB_BAD_ACCESS s + 1 := by
  unfold badAccess
  dsimp only
  split
  · exact rd_bump_same s _
  · exact (rd_wr_other _ _ (by decide)).trans (rd_bump_same s _)

/-- A bad access writes its counter and GLB_BAD_FIRST only. -/
theorem rd_badAccess_other {k : Nat} (hc : k ≠ Reg.GLB_BAD_ACCESS) (hf : k ≠ Reg.GLB_BAD_FIRST) :
    rd k (badAccess src kind off s) = rd k s := by
  unfold badAccess
  dsimp only
  split
  · exact rd_bump_other s hc
  · exact (rd_wr_other _ _ hf).trans (rd_bump_other s hc)
end

theorem Quiet.badAccess {s : State} (h : Quiet s) (src : Src) (kind off : Nat) : Quiet (badAccess src kind off s) :=
  h.of_frame (badAccess_work ..) (badAccess_col ..)

theorem Quiet.plainWrite {s : State} (h : Quiet s) (r : RegRow) (off : Nat) (v : Word) : Quiet (plainWrite r off v s) := h.wr _ _

theorem Quiet.reply {s : State} (h : Quiet s) (src : Src) (v : Word) : Quiet (reply src v s) := by
  cases src <;> exact h.of_frame rfl rfl

theorem Quiet.sbFail {s : State} (h : Quiet s) (x : Nat) : Quiet (sbFail x s) := h.of_frame rfl rfl

/-- What an access of a bad size, alignment or offset does: it counts, and a read returns 0. -/
def badEffect (src : Src) (a : Access) (kind off : Nat) (s : State) : State :=
  match a with
  | .read => reply src 0 (badAccess src kind off s)
  | .write _ => badAccess src kind off s

theorem Quiet.badEffect {s : State} (h : Quiet s) (src : Src) (a : Access) (kind off : Nat) :
    Quiet (badEffect src a kind off s) := by
  cases a with
  | read => exact (h.badAccess src kind off).reply src 0
  | write _ => exact h.badAccess src kind off

/-! ## Accesses by size, alignment and offset (R6, R8) -/

/-- The command of an access of `size` bytes, which REGISTER_READ, REGISTER_WRITE and the sideband's REG_READ and REG_WRITE
share. -/
def sizedRow (off size : Nat) (a : Access) (src : Src) (s : State) : Host.Outcome State Fault Refusal :=
  .next (settleAll (sizedAccess src off size a s))

theorem exec_registerRead (off size : Nat) (src : Src) (s : State) :
    exec (.registerRead off size src) s = sizedRow off size .read src s := rfl

theorem exec_registerWrite (off size : Nat) (v : Word) (src : Src) (s : State) :
    exec (.registerWrite off size v src) s = sizedRow off size (.write v) src s := rfl

theorem exec_regRead (off : Nat) (s : State) : exec (.regRead off) s = sizedRow off 8 .read .sideband s := rfl

theorem exec_regWrite (off : Nat) (v : Word) (s : State) : exec (.regWrite off v) s = sizedRow off 8 (.write v) .sideband s := rfl

theorem exec_errHeadWrite (v : Word) (src : Src) (s : State) :
    exec (.errHeadWrite v src) s = regRow Reg.ERR_HEAD (.write v) src s := rfl

theorem exec_glbBadFirstClear (v : Word) (src : Src) (s : State) :
    exec (.glbBadFirstClear v src) s = regRow Reg.GLB_BAD_FIRST (.write (withBit Fld.GLB_BAD_FIRST_VALID v)) src s := rfl

section
variable {src : Src} {off size : Nat} {a : Access} {s : State}

/-- A narrow access that reaches its register is bad. -/
theorem sizedRow_narrow (q : Quiet s) (h : Reaches src off a s) (hs : size ≠ 8) :
    sizedRow off size a src s = .next (badEffect src a 0 off (arrived src s)) := by
  have e : sizedAccess src off size a s = badEffect src a 0 off (arrived src s) := by
    rw [sizedAccess, access_reaches _ h, if_pos hs]
    cases a <;> rfl
  rw [sizedRow, e, settleAll_quiet _ ((q.arrived src).badEffect ..)]

/-- An unaligned access of 64 bits that reaches its register is bad. -/
theorem sizedRow_unaligned (q : Quiet s) (h : Reaches src off a s) (ha : ¬ off % 8 = 0) :
    sizedRow off 8 a src s = .next (badEffect src a 1 off (arrived src s)) := by
  have e : sizedAccess src off 8 a s = badEffect src a 1 off (arrived src s) := by
    rw [sizedAccess, access_reaches _ h, if_neg (by decide), if_pos ha]
    cases a <;> rfl
  rw [sizedRow, e, settleAll_quiet _ ((q.arrived src).badEffect ..)]

/-- An aligned access of 64 bits that is not shut out does what the bus does at its offset. -/
theorem sizedRow_aligned (h : Reaches src off a s) (ha : off % 8 = 0) :
    sizedRow off 8 a src s = .next (settleAll (busAccess src off a (arrived src s))) := by
  rw [sizedRow, sizedAccess, access_reaches _ h, if_neg (by decide), if_neg (by simpa using ha)]

theorem busAccess_undefined (hr : regRowAt off = none) (he : errWindow off = false) :
    busAccess src off a s = badEffect src a 2 off s := by
  cases a <;> simp [busAccess, busRead, busWrite, hr, he, badEffect]

/-- An access at an undefined offset is bad. -/
theorem sizedRow_undefined (q : Quiet s) (h : Reaches src off a s) (ha : off % 8 = 0)
    (hu : regRowAt off = none ∧ errWindow off = false) :
    sizedRow off 8 a src s = .next (badEffect src a 2 off (arrived src s)) := by
  rw [sizedRow_aligned h ha, busAccess_undefined hu.1 hu.2, settleAll_quiet _ ((q.arrived src).badEffect ..)]

theorem busRead_at {r : RegRow} (src : Src) (s : State) (h : regRowAt off = some r) :
    busAccess src off .read s = regRead src r off s := by
  simp [busAccess, busRead, h]

/-- An aligned read reaches the register of its offset. -/
theorem sizedRow_read {r : RegRow} (h : Reaches src off .read s) (ha : off % 8 = 0) (hr : regRowAt off = some r) :
    sizedRow off 8 .read src s = .next (settleAll (regRead src r off (arrived src s))) := by
  rw [sizedRow_aligned h ha, busRead_at _ _ hr]

/-- An aligned write reaches the register of its offset. -/
theorem sizedRow_write {r : RegRow} {v : Word} (h : Reaches src off (.write v) s) (ha : off % 8 = 0)
    (hr : regRowAt off = some r) :
    sizedRow off 8 (.write v) src s = .next (settleAll (regWrite src r off v (arrived src s))) := by
  rw [sizedRow_aligned h ha, busWrite_at _ _ _ hr]

/-- An aligned read in the window of the ERR ring returns the ring's word (R527). -/
theorem sizedRow_read_errWindow (q : Quiet s) (h : Reaches src off .read s) (ha : off % 8 = 0) (hr : regRowAt off = none)
    (he : errWindow off = true) : sizedRow off 8 .read src s =
      .next (reply src (tb (Tab.ERR ((off - 0x3C10000) / 8)) (arrived src s)) (arrived src s)) := by
  have e : busAccess src off .read (arrived src s) =
      reply src (tb (Tab.ERR ((off - 0x3C10000) / 8)) (arrived src s)) (arrived src s) := by
    simp [busAccess, busRead, hr, he]
  rw [sizedRow_aligned h ha, e, settleAll_quiet _ ((q.arrived src).reply ..)]

/-- The sideband target refuses an access that it may not do (R484). -/
theorem sizedRow_sideband_shut (q : Quiet s) (hd : sbAddressed s = true)
    (hs : sbReaches a off (bump Reg.MGT_SB_XFERS s) = false) :
    sizedRow off size a .sideband s = .next (sbFail 1 (bump Reg.MGT_SB_XFERS s)) := by
  have e : sizedAccess .sideband off size a s = sbFail 1 (bump Reg.MGT_SB_XFERS s) := by
    simp [sizedAccess, access, hd, hs]
  rw [sizedRow, e, settleAll_quiet _ (Quiet.sbFail (s := bump Reg.MGT_SB_XFERS s) (q.wr _ _) 1)]
end

/-! ## Registers whose fields are all plain (R8) -/

/-- The registers without a rule of their own, each with its row of the register index. -/
def plainRows : List (Nat × RegRow) :=
  [(Reg.GLB_HIF_CTL, ⟨0x0001010, 0, 1, 0x1, 0, 0, 0, 0, 0⟩),
   (Reg.JIG_IMG, ⟨0x0100010, 0, 1, 0x1fffffffffff, 0, 0, 0, 0, 0⟩),
   (Reg.JIG_GLUE_SRC, ⟨0x0100020, 0, 1, 0xfffffff, 0, 0, 0, 0, 0⟩),
   (Reg.JIG_GLUE_CFG, ⟨0x0100038, 0, 1, 0xffffffff00000000, 0, 0, 0, 0, 0x6400c800000000⟩),
   (Reg.TIR_RECOVER_CTL, ⟨0x0800028, 0, 1, 0xffff, 0, 0, 0, 0, 0x3e8⟩),
   (Reg.COL_CFG, ⟨0x1800038, 0, 1, 0xffffffff00000000, 0, 0, 0, 0, 0x3e8000000000000⟩),
   (Reg.FAB_V2_KEY, ⟨0x1100038, 0, 1, 0xffffffff, 0, 0, 0, 0, 0⟩)] ++
  (upto 4).map (fun i => (Reg.SEC_OWNER_STAGE i, ⟨0x3000038, 0x8, 4, 0xffffffffffffffff, 0, 0, 0, 0, 0⟩)) ++
  [(Reg.SEC_OWNER_SIGTILE, ⟨0x3000058, 0, 1, 0xfffffff, 0, 0, 0, 0, 0⟩),
   (Reg.MGT_IBI_MASK, ⟨0x3800018, 0, 1, 0xe0, 0, 0, 0, 0, 0xe0⟩),
   (Reg.ERR_CTL, ⟨0x3C00000, 0, 1, 0x1, 0, 0, 0, 0, 0⟩)]

/-- The offsets of these registers. -/
def plainRegs : List Nat := plainRows.map Prod.fst

/-- The row `r` of a register at `off` that has no field but plain ones, and no rule for a write or a read of it. -/
structure PlainRow (off : Nat) (r : RegRow) : Prop where
  row : regRowAt off = some r
  aligned : off % 8 = 0
  w1c : r.w1c = 0
  ro : r.ro = 0
  write : ∀ src v s, regWrite src r off v s = plainWrite r off v s
  read : ∀ src s, regRead src r off s = reply src (rd off s &&& (rwMask r ||| r.w1c ||| r.ro)) s

theorem plainRows_at : ∀ p ∈ plainRows, regRowAt p.1 = some p.2 := by decide +kernel

/-- Each of these registers is plain: its block's tests of the offset all fail. -/
theorem plainRows_plain : ∀ p ∈ plainRows, PlainRow p.1 p.2 := by
  intro p hp
  have hrow := plainRows_at p hp
  simp only [plainRows, upto, List.range, List.range.loop, List.map, List.cons_append, List.nil_append, List.mem_cons,
    List.not_mem_nil, or_false] at hp
  rcases hp with rfl | rfl | rfl | rfl | rfl | rfl | rfl | rfl | rfl | rfl | rfl | rfl | rfl | rfl <;>
    exact ⟨hrow, rfl, rfl, rfl, fun _ _ _ => rfl, fun _ _ => rfl⟩

theorem plainRow_of_mem {off : Nat} (h : off ∈ plainRegs) : ∃ r, PlainRow off r := by
  obtain ⟨p, hp, rfl⟩ := List.mem_map.1 h
  exact ⟨p.2, plainRows_plain p hp⟩

/-- Bits under a mask that were replaced by those of `v` read as `v`'s. -/
theorem masked_replace (w v m : Word) : (((w &&& ~~~m) ||| (v &&& m)) &&& ~~~(v &&& 0)) &&& m = v &&& m := by
  rw [show ~~~(v &&& 0) = BitVec.allOnes 64 by simp, BitVec.and_allOnes]
  ext i
  cases h : m[i] <;> simp [h]

theorem rd_plainWrite_masked {off : Nat} {r : RegRow} (h : PlainRow off r) (v : Word) (s : State) :
    rd off (plainWrite r off v s) &&& rwMask r = v &&& rwMask r := by
  rw [plainWrite, rd_wr_same, h.w1c, masked_replace]

theorem regRead_plain {off : Nat} {r : RegRow} (h : PlainRow off r) (src : Src) (s : State) :
    regRead src r off s = reply src (rd off s &&& rwMask r) s := by
  simp [h.read, h.w1c, h.ro]

section
variable {src : Src} {off : Nat} {s : State}

/-- A plain register reads back its stored bits. -/
theorem sizedRow_read_plain (q : Quiet s) (hm : off ∈ plainRegs) (h : Reaches src off .read s) : sizedRow off 8 .read src s =
    .next (reply src (rd off (arrived src s) &&& ((regRowAt off).map rwMask).getD 0) (arrived src s)) := by
  obtain ⟨r, hr⟩ := plainRow_of_mem hm
  rw [sizedRow_read h hr.aligned hr.row, regRead_plain hr, settleAll_quiet _ ((q.arrived src).reply ..), hr.row]
  rfl

/-- A plain register takes the written bits under its mask, and nothing else changes. -/
theorem sizedRow_write_plain {v : Word} (q : Quiet s) (hm : off ∈ plainRegs) (h : Reaches src off (.write v) s) :
    ∃ t m, sizedRow off 8 (.write v) src s = .next t ∧ (regRowAt off).map rwMask = some m ∧ rd off t &&& m = v &&& m ∧
      (∀ x, x ≠ off → rd x t = rd x (arrived src s)) ∧ t.tabs = s.tabs := by
  obtain ⟨r, hr⟩ := plainRow_of_mem hm
  refine ⟨plainWrite r off v (arrived src s), rwMask r, ?_, by rw [hr.row]; rfl, rd_plainWrite_masked hr v _,
    fun x hx => rd_wr_other _ _ hx, arrived_tabs src s⟩
  rw [sizedRow_write h hr.aligned hr.row, hr.write, settleAll_quiet _ ((q.arrived src).plainWrite ..)]
end

/-! ## Error records: what making one leaves as it was (R525, R527) -/

section
variable (n : Nat) (s : State)
@[simp] theorem msixRaise_regs : (msixRaise n s).regs = s.regs := by unfold msixRaise; split <;> [rfl; (split <;> rfl)]
@[simp] theorem msixRaise_tabs : (msixRaise n s).tabs = s.tabs := by unfold msixRaise; split <;> [rfl; (split <;> rfl)]
@[simp] theorem msixRaise_work : (msixRaise n s).work = s.work := by unfold msixRaise; split <;> [rfl; (split <;> rfl)]
@[simp] theorem msixRaise_col : (msixRaise n s).col = s.col := by unfold msixRaise; split <;> [rfl; (split <;> rfl)]
@[simp] theorem msixRaise_errPending : (msixRaise n s).errPending = s.errPending := by
  unfold msixRaise; split <;> [rfl; (split <;> rfl)]
@[simp] theorem ibiEvent_regs : (ibiEvent n s).regs = s.regs := by unfold ibiEvent; split <;> rfl
@[simp] theorem ibiEvent_tabs : (ibiEvent n s).tabs = s.tabs := by unfold ibiEvent; split <;> rfl
@[simp] theorem ibiEvent_work : (ibiEvent n s).work = s.work := by unfold ibiEvent; split <;> rfl
@[simp] theorem ibiEvent_col : (ibiEvent n s).col = s.col := by unfold ibiEvent; split <;> rfl
@[simp] theorem ibiEvent_errPending : (ibiEvent n s).errPending = s.errPending := by unfold ibiEvent; split <;> rfl
end

/-- The words of the ring have consecutive keys. -/
theorem Tab.ERR_add (k i : Nat) : Tab.ERR (k + i) = Tab.ERR k + i := (Nat.add_assoc ..).symm

/-- Storing words in a table changes the tables only. -/
theorem tbWs_eq_tabs (ws : List Word) (k : Nat) (s : State) : tbWs k ws s = { s with tabs := (tbWs k ws s).tabs } := by
  induction ws generalizing k s with
  | nil => rfl
  | cons w ws ih => rw [tbWs, ih]; rfl

/-- A word below the first one that is stored stays. -/
theorem tb_tbWs_below (ws : List Word) {k j : Nat} (s : State) (h : j < k) : tb j (tbWs k ws s) = tb j s := by
  induction ws generalizing k s with
  | nil => rfl
  | cons w ws ih => rw [tbWs, ih _ (by omega), tb_tbW_other _ _ (by omega)]

/-- The words that are stored read back in order. -/
theorem tb_tbWs (ws : List Word) (k i : Nat) (s : State) (h : i < ws.length) : tb (k + i) (tbWs k ws s) = ws[i] := by
  induction ws generalizing k i s with
  | nil => simp at h
  | cons w ws ih =>
    cases i with
    | zero => rw [tbWs, tb_tbWs_below _ _ (by omega), Nat.add_zero, tb_tbW_same]; rfl
    | succ i => rw [tbWs, show k + (i + 1) = k + 1 + i by omega, ih _ _ _ (by simpa using h)]; rfl

section
variable (code kind index : Nat) (ctx : Option Nat) (ds : List Word) (dev cycle step : Nat) (s : State)

/-- The record's words stored, TAIL and the count of records moved on; the interrupts are left out. -/
def errStored : State :=
  let tail := rdF Reg.ERR_STATE Fld.ERR_STATE_TAIL s
  bump Reg.ERR_WRITTEN (wrF Reg.ERR_STATE Fld.ERR_STATE_TAIL (tail + 1)
    (tbWs (Tab.ERR (tail % 4096 * 8)) (errWords tail code kind index ctx ds dev cycle step) s))

/-- A record raises interrupts beside storing its words. -/
theorem errPut_frame : let t := errPut code kind index ctx ds dev cycle step s
    let u := errStored code kind index ctx ds dev cycle step s
    t.regs = u.regs ∧ t.tabs = u.tabs ∧ t.work = u.work ∧ t.col = u.col ∧ t.errPending = u.errPending := by
  unfold errPut
  dsimp only
  split <;> simp [errStored]

theorem errPut_work : (errPut code kind index ctx ds dev cycle step s).work = s.work := by
  obtain ⟨-, -, hw, -, -⟩ := errPut_frame code kind index ctx ds dev cycle step s
  rw [hw, errStored, tbWs_eq_tabs]; rfl

theorem errPut_col : (errPut code kind index ctx ds dev cycle step s).col = s.col := by
  obtain ⟨-, -, -, hc, -⟩ := errPut_frame code kind index ctx ds dev cycle step s
  rw [hc, errStored, tbWs_eq_tabs]; rfl

theorem errPut_errPending : (errPut code kind index ctx ds dev cycle step s).errPending = s.errPending := by
  obtain ⟨-, -, -, -, hp⟩ := errPut_frame code kind index ctx ds dev cycle step s
  rw [hp, errStored, tbWs_eq_tabs]; rfl

/-- A record moves TAIL on by one, and HEAD stays. -/
theorem rd_errPut_state : rd Reg.ERR_STATE (errPut code kind index ctx ds dev cycle step s) =
    setF Fld.ERR_STATE_TAIL (rd Reg.ERR_STATE s) (rdF Reg.ERR_STATE Fld.ERR_STATE_TAIL s + 1) := by
  obtain ⟨hr, -, -, -, -⟩ := errPut_frame code kind index ctx ds dev cycle step s
  rw [rd_of_regs _ hr, errStored, rd_bump_other _ (by decide), rd_wrF_same, tbWs_eq_tabs]
  rfl

/-- The words of a record lie in the ring at TAIL. -/
theorem tb_errPut (i : Nat)
    (h : i < (errWords (rdF Reg.ERR_STATE Fld.ERR_STATE_TAIL s) code kind index ctx ds dev cycle step).length) :
    tb (Tab.ERR (rdF Reg.ERR_STATE Fld.ERR_STATE_TAIL s % 4096 * 8 + i)) (errPut code kind index ctx ds dev cycle step s) =
      (errWords (rdF Reg.ERR_STATE Fld.ERR_STATE_TAIL s) code kind index ctx ds dev cycle step)[i] := by
  obtain ⟨-, ht, -, -, -⟩ := errPut_frame code kind index ctx ds dev cycle step s
  have e := tb_tbWs _ (Tab.ERR (rdF Reg.ERR_STATE Fld.ERR_STATE_TAIL s % 4096 * 8)) i s h
  rw [tb_of_tabs _ ht, errStored, tb_bump, tb_wrF, ← e, Tab.ERR_add]
end

/-- An event makes its record where the device is past OFF, its clock runs and the ring has room (R529). -/
theorem log_room (code kind index : Nat) (ctx : Option Nat) (ds : List Word) {s : State} (hd : 2 ≤ s.dev) (hc : dead s = false)
    (hf : errFull s = false) : log code kind index ctx ds s =
      errPut code kind index ctx ds s.dev s.cycle (rdF Reg.BPM_STEP_STATUS Fld.BPM_STEP_STATUS_STEP s) s := by
  simp [log, logAt, hc, hf, Nat.not_lt.2 hd]

theorem errFull_of_state {s t : State} (h : rd Reg.ERR_STATE t = rd Reg.ERR_STATE s) : errFull t = errFull s := by
  simp [errFull, rdF, h]

/-! ## ERR_HEAD (R528, R529) -/

/-- Whether a HEAD lies within what is written: between the present HEAD and TAIL, modulo 2^32. -/
def headMoves (h : Nat) (s : State) : Prop :=
  let head := rdF Reg.ERR_STATE Fld.ERR_STATE_HEAD s
  (h + 2 ^ 32 - head) % 2 ^ 32 ≤ (rdF Reg.ERR_STATE Fld.ERR_STATE_TAIL s + 2 ^ 32 - head) % 2 ^ 32

/-- The state with HEAD at `h`. -/
def headMoved (h : Nat) (s : State) : State :=
  wrF Reg.ERR_STATE Fld.ERR_STATE_HEAD h (wr Reg.ERR_HEAD (w64 h) { s with v16Sent := false })

theorem rd_headMoved_state (h : Nat) (s : State) :
    rd Reg.ERR_STATE (headMoved h s) = setF Fld.ERR_STATE_HEAD (rd Reg.ERR_STATE s) h := by
  rw [headMoved, rd_wrF_same, rd_wr_other _ _ (by decide)]
  rfl

theorem rdF_headMoved_head (h : Nat) (s : State) : rdF Reg.ERR_STATE Fld.ERR_STATE_HEAD (headMoved h s) = h % 2 ^ 32 := by
  rw [rdF, rd_headMoved_state, getF_setF_same _ _ _ (by decide)]

theorem rdF_headMoved_tail (h : Nat) (s : State) :
    rdF Reg.ERR_STATE Fld.ERR_STATE_TAIL (headMoved h s) = rdF Reg.ERR_STATE Fld.ERR_STATE_TAIL s := by
  rw [rdF, rd_headMoved_state, getF_setF_other _ _ _ _ (by decide) (by decide)]
  rfl

/-- A HEAD outside what is written is refused. -/
theorem errHeadWrite_refused {v : Word} (src : Src) {s : State} (h : ¬ headMoves (v.toNat % 2 ^ 32) s) :
    errHeadWrite v src s = refuse src Reg.ERR_HEAD { s with v16Sent := false } := if_neg h

/-- HEAD moves, with no record lost before. -/
theorem errHeadWrite_moves {v : Word} (src : Src) {s : State} (h : headMoves (v.toNat % 2 ^ 32) s) (hp : s.errPending = 0) :
    errHeadWrite v src s = headMoved (v.toNat % 2 ^ 32) s :=
  (if_pos h).trans (if_neg fun k => k.1 hp)

/-- HEAD moves and makes room: one record tells how many were lost (R529). -/
theorem errHeadWrite_tells_lost {v : Word} (src : Src) {s : State} (h : headMoves (v.toNat % 2 ^ 32) s) (hp : s.errPending ≠ 0)
    (hf : errFull (headMoved (v.toNat % 2 ^ 32) s) = false) : errHeadWrite v src s =
      log 0x0E01 kNone 0 none [w64 s.errPending] { headMoved (v.toNat % 2 ^ 32) s with errPending := 0 } :=
  (if_pos h).trans (if_pos ⟨hp, hf⟩)

/-- A write of ERR_HEAD over the bus. -/
theorem busAccess_errHead (src : Src) (v : Word) (s : State) :
    busAccess src Reg.ERR_HEAD (.write v) s = errHeadWrite v src s := by
  have hr : regRowAt Reg.ERR_HEAD = some ⟨0x3C00010, 0, 1, 0, 0xffffffff, 0, 0, 0, 0⟩ := by decide +kernel
  rw [busWrite_at src v s hr]
  simp [regWrite, secWrite, Reg.ERR_HEAD, Reg.SEC_FUSE_CTL, Reg.MGT_TRAY]

section
variable {v : Word} {src : Src} {s : State}

theorem exec_errHeadWrite_moves (q : Quiet s) (h : Reaches src Reg.ERR_HEAD (.write v) s)
    (hm : headMoves (v.toNat % 2 ^ 32) (arrived src s)) (hp : s.errPending = 0) :
    exec (.errHeadWrite v src) s = .next (headMoved (v.toNat % 2 ^ 32) (arrived src s)) :=
  regRow_reaches h ((busAccess_errHead ..).trans (errHeadWrite_moves src hm ((arrived_errPending src s).trans hp)))
    ((q.arrived src).of_frame rfl rfl)

theorem exec_errHeadWrite_refused (q : Quiet s) (h : Reaches src Reg.ERR_HEAD (.write v) s)
    (hm : ¬ headMoves (v.toNat % 2 ^ 32) (arrived src s)) :
    exec (.errHeadWrite v src) s = .next (refuse src Reg.ERR_HEAD { arrived src s with v16Sent := false }) :=
  regRow_reaches h ((busAccess_errHead ..).trans (errHeadWrite_refused src hm))
    (((q.arrived src).of_frame (t := { arrived src s with v16Sent := false }) rfl rfl).badAccess ..)

/-- The state in which the record of lost records is made. -/
def lostTold (h : Nat) (s : State) : State := { headMoved h s with errPending := 0 }

theorem exec_errHeadWrite_tells_lost (q : Quiet s) (h : Reaches src Reg.ERR_HEAD (.write v) s)
    (hm : headMoves (v.toNat % 2 ^ 32) (arrived src s)) (hp : s.errPending ≠ 0)
    (hf : errFull (wrF Reg.ERR_STATE Fld.ERR_STATE_HEAD (v.toNat % 2 ^ 32) (arrived src s)) = false) (hd : 2 ≤ s.dev)
    (hc : dead s = false) :
    let t := lostTold (v.toNat % 2 ^ 32) (arrived src s)
    exec (.errHeadWrite v src) s = .next (errPut 0x0E01 kNone 0 none [w64 s.errPending] t.dev t.cycle
      (rdF Reg.BPM_STEP_STATUS Fld.BPM_STEP_STATUS_STEP t) t) := by
  intro t
  have hf' : errFull (headMoved (v.toNat % 2 ^ 32) (arrived src s)) = false := by
    rw [← hf]
    exact errFull_of_state ((rd_headMoved_state ..).trans (rd_wrF_same ..).symm)
  have hd' : 2 ≤ t.dev := hd.trans_eq (arrived_dev src s).symm
  have hc' : dead t = false := by
    have e : t.dev = s.dev ∧ t.power = s.power := ⟨arrived_dev src s, arrived_power src s⟩
    rwa [dead, e.1, e.2]
  have e := errHeadWrite_tells_lost src hm (by rwa [arrived_errPending]) hf'
  rw [arrived_errPending] at e
  refine regRow_reaches h ((busAccess_errHead ..).trans (e.trans (log_room _ _ _ _ _ hd' hc' hf'))) ?_
  exact (q.arrived src).of_frame (errPut_work ..) (errPut_col ..)
end

/-! ## GLB_BAD_FIRST (R523) -/

/-- A word that has a field's bits set has that field not 0. -/
theorem bitF_withBit {f : Fld} (v : Word) (hw : 0 < f.width) (hf : f.lo + f.width ≤ 64) : bitF f (withBit f v) = true := by
  have hbit : (getF f (withBit f v)).testBit 0 = true := by
    rw [getF_testBit, withBit, BitVec.toNat_or, Nat.testBit_or, maskF_testBit _ _ (by omega)]
    simp [hw]
  rw [bitF, bne_iff_ne]
  intro h0
  simp [h0] at hbit

/-- A write of GLB_BAD_FIRST over the bus. -/
theorem busAccess_badFirst (src : Src) (v : Word) (s : State) :
    busAccess src Reg.GLB_BAD_FIRST (.write v) s = badFirstWrite v s := by
  have hr : regRowAt Reg.GLB_BAD_FIRST = some ⟨0x00000A8, 0, 1, 0, 0, 0x8000000000000000, 0x7000000003ffffff, 0, 0⟩ := by
    decide +kernel
  rw [busWrite_at src v s hr]
  simp [regWrite, glbWrite, Reg.GLB_BAD_FIRST, Reg.GLB_STATE_CTL, Reg.GLB_RESET_CTL, Reg.GLB_SUPPLY, Reg.GLB_WARM_RESETS]

/-- 1 in VALID clears the whole register. -/
theorem exec_glbBadFirstClear_next {v : Word} {src : Src} {s : State} (q : Quiet s)
    (h : Reaches src Reg.GLB_BAD_FIRST (.write (withBit Fld.GLB_BAD_FIRST_VALID v)) s) :
    exec (.glbBadFirstClear v src) s = .next (wr Reg.GLB_BAD_FIRST 0 (arrived src s)) := by
  have e : badFirstWrite (withBit Fld.GLB_BAD_FIRST_VALID v) (arrived src s) = wr Reg.GLB_BAD_FIRST 0 (arrived src s) :=
    if_pos (bitF_withBit v (by decide) (by decide))
  exact regRow_reaches h ((busAccess_badFirst ..).trans e) ((q.arrived src).wr _ _)

end Sys2Proof.Machine

namespace Sys2Proof.Proofs
open Sys2Proof Sys2Proof.Machine

/-- Settles O51: each clause is the lemma on its kind of access; the sideband's commands are the sized ones of eight bytes. -/
theorem registerAccessesComplete : Obligations.RegisterAccessesComplete := by
  intro off size r v src s q
  refine ⟨fun h => sizedRow_narrow q h, fun h => sizedRow_unaligned q h, fun h => sizedRow_undefined q h,
    fun h => sizedRow_read h, fun h => sizedRow_read_errWindow q h, fun h hm => sizedRow_read_plain q hm h,
    fun h => sizedRow_narrow q h, fun h => sizedRow_unaligned q h, fun h => sizedRow_undefined q h,
    fun h => sizedRow_write h, fun h hm => sizedRow_write_plain q hm h,
    fun h => sizedRow_unaligned q h, fun h => sizedRow_undefined q h, fun h => sizedRow_read h,
    fun h hm => sizedRow_read_plain q hm h, fun h => sizedRow_write h, ?sidebandPlain,
    sizedRow_sideband_shut q, sizedRow_sideband_shut q, ?headMoves, ?headRefused, ?lostTold,
    exec_glbBadFirstClear_next q⟩
  case sidebandPlain =>
    intro h hm
    obtain ⟨t, m, ht, hrow, hbits, hother, -⟩ := sizedRow_write_plain q hm h
    exact ⟨t, m, ht, hrow, hbits, hother⟩
  case headMoves =>
    intro h hm hp
    refine ⟨_, exec_errHeadWrite_moves q h hm hp, ?_, rdF_headMoved_tail .., rfl, arrived_tabs src s⟩
    rw [rdF_headMoved_head, Nat.mod_mod]
  case headRefused =>
    intro h hm
    refine ⟨_, exec_errHeadWrite_refused q h hm, ?_, ?_⟩
    · exact (rd_badAccess_other _ _ _ _ (by decide) (by decide)).trans (rd_arrived src s (by decide) (by decide))
    · exact (rd_badAccess_count ..).trans (congrArg (· + 1) (rd_arrived src s (by decide) (by decide)))
  case lostTold =>
    intro h hm hp hf hd hc
    have hhead : rdF Reg.ERR_STATE Fld.ERR_STATE_HEAD (lostTold (v.toNat % 2 ^ 32) (arrived src s)) = v.toNat % 2 ^ 32 :=
      (rdF_headMoved_head ..).trans (Nat.mod_mod ..)
    have htail : rdF Reg.ERR_STATE Fld.ERR_STATE_TAIL (lostTold (v.toNat % 2 ^ 32) (arrived src s)) =
        rdF Reg.ERR_STATE Fld.ERR_STATE_TAIL (arrived src s) := rdF_headMoved_tail ..
    refine ⟨_, exec_errHeadWrite_tells_lost q h hm hp hf hd hc, errPut_errPending .., ?_, ?_, ?_⟩
    · rw [rdF, rd_errPut_state, getF_setF_other _ _ _ _ (by decide) (by decide)]
      exact hhead
    · rw [rdF, rd_errPut_state, getF_setF_same _ _ _ (by decide), htail]
    · rw [← htail]
      exact tb_errPut _ _ _ _ _ _ _ _ _ 3 (by simp [errWords])

end Sys2Proof.Proofs
end

section
/-!
The words of the Slasal instructions (O57): fields put into a word and read back, the bits that name an instruction, and the
word that an instruction with its fields spells.
-/
namespace Sys2Proof.Machine

/-! ## Fields put into a word one after another -/

/-- Bit `i` belongs to a field. -/
def Fld.has (f : Fld) (i : Nat) : Bool := decide (f.lo ≤ i) && decide (i < f.lo + f.width)

/-- Two fields share no bit. -/
abbrev Fld.apart (f g : Fld) : Prop := f.lo + f.width ≤ g.lo ∨ g.lo + g.width ≤ f.lo

/-- The word with each field holding its value. -/
def putFields (w : Word) (ps : List (Fld × Nat)) : Word := ps.foldl (fun w p => setF p.1 w p.2) w

@[simp] theorem putFields_nil (w : Word) : putFields w [] = w := rfl

@[simp] theorem putFields_cons (w : Word) (p : Fld × Nat) (ps : List (Fld × Nat)) :
    putFields w (p :: ps) = putFields (setF p.1 w p.2) ps := rfl

/-- A bit in none of the fields stays. -/
theorem putFields_testBit_out {ps : List (Fld × Nat)} (w : Word) {i : Nat} (hi : i < 64) (h : ∀ p ∈ ps, p.1.has i = false) :
    (putFields w ps).toNat.testBit i = w.toNat.testBit i := by
  induction ps generalizing w with
  | nil => rfl
  | cons p ps ih =>
    have hp : ¬ (p.1.lo ≤ i ∧ i < p.1.lo + p.1.width) := by simpa [Fld.has] using h p (by simp)
    rw [putFields_cons, ih _ (fun x hx => h x (by simp [hx])), setF_testBit _ _ _ _ hi, if_neg hp]

/-- A field apart from all of them stays. -/
theorem getF_putFields_apart {ps : List (Fld × Nat)} (w : Word) {g : Fld} (hg : g.lo + g.width ≤ 64)
    (h : ∀ p ∈ ps, g.apart p.1) : getF g (putFields w ps) = getF g w := by
  induction ps generalizing w with
  | nil => rfl
  | cons p ps ih => rw [putFields_cons, ih _ (fun x hx => h x (by simp [hx])), getF_setF_other _ _ _ _ hg (h p (by simp))]

/-- Each of the fields reads back as it was put, where no two share a bit. -/
theorem getF_putFields_mem {ps : List (Fld × Nat)} (w : Word) (hw : ∀ p ∈ ps, p.1.lo + p.1.width ≤ 64)
    (ha : ps.Pairwise (fun p q => p.1.apart q.1)) : ∀ p ∈ ps, getF p.1 (putFields w ps) = p.2 % 2 ^ p.1.width := by
  induction ps generalizing w with
  | nil => simp
  | cons q ps ih =>
    obtain ⟨hq, ha⟩ := List.pairwise_cons.1 ha
    intro p hp
    rw [putFields_cons]
    rcases List.mem_cons.1 hp with rfl | hp
    · rw [getF_putFields_apart _ (hw p (by simp)) hq, getF_setF_same _ _ _ (hw p (by simp))]
    · exact ih _ (fun x hx => hw x (by simp [hx])) ha p hp

/-- Fields that share no bit, paired with values, still share none. -/
theorem zip_apart {fs : List Fld} {vs : List Nat} (h : fs.Pairwise Fld.apart) (hl : vs.length = fs.length) :
    (fs.zip vs).Pairwise (fun p q => p.1.apart q.1) := by
  have e : (fs.zip vs).map Prod.fst = fs := List.map_fst_zip hl.ge
  rwa [← e, List.pairwise_map] at h

/-! ## The bits that name an instruction (R45, R46) -/

/-- The fields that name an instruction, with what they hold: its opcode, and the variant of MOVE.I and MOVE.T. -/
def slFixed : Slasal → List (Fld × Nat)
  | .nop => [(⟨56, 8⟩, 0x01)]
  | .pass => [(⟨56, 8⟩, 0x10)]
  | .swap => [(⟨56, 8⟩, 0x11)]
  | .shave => [(⟨56, 8⟩, 0x20)]
  | .sand => [(⟨56, 8⟩, 0x28)]
  | .loadStile => [(⟨56, 8⟩, 0x30)]
  | .loadHold => [(⟨56, 8⟩, 0x31)]
  | .store => [(⟨56, 8⟩, 0x38)]
  | .moveISet => [(⟨56, 8⟩, 0x40), (⟨46, 2⟩, 0)]
  | .moveIAdd => [(⟨56, 8⟩, 0x40), (⟨46, 2⟩, 1)]
  | .moveIShl => [(⟨56, 8⟩, 0x40), (⟨46, 2⟩, 2)]
  | .moveIGet => [(⟨56, 8⟩, 0x40), (⟨46, 2⟩, 3)]
  | .moveTOut => [(⟨56, 8⟩, 0x41), (⟨42, 1⟩, 0)]
  | .moveTIn => [(⟨56, 8⟩, 0x41), (⟨42, 1⟩, 1)]
  | .send => [(⟨56, 8⟩, 0x50)]
  | .recv => [(⟨56, 8⟩, 0x51)]
  | .semWait => [(⟨56, 8⟩, 0x58)]
  | .semSignal => [(⟨56, 8⟩, 0x59)]
  | .sync => [(⟨56, 8⟩, 0x60)]
  | .loop => [(⟨56, 8⟩, 0x70)]
  | .branchEq => [(⟨56, 8⟩, 0x78)]
  | .branchNe => [(⟨56, 8⟩, 0x79)]
  | .branchLt => [(⟨56, 8⟩, 0x7A)]
  | .branchGe => [(⟨56, 8⟩, 0x7B)]
  | .branchLtu => [(⟨56, 8⟩, 0x7C)]
  | .branchGeu => [(⟨56, 8⟩, 0x7D)]
  | .branchAl => [(⟨56, 8⟩, 0x7E)]
  | .halt => [(⟨56, 8⟩, 0xF0)]
  | .trap => [(⟨56, 8⟩, 0xF1)]

theorem getF_lt (f : Fld) (w : Word) : getF f w < 2 ^ f.width := Nat.mod_lt _ (Nat.two_pow_pos _)

/-- The fields in which instructions are told apart. -/
def nameFlds : List Fld := [⟨56, 8⟩, ⟨46, 2⟩, ⟨42, 1⟩]

theorem slFixed_names (k : Slasal) : ∀ p ∈ slFixed k, p.1 ∈ nameFlds := by cases k <;> decide

theorem slFixed_inWord (k : Slasal) : ∀ p ∈ slFixed k, p.1.lo + p.1.width ≤ 64 := by cases k <;> decide

/-- The instruction that a word names depends on these fields alone. -/
theorem slOp_congr {w u : Word} (h : ∀ f ∈ nameFlds, getF f w = getF f u) : slOp w = slOp u := by
  unfold slOp slOpcode
  rw [h ⟨56, 8⟩ (by decide), h ⟨46, 2⟩ (by decide), h ⟨42, 1⟩ (by decide)]

/-- The word that holds an opcode and the two kinds of variant bits, and nothing else. -/
def nameWord (op v d : Nat) : Word := putFields 0 (nameFlds.zip [op, v, d])

/-- Each of the 2,048 ways to fill these fields names an instruction only where what names it stands in them. -/
theorem slOp_nameWord : ∀ op < 256, ∀ v < 4, ∀ d < 2, (slOp (nameWord op v d)).all (fun k =>
    (slFixed k).all (fun p => getF p.1 (nameWord op v d) == p.2)) = true := by decide +kernel

/-- An opcode with its variant names an instruction only where the bits that name it stand in the word. -/
theorem slOp_fixed {w : Word} {k : Slasal} (h : slOp w = some k) : ∀ p ∈ slFixed k, getF p.1 w = p.2 := by
  have hu : ∀ f ∈ nameFlds, getF f w = getF f (nameWord (getF ⟨56, 8⟩ w) (getF ⟨46, 2⟩ w) (getF ⟨42, 1⟩ w)) := by
    have hread := getF_putFields_mem 0 (ps := nameFlds.zip [getF ⟨56, 8⟩ w, getF ⟨46, 2⟩ w, getF ⟨42, 1⟩ w])
      (by simp [nameFlds]) (zip_apart (by decide) rfl)
    simp only [nameFlds, List.zip_cons_cons, List.zip_nil_right, List.forall_mem_cons, List.not_mem_nil, false_implies,
      implies_true, and_true] at hread ⊢
    obtain ⟨hop, hv, hd⟩ := hread
    exact ⟨(hop.trans (Nat.mod_mod ..)).symm, (hv.trans (Nat.mod_mod ..)).symm, (hd.trans (Nat.mod_mod ..)).symm⟩
  have hc := slOp_nameWord _ (getF_lt ⟨56, 8⟩ w) _ (getF_lt ⟨46, 2⟩ w) _ (getF_lt ⟨42, 1⟩ w)
  rw [← slOp_congr hu, h, Option.all_some, List.all_eq_true] at hc
  intro p hp
  rw [hu _ (slFixed_names k p hp)]
  exact beq_iff_eq.1 (hc p hp)

/-- A word in which the bits that name an instruction stand has that instruction's opcode and variant. -/
theorem slOp_of_fixed {w : Word} {k : Slasal} (h : ∀ p ∈ slFixed k, getF p.1 w = p.2) : slOp w = some k := by
  have one (f : Fld) (v : Nat) (e : ∀ p ∈ [(f, v)], getF p.1 w = p.2) : getF f w = v := by simpa using e
  cases k
  case moveISet | moveIAdd | moveIShl | moveIGet | moveTOut | moveTIn =>
    obtain ⟨e, h⟩ := List.forall_mem_cons.1 h
    have e : slOpcode w = _ := e
    simp only [slOp, e, one _ _ h]; rfl
  all_goals
    have e : slOpcode w = _ := one _ _ h
    simp only [slOp, e]; rfl

/-- A word names an instruction exactly where the bits that name it stand in it and its reserved bits are 0. -/
theorem slDecode_eq_some_iff {w : Word} {k : Slasal} : slDecode w = some k ↔
    (∀ p ∈ slFixed k, getF p.1 w = p.2) ∧ w &&& 0x00FFFFFFFFFFFFFF &&& ~~~(slUsed k) = 0 := by
  constructor
  · intro h
    unfold slDecode at h
    split at h
    · cases h
    · split_ifs at h with hr
      obtain rfl := Option.some.inj h
      exact ⟨slOp_fixed ‹_›, hr⟩
  · rintro ⟨hf, hr⟩
    simp only [slDecode, slOp_of_fixed hf, if_pos hr]

/-! ## The table of instructions (R45, R46): each with the word of its opcode and variant, and its fields -/

/-- An instruction, the word in which all its fields are 0, and its fields. -/
abbrev SlForm := Slasal × Nat × List Fld

/-- The word in which every field of a form is 0. -/
def SlForm.base (x : SlForm) : Word := BitVec.ofNat 64 x.2.1

/-- The word of an instruction with a value for each of its fields. -/
def SlForm.word (x : SlForm) (vs : List Nat) : Word := putFields x.base (x.2.2.zip vs)

/-- No field of the form takes bit `i`. -/
def SlForm.free (x : SlForm) (i : Nat) : Bool := x.2.2.all (fun f => !f.has i)

/-- The bits of an instruction that must be 0. -/
def slReserved (k : Slasal) : Word := 0x00FFFFFFFFFFFFFF &&& ~~~(slUsed k)

/-- The fields of the instructions that name a tile run, of MOVE.I, MOVE.T, SEND and RECV, SEM and BRANCH. -/
def fldsMem : List Fld := [⟨52, 4⟩, ⟨43, 9⟩]
def fldsMoveI : List Fld := [⟨52, 4⟩, ⟨48, 4⟩, ⟨0, 32⟩]
def fldsMoveT : List Fld := [⟨52, 4⟩, ⟨43, 9⟩, ⟨32, 10⟩, ⟨24, 8⟩, ⟨20, 4⟩]
def fldsMessage : List Fld := [⟨52, 4⟩, ⟨43, 9⟩, ⟨28, 12⟩, ⟨24, 4⟩, ⟨13, 11⟩]
def fldsSem : List Fld := [⟨52, 4⟩, ⟨40, 12⟩, ⟨32, 8⟩]
def fldsBranch : List Fld := [⟨52, 4⟩, ⟨48, 4⟩, ⟨47, 1⟩, ⟨31, 16⟩, ⟨0, 13⟩]

/-- The instructions of R45 with their fields of R46. -/
def slForms : List SlForm :=
  [(.nop, 0x01 * 2 ^ 56, []),
   (.pass, 0x10 * 2 ^ 56, [⟨50, 6⟩, ⟨44, 6⟩, ⟨40, 4⟩, ⟨39, 1⟩, ⟨35, 4⟩, ⟨26, 9⟩, ⟨22, 4⟩, ⟨12, 10⟩]),
   (.swap, 0x11 * 2 ^ 56, [⟨50, 6⟩]),
   (.shave, 0x20 * 2 ^ 56, [⟨44, 6⟩, ⟨40, 4⟩, ⟨39, 1⟩, ⟨35, 4⟩, ⟨26, 9⟩, ⟨22, 4⟩, ⟨10, 12⟩]),
   (.sand, 0x28 * 2 ^ 56, [⟨48, 8⟩, ⟨44, 4⟩, ⟨35, 9⟩, ⟨31, 4⟩, ⟨22, 9⟩, ⟨18, 4⟩, ⟨9, 9⟩, ⟨1, 8⟩]),
   (.loadStile, 0x30 * 2 ^ 56, fldsMem ++ [⟨41, 2⟩]), (.loadHold, 0x31 * 2 ^ 56, fldsMem ++ [⟨41, 2⟩]),
   (.store, 0x38 * 2 ^ 56, [⟨50, 6⟩, ⟨46, 4⟩, ⟨40, 6⟩, ⟨36, 4⟩, ⟨27, 9⟩, ⟨19, 8⟩, ⟨18, 1⟩]),
   (.moveISet, 0x40 * 2 ^ 56, fldsMoveI), (.moveIAdd, 0x40 * 2 ^ 56 + 1 * 2 ^ 46, fldsMoveI),
   (.moveIShl, 0x40 * 2 ^ 56 + 2 * 2 ^ 46, fldsMoveI), (.moveIGet, 0x40 * 2 ^ 56 + 3 * 2 ^ 46, fldsMoveI),
   (.moveTOut, 0x41 * 2 ^ 56, fldsMoveT), (.moveTIn, 0x41 * 2 ^ 56 + 2 ^ 42, fldsMoveT),
   (.send, 0x50 * 2 ^ 56, fldsMessage), (.recv, 0x51 * 2 ^ 56, fldsMessage),
   (.semWait, 0x58 * 2 ^ 56, fldsSem), (.semSignal, 0x59 * 2 ^ 56, fldsSem), (.sync, 0x60 * 2 ^ 56, [⟨48, 8⟩]),
   (.loop, 0x70 * 2 ^ 56, [⟨52, 4⟩, ⟨39, 13⟩, ⟨26, 13⟩, ⟨22, 4⟩, ⟨13, 9⟩, ⟨9, 4⟩, ⟨0, 9⟩]),
   (.branchEq, 0x78 * 2 ^ 56, fldsBranch), (.branchNe, 0x79 * 2 ^ 56, fldsBranch), (.branchLt, 0x7A * 2 ^ 56, fldsBranch),
   (.branchGe, 0x7B * 2 ^ 56, fldsBranch), (.branchLtu, 0x7C * 2 ^ 56, fldsBranch), (.branchGeu, 0x7D * 2 ^ 56, fldsBranch),
   (.branchAl, 0x7E * 2 ^ 56, fldsBranch), (.halt, 0xF0 * 2 ^ 56, []), (.trap, 0xF1 * 2 ^ 56, [⟨0, 16⟩])]

theorem slForms_all (k : Slasal) : ∃ x ∈ slForms, x.1 = k := by cases k <;> decide

/-- The fields of a form share no bit and lie in the word. -/
theorem slForms_apart : ∀ x ∈ slForms, x.2.2.Pairwise Fld.apart ∧ ∀ f ∈ x.2.2, f.lo + f.width ≤ 64 := by decide +kernel

/-- The bits that name the instruction stand in its base word, clear of its fields. -/
theorem slForms_fixed : ∀ x ∈ slForms, ∀ p ∈ slFixed x.1, getF p.1 x.base = p.2 ∧
    ∀ i < 64, p.1.has i = true → x.free i = true := by decide +kernel

/-- A bit of no field names the instruction or is reserved. -/
theorem slForms_free : ∀ x ∈ slForms, ∀ i < 64, x.free i = true →
    (∃ p ∈ slFixed x.1, p.1.has i = true) ∨ (slReserved x.1).toNat.testBit i = true := by decide +kernel

/-- A reserved bit belongs to no field and is 0 in the base word. -/
theorem slForms_reserved : ∀ x ∈ slForms, ∀ i < 64, (slReserved x.1).toNat.testBit i = true →
    x.free i = true ∧ x.base.toNat.testBit i = false := by decide +kernel

/-! ## Words and their bits -/

/-- Words with the same bits are the same. -/
theorem word_ext {w u : Word} (h : ∀ i < 64, w.toNat.testBit i = u.toNat.testBit i) : w = u :=
  BitVec.eq_of_getLsbD_eq (fun i hi => h i hi)

/-- A field of two words is the same exactly where its bits are. -/
theorem getF_eq_iff {f : Fld} {w u : Word} :
    getF f w = getF f u ↔ ∀ i, f.has i = true → w.toNat.testBit i = u.toNat.testBit i := by
  constructor
  · intro h i hi
    obtain ⟨hlo, hhi⟩ : f.lo ≤ i ∧ i < f.lo + f.width := by simpa [Fld.has] using hi
    have hb : (getF f w).testBit (i - f.lo) = (getF f u).testBit (i - f.lo) := by rw [h]
    have hw : i - f.lo < f.width := by omega
    rwa [getF_testBit, getF_testBit, decide_eq_true hw, Bool.true_and, Bool.true_and, Nat.add_sub_cancel' hlo] at hb
  · intro h
    refine Nat.eq_of_testBit_eq fun i => ?_
    rw [getF_testBit, getF_testBit]
    by_cases hi : i < f.width
    · rw [h (f.lo + i) (by simp [Fld.has, hi])]
    · simp [hi]

theorem Fld.has_lt {f : Fld} {i : Nat} (hf : f.lo + f.width ≤ 64) (h : f.has i = true) : i < 64 := by
  have : f.lo ≤ i ∧ i < f.lo + f.width := by simpa [Fld.has] using h
  omega

/-- A mask meets a word in no bit. -/
theorem and_eq_zero_iff {w m : Word} :
    w &&& m = 0 ↔ ∀ i < 64, m.toNat.testBit i = true → w.toNat.testBit i = false := by
  constructor
  · intro h i _ hm
    have hb : (w &&& m).toNat.testBit i = false := by simp [h]
    simpa [BitVec.toNat_and, Nat.testBit_and, hm] using hb
  · intro h
    refine word_ext fun i hi => ?_
    rw [BitVec.toNat_and, Nat.testBit_and]
    cases hm : m.toNat.testBit i
    · simp
    · simp [h i hi hm]

/-- A word names a form's instruction exactly where it has the bits of the form's base word outside the fields. -/
theorem slDecode_iff_bits {x : SlForm} (hx : x ∈ slForms) (w : Word) :
    slDecode w = some x.1 ↔ ∀ i < 64, x.free i = true → w.toNat.testBit i = x.base.toNat.testBit i := by
  rw [slDecode_eq_some_iff, BitVec.and_assoc, ← slReserved, and_eq_zero_iff]
  constructor
  · rintro ⟨hfixed, hres⟩ i hi hfree
    rcases slForms_free x hx i hi hfree with ⟨p, hp, hpi⟩ | hr
    · exact getF_eq_iff.1 ((hfixed p hp).trans (slForms_fixed x hx p hp).1.symm) i hpi
    · rw [hres i hi hr, (slForms_reserved x hx i hi hr).2]
  · intro h
    refine ⟨fun p hp => ?_, fun i hi hr => ?_⟩
    · obtain ⟨hbase, hfree⟩ := slForms_fixed x hx p hp
      rw [← hbase]
      exact getF_eq_iff.2 fun i hi => h i (Fld.has_lt (slFixed_inWord x.1 p hp) hi) (hfree i (Fld.has_lt (slFixed_inWord x.1 p hp) hi) hi)
    · obtain ⟨hfree, hzero⟩ := slForms_reserved x hx i hi hr
      rw [h i hi hfree, hzero]

theorem SlForm.free_iff {x : SlForm} {i : Nat} : x.free i = true ↔ ∀ f ∈ x.2.2, f.has i = false := by
  simp [SlForm.free]

/-- The word of an instruction decodes to it, whatever its fields hold. -/
theorem slDecode_word {x : SlForm} (hx : x ∈ slForms) (vs : List Nat) : slDecode (x.word vs) = some x.1 :=
  (slDecode_iff_bits hx _).2 fun _ hi hfree =>
    putFields_testBit_out _ hi fun _ hp => SlForm.free_iff.1 hfree _ (List.of_mem_zip hp).1

/-- The fields of an instruction's word read back as they were put. -/
theorem getF_word {x : SlForm} (hx : x ∈ slForms) {vs : List Nat} (hl : vs.length = x.2.2.length) :
    ∀ p ∈ x.2.2.zip vs, getF p.1 (x.word vs) = p.2 % 2 ^ p.1.width := by
  obtain ⟨hapart, hin⟩ := slForms_apart x hx
  exact getF_putFields_mem _ (fun p hp => hin _ (List.of_mem_zip hp).1) (zip_apart hapart hl)

/-- A word that names an instruction is that instruction's word with what its fields hold. -/
theorem word_of_slDecode {x : SlForm} (hx : x ∈ slForms) {w : Word} (h : slDecode w = some x.1) :
    w = x.word (x.2.2.map (getF · w)) := by
  have hbits := (slDecode_iff_bits hx w).1 h
  have hword := (slDecode_iff_bits hx _).1 (slDecode_word hx (x.2.2.map (getF · w)))
  have hread := getF_word hx (vs := x.2.2.map (getF · w)) (by simp)
  refine word_ext fun i hi => ?_
  cases hfree : x.free i
  · obtain ⟨f, hf, hfi⟩ : ∃ f ∈ x.2.2, f.has i = true := by simpa [SlForm.free] using hfree
    have hz : x.2.2.zip (x.2.2.map (getF · w)) = x.2.2.map (fun f => (f, getF f w)) := by
      simpa using List.zip_map' (f := id) (g := (getF · w)) (l := x.2.2)
    have e := hread (f, getF f w) (by rw [hz]; exact List.mem_map_of_mem hf)
    exact (getF_eq_iff.1 (e.trans (Nat.mod_eq_of_lt (getF_lt f w))) i hfi).symm
  · rw [hbits i hi hfree, hword i hi hfree]

end Sys2Proof.Machine
end

section
/-!
A bench's sequencers and sides: what a write of one leaves of the others, and what a fault of a sequencer leaves behind (O2, O3,
O7, O8, O57).
-/
namespace Sys2Proof.Machine

/-! ## Sequencers and sides of a bench -/

section
variable (b q : Nat) (v : Seq) (x : Side) (y : Bench) (s : State)

@[simp] theorem Bench.seq_setSeq_same : (y.setSeq q v).seq q = v := by unfold Bench.setSeq Bench.seq; split <;> rfl
@[simp] theorem Bench.side_setSeq (p : Nat) : (y.setSeq q v).side p = y.side p := by unfold Bench.setSeq; split <;> rfl
@[simp] theorem Bench.side_setSide_same : (y.setSide q x).side q = x := by unfold Bench.setSide Bench.side; split <;> rfl
@[simp] theorem Bench.seq_setSide (p : Nat) : (y.setSide q x).seq p = y.seq p := by unfold Bench.setSide; split <;> rfl

/-- Sequencer numbers other than 0 name sequencer 1. -/
theorem Bench.seq_setSeq_other {p q : Nat} (h : p = 0 ↔ q ≠ 0) : (y.setSeq q v).seq p = y.seq p := by
  unfold Bench.setSeq Bench.seq
  split <;> simp_all

theorem Bench.side_setSide_other {p q : Nat} (h : p = 0 ↔ q ≠ 0) : (y.setSide q x).side p = y.side p := by
  unfold Bench.setSide Bench.side
  split <;> simp_all

/-- Storing a sequencer writes its bench, the time of BEN_CYCLE_COUNT's run aside. -/
theorem setSeq_benches : ∃ since next, (setSeq b q v s).benches =
    (setBench b { (benchOf b s).setSeq q v with runSince := since, runNext := next } s).benches := by
  unfold setSeq
  dsimp only
  split
  · exact ⟨_, _, rfl⟩
  · exact ⟨_, _, rfl⟩
  · exact ⟨_, _, rfl⟩

theorem benchOf_of_benches {s t : State} (b : Nat) (h : t.benches = s.benches) : benchOf b t = benchOf b s := by
  unfold benchOf; rw [h]

theorem seqOf_of_benches {s t : State} (b q : Nat) (h : t.benches = s.benches) : seqOf b q t = seqOf b q s := by
  unfold seqOf; rw [benchOf_of_benches b h]

theorem sideOf_of_benches {s t : State} (b q : Nat) (h : t.benches = s.benches) : sideOf b q t = sideOf b q s := by
  unfold sideOf; rw [benchOf_of_benches b h]

/-- A bench after one of its sequencers was stored. -/
theorem benchOf_setSeq_same : ∃ since next, benchOf b (setSeq b q v s) =
    { (benchOf b s).setSeq q v with runSince := since, runNext := next } := by
  obtain ⟨since, next, e⟩ := setSeq_benches b q v s
  exact ⟨since, next, (benchOf_of_benches b e).trans (benchOf_setBench_same ..)⟩

theorem benchOf_setSeq_other {a : Nat} (h : a ≠ b) : benchOf a (setSeq b q v s) = benchOf a s := by
  obtain ⟨since, next, e⟩ := setSeq_benches b q v s
  exact (benchOf_of_benches a e).trans (benchOf_setBench_other _ _ h)

@[simp] theorem seqOf_setSeq_same : seqOf b q (setSeq b q v s) = v := by
  obtain ⟨since, next, e⟩ := benchOf_setSeq_same b q v s
  rw [seqOf, e]
  exact Bench.seq_setSeq_same q v (benchOf b s)

theorem seqOf_setSeq_other {a p : Nat} (h : a ≠ b ∨ (p = 0 ↔ q ≠ 0)) : seqOf a p (setSeq b q v s) = seqOf a p s := by
  by_cases ha : a = b
  · subst ha
    obtain ⟨since, next, e⟩ := benchOf_setSeq_same a q v s
    rw [seqOf, e]
    exact Bench.seq_setSeq_other v (benchOf a s) (h.resolve_left (by simp))
  · rw [seqOf, benchOf_setSeq_other b q v s ha, seqOf]

@[simp] theorem sideOf_setSeq (a p : Nat) : sideOf a p (setSeq b q v s) = sideOf a p s := by
  by_cases ha : a = b
  · subst ha
    obtain ⟨since, next, e⟩ := benchOf_setSeq_same a q v s
    rw [sideOf, e]
    exact Bench.side_setSeq q v (benchOf a s) p
  · rw [sideOf, benchOf_setSeq_other b q v s ha, sideOf]

/-- Storing a sequencer writes no register but BEN_CYCLE_COUNT. -/
theorem rd_setSeq {k : Nat} (h : k ≠ Reg.BEN_CYCLE_COUNT b) : rd k (setSeq b q v s) = rd k s := by
  unfold setSeq
  dsimp only
  split
  · rfl
  · exact rd_bumpBy_other _ _ h
  · rfl

@[simp] theorem seqOf_setSide (a p : Nat) : seqOf a p (setSide b q x s) = seqOf a p s := by
  by_cases ha : a = b
  · subst ha
    rw [seqOf, setSide, benchOf_setBench_same, Bench.seq_setSide, seqOf]
  · rw [seqOf, setSide, benchOf_setBench_other _ _ ha, seqOf]

@[simp] theorem sideOf_setSide_same : sideOf b q (setSide b q x s) = x := by
  rw [sideOf, setSide, benchOf_setBench_same, Bench.side_setSide_same]

theorem sideOf_setSide_other {a p : Nat} (h : a ≠ b ∨ (p = 0 ↔ q ≠ 0)) : sideOf a p (setSide b q x s) = sideOf a p s := by
  by_cases ha : a = b
  · subst ha
    rw [sideOf, setSide, benchOf_setBench_same, Bench.side_setSide_other x _ (h.resolve_left (by simp)), sideOf]
  · rw [sideOf, setSide, benchOf_setBench_other _ _ ha, sideOf]

end

/-! ## Records and faults of a context: what they leave (R350, R525) -/

section
variable (n : Nat) (s : State)
@[simp] theorem msixRaise_benches : (msixRaise n s).benches = s.benches := by unfold msixRaise; split <;> [rfl; (split <;> rfl)]
@[simp] theorem ibiEvent_benches : (ibiEvent n s).benches = s.benches := by unfold ibiEvent; split <;> rfl
end

section
variable (code kind index : Nat) (ctx : Option Nat) (ds : List Word) (dev cycle step : Nat) (s : State)

theorem errPut_benches : (errPut code kind index ctx ds dev cycle step s).benches = s.benches := by
  unfold errPut
  dsimp only
  rw [tbWs_eq_tabs]
  split <;> simp

theorem log_benches : (log code kind index ctx ds s).benches = s.benches := by
  unfold log logAt
  split_ifs
  · rfl
  · rfl
  · exact errPut_benches ..

/-- A record writes the registers of the ring only. -/
theorem rd_log {k : Nat} (hs : k ≠ Reg.ERR_STATE) (hw : k ≠ Reg.ERR_WRITTEN) (hl : k ≠ Reg.ERR_LOST) :
    rd k (log code kind index ctx ds s) = rd k s := by
  unfold log logAt
  split_ifs
  · rfl
  · exact rd_bump_other s hl
  · obtain ⟨hr, -⟩ := errPut_frame code kind index ctx ds s.dev s.cycle (rdF Reg.BPM_STEP_STATUS Fld.BPM_STEP_STATUS_STEP s) s
    rw [rd_of_regs _ hr, errStored, rd_bump_other _ hw, rd_wrF_other _ _ _ hs, tbWs_eq_tabs]
    rfl
end

section
variable (c code : Nat) (s : State)

theorem ctxFault_benches : (ctxFault c code s).benches = s.benches := by
  unfold ctxFault
  split_ifs
  · exact log_benches ..
  · rfl

/-- A fault of a context writes its own registers and those of the ring only. -/
theorem rd_ctxFault {k : Nat} (hst : k ≠ Reg.CTX_STATUS c) (ht : k ≠ Reg.CTX_TEARDOWNS c) (hs : k ≠ Reg.ERR_STATE)
    (hw : k ≠ Reg.ERR_WRITTEN) (hl : k ≠ Reg.ERR_LOST) : rd k (ctxFault c code s) = rd k s := by
  unfold ctxFault
  split_ifs
  · refine (rd_log _ _ _ _ _ _ hs hw hl).trans ?_
    rw [rd_bump_other _ ht, rd_wrF_other _ _ _ hst, rd_wrF_other _ _ _ hst]
  · rfl
end

/-! ## A fault of a sequencer (R52, R53) -/

/-- The register of a sequencer's fault is none of those that a record or a fault of a context writes. -/
theorem faultReg_apart (b q c : Nat) : faultReg b q ≠ Reg.CTX_STATUS c ∧ faultReg b q ≠ Reg.CTX_TEARDOWNS c ∧
    faultReg b q ≠ Reg.ERR_STATE ∧ faultReg b q ≠ Reg.ERR_WRITTEN ∧ faultReg b q ≠ Reg.ERR_LOST := by
  unfold faultReg Reg.BEN_FAULT0 Reg.BEN_FAULT1 Reg.CTX_STATUS Reg.CTX_TEARDOWNS Reg.ERR_STATE Reg.ERR_WRITTEN Reg.ERR_LOST
  split <;> omega

/-- The word that records a fault. -/
def faultWord (cause code pc : Nat) : Word :=
  setF Fld.BEN_FAULT0_CAUSE (setF Fld.BEN_FAULT0_PC (setF Fld.BEN_FAULT0_CODE (w64 (2 ^ 63)) code) pc) cause

/-- The state in which a fault of a sequencer is recorded: it has stopped, and its SWAPs without a PASS are gone. -/
def faultStored (b q cause code pc : Nat) (s : State) : State :=
  wr (faultReg b q) (faultWord cause code pc) (discardSwaps b q (setSeq b q ((seqOf b q s).stopped .fault) s))

/-- Past what it records, a fault of a sequencer makes a record and may fault the context: neither touches a bench. -/
theorem benchFault_frame (b q cause code pc : Nat) {s : State} (hf : (seqOf b q s).st ≠ .fault) (hi : (seqOf b q s).st ≠ .idle) :
    let u := benchFault b q cause code pc s
    u.benches = (faultStored b q cause code pc s).benches ∧ rd (faultReg b q) u = faultWord cause code pc := by
  have hr : rd (faultReg b q) (faultStored b q cause code pc s) = faultWord cause code pc := rd_wr_same _ _ _
  have hlog : ∀ n ctx ds, (log n kBench (seqKey b q) ctx ds (faultStored b q cause code pc s)).benches =
      (faultStored b q cause code pc s).benches := fun _ _ _ => log_benches ..
  obtain ⟨-, -, hs, hw, hl⟩ := faultReg_apart b q 0
  unfold benchFault
  rw [if_neg (not_or.2 ⟨hf, hi⟩)]
  dsimp only
  split
  · obtain ⟨hst, ht, -, -, -⟩ := faultReg_apart b q ‹_›
    exact ⟨(ctxFault_benches ..).trans (hlog ..), (rd_ctxFault _ _ _ hst ht hs hw hl).trans ((rd_log _ _ _ _ _ _ hs hw hl).trans hr)⟩
  · exact ⟨hlog .., (rd_log _ _ _ _ _ _ hs hw hl).trans hr⟩

/-- A fault of a sequencer that is neither IDLE nor in FAULT stops it and is recorded. -/
theorem benchFault_stops (b q cause code pc : Nat) {s : State} (hf : (seqOf b q s).st ≠ .fault) (hi : (seqOf b q s).st ≠ .idle) :
    let u := benchFault b q cause code pc s
    (seqOf b q u).st = .fault ∧ (seqOf b q u).blocked = .no ∧ rd (faultReg b q) u = faultWord cause code pc := by
  intro u
  obtain ⟨hb, hr⟩ := benchFault_frame b q cause code pc hf hi
  have hsq : seqOf b q u = seqOf b q (faultStored b q cause code pc s) := seqOf_of_benches b q hb
  have hst : seqOf b q (faultStored b q cause code pc s) = { (seqOf b q s).stopped .fault with
      swaps := (seqOf b q (faultStored b q cause code pc s)).swaps } := by
    simp [faultStored, discardSwaps, seqOf_of_benches b q (wr_benches ..)]
  rw [hsq, hst]
  exact ⟨rfl, rfl, hr⟩

/-- The cause of a recorded fault reads back. -/
theorem faultWord_cause (cause code pc : Nat) : getF Fld.BEN_FAULT0_CAUSE (faultWord cause code pc) = cause % 256 :=
  getF_setF_same _ _ _ (by decide)

/-- A sequencer that may issue is RUN. -/
theorem canIssue_run {b q : Nat} {s : State} (h : canIssue b q s = true) : (seqOf b q s).st = .run := by
  simp only [canIssue, Bool.and_eq_true, beq_iff_eq] at h
  exact h.1.2

/-- A fault at issue stops the sequencer with its cause, code and address. -/
theorem atIssue_fault_stops {b q : Nat} {s : State} (h : canIssue b q s = true) (cause code pc : Nat) :
    let u := benchFault b q cause code pc (atIssue b q s)
    (seqOf b q u).st = .fault ∧ (seqOf b q u).blocked = .no ∧ rd (faultReg b q) u = faultWord cause code pc := by
  have hst : (seqOf b q (atIssue b q s)).st = .run := canIssue_run h
  exact benchFault_stops b q cause code pc (by rw [hst]; decide) (by rw [hst]; decide)

/-- A word that names no instruction faults the sequencer that comes to it, whichever issue command is sent (R45, R46). -/
theorem seqRow_issue_illegal {b q : Nat} {s : State} (k : Slasal) (f : Word → State → Option State) (ha : Acts b q s)
    (hc : canIssue b q s = true) (hp : (seqOf b q s).pc < 8192) (hd : slDecode (curWord b q s) = none) :
    seqRow b q (issue k f b q) s = .next (settle (benchFault b q 1 0 (seqOf b q s).pc (atIssue b q s))) := by
  obtain ⟨hb, hq, hr, -⟩ := ha
  rw [seqRow_runs _ hb hq hr]
  simp only [issue]
  rw [if_neg (by simp [hc]; omega), hd]
  rfl

end Sys2Proof.Machine

namespace Sys2Proof.Proofs
open Sys2Proof Sys2Proof.Machine

/-- Settles O57: the statement's table is `slForms`, and the instruction words are those of `SlForm.word`. -/
theorem slasalWordsFollowTheTables : Obligations.SlasalWordsFollowTheTables := by
  unfold Obligations.SlasalWordsFollowTheTables
  intro mem movei movet message sem branch forms word issues
  refine ⟨fun x hx vs hl => ⟨slDecode_word (x := x) hx vs, getF_word (x := x) hx hl⟩, ?decoded, ?illegal⟩
  case decoded =>
    intro w k h
    obtain ⟨x, hx, rfl⟩ := slForms_all k
    exact ⟨x.2.1, x.2.2, x.2.2.map (getF · w), hx, List.length_map .., word_of_slDecode hx h⟩
  case illegal =>
    intro b q s ha hc hp hd u
    obtain ⟨hst, -, hrd⟩ := atIssue_fault_stops hc 1 0 (seqOf b q s).pc
    refine ⟨hst, by rw [hrd, faultWord_cause], ?_⟩
    simp only [issues, List.forall_mem_cons, List.not_mem_nil, false_implies, implies_true, and_true]
    refine ⟨?_, ?_, ?_, ?_, ?_, ?_, ?_, ?_, ?_, ?_, ?_, ?_, ?_, ?_, ?_, ?_, ?_, ?_, ?_, ?_, ?_, ?_, ?_, ?_, ?_, ?_, ?_, ?_, ?_⟩ <;>
      exact seqRow_issue_illegal _ _ ha hc hp hd

end Sys2Proof.Proofs
end

section
/-!
Instructions at their issue (O1, O2, O3, O7, O8, O59): what each kind's meaning gives where it issues, stalls or faults.
-/
namespace Sys2Proof.Machine

/-! ## What an issue leaves of its sequencer -/

@[simp] theorem seqOf_issued (b q : Nat) (closes : Bool) (f : Seq → Seq) (s : State) :
    seqOf b q (issued b q closes f s) = f { (seqOf b q s).slot s.cycle closes with po := (seqOf b q s).po + 1 } := by
  simp [issued]

theorem Seq.slot_loops (x : Seq) (c : Nat) (closes : Bool) : (x.slot c closes).loops = x.loops := by
  simp only [Seq.slot]
  generalize (if c > x.free then 2 else x.left) = left
  split <;> rfl

/-- An instruction that takes its slot and moves its sequencer on leaves nothing to settle. -/
theorem seqRow_issued {b q : Nat} {k : Slasal} {s : State} {closes : Bool} {g : Seq → Seq} (f : Word → State → Option State)
    (h : Issues b q k s) (e : f (curWord b q s) (atIssue b q s) = some (issued b q closes g (atIssue b q s))) :
    seqRow b q (issue k f b q) s = .next (issued b q closes g (atIssue b q s)) :=
  issue_next f h e ((issued_work ..).trans (issues_work h))

/-! ## MOVE.I (R46) -/

theorem Seq.setIndex_mod (x : Seq) (k v : Nat) : x.setIndex k (v % 2 ^ 32) = x.setIndex k v := by
  unfold Seq.setIndex; rw [Nat.mod_mod]

/-- A MOVE.I writes its value modulo 2^32. -/
theorem issueMoveI_mod (b q : Nat) (w : Word) (v : Nat) (s : State) :
    issueMoveI b q w (v % 2 ^ 32) s = issueMoveI b q w v s := by
  simp only [issueMoveI, Seq.setIndex_mod]

/-- A MOVE.I that gives I[XD] a value ends the step with it. -/
theorem seqRow_moveI {b q : Nat} {k : Slasal} {s : State} (f : Word → State → Option State) (h : Issues b q k s) (v : Nat)
    (e : f (curWord b q s) (atIssue b q s) = issueMoveI b q (curWord b q s) v (atIssue b q s)) :
    seqRow b q (issue k f b q) s =
      .next (issued b q false (fun x => (x.setIndex (getF Sl.MOVEI_XD (curWord b q s)) v).next) (atIssue b q s)) :=
  seqRow_issued f h e

/-! ## BRANCH (R43, R47, R49) -/

/-- The first value that a BRANCH compares. -/
def branchX (b q : Nat) (s : State) : Nat := (seqOf b q s).index (getF Sl.BRANCH_XA (curWord b q s))

/-- The second value that a BRANCH compares. -/
def branchY (b q : Nat) (s : State) : Nat :=
  if getF Sl.BRANCH_IMM (curWord b q s) = 1 then wrap32 (signExt 16 (getF Sl.BRANCH_IMMV (curWord b q s)))
  else (seqOf b q s).index (getF Sl.BRANCH_XB (curWord b q s))

/-- The state after a BRANCH that is taken. -/
def branchTaken (b q : Nat) (s : State) : State :=
  issued b q true (fun z => { z.jump (getF Sl.BRANCH_TARGET (curWord b q s)) with free := (atIssue b q s).cycle + 3, left := 2 })
    (atIssue b q s)

/-- The state after a BRANCH on a condition. -/
def branched (b q : Nat) (s : State) (c : Prop) [Decidable c] : State :=
  if c then branchTaken b q s else issued b q true Seq.next (atIssue b q s)

/-- A BRANCH whose test says whether `c` holds goes as `c` says. -/
theorem seqRow_branch {b q : Nat} {k : Slasal} {s : State} (h : Issues b q k s) {c : Prop} [Decidable c]
    (hc : branchTest k (branchX b q s) (branchY b q s) = true ↔ c) :
    seqRow b q (issue k (issueBranch k b q) b q) s = .next (branched b q s c) := by
  have hx : (seqOf b q (atIssue b q s)).index (getF Sl.BRANCH_XA (curWord b q s)) = branchX b q s := rfl
  have hy : (if getF Sl.BRANCH_IMM (curWord b q s) = 1 then wrap32 (signExt 16 (getF Sl.BRANCH_IMMV (curWord b q s)))
      else (seqOf b q (atIssue b q s)).index (getF Sl.BRANCH_XB (curWord b q s))) = branchY b q s := rfl
  refine issue_next _ h (u := branched b q s c) ?_ ?_
  · simp only [issueBranch, hx, hy, hc, branched]
    split <;> rfl
  · unfold branched branchTaken
    split <;> exact (issued_work ..).trans (issues_work h)

/-- The loops split into those that end and those that stay, the outermost that ends not holding the target (R43). -/
theorem loopsAfter_split (t : Nat) (l : List LoopFrame) : ∃ ended, l = ended ++ loopsAfter t l ∧
    ∀ f, ended.getLast? = some f → ¬ (f.first ≤ t ∧ t ≤ f.last) := by
  induction l with
  | nil => exact ⟨[], rfl, by simp⟩
  | cons f fs ih =>
    obtain ⟨ended, hsplit, hlast⟩ := ih
    rw [loopsAfter]
    split
    · have hnil : ended = [] := by
        have := congrArg List.length hsplit
        rw [List.length_append] at this
        exact List.length_eq_zero_iff.1 (by omega)
      subst hnil
      exact ⟨[], by simpa using hsplit, by simp⟩
    next hends =>
      refine ⟨f :: ended, congrArg (f :: ·) hsplit, ?_⟩
      cases ended with
      | nil =>
        intro g hg hholds
        obtain rfl : f = g := by simpa using hg
        exact hends ⟨by rw [← List.nil_append (loopsAfter t fs), ← hsplit], hholds⟩
      | cons g gs => simpa using hlast

/-- Every loop that stays holds the target. -/
theorem loopsAfter_holds (t : Nat) (l : List LoopFrame) : ∀ f ∈ loopsAfter t l, f.first ≤ t ∧ t ≤ f.last := by
  induction l with
  | nil => simp [loopsAfter]
  | cons f fs ih =>
    simp only [loopsAfter]
    split
    next h => exact List.forall_mem_cons.2 ⟨h.2, ih⟩
    · exact ih

/-- A taken BRANCH goes to its target and ends the loops that do not hold it. -/
theorem seqRow_branch_taken {b q : Nat} {k : Slasal} {s : State} (h : Issues b q k s)
    (hc : branchTest k (branchX b q s) (branchY b q s) = true) :
    let target := getF Sl.BRANCH_TARGET (curWord b q s)
    ∃ t ended, seqRow b q (issue k (issueBranch k b q) b q) s = .next t ∧ (seqOf b q t).pc = target ∧
      (seqOf b q s).loops = ended ++ (seqOf b q t).loops ∧
      (∀ f ∈ (seqOf b q t).loops, f.first ≤ target ∧ target ≤ f.last) ∧
      (∀ f, ended.getLast? = some f → ¬ (f.first ≤ target ∧ target ≤ f.last)) := by
  intro target
  obtain ⟨ended, hsplit, hlast⟩ := loopsAfter_split target (seqOf b q s).loops
  have hloops : (seqOf b q (branchTaken b q s)).loops = loopsAfter target (seqOf b q s).loops := by
    rw [branchTaken, seqOf_issued]
    exact congrArg (loopsAfter target) (Seq.slot_loops ..)
  refine ⟨branchTaken b q s, ended, ?_, ?_, ?_, ?_, hlast⟩
  · rw [seqRow_branch h (c := True) (by simp [hc]), branched, if_pos trivial]
  · rw [branchTaken, seqOf_issued]
    rfl
  · rw [hloops, ← hsplit]
  · rw [hloops]
    exact loopsAfter_holds _ _

/-! ## Faults at issue (R36, R53, R536) -/

/-- The fault of an instruction that issues is the fault of its sequencer at its address. -/
theorem seqRow_issue_fault {b q : Nat} {k : Slasal} {s : State} {cause code : Nat} (f : Word → State → Option State)
    (h : Issues b q k s) (e : f (curWord b q s) (atIssue b q s) = some (issueFault b q cause code (atIssue b q s))) :
    let u := benchFault b q cause code (seqOf b q s).pc (atIssue b q s)
    seqRow b q (issue k f b q) s = .next (settle u) ∧ (seqOf b q u).st = .fault ∧ (seqOf b q u).blocked = .no ∧
      rd (faultReg b q) u = faultWord cause code (seqOf b q s).pc := by
  obtain ⟨-, -, -, -, hc, -, -⟩ := id h
  exact ⟨issue_ok f h e, atIssue_fault_stops hc cause code _⟩

/-- An instruction whose tile is outside its side's range stops its sequencer with BAD_TILE. -/
theorem seqRow_issue_badTile {b q : Nat} {k : Slasal} {s : State} (f : Word → State → Option State)
    (h : Issues b q k s) (e : f (curWord b q s) (atIssue b q s) = some (issueFault b q cBadTile 0 (atIssue b q s))) :
    let u := benchFault b q 2 0 (seqOf b q s).pc (atIssue b q s)
    seqRow b q (issue k f b q) s = .next (settle u) ∧ (seqOf b q u).st = .fault ∧
      getF Fld.BEN_FAULT0_CAUSE (rd (faultReg b q) u) = 2 := by
  obtain ⟨he, hst, -, hrd⟩ := seqRow_issue_fault f h e
  exact ⟨he, hst, (congrArg _ hrd).trans (faultWord_cause ..)⟩

/-- A run whose first tile is out of range is out of range. -/
theorem runInTiles_false {b q t n : Nat} {s : State} (h : runInTiles b q t 1 s = false) (hn : 1 ≤ n) :
    runInTiles b q t n s = false := by
  simp only [runInTiles, Bool.and_eq_false_iff, decide_eq_false_iff_not] at h ⊢
  omega

/-- What a test for a condition that does not hold, or that holds, says to a meaning that asks for its negation. -/
theorem not_true_of {c : Bool} (h : c = false) : (!c) = true := by rw [h]; rfl
theorem not_not_true_of {c : Bool} (h : c = true) : ¬ (!c) = true := by rw [h]; decide

/-- A SAND names a tile outside its side's range where its source, its destination or a second source is. -/
theorem sand_outside {b q src src2 dst f : Nat} {s : State} (h : runInTiles b q src 1 s = false ∨ runInTiles b q dst 1 s = false ∨
    (1 ≤ f ∧ f ≤ 5 ∧ runInTiles b q src2 1 s = false)) : (!runInTiles b q src 1 s || !runInTiles b q dst 1 s ||
      (decide (1 ≤ f) && decide (f ≤ 5) && !runInTiles b q src2 1 s)) = true := by
  rcases h with h | h | ⟨h1, h5, h⟩ <;> simp [h]
  exact .inr ⟨h1, h5⟩

end Sys2Proof.Machine

namespace Sys2Proof.Proofs
open Sys2Proof Sys2Proof.Machine

/-- Settles O1: the MOVE.Is are one lemma on the value written, the BRANCHes one on the test. -/
theorem indexAndBranchInstructionsComplete : Obligations.IndexAndBranchInstructionsComplete := by
  unfold Obligations.IndexAndBranchInstructionsComplete
  refine ⟨fun b q s => ?_, fun b q s => ?_⟩
  · intro w t imm src done
    refine ⟨fun h => seqRow_issued _ h rfl, fun h => seqRow_issued _ h rfl,
      fun h => seqRow_moveI _ h imm rfl, fun h => seqRow_moveI _ h (src + imm) (issueMoveI_mod ..),
      fun h => seqRow_moveI _ h (src * 2 ^ (imm % 32)) (issueMoveI_mod ..),
      fun h hi => seqRow_moveI _ h b (if_pos hi), fun h hi => seqRow_moveI _ h (if split b s then q else 0) ?_⟩
    have h0 : moveImm w ≠ 0 := by rw [show moveImm w = 1 from hi]; decide
    exact (if_neg h0).trans (if_pos hi)
  · intro w t x y goes
    exact ⟨fun h => seqRow_branch h beq_iff_eq, fun h => seqRow_branch h bne_iff_ne, fun h => seqRow_branch h decide_eq_true_iff,
      fun h => seqRow_branch h decide_eq_true_iff, fun h => seqRow_branch h decide_eq_true_iff,
      fun h => seqRow_branch h decide_eq_true_iff, fun h => seqRow_branch h (iff_of_true rfl trivial)⟩

/-- Settles O59: each BRANCH's condition makes its test hold. -/
theorem branchesEndLoops : Obligations.BranchesEndLoops := by
  intro b q s w x y target holds taken
  exact ⟨fun h hc => seqRow_branch_taken h (beq_iff_eq.2 hc), fun h hc => seqRow_branch_taken h (bne_iff_ne.2 hc),
    fun h hc => seqRow_branch_taken h (decide_eq_true hc), fun h hc => seqRow_branch_taken h (decide_eq_true hc),
    fun h hc => seqRow_branch_taken h (decide_eq_true hc), fun h hc => seqRow_branch_taken h (decide_eq_true hc),
    fun h => seqRow_branch_taken h rfl⟩

/-- Settles O7: TRAP faults as it issues, and the end of the program faults at the stop of issue. -/
theorem trapsStopTheSequencer : Obligations.TrapsStopTheSequencer := by
  intro b q s t sq stopped
  refine ⟨fun h => ?trap, fun ha hc hp => ?pastEnd⟩
  case trap => exact seqRow_issue_fault (cause := cTrap) _ h rfl
  case pastEnd =>
    obtain ⟨hb, hq, hr, -⟩ := ha
    refine ⟨?_, atIssue_fault_stops hc 6 0 8191⟩
    refine (seqRow_runs _ hb hq hr).trans ?_
    rw [pastEnd, hc, decide_eq_true hp]
    rfl

/-- Settles O8: each instruction's meaning gives the fault for the tile that it names. -/
theorem tileOutsideTheHalfFaults : Obligations.TileOutsideTheHalfFaults := by
  intro b q s w sq sd u outside func stops
  have room {n k : Nat} (h : n < k) : ¬ n ≥ k := Nat.not_le.2 h
  have run {x n : Nat} (h : outside x) : (!runInTiles b q x (max n 1) s) = true :=
    not_true_of (runInTiles_false h (le_max_right _ _))
  exact ⟨fun h hl ho => seqRow_issue_badTile _ h ((if_neg (room hl)).trans (if_pos (not_true_of ho))),
    fun h hl ho => seqRow_issue_badTile _ h ((if_neg (room hl)).trans (if_pos (not_true_of ho))),
    fun h hl hf ho => seqRow_issue_badTile _ h
      ((if_neg (room hl)).trans ((if_neg (not_not_true_of hf)).trans (if_pos (sand_outside ho)))),
    fun h hl ho => seqRow_issue_badTile _ h ((if_neg (room hl)).trans (if_pos (not_true_of ho))),
    fun h hl ho => seqRow_issue_badTile _ h ((if_neg (room hl)).trans (if_pos (not_true_of ho))),
    fun h hl ho => seqRow_issue_badTile _ h ((if_neg (room hl)).trans (if_pos (not_true_of ho))),
    fun h hl ho => seqRow_issue_badTile _ h ((if_neg (not_not_true_of hl)).trans (if_pos (run ho))),
    fun h hl ho => seqRow_issue_badTile _ h ((if_neg (not_not_true_of hl)).trans (if_pos (run ho))),
    fun h ho => seqRow_issue_badTile _ h (if_pos (run ho)), fun h ho => seqRow_issue_badTile _ h (if_pos (not_true_of ho))⟩

/-- Settles O2: each instruction's meaning, LOOP by its count. -/
theorem controlInstructionsComplete : Obligations.ControlInstructionsComplete := by
  intro b q s w t sq count last frame mask wait
  refine ⟨fun h hl hc => seqRow_issued _ h ?skipped, fun h hl hc ho => seqRow_issued _ h ?opened,
    fun h => issue_next _ h rfl ?halted, fun h hm => issue_next _ h ?waits ?waitsWork, fun h hm => issue_ok _ h ?marks⟩
  case skipped => exact (if_neg (Nat.not_le.2 hl)).trans (if_pos hc)
  case opened => exact (if_neg (Nat.not_le.2 hl)).trans ((if_neg hc).trans (if_neg (Nat.not_le.2 ho)))
  case halted => exact (issued_work ..).trans ((rowGather_work ..).trans ((discardSwaps_work ..).trans (issues_work h)))
  case waits => exact congrArg some (if_neg (by rw [hm]; decide))
  case waitsWork =>
    refine (issued_work ..).trans ?_
    split
    · exact (discardSwaps_work ..).trans (issues_work h)
    · exact issues_work h
  case marks => exact congrArg some (if_pos hm)

/-- Settles O3: each instruction's meaning passes its tests, or stalls at the first. -/
theorem queuedInstructionsComplete : Obligations.QueuedInstructionsComplete := by
  intro b q s w t sq sd pt pa src src2 dst func lt st sa n inTiles put
  have room {n k : Nat} (h : n < k) : ¬ n ≥ k := Nat.not_le.2 h
  have work {k : Slasal} {f : Seq → Seq} {x : Side} (h : Issues b q k s) : (issued b q false f (setSide b q x t)).work = [] :=
    (issued_work ..).trans (show s.work = [] from issues_work h)
  refine ⟨fun h hl ht ha => issue_next _ h ?pass (work h), fun h hl ht ha => issue_next _ h ?shave (work h),
    fun h hl hf hs hd h2 hfmt => issue_next _ h ?sand (work h), fun h hl ht => issue_next _ h ?loadStile (work h),
    fun h hl ht => issue_next _ h ?loadHold (work h), fun h hl ht hn ha hfmt hcap => issue_next _ h ?store (work h),
    fun h hl => issue_stall _ h (if_pos hl), fun h hl => issue_stall _ h (if_pos hl), fun h hl => issue_stall _ h (if_pos hl),
    fun h hl => issue_stall _ h (if_pos hl), fun h hl => issue_stall _ h (if_pos hl), fun h hl => issue_stall _ h (if_pos hl)⟩
  case pass => exact (if_neg (room hl)).trans ((if_neg (not_not_true_of ht)).trans (if_neg (room ha)))
  case shave => exact (if_neg (room hl)).trans ((if_neg (not_not_true_of ht)).trans (if_neg (room ha)))
  case loadStile => exact (if_neg (room hl)).trans (if_neg (not_not_true_of ht))
  case loadHold => exact (if_neg (room hl)).trans (if_neg (not_not_true_of ht))
  case sand =>
    refine (if_neg (room hl)).trans ((if_neg (not_not_true_of hf)).trans ((if_neg ?_).trans (if_neg (not_not_true_of hfmt))))
    have hs : runInTiles b q src 1 t = true := hs
    have hd : runInTiles b q dst 1 t = true := hd
    show ¬ (!runInTiles b q src 1 t || !runInTiles b q dst 1 t ||
      (decide (1 ≤ func) && decide (func ≤ 5) && !runInTiles b q src2 1 t)) = true
    simp only [hs, hd, Bool.not_true, Bool.false_or, Bool.and_eq_true, decide_eq_true_eq, Bool.not_eq_true']
    rintro ⟨⟨h1, h5⟩, h0⟩
    exact absurd ((h2 h1 h5).symm.trans h0) (by decide)
  case store =>
    have hcap' : ¬ (n = 0 ∨ n * laneCount b t > fmtCapacity (getF Sl.STORE_DFMT w)) := by
      rintro (h0 | h0)
      · omega
      · exact Nat.not_lt.2 hcap h0
    refine (if_neg (room hl)).trans ((if_neg (not_not_true_of ht)).trans ((if_neg ?_).trans
      ((if_neg (not_not_true_of hfmt)).trans (if_neg hcap'))))
    rw [max_eq_left hn]
    exact Nat.not_lt.2 ha

end Sys2Proof.Proofs
end

section
/-!
How a command ends (O56): the rows test the units that a command names, and every state that passes the tests has a next one.
-/
namespace Sys2Proof.Machine

/-- The command ends in a next state, or in a fault and is ill-formed. -/
def EndsBy (ok : Bool) (o : Host.Outcome State Fault Refusal) : Prop := Completes o ∨ (ok = false ∧ ∃ f, o = .fault f)

namespace EndsBy
variable {ok p : Bool} {o : Host.Outcome State Fault Refusal} {f : Fault} {t : State}

/-- A test that a well-formed command passes. -/
theorem check (hp : ok = true → p = true) (h : EndsBy ok o) : EndsBy ok (Machine.check p f o) := by
  unfold Machine.check
  split
  · exact h
  · exact .inr ⟨Bool.eq_false_of_not_eq_true fun hok => absurd (hp hok) ‹_›, f, rfl⟩

/-- A row that names one unit. -/
theorem unit (hp : ok = true → p = true) : EndsBy ok (Machine.check p f (.next t)) := check hp (.inl ⟨t, rfl⟩)

/-- A row of a sequencer, or of a half, of a bench. -/
theorem seqRow {b q : Nat} {g : State → State} {s : State} (hb : ok = true → okBench b = true) (hq : ok = true → okSeq q = true) :
    EndsBy ok (Machine.seqRow b q g s) := check hb (unit hq)

theorem completes (h : EndsBy ok o) (hok : ok = true) : Completes o := by
  rcases h with h | ⟨h, -⟩
  · exact h
  · simp [hok] at h

theorem ill_of_fault (h : EndsBy ok o) (ho : o = .fault f) : ok = false := by
  rcases h with ⟨t, rfl⟩ | ⟨h, -⟩
  · simp at ho
  · exact h

theorem not_refused (h : EndsBy ok o) (r : Refusal) : o ≠ .refused r := by
  rcases h with ⟨t, rfl⟩ | ⟨-, f, rfl⟩ <;> simp

end EndsBy

theorem and_left_of_and {a b c : Bool} (h : (a && b && c) = true) : a = true := Bool.and_elim_left (Bool.and_elim_left h)
theorem and_mid_of_and {a b c : Bool} (h : (a && b && c) = true) : b = true := Bool.and_elim_right (Bool.and_elim_left h)

/-- Every command, by the units that its row names. -/
theorem exec_endsBy (c : Instr) (s : State) : EndsBy c.wellFormed (exec c s) := by
  cases c
  case nop | pass | passAccumulate | swap | shave | shaveComplete | sand | sandComplete | loadStile | loadHold | loadComplete | store
      | storeComplete | moveISet | moveIAdd | moveIShl | moveIGet | moveTOut | moveTIn | send | recv | recvTakeMessage | recvComplete
      | semWait | semWaitServed | semSignal | sync | syncRelease | loop | branchEq | branchNe | branchLt | branchGe | branchLtu
      | branchGeu | branchAl | halt | trap | executionPastEnd | sequencerStart =>
    exact .seqRow Bool.and_elim_left Bool.and_elim_right
  case passDispatch | shaveStart | sandStart | loadUnitBegin | storeStart | moveTComplete | scoreTileArrive =>
    exact .seqRow and_left_of_and and_mid_of_and
  case benFaultClear => exact .check Bool.and_elim_right (.unit Bool.and_elim_left)
  case benCtlWrite | benImemDataWrite | benImemDataRead | benStartGo0 | benStartGo1 | benReset | benExcFirstClear | benCheckFirstClear
      | benExcCtlWrite | benFdescDataAccess | benFloorSysWrite | benchResetSettle | promotionComplete | writebackComplete
      | flushComplete | recoverySourceTimeout | parkCopyDone | resumeCopyDone | fabPortEnable | fabPortReset | fabPortRetrain
      | fabLinkCfgWrite | identTimeout | alignLock | alignTimeout | retrainPatternDetect | retrainLock | retrainTimeout
      | downRetryExpire | fecBlockSend | replayTimerExpire | nakWaitExpire | lanePllUnlock | cbl3v3Overcurrent | cbl3v3Retry
      | collectiveSlotGranted | slotWaitTimeout | teardownSlotRelease | holdTimeout | ctxCtlStart | ctxCtlTeardown
      | detTccFirstClear | ctxReset | ctxResetComplete | dovCtxTokensWrite | irTail | crHead | intakeFetchDone | glbHifIrCfgWrite
      | glbHifCrCfgWrite | msixCoalesceExpire =>
    exact .unit id
  case tirReqEvict | tirReqFlush | tirReqUnpin | recoveryTileReceive | linkSignalDetect | identExchange | fecBlockReceive
      | laneLockLost | jobStart | teardown | resend | reattach | treeFail | abort | clamp | arrive | chunk | empty | ack | snack
      | xportSync | v2CellPacket | mark | twinMark =>
    exact .unit Bool.and_elim_left
  case tileRefetchDone | tirReqPromote | eqDone | eqTimeout => exact .unit and_left_of_and
  case klnRegisterWrite => exact .inl (by dsimp only [exec, execKlnRegisterWrite]; split <;> exact ⟨_, rfl⟩)
  all_goals exact .inl ⟨_, rfl⟩

end Sys2Proof.Machine

namespace Sys2Proof.Proofs
open Sys2Proof Sys2Proof.Machine

/-- Settles O56: every command's outcome is `next`, or a fault that names a missing unit. -/
theorem wellFormedCommandsComplete : Obligations.WellFormedCommandsComplete := by
  refine ⟨fun c s h => (exec_endsBy c s).completes h, fun c f s h => (exec_endsBy c s).ill_of_fault h,
    fun c r s => (exec_endsBy c s).not_refused r, fun b q e s hb => ?_⟩
  have h (o) : check (decide (b < 1176)) .noSuchBench o = .fault .noSuchBench := if_neg (by simpa using hb)
  exact ⟨h _, h _, h _⟩

end Sys2Proof.Proofs
end

section
/-!
Writes of a bench's registers and of the Floor's control over the bus (O15, O16).
-/
namespace Sys2Proof.Machine

/-! ## Fields of a word with a bit set -/

theorem getF_withBit_other {f g : Fld} (v : Word) (hg : g.lo + g.width ≤ 64) (h : g.lo + g.width ≤ f.lo ∨ f.lo + f.width ≤ g.lo) :
    getF g (withBit f v) = getF g v := by
  rw [getF_eq_iff]
  intro i hi
  simp only [Fld.has, Bool.and_eq_true, decide_eq_true_eq] at hi
  rw [withBit, BitVec.toNat_or, Nat.testBit_or, maskF_testBit _ _ (by omega)]
  simp only [Bool.or_eq_left_iff_imp, Bool.and_eq_true, decide_eq_true_eq]
  omega

theorem bitF_withBit_other {f g : Fld} (v : Word) (hg : g.lo + g.width ≤ 64) (h : g.lo + g.width ≤ f.lo ∨ f.lo + f.width ≤ g.lo) :
    bitF g (withBit f v) = bitF g v := by
  rw [bitF, getF_withBit_other v hg h, bitF]

theorem bitF_eq_bitAt (i : Nat) (v : Word) : bitF ⟨i, 1⟩ v = bitAt v.toNat i := by
  unfold bitF getF bitAt
  obtain h | h := Nat.mod_two_eq_zero_or_one (v.toNat / 2 ^ i) <;> simp [h]

/-- A register that VALID clears is 0 after its clear. -/
theorem clearOnValid_withBit (off : Nat) (v : Word) (s : State) : clearOnValid off (withBit ⟨63, 1⟩ v) s = wr off 0 s :=
  if_pos ((bitF_eq_bitAt 63 _).symm.trans (bitF_withBit v (by decide) (by decide)))

/-! ## The registers of a bench (R54, R522) -/

/-- A row lies outside the block of the benches, or is a register that each of the 1,176 benches has. -/
def RegRow.benOrOut (r : RegRow) : Bool :=
  decide (r.base + r.count * r.stride ≤ 0x2000000 ∧ r.base < 0x2000000) || decide (0x3000000 ≤ r.base) ||
    (decide (0x2000000 ≤ r.base) && decide (r.base < 0x2001000) && r.stride == 0x1000 && r.count == 1176)

theorem regRows_benOrOut : ∀ r ∈ regRows, r.benOrOut = true := by decide +kernel

/-- The offsets in its page of the registers of a bench. -/
def benOffsets : List Nat := (regRows.filter (fun r => 0x2000000 ≤ r.base && r.base < 0x3000000)).map (fun r => r.base - 0x2000000)

/-- A bench's register lies in its row at the bench's place. -/
theorem regRowAt_ben {b d : Nat} (hb : b < 1176) (hd : d ∈ benOffsets) :
    ∃ r, regRowAt (0x2000000 + d + b * 0x1000) = some r ∧ rowPlace r (0x2000000 + d + b * 0x1000) = b := by
  obtain ⟨own, hown, hbase⟩ := List.mem_map.1 hd
  obtain ⟨hmem, hlo, hhi⟩ : own ∈ regRows ∧ 0x2000000 ≤ own.base ∧ own.base < 0x3000000 := by simpa using hown
  have hsound := regRows_benOrOut own hmem
  simp only [RegRow.benOrOut, Bool.or_eq_true, Bool.and_eq_true, decide_eq_true_eq, beq_iff_eq] at hsound
  have hin : inRun own.base own.stride own.count (0x2000000 + d + b * 0x1000) = true := by
    obtain (h | h) | ⟨⟨⟨-, -⟩, hs⟩, hc⟩ := hsound
    · omega
    · omega
    · simp only [inRun, hs, hc, Bool.and_eq_true, decide_eq_true_eq, beq_iff_eq, if_neg (show ¬ 0x1000 = 0 by decide)]
      omega
  cases hr : regRowAt (0x2000000 + d + b * 0x1000) with
  | none => exact absurd (List.find?_eq_none.1 hr own hmem) (by simp [hin])
  | some r =>
    refine ⟨r, rfl, ?_⟩
    have hrin := List.find?_some hr
    have hrsound := regRows_benOrOut r (List.mem_of_find?_eq_some hr)
    simp only [RegRow.benOrOut, Bool.or_eq_true, Bool.and_eq_true, decide_eq_true_eq, beq_iff_eq] at hrsound
    simp only [inRun, Bool.and_eq_true, decide_eq_true_eq] at hrin
    obtain ⟨hle, hrun⟩ := hrin
    obtain (⟨h, hb⟩ | h) | ⟨⟨⟨h1, h2⟩, hs⟩, -⟩ := hrsound
    · split at hrun
      · simp only [beq_iff_eq] at hrun
        omega
      next hs =>
        simp only [Bool.and_eq_true, decide_eq_true_eq] at hrun
        have := (Nat.div_lt_iff_lt_mul (Nat.pos_of_ne_zero hs)).1 hrun.2
        omega
    · omega
    · rw [rowPlace, hs]
      simp only [hs, if_neg (show ¬ 0x1000 = 0 by decide), Bool.and_eq_true, beq_iff_eq, decide_eq_true_eq] at hrun ⊢
      omega

/-- A write of a bench's register over the bus. -/
theorem busAccess_ben {b d : Nat} (hb : b < 1176) (hd : d ∈ benOffsets) (src : Src) (v : Word) (s : State) :
    ∃ r, busAccess src (0x2000000 + d + b * 0x1000) (.write v) s = benWrite r b (0x2000000 + d + b * 0x1000) v src s := by
  obtain ⟨r, hr, hplace⟩ := regRowAt_ben hb hd
  have hlt : d < 0x1000 := (show ∀ d ∈ benOffsets, d < 0x1000 by decide +kernel) d hd
  refine ⟨r, (busWrite_at src v s hr).trans ?_⟩
  rw [regWrite, hplace]
  simp only [if_neg (show ¬ 0x2000000 + d + b * 0x1000 < 0x0100000 by omega), if_neg (show ¬ 0x2000000 + d + b * 0x1000 < 0x0200000 by omega),
    if_neg (show ¬ 0x2000000 + d + b * 0x1000 < 0x0400000 by omega), if_neg (show ¬ 0x2000000 + d + b * 0x1000 < 0x0800000 by omega),
    if_neg (show ¬ 0x2000000 + d + b * 0x1000 < 0x0C00000 by omega), if_neg (show ¬ 0x2000000 + d + b * 0x1000 < 0x1000000 by omega),
    if_neg (show ¬ 0x2000000 + d + b * 0x1000 < 0x1800000 by omega), if_neg (show ¬ 0x2000000 + d + b * 0x1000 < 0x1C00000 by omega),
    if_neg (show ¬ 0x2000000 + d + b * 0x1000 < 0x2000000 by omega), if_pos (show 0x2000000 + d + b * 0x1000 < 0x3000000 by omega)]

section
variable {b : Nat} (hb : b < 1176) (src : Src) (v : Word) (s : State)
include hb

/-- Writes of a bench's registers that VALID clears. -/
theorem busAccess_benFirst {off : Nat} (h : off ∈ [Reg.BEN_FAULT0 b, Reg.BEN_FAULT1 b, Reg.BEN_EXC_FIRST b, Reg.BEN_CHECK_FIRST b]) :
    busAccess src off (.write v) s = clearOnValid off v s := by
  obtain ⟨d, hd, rfl⟩ : ∃ d ∈ [0x10, 0x18, 0x28, 0xA0], off = 0x2000000 + d + b * 0x1000 := by
    simpa [Reg.BEN_FAULT0, Reg.BEN_FAULT1, Reg.BEN_EXC_FIRST, Reg.BEN_CHECK_FIRST] using h
  obtain ⟨r, hr⟩ := busAccess_ben hb ((show ∀ d ∈ [0x10, 0x18, 0x28, 0xA0], d ∈ benOffsets by decide +kernel) d hd) src v s
  rw [hr, benWrite, if_neg, if_pos (List.contains_iff_mem.2 h)]
  simp only [List.mem_cons, List.not_mem_nil, or_false] at hd
  unfold Reg.BEN_CTL
  omega

theorem busAccess_benStart : busAccess src (Reg.BEN_START b) (.write v) s = benStartWrite b v src s := by
  obtain ⟨r, hr⟩ := busAccess_ben hb (show 0x40 ∈ benOffsets by decide +kernel) src v s
  refine hr.trans ?_
  simp [benWrite, Reg.BEN_CTL, Reg.BEN_FAULT0, Reg.BEN_FAULT1, Reg.BEN_EXC_FIRST, Reg.BEN_CHECK_FIRST, Reg.BEN_EXC_CTL,
    Reg.BEN_IMEM_DATA, Reg.BEN_START]

theorem busAccess_benReset : busAccess src (Reg.BEN_RESET b) (.write v) s = benResetWrite b v src s := by
  obtain ⟨r, hr⟩ := busAccess_ben hb (show 0x48 ∈ benOffsets by decide +kernel) src v s
  refine hr.trans ?_
  simp [benWrite, Reg.BEN_CTL, Reg.BEN_FAULT0, Reg.BEN_FAULT1, Reg.BEN_EXC_FIRST, Reg.BEN_CHECK_FIRST, Reg.BEN_EXC_CTL,
    Reg.BEN_IMEM_DATA, Reg.BEN_START, Reg.BEN_RESET]
end

/-! ## The other registers that VALID clears, and the Floor's control (R108, R312, R378) -/

theorem busAccess_treeFailed (src : Src) (v : Word) (s : State) :
    busAccess src Reg.FAB_TREE_FAILED (.write v) s = clearOnValid Reg.FAB_TREE_FAILED v s := by
  have hr : regRowAt Reg.FAB_TREE_FAILED = some ⟨0x1120028, 0, 1, 0, 0, 0x8000000000000000, 0x7fffff, 0, 0⟩ := by decide +kernel
  rw [busWrite_at src v s hr]
  simp [regWrite, fabWrite, rowPlace, inRun, Reg.FAB_TREE_FAILED, Reg.FAB_PORT_CTL, Reg.FAB_PORT_STATUS, Reg.FAB_CUT_USED,
    Reg.FAB_LINK_CFG, Reg.FAB_JOB_CTL, Reg.FAB_START, Reg.FAB_NET_CFG, Reg.FAB_EXPECT, Reg.FAB_RANK_DATA, Reg.FAB_PLANE_DATA,
    Reg.FAB_TREE_DATA, Reg.FAB_XDESC_DATA, Reg.FAB_XPORT_CFG, Reg.FAB_CUT]

theorem busAccess_tccFirst {c : Nat} (hc : c < 16) (src : Src) (v : Word) (s : State) :
    busAccess src (Reg.DET_TCC_FIRST c) (.write v) s = clearOnValid (Reg.DET_TCC_FIRST c) v s := by
  obtain ⟨r, hr⟩ := Option.isSome_iff_exists.1
    ((show ∀ c < 16, (regRowAt (Reg.DET_TCC_FIRST c)).isSome = true by decide +kernel) c hc)
  have hrun : inRun (Reg.DET_TCC_FIRST 0) 8 16 (Reg.DET_TCC_FIRST c) = true :=
    (show ∀ c < 16, inRun (Reg.DET_TCC_FIRST 0) 8 16 (Reg.DET_TCC_FIRST c) = true by decide +kernel) c hc
  have hapart : ∀ off ∈ [Reg.DET_CLAMP_CTL, Reg.DET_CLAMP_FIRST, Reg.DET_MARK_CFG, Reg.DET_MARK_CTL], Reg.DET_TCC_FIRST c ≠ off :=
    (show ∀ c < 16, ∀ off ∈ [Reg.DET_CLAMP_CTL, Reg.DET_CLAMP_FIRST, Reg.DET_MARK_CFG, Reg.DET_MARK_CTL],
      Reg.DET_TCC_FIRST c ≠ off by decide +kernel) c hc
  simp only [List.forall_mem_cons, List.not_mem_nil, false_implies, implies_true, and_true] at hapart
  obtain ⟨h1, h2, h3, h4⟩ := hapart
  have hlo : 0x1C00000 ≤ Reg.DET_TCC_FIRST c := by unfold Reg.DET_TCC_FIRST; omega
  have hhi : Reg.DET_TCC_FIRST c < 0x2000000 := by unfold Reg.DET_TCC_FIRST; omega
  have below {n : Nat} (hn : n ≤ 0x1C00000) : ¬ Reg.DET_TCC_FIRST c < n := by omega
  rw [busWrite_at src v s hr, regWrite]
  simp only [if_neg (below (n := 0x0100000) (by decide)), if_neg (below (n := 0x0200000) (by decide)),
    if_neg (below (n := 0x0400000) (by decide)), if_neg (below (n := 0x0800000) (by decide)),
    if_neg (below (n := 0x0C00000) (by decide)), if_neg (below (n := 0x1000000) (by decide)),
    if_neg (below (n := 0x1800000) (by decide)), if_neg (below (n := 0x1C00000) (by decide)), if_pos hhi,
    detWrite, if_neg h1, if_neg h2, if_neg h3, if_neg h4, if_pos hrun]

theorem busAccess_floorCtl (src : Src) (v : Word) (s : State) :
    busAccess src Reg.GLB_FLOOR_CTL (.write v) s = floorCtlWrite v src s := by
  have hr : ∃ r, regRowAt Reg.GLB_FLOOR_CTL = some r := Option.isSome_iff_exists.1 (by decide +kernel)
  obtain ⟨r, hr⟩ := hr
  rw [busWrite_at src v s hr]
  simp [regWrite, glbWrite, Reg.GLB_FLOOR_CTL, Reg.GLB_STATE_CTL, Reg.GLB_RESET_CTL, Reg.GLB_SUPPLY, Reg.GLB_WARM_RESETS,
    Reg.GLB_BAD_FIRST]

/-- A register that VALID clears is 0 after the command that clears it, and nothing else changes. -/
theorem regRow_clears {src : Src} {off : Nat} {v : Word} {s : State} (q : Quiet s)
    (h : Reaches src off (.write (withBit ⟨63, 1⟩ v)) s)
    (e : busAccess src off (.write (withBit ⟨63, 1⟩ v)) (arrived src s) = clearOnValid off (withBit ⟨63, 1⟩ v) (arrived src s)) :
    regRow off (.write (withBit ⟨63, 1⟩ v)) src s = .next (wr off 0 (arrived src s)) :=
  regRow_reaches h (e.trans (clearOnValid_withBit ..)) ((q.arrived src).wr _ _)

/-! ## The Floor's control and its check (R108, R109) -/

theorem arrived_priv (src : Src) (s : State) : (arrived src s).priv = s.priv := by cases src <;> rfl

theorem anyRunning_arrived (src : Src) (s : State) : anyRunning (arrived src s) = anyRunning s := by
  rw [anyRunning, arrived_benches, anyRunning]

/-- The status while a check runs. -/
def floorChecking : Word := setF Fld.GLB_FLOOR_STATUS_BUSY 0 1

section
variable {v : Word} {src : Src} {s : State}

/-- A write of GLB_FLOOR_CTL that is not refused: DISARM first, then ARM. -/
theorem floorCtlWrite_taken (hset : bitF Fld.GLB_FLOOR_CTL_ARM v = true ∨ bitF Fld.GLB_FLOOR_CTL_DISARM v = true)
    (hdis : bitF Fld.GLB_FLOOR_CTL_DISARM v = true →
      bitF Fld.GLB_FLOOR_STATUS_BUSY (rd Reg.GLB_FLOOR_STATUS s) = false ∧ anyRunning s = false)
    (harm : bitF Fld.GLB_FLOOR_CTL_DISARM v = false → floorBusy s = false) :
    floorCtlWrite v src s =
      let t := if bitF Fld.GLB_FLOOR_CTL_DISARM v = true then wrF Reg.GLB_FLOOR_STATUS Fld.GLB_FLOOR_STATUS_ARMED 0 s else s
      if bitF Fld.GLB_FLOOR_CTL_ARM v = true then wr Reg.GLB_FLOOR_STATUS floorChecking t else t := by
  refine (if_neg ?_).trans (if_neg ?_)
  · rcases hset with h | h <;> simp [h]
  · cases hd : bitF Fld.GLB_FLOOR_CTL_DISARM v with
    | false => simp [harm hd]
    | true => simp [hdis hd]

/-- DISARM while a check or a sequencer runs is refused. -/
theorem floorCtlWrite_refused (hd : bitF Fld.GLB_FLOOR_CTL_DISARM v = true) (hp : s.priv = false)
    (hb : bitF Fld.GLB_FLOOR_STATUS_BUSY (rd Reg.GLB_FLOOR_STATUS s) = true ∨ anyRunning s = true) :
    floorCtlWrite v src s = refuse src Reg.GLB_FLOOR_CTL s := by
  refine (if_neg (by simp [hd])).trans (if_pos ?_)
  rcases hb with h | h <;> simp [hd, hp, h]

end

/-- The fields that the end of a check writes. -/
def floorFlds (armed result ep slot b i : Nat) : List (Fld × Nat) :=
  [(Fld.GLB_FLOOR_STATUS_ARMED, armed), (Fld.GLB_FLOOR_STATUS_RESULT, result), (Fld.GLB_FLOOR_STATUS_ENDPOINT, ep),
    (Fld.GLB_FLOOR_STATUS_SLOT, slot), (Fld.GLB_FLOOR_STATUS_BENCH, b), (Fld.GLB_FLOOR_STATUS_FDESC, i)]

/-- The status that the end of a check leaves: it is no longer busy. -/
theorem getF_floorStatus (armed result ep slot b i : Nat) : let w := floorStatus armed result ep slot b i
    getF Fld.GLB_FLOOR_STATUS_BUSY w = 0 ∧ getF Fld.GLB_FLOOR_STATUS_ARMED w = armed % 2 ∧
      getF Fld.GLB_FLOOR_STATUS_RESULT w = result % 4 ∧ getF Fld.GLB_FLOOR_STATUS_SLOT w = slot % 16 ∧
      getF Fld.GLB_FLOOR_STATUS_FDESC w = i % 1024 := by
  have hapart : (floorFlds armed result ep slot b i).Pairwise (fun p q => p.1.apart q.1) := by
    simp [floorFlds, Fld.apart]
  have h := getF_putFields_mem 0 (by simp [floorFlds]) hapart
  simp only [floorFlds, List.forall_mem_cons] at h
  obtain ⟨ha, hr, -, hs, -, hf, -⟩ := h
  refine ⟨?_, ha, hr, hs, hf⟩
  exact getF_putFields_apart (ps := floorFlds armed result ep slot b i) 0 (g := Fld.GLB_FLOOR_STATUS_BUSY) (by decide)
    (by simp [floorFlds, Fld.apart])

/-- The status that the end of a check writes, by what the check finds. -/
theorem floorCheckDone_status {s : State} (hb : bitF Fld.GLB_FLOOR_STATUS_BUSY (rd Reg.GLB_FLOOR_STATUS s) = true) :
    ∃ w, floorCheckDone s = wr Reg.GLB_FLOOR_STATUS w s ∧ getF Fld.GLB_FLOOR_STATUS_BUSY w = 0 ∧
      ((∀ p ∈ floorDescs s, fdescBad p.2.2 = false) → floorScan s (floorDescs s) [] = none →
        getF Fld.GLB_FLOOR_STATUS_ARMED w = 1 ∧ getF Fld.GLB_FLOOR_STATUS_RESULT w = 1) ∧
      (∀ b i d, (floorDescs s).find? (fun p => fdescBad p.2.2) = some (b, i, d) →
        getF Fld.GLB_FLOOR_STATUS_ARMED w = 0 ∧ getF Fld.GLB_FLOOR_STATUS_RESULT w = 3 ∧ getF Fld.GLB_FLOOR_STATUS_FDESC w = i % 1024) ∧
      (∀ b i p k, (∀ x ∈ floorDescs s, fdescBad x.2.2 = false) → floorScan s (floorDescs s) [] = some (b, i, p, k) →
        getF Fld.GLB_FLOOR_STATUS_ARMED w = 0 ∧ getF Fld.GLB_FLOOR_STATUS_RESULT w = 2 ∧ getF Fld.GLB_FLOOR_STATUS_SLOT w = k % 16) := by
  have hsound : (floorDescs s).find? (fun p => fdescBad p.2.2) = none ↔ ∀ p ∈ floorDescs s, fdescBad p.2.2 = false := by
    simp [List.find?_eq_none]
  unfold floorCheckDone
  rw [hb]
  simp only [Bool.not_true, Bool.false_eq_true, if_false]
  cases hfind : (floorDescs s).find? (fun p => fdescBad p.2.2) with
  | some x =>
    obtain ⟨b, i, d⟩ := x
    have hno : ¬ ∀ p ∈ floorDescs s, fdescBad p.2.2 = false := fun h => by simp [hsound.2 h] at hfind
    obtain ⟨h0, ha, hr, -, hf⟩ := getF_floorStatus 0 3 (getF Fld.FDESC_ENDPOINT d) 0 b i
    exact ⟨_, rfl, h0, fun h => absurd h hno, fun _ _ _ e => by cases e; exact ⟨ha, hr, hf⟩, fun _ _ _ _ h => absurd h hno⟩
  | none =>
    cases hscan : floorScan s (floorDescs s) [] with
    | some x =>
      obtain ⟨b, i, p, k⟩ := x
      obtain ⟨h0, ha, hr, hs, -⟩ := getF_floorStatus 0 2 p k b i
      exact ⟨_, rfl, h0, fun _ h => by simp at h, fun _ _ _ e => by simp at e, fun _ _ _ _ _ e => by cases e; exact ⟨ha, hr, hs⟩⟩
    | none =>
      obtain ⟨h0, ha, hr, -, -⟩ := getF_floorStatus 1 1 0 0 0 0
      exact ⟨_, rfl, h0, fun _ _ => ⟨ha, hr⟩, fun _ _ _ e => by simp at e, fun _ _ _ _ _ e => by simp at e⟩

end Sys2Proof.Machine

namespace Sys2Proof.Proofs
open Sys2Proof Sys2Proof.Machine

/-- Settles O16: the Floor's control write, then each write-one-to-clear register. -/
theorem floorArmsAndFirstRecordsClear : Obligations.FloorArmsAndFirstRecordsClear := by
  unfold Obligations.FloorArmsAndFirstRecordsClear
  refine ⟨fun v src s q => ?floor, fun b q c v src s hb hq hc hs => ?cleared⟩
  case floor =>
    intro u arm dis
    have hqu : Quiet u := q.arrived src
    have harm : bitF Fld.GLB_FLOOR_CTL_ARM arm = true := bitF_withBit v (by decide) (by decide)
    have hdis : bitF Fld.GLB_FLOOR_CTL_DISARM dis = true := bitF_withBit v (by decide) (by decide)
    have harm' : bitF Fld.GLB_FLOOR_CTL_DISARM arm = bitF Fld.GLB_FLOOR_CTL_DISARM v := bitF_withBit_other v (by decide) (by decide)
    have hdis' : bitF Fld.GLB_FLOOR_CTL_ARM dis = bitF Fld.GLB_FLOOR_CTL_ARM v := bitF_withBit_other v (by decide) (by decide)
    refine ⟨fun h hd hb => ?arm, fun h hd hb hr => ?rearm, fun h ha hb hr => ?disarm, fun h hp hr => ?refused, fun hh hd hb => ?ends⟩
    case arm =>
      refine regRow_reaches h ((busAccess_floorCtl ..).trans ?_) (hqu.wr _ _)
      refine (floorCtlWrite_taken (.inl harm) (by simp [harm', hd]) (fun _ => hb)).trans ?_
      simp [harm', hd, harm, u, floorChecking]
    case rearm =>
      refine regRow_reaches h ((busAccess_floorCtl ..).trans ?_) ((hqu.wr _ _).wr _ _)
      refine (floorCtlWrite_taken (.inl harm) (fun _ => ⟨hb, (anyRunning_arrived src s).trans hr⟩) (by simp [harm', hd])).trans ?_
      simp [harm', hd, harm, u, floorChecking]
    case disarm =>
      refine regRow_reaches h ((busAccess_floorCtl ..).trans ?_) (hqu.wr _ _)
      refine (floorCtlWrite_taken (.inr hdis) (fun _ => ⟨hb, (anyRunning_arrived src s).trans hr⟩) (by simp [hdis])).trans ?_
      simp [hdis', ha, hdis, u]
    case refused =>
      refine regRow_reaches h ((busAccess_floorCtl ..).trans ?_) (hqu.badAccess ..)
      exact floorCtlWrite_refused hdis ((arrived_priv src s).trans hp) (hr.imp_right ((anyRunning_arrived src s).trans ·))
    case ends =>
      obtain ⟨w, hw, hbusy, hsound, hbad, hclash⟩ := floorCheckDone_status hb
      refine ⟨w, ?_, hbusy, hsound, hbad, hclash⟩
      exact congrArg Host.Outcome.next ((if_neg (by simp [hh, hd])).trans hw)
  case cleared =>
    intro at' w
    refine ⟨fun h => ?fault, fun h => ?exc, fun h => ?check, fun h => ?tree, fun h => ?tcc⟩
    case fault =>
      refine (if_pos (decide_eq_true hq)).trans ((if_pos (decide_eq_true hb)).trans
        (regRow_clears hs h (busAccess_benFirst hb _ _ _ ?_)))
      unfold faultReg
      split <;> simp
    case exc => exact (if_pos (decide_eq_true hb)).trans (regRow_clears hs h (busAccess_benFirst hb _ _ _ (by simp)))
    case check => exact (if_pos (decide_eq_true hb)).trans (regRow_clears hs h (busAccess_benFirst hb _ _ _ (by simp)))
    case tree => exact regRow_clears hs h (busAccess_treeFailed ..)
    case tcc => exact (if_pos (decide_eq_true hc)).trans (regRow_clears hs h (busAccess_tccFirst hc ..))

end Sys2Proof.Proofs
end

section
/-!
Starts and resets of benches (O15): what an accepted GO bit and a reset leave.
-/
namespace Sys2Proof.Machine

/-! ## Starts (R56) -/

section
variable {b : Nat} {v : Word} {src : Src} {s : State}

/-- A bench that a reset holds accepts no GO bit. -/
theorem inReset_of_goOk {q : Nat} (h : goOk b q s = true) : inReset b s = false := by
  simp only [goOk, Bool.and_eq_true, Bool.not_eq_true'] at h
  obtain ⟨⟨⟨hr, -⟩, -⟩, -⟩ := h
  exact hr

/-- A write of BEN_START each of whose GO bits is accepted. -/
theorem benStartWrite_accepted (h0 : bitF Fld.BEN_START_GO0 v = true → goOk b 0 s = true)
    (h1 : bitF Fld.BEN_START_GO1 v = true → goOk b 1 s = true) (hr : inReset b s = false) :
    benStartWrite b v src s =
      let t := if bitF Fld.BEN_START_GO0 v = true then acceptGo b 0 (getF Fld.BEN_START_PC0 v) s else s
      if bitF Fld.BEN_START_GO1 v = true then acceptGo b 1 (getF Fld.BEN_START_PC1 v) t else t := by
  refine if_neg ?_
  cases hg0 : bitF Fld.BEN_START_GO0 v <;> cases hg1 : bitF Fld.BEN_START_GO1 v <;> simp_all

theorem goOk_arrived (q : Nat) : goOk b q (arrived src s) = goOk b q s := by
  have hsplit : split b (arrived src s) = split b s := by
    unfold split
    rw [rd_arrived src s (by unfold Reg.BEN_CTL Reg.MGT_SB_XFERS; omega) (by unfold Reg.BEN_CTL Reg.MGT_SB_STATUS; omega)]
  simp only [goOk, inReset, seqOn, hsplit, shared, benchMode, tbF, tb_of_tabs _ (arrived_tabs src s),
    seqOf_of_benches b q (arrived_benches src s), benchOf_of_benches b (arrived_benches src s)]

theorem arrived_cycle : (arrived src s).cycle = s.cycle := by cases src <;> rfl
theorem arrived_sram : (arrived src s).sram = s.sram := by cases src <;> rfl

end

theorem acceptGo_col (b q pc : Nat) (s : State) : (acceptGo b q pc s).col = s.col := setSeq_col ..
theorem acceptGo_work (b q pc : Nat) (s : State) : (acceptGo b q pc s).work = s.work := setSeq_work ..
@[simp] theorem acceptGo_cycle (b q pc : Nat) (s : State) : (acceptGo b q pc s).cycle = s.cycle := setSeq_cycle ..
@[simp] theorem acceptGo_tabs (b q pc : Nat) (s : State) : (acceptGo b q pc s).tabs = s.tabs := setSeq_tabs ..
theorem seqOf_acceptGo (b q pc : Nat) (s : State) : (seqOf b q (acceptGo b q pc s)).startReq = some (pc, frameAfter s.cycle) :=
  congrArg Seq.startReq (seqOf_setSeq_same ..)
theorem seqOf_acceptGo_other {b p q : Nat} (pc : Nat) (s : State) (h : p = 0 ↔ q ≠ 0) : seqOf b p (acceptGo b q pc s) = seqOf b p s :=
  seqOf_setSeq_other _ _ _ _ (.inr h)

/-- The state that the GO bits of a write leave. -/
def goAccepted (b : Nat) (v : Word) (s : State) : State :=
  let t := if bitF Fld.BEN_START_GO0 v = true then acceptGo b 0 (getF Fld.BEN_START_PC0 v) s else s
  if bitF Fld.BEN_START_GO1 v = true then acceptGo b 1 (getF Fld.BEN_START_PC1 v) t else t

section
variable {b : Nat} {v : Word} {s : State}

theorem goAccepted_frame : (goAccepted b v s).work = s.work ∧ (goAccepted b v s).col = s.col ∧ (goAccepted b v s).cycle = s.cycle ∧
    (goAccepted b v s).tabs = s.tabs := by
  unfold goAccepted
  dsimp only
  split <;> split <;> simp [acceptGo_work, acceptGo_col]

/-- An accepted GO0 starts sequencer 0 at the next frame start, and without GO1 leaves sequencer 1 alone. -/
theorem goAccepted_seq0 (h : bitF Fld.BEN_START_GO0 v = true) :
    (seqOf b 0 (goAccepted b v s)).startReq = some (getF Fld.BEN_START_PC0 v, frameAfter s.cycle) ∧
      (bitF Fld.BEN_START_GO1 v = false → seqOf b 1 (goAccepted b v s) = seqOf b 1 s) := by
  unfold goAccepted
  rw [if_pos h]
  constructor
  · dsimp only
    split
    · rw [seqOf_acceptGo_other _ _ (by decide), seqOf_acceptGo]
    · exact seqOf_acceptGo ..
  · intro h1
    simp only [h1, Bool.false_eq_true, if_false]
    exact seqOf_acceptGo_other _ _ (by decide)

theorem goAccepted_seq1 (h : bitF Fld.BEN_START_GO1 v = true) :
    (seqOf b 1 (goAccepted b v s)).startReq = some (getF Fld.BEN_START_PC1 v, frameAfter s.cycle) ∧
      (bitF Fld.BEN_START_GO0 v = false → seqOf b 0 (goAccepted b v s) = seqOf b 0 s) := by
  unfold goAccepted
  rw [if_pos h]
  constructor
  · rw [seqOf_acceptGo]
    split <;> simp
  · intro h0
    simp only [h0, Bool.false_eq_true, if_false]
    exact seqOf_acceptGo_other _ _ (by decide)
end

/-- A write of BEN_START each of whose GO bits is accepted, over the bus. -/
theorem benchReg_start {b : Nat} {v : Word} {src : Src} {s : State} (hb : b < 1176) (q : Quiet s)
    (h : Reaches src (Reg.BEN_START b) (.write v) s) (h0 : bitF Fld.BEN_START_GO0 v = true → goOk b 0 s = true)
    (h1 : bitF Fld.BEN_START_GO1 v = true → goOk b 1 s = true) (hr : inReset b s = false) :
    benchReg b (Reg.BEN_START b) (.write v) src s = .next (goAccepted b v (arrived src s)) := by
  obtain ⟨hw, hc, -, -⟩ := goAccepted_frame (b := b) (v := v) (s := arrived src s)
  refine (if_pos (decide_eq_true hb)).trans (regRow_reaches h ((busAccess_benStart hb ..).trans ?_) ((q.arrived src).of_frame hw hc))
  refine benStartWrite_accepted (fun k => (goOk_arrived 0).trans (h0 k)) (fun k => (goOk_arrived 1).trans (h1 k)) ?_
  rw [inReset, benchOf_of_benches b (arrived_benches src s)]
  exact hr

/-! ## Resets (R87, R434) -/

/-- The bench that a reset leaves until its time has passed. -/
def benchHeld (b : Nat) (s : State) : Bench :=
  { Bench.reset with
    seq0 := { Seq.reset with pc := (benchOf b s).seq0.pc, po := (benchOf b s).seq0.po }
    seq1 := { Seq.reset with pc := (benchOf b s).seq1.pc, po := (benchOf b s).seq1.po }
    resetDue := some (s.cycle + 1536) }

/-- The state with the bench's memory cleared and its parts at reset; the registers are left out. -/
def benchCleared (b : Nat) (s : State) : State :=
  setBench b (benchHeld b s) { s with
    sram := s.sram.filter (fun p => !(btKey b 0 * 4096 ≤ p.1 && p.1 < btKey (b + 1) 0 * 4096))
    stags := s.stags.filter (fun p => !(btKey b 0 ≤ p.1 && p.1 < btKey (b + 1) 0))
    sbad := s.sbad.filter (fun k => !(btKey b 0 ≤ k && k < btKey (b + 1) 0)) }

/-- Clearing registers writes no other part of the state. -/
theorem foldl_wr_regs (l : List Nat) (s : State) : ∃ regs, l.foldl (fun s r => wr r 0 s) s = { s with regs := regs } := by
  induction l generalizing s with
  | nil => exact ⟨s.regs, rfl⟩
  | cons r l ih =>
    obtain ⟨regs, e⟩ := ih (wr r 0 s)
    exact ⟨regs, e⟩

theorem rd_foldl_wr_other {l : List Nat} {k : Nat} (h : k ∉ l) (s : State) : rd k (l.foldl (fun s r => wr r 0 s) s) = rd k s := by
  induction l generalizing s with
  | nil => rfl
  | cons r l ih =>
    rw [List.mem_cons, not_or] at h
    exact (ih h.2 _).trans (rd_wr_other _ _ h.1)

section
variable (b : Nat) (s : State)

theorem resetBench_regs : ∃ regs, resetBench b s = { benchCleared b s with regs := regs } := foldl_wr_regs _ (benchCleared b s)

@[simp] theorem benchOf_resetBench_same : benchOf b (resetBench b s) = benchHeld b s := by
  obtain ⟨regs, e⟩ := resetBench_regs b s
  rw [e]
  exact benchOf_setBench_same ..

theorem benchOf_resetBench_other {x : Nat} (h : x ≠ b) : benchOf x (resetBench b s) = benchOf x s := by
  obtain ⟨regs, e⟩ := resetBench_regs b s
  rw [e]
  exact benchOf_setBench_other _ _ h

@[simp] theorem resetBench_cycle : (resetBench b s).cycle = s.cycle := by obtain ⟨regs, e⟩ := resetBench_regs b s; rw [e]; rfl
@[simp] theorem resetBench_work : (resetBench b s).work = s.work := by obtain ⟨regs, e⟩ := resetBench_regs b s; rw [e]; rfl
@[simp] theorem resetBench_col : (resetBench b s).col = s.col := by obtain ⟨regs, e⟩ := resetBench_regs b s; rw [e]; rfl
theorem resetBench_sram : (resetBench b s).sram =
    s.sram.filter (fun p => !(btKey b 0 * 4096 ≤ p.1 && p.1 < btKey (b + 1) 0 * 4096)) := by
  obtain ⟨regs, e⟩ := resetBench_regs b s; rw [e]; rfl
theorem resetBench_stags : (resetBench b s).stags = s.stags.filter (fun p => !(btKey b 0 ≤ p.1 && p.1 < btKey (b + 1) 0)) := by
  obtain ⟨regs, e⟩ := resetBench_regs b s; rw [e]; rfl

/-- A reset clears the bytes of its bench. -/
theorem memByte_resetBench_in {a : Nat} (h : btKey b 0 * 4096 ≤ a ∧ a < btKey (b + 1) 0 * 4096) :
    memByte (resetBench b s).sram a = 0 := by
  rw [memByte, smGet, resetBench_sram, find_filter_out s.sram (fun a => !(btKey b 0 * 4096 ≤ a && a < btKey (b + 1) 0 * 4096)) a (by simp [h])]

/-- A reset leaves the bytes of the other benches. -/
theorem memByte_resetBench_out {a : Nat} (h : a < btKey b 0 * 4096 ∨ btKey (b + 1) 0 * 4096 ≤ a) :
    memByte (resetBench b s).sram a = memByte s.sram a := by
  have hk : (!(btKey b 0 * 4096 ≤ a && a < btKey (b + 1) 0 * 4096)) = true := by
    simp only [Bool.not_eq_true', Bool.and_eq_false_iff, decide_eq_false_iff_not]
    omega
  rw [memByte, smGet, resetBench_sram, find_filter_key s.sram (fun a => !(btKey b 0 * 4096 ≤ a && a < btKey (b + 1) 0 * 4096)) a hk]
  rfl

/-- A reset leaves its bench's tiles with the tag of reset. -/
theorem benchTag_resetBench {x : Nat} (h : x < 384) : benchTag b x (resetBench b s) = blankTag := by
  have hk : (!(btKey b 0 ≤ btKey b x && btKey b x < btKey (b + 1) 0)) = false := by
    have h1 : btKey b 0 ≤ btKey b x := by unfold btKey; omega
    have h2 : btKey b x < btKey (b + 1) 0 := by unfold btKey; omega
    simp [h1, h2]
  rw [benchTag, smGet, resetBench_stags, find_filter_out s.stags (fun k => !(btKey b 0 ≤ k && k < btKey (b + 1) 0)) _ hk]

/-- A reset writes no register but those of its bench. -/
theorem rd_resetBench {k : Nat} (h : k < 0x2000000) : rd k (resetBench b s) = rd k s := by
  refine rd_foldl_wr_other (fun hk => ?_) (benchCleared b s)
  simp only [Reg.BEN_FAULT0, Reg.BEN_FAULT1, Reg.BEN_EXC_FIRST, Reg.BEN_CHECK_FIRST, Reg.BEN_CYCLE_COUNT, Reg.BEN_PASS_COUNT,
    Reg.BEN_ROW_BUSY, Reg.BEN_SHAVE_BUSY, Reg.BEN_SAND_BUSY, Reg.BEN_SRAM_ECC_CORR, Reg.BEN_TILE_CHECK_FAIL,
    Reg.BEN_TILE_REFETCH, Reg.BEN_IMEM_ADDR, Reg.BEN_FDESC_ADDR, List.mem_cons, List.not_mem_nil, or_false] at hk
  omega
end

/-- The state that an accepted BEN_RESET leaves: it counts, and begins or waits for the units. -/
def resetAccepted (b : Nat) (s : State) : State :=
  if ((sideOf b 0 s).quiet && (sideOf b 1 s).quiet) = true then resetBench b (bump Reg.GLB_BENCH_RESETS s)
  else setBench b { benchOf b s with resetWait := true } (bump Reg.GLB_BENCH_RESETS s)

theorem benResetWrite_accepted {b : Nat} {v : Word} {src : Src} {s : State} (hv : bitF Fld.BEN_RESET_RESET v = true)
    (hr : inReset b s = false) (hw : (benchOf b s).resetWait = false) (hst : benchStopped b s = true)
    (hc : benchCtxsIdle b s = true) (hm : benchMapped b s = false) : benResetWrite b v src s = resetAccepted b s :=
  (if_neg (by simp [hv])).trans (if_neg (by simp [hr, hw, hst, hc, hm]))

section
variable (b : Nat) (s : State)

theorem resetAccepted_frame : (resetAccepted b s).work = s.work ∧ (resetAccepted b s).col = s.col := by
  unfold resetAccepted
  split <;> simp

theorem rd_resetAccepted : rd Reg.GLB_BENCH_RESETS (resetAccepted b s) = rd Reg.GLB_BENCH_RESETS s + 1 := by
  unfold resetAccepted
  split
  · rw [rd_resetBench _ _ (by decide), rd_bump_same]
  · exact rd_bump_same ..

theorem benchOf_resetAccepted_other {x : Nat} (h : x ≠ b) : benchOf x (resetAccepted b s) = benchOf x s := by
  unfold resetAccepted
  split
  · exact benchOf_resetBench_other b _ h
  · exact benchOf_setBench_other _ _ h

theorem memByte_resetAccepted_out {a : Nat} (h : a < btKey b 0 * 4096 ∨ btKey (b + 1) 0 * 4096 ≤ a) :
    memByte (resetAccepted b s).sram a = memByte s.sram a := by
  unfold resetAccepted
  split
  · exact memByte_resetBench_out b _ h
  · rfl

/-- What the bench itself is after an accepted BEN_RESET. -/
theorem resetAccepted_bench : let t := resetAccepted b s
    if (sideOf b 0 s).quiet && (sideOf b 1 s).quiet then
      (benchOf b t).resetDue = some (s.cycle + 1536) ∧ (benchOf b t).side0 = Side.empty ∧ (benchOf b t).side1 = Side.empty ∧
      (∀ a, btKey b 0 * 4096 ≤ a → a < btKey (b + 1) 0 * 4096 → memByte t.sram a = 0)
    else (benchOf b t).resetWait = true ∧ t.sram = s.sram := by
  intro t
  split
  next h =>
    have ht : t = resetBench b (bump Reg.GLB_BENCH_RESETS s) := if_pos h
    simp only [ht, benchOf_resetBench_same]
    exact ⟨rfl, rfl, rfl, fun a h1 h2 => memByte_resetBench_in b _ ⟨h1, h2⟩⟩
  next h =>
    have ht : t = setBench b { benchOf b s with resetWait := true } (bump Reg.GLB_BENCH_RESETS s) := if_neg h
    rw [ht]
    exact ⟨congrArg Bench.resetWait (benchOf_setBench_same ..), rfl⟩

/-- A command of a bench while the units run, that leaves nothing to settle. -/
theorem benchRow_next {b : Nat} {s t : State} (f : State → State) (hb : b < 1176) (h : runs s = true) (e : f s = t)
    (w : t.work = []) : benchRow b f s = .next t := by
  refine (if_pos (decide_eq_true hb)).trans (congrArg _ ((if_pos h).trans ?_))
  rw [e, settle_quiet t w]

/-- The end of the reset that holds a bench. -/
def benchFreed (b : Nat) (s : State) : State :=
  match (benchOf b s).resetDue with
  | none => s
  | some c => setBench b { benchOf b (advanceTo c s) with resetDue := none } (advanceTo c s)

theorem benchSettle_eq_freed : benchSettle b s =
    benchFreed b (if (benchOf b s).resetWait && (benchOf b s).side0.quiet && (benchOf b s).side1.quiet then resetBench b s else s) := by
  unfold benchSettle benchFreed
  rfl

theorem benchFreed_due {c : Nat} {x : Bench} (hx : benchOf b s = x) (hd : x.resetDue = some c) :
    benchFreed b s = setBench b { x with resetDue := none } (advanceTo c s) := by
  subst hx
  simp [benchFreed, hd]

/-- A bench stored at a later cycle. -/
theorem setBench_advanceTo (x : Bench) (c : Nat) : let t := setBench b x (advanceTo c s)
    t.cycle = max s.cycle c ∧ benchOf b t = x ∧ t.sram = s.sram ∧ t.stags = s.stags ∧ ∀ y, y ≠ b → benchOf y t = benchOf y s :=
  ⟨rfl, benchOf_setBench_same .., rfl, rfl, fun _ h => benchOf_setBench_other _ _ h⟩

/-- A bench leaves the reset that holds it when its time has passed. -/
theorem benchSettle_leaves {c : Nat} (hw : (benchOf b s).resetWait = false) (hd : (benchOf b s).resetDue = some c) :
    benchSettle b s = setBench b { benchOf b s with resetDue := none } (advanceTo c s) := by
  rw [benchSettle_eq_freed, if_neg (by simp [hw])]
  exact benchFreed_due b s rfl hd

/-- A reset that waited for the units begins, and its time passes. -/
theorem benchSettle_begins (hw : (benchOf b s).resetWait = true) (h0 : (benchOf b s).side0.quiet = true)
    (h1 : (benchOf b s).side1.quiet = true) : benchSettle b s =
      setBench b { benchHeld b s with resetDue := none } (advanceTo (s.cycle + 1536) (resetBench b s)) := by
  rw [benchSettle_eq_freed, if_pos (by simp [hw, h0, h1])]
  exact benchFreed_due b _ (benchOf_resetBench_same b s) rfl
end

end Sys2Proof.Machine

namespace Sys2Proof.Proofs
open Sys2Proof Sys2Proof.Machine

/-- Settles O15: the writes of BEN_START and BEN_RESET, then a reset's end and its beginning. -/
theorem benchStartsAndResetsComplete : Obligations.BenchStartsAndResetsComplete := by
  refine ⟨fun b v src s hb q => ?_, fun b s hb hr hw => ⟨fun c hn hd => ?leaves, fun hn h0 h1 => ?begins⟩⟩
  · intro u go0 go1 res
    have hu : u.benches = s.benches := arrived_benches src s
    refine ⟨fun h ok0 ok1 => ⟨goAccepted b go0 u, ?go0, ?_⟩, fun h ok1 ok0 => ⟨goAccepted b go1 u, ?go1, ?_⟩,
      fun h hin hwait hstop hctx hmap => ⟨resetAccepted b u, ?reset, ?_⟩⟩
    case go0 =>
      have hgo1 : bitF Fld.BEN_START_GO1 go0 = bitF Fld.BEN_START_GO1 v := bitF_withBit_other v (by decide) (by decide)
      exact benchReg_start hb q h (fun _ => ok0) (fun k => ok1 (hgo1.symm.trans k)) (inReset_of_goOk ok0)
    case go1 =>
      have hgo0 : bitF Fld.BEN_START_GO0 go1 = bitF Fld.BEN_START_GO0 v := bitF_withBit_other v (by decide) (by decide)
      exact benchReg_start hb q h (fun k => ok0 (hgo0.symm.trans k)) (fun _ => ok1) (inReset_of_goOk ok1)
    case reset =>
      obtain ⟨hwork, hcol⟩ := resetAccepted_frame b u
      refine (if_pos (decide_eq_true hb)).trans
        (regRow_reaches h ((busAccess_benReset hb ..).trans ?_) ((q.arrived src).of_frame hwork hcol))
      refine benResetWrite_accepted (bitF_withBit v (by decide) (by decide)) ?_ ?_ ?_ hctx hmap
      · rw [inReset, benchOf_of_benches b hu]
        exact hin
      · rw [benchOf_of_benches b hu]
        exact hwait
      · rw [benchStopped, benchOf_of_benches b hu]
        exact hstop
    · obtain ⟨hstart, hother⟩ := goAccepted_seq0 (b := b) (s := u) (v := go0) (bitF_withBit v (by decide) (by decide))
      obtain ⟨-, -, hcycle, htabs⟩ := goAccepted_frame (b := b) (v := go0) (s := u)
      have hpc : getF Fld.BEN_START_PC0 go0 = getF Fld.BEN_START_PC0 v := getF_withBit_other v (by decide) (by decide)
      have hgo1 : bitF Fld.BEN_START_GO1 go0 = bitF Fld.BEN_START_GO1 v := bitF_withBit_other v (by decide) (by decide)
      rw [hstart, hpc, hcycle, htabs, show u.cycle = s.cycle from arrived_cycle]
      exact ⟨rfl, fun h1 => (hother (hgo1.trans h1)).trans (seqOf_of_benches b 1 hu), rfl, arrived_tabs src s⟩
    · obtain ⟨hstart, hother⟩ := goAccepted_seq1 (b := b) (s := u) (v := go1) (bitF_withBit v (by decide) (by decide))
      obtain ⟨-, -, hcycle, htabs⟩ := goAccepted_frame (b := b) (v := go1) (s := u)
      have hpc : getF Fld.BEN_START_PC1 go1 = getF Fld.BEN_START_PC1 v := getF_withBit_other v (by decide) (by decide)
      have hgo0 : bitF Fld.BEN_START_GO0 go1 = bitF Fld.BEN_START_GO0 v := bitF_withBit_other v (by decide) (by decide)
      rw [hstart, hpc, hcycle, htabs, show u.cycle = s.cycle from arrived_cycle]
      exact ⟨rfl, fun h0 => (hother (hgo0.trans h0)).trans (seqOf_of_benches b 0 hu), rfl, arrived_tabs src s⟩
    · have hsram : u.sram = s.sram := arrived_sram
      have hbench := resetAccepted_bench b u
      rw [sideOf_of_benches b 0 hu, sideOf_of_benches b 1 hu, show u.cycle = s.cycle from arrived_cycle, hsram] at hbench
      exact ⟨rd_resetAccepted b u, hbench,
        fun x hx => (benchOf_resetAccepted_other b u hx).trans (benchOf_of_benches x hu),
        fun a ha => (memByte_resetAccepted_out b u ha).trans (congrArg (memByte · a) hsram)⟩
  case leaves => exact benchRow_next _ hb hr (benchSettle_leaves b s hn hd) hw
  case begins =>
    obtain ⟨hcycle, hbench, hsram, hstags, hother⟩ :=
      setBench_advanceTo b (resetBench b s) { benchHeld b s with resetDue := none } (s.cycle + 1536)
    have hexec := benchRow_next _ hb hr (benchSettle_begins b s hn h0 h1) ((resetBench_work b s).trans hw)
    generalize setBench b { benchHeld b s with resetDue := none } (advanceTo (s.cycle + 1536) (resetBench b s)) = t at *
    refine ⟨t, hexec, ?_⟩
    rw [hcycle, seqOf, seqOf, hbench, hsram, resetBench_cycle]
    refine ⟨max_eq_right (Nat.le_add_right ..), rfl, rfl, rfl, rfl, rfl, rfl, fun k => rfl, fun x hx => ?_,
      fun a h1 h2 => memByte_resetBench_in b s ⟨h1, h2⟩, fun x hx => (hother x hx).trans (benchOf_resetBench_other b s hx),
      fun a ha => memByte_resetBench_out b s ha⟩
    rw [benchTag, hstags]
    exact benchTag_resetBench b s hx

end Sys2Proof.Proofs
end

section
/-!
Starts that take effect and the ends of waits (O9): SYNC, SEM.WAIT and RECV.
-/
namespace Sys2Proof.Machine

/-! ## Moving on past an instruction (R40, R42) -/

@[simp] theorem Seq.setIndex_st (x : Seq) (k v : Nat) : (x.setIndex k v).st = x.st := by unfold Seq.setIndex; split <;> rfl
@[simp] theorem Seq.setIndex_blocked (x : Seq) (k v : Nat) : (x.setIndex k v).blocked = x.blocked := by
  unfold Seq.setIndex; split <;> rfl

/-- A return to the start of a loop, or its exit, leaves the sequencer's state. -/
theorem loopReturn_st (pc : Nat) (l : List LoopFrame) (x : Seq) :
    (loopReturn pc l x).2.st = x.st ∧ (loopReturn pc l x).2.blocked = x.blocked := by
  induction l generalizing x with
  | nil => exact ⟨rfl, rfl⟩
  | cons f fs ih =>
    rw [loopReturn]
    split
    · dsimp only
      split
      · simp
      · obtain ⟨hst, hb⟩ := ih ((x.setIndex f.xa (wrap32 (x.index f.xa + f.sa))).setIndex f.xb
          (wrap32 ((x.setIndex f.xa (wrap32 (x.index f.xa + f.sa))).index f.xb + f.sb)))
        exact ⟨hst.trans (by simp), hb.trans (by simp)⟩
    · exact ⟨rfl, rfl⟩

@[simp] theorem Seq.next_st (x : Seq) : x.next.st = x.st := (loopReturn_st x.pc x.loops x).1
@[simp] theorem Seq.next_blocked (x : Seq) : x.next.blocked = x.blocked := (loopReturn_st x.pc x.loops x).2

theorem Seq.index_setIndex_same (x : Seq) {k : Nat} (v : Nat) (h : k ≠ 0) : (x.setIndex k v).index k = v % 2 ^ 32 := by
  rw [Seq.setIndex, if_neg h, Seq.index, if_neg h]
  exact smGet_smPut_same ..

section
variable (b q : Nat) (f : Seq → Seq) (s : State)
@[simp] theorem resume_cycle : (resume b q f s).cycle = s.cycle := setSeq_cycle ..
@[simp] theorem resume_work : (resume b q f s).work = s.work := setSeq_work ..
@[simp] theorem resume_tabs : (resume b q f s).tabs = s.tabs := setSeq_tabs ..
@[simp] theorem resume_sram : (resume b q f s).sram = s.sram := setSeq_sram ..
@[simp] theorem resume_ruril : (resume b q f s).ruril = s.ruril := setSeq_ruril ..
@[simp] theorem sideOf_resume (a p : Nat) : sideOf a p (resume b q f s) = sideOf a p s := sideOf_setSeq ..
theorem seqOf_resume : seqOf b q (resume b q f s) = (f { seqOf b q s with st := .run, blocked := .no, free := s.cycle + 1, left := 2 }).next :=
  seqOf_setSeq_same ..
/-- A sequencer that was blocked runs on. -/
theorem resume_runs : (seqOf b q (resume b q id s)).st = .run ∧ (seqOf b q (resume b q id s)).blocked = .no := by
  rw [seqOf_resume]
  exact ⟨Seq.next_st _, Seq.next_blocked _⟩
end

/-! ## Starts (R39, R56) -/

/-- A sequencer from a start at `pc` in cycle `c`. -/
def Seq.started (x : Seq) (pc c : Nat) : Seq :=
  { x with st := .run, pc := pc, idx := [], loops := [], blocked := .no, swaps := [], startReq := none, free := c, left := 2 }

theorem seqStart_takes {b q pc c : Nat} {s : State} (hr : (seqOf b q s).startReq = some (pc, c)) (hq : (sideOf b q s).quiet = true)
    (hin : inReset b s = false) (hg : glueHeld b q s = false) :
    seqStart b q s =
      let u := wr (faultReg b q) 0 (advanceTo (if s.cycle ≤ c then c else frameFrom s.cycle) s)
      setSeq b q ((seqOf b q s).started pc u.cycle) u := by
  simp only [seqStart, hr]
  exact if_neg (by simp [hq, hin, hg])

/-! ## SEM.WAIT (R360, R361) -/

section
variable (c kind : Nat) (s : State)
theorem tcc_regs : ∃ regs, tcc c kind s = { s with regs := regs } := by
  unfold tcc
  dsimp only
  split <;> exact ⟨_, rfl⟩
end

/-- What a served SEM.WAIT writes of its semaphore. -/
def semServed (n num c : Nat) (s : State) : Word :=
  if semLock n s then setF Fld.SEM_HOLDER (setF Fld.SEM_HELD (setF Fld.SEM_VALUE (semEntry n s) 0) 1) c
  else setF Fld.SEM_VALUE (semEntry n s) (semValue n s - num)

/-- A SEM.WAIT that is served writes its semaphore's entry, and the sequencer runs on at the frame start. -/
theorem semServe_served {b q n num since : Nat} {s : State} (hb : (seqOf b q s).blocked = .semWait n num since)
    (hv : num ≤ semValue n s) (he : earlierWaiter b q n s = false) (hg : glueHeld b q s = false) :
    ∃ u, semServe b q s = resume b q id u ∧ u.cycle = max s.cycle (frameFrom (max s.cycle (since + 1))) ∧ u.benches = s.benches ∧
      (∀ k, tb k u = if k = Tab.SEM n then semServed n num ((ctxOf b q s).getD 0) s else tb k s) ∧ u.work = s.work ∧
      u.sram = s.sram ∧ u.ruril = s.ruril := by
  have hopen : ¬ (decide (semValue n s < num) || earlierWaiter b q n s || glueHeld b q s) = true := by
    simp [Nat.not_lt.2 hv, he, hg]
  have htb {w : Word} {t : State} (ht : t.tabs = s.tabs) (k : Nat) :
      tb k (tbW (Tab.SEM n) w t) = if k = Tab.SEM n then w else tb k s := by
    split
    next h => rw [h, tb_tbW_same]
    next h => rw [tb_tbW_other _ _ h, tb_of_tabs _ ht]
  simp only [semServe, hb]
  rw [if_neg hopen]
  cases hl : semLock n s with
  | true =>
    have hl' : semLock n (advanceTo (frameFrom (max s.cycle (since + 1))) s) = true := hl
    simp only [semServed, hl, hl', if_true]
    split
    · obtain ⟨regs, e⟩ := tcc_regs ((ctxOf b q (advanceTo (frameFrom (max s.cycle (since + 1))) s)).getD 0) 6
        (advanceTo (frameFrom (max s.cycle (since + 1))) s)
      rw [e]
      exact ⟨_, rfl, rfl, rfl, htb rfl, rfl, rfl, rfl⟩
    · exact ⟨_, rfl, rfl, rfl, htb rfl, rfl, rfl, rfl⟩
  | false =>
    have hl' : semLock n (advanceTo (frameFrom (max s.cycle (since + 1))) s) = false := hl
    simp only [semServed, hl, hl', Bool.false_eq_true, if_false]
    exact ⟨_, rfl, rfl, rfl, htb rfl, rfl, rfl, rfl⟩

/-! ## RECV (R215, R286) -/

section
variable (b q tile chunk : Nat) (x : Tile) (charged : Option Nat) (s : State)
@[simp] theorem bookLand_benches : (bookLand b q tile chunk x charged s).benches = s.benches := rfl
@[simp] theorem bookLand_tabs : (bookLand b q tile chunk x charged s).tabs = s.tabs := rfl
@[simp] theorem bookLand_sram : (bookLand b q tile chunk x charged s).sram = s.sram := rfl
@[simp] theorem bookLand_work : (bookLand b q tile chunk x charged s).work = s.work := rfl
end

theorem setMsg_eq (m : RxMsg) (s : State) : ∃ f, setMsg m s = setX f s := by unfold setMsg; split <;> exact ⟨_, rfl⟩

/-- Booking the landings of the chunks held leaves the benches, the tables and the tiles. -/
theorem foldl_bookLand_frame (b q tile ctx : Nat) (l : List (Nat × Tile × Bool)) (s : State) :
    let t := l.foldl (fun s h => bookLand b q tile h.1 h.2.1 (if h.2.2 then some ctx else none) s) s
    t.benches = s.benches ∧ t.tabs = s.tabs ∧ t.sram = s.sram ∧ t.work = s.work := by
  induction l generalizing s with
  | nil => exact ⟨rfl, rfl, rfl, rfl⟩
  | cons h l ih =>
    obtain ⟨hb, ht, hs, hw⟩ := ih (bookLand b q tile h.1 h.2.1 (if h.2.2 then some ctx else none) s)
    exact ⟨hb, ht, hs, hw⟩

/-- A RECV that takes a message that fits is charged with it, and the chunks held are booked. -/
theorem recvTake_takes {b q : Nat} {r : RecvOp} {m : RxMsg} {s : State} (hb : (seqOf b q s).blocked = .recv r) (ht : r.taken = false)
    (hk : xdKind r.desc s ≠ 1) (hm : msgToTake r s = some m) (hn : m.nchunk ≤ r.maxt)
    (hr : runInTiles b q r.tile (max m.nchunk 1) s = true) :
    ∃ t, recvTake b q s = t ∧ seqOf b q t =
        ({ seqOf b q s with blocked := .recv { r with taken := true, nchunk := m.nchunk } } : Seq).setIndex r.xr m.nchunk ∧
      t.sram = s.sram ∧ t.tabs = s.tabs ∧ t.work = s.work := by
  refine ⟨_, rfl, ?_⟩
  simp only [recvTake, hb]
  rw [if_neg (by simp [ht, hk]), hm]
  simp only
  rw [if_neg (Nat.not_lt.2 hn), if_neg (by simp [hr])]
  obtain ⟨f, e⟩ := setMsg_eq { m with held := [], taker := some (b, q) }
    (setSeq b q (({ seqOf b q s with blocked := .recv { r with taken := true, nchunk := m.nchunk } } : Seq).setIndex r.xr m.nchunk) s)
  rw [e]
  obtain ⟨hbench, htabs, hsram, hwork⟩ := foldl_bookLand_frame b q r.tile m.ctx m.held (setX f
    (setSeq b q (({ seqOf b q s with blocked := .recv { r with taken := true, nchunk := m.nchunk } } : Seq).setIndex r.xr m.nchunk) s))
  refine ⟨?_, hsram.trans (setSeq_sram ..), htabs.trans (setSeq_tabs ..), hwork.trans (setSeq_work ..)⟩
  exact (seqOf_of_benches b q hbench).trans (seqOf_setSeq_same ..)

/-- A RECV whose chunks have all landed ends at a frame start. -/
theorem recvDone_done {b q : Nat} {r : RecvOp} {s : State} (hb : (seqOf b q s).blocked = .recv r) (hw : recvWhole r = true)
    (hg : glueHeld b q s = false) : ∃ u, recvDone b q s = resume b q id u ∧ u.cycle = max s.cycle (frameFrom s.cycle) ∧
      u.sram = s.sram ∧ u.tabs = s.tabs ∧ u.work = s.work := by
  simp only [recvDone, hb]
  rw [if_neg (by simp [hw, hg])]
  split
  · exact ⟨_, rfl, rfl, rfl, rfl, rfl⟩
  · exact ⟨_, rfl, rfl, rfl, rfl, rfl⟩

/-- A RECV on a whole inbox that fits ends at a frame start with its rows counted. -/
theorem inboxRecv_done {b q : Nat} {r : RecvOp} {x : DovX} {e : DovEnt} {s : State} (hb : (seqOf b q s).blocked = .recv r)
    (hk : xdKind r.desc s = 1) (he : entNow (xdLocal r.desc s) s = some (x, e)) (hx : x.final = true) (hl : e.left = some 0)
    (hg : glueHeld b q s = false) (hn : e.rows.length ≤ r.maxt) : inboxRecv b q s =
      resume b q (fun z => z.setIndex r.xr (e.rows.length + b2n e.promoted * 2 ^ 31)) (advanceTo (frameFrom s.cycle) s) := by
  simp only [inboxRecv, hb]
  rw [if_neg (by simp [hk]), he]
  exact (if_neg (by simp [hx, hl, hg])).trans (if_neg (Nat.not_lt.2 hn))

end Sys2Proof.Machine

namespace Sys2Proof.Proofs
open Sys2Proof Sys2Proof.Machine

/-- Settles O9: a start, then each blocked instruction's end as a resumption of its sequencer. -/
theorem sequencerStartsAndWaitsComplete : Obligations.SequencerStartsAndWaitsComplete := by
  refine ⟨fun b q pc c s ha hreq hquiet hin hg => ?start, fun b q s => ⟨fun mask po marked ha hb hd hg => ?sync,
    fun n num since c ha hb hv he hg hc hc16 => ?sem⟩, fun b q r s ha hb => ⟨fun m ht hk hm hn hr hx => ?take,
    fun hk hw hg => ?whole, fun x e hk he hx hl hg hn => ?inbox⟩⟩
  case start =>
    obtain ⟨hb, hq, hr, hw⟩ := ha
    refine ⟨_, seqRow_next _ hb hq hr (seqStart_takes hreq hquiet hin hg) ((setSeq_work ..).trans hw), setSeq_cycle .., ?_⟩
    rw [seqOf_setSeq_same, rd_setSeq _ _ _ _ ?reg, rd_wr_same]
    · exact ⟨rfl, rfl, rfl, rfl, rfl, rfl, rfl, rfl, fun x p h => seqOf_setSeq_other _ _ _ _ h, fun x p => sideOf_setSeq ..,
        setSeq_tabs .., setSeq_sram .., setSeq_stags .., setSeq_ruril ..⟩
    case reg =>
      unfold faultReg Reg.BEN_FAULT0 Reg.BEN_FAULT1 Reg.BEN_CYCLE_COUNT
      split <;> omega
  case sync =>
    intro u v
    obtain ⟨hbench, hq, hr, hw⟩ := ha
    have hwork : v.work = [] := by
      have hu : u.work = [] := by show (if _ then _ else _ : State).work = []; split <;> exact hw
      show (if _ then _ else _ : State).work = []
      split
      · exact (rowGather_work ..).trans hu
      · exact hu
    refine seqRow_next _ hbench hq hr ?_ ((setSeq_work ..).trans hwork)
    simp only [syncRelease, hb]
    exact if_neg (by simpa [hd] using hg)
  case sem =>
    obtain ⟨hbench, hq, hr, hw⟩ := ha
    obtain ⟨u, hserve, hcycle, hben, htb, hwork, hsram, hruril⟩ := semServe_served hb hv he hg
    obtain ⟨hst, hblocked⟩ := resume_runs b q u
    rw [hc, Option.getD_some] at htb
    have hentry : semEntry n (resume b q id u) = semServed n num c s := by
      rw [semEntry, tb_of_tabs _ (resume_tabs ..), htb, if_pos rfl]
    refine ⟨_, seqRow_next _ hbench hq hr hserve ((resume_work ..).trans (hwork.trans hw)), (resume_cycle ..).trans hcycle, hst, hblocked,
      fun hl => ?count, fun hl => ?lock, fun k hk => ?other, fun x p => ?side, (resume_sram ..).trans hsram, (resume_ruril ..).trans hruril⟩
    case count =>
      rw [semValue, hentry, semServed, if_neg (by simp [hl]), getF_setF_same _ _ _ (by decide)]
      exact Nat.mod_eq_of_lt (lt_of_le_of_lt (Nat.sub_le ..) (getF_lt ..))
    case lock =>
      rw [semValue, hentry, semServed, if_pos hl]
      refine ⟨?_, ?_, ?_⟩
      · rw [getF_setF_other _ _ _ _ (by decide) (by decide), getF_setF_other _ _ _ _ (by decide) (by decide),
          getF_setF_same _ _ _ (by decide)]
        rfl
      · rw [getF_setF_other _ _ _ _ (by decide) (by decide), getF_setF_same _ _ _ (by decide)]
        rfl
      · rw [getF_setF_same _ _ _ (by decide)]
        exact Nat.mod_eq_of_lt hc16
    case other => rw [tb_of_tabs _ (resume_tabs ..), htb, if_neg hk]
    case side => exact (sideOf_resume ..).trans (sideOf_of_benches x p hben)
  case take =>
    obtain ⟨hbench, hq, hr', hw⟩ := ha
    obtain ⟨t, htake, hseq, hsram, htabs, hwork⟩ := recvTake_takes hb ht hk hm hn hr
    refine ⟨t, seqRow_next _ hbench hq hr' htake (hwork.trans hw), ?_, ?_, hsram, htabs⟩
    · rw [hseq, Seq.setIndex_blocked]
    · rw [hseq, Seq.index_setIndex_same _ _ hx]
  case whole =>
    obtain ⟨hbench, hq, hr, hw'⟩ := ha
    obtain ⟨u, hdone, hcycle, hsram, htabs, hwork⟩ := recvDone_done hb hw hg
    obtain ⟨hst, hblocked⟩ := resume_runs b q u
    refine ⟨_, seqRow_next _ hbench hq hr ?_ ((resume_work ..).trans (hwork.trans hw')), (resume_cycle ..).trans hcycle, hst, hblocked,
      (resume_sram ..).trans hsram, (resume_tabs ..).trans htabs⟩
    simp only [recvComplete, hb]
    exact (if_neg hk).trans hdone
  case inbox =>
    obtain ⟨hbench, hq, hr, hw⟩ := ha
    have hdone : recvComplete b q s = resume b q (fun z => z.setIndex r.xr (e.rows.length + b2n e.promoted * 2 ^ 31))
        (advanceTo (frameFrom s.cycle) s) := by
      simp only [recvComplete, hb]
      exact (if_pos hk).trans (inboxRecv_done hb hk he hx hl hg hn)
    refine ⟨_, seqRow_next _ hbench hq hr hdone ((resume_work ..).trans hw), ?_⟩
    rw [seqOf_resume, resume_cycle]
    exact ⟨rfl, (Seq.next_st _).trans (Seq.setIndex_st ..), (Seq.next_blocked _).trans (Seq.setIndex_blocked ..), rfl⟩

end Sys2Proof.Proofs
end

section
/-!
What the units of a bench leave of the state (O10, O11, O12): counters, records of flags, uses of tiles that pass, adds.
-/
namespace Sys2Proof.Machine

/-! ## What a unit leaves -/

/-- The cycle, the tables, the tiles, the sequencers and the registers that `K` names are as they were. -/
structure Stays (K : Nat → Prop) (s t : State) : Prop where
  cycle : t.cycle = s.cycle
  tabs : t.tabs = s.tabs
  sram : t.sram = s.sram
  stags : t.stags = s.stags
  work : t.work = s.work
  fresh : t.fresh = s.fresh
  seqs : ∀ a p, seqOf a p t = seqOf a p s
  regs : ∀ k, K k → rd k t = rd k s

section
variable {K : Nat → Prop} {s t u : State}

theorem Stays.refl (K : Nat → Prop) (s : State) : Stays K s s := ⟨rfl, rfl, rfl, rfl, rfl, rfl, fun _ _ => rfl, fun _ _ => rfl⟩

theorem Stays.trans (h : Stays K s t) (k : Stays K t u) : Stays K s u :=
  ⟨k.cycle.trans h.cycle, k.tabs.trans h.tabs, k.sram.trans h.sram, k.stags.trans h.stags, k.work.trans h.work, k.fresh.trans h.fresh,
    fun a p => (k.seqs a p).trans (h.seqs a p), fun r hr => (k.regs r hr).trans (h.regs r hr)⟩

theorem Stays.wr {r : Nat} (v : Word) (s : State) (h : ¬ K r) : Stays K s (wr r v s) :=
  ⟨rfl, rfl, rfl, rfl, rfl, rfl, fun _ _ => rfl, fun _ hk => rd_wr_other _ _ (fun e => h (e ▸ hk))⟩

theorem Stays.bumpBy {r : Nat} (n : Nat) (s : State) (h : ¬ K r) : Stays K s (bumpBy n r s) := .wr _ _ h
theorem Stays.bump {r : Nat} (s : State) (h : ¬ K r) : Stays K s (bump r s) := .wr _ _ h

theorem Stays.setBench {b : Nat} {y : Bench} (s : State) (h : y.seq0 = (benchOf b s).seq0 ∧ y.seq1 = (benchOf b s).seq1) :
    Stays K s (setBench b y s) := by
  refine ⟨rfl, rfl, rfl, rfl, rfl, rfl, fun a p => ?_, fun _ _ => rfl⟩
  by_cases ha : a = b
  · subst ha
    simp [seqOf, Bench.seq, h]
  · rw [seqOf, benchOf_setBench_other _ _ ha, seqOf]

theorem Stays.setSide (b q : Nat) (x : Side) (s : State) : Stays K s (setSide b q x s) :=
  ⟨rfl, rfl, rfl, rfl, rfl, rfl, fun _ _ => seqOf_setSide .., fun _ _ => rfl⟩

theorem Stays.tb (h : Stays K s t) (k : Nat) : tb k t = tb k s := tb_of_tabs k h.tabs
theorem Stays.ctxOf (h : Stays K s t) (b q : Nat) : ctxOf b q t = ctxOf b q s := by simp only [Machine.ctxOf, h.tb]
theorem Stays.shared (h : Stays K s t) (b : Nat) : shared b t = shared b s := by simp only [Machine.shared, benchMode, tbF, h.tb]
theorem Stays.split (h : Stays K s t) {b : Nat} (hb : K (Reg.BEN_CTL b)) : split b t = split b s := by
  simp only [Machine.split, h.regs _ hb]
theorem Stays.benchTag (h : Stays K s t) (b x : Nat) : benchTag b x t = benchTag b x s := by simp only [Machine.benchTag, h.stags]
theorem Stays.benchTile (h : Stays K s t) (b x : Nat) : benchTile b x t = benchTile b x s := by
  simp only [Machine.benchTile, h.stags, h.sram]
theorem Stays.fmtOf (h : Stays K s t) (b x : Nat) : fmtOf b x t = fmtOf b x s := by simp only [Machine.fmtOf, h.benchTag]
theorem Stays.elemsIn (h : Stays K s t) (b x : Nat) : elemsIn b x t = elemsIn b x s := by
  simp only [Machine.elemsIn, h.fmtOf, h.benchTag]
theorem Stays.sideRate (h : Stays K s t) {b : Nat} (hb : K (Reg.BEN_CTL b)) (r : Nat) : sideRate b r t = sideRate b r s := by
  simp only [Machine.sideRate, h.split hb]
theorem Stays.laneCount (h : Stays K s t) {b : Nat} (hb : K (Reg.BEN_CTL b)) : laneCount b t = laneCount b s := by
  simp only [Machine.laneCount, h.split hb]
theorem Stays.laneBase (h : Stays K s t) {b : Nat} (hb : K (Reg.BEN_CTL b)) (q : Nat) : laneBase b q t = laneBase b q s := by
  simp only [Machine.laneBase, h.split hb]
theorem Stays.accKey (h : Stays K s t) (b q a : Nat) : accKey b q a t = accKey b q a s := by simp only [Machine.accKey, h.shared]
theorem Stays.heldCap (h : Stays K s t) {b : Nat} (hb : K (Reg.BEN_CTL b)) (w : Nat) : heldCap b w t = heldCap b w s := by
  simp only [Machine.heldCap, h.shared, h.split hb]
theorem Stays.trapMask (h : Stays K s t) {b : Nat} (hb : K (Reg.BEN_EXC_CTL b)) : trapMask b t = trapMask b s := by
  simp only [Machine.trapMask, rdF, h.regs _ hb]

end

/-- Registers alone may differ. -/
def OnlyRegs (s t : State) : Prop := ∃ regs, t = { s with regs := regs }

theorem OnlyRegs.benches {s t : State} (h : OnlyRegs s t) : t.benches = s.benches := by obtain ⟨regs, rfl⟩ := h; rfl

/-! ## Counters and the record of flags (R79, R81, R86) -/

section
variable (b : Nat) (s : State)

theorem eccCount_onlyRegs (e : Ecc) : OnlyRegs s (eccCount b e s) := by unfold eccCount; split <;> exact ⟨_, rfl⟩

theorem excRecord_onlyRegs (unit acc pass : Nat) (ev : List (Nat × Nat)) : OnlyRegs s (excRecord b unit acc pass ev s) := by
  unfold excRecord
  split
  · exact ⟨_, rfl⟩
  · dsimp only
    split <;> exact ⟨_, rfl⟩

theorem setOutcome_onlyRegs (t o : Nat) : OnlyRegs s (setOutcome b t o s) := by
  unfold setOutcome
  dsimp only
  split <;> exact ⟨_, rfl⟩

variable {K : Nat → Prop} {b}

theorem Stays.eccCount (e : Ecc) (h : ¬ K (Reg.BEN_SRAM_ECC_CORR b)) : Stays K s (eccCount b e s) := by
  unfold Machine.eccCount
  split
  · exact .refl K s
  · exact .bumpBy _ s h

theorem Stays.excRecord (unit acc pass : Nat) (ev : List (Nat × Nat)) (h : ¬ K (Reg.BEN_EXC_FIRST b)) :
    Stays K s (excRecord b unit acc pass ev s) := by
  unfold Machine.excRecord
  split
  · exact .refl K s
  · dsimp only
    split
    · exact .refl K s
    · exact .wr _ s h

theorem Stays.setOutcome (t o : Nat) (h : ¬ K (Reg.BEN_CHECK_FIRST b)) : Stays K s (setOutcome b t o s) := by
  unfold Machine.setOutcome
  dsimp only
  split
  · exact .wr _ s h
  · exact .refl K s
end

/-- The counters of a context's flags. -/
def excRegs (c : Nat) : List Nat :=
  [Reg.CTX_EXC_INVALID c, Reg.CTX_EXC_DIVZERO c, Reg.CTX_EXC_OVERFLOW c, Reg.CTX_EXC_UNDERFLOW c, Reg.CTX_EXC_INEXACT c]

/-- The context of a sequencer is one of sixteen. -/
theorem ctxOf_lt {b q c : Nat} {s : State} (h : ctxOf b q s = some c) : c < 16 := by
  unfold ctxOf at h
  dsimp only at h
  split_ifs at h
  · exact Option.some.inj h ▸ getF_lt Fld.CTX_BENCH_DATA_CTXA _
  · exact Option.some.inj h ▸ getF_lt Fld.CTX_BENCH_DATA_CTXB _

/-- A count where a flag is raised. -/
def bumpIf (p : Bool) (r : Nat) (s : State) : State := if p then bump r s else s

theorem bumpIf_onlyRegs (p : Bool) (r : Nat) (s : State) : OnlyRegs s (bumpIf p r s) := by unfold bumpIf; split <;> exact ⟨_, rfl⟩
theorem Stays.bumpIf {K : Nat → Prop} (p : Bool) {r : Nat} (s : State) (h : ¬ K r) : Stays K s (bumpIf p r s) := by
  unfold Machine.bumpIf
  split
  · exact .bump s h
  · exact .refl K s
theorem rd_bumpIf_same (p : Bool) (r : Nat) (s : State) : rd r (bumpIf p r s) = rd r s + (if p then 1 else 0) := by
  unfold bumpIf; split <;> simp
theorem rd_bumpIf_other (p : Bool) {r k : Nat} (s : State) (h : k ≠ r) : rd k (bumpIf p r s) = rd k s := by
  unfold bumpIf
  split
  · exact rd_bump_other _ h
  · rfl

section
variable {b q fl c : Nat} {s : State} {K : Nat → Prop}

theorem gather_none (h : ctxOf b q s = none) : gather b q fl s = s := by simp [gather, h]

theorem gather_some (h : ctxOf b q s = some c) : gather b q fl s =
    bumpIf (bitAt fl 4) (Reg.CTX_EXC_INEXACT c) (bumpIf (bitAt fl 3) (Reg.CTX_EXC_UNDERFLOW c)
      (bumpIf (bitAt fl 2) (Reg.CTX_EXC_OVERFLOW c) (bumpIf (bitAt fl 1) (Reg.CTX_EXC_DIVZERO c)
        (bumpIf (bitAt fl 0) (Reg.CTX_EXC_INVALID c) s)))) := by
  simp only [gather, h]
  rfl

theorem OnlyRegs.trans {s t u : State} (h : OnlyRegs s t) (k : OnlyRegs t u) : OnlyRegs s u := by
  obtain ⟨r, rfl⟩ := h
  obtain ⟨r', rfl⟩ := k
  exact ⟨r', rfl⟩

theorem gather_onlyRegs (b q fl : Nat) (s : State) : OnlyRegs s (gather b q fl s) := by
  cases h : ctxOf b q s with
  | none => rw [gather_none h]; exact ⟨_, rfl⟩
  | some c =>
    rw [gather_some h]
    exact ((((bumpIf_onlyRegs ..).trans (bumpIf_onlyRegs ..)).trans (bumpIf_onlyRegs ..)).trans (bumpIf_onlyRegs ..)).trans
      (bumpIf_onlyRegs ..)

/-- Gathering flags writes the counters of a context only. -/
theorem Stays.gather (b q fl : Nat) (s : State) (h : ∀ c < 16, ∀ r ∈ excRegs c, ¬ K r) : Stays K s (gather b q fl s) := by
  cases hc : Machine.ctxOf b q s with
  | none => rw [gather_none hc]; exact .refl K s
  | some c =>
    have hr := h c (ctxOf_lt hc)
    simp only [excRegs, List.forall_mem_cons, List.not_mem_nil, false_implies, implies_true, and_true] at hr
    obtain ⟨h0, h1, h2, h3, h4⟩ := hr
    rw [gather_some hc]
    exact ((((Stays.bumpIf _ _ h0).trans (.bumpIf _ _ h1)).trans (.bumpIf _ _ h2)).trans (.bumpIf _ _ h3)).trans (.bumpIf _ _ h4)

/-- Gathering flags counts each that is raised. -/
theorem rd_gather (h : ctxOf b q s = some c) : ∀ k < 5, rd ((excRegs c).getD k 0) (gather b q fl s) =
    rd ((excRegs c).getD k 0) s + (if bitAt fl k then 1 else 0) := by
  have apart : (excRegs c).Nodup := by
    simp [excRegs, Reg.CTX_EXC_INVALID, Reg.CTX_EXC_DIVZERO, Reg.CTX_EXC_OVERFLOW, Reg.CTX_EXC_UNDERFLOW, Reg.CTX_EXC_INEXACT]
  simp only [excRegs, List.nodup_cons, List.mem_cons, List.not_mem_nil, or_false, not_or, not_false_eq_true] at apart
  obtain ⟨⟨h01, h02, h03, h04⟩, ⟨h12, h13, h14⟩, ⟨h23, h24⟩, h34, -⟩ := apart
  rw [gather_some h]
  intro k hk
  interval_cases k
  · exact (rd_bumpIf_other _ _ h04).trans ((rd_bumpIf_other _ _ h03).trans ((rd_bumpIf_other _ _ h02).trans
      ((rd_bumpIf_other _ _ h01).trans (rd_bumpIf_same ..))))
  · refine (rd_bumpIf_other _ _ h14).trans ((rd_bumpIf_other _ _ h13).trans ((rd_bumpIf_other _ _ h12).trans ((rd_bumpIf_same ..).trans ?_)))
    exact congrArg (· + _) (rd_bumpIf_other _ _ (Ne.symm h01))
  · refine (rd_bumpIf_other _ _ h24).trans ((rd_bumpIf_other _ _ h23).trans ((rd_bumpIf_same ..).trans ?_))
    exact congrArg (· + _) ((rd_bumpIf_other _ _ (Ne.symm h12)).trans (rd_bumpIf_other _ _ (Ne.symm h02)))
  · refine (rd_bumpIf_other _ _ h34).trans ((rd_bumpIf_same ..).trans ?_)
    exact congrArg (· + _) ((rd_bumpIf_other _ _ (Ne.symm h23)).trans ((rd_bumpIf_other _ _ (Ne.symm h13)).trans
      (rd_bumpIf_other _ _ (Ne.symm h03))))
  · refine (rd_bumpIf_same ..).trans ?_
    exact congrArg (· + _) ((rd_bumpIf_other _ _ (Ne.symm h34)).trans ((rd_bumpIf_other _ _ (Ne.symm h24)).trans
      ((rd_bumpIf_other _ _ (Ne.symm h14)).trans (rd_bumpIf_other _ _ (Ne.symm h04)))))
end

/-! ## A unit's act (R52) -/

/-- A unit that is ready and leaves its sequencer's state acts on its instruction, no fault coming before. -/
theorem unitAct_acts {b q : Nat} {op : Option UOp} {p : State → Bool} {f : State → State} {s : State} (hp : p s = true)
    (h : (seqOf b q (f s)).st = (seqOf b q s).st) : unitAct b q op p f s = f s := by
  have hg : guarded p f s = f s := if_pos hp
  have hf : seqFaulted b q (f s) = seqFaulted b q s := by simp only [seqFaulted, h]
  unfold unitAct
  dsimp only
  rw [hg, hf]
  exact if_pos (by cases seqFaulted b q s <;> rfl)

/-- A unit's command, where the unit is ready. -/
theorem seqRow_unit {b q : Nat} {op : Option UOp} {p : State → Bool} {f : State → State} {s t : State} (ha : Acts b q s)
    (hp : p s = true) (e : f s = t) (h : (seqOf b q t).st = (seqOf b q s).st) :
    seqRow b q (unitAct b q op p f) s = .next (settle t) := by
  obtain ⟨hb, hq, hr, -⟩ := ha
  rw [seqRow_runs _ hb hq hr, unitAct_acts hp (by rw [e, h]), e]

/-- A unit's command that leaves nothing to settle. -/
theorem seqRow_unit_next {b q : Nat} {op : Option UOp} {p : State → Bool} {f : State → State} {s t : State} (ha : Acts b q s)
    (hp : p s = true) (e : f s = t) (h : (seqOf b q t).st = (seqOf b q s).st) (w : t.work = []) :
    seqRow b q (unitAct b q op p f) s = .next t := by
  rw [seqRow_unit ha hp e h, settle_quiet t w]

end Sys2Proof.Machine
end

section
/-!
Uses of tiles by the units (O10, O11, O12): a use that passes, the companions that it reads, and the service of a unit.
-/
namespace Sys2Proof.Machine

/-! ## The sides after a read (R71, R92) -/

/-- Sequencer numbers other than 0 name side 1. -/
theorem sideOf_eq {b p q : Nat} (h : p = 0 ↔ q = 0) (s : State) : sideOf b p s = sideOf b q s := by
  simp only [sideOf, Bench.side, h]

/-- A read leaves the state but for the companions that the converters keep. -/
structure Reads (K : Nat → Prop) (s t : State) : Prop where
  stays : Stays K s t
  sides : ∀ a p, ∃ cbs, sideOf a p t = { sideOf a p s with cbs := cbs }

section
variable {K : Nat → Prop} {s t u : State}

theorem Reads.refl (K : Nat → Prop) (s : State) : Reads K s s := ⟨.refl K s, fun _ _ => ⟨_, rfl⟩⟩

theorem Reads.trans (h : Reads K s t) (k : Reads K t u) : Reads K s u := by
  refine ⟨h.stays.trans k.stays, fun a p => ?_⟩
  obtain ⟨c, hc⟩ := h.sides a p
  obtain ⟨d, hd⟩ := k.sides a p
  exact ⟨d, by rw [hd, hc]⟩

theorem Reads.of_benches (h : Stays K s t) (hb : t.benches = s.benches) : Reads K s t :=
  ⟨h, fun a p => ⟨_, sideOf_of_benches a p hb⟩⟩

/-- Storing the companions that a converter keeps. -/
theorem Reads.keep (b q : Nat) (cbs : List (Nat × Nat)) (s : State) :
    Reads K s (setSide b q { sideOf b q s with cbs := cbs } s) := by
  refine ⟨.setSide .., fun a p => ?_⟩
  by_cases h : a ≠ b ∨ (p = 0 ↔ q ≠ 0)
  · exact ⟨_, sideOf_setSide_other _ _ _ _ h⟩
  · obtain ⟨rfl, hpq⟩ : a = b ∧ (p = 0 ↔ q = 0) := by
      rw [not_or, not_not] at h
      exact ⟨h.1, by have := h.2; tauto⟩
    exact ⟨cbs, by rw [sideOf_eq hpq, sideOf_setSide_same, sideOf_eq hpq]⟩
end

/-! ## One use of a tile (R86, R92) -/

section
variable {K : Nat → Prop} {b t : Nat} {e : Ecc} {s w : State}

/-- A read error marks its tile BAD and writes nothing else. -/
theorem eccBad_stays (b t : Nat) (e : Ecc) (s : State) : Stays K s (eccBad b t e s) ∧ (eccBad b t e s).benches = s.benches := by
  unfold eccBad
  split <;> exact ⟨⟨rfl, rfl, rfl, rfl, rfl, rfl, fun _ _ => rfl, fun _ _ => rfl⟩, rfl⟩

theorem eccBad_good (h : e.bad.contains t = false) : eccBad b t e s = s :=
  if_neg (by rw [h, Bool.false_and]; decide)

/-- A use that passes leaves the state, the record of the tile's re-fetch aside. -/
theorem useTileAs_pass {unit who : Nat} (hK : ¬ K (Reg.BEN_CHECK_FIRST b)) (h : useTileAs b t unit who e s = (.pass, w)) :
    Stays K s w ∧ w.benches = s.benches := by
  obtain ⟨hstays, hbench⟩ := eccBad_stays (K := K) b t e s
  unfold useTileAs at h
  dsimp only at h
  split at h
  · generalize hv : (if (benchOf b (eccBad b t e s)).refetched.contains t = true then setOutcome b t 1 (eccBad b t e s)
      else eccBad b t e s) = v at h
    obtain rfl : v = w := by split at h <;> simp_all
    split at hv
    · subst hv
      exact ⟨hstays.trans (.setOutcome _ _ _ hK), (setOutcome_onlyRegs ..).benches.trans hbench⟩
    · subst hv
      exact ⟨hstays, hbench⟩
  · split at h <;> simp at h

theorem useTile_pass {q unit : Nat} (hK : ¬ K (Reg.BEN_CHECK_FIRST b)) (h : useTile b q t unit e s = (.pass, w)) :
    Stays K s w ∧ w.benches = s.benches := useTileAs_pass hK h

/-- A use of a sound tile passes. -/
theorem useTile_sound (q unit : Nat) (he : e.bad.contains t = false) (hc : checkOk b t s = true) (hf : fmtDefined (fmtOf b t s) = true) :
    ∃ w, useTile b q t unit e s = (.pass, w) := by
  unfold useTile useTileAs
  dsimp only
  rw [eccBad_good he, if_pos hc]
  split
  · have hs : Stays (fun _ => False) s (setOutcome b t 1 s) := .setOutcome _ _ _ (fun h => h)
    exact ⟨_, if_pos ((congrArg fmtDefined (hs.fmtOf b t)).trans hf)⟩
  · exact ⟨_, if_pos hf⟩

/-! ## Companions and runs (R71, R74, R535) -/

theorem readCompanion_book {q conv who comp fmt record x : Nat} {v : List FVal} (hK : ¬ K (Reg.BEN_CHECK_FIRST b))
    (h : readCompanion b q conv who comp fmt record e s = (.book v x, w)) : Reads K s w := by
  unfold readCompanion at h
  dsimp only at h
  split at h
  · cases h
    exact .refl K s
  · split at h
    next u hu =>
      obtain ⟨hstays, hbench⟩ := useTileAs_pass hK hu
      cases h
      exact (Reads.of_benches hstays hbench).trans (.keep ..)
    all_goals simp at h

theorem readCompanion_ne_none (q conv who comp fmt record : Nat) (s w : State) :
    readCompanion b q conv who comp fmt record e s ≠ (.none, w) := by
  unfold readCompanion
  dsimp only
  split
  · simp
  · split <;> simp

theorem bookFor_plain (q conv : Nat) (h : isCb (fmtOf b t s) = false) : bookFor b q conv t e s = (.none, s) :=
  if_pos (by rw [show tagF Fld.TAG_FORMAT (benchTag b t s) = fmtOf b t s from rfl, h]; rfl)

theorem bookFor_none {q conv : Nat} (h : bookFor b q conv t e s = (.none, w)) : w = s := by
  unfold bookFor at h
  dsimp only at h
  split at h
  · cases h
    rfl
  · split at h
    · simp at h
    · split at h
      · simp at h
      · exact (readCompanion_ne_none _ _ _ _ _ _ _ _ h).elim

theorem bookFor_book {q conv x : Nat} {v : List FVal} (hK : ¬ K (Reg.BEN_CHECK_FIRST b))
    (h : bookFor b q conv t e s = (.book v x, w)) : Reads K s w := by
  unfold bookFor at h
  dsimp only at h
  split at h
  · simp at h
  · split at h
    · simp at h
    · split at h
      · simp at h
      · exact readCompanion_book hK h

theorem bookForEncode_plain {q who dst fmt : Nat} (h : isCb fmt = false) : bookForEncode b q who dst fmt e s = (.none, s) :=
  if_pos (by rw [h]; rfl)

theorem bookForEncode_none {q who dst fmt : Nat} (h : bookForEncode b q who dst fmt e s = (.none, w)) : w = s := by
  unfold bookForEncode at h
  split at h
  · cases h
    rfl
  · split at h
    · simp at h
    · split at h
      · simp at h
      · exact (readCompanion_ne_none _ _ _ _ _ _ _ _ h).elim

theorem bookForEncode_book {q who dst fmt x : Nat} {v : List FVal} (hK : ¬ K (Reg.BEN_CHECK_FIRST b))
    (h : bookForEncode b q who dst fmt e s = (.book v x, w)) : Reads K s w := by
  unfold bookForEncode at h
  split at h
  · simp at h
  · split at h
    · simp at h
    · split at h
      · simp at h
      · exact readCompanion_book hK h

theorem readTile_vals {q unit conv x : Nat} {v : List FVal} (hK : ¬ K (Reg.BEN_CHECK_FIRST b))
    (h : readTile b q unit conv t e s = (.vals v x, w)) : Reads K s w := by
  unfold readTile at h
  split at h
  · simp at h
  · simp at h
  · simp at h
  next u hu =>
    obtain ⟨hstays, hbench⟩ := useTile_pass hK hu
    have hu : Reads K s u := .of_benches hstays hbench
    split at h
    · simp at h
    · simp at h
    next u' hb =>
      cases h
      exact bookFor_none hb ▸ hu
    next u' hb =>
      cases h
      exact hu.trans (bookFor_book hK hb)

/-- A run whose tiles all pass leaves the state but for the companions kept. -/
theorem readRun_vals {q unit conv fmt per : Nat} (hK : ¬ K (Reg.BEN_CHECK_FIRST b)) :
    ∀ {ts : List Nat} {v : List FVal} {x : Nat} {s w : State},
      readRun b q unit conv fmt per e ts s = (.vals v x, w) → Reads K s w
  | [], _, _, s, _, h => by cases h; exact .refl K s
  | t :: ts, _, _, s, _, h => by
    unfold readRun at h
    split at h
    next u hu =>
      split at h
      · simp at h
      · split at h
        next hrest =>
          cases h
          exact (readTile_vals hK hu).trans (readRun_vals hK hrest)
        next hr => exact absurd h (hr _ _ _)
    next hr => exact absurd h (hr _ _ _)
end

/-! ## A unit takes up its instruction (R357) -/

/-- The state in which a unit takes up its instruction: its cycle has come, the side served is recorded and the read's errors are
counted. -/
def taken (b h unit c : Nat) (e : Ecc) (s : State) : State := eccCount b e (serve b h unit (advanceTo c s))

section
variable {K : Nat → Prop} {b : Nat} (h unit c : Nat) (e : Ecc) (s : State)

theorem Stays.taken (hK : ¬ K (Reg.BEN_SRAM_ECC_CORR b)) : Stays K (advanceTo c s) (taken b h unit c e s) :=
  Stays.trans (t := serve b h unit (advanceTo c s)) (.setBench _ ⟨rfl, rfl⟩) (.eccCount _ e hK)

theorem taken_cycle : (taken b h unit c e s).cycle = max s.cycle c :=
  (Stays.taken (K := fun _ => False) h unit c e s (fun h => h)).cycle

theorem benchOf_taken (a : Nat) : ∃ l, benchOf a (taken b h unit c e s) = { benchOf a s with served := l } := by
  have hb := benchOf_of_benches a (eccCount_onlyRegs b (serve b h unit (advanceTo c s)) e).benches
  by_cases ha : a = b
  · subst ha
    exact ⟨_, hb.trans (benchOf_setBench_same ..)⟩
  · exact ⟨_, hb.trans (benchOf_setBench_other _ _ ha)⟩

theorem checkOk_taken (a x : Nat) : checkOk a x (taken b h unit c e s) = checkOk a x s := by
  obtain ⟨regs, hr⟩ := eccCount_onlyRegs b (serve b h unit (advanceTo c s)) e
  rw [taken, hr]
  rfl

theorem sideOf_taken (a p : Nat) : sideOf a p (taken b h unit c e s) = sideOf a p s := by
  obtain ⟨l, hl⟩ := benchOf_taken (b := b) h unit c e s a
  rw [sideOf, hl]
  rfl
end

end Sys2Proof.Machine
end

section
/-!
The Shave path and the load unit (O11).
-/
namespace Sys2Proof.Machine

/-! ## The held vector (R27) -/

/-- The held vector of a bench, and the ways in which it is shared out, are as they were. -/
structure SameHeld (b : Nat) (s t : State) : Prop where
  split : split b t = split b s
  shared : shared b t = shared b s
  lo : (benchOf b t).heldLo = (benchOf b s).heldLo
  hi : (benchOf b t).heldHi = (benchOf b s).heldHi

section
variable {b : Nat} {s t : State} (h : SameHeld b s t)
include h
theorem SameHeld.heldAt (q k : Nat) : heldAt b q k t = heldAt b q k s := by
  simp only [Machine.heldAt, h.split, h.shared, h.lo, h.hi]
theorem SameHeld.heldWidthOf (q : Nat) : heldWidthOf b q t = heldWidthOf b q s := by
  simp only [Machine.heldWidthOf, h.split, h.shared, h.lo, h.hi]
end

/-! ## SHAVE (R27, R28, R29) -/

/-- The run of a SHAVE that begins in cycle `c`, of `n` weights at a rate. -/
def shaveRun (b q c rate n : Nat) (op : UOp) (s : State) : Run :=
  ⟨op, c, c + (n + rate - 1) / rate - 1 + 3, rate, fitVals n (tileVals (fmtOf b op.tile s) (benchTile b op.tile s) []),
    (upto ((n + laneCount b s - 1) / laneCount b s)).map (fun k => heldAt b q (op.num + k) s), [], 0, 0⟩

/-- The registers that a SHAVE's beginning leaves alone, BEN_SHAVE_BUSY among them until it is counted. -/
def shaveKept (b k : Nat) : Prop := k = Reg.BEN_CTL b ∨ k = Reg.BEN_SHAVE_BUSY b

section
variable {b h : Nat} {e : Ecc} {op : UOp} {rest : List UOp} {s : State}

/-- The Shave path begins a SHAVE whose weight tile is sound and for which the held vector suffices. -/
theorem shaveStart_begins (hq : (sideOf b h s).shaveQ = op :: rest) (he : e.bad.contains op.tile = false)
    (hc : checkOk b op.tile s = true) (hf : fmtDefined (fmtOf b op.tile s) = true) (hcb : isCb (fmtOf b op.tile s) = false)
    (hroom : op.num + (elemsIn b op.tile s - 1) / laneCount b s < heldCap b (heldWidthOf b h s) s) :
    let n := elemsIn b op.tile s
    let c := max s.cycle (freeAt b h (·.shaveFree) s)
    let rate := sideRate b (shaveRate (max (rowWidth (fmtOf b op.tile s)) (heldWidthOf b h s))) s
    ∃ w, Stays (shaveKept b) (advanceTo (freeAt b h (·.shaveFree) s) s) w ∧ (∀ a p, sideOf a p w = sideOf a p s) ∧
      shaveStart b h e s =
        setSide b h { sideOf b h s with
          shaveQ := rest
          shaveRuns := (sideOf b h s).shaveRuns ++ [shaveRun b h c rate n op s]
          shaveFree := c + (n + rate - 1) / rate }
          (bumpBy ((n + rate - 1) / rate) (Reg.BEN_SHAVE_BUSY b) (setSide b h { sideOf b h s with shaveQ := rest } w)) := by
  intro n c rate
  have hecc : ¬ shaveKept b (Reg.BEN_SRAM_ECC_CORR b) := by
    unfold shaveKept Reg.BEN_SRAM_ECC_CORR Reg.BEN_CTL Reg.BEN_SHAVE_BUSY; omega
  have hfirst : ¬ shaveKept b (Reg.BEN_CHECK_FIRST b) := by
    unfold shaveKept Reg.BEN_CHECK_FIRST Reg.BEN_CTL Reg.BEN_SHAVE_BUSY; omega
  have hctl : shaveKept b (Reg.BEN_CTL b) := .inl rfl
  have hu := Stays.taken (K := shaveKept b) h uShave (freeAt b h (·.shaveFree) s) e s hecc
  generalize hut : taken b h uShave (freeAt b h (·.shaveFree) s) e s = u at hu
  have hcu : checkOk b op.tile u = true := by rw [← hut, checkOk_taken]; exact hc
  obtain ⟨w, hw⟩ := useTile_sound (s := u) h 3 he hcu (by rw [hu.fmtOf]; exact hf)
  obtain ⟨hstays, hbench⟩ := useTile_pass hfirst hw
  have hall := hu.trans hstays
  have hsides (a p : Nat) : sideOf a p w = sideOf a p s := by
    rw [sideOf_of_benches a p hbench, ← hut, sideOf_taken]
  have hheld : SameHeld b s w := by
    obtain ⟨l, hl⟩ := benchOf_taken (b := b) h uShave (freeAt b h (·.shaveFree) s) e s b
    rw [hut] at hl
    have hb := (benchOf_of_benches b hbench).trans hl
    exact ⟨hall.split hctl, hall.shared b, by rw [hb], by rw [hb]⟩
  have hfmt : fmtOf b op.tile w = fmtOf b op.tile s := hall.fmtOf ..
  have hlanes : laneCount b w = laneCount b s := hall.laneCount hctl
  have hbook : bookFor b h convShave op.tile e w = (.none, w) := bookFor_plain _ _ (by rw [hfmt]; exact hcb)
  have hcap : ¬ op.num + (elemsIn b op.tile w - 1) / laneCount b w ≥ heldCap b (heldWidthOf b h w) w := by
    rw [hall.elemsIn, hlanes, hheld.heldWidthOf, hall.heldCap hctl]
    exact Nat.not_le.2 hroom
  refine ⟨w, hall, hsides, ?_⟩
  unfold shaveStart
  simp only [hq]
  rw [show eccCount b e (serve b h uShave (advanceTo (freeAt b h (·.shaveFree) s) s)) = u from hut]
  simp only [hw]
  rw [if_neg hcap, hbook]
  simp only [sideOf_bumpBy, sideOf_setSide_same, hsides, hfmt, hlanes, hheld.heldAt, hheld.heldWidthOf, hall.sideRate hctl,
    hall.benchTile, hall.elemsIn, hall.cycle, Nat.add_zero]
  rfl
end

/-! ## Adds of the Shave path (R28, R29) -/

/-- Adds write accumulators and the record of the first flags. -/
structure Adds (K : Nat → Prop) (s t : State) : Prop where
  stays : Stays K s t
  accs : ∀ a, ∃ l, benchOf a t = { benchOf a s with accs := l }

section
variable {K : Nat → Prop} {s t u : State}
theorem Adds.refl (K : Nat → Prop) (s : State) : Adds K s s := ⟨.refl K s, fun _ => ⟨_, rfl⟩⟩
theorem Adds.trans (h : Adds K s t) (k : Adds K t u) : Adds K s u := by
  refine ⟨h.stays.trans k.stays, fun a => ?_⟩
  obtain ⟨l, hl⟩ := h.accs a
  obtain ⟨m, hm⟩ := k.accs a
  exact ⟨m, by rw [hm, hl]⟩
theorem Adds.of_benches (h : Stays K s t) (hb : t.benches = s.benches) : Adds K s t :=
  ⟨h, fun a => ⟨_, benchOf_of_benches a hb⟩⟩
theorem Adds.setAccs (b : Nat) (l : SMap (List Acc)) (s : State) : Adds K s (setBench b { benchOf b s with accs := l } s) := by
  refine ⟨.setBench _ ⟨rfl, rfl⟩, fun a => ?_⟩
  by_cases ha : a = b
  · subst ha
    exact ⟨l, benchOf_setBench_same ..⟩
  · exact ⟨_, benchOf_setBench_other _ _ ha⟩
theorem Adds.side (h : Adds K s t) (a p : Nat) : sideOf a p t = sideOf a p s := by
  obtain ⟨l, hl⟩ := h.accs a
  rw [sideOf, hl]
  rfl

variable {b : Nat}

theorem shaveAdds_adds (hK : ¬ K (Reg.BEN_EXC_FIRST b)) (q : Nat) (r : Run) (n k : Nat) (s : State) :
    Adds K s (shaveAdds b q r n k s).1 := by
  induction n generalizing k s with
  | zero => exact .refl K s
  | succ n ih =>
    refine Adds.trans (Adds.trans (.setAccs b _ s) (.of_benches (.excRecord _ 1 r.op.dst r.op.passNo _ hK) ?_)) (ih (k + 1) _)
    exact (excRecord_onlyRegs ..).benches

theorem shaveUpto_adds (hK : ¬ K (Reg.BEN_EXC_FIRST b)) (q x : Nat) (r : Run) (s : State) : Adds K s (shaveUpto b q x r s).2 :=
  shaveAdds_adds hK q r _ _ s
end

/-- The SHAVE at the front of the path completes: its adds are done, it leaves the path, and its flags are gathered. -/
theorem shaveComplete_completes {b h : Nat} {r : Run} {rest : List Run} {s : State} (hr : (sideOf b h s).shaveRuns = r :: rest) :
    let v := shaveUpto b h (r.due + 1) r (advanceTo r.due s)
    shaveComplete b h s = gather b h v.1.flags (setSide b h { sideOf b h s with shaveRuns := rest } v.2) := by
  intro v
  have hv : Adds (fun _ => False) (advanceTo r.due s) v.2 := shaveUpto_adds (fun h => h) ..
  have hside : sideOf b h v.2 = sideOf b h s := hv.side b h
  simp only [shaveComplete, hr]
  rw [show shaveUpto b h (r.due + 1) r (advanceTo r.due s) = v from rfl, hside, hr]
  rfl

/-! ## LOAD (R18, R25, R27) -/

section
variable {b h : Nat} {e : Ecc} {op : UOp} {rest : List UOp} {s : State}

/-- The load unit begins a LOAD whose run passes its checks. -/
theorem loadBegin_begins {v : List FVal} {x : Nat} {w : State} :
    let u := taken b h uLoad (freeAt b h (·.loadFree) s) e s
    let stile := op.kind == .stile
    let fmt := fmtOf b op.tile u
    let width := if stile then rowWidth fmt else heldWidth fmt
    let per := elemsIn b op.tile u
    let due := w.cycle + ((if stile then stileCycles width else 8) + x)
    (sideOf b h s).loadQ = op :: rest → fmtDefined fmt = true → (stile && shared b s && width == 32) = false → per ≠ 0 →
    (∀ k ∈ loadTiles b op u, runInTiles b h k 1 s = true) →
    readRun b h (if stile then 1 else 2) (if stile then convStile else convHeld) fmt per e (loadTiles b op u) u = (.vals v x, w) →
    loadBegin b h e s =
      setSide b h { sideOf b h w with
        loadQ := rest
        loadFree := due
        loadRun := some ⟨op, w.cycle, due, width, fitVals (loadSpan b op u).2 (v.drop ((loadSpan b op u).1 % per)), [], [], 0, 0⟩ }
        (setSide b h { sideOf b h w with loadQ := rest } w) := by
  intro u stile fmt width per due hq hf hwide hper hts hrun
  have hu : Stays (· = Reg.BEN_CTL b) (advanceTo (freeAt b h (·.loadFree) s) s) u := .taken _ _ _ _ _ (by
    unfold Reg.BEN_SRAM_ECC_CORR Reg.BEN_CTL; omega)
  have hall : (loadTiles b op u).all (fun t => runInTiles b h t 1 u) = true := by
    rw [List.all_eq_true]
    intro k hk
    rw [← hts k hk]
    simp only [runInTiles, tileBase, tileCount, hu.split rfl, hu.shared]
    rfl
  unfold loadBegin
  simp only [hq]
  rw [show eccCount b e (serve b h uLoad (advanceTo (freeAt b h (·.loadFree) s) s)) = u from rfl]
  rw [if_neg (not_not_true_of hf), if_neg ?wide, if_neg ?room, hrun]
  case wide =>
    rw [show shared b u = shared b s from hu.shared b]
    exact Bool.eq_false_iff.1 hwide
  case room => simp [hall, hper, per]
  simp only [sideOf_setSide_same]
  rfl
end

/-- The LOAD that the unit runs has written the shadow banks, or the held vector. -/
theorem loadComplete_completes {b h : Nat} {r : Run} {s : State} (hr : (sideOf b h s).loadRun = some r) :
    let u := advanceTo r.due s
    let v := if r.op.kind = .stile then writeShadow b h r.fmt r.vals u else writeHeldVec b h r.fmt r.vals u
    loadComplete b h s = setSide b h { sideOf b h v with loadRun := none } v ∧ v.work = s.work := by
  intro u v
  refine ⟨by simp only [loadComplete, hr]; rfl, ?_⟩
  show (if _ then _ else _ : State).work = s.work
  split
  · rfl
  · unfold writeHeldVec
    dsimp only
    split <;> rfl

theorem Bench.setSide_accs (y : Bench) (q : Nat) (x : Side) : (y.setSide q x).accs = y.accs := by unfold Bench.setSide; split <;> rfl

/-- The counters of a context's flags lie below the registers of the benches. -/
theorem excRegs_lt {c : Nat} (hc : c < 16) : ∀ r ∈ excRegs c, r < 0x2000000 := by
  simp only [excRegs, List.forall_mem_cons, Reg.CTX_EXC_INVALID, Reg.CTX_EXC_DIVZERO, Reg.CTX_EXC_OVERFLOW, Reg.CTX_EXC_UNDERFLOW,
    Reg.CTX_EXC_INEXACT, List.not_mem_nil, false_implies, implies_true, and_true]
  omega

/-- The counters of a context's flags are not BEN_EXC_FIRST of a bench. -/
theorem excReg_apart (b c k : Nat) (hc : c < 16) (hk : k < 5) : (excRegs c).getD k 0 ≠ Reg.BEN_EXC_FIRST b := by
  have hmem : (excRegs c).getD k 0 ∈ excRegs c := by
    rw [List.getD_eq_getElem _ _ hk]
    exact List.getElem_mem _
  have := excRegs_lt hc _ hmem
  unfold Reg.BEN_EXC_FIRST
  omega

end Sys2Proof.Machine

namespace Sys2Proof.Proofs
open Sys2Proof Sys2Proof.Machine

/-- Settles O11: each unit's beginning and end as one equation, the parts that it leaves by `Stays`. -/
theorem shavesAndLoadsRun : Obligations.ShavesAndLoadsRun := by
  refine ⟨fun b h s ha => ⟨fun e op rest => ?shaveBegins, fun r rest hr => ?shaveCompletes⟩,
    fun b h s ha => ⟨fun e op rest v x w => ?loadBegins, fun r hr => ?loadCompletes⟩⟩
  case shaveBegins =>
    intro fmt n lanes c rate occ hready hq he hc hf hcb hroom
    obtain ⟨w, hstays, hsides, hstart⟩ := shaveStart_begins hq he hc hf hcb hroom
    have hall : Stays (· ≠ Reg.BEN_SHAVE_BUSY b) w (shaveStart b h e s) := by
      rw [hstart]
      exact Stays.trans (.setSide ..) (Stays.trans (.bumpBy _ _ (fun k => k rfl)) (.setSide ..))
    have hst : seqOf b h (shaveStart b h e s) = seqOf b h s := (hall.seqs b h).trans (hstays.seqs b h)
    have hside := congrArg (sideOf b h) hstart
    rw [sideOf_setSide_same] at hside
    refine ⟨_, seqRow_unit_next ha hready rfl (congrArg Seq.st hst) (hall.work.trans (hstays.work.trans ha.2.2.2)),
      hall.cycle.trans hstays.cycle, congrArg Side.shaveQ hside, congrArg Side.shaveFree hside, congrArg Side.shaveRuns hside, ?_,
      hall.tabs.trans hstays.tabs, hall.sram.trans hstays.sram⟩
    rw [hstart, rd_setSide, rd_bumpBy_same, rd_setSide, hstays.regs _ (.inr rfl)]
    rfl
  case shaveCompletes =>
    obtain ⟨hb, hh, hruns, hw⟩ := ha
    intro v
    have hv : Stays (· ≠ Reg.BEN_EXC_FIRST b) (advanceTo r.due s) v.2 :=
      (shaveUpto_adds (fun k => k rfl) h (r.due + 1) r (advanceTo r.due s)).stays
    have hside : Stays (· ≠ Reg.BEN_EXC_FIRST b) v.2 (setSide b h { sideOf b h s with shaveRuns := rest } v.2) := .setSide ..
    have hgather := Stays.gather (K := fun _ => False) b h v.1.flags (setSide b h { sideOf b h s with shaveRuns := rest } v.2)
      (fun _ _ _ _ k => k)
    have hbench := (gather_onlyRegs b h v.1.flags (setSide b h { sideOf b h s with shaveRuns := rest } v.2)).benches
    refine ⟨_, seqRow_next _ hb hh hruns (shaveComplete_completes hr) (hgather.work.trans (hv.work.trans hw)),
      hgather.cycle.trans hv.cycle, ?_, ?_, fun c hc hc16 k hk => ?_, hgather.tabs.trans hv.tabs, hgather.sram.trans hv.sram⟩
    · rw [sideOf_of_benches b h hbench, sideOf_setSide_same]
    · rw [benchOf_of_benches b hbench, setSide, benchOf_setBench_same]
      exact Bench.setSide_accs ..
    · refine (rd_gather ((hside.ctxOf b h).trans ((hv.ctxOf b h).trans hc)) k hk).trans (congrArg (· + _) ?_)
      rw [rd_setSide]
      exact hv.regs _ (excReg_apart b c k hc16 hk)
  case loadBegins =>
    intro c u stile fmt width per sp due hready hq hf hwide hper hts hrun
    have hecc : ¬ (fun _ => False) (Reg.BEN_SRAM_ECC_CORR b) := fun k => k
    have hread := readRun_vals (K := fun _ => False) (fun k => k) hrun
    have hstays := (Stays.taken (b := b) h uLoad (freeAt b h (·.loadFree) s) e s hecc).trans hread.stays
    have hload := loadBegin_begins hq hf hwide hper hts hrun
    rw [show w.cycle = c from hstays.cycle] at hload
    have hst : seqOf b h (loadBegin b h e s) = seqOf b h s := by
      rw [hload, seqOf_setSide, seqOf_setSide]
      exact hstays.seqs b h
    refine ⟨_, seqRow_unit ha hready rfl (congrArg Seq.st hst), ?_⟩
    rw [hload, sideOf_setSide_same]
    exact ⟨rfl, rfl, rfl⟩
  case loadCompletes =>
    obtain ⟨hb, hh, hruns, hw⟩ := ha
    obtain ⟨hload, hwork⟩ := loadComplete_completes hr
    exact seqRow_next _ hb hh hruns hload (hwork.trans hw)

end Sys2Proof.Proofs
end

section
/-!
The Sander unit and the store unit (O12): what begins, and the tile that a result leaves.
-/
namespace Sys2Proof.Machine

/-! ## A tile written whole (R87, R93) -/

theorem walkBytes_cellsOf (bs : List Byte) (a : Nat) : walkBytes bs.length a (cellsOf a bs) = bs := by
  induction bs generalizing a with
  | nil => rfl
  | cons x xs ih =>
    rw [cellsOf, List.length_cons]
    split
    next hx =>
      subst hx
      have htail := ih (a + 1)
      cases hc : cellsOf (a + 1) xs with
      | nil => rw [hc] at htail; exact congrArg (0 :: ·) htail
      | cons p ps =>
        have hp := cellsOf_range (a + 1) xs p (hc ▸ List.mem_cons_self ..)
        rw [hc] at htail
        rw [walkBytes, if_neg (by omega)]
        exact congrArg (0 :: ·) htail
    · rw [walkBytes, if_pos rfl, ih]

/-- The bytes that were written read back. -/
theorem memRead_memWrite (m : SMap Byte) (a : Nat) (bs : List Byte) : memRead (memWrite m a bs) a bs.length = bs := by
  have hlo : (m.filter (fun p => p.1 < a)).filter (fun p => a ≤ p.1 && p.1 < a + bs.length) = [] := by
    rw [List.filter_eq_nil_iff]
    intro p hp
    have := (List.mem_filter.1 hp).2
    simp only [decide_eq_true_eq, Bool.and_eq_true] at this ⊢
    omega
  have hhi : (m.filter (fun p => a + bs.length ≤ p.1)).filter (fun p => a ≤ p.1 && p.1 < a + bs.length) = [] := by
    rw [List.filter_eq_nil_iff]
    intro p hp
    have := (List.mem_filter.1 hp).2
    simp only [decide_eq_true_eq, Bool.and_eq_true] at this ⊢
    omega
  have hin : (cellsOf a bs).filter (fun p => a ≤ p.1 && p.1 < a + bs.length) = cellsOf a bs := by
    rw [List.filter_eq_self]
    intro p hp
    obtain ⟨h1, h2, -⟩ := cellsOf_range a bs p hp
    simp [h1, h2]
  rw [memRead, memWrite, List.filter_append, List.filter_append, hlo, hhi, hin, List.nil_append, List.append_nil]
  exact walkBytes_cellsOf bs a

theorem length_subBytes (bs : List Byte) (off n : Nat) : (subBytes bs off n).length = n := by
  simp only [subBytes, List.length_append, List.length_take, List.length_replicate]
  omega

section
variable (b t : Nat) (x : Tile) (s : State)

theorem setBenchTile_payload : (benchTile b t (setBenchTile b t x s)).payload = subBytes x.payload 0 4096 := by
  have h := memRead_memWrite s.sram (btKey b t * 4096) (subBytes x.payload 0 4096)
  rwa [length_subBytes] at h

theorem setBenchTile_tag : benchTag b t (setBenchTile b t x s) = x.tag := smGet_smPut_same ..

/-- Writing a tile drops it from the companions kept, and leaves the rest of the sides and the sequencers. -/
theorem setBenchTile_parts (a p : Nat) : seqOf a p (setBenchTile b t x s) = seqOf a p s ∧
    ∃ cbs, sideOf a p (setBenchTile b t x s) = { sideOf a p s with cbs := cbs } := by
  unfold setBenchTile
  dsimp only
  by_cases ha : a = b
  · subst ha
    simp only [seqOf, sideOf, benchOf_setBench_same, Bench.seq, Bench.side]
    constructor
    · split <;> rfl
    · split <;> exact ⟨_, rfl⟩
  · simp only [seqOf, sideOf, benchOf_setBench_other _ _ ha]
    exact ⟨rfl, _, rfl⟩
end

/-! ## What a tile's landing and its records leave (R131, R383) -/

/-- The benches, their tiles and the count of free values are as they were. -/
structure SameBenches (s t : State) : Prop where
  benches : t.benches = s.benches
  sram : t.sram = s.sram
  stags : t.stags = s.stags
  fresh : t.fresh = s.fresh

section
variable {s t u : State}
theorem SameBenches.refl (s : State) : SameBenches s s := ⟨rfl, rfl, rfl, rfl⟩
theorem SameBenches.trans (h : SameBenches s t) (k : SameBenches t u) : SameBenches s u :=
  ⟨k.benches.trans h.benches, k.sram.trans h.sram, k.stags.trans h.stags, k.fresh.trans h.fresh⟩
theorem SameBenches.of_onlyRegs (h : OnlyRegs s t) : SameBenches s t := by
  obtain ⟨r, rfl⟩ := h
  exact ⟨rfl, rfl, rfl, rfl⟩
end

section
variable (s : State)

theorem SameBenches.wr (k : Nat) (v : Word) : SameBenches s (wr k v s) := ⟨rfl, rfl, rfl, rfl⟩
theorem SameBenches.wrF (k : Nat) (f : Fld) (x : Nat) : SameBenches s (wrF k f x s) := ⟨rfl, rfl, rfl, rfl⟩
theorem SameBenches.bump (k : Nat) : SameBenches s (bump k s) := ⟨rfl, rfl, rfl, rfl⟩
theorem SameBenches.bumpBy (n k : Nat) : SameBenches s (bumpBy n k s) := ⟨rfl, rfl, rfl, rfl⟩
theorem SameBenches.defer (w : Work) : SameBenches s (defer w s) := ⟨rfl, rfl, rfl, rfl⟩

theorem msixRaise_sameBenches (n : Nat) : SameBenches s (msixRaise n s) := by
  unfold msixRaise
  split
  · exact ⟨rfl, rfl, rfl, rfl⟩
  · split <;> exact ⟨rfl, rfl, rfl, rfl⟩

theorem ibiEvent_sameBenches (n : Nat) : SameBenches s (ibiEvent n s) := by unfold ibiEvent; split <;> exact ⟨rfl, rfl, rfl, rfl⟩

theorem errPut_sameBenches (code kind index : Nat) (ctx : Option Nat) (ds : List Word) (dev cycle step : Nat) :
    SameBenches s (errPut code kind index ctx ds dev cycle step s) := by
  have stored : SameBenches s (errStored code kind index ctx ds dev cycle step s) := by
    rw [errStored, tbWs_eq_tabs]
    exact ⟨rfl, rfl, rfl, rfl⟩
  refine SameBenches.trans (t := if bitF Fld.ERR_CTL_IEN (rd Reg.ERR_CTL (errStored code kind index ctx ds dev cycle step s)) &&
    !(errStored code kind index ctx ds dev cycle step s).v16Sent then
      msixRaise 16 { errStored code kind index ctx ds dev cycle step s with v16Sent := true }
    else errStored code kind index ctx ds dev cycle step s) (stored.trans ?_) (ibiEvent_sameBenches ..)
  generalize errStored code kind index ctx ds dev cycle step s = u
  split
  · exact SameBenches.trans (t := { u with v16Sent := true }) ⟨rfl, rfl, rfl, rfl⟩ (msixRaise_sameBenches ..)
  · exact .refl u

theorem log_sameBenches (code kind index : Nat) (ctx : Option Nat) (ds : List Word) : SameBenches s (log code kind index ctx ds s) := by
  unfold log logAt
  split_ifs
  · exact .refl s
  · exact ⟨rfl, rfl, rfl, rfl⟩
  · exact errPut_sameBenches ..

theorem ctxFault_sameBenches (c code : Nat) : SameBenches s (ctxFault c code s) := by
  unfold ctxFault
  split
  · exact ((((SameBenches.wrF ..).trans (.wrF ..)).trans (.bump ..)).trans (log_sameBenches ..)).trans (.defer ..)
  · exact .refl s
end
/-- A comparison of Clamp records writes registers, and may record and fault. -/
theorem clampCompare_sameBenches (own twin : ClampRec) (s : State) : SameBenches s (clampCompare own twin s) := by
  unfold clampCompare
  dsimp only
  split
  · exact .bump ..
  · split
    · exact (SameBenches.bump ..).trans (.bump ..)
    · have hlog := fun (c : Option Nat) (ds : List Word) (u : State) => log_sameBenches u 0x0A01 kBench (seqKey own.bench own.seq) c ds
      have hset : ∀ w w', SameBenches s (wr Reg.DET_CLAMP_FIRST2 w' (wr Reg.DET_CLAMP_FIRST w
          (wrF Reg.DET_CLAMP_STATUS Fld.DET_CLAMP_STATUS_DIVERGED 1 (bump Reg.DET_CLAMP_MISMATCH (bump Reg.DET_CLAMP_RECORDS s))))) :=
        fun w w' => ((((SameBenches.bump ..).trans (.bump ..)).trans (.wrF ..)).trans (.wr ..)).trans (.wr ..)
      split
      · split
        · exact ((hset ..).trans (hlog ..)).trans (ctxFault_sameBenches ..)
        · exact (hset ..).trans (hlog ..)
      · exact (hset ..).trans (hlog ..)

theorem clampRoom_sameBenches (s : State) : SameBenches s (clampRoom s) := by
  unfold clampRoom
  split
  · exact .refl s
  · refine SameBenches.trans (t := { s with clamp := { s.clamp with queue := s.clamp.queue.drop 1
                                                                    out := s.clamp.out.filter (fun z => !(s.clamp.queue.take 1).contains z) } })
      ⟨rfl, rfl, rfl, rfl⟩ ?_
    dsimp only
    split
    · exact .bump ..
    · exact ((SameBenches.bump ..).trans (.wrF ..)).trans (log_sameBenches ..)

/-- A record that waits for its partner joins the queue. -/
theorem clampKept_sameBenches (x : ClampRec) (s : State) : SameBenches s (clampQueued { clampOut x (clampRoom s) with
    clamp := { (clampOut x (clampRoom s)).clamp with queue := (clampOut x (clampRoom s)).clamp.queue ++ [x] } }) := by
  have h := clampRoom_sameBenches s
  generalize clampRoom s = u at h ⊢
  exact h.trans ⟨rfl, rfl, rfl, rfl⟩

theorem clampMake_sameBenches (b q tile crc pg : Nat) (s : State) : SameBenches s (clampMake b q tile crc pg s) := by
  unfold clampMake
  dsimp only
  split
  · exact .refl s
  · split
    · exact .refl s
    · split
      · refine SameBenches.trans ?_ (clampCompare_sameBenches _ _ _)
        exact ⟨rfl, rfl, rfl, rfl⟩
      · refine SameBenches.trans ?_ (clampKept_sameBenches _ _)
        exact ⟨rfl, rfl, rfl, rfl⟩

/-- A write into a mapped tile marks its object, and leaves the benches. -/
theorem markWritten_sameBenches (b t : Nat) (s : State) : SameBenches s (markWritten b t s) := by
  unfold markWritten
  split
  · exact .refl s
  · dsimp only
    split
    · split
      · exact (SameBenches.bump ..).trans (log_sameBenches ..)
      · exact .refl s
    · split <;> split <;> exact ⟨rfl, rfl, rfl, rfl⟩

/-! ## The tile that a result leaves (R80, R93) -/

/-- What landing a tile leaves: its payload and tag, and the sequencers and sides but for companions kept. -/
structure Landed (b x : Nat) (y : Tile) (s t : State) : Prop where
  payload : (benchTile b x t).payload = subBytes y.payload 0 4096
  tag : benchTag b x t = y.tag
  fresh : t.fresh = s.fresh
  st : ∀ a p, (seqOf a p t).st = (seqOf a p s).st
  sides : ∀ a p, ∃ cbs, sideOf a p t = { sideOf a p s with cbs := cbs }

section
variable {b x : Nat} {y : Tile} {s t u : State}

theorem Landed.of_sameBenches (h : Landed b x y s t) (k : SameBenches t u) : Landed b x y s u := by
  obtain ⟨hb, hsram, hstags, hfresh⟩ := k
  refine ⟨?_, ?_, hfresh.trans h.fresh, fun a p => ?_, fun a p => ?_⟩
  · rw [← h.payload, benchTile, benchTile, hsram]
  · rw [← h.tag, benchTag, benchTag, hstags]
  · rw [seqOf_of_benches a p hb]
    exact h.st a p
  · rw [sideOf_of_benches a p hb]
    exact h.sides a p

/-- A landing writes its tile, and marks the object that the tile is mapped to. -/
theorem landTile_landed (b x : Nat) (y : Tile) (s : State) : Landed b x y s (landTile b x y s) := by
  have stored (u : State) (h : SameBenches s u) : Landed b x y s (setBenchTile b x y u) := by
    refine ⟨setBenchTile_payload .., setBenchTile_tag .., h.fresh, fun a p => ?_, fun a p => ?_⟩
    · rw [(setBenchTile_parts b x y u a p).1, seqOf_of_benches a p h.benches]
    · rw [← sideOf_of_benches a p h.benches]
      exact (setBenchTile_parts b x y u a p).2
  unfold landTile
  dsimp only
  split
  · exact (stored (saveBacks _ _ _ s) ⟨rfl, rfl, rfl, rfl⟩).of_sameBenches (markWritten_sameBenches ..)
  · exact (stored s (.refl s)).of_sameBenches (markWritten_sameBenches ..)

/-- Letting issue go on leaves the sides, the tiles and whether the sequencer runs. -/
theorem Landed.endTrapWait (h : Landed b x y s t) (a q po : Nat) : Landed b x y s (endTrapWait a q po t) := by
  unfold Machine.endTrapWait
  dsimp only
  split
  · split
    · refine ⟨?_, ?_, (setSeq_fresh ..).trans h.fresh, fun c p => ?_, fun c p => ?_⟩
      · rw [← h.payload, benchTile, benchTile, setSeq_sram]
      · rw [← h.tag, benchTag, benchTag, setSeq_stags]
      · rw [← h.st c p]
        by_cases hcp : c ≠ a ∨ (p = 0 ↔ q ≠ 0)
        · rw [seqOf_setSeq_other _ _ _ _ hcp]
        · obtain ⟨rfl, hpq⟩ : c = a ∧ (p = 0 ↔ q = 0) := by
            rw [not_or, not_not] at hcp
            exact ⟨hcp.1, by have := hcp.2; tauto⟩
          have hseq (v : State) : seqOf c p v = seqOf c q v := by simp only [seqOf, Bench.seq, hpq]
          rw [hseq, hseq, seqOf_setSeq_same]
      · rw [sideOf_setSeq]
        exact h.sides c p
    · exact h
  · exact h

/-- The tag of a result: its checksum, format and flags, and the origin of the tile that it overwrites. -/
def resultTag (b dst fmt own : Nat) (enc : TileEnc) (s : State) : BitVec 128 :=
  mkTag (crc32c enc.payload) fmt (own ||| enc.flags ||| (if enc.flushed > 0 then flFlush else 0) |||
    (if enc.lost > 0 then flEscLost else 0)) enc.side 0 (tagF Fld.TAG_ORIGIN (benchTag b dst s))

theorem writeResult_landed (b q pg dst fmt own : Nat) (enc : TileEnc) (s : State) :
    Landed b dst ⟨resultTag b dst fmt own enc s, enc.payload⟩ s (writeResult b q pg dst fmt own enc s) := by
  have h := landTile_landed b dst ⟨resultTag b dst fmt own enc s, enc.payload⟩ s
  unfold writeResult
  dsimp only
  unfold resultTag at h ⊢
  refine Landed.of_sameBenches ?_ (clampMake_sameBenches _ _ _ _ _ _)
  refine Landed.of_sameBenches h ?_
  generalize landTile b dst _ s = u
  split
  · split <;> split <;> exact ⟨rfl, rfl, rfl, rfl⟩
  · exact .refl _

/-- A result is written, its flags gathered and issue let go on. -/
theorem result_landed (b q pg dst fmt own fl po : Nat) (enc : TileEnc) (s : State) :
    Landed b dst ⟨resultTag b dst fmt own enc s, enc.payload⟩ s
      (endTrapWait b q po (gather b q fl (writeResult b q pg dst fmt own enc s))) :=
  ((writeResult_landed ..).of_sameBenches (.of_onlyRegs (gather_onlyRegs ..))).endTrapWait b q po
end

end Sys2Proof.Machine
end

section
/-!
SAND and STORE, from their units' beginning to the tile that they leave (O12).
-/
namespace Sys2Proof.Machine

/-! ## Bringing a side's adds and reads up to a cycle (R28, R30, R48) -/

/-- What the Shave path and the store unit do to accumulators leaves the rest of the state, and the STOREs that run. -/
structure Sweeps (K : Nat → Prop) (s t : State) : Prop where
  stays : Stays K s t
  storeRuns : ∀ a p, (sideOf a p t).storeRuns = (sideOf a p s).storeRuns

section
variable {K : Nat → Prop} {b : Nat} {s t u : State}

theorem Sweeps.refl (K : Nat → Prop) (s : State) : Sweeps K s s := ⟨.refl K s, fun _ _ => rfl⟩
theorem Sweeps.trans (h : Sweeps K s t) (k : Sweeps K t u) : Sweeps K s u :=
  ⟨h.stays.trans k.stays, fun a p => (k.storeRuns a p).trans (h.storeRuns a p)⟩
theorem Sweeps.of_adds (h : Adds K s t) : Sweeps K s t := ⟨h.stays, fun a p => congrArg Side.storeRuns (h.side a p)⟩

/-- Storing the SHAVEs of a side. -/
theorem Sweeps.setShaves (b q : Nat) (l : List Run) (s : State) : Sweeps K s (setSide b q { sideOf b q s with shaveRuns := l } s) := by
  refine ⟨.setSide .., fun a p => ?_⟩
  by_cases h : a ≠ b ∨ (p = 0 ↔ q ≠ 0)
  · rw [sideOf_setSide_other _ _ _ _ h]
  · obtain ⟨rfl, hpq⟩ : a = b ∧ (p = 0 ↔ q = 0) := by
      rw [not_or, not_not] at h
      exact ⟨h.1, by have := h.2; tauto⟩
    rw [sideOf_eq hpq, sideOf_setSide_same, sideOf_eq hpq]

theorem shavesUpto_adds (hK : ¬ K (Reg.BEN_EXC_FIRST b)) (q x : Nat) (rs : List Run) (s : State) :
    Adds K s (shavesUpto b q x rs s).2 := by
  induction rs generalizing s with
  | nil => exact .refl K s
  | cons r rs ih => exact (shaveUpto_adds hK q x r s).trans (ih _)

theorem syncShaves_sweeps (hK : ¬ K (Reg.BEN_EXC_FIRST b)) (q x : Nat) (s : State) : Sweeps K s (syncShaves b q x s) :=
  (Sweeps.of_adds (shavesUpto_adds hK q x _ s)).trans (.setShaves ..)

theorem storeReads_sweeps (hK : ¬ K (Reg.BEN_EXC_FIRST b)) (q : Nat) (r : Run) (n k : Nat) (s : State) :
    Sweeps K s (storeReads b q r n k s).1 := by
  induction n generalizing k s with
  | zero => exact .refl K s
  | succ n ih =>
    have hsync := syncShaves_sweeps hK q (r.start + k) s
    generalize hu : syncShaves b q (r.start + k) s = u at hsync
    simp only [storeReads, hu]
    split
    · exact (hsync.trans (.of_adds (.setAccs b _ u))).trans (ih (k + 1) _)
    · exact hsync.trans (ih (k + 1) _)

theorem storeUpto_sweeps (hK : ¬ K (Reg.BEN_EXC_FIRST b)) (q x : Nat) (r : Run) (s : State) : Sweeps K s (storeUpto b q x r s).2 :=
  storeReads_sweeps hK q r _ _ s

theorem storesUpto_stays (hK : ¬ K (Reg.BEN_EXC_FIRST b)) (q x : Nat) (rs : List Run) (s : State) :
    Stays K s (storesUpto b q x rs s).2 := by
  induction rs generalizing s with
  | nil => exact .refl K s
  | cons r rs ih => exact (storeUpto_sweeps hK q x r s).stays.trans (ih _)

theorem catchUp_stays (hK : ¬ K (Reg.BEN_EXC_FIRST b)) (q x : Nat) (s : State) : Stays K s (catchUp b q x s) :=
  ((storesUpto_stays hK q x _ s).trans (.setSide ..)).trans (syncShaves_sweeps hK q x _).stays

end

/-! ## The beginning of a SAND or a STORE (R31, R48, R50, R536) -/

section
variable {b h : Nat} {e : Ecc} {op : UOp} {rest : List UOp} {s : State}

/-- The store unit begins a STORE, with its codebook where its format has one. -/
theorem storeStart_begins {book : CbRes} {bk : List FVal} {x : Nat} {w : State} :
    let st := w.cycle + x
    (sideOf b h s).storeQ = op :: rest →
    bookForEncode b h 5 op.dst (storeDfmt op) e (taken b h uStore (freeAt b h (·.storeFree) s) e s) = (book, w) →
    (book = .none ∧ bk = [] ∧ x = 0) ∨ book = .book bk x →
    storeStart b h e s =
      setSide b h { sideOf b h w with
        storeQ := rest
        storeFree := st + op.num
        storeRuns := (sideOf b h w).storeRuns ++ [⟨op, st, st + op.num - 1 + 8, storeDfmt op, [], [], bk, 0, 0⟩] }
        (setSide b h { sideOf b h w with storeQ := rest } w) := by
  intro st hq hbook hcase
  unfold storeStart
  simp only [hq]
  rw [show bookForEncode b h 5 op.dst (storeDfmt op) e (eccCount b e (serve b h uStore
    (advanceTo (freeAt b h (·.storeFree) s) s))) = (book, w) from hbook]
  obtain ⟨rfl, rfl, rfl⟩ | rfl := hcase <;> simp only [sideOf_setSide_same] <;> rfl

/-- The Sander unit begins a SAND whose sources pass their checks and fit. -/
theorem sandStart_begins {v v2 bk : List FVal} {x y z : Nat} {s2 s3 s4 : State} {book : CbRes} :
    let u := taken b h uSand (freeAt b h (·.sandFree) s) e s
    let n := elemsIn b op.tile u
    let rate := sideRate b (if sandFunc op ≤ 0x14 then 32 else 16) s4
    let occ := (n + rate - 1) / rate
    let st := s4.cycle + x + y + z
    (sideOf b h s).sandQ = op :: rest →
    readTile b h 4 convSand op.tile e u = (.vals v x, s2) → n ≤ fmtCapacity (sandDfmt op) →
    (sandBinary op = true → fmtDefined (fmtOf b op.aux s2) = true ∧ elemsIn b op.aux s2 ≠ 0 ∧
      ∀ k ∈ src2Tiles b op s2, runInTiles b h k 1 s2 = true) →
    readRun b h 4 convSand (fmtOf b op.aux s2) (elemsIn b op.aux s2) e (src2Tiles b op s2) s2 = (.vals v2 y, s3) →
    bookForEncode b h 6 op.dst (sandDfmt op) e s3 = (book, s4) →
    (book = .none ∧ bk = [] ∧ z = 0) ∨ book = .book bk z →
    sandStart b h e s =
      setSide b h { sideOf b h s4 with
        sandQ := rest
        sandFree := st + occ
        sandRuns := (sideOf b h s4).sandRuns ++
          [⟨op, st, st + occ - 1 + 12, fmtOf b op.tile u, fitVals n v, v2.take n, bk, 0, 0⟩] }
        (bumpBy occ (Reg.BEN_SAND_BUSY b) (setSide b h { sideOf b h s4 with sandQ := rest } s4)) := by
  intro u n rate occ st hq hread hfit hbin hrun hbook hcase
  have hdef : ¬ (sandBinary op && !fmtDefined (fmtOf b op.aux s2)) = true := by
    rintro hk
    simp only [Bool.and_eq_true, Bool.not_eq_true'] at hk
    obtain ⟨hf, -, -⟩ := hbin hk.1
    simp [hf] at hk
  have hroom : ¬ (sandBinary op && (elemsIn b op.aux s2 == 0 || !(src2Tiles b op s2).all (fun t => runInTiles b h t 1 s2))) = true := by
    rintro hk
    simp only [Bool.and_eq_true] at hk
    obtain ⟨-, hper, hts⟩ := hbin hk.1
    have hall : (src2Tiles b op s2).all (fun t => runInTiles b h t 1 s2) = true := List.all_eq_true.2 hts
    simp [hper, hall] at hk
  unfold sandStart
  simp only [hq]
  rw [show eccCount b e (serve b h uSand (advanceTo (freeAt b h (·.sandFree) s) s)) = u from rfl]
  simp only [hread]
  rw [if_neg (Nat.not_lt.2 hfit), if_neg hdef, if_neg hroom]
  simp only [hrun, hbook]
  obtain ⟨rfl, rfl, rfl⟩ | rfl := hcase <;> simp only [sideOf_bumpBy, sideOf_setSide_same] <;> rfl
end

/-! ## The end of a SAND or a STORE (R34, R74, R82) -/

/-- What a result's writing starts from: its run has left the unit, and a free value has been taken. -/
structure Finished (b h : Nat) (s w : State) : Prop where
  fresh : w.fresh = s.fresh + 1
  stags : w.stags = s.stags
  seqs : ∀ a p, seqOf a p w = seqOf a p s

/-- The encoding of a result: the free value's code fills a codebook's gaps. -/
def resultEnc (fmt : Nat) (book vals : List FVal) (s : State) : TileEnc :=
  encodeTile fmt (if fmt = fmtCB16 then Config.freeCode s.fresh % 255 % 16 else Config.freeCode s.fresh % 255) book vals

/-- The counted free value, its code aside. -/
theorem Stays.of_fresh {K : Nat → Prop} {n : Nat} {s t : State} (h : Stays K { s with fresh := n } t) :
    t.fresh = n ∧ t.stags = s.stags ∧ (∀ a p, seqOf a p t = seqOf a p s) ∧ ∀ k, K k → rd k t = rd k s :=
  ⟨h.fresh, h.stags, h.seqs, h.regs⟩

theorem excCtl_ne_excFirst (b : Nat) : Reg.BEN_EXC_CTL b ≠ Reg.BEN_EXC_FIRST b := by
  unfold Reg.BEN_EXC_CTL Reg.BEN_EXC_FIRST; omega

/-- The oldest SAND completes where nothing traps. -/
theorem sandComplete_completes {b h : Nat} {r : Run} {rest : List Run} {s : State} :
    let res := sandResults r
    let enc := resultEnc (sandDfmt r.op) r.book (res.map (·.1)) s
    let own := orAll (res.map (·.2))
    (sideOf b h s).sandRuns = r :: rest → writeHeld b h r.op s = false → trapMask b s &&& (own ||| enc.flags) = 0 →
    ∃ w, sandComplete b h s = endTrapWait b h r.op.po (gather b h (own ||| enc.flags)
        (writeResult b h r.op.pg r.op.dst (sandDfmt r.op) own enc w)) ∧
      Finished b h s w ∧ (sideOf b h w).sandRuns = rest := by
  intro res enc own hr hw ht
  have hall (ev : List (Nat × Nat)) := Stays.of_fresh (Stays.trans
    (Stays.setSide b h { sideOf b h s with sandRuns := rest } { advanceTo r.due s with fresh := s.fresh + 1 })
    (Stays.excRecord (K := (· ≠ Reg.BEN_EXC_FIRST b)) _ 2 0 (r.op.passNo % 2 ^ 28) ev (fun k => k rfl)))
  simp only [sandComplete, hr, takeCode, nextFresh]
  rw [if_neg (by simp [hw])]
  refine ⟨_, if_neg ?_, ?_, ?_⟩
  · obtain ⟨-, -, -, hregs⟩ := hall _
    refine not_not.2 (Eq.trans (congrArg (· &&& (own ||| enc.flags)) ?_) ht)
    exact congrArg (getF Fld.BEN_EXC_CTL_TRAP) (hregs _ (excCtl_ne_excFirst b))
  · obtain ⟨hfresh, hstags, hseqs, -⟩ := hall _
    exact ⟨hfresh, hstags, hseqs⟩
  · rw [sideOf_of_benches b h (excRecord_onlyRegs ..).benches, sideOf_setSide_same]

/-- Clearing accumulators leaves the rest of the state. -/
theorem clearAccs_adds (K : Nat → Prop) (b q : Nat) (op : UOp) (s : State) : Adds K s (clearAccs b q op s) := by
  unfold clearAccs
  generalize upto op.num = l
  induction l generalizing s with
  | nil => exact .refl K s
  | cons k l ih => exact (Adds.setAccs b _ s).trans (ih _)

/-- The record of a STORE's first encoding flag that is recorded (R81). -/
def storeRecorded (b : Nat) (r : Run) (enc : TileEnc) (s : State) : State :=
  match (enc.each.zipIdx.map (fun p => (p.2, p.1))).find?
      (fun p => p.2 &&& rdF (Reg.BEN_EXC_CTL b) Fld.BEN_EXC_CTL_RECORD s != 0) with
  | some p => excRecord b 3 (r.op.aux + p.1 / laneCount b s) (r.op.passNo % 2 ^ 28) [p] s
  | none => s

theorem storeRecorded_adds {K : Nat → Prop} {b : Nat} (hK : ¬ K (Reg.BEN_EXC_FIRST b)) (r : Run) (enc : TileEnc) (s : State) :
    Adds K s (storeRecorded b r enc s) := by
  unfold storeRecorded
  split
  · exact .of_benches (.excRecord _ _ _ _ _ hK) (excRecord_onlyRegs ..).benches
  · exact .refl K s

/-- The accumulators that a STORE with CLR clears at its end. -/
def storeCleared (b h : Nat) (op : UOp) (s : State) : State := if storeClr op && trapMask b s != 0 then clearAccs b h op s else s

theorem storeCleared_adds (K : Nat → Prop) (b h : Nat) (op : UOp) (s : State) : Adds K s (storeCleared b h op s) := by
  unfold storeCleared
  split
  · exact clearAccs_adds K b h op s
  · exact .refl K s

/-- The state in which a STORE that has read its accumulators has left its unit, a free value taken. -/
def storeRead (b h : Nat) (v : State) : State :=
  { setSide b h { sideOf b h v with storeRuns := (sideOf b h v).storeRuns.drop 1 } v with fresh := v.fresh + 1 }

/-- How a STORE's completion goes: its reads, its record, and the trap or the result. -/
theorem storeComplete_eq {b h : Nat} {r : Run} {rest : List Run} {s : State} (hr : (sideOf b h s).storeRuns = r :: rest)
    (hw : writeHeld b h r.op s = false) :
    let v := storeUpto b h r.due r (advanceTo r.due s)
    let enc := resultEnc v.1.fmt v.1.book v.1.vals v.2
    let u := storeRecorded b v.1 enc (storeRead b h v.2)
    storeComplete b h s = if trapMask b u &&& (v.1.flags ||| enc.flags) ≠ 0 then opFault b h cArith v.1.op u else
      endTrapWait b h v.1.op.po (gather b h enc.flags
        (writeResult b h v.1.op.pg v.1.op.dst v.1.fmt v.1.flags enc (storeCleared b h v.1.op u))) := by
  intro v enc u
  unfold storeComplete
  rw [hr]
  exact if_neg (by simp [hw])

/-- The oldest STORE completes where nothing traps. -/
theorem storeComplete_completes {b h : Nat} {r : Run} {rest : List Run} {s : State} :
    let v := storeUpto b h r.due r (advanceTo r.due s)
    let enc := resultEnc v.1.fmt v.1.book v.1.vals s
    (sideOf b h s).storeRuns = r :: rest → writeHeld b h r.op s = false → trapMask b s &&& (v.1.flags ||| enc.flags) = 0 →
    ∃ w, storeComplete b h s = endTrapWait b h r.op.po (gather b h enc.flags
        (writeResult b h r.op.pg r.op.dst v.1.fmt v.1.flags enc w)) ∧
      Finished b h s w ∧ (sideOf b h w).storeRuns = rest := by
  intro v enc hr hw ht
  have hv : Sweeps (· ≠ Reg.BEN_EXC_FIRST b) (advanceTo r.due s) v.2 := storeUpto_sweeps (fun k => k rfl) ..
  have henc : resultEnc v.1.fmt v.1.book v.1.vals v.2 = enc := by
    simp only [resultEnc, hv.stays.fresh]
    rfl
  have heq := storeComplete_eq hr hw
  dsimp only at heq
  rw [show storeUpto b h r.due r (advanceTo r.due s) = v from rfl, henc] at heq
  have hend : Adds (· ≠ Reg.BEN_EXC_FIRST b) (storeRead b h v.2) (storeRecorded b v.1 enc (storeRead b h v.2)) :=
    storeRecorded_adds (fun k => k rfl) ..
  generalize storeRecorded b v.1 enc (storeRead b h v.2) = u at heq hend
  have hclr := hend.trans (storeCleared_adds _ b h r.op u)
  have hmask : trapMask b u = trapMask b s :=
    (hend.stays.trapMask (excCtl_ne_excFirst b)).trans (hv.stays.trapMask (excCtl_ne_excFirst b))
  rw [if_neg (not_not.2 (by rw [hmask, ht]))] at heq
  refine ⟨storeCleared b h r.op u, heq, ⟨?_, ?_, fun a p => ?_⟩, ?_⟩
  · exact hclr.stays.fresh.trans (congrArg (· + 1) hv.stays.fresh)
  · exact hclr.stays.stags.trans hv.stays.stags
  · exact (hclr.stays.seqs a p).trans ((seqOf_setSide ..).trans (hv.stays.seqs a p))
  · have hruns : (sideOf b h v.2).storeRuns = r :: rest := (hv.storeRuns b h).trans hr
    rw [hclr.side b h, storeRead]
    exact (congrArg Side.storeRuns (sideOf_setSide_same ..)).trans (congrArg (List.drop 1) hruns)

/-- The registers of a bench's reads and checks are not its control register. -/
theorem benchCtl_apart (b : Nat) : ¬ Reg.BEN_SRAM_ECC_CORR b = Reg.BEN_CTL b ∧ ¬ Reg.BEN_CHECK_FIRST b = Reg.BEN_CTL b := by
  unfold Reg.BEN_SRAM_ECC_CORR Reg.BEN_CHECK_FIRST Reg.BEN_CTL
  omega

/-- Finding the codebook of a result leaves the state but for the companions kept. -/
theorem bookForEncode_reads {K : Nat → Prop} {b q who dst fmt z : Nat} {e : Ecc} {bk : List FVal} {book : CbRes} {s w : State}
    (hK : ¬ K (Reg.BEN_CHECK_FIRST b)) (h : bookForEncode b q who dst fmt e s = (book, w))
    (hcase : (book = .none ∧ bk = [] ∧ z = 0) ∨ book = .book bk z) : Reads K s w := by
  obtain ⟨rfl, -, -⟩ | rfl := hcase
  · exact bookForEncode_none h ▸ .refl K s
  · exact bookForEncode_book hK h

end Sys2Proof.Machine

namespace Sys2Proof.Proofs
open Sys2Proof Sys2Proof.Machine

/-- Settles O12: the beginnings by their equations over what reads leave, the ends by the tile that a result lands. -/
theorem sandsAndStoresRun : Obligations.SandsAndStoresRun := by
  refine ⟨fun b h s ha => ⟨fun e op rest v v2 bk x y z s2 s3 s4 book => ?sandBegins, fun r rest => ?sandCompletes⟩,
    fun b h s ha => ⟨fun e op rest => ?storeBegins, fun e op rest bk x w => ?storeBeginsBook, fun r rest => ?storeCompletes⟩⟩
  case sandBegins =>
    intro c u n rate occ st hready hq hread hfit hbin hrun hbook hcase
    obtain ⟨hecc, hchk⟩ := benchCtl_apart b
    have hreads : Reads (· = Reg.BEN_CTL b) u s4 :=
      ((readTile_vals hchk hread).trans (readRun_vals hchk hrun)).trans (bookForEncode_reads hchk hbook hcase)
    have hstays := (Stays.taken (b := b) h uSand (freeAt b h (·.sandFree) s) e s hecc).trans hreads.stays
    obtain ⟨cbs, hsides⟩ := hreads.sides b h
    rw [show sideOf b h u = sideOf b h s from sideOf_taken ..] at hsides
    have hstart := sandStart_begins hq hread hfit hbin hrun hbook hcase
    rw [show s4.cycle = c from hstays.cycle, hstays.sideRate rfl, hsides] at hstart
    have hst : seqOf b h (sandStart b h e s) = seqOf b h s := by
      rw [hstart, seqOf_setSide, seqOf_bumpBy, seqOf_setSide]
      exact hstays.seqs b h
    refine ⟨_, seqRow_unit ha hready rfl (congrArg Seq.st hst), ?_⟩
    rw [hstart, sideOf_setSide_same]
    exact ⟨rfl, rfl, rfl⟩
  case sandCompletes =>
    intro res code d enc own fl hr hw ht
    obtain ⟨w, hdone, ⟨hfresh, hstags, hseqs⟩, hruns⟩ := sandComplete_completes hr hw ht
    have hland := result_landed b h r.op.pg r.op.dst d own (own ||| enc.flags) r.op.po enc w
    obtain ⟨cbs, hsides⟩ := hland.sides b h
    refine ⟨_, seqRow_unit ha rfl hdone ((hland.st b h).trans (congrArg Seq.st (hseqs b h))),
      (congrArg Side.sandRuns hsides).trans hruns, hland.fresh.trans hfresh, hland.payload, hland.tag.trans ?_⟩
    rw [resultTag, benchTag, hstags]
    rfl
  case storeBegins =>
    intro c hready hq hcb
    obtain ⟨hecc, -⟩ := benchCtl_apart b
    have hu := Stays.taken (K := (· = Reg.BEN_CTL b)) (b := b) h uStore (freeAt b h (·.storeFree) s) e s hecc
    have hstart := storeStart_begins (e := e) hq (bookForEncode_plain hcb) (.inl ⟨rfl, rfl, rfl⟩)
    rw [sideOf_taken, taken_cycle] at hstart
    have hall : Stays (· = Reg.BEN_CTL b) (advanceTo (freeAt b h (·.storeFree) s) s) (storeStart b h e s) := by
      rw [hstart]
      exact (hu.trans (.setSide ..)).trans (.setSide ..)
    have hside := congrArg (sideOf b h) hstart
    rw [sideOf_setSide_same] at hside
    exact ⟨_, seqRow_unit_next ha hready rfl (congrArg Seq.st (hall.seqs b h)) (hall.work.trans ha.2.2.2), hall.cycle,
      congrArg Side.storeQ hside, congrArg Side.storeFree hside, congrArg Side.storeRuns hside, hall.tabs, hall.sram⟩
  case storeBeginsBook =>
    intro u st hready hq hbook
    obtain ⟨hecc, hchk⟩ := benchCtl_apart b
    have hreads : Reads (· = Reg.BEN_CTL b) u w := bookForEncode_book hchk hbook
    have hstays := (Stays.taken (b := b) h uStore (freeAt b h (·.storeFree) s) e s hecc).trans hreads.stays
    obtain ⟨cbs, hsides⟩ := hreads.sides b h
    rw [show sideOf b h u = sideOf b h s from sideOf_taken ..] at hsides
    have hstart := storeStart_begins hq hbook (.inr rfl)
    rw [show w.cycle = max s.cycle (freeAt b h (·.storeFree) s) from hstays.cycle, hsides] at hstart
    have hst : seqOf b h (storeStart b h e s) = seqOf b h s := by
      rw [hstart, seqOf_setSide, seqOf_setSide]
      exact hstays.seqs b h
    refine ⟨_, seqRow_unit ha hready rfl (congrArg Seq.st hst), ?_⟩
    rw [hstart, sideOf_setSide_same]
    exact ⟨rfl, rfl, rfl⟩
  case storeCompletes =>
    intro v code enc fl hr hw ht
    obtain ⟨w, hdone, ⟨hfresh, hstags, hseqs⟩, hruns⟩ := storeComplete_completes hr hw ht
    have hland := result_landed b h r.op.pg r.op.dst v.1.fmt v.1.flags enc.flags r.op.po enc w
    obtain ⟨cbs, hsides⟩ := hland.sides b h
    refine ⟨_, seqRow_unit ha rfl hdone ((hland.st b h).trans (congrArg Seq.st (hseqs b h))),
      (congrArg Side.storeRuns hsides).trans hruns, hland.fresh.trans hfresh, hland.payload, hland.tag.trans ?_⟩
    rw [resultTag, benchTag, hstags]
    rfl

end Sys2Proof.Proofs
end

section
/-!
The row (O10): a PASS's dispatch, with the flip that it triggers, and its AC stage.
-/
namespace Sys2Proof.Machine

/-! ## The flip that a PASS triggers (R23) -/

/-- All but the benches is as `Stays` says, and the tiles' marks too. -/
structure Frames (K : Nat → Prop) (s t : State) : Prop where
  stays : Stays K { s with benches := t.benches } t
  sbad : t.sbad = s.sbad

/-- The stile banks of a bench, their roles and the ways in which its lanes are shared out are as they were. -/
structure SameLanes (b : Nat) (s t : State) : Prop where
  split : split b t = split b s
  shared : shared b t = shared b s
  banks : (benchOf b t).banks = (benchOf b s).banks
  lo : (benchOf b t).actLo = (benchOf b s).actLo
  hi : (benchOf b t).actHi = (benchOf b s).actHi
  other : (benchOf b t).actB = (benchOf b s).actB

section
variable {K : Nat → Prop} {b q : Nat} {s t u : State}

theorem Frames.refl (K : Nat → Prop) (s : State) : Frames K s s := ⟨.refl K s, rfl⟩

theorem Frames.of_stays (h : Stays K s t) (hb : t.sbad = s.sbad) : Frames K s t :=
  ⟨⟨h.cycle, h.tabs, h.sram, h.stags, h.work, h.fresh, fun _ _ => rfl, h.regs⟩, hb⟩

theorem Frames.trans (h : Frames K s t) (k : Frames K t u) : Frames K s u :=
  ⟨⟨k.stays.cycle.trans h.stays.cycle, k.stays.tabs.trans h.stays.tabs, k.stays.sram.trans h.stays.sram,
    k.stays.stags.trans h.stays.stags, k.stays.work.trans h.stays.work, k.stays.fresh.trans h.stays.fresh, fun _ _ => rfl,
    fun r hr => (k.stays.regs r hr).trans (h.stays.regs r hr)⟩, k.sbad.trans h.sbad⟩

/-- Fewer registers are kept. -/
theorem Frames.mono {L : Nat → Prop} (h : Frames K s t) (hle : ∀ k, L k → K k) : Frames L s t :=
  ⟨⟨h.stays.cycle, h.stays.tabs, h.stays.sram, h.stays.stags, h.stays.work, h.stays.fresh, fun _ _ => rfl,
    fun k hk => h.stays.regs k (hle k hk)⟩, h.sbad⟩

theorem Frames.split (h : Frames K s t) (hb : K (Reg.BEN_CTL b)) : split b t = split b s := h.stays.split hb
theorem Frames.shared (h : Frames K s t) : shared b t = shared b s := h.stays.shared b
theorem Frames.fmtOf (h : Frames K s t) (x : Nat) : fmtOf b x t = fmtOf b x s := h.stays.fmtOf b x
theorem Frames.elemsIn (h : Frames K s t) (x : Nat) : elemsIn b x t = elemsIn b x s := h.stays.elemsIn b x
theorem Frames.benchTile (h : Frames K s t) (x : Nat) : benchTile b x t = benchTile b x s := h.stays.benchTile b x
theorem Frames.checkOk (h : Frames K s t) (x : Nat) : checkOk b x t = checkOk b x s := by
  simp only [Machine.checkOk, h.benchTile, h.sbad, show benchTag b x t = benchTag b x s from h.stays.benchTag b x]

theorem Frames.setSeq (v : Seq) (s : State) (h : ¬ K (Reg.BEN_CYCLE_COUNT b)) : Frames K s (setSeq b q v s) :=
  ⟨⟨setSeq_cycle .., setSeq_tabs .., setSeq_sram .., setSeq_stags .., setSeq_work .., setSeq_fresh .., fun _ _ => rfl,
    fun _ hk => rd_setSeq _ _ _ _ (fun e => h (e ▸ hk))⟩, setSeq_sbad ..⟩

theorem SameLanes.trans (h : SameLanes b s t) (k : SameLanes b t u) : SameLanes b s u :=
  ⟨k.split.trans h.split, k.shared.trans h.shared, k.banks.trans h.banks, k.lo.trans h.lo, k.hi.trans h.hi, k.other.trans h.other⟩

/-- The lanes after a step that writes neither BEN_CTL nor the banks. -/
theorem SameLanes.of_frames (h : Frames K s t) (hK : K (Reg.BEN_CTL b))
    (hb : ∃ y : Bench, benchOf b t = { y with banks := (benchOf b s).banks, actLo := (benchOf b s).actLo,
                                               actHi := (benchOf b s).actHi, actB := (benchOf b s).actB }) : SameLanes b s t := by
  obtain ⟨y, hy⟩ := hb
  exact ⟨h.split hK, h.shared, by rw [hy], by rw [hy], by rw [hy], by rw [hy]⟩

theorem SameLanes.activeStile (h : SameLanes b s t) (q : Nat) : activeStile b q t = activeStile b q s := by
  simp only [Machine.activeStile, activeBank, Bench.bank, laneBase, laneCount, h.split, h.shared, h.banks, h.lo, h.hi, h.other]

theorem SameLanes.setSide (b q : Nat) (x : Side) (s : State) : SameLanes b s (setSide b q x s) := by
  refine .of_frames (K := fun _ => True) (.of_stays (.setSide ..) rfl) trivial ⟨benchOf b (Machine.setSide b q x s), ?_⟩
  rw [Machine.setSide, benchOf_setBench_same]
  unfold Bench.setSide
  split <;> rfl

theorem SameLanes.setSeq (b q : Nat) (v : Seq) (s : State) (h : Reg.BEN_CTL b ≠ Reg.BEN_CYCLE_COUNT b) :
    SameLanes b s (setSeq b q v s) := by
  refine .of_frames (K := (· ≠ Reg.BEN_CYCLE_COUNT b)) (.setSeq v s (fun k => k rfl)) h ⟨benchOf b (Machine.setSeq b q v s), ?_⟩
  obtain ⟨since, next, hy⟩ := benchOf_setSeq_same b q v s
  rw [hy]
  unfold Bench.setSeq
  split <;> rfl

/-- A flip exchanges the banks' roles alone. -/
theorem flipBanks_roles (b q : Nat) (s : State) : ∃ lo hi other,
    flipBanks b q s = setBench b { benchOf b s with actLo := lo, actHi := hi, actB := other } s := by
  unfold flipBanks
  dsimp only
  split_ifs <;> exact ⟨_, _, _, rfl⟩

theorem flipBanks_stays (K : Nat → Prop) (b q : Nat) (s : State) : Stays K s (flipBanks b q s) := by
  obtain ⟨lo, hi, other, e⟩ := flipBanks_roles b q s
  exact e ▸ .setBench s ⟨rfl, rfl⟩

theorem flipBanks_sbad (b q : Nat) (s : State) : (flipBanks b q s).sbad = s.sbad := by
  obtain ⟨lo, hi, other, e⟩ := flipBanks_roles b q s
  exact e ▸ rfl

theorem sideOf_flipBanks (b q p : Nat) (s : State) : sideOf b p (flipBanks b q s) = sideOf b p s := by
  obtain ⟨lo, hi, other, e⟩ := flipBanks_roles b q s
  rw [e, sideOf, benchOf_setBench_same]
  rfl

/-- Lanes alike are alike after a flip. -/
theorem SameLanes.flipBanks (h : SameLanes b s t) (q : Nat) : SameLanes b (flipBanks b q s) (flipBanks b q t) := by
  obtain ⟨hsplit, hshared, hbanks, hlo, hhi, hother⟩ := h
  have split' (u : State) : Machine.split b (Machine.flipBanks b q u) = Machine.split b u :=
    (flipBanks_stays (fun _ => True) b q u).split trivial
  have shared' (u : State) : Machine.shared b (Machine.flipBanks b q u) = Machine.shared b u :=
    (flipBanks_stays (fun _ => True) b q u).shared b
  refine ⟨by rw [split', split', hsplit], by rw [shared', shared', hshared], ?_, ?_, ?_, ?_⟩ <;>
  · simp only [Machine.flipBanks, hsplit, hshared]
    split_ifs <;> simp only [benchOf_setBench_same, hbanks, hlo, hhi, hother]

/-! ## Gathering at a flip (R79) -/

theorem rowGather_stays (q : Nat) (s : State) (h : ∀ c < 16, ∀ r ∈ excRegs c, ¬ K r) : Stays K s (rowGather b q s) := by
  have hside : Stays K s (Machine.setSide b q { sideOf b q s with rowFlags := 0 } (gather b q (sideOf b q s).rowFlags s)) :=
    (Stays.gather b q _ s h).trans (.setSide ..)
  unfold rowGather
  dsimp only
  split
  · exact ⟨hside.cycle, hside.tabs, hside.sram, hside.stags, hside.work, hside.fresh, hside.seqs, hside.regs⟩
  · exact hside

/-- Gathering at a flip writes one side of its bench, registers and Clamp's numbers. -/
theorem rowGather_benches (b q : Nat) (s : State) :
    (rowGather b q s).sbad = s.sbad ∧
      (rowGather b q s).benches = (Machine.setSide b q { sideOf b q s with rowFlags := 0 } s).benches := by
  obtain ⟨regs, hg⟩ := gather_onlyRegs b q (sideOf b q s).rowFlags s
  unfold rowGather
  dsimp only
  rw [hg]
  split <;> exact ⟨rfl, rfl⟩

theorem rowGather_lanes (q : Nat) (s : State) (h : ∀ c < 16, ∀ r ∈ excRegs c, r ≠ Reg.BEN_CTL b) :
    SameLanes b s (rowGather b q s) := by
  have hg : Stays (· = Reg.BEN_CTL b) s (rowGather b q s) := rowGather_stays q s h
  have hb := benchOf_of_benches b (rowGather_benches b q s).2
  have hs := SameLanes.setSide b q { sideOf b q s with rowFlags := 0 } s
  exact ⟨hg.split rfl, hg.shared b, by rw [hb, hs.banks], by rw [hb, hs.lo], by rw [hb, hs.hi], by rw [hb, hs.other]⟩

theorem sideOf_rowGather (b q p : Nat) (s : State) : ∃ fl, sideOf b p (rowGather b q s) = { sideOf b p s with rowFlags := fl } := by
  rw [sideOf_of_benches b p (rowGather_benches b q s).2]
  by_cases h : p = 0 ↔ q = 0
  · exact ⟨0, by rw [sideOf_eq h, sideOf_setSide_same, sideOf_eq h]⟩
  · exact ⟨_, sideOf_setSide_other _ _ _ _ (.inr (by tauto))⟩
end

/-- The SWAPs that stay pending when a PASS flips one of them, or none. -/
def swapsLeft (f : Option Swap) (l : List Swap) : List Swap :=
  match f with
  | some x => l.filter (· != x)
  | none => l

/-- The sequencer once a PASS has taken the SWAP that it triggers. -/
def swapTaken (b q : Nat) (f : Option Swap) (s : State) : State :=
  setSeq b q { seqOf b q s with swaps := swapsLeft f (seqOf b q s).swaps } s

/-- The flip of a PASS that triggers SWAP `f`: the SWAP leaves, the banks exchange roles and the row's flags are gathered. -/
def flipped (b q : Nat) (f : Option Swap) (s : State) : State :=
  if f.isSome then rowGather b q (flipBanks b q (swapTaken b q f s)) else s

section
variable {K : Nat → Prop} (b q : Nat) (f : Option Swap) (s : State)

theorem flipped_frames (hcyc : ¬ K (Reg.BEN_CYCLE_COUNT b)) (h : ∀ c < 16, ∀ r ∈ excRegs c, ¬ K r) : Frames K s (flipped b q f s) := by
  unfold flipped
  split
  · exact ((Frames.setSeq _ s hcyc).trans (.of_stays (flipBanks_stays ..) (flipBanks_sbad ..))).trans
      (.of_stays (rowGather_stays q _ h) (rowGather_benches ..).1)
  · exact .refl K s

theorem seqOf_flipped : seqOf b q (flipped b q f s) = { seqOf b q s with swaps := swapsLeft f (seqOf b q s).swaps } := by
  unfold flipped
  split
  · have hgather := rowGather_stays (K := fun _ => False) (b := b) q (flipBanks b q (swapTaken b q f s)) (fun _ _ _ _ k => k)
    rw [hgather.seqs, (flipBanks_stays (fun _ => False) b q _).seqs, swapTaken, seqOf_setSeq_same]
  next hf =>
    rw [Option.not_isSome_iff_eq_none.1 hf]
    rfl

theorem sideOf_flipped (p : Nat) : ∃ fl, sideOf b p (flipped b q f s) = { sideOf b p s with rowFlags := fl } := by
  unfold flipped
  split
  · obtain ⟨fl, h⟩ := sideOf_rowGather b q p (flipBanks b q (swapTaken b q f s))
    exact ⟨fl, by rw [h, sideOf_flipBanks, swapTaken, sideOf_setSeq]⟩
  · exact ⟨_, rfl⟩

theorem flipped_lanes (h : Reg.BEN_CTL b ≠ Reg.BEN_CYCLE_COUNT b) (hexc : ∀ c < 16, ∀ r ∈ excRegs c, r ≠ Reg.BEN_CTL b) :
    SameLanes b (if f.isSome then flipBanks b q s else s) (flipped b q f s) := by
  unfold flipped
  split
  · have hswap : SameLanes b s (swapTaken b q f s) := .setSeq b q _ s h
    exact (hswap.flipBanks q).trans (rowGather_lanes q _ hexc)
  · exact .of_frames (K := fun _ => True) (.refl _ s) trivial ⟨_, rfl⟩
end

/-! ## Passes that a re-fetch holds (R96) -/

section
variable {b q : Nat} {s t : State}

theorem rowHeld_congr (hs : shared b t = shared b s) (hf : ∀ p, (sideOf b p t).flights = (sideOf b p s).flights) :
    rowHeld b q t = rowHeld b q s := by simp only [rowHeld, hs, hf]

/-- Where the row holds no pass, no pass of the side is held. -/
theorem flights_of_rowHeld_nil (hq : q < 2) (h : rowHeld b q s = []) : ∀ f ∈ (sideOf b q s).flights, f.held.isNone = true := by
  have none_held (p : Nat) (hp : (sideOf b p s).flights.filter (fun x => x.held.isSome) = []) :
      ∀ f ∈ (sideOf b p s).flights, f.held.isNone = true := fun f hf => by
    simpa using List.filter_eq_nil_iff.1 hp f hf
  unfold rowHeld at h
  dsimp only at h
  split at h
  · obtain ⟨h0, h1⟩ := List.append_eq_nil_iff.1 h
    obtain rfl | rfl : q = 0 ∨ q = 1 := by omega
    · exact none_held 0 h0
    · exact none_held 1 h1
  · exact none_held q h

/-- A side stored with the passes that it had leaves every side its passes. -/
theorem flights_setSide {x : Side} (h : x.flights = (sideOf b q s).flights) (p : Nat) :
    (sideOf b p (setSide b q x s)).flights = (sideOf b p s).flights := by
  by_cases hp : p = 0 ↔ q = 0
  · rw [sideOf_eq hp, sideOf_setSide_same, h, sideOf_eq hp]
  · rw [sideOf_setSide_other _ _ _ _ (.inr (by tauto))]

/-! ## A PASS's dispatch (R20, R21) -/

/-- The depth of a PASS over a stile: 16 where a lane holds 4-bit elements. -/
def passDepth (stile : List LaneStile) : Nat := if stile.any (·.width == 4) then 16 else 8

/-- The cycles that a PASS of rail format `fmt` takes the row for. -/
def passCycles (fmt : Nat) (stile : List LaneStile) : Nat :=
  passDepth stile / lanesRate (stile.foldl (fun w l => max w l.width) (rowWidth fmt))

/-- The rail values of a PASS. -/
def passRail (b : Nat) (op : UOp) (stile : List LaneStile) (s : State) : List FVal :=
  ((tileVals (fmtOf b op.tile s) (benchTile b op.tile s) []).drop (op.num * 8)).take (passDepth stile)

/-- A PASS whose rail tile is sound enters the pipeline, no pass being held. -/
theorem railRead_reads {K : Nat → Prop} {e : Ecc} {op : UOp} {stile : List LaneStile} {passNo c : Nat}
    (hchk : ¬ K (Reg.BEN_CHECK_FIRST b)) (hbusy : ¬ K (Reg.BEN_ROW_BUSY b))
    (he : e.bad.contains op.tile = false) (hc : checkOk b op.tile s = true) (hf : fmtDefined (fmtOf b op.tile s) = true)
    (hcb : isCb (fmtOf b op.tile s) = false) (hroom : op.num + passDepth stile / 8 ≤ elemsIn b op.tile s / 8)
    (hfree : ∀ f ∈ (sideOf b q s).flights, f.held.isNone = true) :
    let t := railRead b q op stile passNo c e s
    Stays K s t ∧ sideOf b q t = { sideOf b q s with
      rowFree := c - 1 + passCycles (fmtOf b op.tile s) stile
      flights := (sideOf b q s).flights ++
        [⟨op, c + 3 + passCycles (fmtOf b op.tile s) stile, passRail b op stile s, stile, none, passNo⟩] } := by
  obtain ⟨w, hw⟩ := useTile_sound (s := s) q 0 he hc hf
  obtain ⟨hstays, hbench⟩ := useTile_pass hchk hw
  have hside : sideOf b q w = sideOf b q s := sideOf_of_benches b q hbench
  have hbook : bookFor b q convRail op.tile e w = (.none, w) := bookFor_plain _ _ (by rw [hstays.fmtOf]; exact hcb)
  have hall : (sideOf b q s).flights.filter (·.held.isNone) = (sideOf b q s).flights := List.filter_eq_self.2 hfree
  have hnone : (sideOf b q s).flights.filter (·.held.isSome) = [] :=
    List.filter_eq_nil_iff.2 (fun f hf => by simpa using hfree f hf)
  have heq : railRead b q op stile passNo c e s =
      setSide b q { sideOf b q s with
        rowFree := c - 1 + passCycles (fmtOf b op.tile s) stile
        flights := (sideOf b q s).flights ++
          [⟨op, c + 3 + passCycles (fmtOf b op.tile s) stile, passRail b op stile s, stile, none, passNo⟩] }
        (setSide b q { sideOf b q s with
          flights := (sideOf b q s).flights ++
            [⟨op, c + 3 + passCycles (fmtOf b op.tile s) stile, passRail b op stile s, stile, none, passNo⟩] }
          (bumpBy (passCycles (fmtOf b op.tile s) stile) (Reg.BEN_ROW_BUSY b) w)) := by
    have hdepth : ¬ op.num + passDepth stile / 8 > elemsIn b op.tile w / 8 := by rw [hstays.elemsIn]; exact Nat.not_lt.2 hroom
    unfold passDepth at hdepth
    unfold railRead
    simp only [hw]
    rw [if_neg hdepth, hbook]
    simp only [sideOf_bumpBy, sideOf_setSide_same, hside, hstays.fmtOf, hstays.benchTile, hall, hnone, List.drop_nil, List.append_nil]
    rfl
  intro t
  rw [show t = _ from heq]
  exact ⟨((hstays.trans (.bumpBy _ _ hbusy)).trans (.setSide ..)).trans (.setSide ..), sideOf_setSide_same ..⟩

/-- The registers that a PASS's dispatch leaves alone until BEN_PASS_COUNT counts it. -/
def passKept (b k : Nat) : Prop := k = Reg.BEN_CTL b ∨ k = Reg.BEN_PASS_COUNT b

theorem passKept_apart (b : Nat) : ¬ passKept b (Reg.BEN_SRAM_ECC_CORR b) ∧ ¬ passKept b (Reg.BEN_CHECK_FIRST b) ∧
    ¬ passKept b (Reg.BEN_ROW_BUSY b) ∧ ¬ passKept b (Reg.BEN_CYCLE_COUNT b) ∧ ∀ c < 16, ∀ r ∈ excRegs c, ¬ passKept b r := by
  unfold passKept Reg.BEN_SRAM_ECC_CORR Reg.BEN_CHECK_FIRST Reg.BEN_ROW_BUSY Reg.BEN_CYCLE_COUNT Reg.BEN_CTL Reg.BEN_PASS_COUNT
  refine ⟨by omega, by omega, by omega, by omega, fun c hc r hr => ?_⟩
  have := excRegs_lt hc r hr
  omega

/-- The row has taken the PASS at the head of its queue, the flip done, and BEN_PASS_COUNT has counted it. -/
def passTaken (b q : Nat) (rest : List UOp) (c : Nat) (v : State) : State :=
  bump (Reg.BEN_PASS_COUNT b) (setSide b q { sideOf b q v with rowQ := rest, rowFree := c + 1 } v)

/-- A dispatch, no pass being held: the flip, the count and the rail's read. -/
theorem passDispatch_eq {e : Ecc} {op : UOp} {rest : List UOp} {f : Option Swap} (hq : (sideOf b q s).rowQ = op :: rest) :
    let c := max s.cycle (freeAt b q (·.rowFree) s)
    let u := taken b q uRow (freeAt b q (·.rowFree) s) e s
    let v := flipped b q f u
    let w := passTaken b q rest c v
    flipOf b q op u = f → rowHeld b q w = [] →
    passDispatch b q e s = railRead b q op (activeStile b q w) (rd (Reg.BEN_PASS_COUNT b) v).toNat (c + 1) e w := by
  intro c u v w hf hw
  have hempty : (rowHeld b q w).isEmpty = true := by rw [hw]; rfl
  unfold passDispatch
  simp only [hq]
  rw [show eccCount b e (serve b q uRow (advanceTo (freeAt b q (·.rowFree) s) s)) = u from rfl, hf]
  cases f with
  | none => exact if_pos hempty
  | some x => exact if_pos hempty

theorem taken_frames {K : Nat → Prop} (hecc : ¬ K (Reg.BEN_SRAM_ECC_CORR b)) (h unit n : Nat) (e : Ecc) (s : State) :
    Frames K (advanceTo n s) (taken b h unit n e s) := by
  refine .of_stays (.taken _ _ _ _ _ hecc) ?_
  obtain ⟨regs, hr⟩ := eccCount_onlyRegs b (serve b h unit (advanceTo n s)) e
  rw [taken, hr]
  rfl

theorem taken_lanes (b h unit n : Nat) (e : Ecc) (s : State) : SameLanes b s (taken b h unit n e s) := by
  have hu : Frames (· = Reg.BEN_CTL b) (advanceTo n s) (taken b h unit n e s) := taken_frames (benchCtl_apart b).1 ..
  obtain ⟨l, hl⟩ := benchOf_taken (b := b) h unit n e s b
  exact ⟨hu.split rfl, hu.shared, by rw [hl], by rw [hl], by rw [hl], by rw [hl]⟩

theorem SameLanes.flipIf (h : SameLanes b s t) (q : Nat) (p : Bool) :
    SameLanes b (if p then Machine.flipBanks b q s else s) (if p then Machine.flipBanks b q t else t) := by
  cases p with
  | false => exact h
  | true => exact h.flipBanks q

/-- What the row's taking of a PASS leaves. -/
theorem passTaken_takes (b h c : Nat) (rest : List UOp) (f : Option Swap) (u v : State) (hf : flipped b h f u = v) :
    let w := passTaken b h rest c v
    Frames (passKept b) u v ∧ Frames (· = Reg.BEN_CTL b) v w ∧ SameLanes b (if f.isSome then flipBanks b h u else u) w ∧
      seqOf b h w = { seqOf b h u with swaps := swapsLeft f (seqOf b h u).swaps } ∧
      (sideOf b h w).rowQ = rest ∧ ∀ p, (sideOf b p w).flights = (sideOf b p u).flights := by
  intro w
  obtain ⟨-, -, -, hcyc, hexc⟩ := passKept_apart b
  have hcount : ¬ Reg.BEN_PASS_COUNT b = Reg.BEN_CTL b := by unfold Reg.BEN_PASS_COUNT Reg.BEN_CTL; omega
  have hvw : Frames (· = Reg.BEN_CTL b) v w := .of_stays (Stays.trans (.setSide ..) (.bump _ hcount)) rfl
  have hframes := flipped_frames b h f u hcyc hexc
  have hlanes := flipped_lanes b h f u (fun k => hcyc (.inl k.symm)) (fun c hc r hr k => hexc c hc r hr (.inl k))
  have hseq := seqOf_flipped b h f u
  have hsides := sideOf_flipped b h f u
  rw [hf] at hframes hlanes hseq
  simp only [hf] at hsides
  have hset : SameLanes b v w := by
    have hs : SameLanes b v (setSide b h { sideOf b h v with rowQ := rest, rowFree := c + 1 } v) := .setSide ..
    exact ⟨hvw.split rfl, hvw.shared, hs.banks, hs.lo, hs.hi, hs.other⟩
  refine ⟨hframes, hvw, hlanes.trans hset, ?_, ?_, fun p => ?_⟩
  · exact (seqOf_setSide ..).trans hseq
  · exact congrArg Side.rowQ (sideOf_setSide_same ..)
  · obtain ⟨fl, hfl⟩ := hsides p
    have hw : sideOf b p w = sideOf b p (setSide b h { sideOf b h v with rowQ := rest, rowFree := c + 1 } v) := rfl
    rw [hw, flights_setSide (x := { sideOf b h v with rowQ := rest, rowFree := c + 1 }) rfl, hfl]

/-- What holds of the state in which a PASS reads its rail: it has left the queue, and its flip and its count are done. -/
structure Dispatched (b h : Nat) (op : UOp) (rest : List UOp) (s w : State) : Prop where
  frames : Frames (· = Reg.BEN_CTL b) (advanceTo (freeAt b h (·.rowFree) s) s) w
  stile : activeStile b h w = activeStile b h (if (flipOf b h op s).isSome then flipBanks b h s else s)
  seq : seqOf b h w = { seqOf b h s with swaps := swapsLeft (flipOf b h op s) (seqOf b h s).swaps }
  rowQ : (sideOf b h w).rowQ = rest
  flights : ∀ p, (sideOf b p w).flights = (sideOf b p s).flights
  count : rd (Reg.BEN_PASS_COUNT b) w = rd (Reg.BEN_PASS_COUNT b) s + 1

/-- The row dispatches the PASS at the head of its queue and reads its rail, no pass being held. -/
theorem passDispatch_dispatches {h : Nat} {e : Ecc} {op : UOp} {rest : List UOp} (hq : (sideOf b h s).rowQ = op :: rest)
    (hheld : rowHeld b h s = []) : ∃ w, Dispatched b h op rest s w ∧
      passDispatch b h e s = railRead b h op (activeStile b h w) (rd (Reg.BEN_PASS_COUNT b) s).toNat
        (max s.cycle (freeAt b h (·.rowFree) s) + 1) e w := by
  obtain ⟨hecc, -⟩ := passKept_apart b
  have hseqs := (Stays.taken (K := passKept b) h uRow (freeAt b h (·.rowFree) s) e s hecc).seqs
  have hu := taken_frames hecc h uRow (freeAt b h (·.rowFree) s) e s
  have hulanes := taken_lanes b h uRow (freeAt b h (·.rowFree) s) e s
  have husides := sideOf_taken (b := b) h uRow (freeAt b h (·.rowFree) s) e s b
  have heq := passDispatch_eq (e := e) (f := flipOf b h op s) hq
  generalize taken b h uRow (freeAt b h (·.rowFree) s) e s = u at *
  have hswap : flipOf b h op u = flipOf b h op s := by
    simp only [flipOf, hseqs]
    rfl
  replace heq := heq hswap
  have htaken := passTaken_takes b h (max s.cycle (freeAt b h (·.rowFree) s)) rest (flipOf b h op s) u _ rfl
  generalize flipped b h (flipOf b h op s) u = v at *
  obtain ⟨hv, hvw, hlanes, hseq, hrow, hflights⟩ := htaken
  have hcount : rd (Reg.BEN_PASS_COUNT b) v = rd (Reg.BEN_PASS_COUNT b) s :=
    (hv.stays.regs _ (.inr rfl)).trans (hu.stays.regs _ (.inr rfl))
  have hbump : rd (Reg.BEN_PASS_COUNT b) (passTaken b h rest (max s.cycle (freeAt b h (·.rowFree) s)) v) =
    rd (Reg.BEN_PASS_COUNT b) v + 1 := rd_bump_same ..
  generalize passTaken b h rest (max s.cycle (freeAt b h (·.rowFree) s)) v = w at *
  have hw := ((hu.trans hv).mono (fun _ => .inl)).trans hvw
  have hfl (p : Nat) : (sideOf b p w).flights = (sideOf b p s).flights := (hflights p).trans (congrArg Side.flights (husides p))
  refine ⟨w, ⟨hw, ((hulanes.flipIf h _).trans hlanes).activeStile h, ?_, hrow, hfl, hbump.trans (congrArg (· + 1) hcount)⟩, ?_⟩
  · rw [hseq, hseqs]
    rfl
  · rw [← hcount]
    exact heq ((rowHeld_congr hw.shared hfl).trans hheld)

end

/-! ## The AC stage (R76, R78) -/

/-- A side takes new flights and flags, and the first flags are recorded: what this leaves. -/
theorem passEnds_leaves (b h dst pass : Nat) (ev : List (Nat × Nat)) (x : Side) (s : State) :
    let t := excRecord b 0 dst pass ev (setSide b h x s)
    Stays (· ≠ Reg.BEN_EXC_FIRST b) s t ∧ sideOf b h t = x ∧ (benchOf b t).accs = (benchOf b s).accs := by
  have hrec := (excRecord_onlyRegs b (setSide b h x s) 0 dst pass ev).benches
  refine ⟨Stays.trans (.setSide ..) (.excRecord _ _ _ _ _ (fun k => k rfl)), ?_, ?_⟩
  · rw [sideOf_of_benches b h hrec, sideOf_setSide_same]
  · rw [benchOf_of_benches b hrec, setSide, benchOf_setBench_same]
    exact Bench.setSide_accs ..

/-- Storing an accumulator row leaves the rest. -/
theorem setAccRow_leaves (b h key : Nat) (l : List Acc) (s : State) :
    let t := setBench b ((benchOf b s).setAccRow key l) s
    Stays (· ≠ Reg.BEN_EXC_FIRST b) s t ∧ sideOf b h t = sideOf b h s ∧ (benchOf b t).accRow key = l ∧
      ∀ k, k ≠ key → (benchOf b t).accRow k = (benchOf b s).accRow k := by
  intro t
  have ht : benchOf b t = (benchOf b s).setAccRow key l := benchOf_setBench_same ..
  refine ⟨.setBench s ⟨rfl, rfl⟩, ?_, ?_, fun k hk => ?_⟩
  · rw [sideOf, ht]
    rfl
  · rw [ht]
    exact smGet_smPut_same ..
  · rw [ht]
    exact smGet_smPut_other _ _ _ hk

/-- The AC stage of the oldest pass: the lanes' sums, the accumulator, and the record of the first flags. -/
theorem passAccumulate_eq {b h : Nat} {f : Flight} {rest : List Flight} {s : State} (hfl : (sideOf b h s).flights = f :: rest)
    (hnone : f.held = none) :
    let u := catchUp b h f.acAt (advanceTo f.acAt s)
    let key := accKey b h f.op.dst u
    let row := (benchOf b u).accRow key
    let mine := (row.drop (laneBase b h u)).take f.stile.length
    let out := (mine.zip f.stile).map (fun p => addLane (f.op.scalar == 1) p.1 (f.rail.zip p.2.vals))
    let v := setBench b ((benchOf b u).setAccRow key (putAt row (laneBase b h u) (out.map (·.1)))) u
    passAccumulate b h s = excRecord b 0 f.op.dst (f.passNo % 2 ^ 28)
      ((out.map (·.2)).zipIdx.map (fun p => (laneBase b h u + p.2, p.1)))
      (setSide b h { sideOf b h v with flights := rest, rowFlags := (sideOf b h v).rowFlags ||| orAll (out.map (·.2)) } v) := by
  intro u key row mine out v
  unfold passAccumulate
  rw [hfl]
  exact if_neg (by simp [hnone])

end Sys2Proof.Machine

namespace Sys2Proof.Proofs
open Sys2Proof Sys2Proof.Machine

/-- Settles O10: the dispatch up to the rail's read, then the read; the AC stage as its equation. -/
theorem passesRun : Obligations.PassesRun := by
  refine ⟨fun b h e op rest s => ?dispatches, fun b h f rest s => ?accumulates⟩
  case dispatches =>
    intro fmt stile depth c n rail ha hready hq hheld he hc hf hcb hroom
    obtain ⟨-, hchk, hbusy, -⟩ := passKept_apart b
    obtain ⟨w, ⟨hw, hstile, hseq, hrow, hfl, hcount⟩, heq⟩ := passDispatch_dispatches (e := e) hq hheld
    rw [show activeStile b h w = stile from hstile] at heq
    have hfmt : fmtOf b op.tile w = fmt := hw.fmtOf op.tile
    have hrail : passRail b op stile w = rail := by
      simp only [passRail, hfmt, hw.benchTile]
      rfl
    obtain ⟨hstays, hside⟩ := railRead_reads (K := passKept b) (b := b) (q := h) (s := w) (stile := stile)
      (passNo := (rd (Reg.BEN_PASS_COUNT b) s).toNat) (c := c + 1) hchk hbusy he ((hw.checkOk op.tile).trans hc)
      (by rw [hfmt]; exact hf) (by rw [hfmt]; exact hcb) (by rw [hw.elemsIn]; exact hroom)
      (by rw [hfl]; exact flights_of_rowHeld_nil ha.2.1 hheld)
    rw [← show passDispatch b h e s = _ from heq] at hstays hside
    rw [hfmt, hrail, hfl] at hside
    have hseq' := (hstays.seqs b h).trans hseq
    refine ⟨_, seqRow_unit_next ha hready rfl (by rw [hseq']) ((hstays.work.trans hw.stays.work).trans ha.2.2.2),
      hstays.cycle.trans hw.stays.cycle, (congrArg Side.rowQ hside).trans hrow, ?_, congrArg Seq.swaps hseq',
      (hstays.regs _ (.inr rfl)).trans hcount, hstays.tabs.trans hw.stays.tabs, hstays.sram.trans hw.stays.sram,
      hstays.stags.trans hw.stays.stags⟩
    refine (congrArg Side.flights hside).trans ?_
    rw [show c + 1 + 3 = c + 4 by omega]
    rfl
  case accumulates =>
    intro u key row mine out ha hfl hnone
    obtain ⟨hb, hh, hruns, hw⟩ := ha
    have hu : Stays (· ≠ Reg.BEN_EXC_FIRST b) (advanceTo f.acAt s) u := catchUp_stays (fun k => k rfl) ..
    have heq := passAccumulate_eq hfl hnone
    have hadd := setAccRow_leaves b h key (putAt row (laneBase b h u) (out.map (·.1))) u
    dsimp only at heq
    generalize setBench b ((benchOf b u).setAccRow key (putAt row (laneBase b h u) (out.map (·.1)))) u = v at hadd heq
    obtain ⟨hv, hside, hacc, hother⟩ := hadd
    obtain ⟨hstays, hflights, haccs⟩ := passEnds_leaves b h f.op.dst (f.passNo % 2 ^ 28)
      ((out.map (·.2)).zipIdx.map (fun p => (laneBase b h u + p.2, p.1)))
      { sideOf b h v with flights := rest, rowFlags := (sideOf b h v).rowFlags ||| orAll (out.map (·.2)) } v
    rw [← show passAccumulate b h s = _ from heq] at hstays hflights haccs
    have hrow (k : Nat) : (benchOf b (passAccumulate b h s)).accRow k = (benchOf b v).accRow k := by
      rw [Bench.accRow, haccs, Bench.accRow]
    refine ⟨_, seqRow_next _ hb hh hruns rfl (hstays.work.trans (hv.work.trans (hu.work.trans hw))), (hrow key).trans hacc,
      fun k hk => (hrow k).trans (hother k hk), ?_, congrArg Side.flights hflights,
      fun k hk => (hstays.regs k hk).trans (hv.regs k hk), hstays.tabs.trans (hv.tabs.trans hu.tabs),
      hstays.sram.trans (hv.sram.trans hu.sram)⟩
    rw [hflights, hside]

end Sys2Proof.Proofs
end

section
/-!
The issue of a MOVE.T (O4): its tests at issue, the moves that take no slot, and the moves of its side (R103, R104, R108).
-/
namespace Sys2Proof.Machine

variable {b q : Nat} {w : Word} {s : State}

/-- The operands of the MOVE.T `w` pass its tests at issue: its tiles lie in its side's, and those at the other end in that bench;
a Dovetail port takes tiles only. -/
def MoveFits (out : Bool) (b q : Nat) (w : Word) (s : State) : Prop :=
  let n := effOp Sl.MOVET_NT Sl.MOVET_XN w (seqOf b q s)
  let d := fdescOf b (getF Sl.MOVET_FDESC w) s
  runInTiles b q (effOp Sl.TILE Sl.XT w (seqOf b q s)) (max n 1) s = true ∧
    (isDovPort (getF Fld.FDESC_ENDPOINT d) = true → out = true) ∧
    (¬ isDovPort (getF Fld.FDESC_ENDPOINT d) = true → getF Fld.FDESC_REMOTE d + n ≤ 384)

/-- The MOVE.T `w` takes no slot: it moves no tile, or its descriptor has no slot. -/
def MoveIdle (b q : Nat) (w : Word) (s : State) : Prop :=
  effOp Sl.MOVET_NT Sl.MOVET_XN w (seqOf b q s) = 0 ∨ getF Fld.FDESC_SLOTS (fdescOf b (getF Sl.MOVET_FDESC w) s) = 0

/-- The state in which the MOVE.T `w` has issued and joined its side's moves. -/
def moveQueued (out : Bool) (b q : Nat) (w : Word) (s : State) : State :=
  let u := issued b q false Seq.next s
  let op := mkOp (if out then .moveOut else .moveIn) b q w (effOp Sl.TILE Sl.XT w (seqOf b q s)) 0
    (effOp Sl.MOVET_NT Sl.MOVET_XN w (seqOf b q s)) (getF Sl.MOVET_FDESC w) 0 s
  sched b q (setSide b q { sideOf b q u with moveQ := (sideOf b q u).moveQ ++ [⟨op, 0, 0, 0, [], [], [], 0, 0⟩] } u)

@[simp] theorem sched_work : (sched b q s).work = s.work := rfl

@[simp] theorem moveQueued_work (out : Bool) : (moveQueued out b q w s).work = s.work := issued_work ..

theorem issueMoveT_unarmed (out : Bool) (h : floorArmed s = false) : issueMoveT out b q w s = none := if_pos (by rw [h]; rfl)

/-- Where its operands pass the tests, an armed Floor gives a MOVE.T its slots, if it takes any. -/
theorem issueMoveT_fits {out : Bool} (ha : floorArmed s = true) (h : MoveFits out b q w s) [Decidable (MoveIdle b q w s)] :
    issueMoveT out b q w s = if MoveIdle b q w s then some (issued b q false Seq.next s) else some (moveQueued out b q w s) := by
  obtain ⟨hrun, hdov, hroom⟩ := h
  unfold issueMoveT
  rw [if_neg (by simp [ha])]
  dsimp only
  rw [if_neg (by simp [hrun]), if_neg, if_neg]
  · exact if_congr Iff.rfl rfl rfl
  · rw [Bool.and_eq_true, decide_eq_true_eq, Bool.not_eq_true', ← Bool.not_eq_true]
    exact fun hc => absurd (hroom hc.1) (Nat.not_le.2 hc.2)
  · rw [Bool.and_eq_true, Bool.not_eq_true', ← Bool.not_eq_true]
    exact fun hc => hc.1 (hdov hc.2)

end Sys2Proof.Machine

namespace Sys2Proof.Proofs
open Sys2Proof Sys2Proof.Machine

/-- Settles O4: both directions issue by `issueMoveT_fits`. -/
theorem moveTilesIssue : Obligations.MoveTilesIssue := by
  classical
  intro b q s w t sq x n fd d ep u dov fits idleMove queued
  have hw {k : Slasal} (h : Issues b q k s) : u.work = [] := (issued_work ..).trans (issues_work (s := s) h)
  have hfits {out : Bool} (h : fits) (hd : dov → out = true) : MoveFits out b q w t := ⟨h.2.1, hd, h.2.2⟩
  refine ⟨fun h ha => issue_stall _ h (issueMoveT_unarmed true ha), fun h ha => issue_stall _ h (issueMoveT_unarmed false ha),
    fun h hf hi => issue_next _ h ?_ (hw h), fun h hf hd hi => issue_next _ h ?_ (hw h),
    fun h hf hi => issue_next _ h ?_ ((moveQueued_work (s := t) true).trans (issues_work (s := s) h)),
    fun h hf hd hi => issue_next _ h ?_ ((moveQueued_work (s := t) false).trans (issues_work (s := s) h))⟩
  · exact (issueMoveT_fits (w := w) (s := t) hf.1 (hfits hf fun _ => rfl)).trans (if_pos hi)
  · exact (issueMoveT_fits (w := w) (s := t) hf.1 (hfits hf fun hc => absurd hc hd)).trans (if_pos hi)
  · exact (issueMoveT_fits (w := w) (s := t) hf.1 (hfits hf fun _ => rfl)).trans (if_neg hi)
  · exact (issueMoveT_fits (w := w) (s := t) hf.1 (hfits hf fun hc => absurd hc hd)).trans (if_neg hi)

end Sys2Proof.Proofs
end

section
/-!
The state after reset (O53): what its empty maps read, and the reset values of the register index (R8, R87, R116, R522).
-/
namespace Sys2Proof.Machine

/-! ## Tiles of zeros (R87, R116) -/

/-- A memory without a listed byte reads as zeros. -/
theorem memRead_nil (a n : Nat) : memRead [] a n = List.replicate n 0 := by
  have walk (n a : Nat) : walkBytes n a [] = List.replicate n 0 := by
    induction n generalizing a with
    | zero => rfl
    | succ n ih => rw [walkBytes, ih, List.replicate_succ]
  exact walk n a

/-- The CRC register after `n` bytes of zeros; the test has each step's value computed before the next step. -/
def crcZeros : Nat → Nat → Nat
  | 0, c => c
  | n + 1, c => if crcByte c 0 = 0 then crcZeros n 0 else crcZeros n (crcByte c 0)

theorem crcZeros_succ (n c : Nat) : crcZeros (n + 1) c = crcZeros n (crcByte c 0) := by
  rw [crcZeros]
  split
  · next h => rw [h]
  · rfl

theorem foldl_crcByte_zeros (n c : Nat) : (List.replicate n (0 : Byte)).foldl (fun c b => crcByte c b.toNat) c = crcZeros n c := by
  induction n generalizing c with
  | zero => rfl
  | succ n ih => exact (ih (crcByte c 0)).trans (crcZeros_succ n c).symm

/-- The CRC that a blank tag holds is that of a tile of zeros. -/
theorem crc32c_zeros : crc32c (List.replicate 4096 0) = zeroCrc := by
  have h : crcZeros 4096 0xFFFFFFFF ^^^ 0xFFFFFFFF = zeroCrc := by decide +kernel
  rwa [crc32c, foldl_crcByte_zeros]

theorem blankTile_eq (a : Nat) : (⟨smGet (fun _ => blankTag) [] a, memRead [] (a * 4096) 4096⟩ : Tile) =
    ⟨BitVec.ofNat 128 (crc32c (List.replicate 4096 0)), List.replicate 4096 0⟩ := by
  rw [memRead_nil, crc32c_zeros]
  rfl

/-! ## Reset values by the register index (R8, R522) -/

/-- Two runs of registers share no offset: one ends before the other begins, or they differ modulo what divides both strides. -/
def runsApart (b₁ s₁ n₁ b₂ s₂ n₂ : Nat) : Bool :=
  decide (b₁ + max 1 (s₁ * n₁) ≤ b₂) || decide (b₂ + max 1 (s₂ * n₂) ≤ b₁) || decide (b₁ % s₁.gcd s₂ ≠ b₂ % s₁.gcd s₂)

/-- An offset of a run lies between its ends, and is its base modulo what divides its stride. -/
theorem inRun_bounds {b s n off : Nat} (h : inRun b s n off = true) :
    b ≤ off ∧ off < b + max 1 (s * n) ∧ ∀ g, g ∣ s → off % g = b % g := by
  unfold inRun at h
  split at h
  · next hs =>
    simp only [Bool.and_eq_true, decide_eq_true_eq, beq_iff_eq] at h
    obtain ⟨-, rfl⟩ := h
    exact ⟨le_rfl, by omega, fun _ _ => rfl⟩
  · simp only [Bool.and_eq_true, decide_eq_true_eq, beq_iff_eq] at h
    obtain ⟨hle, hmod, hlt⟩ := h
    obtain ⟨k, hk⟩ := Nat.dvd_of_mod_eq_zero hmod
    have hoff : off = b + s * k := by omega
    have hkn : s * k < s * n := by
      rw [hk, Nat.mul_div_cancel_left k (by omega)] at hlt
      exact Nat.mul_lt_mul_of_pos_left hlt (by omega)
    refine ⟨hle, ?_, fun g hg => ?_⟩
    · omega
    · rw [hoff, Nat.add_mod, Nat.mod_eq_zero_of_dvd (hg.mul_right k), Nat.add_zero, Nat.mod_mod]

theorem not_inRun_of_apart {b₁ s₁ n₁ b₂ s₂ n₂ off : Nat} (h : runsApart b₁ s₁ n₁ b₂ s₂ n₂ = true)
    (h₁ : inRun b₁ s₁ n₁ off = true) : ¬ inRun b₂ s₂ n₂ off = true := by
  intro h₂
  obtain ⟨hlo₁, hhi₁, hmod₁⟩ := inRun_bounds h₁
  obtain ⟨hlo₂, hhi₂, hmod₂⟩ := inRun_bounds h₂
  simp only [runsApart, Bool.or_eq_true, decide_eq_true_eq] at h
  obtain (h | h) | h := h
  · omega
  · omega
  · exact h ((hmod₁ _ (Nat.gcd_dvd_left ..)).symm.trans (hmod₂ _ (Nat.gcd_dvd_right ..)))

/-- A reset value other than 0 is listed with its row's run, and every other run of the list lies apart from the row's. -/
theorem regRows_resets : ∀ r ∈ regRows, (r.reset = 0 ∨ (r.base, r.stride, r.count, r.reset) ∈ nonzeroResets) ∧
    ∀ e ∈ nonzeroResets, e.2.2.2 = r.reset ∨ runsApart r.base r.stride r.count e.1 e.2.1 e.2.2.1 = true := by decide +kernel

/-- Every register of the index resets to its row's value. -/
theorem resetOf_of_row {off : Nat} {r : RegRow} (h : regRowAt off = some r) : resetOf off = r.reset := by
  have hrun : inRun r.base r.stride r.count off = true := List.find?_some (p := fun r : RegRow => inRun r.base r.stride r.count off) h
  obtain ⟨hlisted, hothers⟩ := regRows_resets r (List.mem_of_find?_eq_some h)
  unfold resetOf
  split
  · next e he =>
    have hin : inRun e.1 e.2.1 e.2.2.1 off = true := List.find?_some (p := fun e : Nat × Nat × Nat × Word => inRun e.1 e.2.1 e.2.2.1 off) he
    exact (hothers e (List.mem_of_find?_eq_some he)).resolve_right fun ha => not_inRun_of_apart ha hrun hin
  · next hnone =>
    exact (hlisted.resolve_right fun hm => absurd hrun (List.find?_eq_none.1 hnone _ hm)).symm

end Sys2Proof.Machine

namespace Sys2Proof.Proofs
open Sys2Proof Sys2Proof.Machine

/-- Settles O53: every map is empty, so what is read is each map's default. -/
theorem resetStateIsClean : Obligations.ResetStateIsClean := by
  refine ⟨rfl, rfl, rfl, rfl, ⟨rfl, rfl⟩, canonical_reset, fun off r => resetOf_of_row, fun k => rfl, fun b t => blankTile_eq _,
    fun n => blankTile_eq n, by decide, fun b q => ?_, by decide +kernel, by decide +kernel⟩
  unfold seqOf Bench.seq
  split <;> rfl

end Sys2Proof.Proofs
end

section
/-!
What a step keeps (O54). `Keeps s t` says that a passage from `s` to `t` leaves the maps of the state in canonical form; it is
proved once for each operation of the model, in the model's order, and an operation that is built from others cites theirs. With
it go two facts about the same passages: the code of the device state stays one of R419, and the queue of commands is untouched.
-/
namespace Sys2Proof.Machine

/-- What every operation keeps, from `s` to `t`. -/
structure Keeps (s t : State) : Prop where
  form : s.canonical = true → t.canonical = true
  dev : s.dev ≤ 8 → t.dev ≤ 8
  pending : t.pending = s.pending

/-- `Keeps` of an operation that may have no result. -/
def OptKeeps (s₀ : State) (o : Option State) : Prop := ∀ ⦃t⦄, o = some t → Keeps s₀ t

/-- `Keeps` of an answer to a command, where it is a next state. -/
def NextKeeps (s₀ : State) (o : Host.Outcome State Fault Refusal) : Prop := ∀ t, o = .next t → Keeps s₀ t

theorem Keeps.refl (s : State) : Keeps s s := ⟨id, id, rfl⟩

section
variable {s₀ s : State} (h : Keeps s₀ s)
include h

theorem Keeps.same {t : State} (hr : t.regs = s.regs) (ht : t.tabs = s.tabs) (hs : t.sram = s.sram) (hst : t.stags = s.stags)
    (hu : t.ruril = s.ruril) (hrt : t.rtags = s.rtags) (hd : t.dev = s.dev) (hp : t.pending = s.pending) : Keeps s₀ t :=
  ⟨fun c => canonical_of_maps hr ht hs hu hst hrt (h.form c), fun d => hd ▸ h.dev d, hp.trans h.pending⟩

/-- An update of any other fields. -/
theorem Keeps.upd {cycle sbad rbad benches tier pool ctxs ports xport col dov clamp mark host jig power kiln mgt sec priv msixTab
    glueHold errPending v16Sent msixEn msixOpen msixPba ibiEn ibiPend work sent fresh} : Keeps s₀ ⟨cycle, s.dev, s.regs, s.tabs,
    s.sram, s.stags, sbad, s.ruril, s.rtags, rbad, benches, tier, pool, ctxs, ports, xport, col, dov, clamp, mark, host, jig,
    power, kiln, mgt, sec, priv, msixTab, glueHold, errPending, v16Sent, msixEn, msixOpen, msixPba, ibiEn, ibiPend, work, sent,
    fresh, s.pending⟩ := h.same rfl rfl rfl rfl rfl rfl rfl rfl

theorem Keeps.ite {t : State} (k : Keeps s₀ t) {p : Prop} {_ : Decidable p} : Keeps s₀ (if p then s else t) := by
  split <;> assumption

theorem Keeps.foldl {α : Type} {f : State → α → State} (hf : ∀ t x, Keeps s₀ t → Keeps s₀ (f t x)) {l : List α} :
    Keeps s₀ (l.foldl f s) := by
  induction l generalizing s with
  | nil => exact h
  | cons x l ih => exact ih (hf s x h)

theorem OptKeeps.some : OptKeeps s₀ (some s) := fun _ e => by cases e; exact h

theorem NextKeeps.next : NextKeeps s₀ (.next s) := fun _ e => by cases e; exact h

end

section
variable {s₀ : State} {α β : Type}

theorem Keeps.of_snd {p : α × State} {a : α} {t : State} (k : Keeps s₀ p.2) (e : p = (a, t)) : Keeps s₀ t := by cases e; exact k

theorem Keeps.of_thd {p : α × β × State} {a : α} {b : β} {t : State} (k : Keeps s₀ p.2.2) (e : p = (a, b, t)) : Keeps s₀ t := by
  cases e; exact k

theorem Keeps.ite_snd {p q : α × State} (hp : Keeps s₀ p.2) (hq : Keeps s₀ q.2) {c : Prop} {_ : Decidable c} :
    Keeps s₀ (if c then p else q).2 := by split <;> assumption

theorem Keeps.foldl_snd {f : α × State → β → α × State} {l : List β} {a : α × State} (h : Keeps s₀ a.2)
    (hf : ∀ a x, Keeps s₀ a.2 → Keeps s₀ (f a x).2) : Keeps s₀ (l.foldl f a).2 := by
  induction l generalizing a with
  | nil => exact h
  | cons x l ih => exact ih (hf a x h)

theorem OptKeeps.none : OptKeeps s₀ none := fun _ e => by cases e

theorem OptKeeps.ite {a b : Option State} (h : OptKeeps s₀ a) (k : OptKeeps s₀ b) {p : Prop} {_ : Decidable p} :
    OptKeeps s₀ (if p then a else b) := by split <;> assumption

theorem OptKeeps.or {a b : Option State} (h : OptKeeps s₀ a) (k : OptKeeps s₀ b) : OptKeeps s₀ (a.or b) := by
  cases a with
  | none => exact k
  | some t => exact h

theorem OptKeeps.getD {s : State} {o : Option State} (h : OptKeeps s₀ o) (k : Keeps s₀ s) : Keeps s₀ (o.getD s) := by
  cases o with
  | none => exact k
  | some t => exact h rfl

theorem NextKeeps.ite {a b : Host.Outcome State Fault Refusal} (h : NextKeeps s₀ a) (k : NextKeeps s₀ b) {p : Prop}
    {_ : Decidable p} : NextKeeps s₀ (if p then a else b) := by split <;> assumption

theorem NextKeeps.check {p f o} (h : NextKeeps s₀ o) : NextKeeps s₀ (Machine.check p f o) := by
  unfold Machine.check
  split
  · exact h
  · exact fun t e => by cases e

end

end Sys2Proof.Machine
end

section
/-! What a step keeps: registers and tables, benches, the device state, the ERR ring, interrupts, bad accesses, faults, semaphores. -/
namespace Sys2Proof.Machine

variable {s₀ s : State} (h : Keeps s₀ s)
include h

theorem Keeps.wr {off v} : Keeps s₀ (wr off v s) := ⟨fun k => canonical_wr off v s (h.form k), h.dev, h.pending⟩
theorem Keeps.wrF {off f x} : Keeps s₀ (wrF off f x s) := h.wr
theorem Keeps.bumpBy {n off} : Keeps s₀ (bumpBy n off s) := h.wr
theorem Keeps.bump {off} : Keeps s₀ (bump off s) := h.bumpBy
theorem Keeps.unwr {off} : Keeps s₀ (unwr off s) := h.wr
theorem Keeps.tbW {k v} : Keeps s₀ (tbW k v s) := ⟨fun c => canonical_tbW k v s (h.form c), h.dev, h.pending⟩
theorem Keeps.tbWF {k f x} : Keeps s₀ (tbWF k f x s) := h.tbW
theorem Keeps.tabClear {lo hi} : Keeps s₀ (tabClear lo hi s) :=
  ⟨fun c => canonical_tabClear lo hi s (h.form c), h.dev, h.pending⟩
theorem Keeps.advanceTo {c} : Keeps s₀ (advanceTo c s) := h.upd
theorem Keeps.emit {o} : Keeps s₀ (emit o s) := h.upd
theorem Keeps.defer {w} : Keeps s₀ (defer w s) := h.upd
theorem Keeps.nextFresh : Keeps s₀ (nextFresh s).2 := h.upd
theorem Keeps.setBench {b x} : Keeps s₀ (setBench b x s) := h.upd
theorem Keeps.setSide {b q v} : Keeps s₀ (setSide b q v s) := h.setBench

theorem Keeps.setSeq {b q v} : Keeps s₀ (setSeq b q v s) := by
  unfold Machine.setSeq
  dsimp only
  split
  · exact h.setBench
  · exact h.setBench.bumpBy
  · exact h.setBench

theorem Keeps.msixRaise {v} : Keeps s₀ (msixRaise v s) := .ite h.emit (.ite h h.upd)
theorem Keeps.ibiEvent {bit} : Keeps s₀ (ibiEvent bit s) := .ite h.upd h

theorem Keeps.tbWs {ws k} : Keeps s₀ (tbWs k ws s) := by
  induction ws generalizing k s with
  | nil => exact h
  | cons w ws ih => exact ih h.tbW

theorem Keeps.errPut {code kind index ctx ds dev cycle step} :
    Keeps s₀ (errPut code kind index ctx ds dev cycle step s) :=
  (h.tbWs.wrF.bump.upd.msixRaise.ite h.tbWs.wrF.bump).ibiEvent

theorem Keeps.logAt {code kind index ctx ds dev cycle} : Keeps s₀ (logAt code kind index ctx ds dev cycle s) :=
  .ite h (.ite h.bump.upd h.errPut)
theorem Keeps.log {code kind index ctx ds} : Keeps s₀ (log code kind index ctx ds s) := h.logAt

theorem Keeps.setDev {d} (hd : d ≤ 8 := by decide) : Keeps s₀ (setDev d s) :=
  have k : Keeps s₀ { s with dev := d } := ⟨fun c => canonical_of_maps rfl rfl rfl rfl rfl rfl (h.form c),
    fun _ => hd, h.pending⟩
  have h₁ := k.wrF.wrF.ibiEvent
  .ite h₁.msixRaise h₁

theorem Keeps.badAccess {src kind off} : Keeps s₀ (badAccess src kind off s) := .ite h.bump h.bump.wr
theorem Keeps.refuse {src off} : Keeps s₀ (refuse src off s) := h.badAccess

theorem Keeps.reply {src v} : Keeps s₀ (reply src v s) := by
  unfold Machine.reply
  split
  · exact h.emit
  · exact h.upd

theorem Keeps.tcc {c kind} : Keeps s₀ (tcc c kind s) := .ite h.bump h.bump.wr
theorem Keeps.ctxFault {c code} : Keeps s₀ (ctxFault c code s) := .ite h.wrF.wrF.bump.log.defer h
theorem Keeps.semAdd {n num errCtx} : Keeps s₀ (semAdd n num errCtx s) := (h.tbWF.bump.ite h.tbWF).defer
theorem Keeps.semHw {n num} : Keeps s₀ (semHw n num s) := .ite h.bump h.semAdd
theorem Keeps.lockRelease {n} : Keeps s₀ (lockRelease n s) := h.tbW.upd.defer

end Sys2Proof.Machine
end

section
/-! What a step keeps: bench SRAM, Ruril, objects, writes by other agents, uses and their checks. -/
namespace Sys2Proof.Machine

variable {s₀ s : State} (h : Keeps s₀ s)
include h

theorem Keeps.setBenchTile {b t x} : Keeps s₀ (setBenchTile b t x s) :=
  ⟨fun c => canonical_setBenchTile b t x s (h.form c), h.dev, h.pending⟩
theorem Keeps.setRurilTile {n x} : Keeps s₀ (setRurilTile n x s) :=
  ⟨fun c => canonical_setRurilTile n x s (h.form c), h.dev, h.pending⟩
theorem Keeps.setRurilBytes {a bs} : Keeps s₀ (setRurilBytes a bs s) :=
  ⟨fun c => canonical_setRurilBytes a bs s (h.form c), h.dev, h.pending⟩
theorem Keeps.setRurilBad {n} : Keeps s₀ (setRurilBad n s) := h.upd
theorem Keeps.objW {o w f x} : Keeps s₀ (objW o w f x s) := h.tbWF
theorem Keeps.clearDirty {o p} : Keeps s₀ (clearDirty o p s) := h.upd
theorem Keeps.saveBacks {o i x} : Keeps s₀ (saveBacks o i x s) := h.upd

theorem Keeps.markWritten {b t} : Keeps s₀ (markWritten b t s) := by
  unfold Machine.markWritten
  split
  · exact h
  · refine .ite (.ite h.bump.log h) ?_
    exact
      have h₁ := h.ite h.upd
      .ite h₁.objW h₁

theorem Keeps.landTile {b t x} : Keeps s₀ (landTile b t x s) := by
  unfold Machine.landTile
  refine .markWritten (.setBenchTile ?_)
  split
  · exact h.saveBacks
  · exact h

theorem Keeps.eccCount {b e} : Keeps s₀ (eccCount b e s) := .ite h h.bumpBy
theorem Keeps.eccBad {b t e} : Keeps s₀ (eccBad b t e s) := .ite h.upd h
theorem Keeps.countFail {b t unit} : Keeps s₀ (countFail b t unit s) := .ite h.bump h.bump.wr
theorem Keeps.setOutcome {b t o} : Keeps s₀ (setOutcome b t o s) := .ite h.wr h

end Sys2Proof.Machine
end

section
/-! What a step keeps: completion rings. -/
namespace Sys2Proof.Machine

variable {s₀ s : State} (h : Keeps s₀ s)
include h

theorem Keeps.crSignal {r} : Keeps s₀ (crSignal r s) := .ite (.ite h h.upd) h.upd.msixRaise

theorem Keeps.crPut {r bytes} : Keeps s₀ (crPut r bytes s) :=
  have h₁ := h.emit.wrF.wrF.ite h.emit.wrF
  .ite h₁.crSignal h₁

theorem Keeps.ovfPut {c bytes} : Keeps s₀ (ovfPut c bytes s) := .ite h.setRurilBytes.wrF h.bump.log

theorem Keeps.crDrain {c n} : Keeps s₀ (crDrain c n s) := by
  induction n generalizing s with
  | zero => exact h
  | succ n ih => exact .ite (ih h.wrF.upd.crPut) h

theorem Keeps.crDrainAll {c} : Keeps s₀ (crDrainAll c s) := h.crDrain
theorem Keeps.post {c status slot cookie pos pages} : Keeps s₀ (post c status slot cookie pos pages s) :=
  .ite h.crPut h.ovfPut
theorem Keeps.postJoin {j status} : Keeps s₀ (postJoin j status s) := h.post
theorem Keeps.crCfgWrite {r v} : Keeps s₀ (crCfgWrite r v s) := .ite h.wr.wrF.wrF.wrF.crDrainAll h.wr
theorem Keeps.crHeadWrite {r v} : Keeps s₀ (crHeadWrite r v s) := .ite h.wrF.crDrainAll h.bump
theorem Keeps.coalExpire {r} : Keeps s₀ (coalExpire r s) := .ite h.advanceTo.upd.crSignal h

end Sys2Proof.Machine
end

section
/-! What a step keeps: the tier manager. -/
namespace Sys2Proof.Machine

variable {s₀ s : State} (h : Keeps s₀ s)
include h

theorem Keeps.setPortNext {inb b c} : Keeps s₀ (setPortNext inb b c s) := h.upd
theorem Keeps.takeUnits {stack cs} : Keeps s₀ (takeUnits stack cs s) := h.upd

theorem Keeps.bookTiles {kind o tReady is done r} (e : bookTiles kind o tReady is done s = .some r) :
    Keeps s₀ r.2 := by
  induction is generalizing s done with
  | nil => cases e; exact h
  | cons i is ih =>
    unfold Machine.bookTiles at e
    dsimp only at e
    split at e
    · cases e
    · split at e
      · cases e
      · exact ih h.takeUnits.setPortNext.upd e

theorem Keeps.book {kind o tReady tiles r} (e : book kind o tReady tiles s = .some r) : Keeps s₀ r.2 := by
  unfold Machine.book at e
  split at e
  · cases e
  · next e' =>
    split at e
    · cases e
    · cases e
      exact h.bookTiles e'

theorem Keeps.bookPort {b inb} : Keeps s₀ (bookPort b inb s).2 := h.setPortNext
theorem Keeps.setPin {o c n} : Keeps s₀ (setPin o c n s) := h.objW
theorem Keeps.tierLog {code o d} : Keeps s₀ (tierLog code o d s) := h.log
theorem Keeps.countMiss {c} : Keeps s₀ (countMiss c s) := h.bump.bump.tcc
theorem Keeps.miss {o c dov} : Keeps s₀ (miss o c dov s) := .ite h.countMiss.defer h.countMiss
theorem Keeps.signalReq {r} : Keeps s₀ (signalReq r s) := h.semHw
theorem Keeps.dropCopy {o} : Keeps s₀ (dropCopy o s) := h.objW.clearDirty

theorem Keeps.killPromo {o} : Keeps s₀ (killPromo o s) := by
  unfold Machine.killPromo
  split
  · exact h
  · exact .foldl h.upd fun _ _ k => .ite k k.miss

theorem Keeps.setRecov {r} : Keeps s₀ (setRecov r s) := h.upd
theorem Keeps.askSource {r} : Keeps s₀ (askSource r s) := .ite (.foldl h fun _ _ k => k.emit) h
theorem Keeps.recoverFail {r} : Keeps s₀ (recoverFail r s) := h.setRecov.tierLog.defer
theorem Keeps.trySource {r n} : Keeps s₀ (trySource r n s) :=
  .ite h.setRecov.askSource (.ite h.setRecov.askSource h.recoverFail)

theorem Keeps.poison {o i} : Keeps s₀ (poison o i s) := by
  unfold Machine.poison
  refine .ite ?_ ?_
  · split
    · exact .ite h h.setRecov
    · exact h
  · exact
      have h₁ := h.objW.ite h.objW.wr
      (h₁.bump.tierLog.killPromo.dropCopy.ite h₁.bump.tierLog.killPromo).trySource

theorem Keeps.rurilRead {n e} : Keeps s₀ (rurilRead n e s).2 := by
  unfold Machine.rurilRead
  extract_lets +onlyGivenNames s₁
  have h₁ : Keeps s₀ s₁ := .ite h h.bumpBy
  split
  · extract_lets +onlyGivenNames s₂
    have h₂ : Keeps s₀ s₂ := h₁.bump.setRurilBad
    split
    · exact h₂.poison
    · exact h₂
  · exact h₁

theorem Keeps.writeBack {o flush w0} : Keeps s₀ (writeBack o flush w0 s) := by
  unfold Machine.writeBack
  dsimp only
  split
  · exact h.bump.tierLog
  · next e =>
      exact .ite (h.book e).upd (h.book e).upd.objW

theorem Keeps.evictNow {o w0} : Keeps s₀ (evictNow o w0 s) := .ite h.dropCopy.objW (.ite h.writeBack h)
theorem Keeps.pinReleased {o} : Keeps s₀ (pinReleased o s) := .ite h.objW.evictNow h

theorem Keeps.refuseReq {code o w0} : Keeps s₀ (refuseReq code o w0 s) := by
  unfold Machine.refuseReq
  dsimp only
  split
  · exact h.bump.tierLog
  · exact h.bump.log

theorem Keeps.refusePromote {code o w0 r} : Keeps s₀ (refusePromote code o w0 r s) := by
  unfold Machine.refusePromote
  refine .signalReq ?_
  split
  · exact h.refuseReq.miss
  · exact h.refuseReq.countMiss

theorem Keeps.takePin {o r} : Keeps s₀ (takePin o r s) := .ite h.setPin.upd h.setPin

theorem Keeps.promoteBook {o d w0 r} : Keeps s₀ (promoteBook o d w0 r s) := by
  unfold Machine.promoteBook
  dsimp only
  split
  · exact h.refusePromote
  · next e =>
      refine .ite h.bump.miss.signalReq ?_
      exact
        have h₁ := (h.book e).bump.takePin
        have h₂ := h₁.upd.objW.objW.ite h₁.upd
        .ite h₂.miss h₂

theorem Keeps.promoteObj {o d w0 r} : Keeps s₀ (promoteObj o d w0 r s) := by
  unfold Machine.promoteObj
  refine .ite h.bump.takePin.bump.miss.signalReq ?_
  refine .ite h.bump.takePin.signalReq ?_
  split
  · exact h.promoteBook
  · exact
      have h₁ := h.bump.takePin
      .ite h₁.upd.miss h₁.upd

theorem Keeps.tierPromote {id d r} : Keeps s₀ (tierPromote id d r s) := by
  unfold Machine.tierPromote
  dsimp only
  split
  · exact h.refusePromote
  · exact .ite h.refusePromote h.promoteObj

theorem Keeps.tierEvict {c id} : Keeps s₀ (tierEvict c id s) := by
  unfold Machine.tierEvict
  split
  · exact h.refuseReq
  · exact .ite h.objW.bump (.ite h.objW h.evictNow)

theorem Keeps.tierFlush {c id} : Keeps s₀ (tierFlush c id s) := by
  unfold Machine.tierFlush
  split
  · exact h.refuseReq
  · exact .ite h.writeBack h

theorem Keeps.tierUnpin {c id} : Keeps s₀ (tierUnpin c id s) := by
  unfold Machine.tierUnpin
  split
  · exact h.refuseReq
  · exact .ite h.refuseReq h.setPin.pinReleased

theorem Keeps.tierSoft {q} : Keeps s₀ (tierSoft q s) :=
  .ite h.tierPromote (.ite h.tierEvict (.ite h.tierFlush (.ite h.tierUnpin h.refuseReq)))
theorem Keeps.tierPromoteDov {o} : Keeps s₀ (tierPromoteDov o s) := h.tierPromote
theorem Keeps.tierPhase1 : Keeps s₀ (tierPhase1 s) :=
  .foldl (.foldl h.upd fun _ _ k => k.setPin) fun _ _ k => k.pinReleased
theorem Keeps.tierPhase5 : Keeps s₀ (tierPhase5 s) := .foldl h.upd fun _ _ k => k.tierSoft
theorem Keeps.tierTeardown {c} : Keeps s₀ (tierTeardown c s) := .foldl h.upd fun _ _ k => .ite k k.setPin.pinReleased

theorem Keeps.promoteTile {x e} : Keeps s₀ (promoteTile x e s) :=
  .ite h.rurilRead (.ite h.rurilRead.setBenchTile.bump (.ite h.rurilRead.poison (.ite
    (h.rurilRead.killPromo.dropCopy.objW.ite h.rurilRead.killPromo).bump.tierLog h.rurilRead.setBenchTile.bump)))

theorem Keeps.backTile {x e} : Keeps s₀ (backTile x e s) :=
  have h₁ := h.eccCount.eccBad
  have h₂ := h₁.setRurilTile.setRurilBad.ite h₁.setRurilTile
  .ite h₂.bump.clearDirty h₂.bump

theorem Keeps.dropXfer {x} : Keeps s₀ (dropXfer x s) := h.upd

theorem Keeps.tierTransfer {i e} : Keeps s₀ (tierTransfer i e s) := by
  unfold Machine.tierTransfer
  split
  · exact h
  · refine .ite h ?_
    exact
      have h₁ := h.advanceTo.dropXfer
      .ite h₁.promoteTile h₁.backTile

theorem Keeps.promotionDone {o} : Keeps s₀ (promotionDone o s) := by
  unfold Machine.promotionDone
  split
  · exact h
  · refine .ite h ?_
    extract_lets +onlyGivenNames _ _ s₂ s₃
    have h₂ : Keeps s₀ s₂ := h.advanceTo.upd
    have h₃ : Keeps s₀ s₃ := .foldl h₂ fun _ _ k => k.signalReq
    exact .ite h₃ h₃.objW.objW.pinReleased

theorem Keeps.writebackDone {o} : Keeps s₀ (writebackDone o s) := by
  unfold Machine.writebackDone
  split
  · exact h
  · exact .ite h (.ite h.advanceTo.upd.dropCopy (.ite h.advanceTo.upd.dropCopy.objW.objW
      h.advanceTo.upd.dropCopy.objW))

theorem Keeps.flushDone {o} : Keeps s₀ (flushDone o s) := by
  unfold Machine.flushDone
  split
  · exact h
  · exact .ite h (.ite h.advanceTo.upd.objW h.advanceTo.upd)

theorem Keeps.recovered {o} : Keeps s₀ (recovered o s) :=
  .ite h.upd.bump.objW.defer.objW h.upd.bump.objW.defer.pinReleased

theorem Keeps.recoveryTile {o i x} : Keeps s₀ (recoveryTile o i x s) := by
  unfold Machine.recoveryTile
  split
  · exact h
  · exact .ite h (.ite h.trySource (.ite h.setRurilTile.recovered h.setRurilTile.setRecov))

theorem Keeps.recoveryTimeout {o} : Keeps s₀ (recoveryTimeout o s) := by
  unfold Machine.recoveryTimeout
  split
  · exact h
  · exact .ite h h.advanceTo.trySource

theorem Keeps.refetchBook {o i r} (e : refetchBook o i s = .some r) : Keeps s₀ r.2 := by
  have k (e : (Machine.book .refetch o s.cycle [i] s).map (fun p => (Option.some p.1, p.2)) = .some r)
    : Keeps s₀ r.2 := by
    obtain ⟨p, hp, rfl⟩ := Option.map_eq_some_iff.1 e
    exact h.book hp
  unfold Machine.refetchBook at e
  split at e
  · split at e
    · split at e
      · cases e
      · cases e
        exact h
    · exact k e
  · exact k e

theorem Keeps.scrub {n corrected bad} : Keeps s₀ (scrub n corrected bad s) := by
  unfold Machine.scrub
  extract_lets +onlyGivenNames s₁
  have h₁ : Keeps s₀ s₁ := .ite h h.bumpBy
  refine .ite ?_ h₁
  dsimp only
  split
  · exact h₁.setRurilBad.poison
  · exact h₁.setRurilBad

theorem Keeps.objNext : Keeps s₀ (objNext s) := h.wr
theorem Keeps.objWrite {o w v} : OptKeeps s₀ (objWrite o w v s) :=
  .ite (.some h) (.ite .none (.ite .none (.ite (.some h.tbW.upd.objW) (.some h.tbW))))

theorem Keeps.objAccess {a src} : Keeps s₀ (objAccess a src s) := by
  cases a with
  | read => exact h.reply.objNext
  | write v => exact (h.objWrite.getD h.refuse).objNext

theorem Keeps.submitReq {w1} : Keeps s₀ (submitReq w1 s) := h.upd
theorem Keeps.poisonFirstWrite {v} : Keeps s₀ (poisonFirstWrite v s) := .ite h.wr h

end Sys2Proof.Machine
end

section
/-! What a step keeps: the block pool and the step boundary. -/
namespace Sys2Proof.Machine

variable {s₀ s : State} (h : Keeps s₀ s)
include h

theorem Keeps.bdW {n f x} : Keeps s₀ (bdW n f x s) := h.setRurilBytes
theorem Keeps.bufFree {n} : Keeps s₀ (bufFree n s) := h.setRurilBytes.bdW.wrF.bump
theorem Keeps.spoilTag {n} : Keeps s₀ (spoilTag n s) := ⟨fun c => canonical_spoilTag n s (h.form c), h.dev, h.pending⟩
theorem Keeps.bufAlloc {half} : Keeps s₀ (bufAlloc half s).2 := h.wrF.wr.setRurilBytes.spoilTag
theorem Keeps.bufDrop {n} : Keeps s₀ (bufDrop n s) := .ite (.ite h.bdW.bdW.bufFree h.bdW.bdW) h.bdW

theorem Keeps.poolFree {half n} : Keeps s₀ (poolFree half n s).2 := by
  unfold Machine.poolFree
  split
  · split
    · exact h.bufFree
    · exact h.bdW
  · exact h.bump.log

theorem Keeps.poolDrop {n} : Keeps s₀ (poolDrop n s).2 := by
  unfold Machine.poolDrop
  split
  · exact h.bufDrop
  · exact h.bump

theorem Keeps.poolShare {half n num newFinal} : Keeps s₀ (poolShare half n num newFinal s).2 := by
  unfold Machine.poolShare
  split
  · exact h.bdW.bdW.bdW
  · exact h.bump

theorem Keeps.listBroken {n} : Keeps s₀ (listBroken n s) := h.log
theorem Keeps.setResult {soft status n} : Keeps s₀ (setResult soft status n s) := .ite h.wr h

theorem Keeps.poolDo {r} : Keeps s₀ (poolDo r s) :=
  .ite (.ite h.bump.setResult (h.bufAlloc.ite h.bufAlloc.wrF.wr.listBroken).setResult) (.ite h.poolShare.setResult
    (.ite h.poolDrop.setResult (.ite (.ite h.poolFree.setResult h.listBroken.setResult) h.bump.setResult)))

theorem Keeps.poolReq {r} : Keeps s₀ (poolReq r s) := .ite h.upd h.poolDo
theorem Keeps.poolSubmit {w1} : Keeps s₀ (poolSubmit w1 s) := h.poolReq
theorem Keeps.slW {n w f x} : Keeps s₀ (slW n w f x s) := h.tbWF
theorem Keeps.slotZero {n} : Keeps s₀ (slotZero n s) := h.tabClear
theorem Keeps.slotGive {n} : Keeps s₀ (slotGive n s) :=
  .foldl (.foldl h fun _ _ k => k.poolFree) fun _ _ k => k.poolDrop
theorem Keeps.slotLeave {n status} : Keeps s₀ (slotLeave n status s) := h.slotGive.post.slotZero
theorem Keeps.leave {n status} : Keeps s₀ (leave n status s) := .ite h.slW.slW h.bump
theorem Keeps.leaveReq {n status} : Keeps s₀ (leaveReq n status s) := .ite h.upd h.leave
theorem Keeps.slotReq {v} : Keeps s₀ (slotReq v s) := .ite h.leaveReq h.bump
theorem Keeps.slotDataRead {src} : Keeps s₀ (slotDataRead src s) := h.wr.reply
theorem Keeps.joinArrive {j} : Keeps s₀ (joinArrive j s) := .ite h.postJoin.bump.bump h.upd
theorem Keeps.poolCtlWrite {v src} : Keeps s₀ (poolCtlWrite v src s) := .ite (.ite h.refuse h.wrF.wrF) h.wrF
theorem Keeps.poolInit : Keeps s₀ (poolInit s) :=
  .ite (.wrF (.tabClear (.wr (.wrF (.foldl h fun _ _ k => k.setRurilBytes.setRurilBytes))))) h
theorem Keeps.atCycle {c f} (hf : ∀ t, Keeps s₀ t → Keeps s₀ (f t)) : Keeps s₀ (atCycle c f s) := (hf _ h.upd).upd
theorem Keeps.setBnd {b} : Keeps s₀ (setBnd b s) := h.upd
theorem Keeps.showPhase {n} : Keeps s₀ (showPhase n s) := h.wrF

theorem Keeps.phase2 {b} : Keeps s₀ (phase2 b s).2 := by
  unfold Machine.phase2
  extract_lets +onlyGivenNames ls given s₁
  have k : Keeps s₀ s₁ := h.atCycle fun _ k => .foldl k fun _ _ k => k.slotLeave.bump
  exact k

theorem Keeps.parkCopy {n} : Keeps s₀ (parkCopy n s) := .foldl h fun _ _ k => k.emit
theorem Keeps.parkXferFail {n} : Keeps s₀ (parkXferFail n s) := h.bump.log
theorem Keeps.slotGrow {n} : Keeps s₀ (slotGrow n s) := .ite h (h.bufAlloc.slW.ite h.bufAlloc.bdW).slW.slW

theorem Keeps.slotGrowBy {k n} : Keeps s₀ (slotGrowBy k n s) := by
  induction k generalizing s with
  | zero => exact h
  | succ k ih => exact ih h.slotGrow

theorem Keeps.phase3Grow {b} : Keeps s₀ (phase3Grow b s).2 := .upd (.foldl h fun _ _ k => k.slotGrowBy.slW)
theorem Keeps.parkDone {n ok} : Keeps s₀ (parkDone n ok s) :=
  .ite h.slotGive.post.slotZero.bump h.slotGive.post.slotZero.log
theorem Keeps.deferJoins {js} : Keeps s₀ (deferJoins js s) := .foldl h fun _ _ k => k.postJoin.bump
theorem Keeps.admitJoin {j n} : Keeps s₀ (admitJoin j n s) :=
  .slotGrowBy (.foldl h.wrF.slotZero.tbW.tbW.slW.slW.slW.slW.tbW fun _ _ k => k.bdW)
theorem Keeps.admitted {j n} : Keeps s₀ (admitted j n s) := h.post.bump

theorem Keeps.phase4 {b js} : Keeps s₀ (phase4 b js s).2 := by
  induction js generalizing s b with
  | nil => exact h
  | cons j js ih =>
    unfold Machine.phase4
    split
    · exact h.deferJoins
    · dsimp only
      split
      · exact ih h.postJoin
      · split
        · exact h.deferJoins
        · split
          · split
            · exact h.admitJoin.emit
            · exact ih h.admitJoin.admitted
          · exact h.deferJoins

theorem Keeps.phase5 {b} : Keeps s₀ (phase5 b s) :=
  .foldl (.foldl (.setBnd (.upd (.atCycle h.showPhase fun _ k => k.tierPhase5))) fun _ _ k => k.poolDo)
    fun _ _ k => k.leave

theorem Keeps.runPhase4 {b} : Keeps s₀ (runPhase4 b s) :=
  have h₁ := h.showPhase.upd.phase4
  .ite h₁.upd.setBnd h₁.upd.phase5

theorem Keeps.runPhase3 {b} : Keeps s₀ (runPhase3 b s) := by
  unfold Machine.runPhase3
  split
  next e => exact (h.showPhase.phase3Grow.of_snd e).runPhase4

theorem Keeps.parksXferFail : Keeps s₀ (parksXferFail s) := .foldl h fun _ _ k => k.parkXferFail

theorem Keeps.parksEnd : Keeps s₀ (parksEnd s) := by
  unfold Machine.parksEnd
  split
  · exact .ite h (.runPhase3 (.setBnd (.foldl h fun _ _ k => k.parkDone)))
  · exact h

theorem Keeps.runPhase2 {b} : Keeps s₀ (runPhase2 b s) :=
  have h₁ := h.showPhase.phase2
  .ite h₁.runPhase3 (.ite (.setBnd (.foldl h₁.showPhase fun _ _ k => k.parkCopy))
    h₁.showPhase.setBnd.parksXferFail.parksEnd)

theorem Keeps.parkCopyDone {n ok} : Keeps s₀ (parkCopyDone n ok s) := by
  unfold Machine.parkCopyDone
  split
  · split
    · exact .ite (.ite h.parkDone.setBnd.runPhase3 h.parkDone.setBnd) h
    · exact h
  · exact h

theorem Keeps.resumeXferFail : Keeps s₀ (resumeXferFail s) := by
  unfold Machine.resumeXferFail
  split
  · exact h.bump.log
  · exact h

theorem Keeps.resumeUndo : Keeps s₀ (resumeUndo s) := by
  unfold Machine.resumeUndo
  split
  · split
    · exact h.slotGive.slotZero.postJoin.bump.runPhase4
    · exact h
  · exact h

theorem Keeps.resumeCopyDone {n pages} : Keeps s₀ (resumeCopyDone n pages s) := by
  unfold Machine.resumeCopyDone
  split
  · split
    · refine .ite ?_ h
      split
      · exact .runPhase4 (.admitted (.foldl h fun _ _ k => k.setRurilTile))
      · exact h.resumeXferFail.resumeUndo
    · exact h
  · exact h

theorem Keeps.boundaryOn {bit} : Keeps s₀ (boundaryOn bit s) := by
  unfold Machine.boundaryOn
  split
  · exact .ite h.runPhase2 h.setBnd
  · exact h

theorem Keeps.boundaryEnter : Keeps s₀ (boundaryEnter s) := h.showPhase.wrF.setBnd.defer
theorem Keeps.boundaryTry : Keeps s₀ (boundaryTry s) :=
  .ite h (.ite h.upd.boundaryEnter (.ite h.tbWF.boundaryEnter h))
theorem Keeps.stepEndWrite {v} : Keeps s₀ (stepEndWrite v s) := .ite h.upd.boundaryTry h

theorem Keeps.newStep : Keeps s₀ (newStep s) := by
  unfold Machine.newStep
  split
  · exact .ite h.advanceTo.upd.wr.wr h
  · exact h

theorem Keeps.slotsTorn {c} : Keeps s₀ (slotsTorn c s) :=
  .foldl (.upd (.foldl h fun _ _ k => k.slotLeave)) fun _ _ k => k.postJoin

end Sys2Proof.Machine
end

section
/-! What a step keeps: exception flags and Clamp. -/
namespace Sys2Proof.Machine

variable {s₀ s : State} (h : Keeps s₀ s)
include h

theorem Keeps.gather {b q fl} : Keeps s₀ (gather b q fl s) := by
  unfold Machine.gather
  split
  · exact h
  · exact
      have h₁ := h.bump.ite h
      have h₂ := h₁.bump.ite h₁
      have h₃ := h₂.bump.ite h₂
      have h₄ := h₃.bump.ite h₃
      .ite h₄.bump h₄

theorem Keeps.rowGather {b q} : Keeps s₀ (rowGather b q s) := .ite h.gather.setSide.upd h.gather.setSide

theorem Keeps.excRecord {b unit acc pass events} : Keeps s₀ (excRecord b unit acc pass events s) := by
  unfold Machine.excRecord
  refine .ite h ?_
  dsimp only
  split
  · exact h
  · exact h.wr

theorem Keeps.clampQueued : Keeps s₀ (clampQueued s) := h.wrF

theorem Keeps.clampCompare {own twin} : Keeps s₀ (clampCompare own twin s) := by
  unfold Machine.clampCompare
  refine .ite h.bump ?_
  refine .ite h.bump.bump ?_
  dsimp only
  split
  · exact .ite h.bump.bump.wrF.wr.wr.log.ctxFault h.bump.bump.wrF.wr.wr.log
  · exact h.bump.bump.wrF.wr.wr.log

theorem Keeps.clampOut {x} : Keeps s₀ (clampOut x s) := h.upd
theorem Keeps.clampRoom : Keeps s₀ (clampRoom s) := .ite h (.ite h.upd.bump h.upd.bump.wrF.log)

theorem Keeps.clampMake {b q tile crc pg} : Keeps s₀ (clampMake b q tile crc pg s) := by
  unfold Machine.clampMake
  dsimp only
  split
  · exact h
  · refine .ite h ?_
    split
    · exact h.upd.clampOut.upd.clampCompare
    · exact h.upd.clampRoom.clampOut.upd.clampQueued

theorem Keeps.clampArrive {y} : Keeps s₀ (clampArrive y s) := by
  unfold Machine.clampArrive
  split
  · exact h.upd.clampQueued.clampCompare
  · exact .ite h h.upd

end Sys2Proof.Machine
end

section
/-! What a step keeps: bench faults, uses of tiles, converters. -/
namespace Sys2Proof.Machine

variable {s₀ s : State} (h : Keeps s₀ s)
include h

theorem Keeps.discardSwaps {b q} : Keeps s₀ (discardSwaps b q s) := h.setSeq

theorem Keeps.benchFault {b q cause code pc} : Keeps s₀ (benchFault b q cause code pc s) := by
  unfold Machine.benchFault
  refine .ite h ?_
  dsimp only
  split
  · exact h.setSeq.discardSwaps.wr.log.ctxFault
  · exact h.setSeq.discardSwaps.wr.log

theorem Keeps.opFault {b q cause op} : Keeps s₀ (opFault b q cause op s) := h.benchFault

theorem Keeps.startRefetch {b t who} : Keeps s₀ (startRefetch b t who s).2 := by
  unfold Machine.startRefetch
  dsimp only
  split
  · exact h.setBench
  · split
    · exact h
    · split
      · exact h
      · split
        · exact h.bump.tierLog
        · next e =>
            exact (h.refetchBook e).bump.setBench

theorem Keeps.useTileAs {b t unit who e} : Keeps s₀ (useTileAs b t unit who e s).2 := by
  unfold Machine.useTileAs
  extract_lets +onlyGivenNames s₁ s₂
  have h₁ : Keeps s₀ s₁ := h.eccBad
  have h₂ : Keeps s₀ s₂ := h₁.setOutcome.ite h₁
  split
  · exact .ite_snd h₂ h₂
  · split
    · next e => exact h₁.countFail.startRefetch.of_snd e
    · next e => exact (h₁.countFail.startRefetch.of_snd e).setOutcome

theorem Keeps.useTile {b q t unit e} : Keeps s₀ (useTile b q t unit e s).2 := h.useTileAs

theorem Keeps.readCompanion {b q conv who comp fmt record e} :
    Keeps s₀ (readCompanion b q conv who comp fmt record e s).2 := by
  unfold Machine.readCompanion
  dsimp only
  split
  · exact h
  · split <;> rename_i e
    · exact (h.useTileAs.of_snd e).setSide
    · exact h.useTileAs.of_snd e
    · exact h.useTileAs.of_snd e
    · exact h.useTileAs.of_snd e

theorem Keeps.bookFor {b q conv t e} : Keeps s₀ (bookFor b q conv t e s).2 := by
  unfold Machine.bookFor
  dsimp only
  split
  · exact h
  · split
    · exact h
    · split
      · exact h
      · exact h.readCompanion

theorem Keeps.bookForEncode {b q who dst fmt e} : Keeps s₀ (bookForEncode b q who dst fmt e s).2 := by
  unfold Machine.bookForEncode
  split
  · exact h
  · split
    · exact h
    · split
      · exact h
      · exact h.readCompanion

theorem Keeps.readTile {b q unit conv t e} : Keeps s₀ (readTile b q unit conv t e s).2 := by
  unfold Machine.readTile
  split <;> rename_i e
  · exact h.useTile.of_snd e
  · exact h.useTile.of_snd e
  · exact h.useTile.of_snd e
  · have k := h.useTile.of_snd e
    split <;> next e => exact k.bookFor.of_snd e

theorem Keeps.readRun {b q unit conv fmt per e ts} : Keeps s₀ (readRun b q unit conv fmt per e ts s).2 := by
  induction ts generalizing s with
  | nil => exact h
  | cons t ts ih =>
    unfold Machine.readRun
    split
    · next e =>
      have k := h.readTile.of_snd e
      split
      · exact k
      · split
        · next e => exact (ih k).of_snd e
        · exact ih k
    · exact h.readTile

theorem Keeps.serve {b half unit} : Keeps s₀ (serve b half unit s) := h.setBench

end Sys2Proof.Machine
end

section
/-! What a step keeps: the row, the load, Shave, Sander and store units. -/
namespace Sys2Proof.Machine

variable {s₀ s : State} (h : Keeps s₀ s)
include h

theorem Keeps.flipBanks {b q} : Keeps s₀ (flipBanks b q s) := .ite h.setBench (.ite h.setBench h.setBench)
theorem Keeps.writeShadow {b q width vals} : Keeps s₀ (writeShadow b q width vals s) := h.setBench
theorem Keeps.writeHeldVec {b q width vals} : Keeps s₀ (writeHeldVec b q width vals s) := .ite h.setBench h.setBench

theorem Keeps.shaveAdds {b q r n k} : Keeps s₀ (shaveAdds b q r n k s).1 := by
  induction n generalizing s k with
  | zero => exact h
  | succ n ih => exact ih h.setBench.excRecord

theorem Keeps.shaveUpto {b q x r} : Keeps s₀ (shaveUpto b q x r s).2 := h.shaveAdds

theorem Keeps.shavesUpto {b q x rs} : Keeps s₀ (shavesUpto b q x rs s).2 := by
  induction rs generalizing s with
  | nil => exact h
  | cons r rs ih => exact ih h.shaveUpto

theorem Keeps.syncShaves {b q x} : Keeps s₀ (syncShaves b q x s) := h.shavesUpto.setSide

theorem Keeps.storeReads {b q r n k} : Keeps s₀ (storeReads b q r n k s).1 := by
  induction n generalizing s k with
  | zero => exact h
  | succ n ih => exact ih (h.syncShaves.setBench.ite h.syncShaves)

theorem Keeps.storeUpto {b q x r} : Keeps s₀ (storeUpto b q x r s).2 := h.storeReads

theorem Keeps.storesUpto {b q x rs} : Keeps s₀ (storesUpto b q x rs s).2 := by
  induction rs generalizing s with
  | nil => exact h
  | cons r rs ih => exact ih h.storeUpto

theorem Keeps.catchUp {b q x} : Keeps s₀ (catchUp b q x s) := h.storesUpto.setSide.syncShaves

theorem Keeps.railRead {b q op stile passNo c e} : Keeps s₀ (railRead b q op stile passNo c e s) := by
  unfold Machine.railRead
  dsimp only
  split <;> rename_i e
  · exact (h.useTile.of_snd e).setSide.setSide
  · exact (h.useTile.of_snd e).advanceTo.setSide.opFault
  · exact (h.useTile.of_snd e).advanceTo.setSide.opFault
  · have k := h.useTile.of_snd e
    refine .ite k.advanceTo.setSide.opFault ?_
    split <;> rename_i e
    · exact (k.bookFor.of_snd e).setSide.setSide
    · exact (k.bookFor.of_snd e).advanceTo.setSide.opFault
    · exact (k.bookFor.of_snd e).bumpBy.setSide.setSide
    · exact (k.bookFor.of_snd e).bumpBy.setSide.setSide

theorem Keeps.passDispatch {b q e} : Keeps s₀ (passDispatch b q e s) := by
  unfold Machine.passDispatch
  split
  · exact h
  · extract_lets +onlyGivenNames _ _ _ s₁ _ s₂
    have h₁ : Keeps s₀ s₁ := h.advanceTo.serve.eccCount
    have h₂ : Keeps s₀ s₂ := by
      unfold s₂
      split
      · exact h₁
      · exact h₁.setSeq.flipBanks.rowGather
    exact .ite h₂.setSide.bump.railRead h₂.setSide.bump.setSide

theorem Keeps.passAccumulate {b q} : Keeps s₀ (passAccumulate b q s) := by
  unfold Machine.passAccumulate
  split
  · exact h
  · exact .ite h h.advanceTo.catchUp.setBench.setSide.excRecord

theorem Keeps.undefinedUse {b q t unit e op pop} (hpop : ∀ t, Keeps s₀ t → Keeps s₀ (pop t)) :
    Keeps s₀ (undefinedUse b q t unit e op pop s) := by
  unfold Machine.undefinedUse
  split <;> rename_i e
  · exact h.useTile.of_snd e
  · exact (hpop _ (h.useTile.of_snd e)).opFault
  · exact (hpop _ (h.useTile.of_snd e)).opFault

theorem Keeps.loadBegin {b q e} : Keeps s₀ (loadBegin b q e s) := by
  unfold Machine.loadBegin
  split
  · exact h
  · extract_lets +onlyGivenNames _ _ s₁ _ pop
    have h₁ : Keeps s₀ s₁ := h.advanceTo.serve.eccCount
    have hpop (t : State) (k : Keeps s₀ t) : Keeps s₀ (pop t) := k.setSide
    refine .ite (h₁.undefinedUse hpop) (.ite (hpop _ h₁).opFault (.ite (hpop _ h₁).opFault ?_))
    split
    · next e => exact h₁.readRun.of_snd e
    · next e => exact (hpop _ (h₁.readRun.of_snd e)).opFault
    · next e => exact (hpop _ (h₁.readRun.of_snd e)).setSide

theorem Keeps.loadComplete {b q} : Keeps s₀ (loadComplete b q s) := by
  unfold Machine.loadComplete
  split
  · exact h
  · exact (h.advanceTo.writeShadow.ite h.advanceTo.writeHeldVec).setSide

theorem Keeps.shaveStart {b q e} : Keeps s₀ (shaveStart b q e s) := by
  unfold Machine.shaveStart
  split
  · exact h
  · extract_lets +onlyGivenNames _ _ s₁ pop
    have h₁ : Keeps s₀ s₁ := h.advanceTo.serve.eccCount
    have hpop (t : State) (k : Keeps s₀ t) : Keeps s₀ (pop t) := k.setSide
    split
    · next e => exact h₁.useTile.of_snd e
    · next e => exact (hpop _ (h₁.useTile.of_snd e)).opFault
    · next e => exact (hpop _ (h₁.useTile.of_snd e)).opFault
    · next e =>
      have h₂ := h₁.useTile.of_snd e
      extract_lets +onlyGivenNames _ _ _ _ run
      have hrun (v x) (t : State) (k : Keeps s₀ t) : Keeps s₀ (run v x t) := (hpop _ k).bumpBy.setSide
      refine .ite (hpop _ h₂).opFault ?_
      split
      · next e => exact h₂.bookFor.of_snd e
      · next e => exact (hpop _ (h₂.bookFor.of_snd e)).opFault
      · next e => exact hrun _ _ _ (h₂.bookFor.of_snd e)
      · next e => exact hrun _ _ _ (h₂.bookFor.of_snd e)

theorem Keeps.shaveComplete {b q} : Keeps s₀ (shaveComplete b q s) := by
  unfold Machine.shaveComplete
  split
  · exact h
  · exact h.advanceTo.shaveUpto.setSide.gather

theorem Keeps.sandStart {b q e} : Keeps s₀ (sandStart b q e s) := by
  unfold Machine.sandStart
  split
  · exact h
  · extract_lets +onlyGivenNames _ _ s₁ pop
    have h₁ : Keeps s₀ s₁ := h.advanceTo.serve.eccCount
    have hpop (t : State) (k : Keeps s₀ t) : Keeps s₀ (pop t) := k.setSide
    split
    · next e => exact h₁.readTile.of_snd e
    · next e => exact (hpop _ (h₁.readTile.of_snd e)).opFault
    · next e =>
      have h₂ := h₁.readTile.of_snd e
      refine .ite (hpop _ h₂).opFault (.ite (h₂.undefinedUse hpop) (.ite (hpop _ h₂).opFault ?_))
      split
      · next e => exact h₂.readRun.of_snd e
      · next e => exact (hpop _ (h₂.readRun.of_snd e)).opFault
      · next e =>
        have h₃ := h₂.readRun.of_snd e
        extract_lets +onlyGivenNames go
        have hgo (v x) (t : State) (k : Keeps s₀ t) : Keeps s₀ (go v x t) := (hpop _ k).bumpBy.setSide
        split
        · next e => exact h₃.bookForEncode.of_snd e
        · next e => exact (hpop _ (h₃.bookForEncode.of_snd e)).opFault
        · next e => exact hgo _ _ _ (h₃.bookForEncode.of_snd e)
        · next e => exact hgo _ _ _ (h₃.bookForEncode.of_snd e)

theorem Keeps.takeCode : Keeps s₀ (takeCode s).2 := h.nextFresh

theorem Keeps.writeResult {b q pg dst fmt own x} : Keeps s₀ (writeResult b q pg dst fmt own x s) := by
  unfold Machine.writeResult
  refine .clampMake ?_
  split
  · exact
      have h₁ := h.landTile.bumpBy.ite h.landTile
      .ite h₁.bumpBy h₁
  · exact h.landTile

theorem Keeps.endTrapWait {b q po} : Keeps s₀ (endTrapWait b q po s) := by
  unfold Machine.endTrapWait
  dsimp only
  split
  · exact .ite h.setSeq h
  · exact h

theorem Keeps.sandComplete {b q} : Keeps s₀ (sandComplete b q s) := by
  unfold Machine.sandComplete
  split
  · exact h
  · exact .ite h (.ite h.advanceTo.takeCode.setSide.excRecord.opFault
      h.advanceTo.takeCode.setSide.excRecord.writeResult.gather.endTrapWait)

theorem Keeps.storeStart {b q e} : Keeps s₀ (storeStart b q e s) := by
  unfold Machine.storeStart
  split
  · exact h
  · extract_lets +onlyGivenNames _ _ s₁ pop go
    have h₁ : Keeps s₀ s₁ := h.advanceTo.serve.eccCount
    have hpop (t : State) (k : Keeps s₀ t) : Keeps s₀ (pop t) := k.setSide
    have hgo (v x) (t : State) (k : Keeps s₀ t) : Keeps s₀ (go v x t) := (hpop _ k).setSide
    split
    · next e => exact h₁.bookForEncode.of_snd e
    · next e => exact (hpop _ (h₁.bookForEncode.of_snd e)).opFault
    · next e => exact hgo _ _ _ (h₁.bookForEncode.of_snd e)
    · next e => exact hgo _ _ _ (h₁.bookForEncode.of_snd e)

theorem Keeps.clearAccs {b q op} : Keeps s₀ (clearAccs b q op s) := .foldl h fun _ _ k => k.setBench

theorem Keeps.storeComplete {b q} : Keeps s₀ (storeComplete b q s) := by
  unfold Machine.storeComplete
  split
  · exact h
  · refine .ite h ?_
    extract_lets +onlyGivenNames _ _ _ _ s₁
    have h₁ : Keeps s₀ s₁ := h.advanceTo.storeUpto.setSide
    split
    next e =>
      have h₂ := h₁.takeCode.of_snd e
      extract_lets +onlyGivenNames _ _ _ s₃
      have h₃ : Keeps s₀ s₃ := by
        unfold s₃
        split
        · exact h₂.excRecord
        · exact h₂
      exact .ite h₃.opFault (h₃.clearAccs.ite h₃).writeResult.gather.endTrapWait

theorem Keeps.guarded {p f} (hf : ∀ t, Keeps s₀ t → Keeps s₀ (f t)) : Keeps s₀ (guarded p f s) := .ite (hf _ h) h

theorem Keeps.unitActs {b q u} {a : Option UOp × (State → Bool) × (State → State)} (ha : a ∈ unitActs b q u) :
    Keeps s₀ (a.2.2 s) := by
  simp only [Machine.unitActs, List.mem_cons, List.not_mem_nil, or_false] at ha
  rcases ha with rfl | rfl | rfl | rfl | rfl | rfl | rfl
  · exact h.passDispatch
  · exact h.loadBegin
  · exact h.shaveStart
  · exact h.sandStart
  · exact h.storeStart
  · exact h.sandComplete
  · exact h.storeComplete

theorem Keeps.unitAct {b q op p f} (hf : ∀ t, Keeps s₀ t → Keeps s₀ (f t)) : Keeps s₀ (unitAct b q op p f s) := by
  unfold Machine.unitAct
  extract_lets +onlyGivenNames t u before least
  have ht : Keeps s₀ t := h.guarded hf
  have hleast (a) : least = Option.some a → Keeps s₀ (a.2.2 u) := by
    refine List.foldlRecOn (motive := fun m => m = Option.some a → Keeps s₀ (a.2.2 u)) _ _ (fun e => by cases e) ?_
    intro m hm a' ha e
    have hu : Keeps s₀ (a'.2.2 u) := h.advanceTo.unitActs (List.mem_of_mem_filter ha)
    split at e
    · split at e
      · cases e; exact hu
      · exact hm e
    · cases e; exact hu
  refine .ite ht ?_
  cases e : least with
  | none => exact ht
  | some a => exact (hleast a e).guarded hf

end Sys2Proof.Machine
end

section
/-! What a step keeps: issue, MOVE.T and the Floor, re-fetches, starts and bench resets. -/
namespace Sys2Proof.Machine

variable {s₀ s : State} (h : Keeps s₀ s)
include h

theorem Keeps.issued {b q closes f} : Keeps s₀ (issued b q closes f s) := h.setSeq
theorem Keeps.issueFault {b q cause code} : Keeps s₀ (issueFault b q cause code s) := h.benchFault

theorem Keeps.issue {k f b q} (hf : ∀ w t, Keeps s₀ t → OptKeeps s₀ (f w t)) : Keeps s₀ (issue k f b q s) := by
  unfold Machine.issue
  refine .ite h ?_
  dsimp only
  split
  · exact h.advanceTo.issueFault
  · exact .ite ((hf _ _ h.advanceTo).getD h) h

theorem Keeps.issueNop {b q _w} : OptKeeps s₀ (issueNop b q _w s) := .some h.issued
theorem Keeps.issuePass {b q w} : OptKeeps s₀ (issuePass b q w s) :=
  .ite .none (.ite (.some h.issueFault) (.ite (.some h.issueFault) (.some h.setSide.issued)))
theorem Keeps.issueSwap {b q w} : OptKeeps s₀ (issueSwap b q w s) := .some h.issued
theorem Keeps.issueShave {b q w} : OptKeeps s₀ (issueShave b q w s) :=
  .ite .none (.ite (.some h.issueFault) (.ite (.some h.issueFault) (.some h.setSide.issued)))

theorem Keeps.issueSand {b q w} : OptKeeps s₀ (issueSand b q w s) :=
  .ite .none (.ite (.some h.issueFault) (.ite (.some h.issueFault) (.ite (.some h.issueFault) (.some
    h.setSide.issued))))

theorem Keeps.issueLoad {kind b q w} : OptKeeps s₀ (issueLoad kind b q w s) :=
  .ite .none (.ite (.some h.issueFault) (.some h.setSide.issued))

theorem Keeps.issueStore {b q w} : OptKeeps s₀ (issueStore b q w s) :=
  .ite .none (.ite (.some h.issueFault) (.ite (.some h.issueFault) (.ite (.some h.issueFault) (.ite (.some
    h.issueFault) (.some h.setSide.issued)))))

theorem Keeps.issueMoveI {b q w v} : OptKeeps s₀ (issueMoveI b q w v s) := .some h.issued
theorem Keeps.issueMoveGet {b q w} : OptKeeps s₀ (issueMoveGet b q w s) :=
  .ite h.issueMoveI (.ite h.issueMoveI (.some h.issueFault))
theorem Keeps.issueLoop {b q w} : OptKeeps s₀ (issueLoop b q w s) :=
  .ite (.some h.issueFault) (.ite (.some h.issued) (.ite (.some h.issueFault) (.some h.issued)))
theorem Keeps.issueBranch {k b q w} : OptKeeps s₀ (issueBranch k b q w s) := .ite (.some h.issued) (.some h.issued)
theorem Keeps.issueHalt {b q _w} : OptKeeps s₀ (issueHalt b q _w s) := .some h.discardSwaps.rowGather.issued
theorem Keeps.issueTrap {b q w} : OptKeeps s₀ (issueTrap b q w s) := .some h.issueFault

theorem Keeps.issueSync {b q w} : OptKeeps s₀ (issueSync b q w s) :=
  have h₁ := h.discardSwaps.ite h
  .some (.ite h₁.issued.defer h₁.issued)

theorem Keeps.resume {b q f} : Keeps s₀ (resume b q f s) := h.setSeq

theorem Keeps.syncRelease {b q} : Keeps s₀ (syncRelease b q s) := by
  unfold Machine.syncRelease
  split
  · refine .ite h ?_
    exact
      have h₁ := h.advanceTo.ite h
      (h₁.rowGather.ite h₁).resume
  · exact h

theorem Keeps.pastEnd {b q} : Keeps s₀ (pastEnd b q s) := .ite h.advanceTo.benchFault h
theorem Keeps.beginDeferral {half n} : Keeps s₀ (beginDeferral half n s) := .ite (.ite h.upd h.upd.bump) h

theorem Keeps.issueSemWait {b q w} : OptKeeps s₀ (issueSemWait b q w s) := by
  unfold Machine.issueSemWait
  split
  · exact .some h.issueFault
  · refine .some ?_
    split
    · exact .ite h.issued.beginDeferral h.issued
    · exact h.issued

theorem Keeps.issueSemSignal {b q w} : OptKeeps s₀ (issueSemSignal b q w s) := by
  unfold Machine.issueSemSignal
  split
  · exact .some h.issueFault
  · exact
      have h₁ := h.issued.advanceTo
      .some (.ite h₁.lockRelease h₁.semAdd)

theorem Keeps.semServe {b q} : Keeps s₀ (semServe b q s) := by
  unfold Machine.semServe
  split
  · exact .ite h ((h.advanceTo.tcc.ite h.advanceTo).tbW.upd.ite h.advanceTo.tbWF).resume
  · exact h

theorem Keeps.sched {b q} : Keeps s₀ (sched b q s) := h.setSide

theorem Keeps.issueMoveT {out b q w} : OptKeeps s₀ (issueMoveT out b q w s) :=
  .ite .none (.ite (.some h.issueFault) (.ite (.some h.issueFault) (.ite (.some h.issueFault) (.ite (.some h.issued)
    (.some h.issued.setSide.sched)))))

theorem Keeps.moveTiles {b q op e n k} : Keeps s₀ (moveTiles b q op e n k s).2 := by
  induction n generalizing s k with
  | zero => exact h
  | succ n ih =>
    unfold Machine.moveTiles
    dsimp only
    split
    · refine ih (.landTile ?_)
      split
      · exact h.eccBad.nextFresh
      · exact h.eccBad
    · split <;> rename_i e
      · exact h.useTile.of_snd e
      · exact h.useTile.of_snd e
      · exact h.useTile.of_snd e
      · have k := h.useTile.of_snd e
        split
        · exact k
        · exact ih k.landTile

theorem Keeps.setMove {b q r new} : Keeps s₀ (setMove b q r new s) := h.setSide

theorem Keeps.moveComplete {b q e} : Keeps s₀ (moveComplete b q e s) := by
  unfold Machine.moveComplete
  split
  · exact h
  · extract_lets +onlyGivenNames s₁ s₂
    have h₂ : Keeps s₀ s₂ := h.advanceTo.eccCount
    split <;> rename_i e
    · exact ((Keeps.ite_snd (p := (_, s₂)) h₂ h₂.moveTiles).of_snd e).setMove.sched
    · exact ((Keeps.ite_snd (p := (_, s₂)) h₂ h₂.moveTiles).of_snd e).setMove
    · exact ((Keeps.ite_snd (p := (_, s₂)) h₂ h₂.moveTiles).of_snd e).setMove.opFault.sched

theorem Keeps.retryFlight {b q c e} : Keeps s₀ (retryFlight b q c e s) := by
  unfold Machine.retryFlight
  split
  · exact .ite h h.railRead
  · exact h

theorem Keeps.retryFlights {b e} : Keeps s₀ (retryFlights b e s) := by
  unfold Machine.retryFlights
  extract_lets +onlyGivenNames _ s₁
  have h₁ : Keeps s₀ s₁ := .foldl h fun _ _ k => k.retryFlight
  exact .ite h₁ (.foldl h₁ fun _ _ k => k.retryFlight)

theorem Keeps.holdRefetch {b t} : Keeps s₀ (holdRefetch b t s) := h.setBench

theorem Keeps.refetchDone {b t e} : Keeps s₀ (refetchDone b t e s) := by
  unfold Machine.refetchDone
  split
  · exact
      have h₁ := h.advanceTo.dropXfer
      .ite h₁.rurilRead.holdRefetch (.ite h₁.rurilRead.poison.holdRefetch
        h₁.rurilRead.setBenchTile.bump.setBench.retryFlights)
  · exact h

theorem Keeps.bookHeld {o} : Keeps s₀ (bookHeld o s) := by
  unfold Machine.bookHeld
  refine .foldl h fun _ _ k => ?_
  refine .foldl k fun _ _ k => ?_
  split
  · refine .ite k ?_
    split
    · next e =>
        exact (k.refetchBook e).setBench
    · exact k.setBench.retryFlights
  · exact k

theorem Keeps.failHeld {o} : Keeps s₀ (failHeld o s) := by
  unfold Machine.failHeld
  refine .foldl h fun _ _ k => ?_
  refine .foldl k fun _ _ k => ?_
  split
  · exact .ite k k.setBench.retryFlights
  · exact k

theorem Keeps.acceptGo {b q pc} : Keeps s₀ (acceptGo b q pc s) := h.setSeq

theorem Keeps.benStartWrite {b v src} : Keeps s₀ (benStartWrite b v src s) := by
  unfold Machine.benStartWrite
  refine .ite h.refuse ?_
  exact
    have h₁ := h.acceptGo.ite h
    .ite h₁.acceptGo h₁

theorem Keeps.seqStart {b q} : Keeps s₀ (seqStart b q s) := by
  unfold Machine.seqStart
  dsimp only
  split
  · exact h
  · exact .ite h h.advanceTo.wr.setSeq

theorem Keeps.resetBench {b} : Keeps s₀ (resetBench b s) := by
  obtain ⟨regs, e⟩ := resetBench_regs b s
  refine ⟨fun c => canonical_resetBench b s (h.form c), fun d => ?_, ?_⟩
  · rw [e]; exact h.dev d
  · rw [e]; exact h.pending

theorem Keeps.benResetWrite {b v src} : Keeps s₀ (benResetWrite b v src s) :=
  .ite h (.ite h.refuse (.ite h.bump.resetBench h.bump.setBench))

theorem Keeps.benchSettle {b} : Keeps s₀ (benchSettle b s) := by
  unfold Machine.benchSettle
  extract_lets +onlyGivenNames _ s₁
  have h₁ : Keeps s₀ s₁ := .ite h.resetBench h
  split
  · exact h₁
  · exact h₁.advanceTo.setBench

theorem Keeps.benCtlWrite {b v src} : Keeps s₀ (benCtlWrite b v src s) :=
  .ite h (.ite h.refuse (.ite h.wrF.setSeq h.wrF))
theorem Keeps.imemNext {b} : Keeps s₀ (imemNext b s) := h.wrF
theorem Keeps.imemWrite {b v src} : Keeps s₀ (imemWrite b v src s) := .ite h.refuse h.tbW.imemNext
theorem Keeps.imemRead {b src} : Keeps s₀ (imemRead b src s) := .ite h.refuse.reply h.reply.imemNext
theorem Keeps.clearOnValid {off v} : Keeps s₀ (clearOnValid off v s) := .ite h.wr h
theorem Keeps.excCtlWrite {b v src} : Keeps s₀ (excCtlWrite b v src s) := .ite h.refuse h.wr

theorem Keeps.fdescAccess {b a src} : Keeps s₀ (fdescAccess b a src s) := by
  unfold Machine.fdescAccess
  dsimp only
  split
  · exact h.reply.wrF
  · exact .ite h.refuse h.tbW.wrF

theorem Keeps.floorSysWrite {b v src} : Keeps s₀ (floorSysWrite b v src s) := .ite h.refuse h.wr

theorem Keeps.floorCtlWrite {v src} : Keeps s₀ (floorCtlWrite v src s) := by
  unfold Machine.floorCtlWrite
  refine .ite h ?_
  refine .ite h.refuse ?_
  exact
    have h₁ := h.wrF.ite h
    .ite h₁.wr h₁

theorem Keeps.floorCheckDone : Keeps s₀ (floorCheckDone s) := by
  unfold Machine.floorCheckDone
  refine .ite h ?_
  dsimp only
  split
  · exact h.wr
  · split
    · exact h.wr
    · exact h.wr

end Sys2Proof.Machine
end

section
/-! What a step keeps: contexts. -/
namespace Sys2Proof.Machine

variable {s₀ s : State} (h : Keeps s₀ s)
include h

theorem Keeps.devFollow : Keeps s₀ (devFollow s) := .ite h.setDev (.ite h.setDev h)
theorem Keeps.ctxStart {c} : Keeps s₀ (ctxStart c s) := .ite h.wrF h.wrF.wrF.wrF.devFollow
theorem Keeps.ctxCtlWrite {c v src} : Keeps s₀ (ctxCtlWrite c v src s) :=
  .ite h.refuse (.ite (.ite h.ctxFault h.refuse) (.ite h.refuse (.ite h.wrF.ctxStart h.wrF)))

theorem Keeps.benchTabAccess {a src} : Keeps s₀ (benchTabAccess a src s) := by
  unfold Machine.benchTabAccess
  dsimp only
  split
  · exact .ite h.wrF.reply h.wrF.refuse.reply
  · exact .ite h.wrF.tbW h.wrF.refuse

theorem Keeps.semStore {n v} : Keeps s₀ (semStore n v s) := h.tbW.upd.defer
theorem Keeps.semNext : Keeps s₀ (semNext s) := h.wrF
theorem Keeps.semDataWrite {v src} : Keeps s₀ (semDataWrite v src s) := .ite h.semNext.semStore h.semNext.refuse
theorem Keeps.semDataRead {src} : Keeps s₀ (semDataRead src s) := h.semNext.reply

theorem Keeps.holdExpire {c} : Keeps s₀ (holdExpire c s) := by
  unfold Machine.holdExpire
  dsimp only
  split
  · exact .ite h h.advanceTo.log.ctxFault
  · exact h

theorem Keeps.seqIdle {b q} : Keeps s₀ (seqIdle b q s) := .ite h.setSeq h.setSeq.discardSwaps
theorem Keeps.ctxSeqsStop {c} : Keeps s₀ (ctxSeqsStop c s) := .foldl h fun _ _ k => k.seqIdle
theorem Keeps.ctxLocks {c} : Keeps s₀ (ctxLocks c s) := .foldl h fun _ _ k => k.lockRelease
theorem Keeps.endDeferrals {c} : Keeps s₀ (endDeferrals c s) := h.upd

theorem Keeps.ctxStep7 {c} : Keeps s₀ (ctxStep7 c s) := by
  unfold Machine.ctxStep7
  refine .ite ?_ h
  refine .wrF (.upd (.slotsTorn ?_))
  split
  · exact h.advanceTo
  · exact h

theorem Keeps.ctxResetWrite {c v src} : Keeps s₀ (ctxResetWrite c v src s) :=
  .ite h.refuse (.ite h (.ite h.refuse h.bump.wrF.upd))
theorem Keeps.ctxResetSeq {b q} : Keeps s₀ (ctxResetSeq b q s) := h.setSeq.wr.setBench

theorem Keeps.ctxResetDone {c} : Keeps s₀ (ctxResetDone c s) :=
  .ite h (.wr (.upd (.foldl (.foldl (.foldl (.foldl h fun _ _ k => k.ctxResetSeq) fun _ _ k => k.wr.wr)
    fun _ _ k => k.wr) fun _ _ k => k.tbW.upd)))

end Sys2Proof.Machine
end

section
/-! What a step keeps: routes, packets and their checks. -/
namespace Sys2Proof.Machine

variable {s₀ s : State} (h : Keeps s₀ s)
include h

theorem Keeps.setPort {n p} : Keeps s₀ (setPort n p s) := h.upd

theorem Keeps.refreshRank : Keeps s₀ (refreshRank s) := by
  unfold Machine.refreshRank
  split
  · exact h.wr
  · exact h.wr

theorem Keeps.pushPacket {n p} : Keeps s₀ (pushPacket n p s) := .ite h.setPort h.setPort

theorem Keeps.netSend {p dst dstRank} : Keeps s₀ (netSend p dst dstRank s).2 := by
  unfold Machine.netSend
  split
  · exact h.pushPacket
  · exact h.bump

theorem Keeps.sendCtl {dst type ws} : Keeps s₀ (sendCtl dst type ws s) := h.netSend
theorem Keeps.sendCtlRank {r type ws} : Keeps s₀ (sendCtlRank r type ws s) := .ite h.sendCtl h
theorem Keeps.takePacket {n a} : Keeps s₀ (takePacket n a s) := h.setPort
theorem Keeps.markT0 : Keeps s₀ (markT0 s) := h.upd

theorem Keeps.markStamp {p} : Keeps s₀ (markStamp p s).2 := by
  unfold Machine.markStamp
  split
  · exact h
  · split
    · extract_lets +onlyGivenNames s₁
      have h₁ : Keeps s₀ s₁ := .ite h.markT0 h
      split
      · exact h₁
      · exact h₁
    · split
      · exact h.upd.defer
      · exact h

end Sys2Proof.Machine
end

section
/-! What a step keeps: the links of ports. -/
namespace Sys2Proof.Machine

variable {s₀ s : State} (h : Keeps s₀ s)
include h

theorem Keeps.psW {n f x} : Keeps s₀ (psW n f x s) := h.wrF
theorem Keeps.portLog {code n} : Keeps s₀ (portLog code n s) := h.log
theorem Keeps.portEnter {n st} : Keeps s₀ (portEnter n st s) := .ite h.psW.setPort.defer h.psW.setPort
theorem Keeps.lanesSet {n lock bad} : Keeps s₀ (lanesSet n lock bad s) := .foldl h.psW fun _ _ k => k.wrF.wrF

theorem Keeps.portLeave {n st cause} : Keeps s₀ (portLeave n st cause s) := by
  unfold Machine.portLeave
  extract_lets +onlyGivenNames _ _ _ s₁ _ s₂
  have h₁ : Keeps s₀ s₁ := h.setPort.psW.psW.lanesSet
  have h₂ : Keeps s₀ s₂ := by
    unfold s₂
    split
    · exact h₁.bump.psW.portLog
    · exact h₁.bump
  exact .ite h₂ h₂.defer

theorem Keeps.portDown {n cause} : Keeps s₀ (portDown n cause s) := h.portLeave
theorem Keeps.portDisable {n} : Keeps s₀ (portDisable n s) := .ite h h.portLeave
theorem Keeps.portDetect {n} : Keeps s₀ (portDetect n s) := h.portEnter.setPort
theorem Keeps.portWake {n} : Keeps s₀ (portWake n s) := .ite h.portDetect h
theorem Keeps.portsFollow : Keeps s₀ (portsFollow s) := .foldl h fun _ _ k => .ite k.portWake k.portDisable
theorem Keeps.attemptFailed {n} : Keeps s₀ (attemptFailed n s) :=
  .ite h.setPort.portDown h.setPort.psW.lanesSet.portEnter
theorem Keeps.portRetrain {n fallback} : Keeps s₀ (portRetrain n fallback s) := h.portEnter.setPort
theorem Keeps.degrade {n w} : Keeps s₀ (degrade n w s) := h.psW.bump.portLog

theorem Keeps.laneBad {n l} : Keeps s₀ (laneBad n l s) := by
  unfold Machine.laneBad
  refine .ite h ?_
  exact
    have h₁ := h.psW.wrF
    .ite h₁.portDown h₁.degrade.portRetrain

theorem Keeps.portCtlWrite {n v} : Keeps s₀ (portCtlWrite n v s) :=
  have h₁ := h.wr.portDisable.ite h.wr
  .ite h₁.portWake.lanesSet.psW.portRetrain h₁.portWake

theorem Keeps.linkCfgWrite {n v src} : Keeps s₀ (linkCfgWrite n v src s) := .ite h.wr h.refuse
theorem Keeps.signalDetect {n} : Keeps s₀ (signalDetect n s) := .ite h.portEnter h
theorem Keeps.lanesMeasured {n invert eyes} : Keeps s₀ (lanesMeasured n invert eyes s) :=
  .foldl h fun _ _ k => k.wrF.wrF
theorem Keeps.eqDone {n invert eyes} : Keeps s₀ (eqDone n invert eyes s) :=
  .ite h.psW.lanesSet.lanesMeasured.portEnter h
theorem Keeps.eqTimeout {n clean0 clean1 invert eyes} : Keeps s₀ (eqTimeout n clean0 clean1 invert eyes s) :=
  .ite h (.ite h.advanceTo.lanesSet.lanesMeasured.degrade.portEnter h.advanceTo.attemptFailed)
theorem Keeps.identExchange {n w pools} : Keeps s₀ (identExchange n w pools s) :=
  .ite h (.ite h.wr.portDown (.ite h.wr.portDown h.wr.setPort.portEnter))
theorem Keeps.stageTimeout {n st} : Keeps s₀ (stageTimeout n st s) := .ite h.advanceTo.attemptFailed h
theorem Keeps.delaySet {n delay} : Keeps s₀ (delaySet n delay s) := h.wr
theorem Keeps.alignLock {n delay} : Keeps s₀ (alignLock n delay s) := .ite h.setPort.portEnter.delaySet h
theorem Keeps.retrainPattern {n} : Keeps s₀ (retrainPattern n s) := .ite h.portRetrain h
theorem Keeps.retrainLock {n delay} : Keeps s₀ (retrainLock n delay s) := .ite h.portEnter.delaySet.bump.setPort h
theorem Keeps.retrainTimeout {n} : Keeps s₀ (retrainTimeout n s) :=
  .ite h (.ite h.advanceTo.portDown h.advanceTo.psW.setPort)
theorem Keeps.downRetry {n} : Keeps s₀ (downRetry n s) := .ite h.advanceTo.portDetect h
theorem Keeps.laneLost {n l} : Keeps s₀ (laneLost n l s) := .ite h.wrF.laneBad h

theorem Keeps.stampNext {n} : Keeps s₀ (stampNext n s) := by
  unfold Machine.stampNext
  refine .ite h ?_
  split
  · exact .ite h.markStamp h.markStamp.setPort
  · exact h

theorem Keeps.nextFlit {n} : Keeps s₀ (nextFlit n s).2 := by
  unfold Machine.nextFlit
  extract_lets +onlyGivenNames _ _ _ _ _ _ _ _ _ s₁ s₂
  have h₁ : Keeps s₀ s₁ := .ite h.stampNext.bumpBy h.stampNext
  have h₂ : Keeps s₀ s₂ := .ite h₁.bumpBy h₁
  split
  · exact h₂.setPort.bump
  · split
    · exact h₂.setPort.bump
    · dsimp only
      split
      · exact h₂.setPort
      · split
        · exact h₂.setPort.bump
        · exact h₂.setPort

theorem Keeps.blockSend {n} : Keeps s₀ (blockSend n s) := .ite h h.nextFlit.nextFlit.nextFlit.setPort.emit

theorem Keeps.replayStart {n} : Keeps s₀ (replayStart n s) := by
  unfold Machine.replayStart
  dsimp only
  split
  · exact h
  · exact .ite h.setPort.portRetrain h.setPort

theorem Keeps.ackTake {n a} : Keeps s₀ (ackTake n a s) := by
  unfold Machine.ackTake
  dsimp only
  split
  · exact h
  · exact .ite h h.setPort

theorem Keeps.nakTake {n a} : Keeps s₀ (nakTake n a s) := .ite h.bump h.bump.replayStart
theorem Keeps.replayTimer {n} : Keeps s₀ (replayTimer n s) := .ite h.advanceTo.replayStart h

theorem Keeps.gap {n seq} : Keeps s₀ (gap n seq s) := by
  unfold Machine.gap
  dsimp only
  split
  · exact h.setPort
  · exact h.setPort

theorem Keeps.nakWaitExpire {n} : Keeps s₀ (nakWaitExpire n s) := by
  unfold Machine.nakWaitExpire
  split
  · exact h.advanceTo.setPort
  · exact h

theorem Keeps.packetWhole {n a} : Keeps s₀ (packetWhole n a s) := by
  unfold Machine.packetWhole
  refine .ite h.setPort ?_
  dsimp only
  split
  · exact h.setPort.takePacket.bump
  · exact .ite h.setPort.takePacket.bump h.setPort.takePacket

theorem Keeps.flitAccept {n replay f} : Keeps s₀ (flitAccept n replay f s) := by
  unfold Machine.flitAccept
  refine .ite h.portDown ?_
  refine .ite h.portDown ?_
  exact
    have h₁ := h.setPort.bump
    .ite h₁.packetWhole h₁

theorem Keeps.flitReceive {n bs} : Keeps s₀ (flitReceive n bs s) :=
  .ite h (.ite h.bump.gap (.ite h.portDown (.ite h.setPort.ackTake.nakTake (.ite (.ite h.setPort.ackTake.flitAccept
    (.ite h.setPort.ackTake h.setPort.ackTake.gap)) h.setPort.ackTake))))

theorem Keeps.symbolFixed {n b} : Keeps s₀ (symbolFixed n b s) := h.bump.bump.setPort
theorem Keeps.laneScan {n} : Keeps s₀ (laneScan n s) := .foldl h.setPort fun _ _ k => k.laneBad

theorem Keeps.blockReceive {n bytes} : Keeps s₀ (blockReceive n bytes s) := by
  unfold Machine.blockReceive
  refine .ite h ?_
  dsimp only
  split
  · exact
      have h₁ := h.setPort.bump.gap
      .ite h₁.setPort.portRetrain h₁.setPort
  · exact .laneScan (.foldl (.foldl h.setPort.setPort fun _ _ k => k.symbolFixed) fun _ _ k => k.flitReceive)

end Sys2Proof.Machine
end

section
/-! What a step keeps: the sending side of the transport. -/
namespace Sys2Proof.Machine

variable {s₀ s : State} (h : Keeps s₀ s)
include h

theorem Keeps.setX {f} : Keeps s₀ (setX f s) := h.upd
theorem Keeps.setTx {p} : Keeps s₀ (setTx p s) := .ite h.setX h.setX
theorem Keeps.setCut {l} : Keeps s₀ (setCut l s) := h.setX.wr
theorem Keeps.cutAdd {r} : Keeps s₀ (cutAdd r s) := h.setCut.setRurilBytes
theorem Keeps.cutMap {p f} : Keeps s₀ (cutMap p f s) := .foldl h.setCut fun _ _ k => k.setRurilBytes
theorem Keeps.cutRetire {p} : Keeps s₀ (cutRetire p s) := h.setCut

theorem Keeps.cutStall {c on} : Keeps s₀ (cutStall c on s) := by
  unfold Machine.cutStall
  split
  · exact h.setX
  · exact h.setX.bumpBy
  · exact h

theorem Keeps.bookSrc {src} : Keeps s₀ (bookSrc src s) := by
  unfold Machine.bookSrc
  split
  · exact .ite h h.bookPort
  · exact h

theorem Keeps.treeCopy {t c p} : Keeps s₀ (treeCopy t c p s) := .ite h.netSend h.netSend.setTx
theorem Keeps.recordSent {pair x acked} : Keeps s₀ (recordSent pair x acked s) := h.cutAdd
theorem Keeps.replayLost {pair seq ctx} : Keeps s₀ (replayLost pair seq ctx s) := h.log.ctxFault

theorem Keeps.markLost {pair seq} : Keeps s₀ (markLost pair seq s) := by
  unfold Machine.markLost
  split
  · exact .ite h h.cutMap.bump
  · exact h

theorem Keeps.resendOne {pair x ctr} : Keeps s₀ (resendOne pair x ctr s) := by
  unfold Machine.resendOne
  refine .ite h ?_
  split
  · exact h.markLost.replayLost
  · exact h.bookSrc.netSend.bump

theorem Keeps.pumpOne {tree dst ctx} : OptKeeps s₀ (pumpOne tree dst ctx s) := by
  unfold Machine.pumpOne
  dsimp only
  split
  · exact .none
  · refine .ite .none ?_
    refine .ite (.some h.cutStall) ?_
    refine .ite ?_ ?_
    · exact .some (.ite (.defer (.ite (.bump (.foldl h.cutStall.setTx.recordSent fun _ _ k => k.treeCopy)) (.bumpBy
        (.foldl h.cutStall.setTx.recordSent fun _ _ k => k.treeCopy)))) (.ite (.bump (.foldl
        h.cutStall.setTx.recordSent fun _ _ k => k.treeCopy)) (.bumpBy (.foldl h.cutStall.setTx.recordSent
        fun _ _ k => k.treeCopy))))
    · refine .ite .none ?_
      refine .ite ?_ (.some (.ite (.ite h.cutStall.netSend.setTx.bump h.cutStall.netSend.setTx.bump.recordSent)
        h.cutStall.netSend.setTx))
      split
      · refine .some ?_
        exact
          have h₁ := h.cutStall.bookSrc.netSend
          .ite (.ite h₁.setTx.bump h₁.setTx.bump.recordSent) h₁.setTx
      · exact .some h.cutStall.setTx.markLost.replayLost

theorem Keeps.pumpN {tree dst ctx n} : Keeps s₀ (pumpN tree dst ctx n s) := by
  induction n generalizing s with
  | zero => exact h
  | succ n ih =>
    unfold Machine.pumpN
    split
    · exact h
    · next e => exact .ite (ih (h.pumpOne e)) (h.pumpOne e)

theorem Keeps.pump {tree dst ctx} : Keeps s₀ (pump tree dst ctx s) := h.pumpN
theorem Keeps.pumpAll : Keeps s₀ (pumpAll s) := .foldl h fun _ _ k => k.pump
theorem Keeps.msgOpen {tree dst ctx n} : Keeps s₀ (msgOpen tree dst ctx n s).2 := h.setTx

theorem Keeps.chunkReady {tree dst ordered ctx chan i n base w2 tile src owner} :
    Keeps s₀ (chunkReady tree dst ordered ctx chan i n base w2 tile src owner s) :=
  h.setTx.pump

theorem Keeps.msgSend {dst ordered ctx chan w2 tiles owner} :
    Keeps s₀ (msgSend dst ordered ctx chan w2 tiles owner s) :=
  .ite h.msgOpen.chunkReady (.foldl h.msgOpen fun _ _ k => k.chunkReady)

theorem Keeps.sysSend {dst ctx p} : Keeps s₀ (sysSend dst ctx p s) := .ite h (.ite h.netSend h.netSend.setTx)
theorem Keeps.ackReceive {dst ctx a wait} : Keeps s₀ (ackReceive dst ctx a wait s) :=
  .ite (.ite h.setTx h) (.pump (.foldl h.setTx.cutMap fun _ _ k => k.defer))

theorem Keeps.snackReceive {dst ctx seq} : Keeps s₀ (snackReceive dst ctx seq s) := by
  unfold Machine.snackReceive
  dsimp only
  split
  · exact h.resendOne
  · exact h

theorem Keeps.retryCtl {pair} : Keeps s₀ (retryCtl pair s) := by
  refine .foldl h.setTx fun _ _ k => .ite k.treeCopy (.ite ?_ k.sysSend)
  split
  next e => exact .ite (k.netSend.of_snd e) (k.netSend.of_snd e).setTx

theorem Keeps.rtoExpire {tree dst ctx} : Keeps s₀ (rtoExpire tree dst ctx s) := by
  unfold Machine.rtoExpire
  refine .ite h ?_
  refine .ite h.advanceTo.setTx ?_
  extract_lets +onlyGivenNames _ _ _ _ _ s₁ _ _
  have h₁ : Keeps s₀ s₁ := .ite (.foldl h.advanceTo.setTx.retryCtl.setTx fun _ _ k => k.resendOne)
    h.advanceTo.setTx.retryCtl.setTx
  exact .ite h₁.pump (.ite h₁.pump.setTx.setTx.bump.log h₁.pump.setTx)

theorem Keeps.giveBackJob {p} : Keeps s₀ (giveBackJob p s) := by
  unfold Machine.giveBackJob
  refine .ite h ?_
  refine .ite (.foldl h fun _ _ k => k.treeCopy) ?_
  split
  · exact h
  · refine .ite h.sysSend ?_
    dsimp only
    split
    · exact h.resendOne
    · exact h

theorem Keeps.cutBoundary {new} : Keeps s₀ (cutBoundary new s) := h.cutRetire.pumpAll
theorem Keeps.takeoverPair {pair} : Keeps s₀ (takeoverPair pair s) := h.cutMap.setTx.sysSend.pump
theorem Keeps.dropUnsent {p} : Keeps s₀ (dropUnsent p s).2 := .foldl h fun _ _ k => k.setPort

theorem Keeps.sendTeardown {c} : Keeps s₀ (sendTeardown c s) := by
  unfold Machine.sendTeardown
  split
  next e => exact .setX (.cutRetire (.cutStall (.foldl (h.dropUnsent.of_snd e) fun _ _ k => k.setTx.ite k.setTx)))

theorem Keeps.cutWarm : Keeps s₀ (cutWarm s) := h.cutMap.bumpBy

end Sys2Proof.Machine
end

section
/-! What a step keeps: SEND, RECV and the receiving side of the transport. -/
namespace Sys2Proof.Machine

variable {s₀ s : State} (h : Keeps s₀ s)
include h

theorem Keeps.bookSend {j} : Keeps s₀ (bookSend j s) := by
  unfold Machine.bookSend
  split
  next e => exact (h.bookPort.of_snd e).setX

theorem Keeps.sendGone {b q po} : Keeps s₀ (sendGone b q po s) := h.setSide
theorem Keeps.v2Out {phys ctx p} : Keeps s₀ (v2Out phys ctx p s) := .ite h.netSend h.netSend.setTx
theorem Keeps.v2Send {phys ctx tiles} : Keeps s₀ (v2Send phys ctx tiles s) := .foldl h fun _ _ k => k.v2Out

theorem Keeps.sendBegin {b q po pc d t n} : Keeps s₀ (sendBegin b q po pc d t n s) := by
  unfold Machine.sendBegin
  extract_lets +onlyGivenNames k c ordered dst chan
  split
  next e =>
    have h₁ := Keeps.of_snd (.ite_snd h h.msgOpen) e
    exact .ite (.ite h₁.sendGone h₁.chunkReady) h₁.setX.bookSend

theorem Keeps.issueSend {b q w} : OptKeeps s₀ (issueSend b q w s) :=
  .ite (.some h.issueFault) (.ite (.some h.issueFault) (.some h.issued.setSide.sendBegin))
theorem Keeps.dropJob {j} : Keeps s₀ (dropJob j s) := h.setX
theorem Keeps.dropFab {x} : Keeps s₀ (dropFab x s) := h.setX

theorem Keeps.sendChunk {j x} : Keeps s₀ (sendChunk j x s) :=
  have h₁ := h.setSide.dropJob.ite h.setSide.dropJob.chunkReady
  .ite h₁.setX.bookSend (.ite h₁.v2Send.sendGone h₁)

theorem Keeps.sendRead {x b q po e} : Keeps s₀ (sendRead x b q po e s) := by
  unfold Machine.sendRead
  split
  · refine .ite h ?_
    extract_lets +onlyGivenNames s₁
    have k : Keeps s₀ s₁ := h.advanceTo.eccCount
    split <;> rename_i e
    · exact k.useTile.of_snd e
    · exact (k.useTile.of_snd e).dropFab.sendChunk
    · exact (k.useTile.of_snd e).dropFab.dropJob.sendGone.opFault
    · exact (k.useTile.of_snd e).dropFab.dropJob.sendGone.opFault
  · exact h.dropFab

theorem Keeps.stageTake {c n} : Keeps s₀ (stageTake c n s) := h.upd
theorem Keeps.stageFree {c n} : Keeps s₀ (stageFree c n s) := h.upd
theorem Keeps.setMsg {m} : Keeps s₀ (setMsg m s) := .ite h.setX h.setX
theorem Keeps.dropMsg {m} : Keeps s₀ (dropMsg m s) := h.setX.stageFree

theorem Keeps.bookLand {b q tile chunk x charged} : Keeps s₀ (bookLand b q tile chunk x charged s) := by
  unfold Machine.bookLand
  split
  next e => exact (h.bookPort.of_snd e).setX

theorem Keeps.noDesc {src ctx chan} : Keeps s₀ (noDesc src ctx chan s) := .ite h.bump h.bump.setX.log

theorem Keeps.msgChunk {d kind src ctx chan base chunk nchunk step x} :
    Keeps s₀ (msgChunk d kind src ctx chan base chunk nchunk step x s) := by
  unfold Machine.msgChunk
  refine .ite ?_ ?_
  · extract_lets +onlyGivenNames s₁
    have h₁ : Keeps s₀ s₁ := by
      unfold s₁
      split
      · exact .ite h.setRurilTile h
      · exact h
    exact .ite h₁.dropMsg.semHw h₁.setMsg
  · split
    · exact h.setMsg
    · split
      · exact h.setMsg.bookLand
      · exact h.setMsg
    · exact (h.stageTake.ite h).setMsg

theorem Keeps.treeForward {p src} : Keeps s₀ (treeForward p src s) := h.setTx.pump
theorem Keeps.treeLanded {m chunk b tile x} : Keeps s₀ (treeLanded m chunk b tile x s) := h.treeForward
theorem Keeps.issueRecv {b q w} : OptKeeps s₀ (issueRecv b q w s) :=
  .ite (.some h.issueFault) (.ite (.some h.issueFault) (.some h.issued))

theorem Keeps.recvTake {b q} : Keeps s₀ (recvTake b q s) := by
  unfold Machine.recvTake
  split
  · refine .ite h ?_
    split
    · exact h
    · exact .ite h.benchFault (.ite h.benchFault (.foldl h.setSeq.setMsg fun _ _ k => k.bookLand))
  · exact h

theorem Keeps.recvLand {x b q t charged} : Keeps s₀ (recvLand x b q t charged s) := by
  unfold Machine.recvLand
  split
  · refine .ite h ?_
    extract_lets +onlyGivenNames s₁ s₂
    have h₁ : Keeps s₀ s₁ := h.dropFab.advanceTo.landTile
    have h₂ : Keeps s₀ s₂ := by
      unfold s₂
      split
      · exact h₁.stageFree
      · exact h₁
    dsimp only
    split
    · exact h₂.setSeq.treeLanded
    · exact h₂.setSeq
  · split
    · exact h.dropFab.stageFree
    · exact h.dropFab

theorem Keeps.recvDone {b q} : Keeps s₀ (recvDone b q s) := by
  unfold Machine.recvDone
  split
  · refine .ite h ?_
    refine .resume ?_
    split
    · exact h.advanceTo.dropMsg
    · exact h.advanceTo
  · exact h

theorem Keeps.setRx {p} : Keeps s₀ (setRx p s) := .ite h.setX h.setX
theorem Keeps.ackSend {src ctx wait} : Keeps s₀ (ackSend src ctx wait s) := h.setRx.sysSend
theorem Keeps.rxAccept {src ctx q} : Keeps s₀ (rxAccept src ctx q s) := .ite h.setRx.bump.ackSend h.setRx.bump

theorem Keeps.pairReceive {p} : Keeps s₀ (pairReceive p s) := by
  unfold Machine.pairReceive
  refine .ite h.bump.ackSend ?_
  refine .ite h ?_
  dsimp only
  split
  · next e =>
    refine .ackSend (OptKeeps.ite .none (.ite (.ite (.some h.bump.upd) (.ite (.some h.bump) .none))
      (.ite .none ?_)) e)
    split
    · exact .none
    · exact .ite .none (.some h.bump)
  · refine .ite (.ite h.rxAccept.noDesc h.rxAccept) (.ite h.rxAccept.defer (.ite ?_ ?_))
    · split
      · exact h.rxAccept.defer
      · exact .ite h.rxAccept.dropMsg.defer h.rxAccept.setMsg
    · split
      · exact .ite h.rxAccept.noDesc h.rxAccept
      · exact h.rxAccept.msgChunk

theorem Keeps.snackSend {p} : Keeps s₀ (snackSend p s) := h.sysSend
theorem Keeps.ackTimer {src ctx} : Keeps s₀ (ackTimer src ctx s) := .ite h h.advanceTo.ackSend
theorem Keeps.syncReceive {p} : Keeps s₀ (syncReceive p s) := .ite h h.setRx

theorem Keeps.v2Whole {phys bs} : Keeps s₀ (v2Whole phys bs s) := by
  unfold Machine.v2Whole
  split
  · exact h
  · exact .foldl h fun _ _ k => k.msgChunk

theorem Keeps.v2Cell {phys cell} : Keeps s₀ (v2Cell phys cell s) := by
  unfold Machine.v2Cell
  refine .ite (.ite h.noDesc h) ?_
  extract_lets +onlyGivenNames s₁ _
  have h₁ : Keeps s₀ s₁ := .ite h.setX.stageFree h
  refine .ite h₁ ?_
  refine .ite h₁.setX.stageFree ?_
  refine .ite h₁.setX.stageFree.bump ?_
  exact
    have h₂ := h₁.setX.stageTake
    .ite h₂.setX.stageFree.v2Whole h₂

theorem Keeps.v2Receive {p} : Keeps s₀ (v2Receive p s) := .foldl h fun _ _ k => k.v2Cell
theorem Keeps.setTree {x} : Keeps s₀ (setTree x s) := .ite h.setX h.setX
theorem Keeps.resendAsk {x} : Keeps s₀ (resendAsk x s) := h.sendCtlRank

theorem Keeps.treeDeliver {p} : Keeps s₀ (treeDeliver p s) := by
  unfold Machine.treeDeliver
  dsimp only
  split
  · exact (h.noDesc.ite h).treeForward
  · exact .ite h.msgChunk.treeForward (.ite h.msgChunk.treeForward h.msgChunk)

theorem Keeps.treeReceive {p} : Keeps s₀ (treeReceive p s) :=
  .ite h.bump (.ite (.ite h.setTree.resendAsk h) (.ite h.bump h.setTree.bump.treeDeliver))

theorem Keeps.treeResend {t n c ctr} : Keeps s₀ (treeResend t n c ctr s) := by
  unfold Machine.treeResend
  refine .foldl h fun _ _ k => ?_
  dsimp only
  split
  · refine .ite ?_ k.markLost.replayLost
    refine .treeCopy ?_
    split
    · exact k.bump
    · exact k
  · split
    · refine .treeCopy ?_
      split
      · exact k.bookSrc.bump
      · exact k.bookSrc
    · exact k.markLost.replayLost

theorem Keeps.resendReceive {p} : Keeps s₀ (resendReceive p s) := by
  unfold Machine.resendReceive
  dsimp only
  split
  · exact h.treeResend
  · exact h

theorem Keeps.treeReport {t f} : Keeps s₀ (treeReport t f s) := .ite h h.setTree.wr.bump.log

theorem Keeps.reattachReceive {p} : Keeps s₀ (reattachReceive p s) := by
  unfold Machine.reattachReceive
  dsimp only
  split
  · exact h
  · exact .ite h.setTree.treeResend.treeReport (.ite h.setTree.treeResend.sendCtlRank h.setTree.treeResend)

theorem Keeps.treeFailReceive {p} : Keeps s₀ (treeFailReceive p s) := .ite h.treeReport h

theorem Keeps.treeTimeout {t} : Keeps s₀ (treeTimeout t s) := by
  unfold Machine.treeTimeout
  refine .ite h (.ite h.advanceTo.setTree.resendAsk (.ite ?_ (.ite h.advanceTo.setTree.log ?_)))
  all_goals
    dsimp only
    split
    · exact h.advanceTo.setTree.bump.sendCtlRank
    · exact h.advanceTo.setTree.log

theorem Keeps.takeoverRx {r} : Keeps s₀ (takeoverRx r s) := by
  unfold Machine.takeoverRx
  refine .setX ?_
  refine .foldl h fun _ _ k => ?_
  split
  · extract_lets +onlyGivenNames _ s₁ _
    have h₁ : Keeps s₀ s₁ := by
      unfold s₁
      refine .foldl k fun _ _ k => ?_
      split
      · exact k.dropFab.stageFree
      · exact k.dropFab
    refine .dropMsg ?_
    split
    · exact h₁.setSeq
    · exact h₁
  · exact k.dropMsg

theorem Keeps.takeoverTrees {f} : Keeps s₀ (takeoverTrees f s) :=
  .foldl (.foldl h fun _ _ k => k.setTree) fun _ _ k => .ite k.treeResend k

theorem Keeps.takeover {r} : Keeps s₀ (takeover r s) := by
  unfold Machine.takeover
  exact .takeoverTrees (.foldl h.bump.takeoverRx fun _ _ k => k.takeoverPair)

theorem Keeps.fabricTeardown {c} : Keeps s₀ (fabricTeardown c s) :=
  .upd (.foldl h.sendTeardown.setX fun _ _ k => .foldl k fun _ _ k => .ite k.setSide k)
theorem Keeps.xportClear : Keeps s₀ (xportClear s) := h.upd.setCut
theorem Keeps.sendAcked {b q po} : Keeps s₀ (sendAcked b q po s) := h.sendGone

end Sys2Proof.Machine
end

section
/-! What a step keeps: collectives. -/
namespace Sys2Proof.Machine

variable {s₀ s : State} (h : Keeps s₀ s)
include h

theorem Keeps.setC {f} : Keeps s₀ (setC f s) := h.upd
theorem Keeps.setInst {i} : Keeps s₀ (setInst i s) := h.setC

theorem Keeps.freeInst {i} : Keeps s₀ (freeInst i s) := by
  unfold Machine.freeInst
  exact h.stageFree.setX.setC.setC

theorem Keeps.sendAborts {g gseq} : Keeps s₀ (sendAborts g gseq s) := .foldl h fun _ _ k => k.bump.sendCtlRank

theorem Keeps.colFail {g gseq ctx started dov cause d1 aborts} :
    Keeps s₀ (colFail g gseq ctx started dov cause d1 aborts s) := by
  unfold Machine.colFail
  extract_lets +onlyGivenNames _ s₁ s₂ s₃
  have h₁ : Keeps s₀ s₁ := .ite h.bump.log h.bump.log
  have h₂ : Keeps s₀ s₂ := by
    unfold s₂
    split
    · exact h₁.freeInst
    · exact h₁
  have h₃ : Keeps s₀ s₃ := .ite h₂.sendAborts h₂
  exact .ite h₃.defer (.ite h₃.ctxFault h₃)

theorem Keeps.instFail {i cause d1 aborts} : Keeps s₀ (instFail i cause d1 aborts s) := h.colFail
theorem Keeps.rurilUse {t} : Keeps s₀ (rurilUse t s).2 := h.rurilRead

theorem Keeps.readRuril {w n i acc} : Keeps s₀ (readRuril w n i acc s).2.2 := by
  induction n generalizing s i acc with
  | zero => exact h
  | succ n ih =>
    unfold Machine.readRuril
    split
    · exact h
    · split <;> rename_i e
      · exact ih (h.rurilUse.of_snd e)
      · exact h.rurilUse.of_snd e

theorem Keeps.bookColRead {i k} : Keeps s₀ (bookColRead i k s) := by
  unfold Machine.bookColRead
  split
  · exact h.bookPort.setX
  · exact h

theorem Keeps.instStart {i} : Keeps s₀ (instStart i s) := by
  unfold Machine.instStart
  extract_lets +onlyGivenNames s₁
  have h₁ : Keeps s₀ s₁ := h.stageFree
  refine .ite h₁.setInst (.ite ?_ h₁.setInst.bookColRead)
  split
  · next e => exact (h₁.readRuril.of_thd e).setInst
  · next e => exact (h₁.readRuril.of_thd e).setInst.instFail

theorem Keeps.grantSlot {w} : Keeps s₀ (grantSlot w s) := by
  unfold Machine.grantSlot
  split
  · exact h.instStart
  · exact h.setC.instStart

theorem Keeps.colStartWith {ws desc dov src program} : Keeps s₀ (colStartWith ws desc dov src program s) :=
  .ite h.tbWF.bump.colFail (.ite h.tbWF.bump.colFail (.ite h.tbWF.bump.grantSlot h.tbWF.bump.setC))
theorem Keeps.colStartDesc {d program} : Keeps s₀ (colStartDesc d program s) := .ite h h.colStartWith
theorem Keeps.colStartDov {code g ctx tiles} : Keeps s₀ (colStartDov code g ctx tiles s) := h.colStartWith

theorem Keeps.colTriggers : Keeps s₀ (colTriggers s) := by
  unfold Machine.colTriggers
  refine .ite h ?_
  extract_lets +onlyGivenNames s₁
  have h₁ : Keeps s₀ s₁ := .foldl h fun _ _ k => .ite k.tbWF.colStartDesc k
  exact .ite h₁ h₁.advanceTo.defer

theorem Keeps.colArrive {src ctx g gseq chunk p} : Keeps s₀ (colArrive src ctx g gseq chunk p s) := by
  unfold Machine.colArrive
  refine .ite (.ite h.bump h.bump.setX.log) ?_
  split
  · exact .ite h.bump h
  · extract_lets +onlyGivenNames s₁
    have h₁ : Keeps s₀ s₁ := by
      unfold s₁
      split
      · exact h
      · exact h.setC.bump
    split
    · exact h₁
    · exact .ite (.ite h₁.bump h₁) (h₁.stageTake.ite h₁).setInst

theorem Keeps.keepWork {i k ts} : Keeps s₀ (keepWork i k ts s) := .ite h (.foldl h fun _ _ k => k.setRurilTile)
theorem Keeps.colSend {i dst tiles} : Keeps s₀ (colSend i dst tiles s) := h.setInst.msgSend

theorem Keeps.colWriteTile {i k x} : Keeps s₀ (colWriteTile i k x s) := by
  unfold Machine.colWriteTile
  split
  · exact h.bookPort.setX
  · exact h.setRurilTile

theorem Keeps.colWriteAll {i l} : Keeps s₀ (colWriteAll i l s) := .foldl h.setInst fun _ _ k => k.colWriteTile
theorem Keeps.stepUp {i r} : OptKeeps s₀ (stepUp i r s) :=
  .ite .none (.ite (.ite .none (.some h.keepWork.setInst)) (.ite .none (.ite .none (.some h.keepWork.setInst))))

theorem Keeps.stepSendUp {i r} : OptKeeps s₀ (stepSendUp i r s) := by
  unfold Machine.stepSendUp
  split
  · exact .none
  · exact .ite .none (.some h.colSend)

theorem Keeps.stepResult {i r} : OptKeeps s₀ (stepResult i r s) := by
  unfold Machine.stepResult
  refine .ite .none ?_
  refine .ite (.ite .none (.ite (.some h.setInst) (.some (h.ite h.bumpBy).keepWork.setInst))) ?_
  split
  · exact .none
  · exact .ite .none (.some (h.keepWork.ite h).setInst)

theorem Keeps.stepDown {i r} : OptKeeps s₀ (stepDown i r s) := by
  unfold Machine.stepDown
  split
  · exact .none
  · dsimp only
    split
    · exact .none
    · exact .some h.colSend

theorem Keeps.stepWrite {i r} : OptKeeps s₀ (stepWrite i r s) := by
  unfold Machine.stepWrite
  refine .ite .none ?_
  refine .ite (.ite .none (.some h.setInst)) ?_
  refine .ite (.ite .none (.some h.colWriteAll)) ?_
  split
  · exact .none
  · exact .some h.colWriteAll

theorem Keeps.stepBroadcast {i r} : OptKeeps s₀ (stepBroadcast i r s) := by
  unfold Machine.stepBroadcast
  refine .ite (.some h.colSend) ?_
  refine .ite .none ?_
  refine .ite (.ite (.some h.setInst) .none) ?_
  split
  · exact .ite (.some h.setInst) .none
  · exact .none

theorem Keeps.stepSpread {i r} : OptKeeps s₀ (stepSpread i r s) := by
  unfold Machine.stepSpread
  refine .ite .none ?_
  split
  · exact .none
  · exact .some h.colSend

theorem Keeps.colFinish {i} : Keeps s₀ (colFinish i s) :=
  .ite h.bump.freeInst.defer (.freeInst (.bump (.foldl (.ite h h.semHw) fun _ _ k => .ite k.bump k)))

theorem Keeps.instStep {i} : OptKeeps s₀ (instStep i s) := by
  unfold Machine.instStep
  refine .ite .none ?_
  dsimp only
  split
  · exact .some h.instFail
  · split
    · next e =>
      refine OptKeeps.some (OptKeeps.ite ?_ (.ite ?_ ?_) e)
      · exact h.stepSpread.or h.stepWrite
      · exact (h.stepBroadcast.or h.stepDown).or h.stepWrite
      · exact (((h.stepUp.or h.stepSendUp).or h.stepResult).or h.stepDown).or h.stepWrite
    · exact .ite (.some h.colFinish) .none

theorem Keeps.instRun {g gseq n} : Keeps s₀ (instRun g gseq n s) := by
  induction n generalizing s with
  | zero => exact h
  | succ n ih =>
    unfold Machine.instRun
    split
    · exact h
    · split
      · exact h
      · next e => exact ih (h.instStep e)

theorem Keeps.colAdvance {g gseq} : Keeps s₀ (colAdvance g gseq s) := h.instRun

theorem Keeps.colRead {x g gseq k e} : Keeps s₀ (colRead x g gseq k e s) := by
  unfold Machine.colRead
  split
  · exact h.dropFab
  · refine .ite h ?_
    extract_lets +onlyGivenNames s₁
    have h₁ : Keeps s₀ s₁ := h.advanceTo.eccCount
    split <;> rename_i e
    · exact h₁.useTileAs.of_snd e
    · exact .ite (h₁.useTileAs.of_snd e).dropFab.setInst.bookColRead
        (h₁.useTileAs.of_snd e).dropFab.setInst.colAdvance
    · exact (h₁.useTileAs.of_snd e).dropFab.instFail

theorem Keeps.colWrite {x g gseq t} : Keeps s₀ (colWrite x g gseq t s) := by
  unfold Machine.colWrite
  split
  · exact h.dropFab
  · exact h.advanceTo.dropFab.landTile.setInst.colAdvance

theorem Keeps.colAcked {g gseq} : Keeps s₀ (colAcked g gseq s) := by
  unfold Machine.colAcked
  split
  · exact h.setInst.colAdvance
  · exact h

theorem Keeps.slotGranted {c} : Keeps s₀ (slotGranted c s) := by
  unfold Machine.slotGranted
  split
  · exact .ite h.setC.grantSlot.colAdvance h
  · exact h

theorem Keeps.slotWaitTimeout {c} : Keeps s₀ (slotWaitTimeout c s) := by
  unfold Machine.slotWaitTimeout
  dsimp only
  split
  · exact h
  · exact .ite h (.foldl h.advanceTo.bump.log fun _ _ k => k.instFail)

theorem Keeps.openLimit {g gseq} : Keeps s₀ (openLimit g gseq s) := by
  unfold Machine.openLimit
  dsimp only
  split
  · exact .ite h h.advanceTo.instFail
  · exact h

theorem Keeps.abortReceive {p} : Keeps s₀ (abortReceive p s) := by
  unfold Machine.abortReceive
  refine .ite h ?_
  split
  · exact h.instFail
  · exact .ite h (.ite h h.tbW.setC)

theorem Keeps.colTeardown {c} : Keeps s₀ (colTeardown c s) := .foldl h.setC fun _ _ k => k.instFail
theorem Keeps.colClear : Keeps s₀ (colClear s) := h.upd.tabClear
theorem Keeps.colRunAgain : Keeps s₀ (colRunAgain s) := .ite h (.foldl h.setC fun _ _ k => k.sendAborts)

end Sys2Proof.Machine
end

section
/-! What a step keeps: dispatch and combine of the Dovetail. -/
namespace Sys2Proof.Machine

variable {s₀ s : State} (h : Keeps s₀ s)
include h

theorem Keeps.setDv {f} : Keeps s₀ (setDv f s) := h.upd
theorem Keeps.setDovX {x} : Keeps s₀ (setDovX x s) := h.setDv
theorem Keeps.dovFault {code kind index c ds} : Keeps s₀ (dovFault code kind index c ds s) := h.log.ctxFault
theorem Keeps.dovBook {d n c b t use} : Keeps s₀ (dovBook d n c b t use s) :=
  .ite h (.ite h.dovFault h.bookPort.setDv)
theorem Keeps.dovSend {d c dst kind ps} : Keeps s₀ (dovSend d c dst kind ps s) := h.setDv.msgSend

theorem Keeps.sendParts {x kind round torn copies} : Keeps s₀ (sendParts x kind round torn copies s) := by
  unfold Machine.sendParts
  refine .foldl (.foldl (.ite h.bumpBy.defer h.bumpBy) fun _ _ k => k.dovSend) fun _ _ k => ?_
  split
  · exact k.dovSend
  · exact k

theorem Keeps.dispatchSend {x} : Keeps s₀ (dispatchSend x s) := h.bumpBy.setDovX.sendParts
theorem Keeps.dispatchBegin {x} : Keeps s₀ (dispatchBegin x s) :=
  .ite h.setDovX.dispatchSend (.foldl h.setDovX fun _ _ k => k.dovBook)

theorem Keeps.outWrite {x k} : Keeps s₀ (outWrite x k s) := by
  unfold Machine.outWrite
  extract_lets +onlyGivenNames _ _ _ _ _ _ _ _ _ s₁ _ _
  have h₁ : Keeps s₀ s₁ := .ite (.foldl h.bumpBy fun _ _ k => k.tcc) h.bumpBy
  exact .ite h₁.setDovX (.foldl h₁.setDovX fun _ _ k => k.dovBook)

theorem Keeps.outDone {d n} : Keeps s₀ (outDone d n s) := by
  unfold Machine.outDone
  split
  · exact .ite h.setDovX.bumpBy.semHw h
  · exact h

theorem Keeps.outAll {x} : Keeps s₀ (outAll x s) := by
  unfold Machine.outAll
  refine .outDone ?_
  refine .foldl h fun _ _ k => ?_
  split
  · exact k.outWrite
  · exact k

theorem Keeps.outSome {x} : Keeps s₀ (outSome x s) := by
  unfold Machine.outSome
  refine .ite h ?_
  refine .foldl h fun _ _ k => ?_
  split
  · exact k.outWrite
  · exact k

theorem Keeps.resultClose {x} : Keeps s₀ (resultClose x s) :=
  .ite h.setDovX (.ite h.setDovX.dovFault h.setDovX.outAll)

theorem Keeps.resultPart {x p} : Keeps s₀ (resultPart x p s) := by
  unfold Machine.resultPart
  refine .ite h ?_
  dsimp only
  split
  · exact h.setDovX.dovFault
  · split
    · exact (h.setDovX.outSome.ite h.setDovX).resultClose
    · exact .ite h.setDovX.outSome h.setDovX

theorem Keeps.placeCopy {c spill late x} : Keeps s₀ (placeCopy c spill late x s).2 := by
  unfold Machine.placeCopy
  extract_lets +onlyGivenNames s₁
  have h₁ : Keeps s₀ s₁ := .ite h.tcc h
  split
  · split
    · exact h₁.bump
    · exact h₁
  · split
    · exact h₁.bump
    · split
      · exact h₁.bump
      · extract_lets +onlyGivenNames s₂ _
        have h₂ : Keeps s₀ s₂ := .ite h₁.bump h₁
        split
        · dsimp only
          split
          · exact h₂.bump
          · exact h₂.bump.log
        · exact h₂

theorem Keeps.placeCopies {spill late cs x} : Keeps s₀ (placeCopies spill late cs x s).2 := by
  induction cs generalizing s x with
  | nil => exact h
  | cons c cs ih => exact ih h.placeCopy

theorem Keeps.entMiss {x e path} : Keeps s₀ (entMiss x e path s) := .ite h h.setDovX.bumpBy.bumpBy

theorem Keeps.dovMiss {o path} : Keeps s₀ (dovMiss o path s) := by
  unfold Machine.dovMiss
  refine .foldl h fun _ _ k => ?_
  refine .foldl k fun _ _ k => ?_
  split
  · exact k
  · split
    · exact .ite k.entMiss k
    · exact k

theorem Keeps.entPromote {x l} : Keeps s₀ (entPromote x l s) := by
  unfold Machine.entPromote
  split
  · exact h
  · refine .ite h ?_
    dsimp only
    split
    · exact h.setDovX.tierPromoteDov
    · exact h.setDovX.refuseReq.countMiss.entMiss

theorem Keeps.promoteAll {d n} : Keeps s₀ (promoteAll d n s) := by
  unfold Machine.promoteAll
  split
  · exact h
  · refine .foldl h fun _ _ k => ?_
    split
    · exact k.entPromote
    · exact k

theorem Keeps.closeRound0 {x} : Keeps s₀ (closeRound0 x s) := h.placeCopies.placeCopies.setDovX.promoteAll.defer
theorem Keeps.closeRound1 {x} : Keeps s₀ (closeRound1 x s) := h.placeCopies.setDovX.promoteAll.defer
theorem Keeps.inboxWrite {x e} : Keeps s₀ (inboxWrite x e s) := .foldl h.setDovX fun _ _ k => k.dovBook
theorem Keeps.resultSend {x} : Keeps s₀ (resultSend x s) := .ite h h.setDovX.sendParts

theorem Keeps.roundsDone {x} : Keeps s₀ (roundsDone x s) := by
  unfold Machine.roundsDone
  extract_lets +onlyGivenNames _ _ s₁
  have h₁ : Keeps s₀ s₁ := by
    unfold s₁
    refine .foldl (.foldl h.setDovX fun _ _ k => k.tbWF) fun _ _ k => ?_
    refine .ite k ?_
    split
    · exact k.inboxWrite
    · exact k
  split
  · exact h₁.resultSend
  · exact h₁

theorem Keeps.roundCheck {d n} : Keeps s₀ (roundCheck d n s) := by
  unfold Machine.roundCheck
  split
  · exact h
  · exact .ite (.ite h.closeRound0 h) (.ite h.closeRound1 h)

theorem Keeps.dovRound {d stage} : Keeps s₀ (dovRound d stage s) := by
  unfold Machine.dovRound
  split
  · exact h
  · exact .ite h (.ite (.ite h h.setDovX.sendParts.roundCheck) h.roundsDone)

theorem Keeps.partArrive {d p} : Keeps s₀ (partArrive d p s) := by
  unfold Machine.partArrive
  refine .ite h ?_
  refine .ite h.bump ?_
  extract_lets +onlyGivenNames s₁
  have h₁ : Keeps s₀ s₁ := .ite h.setDv.log h
  split
  · exact h₁
  · exact .ite (.ite h₁ h₁.bumpBy.setDovX.roundCheck) h₁.resultPart

theorem Keeps.dovMessage {src ctx tiles} : Keeps s₀ (dovMessage src ctx tiles s) := by
  unfold Machine.dovMessage
  refine .ite h ?_
  split
  · exact h
  · exact .foldl h fun _ _ k => .ite k.partArrive k.dovSend.bump

theorem Keeps.inboxRecv {b q} : Keeps s₀ (inboxRecv b q s) := by
  unfold Machine.inboxRecv
  split
  · refine .ite h ?_
    split
    · exact h
    · exact .ite h (.ite h.benchFault h.advanceTo.resume)
  · exact h

theorem Keeps.outboxRead {l} : Keeps s₀ (outboxRead l s) := by
  unfold Machine.outboxRead
  split
  · exact h
  · exact .ite h (.foldl h.tbWF.setDovX fun _ _ k => k.dovBook)

theorem Keeps.dovUse {b t fmt e} : Keeps s₀ (dovUse b t fmt e s).2 := by
  unfold Machine.dovUse
  split
  · exact h
  · extract_lets +onlyGivenNames s₁
    have h₁ : Keeps s₀ s₁ := h.eccCount.eccBad
    split
    · exact h₁.nextFresh.countFail.setOutcome
    · exact h₁

theorem Keeps.dovLand {b t fmt flags payload} : Keeps s₀ (dovLand b t fmt flags payload s) := h.landTile

theorem Keeps.dovTransfer {i e} : Keeps s₀ (dovTransfer i e s) := by
  unfold Machine.dovTransfer
  split
  · exact h
  · extract_lets +onlyGivenNames s₁
    have k : Keeps s₀ s₁ := h.advanceTo.setDv
    split
    · exact k
    · split
      · split
        next e =>
          have k := k.dovUse.of_snd e
          exact .ite k.dovFault (.ite k.setDovX.dispatchSend k.setDovX)
      · dsimp only
        split
        · exact k.dovLand.setDovX
        · exact k.dovLand
      · split
        next e =>
          have k := k.dovUse.of_snd e
          refine .ite k.dovFault ?_
          split
          · exact k
          · exact .ite k.setDovX k.setDovX.resultSend
      · exact k.dovLand.outDone

end Sys2Proof.Machine
end

section
/-! What a step keeps: score intake, selection and placement of the Dovetail. -/
namespace Sys2Proof.Machine

variable {s₀ s : State} (h : Keeps s₀ s)
include h

theorem Keeps.dovCtlWrite {v src} : Keeps s₀ (dovCtlWrite v src s) := .ite (.ite h.wr (.ite h.wr.wrF h.refuse)) h.wr

theorem Keeps.dovAccess {addr data n key mask ok a src} : Keeps s₀ (dovAccess addr data n key mask ok a src s) := by
  unfold Machine.dovAccess
  dsimp only
  split
  · exact h.reply.wr
  · exact .ite h.refuse.wr (h.tbW.ite h.refuse).wr

theorem Keeps.layerAccess {a src} : Keeps s₀ (layerAccess a src s) := h.dovAccess
theorem Keeps.selAccess {a src} : Keeps s₀ (selAccess a src s) := h.dovAccess
theorem Keeps.dispAccess {a src} : Keeps s₀ (dispAccess a src s) := h.dovAccess
theorem Keeps.mapAccess {a src} : Keeps s₀ (mapAccess a src s) := h.dovAccess
theorem Keeps.locAccess {a src} : Keeps s₀ (locAccess a src s) := h.dovAccess
theorem Keeps.dovRegWrite {off mask v src} : Keeps s₀ (dovRegWrite off mask v src s) := .ite h.refuse h.wr
theorem Keeps.tokensWrite {c v src} : Keeps s₀ (tokensWrite c v src s) := .ite h.refuse h.wr
theorem Keeps.setDesc {x} : Keeps s₀ (setDesc x s) := h.setDv

theorem Keeps.dovNewStep : Keeps s₀ (dovNewStep s) := by
  unfold Machine.dovNewStep
  exact h.setDv

theorem Keeps.descDone {d} : Keeps s₀ (descDone d s) := by
  unfold Machine.descDone
  split
  · exact h
  · dsimp only
    split
    · exact .ite h.setDesc h.setDesc.dispatchBegin
    · exact h.setDesc

theorem Keeps.descStart {d} : Keeps s₀ (descStart d s) := by
  unfold Machine.descStart
  split
  · exact h
  · split
    · exact .ite h (.ite h.advanceTo.setDesc.bumpBy.setDesc.descDone (.ite h.advanceTo.setDesc.descDone
        h.advanceTo.setDesc))
    · exact h

theorem Keeps.tileArrive {p remote x} : Keeps s₀ (tileArrive p remote x s) := by
  unfold Machine.tileArrive
  dsimp only
  split
  · split
    · exact .ite h.bump h.bump.setDv.log
    · exact h.bump
  · exact .ite h.dovFault (.ite h.dovFault h.bump.setDesc)

theorem Keeps.scoreArrive {b q e} : Keeps s₀ (scoreArrive b q e s) := by
  unfold Machine.scoreArrive
  split
  · exact h
  · extract_lets +onlyGivenNames d last s₁ t s₂ x
    have k : Keeps s₀ s₂ := h.advanceTo.eccCount.eccBad
    dsimp only
    refine .tileArrive (.setMove ?_)
    split
    · exact k.nextFresh
    · exact k

theorem Keeps.gaugeStart {d t} : Keeps s₀ (gaugeStart d t s) := by
  unfold Machine.gaugeStart
  split
  · exact h
  · dsimp only
    split
    · exact .ite h h.advanceTo.setDesc
    · exact h

theorem Keeps.selectionReady {d t} : Keeps s₀ (selectionReady d t s) := by
  unfold Machine.selectionReady
  split
  · exact h
  · split
    · exact h
    · exact (h.advanceTo.bump.ite h.advanceTo).setDesc

theorem Keeps.countUp {key f} : Keeps s₀ (countUp key f s) := h.tbWF

theorem Keeps.walkRank {d k r tag cand w} : Keeps s₀ (walkRank d k r tag cand w s).2 := by
  unfold Machine.walkRank
  extract_lets +onlyGivenNames _ _ s₁ _ s₂
  have h₁ : Keeps s₀ s₁ := .ite h.countUp h
  have h₂ : Keeps s₀ s₂ := .ite h₁.countUp h₁
  split
  · exact h₂.bump
  · dsimp only
    split
    · exact h₂
    · split
      · exact h₂.bump
      · split
        · exact h₂.tbWF.bump
        · exact h₂.tbWF.bump
        · split
          · exact h₂.tbWF.bump
          · exact h₂.tbWF.bump

theorem Keeps.walkRanks {d k tag0 cand rs w} : Keeps s₀ (walkRanks d k tag0 cand rs w s).2 := by
  induction rs generalizing s w with
  | nil => exact h
  | cons r rs ih => exact ih h.walkRank

theorem Keeps.walkOut {x k w} : Keeps s₀ (walkOut x k w s) := by
  unfold Machine.walkOut
  split
  · exact h
  · exact h.setDovX

theorem Keeps.walkEnter {d t} : Keeps s₀ (walkEnter d t s) := by
  unfold Machine.walkEnter
  split
  · exact h
  · split
    · exact h
    · refine .ite h ?_
      extract_lets +onlyGivenNames s₁ kk
      split
      next e =>
        have h₁ := Keeps.of_snd (.ite_snd h.advanceTo.bump h.advanceTo.walkRanks) e
        exact
          have h₂ := h₁.setDesc.walkOut
          .ite h₂.advanceTo.descDone h₂

theorem Keeps.biasUpdate {es sums d} : Keeps s₀ (biasUpdate es sums d s) :=
  .foldl h fun _ _ k => .ite k.bumpBy k.bumpBy.tbWF
theorem Keeps.balReset {c} : Keeps s₀ (balReset c s) := .wrF (.foldl h fun _ _ k => k.tbWF)
theorem Keeps.balApply {c sums} : Keeps s₀ (balApply c sums s) :=
  .bump (.balReset (.foldl h fun _ _ k => k.biasUpdate))

theorem Keeps.placeUpdate {c es sums d} : Keeps s₀ (placeUpdate c es sums d s) := by
  unfold Machine.placeUpdate
  extract_lets +onlyGivenNames _ _ _ s₁
  have h₁ : Keeps s₀ s₁ := .foldl h fun _ _ k => k.tbWF
  exact .ite h₁ (.foldl h₁ fun _ _ k => k.tbW)

theorem Keeps.placeReset {c} : Keeps s₀ (placeReset c s) := .wrF (.foldl h fun _ _ k => k.tbWF)

theorem Keeps.placeApply {c sums} : Keeps s₀ (placeApply c sums s) := by
  unfold Machine.placeApply
  extract_lets +onlyGivenNames _ s₁ _
  have h₁ : Keeps s₀ s₁ := .foldl h fun _ _ k => k.placeUpdate
  exact (h₁.ite h₁.wrF.bump).placeReset

theorem Keeps.updStart {code g c vals now} (hnow : ∀ t, Keeps s₀ t → Keeps s₀ (now t)) :
    Keeps s₀ (updStart code g c vals now s) :=
  .ite (hnow _ h) h.setDv.defer

theorem Keeps.placeStart : Keeps s₀ (placeStart s) := .foldl h.setDv fun _ _ k => .updStart k fun _ k => k.placeApply
theorem Keeps.updOn : Keeps s₀ (updOn s) := .ite h (.ite h.placeStart.boundaryOn h.placeStart)
theorem Keeps.dovColDone {code ts} : Keeps s₀ (dovColDone code ts s) :=
  .ite h (h.setDv.balApply.ite h.setDv.placeApply).updOn
theorem Keeps.dovColError {code cause} : Keeps s₀ (dovColError code cause s) :=
  .ite h (h.setDv.balReset.log.ite h.setDv.placeReset.log).updOn
theorem Keeps.descsCut : Keeps s₀ (descsCut s) := .foldl h fun _ _ k => k.bumpBy.log.tcc.descDone

theorem Keeps.combinesCut : Keeps s₀ (combinesCut s) := by
  unfold Machine.combinesCut
  refine .foldl h fun _ _ k => ?_
  split
  · exact k
  · exact k.log.tcc.setDv.setDovX.outAll

theorem Keeps.loopsCount : Keeps s₀ (loopsCount s) := by
  unfold Machine.loopsCount
  refine .foldl h fun _ _ k => ?_
  refine .ite k ?_
  exact
    have h₁ := k.ite (k.wrF.ite k.wrF.setDv)
    .ite h₁ (.ite h₁.wrF (.updStart h₁.wrF fun _ k => k.balApply))

theorem Keeps.dovCuts : Keeps s₀ (dovCuts s) :=
  have h₁ := h.descsCut.combinesCut
  .ite h₁.setDv h₁.setDv.wrF

theorem Keeps.dovLoops : Keeps s₀ (dovLoops s).2 := by
  unfold Machine.dovLoops
  dsimp only
  split
  · exact h.loopsCount.placeStart
  · exact h.loopsCount

theorem Keeps.dovTeardown {c} : Keeps s₀ (dovTeardown c s) := by
  unfold Machine.dovTeardown
  refine .setDv ?_
  refine .foldl h fun _ _ k => ?_
  exact
    have h₁ := k.ite k.sendParts
    have h₂ := h₁.ite h₁.sendParts
    .ite h₂ h₂.sendParts

end Sys2Proof.Machine
end

section
/-! What a step keeps: intake. -/
namespace Sys2Proof.Machine

variable {s₀ s : State} (h : Keeps s₀ s)
include h

theorem Keeps.setFetches {r l} : Keeps s₀ (setFetches r l s) := h.upd

theorem Keeps.irFetch {r n} : Keeps s₀ (irFetch r n s) := by
  induction n generalizing s with
  | zero => exact h
  | succ n ih => exact .ite h (ih h.setFetches.emit)

theorem Keeps.irTailWrite {r v src} : Keeps s₀ (irTailWrite r v src s) := .ite h.refuse (.ite h.bump h.wrF.irFetch)
theorem Keeps.irCfgWrite {r v} : Keeps s₀ (irCfgWrite r v s) :=
  .ite h.bump (.ite h.wr.setFetches.wrF.wrF h.wr.setFetches)
theorem Keeps.irBaseWrite {r v} : Keeps s₀ (irBaseWrite r v s) := .ite h.bump h.wr
theorem Keeps.recordEnter {r idx ws} : Keeps s₀ (recordEnter r idx ws s) :=
  .ite h.bump.log (.ite h.joinArrive (.ite h.bump h.leaveReq))

theorem Keeps.recordsEnter {r bytes n i} : Keeps s₀ (recordsEnter r bytes n i s) := by
  induction n generalizing s i with
  | zero => exact h
  | succ n ih => exact ih h.wrF.recordEnter

theorem Keeps.fetchDone {r data} : Keeps s₀ (fetchDone r data s) := by
  unfold Machine.fetchDone
  split
  · exact h
  · split
    · exact h.setFetches.recordsEnter.irFetch
    · exact h.setFetches.bump.log

end Sys2Proof.Machine
end

section
/-! What a step keeps: jobs. -/
namespace Sys2Proof.Machine

variable {s₀ s : State} (h : Keeps s₀ s)
include h

theorem Keeps.fabAccess {addr data n key a put src} (hput : ∀ i v t, Keeps s₀ t → OptKeeps s₀ (put i v t)) :
    Keeps s₀ (fabAccess addr data n key a put src s) := by
  cases a with
  | read => exact h.reply.wr
  | write v => exact ((hput _ v _ h).getD h.refuse).wr

theorem Keeps.rankStore {r v} : Keeps s₀ (rankStore r v s) := .ite h.tbW.refreshRank.takeover h.tbW.refreshRank
theorem Keeps.rankPut {r v} : OptKeeps s₀ (rankPut r v s) := .ite (.some h.rankStore) .none
theorem Keeps.rankAccess {a src} : Keeps s₀ (rankAccess a src s) := .fabAccess h fun _ _ _ k => k.rankPut
theorem Keeps.planeAccess {a src} : Keeps s₀ (planeAccess a src s) :=
  .fabAccess h fun _ _ _ k => .ite (.some k.tbW) .none
theorem Keeps.treeAccess {a src} : Keeps s₀ (treeAccess a src s) :=
  .fabAccess h fun _ _ _ k => .ite (.some k.tbW) .none
theorem Keeps.setupWrite {off mask v src} : Keeps s₀ (setupWrite off mask v src s) := .ite h.wr h.refuse
theorem Keeps.digestNow : Keeps s₀ (digestNow s) := .foldl h fun _ _ k => k.wr

theorem Keeps.fabRecord {off v} : Keeps s₀ (fabRecord off v s) :=
  (h.upd.wr.ite (h.upd.wr.ite (h.upd.wr.ite (h.upd.rankAccess.ite (h.upd.planeAccess.ite (h.upd.treeAccess.ite
    h.upd)))))).upd

theorem Keeps.startRefuse {reason} : Keeps s₀ (startRefuse reason s) := h.setX.wrF.log

theorem Keeps.forwardJob {t type ws} : Keeps s₀ (forwardJob t type ws s) := by
  unfold Machine.forwardJob
  split
  · exact h
  · exact .foldl h fun _ _ k => .ite k.bump.sendCtlRank k

theorem Keeps.startPass {key epoch tree byPacket} : Keeps s₀ (startPass key epoch tree byPacket s) :=
  (h.setX.wr.refreshRank.forwardJob.ite h.setX.wr.refreshRank).pumpAll

theorem Keeps.startRoutes {key epoch tree byPacket loaded} :
    Keeps s₀ (startRoutes key epoch tree byPacket loaded s) :=
  .ite h.startRefuse (.ite (.ite h.setX h.startRefuse) h.startPass)

theorem Keeps.jobStart {key epoch tree expect byPacket} : Keeps s₀ (jobStart key epoch tree expect byPacket s) := by
  unfold Machine.jobStart
  refine .ite h.wrF.log ?_
  refine .ite h.wrF.log ?_
  refine .ite h.wrF.log ?_
  refine .ite h.digestNow.bump.startRoutes ?_
  extract_lets +onlyGivenNames s₁
  have h₁ : Keeps s₀ s₁ := .digestNow (.foldl h.digestNow fun _ _ k => k.fabRecord)
  exact .ite h₁.startRoutes h₁.wrF.log

theorem Keeps.jobStartPacket {p} : Keeps s₀ (jobStartPacket p s) := h.jobStart

theorem Keeps.startPortsReady : Keeps s₀ (startPortsReady s) := by
  unfold Machine.startPortsReady
  split
  · exact .ite h h.startRoutes
  · exact h

theorem Keeps.jobTeardown : Keeps s₀ (jobTeardown s) := .ite h h.forwardJob.wrF.wrF.dropUnsent.setX
theorem Keeps.teardownPacket {p} : Keeps s₀ (teardownPacket p s) := .ite h.jobTeardown h

theorem Keeps.jobCtlWrite {v} : Keeps s₀ (jobCtlWrite v s) :=
  have h₁ := h.jobStart.ite h
  .ite h₁.jobTeardown h₁

theorem Keeps.jobClear : Keeps s₀ (jobClear s) :=
  .wr (.upd (.colClear (.xportClear (.upd (.foldl h.wrF fun _ _ k => k.wrF.defer)))))
theorem Keeps.drainComplete : Keeps s₀ (drainComplete s) := .ite h.jobClear h
theorem Keeps.drainTimeout : Keeps s₀ (drainTimeout s) :=
  .ite h (.jobClear (.log (.foldl h.advanceTo fun _ _ k => k.portDisable.portWake)))
theorem Keeps.clearPending : Keeps s₀ (clearPending s) := .ite h.jobClear h

end Sys2Proof.Machine
end

section
/-! What a step keeps: supplies, device states and resets. -/
namespace Sys2Proof.Machine

variable {s₀ s : State} (h : Keeps s₀ s)
include h

theorem Keeps.setPow {f} : Keeps s₀ (setPow f s) := h.upd
theorem Keeps.idle : Keeps s₀ (idle s) := .ite h h.upd
theorem Keeps.enterRunning {d} (hd : d ≤ 8 := by decide) : Keeps s₀ (enterRunning d s) :=
  (h.setDev hd).setPow.clearPending.portsFollow
theorem Keeps.seqHalt {b q} : Keeps s₀ (seqHalt b q s) := .ite h.setSeq.discardSwaps h.setSeq
theorem Keeps.seqsHalt : Keeps s₀ (seqsHalt s) := .foldl h fun _ _ k => k.seqHalt.seqHalt
theorem Keeps.setCause {code} : Keeps s₀ (setCause code s) := h.wrF.wrF
theorem Keeps.enterFault {code rec d} : Keeps s₀ (enterFault code rec d s) :=
  .ite h (h.log.ite h).wrF.setPow.setCause.setDev.seqsHalt.portsFollow
theorem Keeps.refLost : Keeps s₀ (refLost s) := .ite h h.setPow.enterFault
theorem Keeps.rootUnlock : Keeps s₀ (rootUnlock s) := .ite h h.setPow.enterFault
theorem Keeps.clockFault {d} : Keeps s₀ (clockFault d s) := .ite h h.setPow.enterFault
theorem Keeps.regulatorFault : Keeps s₀ (regulatorFault s) := h.enterFault
theorem Keeps.lanePll {n} : Keeps s₀ (lanePll n s) := .foldl h fun _ _ k => k.laneLost
theorem Keeps.auxClear : Keeps s₀ (auxClear s) := .upd (.foldl h fun _ _ k => k.unwr)
theorem Keeps.fuseRegs : Keeps s₀ (fuseRegs s) := .foldl h.wr.wr fun _ _ k => k.wr
theorem Keeps.setSec {f} : Keeps s₀ (setSec f s) := h.upd

theorem Keeps.fuseBlow {how b} : Keeps s₀ (fuseBlow how b s) := by
  unfold Machine.fuseBlow
  exact .fuseRegs (h.nextFresh.setSec.ite h.nextFresh.setSec)

theorem Keeps.burnCut : Keeps s₀ (burnCut s) := by
  unfold Machine.burnCut
  split
  · exact h.fuseBlow.setSec
  · exact h

theorem Keeps.carry {keep old} : Keeps s₀ (carry keep old s) := .foldl h fun _ _ k => k.wr

theorem Keeps.blank : Keeps s₀ (blank s) := by
  unfold Machine.blank
  extract_lets +onlyGivenNames _ t₂ _ _ t₃
  have k : Keeps s₀ t₂ :=
    ⟨fun _ => canonical_of_maps (s := State.reset) rfl rfl rfl rfl rfl rfl canonical_reset, h.dev, h.pending⟩
  have k₃ : Keeps s₀ t₃ := k.upd
  exact k₃.carry.fuseRegs

theorem Keeps.mainLost {drop} : Keeps s₀ (mainLost drop s) := by
  unfold Machine.mainLost
  refine .ite h ?_
  refine .ite h.upd ?_
  exact
    have h₁ := h.burnCut.upd.blank.setCause
    .ite h₁.wrF.upd.setDev h₁.auxClear.upd.setDev

theorem Keeps.mainGood {mv} : Keeps s₀ (mainGood mv s) := .ite h h.wrF.setPow
theorem Keeps.auxGood {mv} : Keeps s₀ (auxGood mv s) :=
  .ite h (.ite h.wrF.setPow.setDev (.ite h.wrF.setPow.emit h.wrF.setPow))

theorem Keeps.auxLost : Keeps s₀ (auxLost s) := by
  unfold Machine.auxLost
  refine .ite h ?_
  exact
    have h₁ := h.wrF.auxClear.setPow
    .ite h₁.wrF.log h₁.wr.setPow.setDev

theorem Keeps.sampleSlot {slot} : Keeps s₀ (sampleSlot slot s) := h.wrF

theorem Keeps.coldRelease {slot} : Keeps s₀ (coldRelease slot s) := by
  unfold Machine.coldRelease
  refine .ite h ?_
  exact
    have h₁ := h.blank.setPow.wr.sampleSlot.setDev
    .ite h₁ h₁.log

theorem Keeps.rurilTrained : Keeps s₀ (rurilTrained s) := .ite h h.setPow
theorem Keeps.keepRws {old} : Keeps s₀ (keepRws old s) := .foldl h fun _ _ k => .ite k k.wr

theorem Keeps.warmBegin {cause} : Keeps s₀ (warmBegin cause s) := by
  unfold Machine.warmBegin
  refine .ite h ?_
  extract_lets +onlyGivenNames s₁ b₁ _ b₂ _ _ b₃
  have h₁ : Keeps s₀ s₁ := h.burnCut
  have k₁ : Keeps s₀ b₁ := h₁.blank
  have k₂ : Keeps s₀ b₂ := by
    refine ⟨fun c => ?_, k₁.dev, k₁.pending⟩
    obtain ⟨-, htabs, -, hruril, -, hrtags⟩ := (canonical_iff s₁).1 (h₁.form c)
    obtain ⟨hregs, -, hsram, -, hstags, -⟩ := (canonical_iff b₁).1 (k₁.form c)
    exact (canonical_iff b₂).2 ⟨hregs, smWf_filter _ _ _ htabs, hsram, hruril, hstags, hrtags⟩
  have k₃ : Keeps s₀ b₃ := k₂.upd
  exact k₃.carry.keepRws.cutWarm

theorem Keeps.warmRelease {slot} : Keeps s₀ (warmRelease slot s) := by
  unfold Machine.warmRelease
  split
  · exact h
  · exact h.setPow.upd.wr.bump.setCause.sampleSlot.setDev

theorem Keeps.modReset : Keeps s₀ (modReset s) := .ite h.warmBegin h
theorem Keeps.resetCtlWrite {v src} : Keeps s₀ (resetCtlWrite v src s) := .ite h.refuse (.ite h.warmBegin h)
theorem Keeps.trainDone : Keeps s₀ (trainDone s) := .ite h.enterRunning.devFollow h
theorem Keeps.trainTimeout : Keeps s₀ (trainTimeout s) := .ite h.advanceTo.enterRunning.devFollow h
theorem Keeps.stateCtlWrite {v src} : Keeps s₀ (stateCtlWrite v src s) := .ite (.ite h.wr.enterRunning h.refuse) h.wr
theorem Keeps.supplyWrite {v} : Keeps s₀ (supplyWrite v s) := .ite h.wrF h

end Sys2Proof.Machine
end

section
/-! What a step keeps: the host link. -/
namespace Sys2Proof.Machine

variable {s₀ s : State} (h : Keeps s₀ s)
include h

theorem Keeps.xferFail {kind idx c addr} : Keeps s₀ (xferFail kind idx c addr s) := h.bump.log
theorem Keeps.fetchesFail {r} : Keeps s₀ (fetchesFail r s) := .setFetches (.foldl h fun _ _ k => k.xferFail)

theorem Keeps.recoveryXferFail {o} : Keeps s₀ (recoveryXferFail o s) := by
  unfold Machine.recoveryXferFail
  split
  · exact h.xferFail
  · exact h

theorem Keeps.recoveryNext {o} : Keeps s₀ (recoveryNext o s) := by
  unfold Machine.recoveryNext
  split
  · exact h.trySource
  · exact h

theorem Keeps.recoveryHostFail {o} : Keeps s₀ (recoveryHostFail o s) := h.recoveryXferFail.recoveryNext

theorem Keeps.transfersFail : Keeps s₀ (transfersFail s) :=
  .resumeUndo (.parksEnd (.foldl (.foldl (.resumeXferFail (.parksXferFail (.foldl h
    fun _ _ k => k.recoveryXferFail))) fun _ _ k => k.fetchesFail) fun _ _ k => k.recoveryNext))

theorem Keeps.hostReadTimeout {x} : Keeps s₀ (hostReadTimeout x s) := by
  unfold Machine.hostReadTimeout
  split
  · exact h.fetchDone
  · exact h.resumeCopyDone
  · exact h.recoveryHostFail

theorem Keeps.linkDown : Keeps s₀ (linkDown s) := h.wr

theorem Keeps.hostReset {keep} : Keeps s₀ (hostReset keep s) := by
  unfold Machine.hostReset
  extract_lets +onlyGivenNames _ _ _ s₁ _
  have h₁ : Keeps s₀ s₁ := .foldl (h.ite h.linkDown).transfersFail.bump fun _ _ k => k.unwr
  exact (h₁.wr.ite h₁).upd

theorem Keeps.perstAssert : Keeps s₀ (perstAssert s) := .ite h h.setPow.hostReset
theorem Keeps.perstRelease : Keeps s₀ (perstRelease s) := h.setPow
theorem Keeps.linkLoss : Keeps s₀ (linkLoss s) := .ite h h.linkDown.bump.log.hostReset
theorem Keeps.linkReset : Keeps s₀ (linkReset s) := .ite h h.hostReset
theorem Keeps.flr : Keeps s₀ (flr s) := .ite h h.hostReset
theorem Keeps.linkTrained {rate width} : Keeps s₀ (linkTrained rate width s) :=
  .ite h (.ite h.log.upd (.foldl h.wr fun _ _ k => k.crDrainAll))

theorem Keeps.linkRetry : Keeps s₀ (linkRetry s) := by
  unfold Machine.linkRetry
  split
  · exact h.advanceTo.upd
  · exact h

theorem Keeps.hostWriteTile {a bytes} : Keeps s₀ (hostWriteTile a bytes s) :=
  ⟨fun c => canonical_hostWriteTile a bytes s (h.form c), h.dev, h.pending⟩

theorem Keeps.memReadReq {a e} : Keeps s₀ (memReadReq a e s) := by
  unfold Machine.memReadReq
  split
  · exact h
  · exact .ite h.emit (.ite h.emit (.ite h.rurilRead.emit h.rurilRead.bump.emit))

theorem Keeps.memWriteReq {a data be} : Keeps s₀ (memWriteReq a data be s) := by
  unfold Machine.memWriteReq
  split
  · exact h
  · exact .ite h.emit (.ite h.bump.emit (.ite h.bump.emit h.hostWriteTile.emit))

theorem Keeps.snoop : Keeps s₀ (snoop s) := .ite h.emit h
theorem Keeps.msixFlush : Keeps s₀ (msixFlush s) := .ite (.foldl h.upd fun _ _ k => k.emit) h

theorem Keeps.configWrite {x} : Keeps s₀ (configWrite x s) := by
  unfold Machine.configWrite
  refine .ite h ?_
  split
  · exact .ite h.upd h
  · exact h.upd
  · exact h.upd.msixFlush

theorem Keeps.msixWrite {i v} : Keeps s₀ (msixWrite i v s) := .ite h (.ite h.upd h.upd.upd.msixFlush)
theorem Keeps.doeDiscovery {i} : Keeps s₀ (doeDiscovery i s) := .ite h h.emit
theorem Keeps.cdatAccess : Keeps s₀ (cdatAccess s) := .ite h h.emit
theorem Keeps.ideMacFail {k} : Keeps s₀ (ideMacFail k s) := .ite h h.wrF.upd.log.transfersFail

end Sys2Proof.Machine
end

section
/-! What a step keeps: the Kiln. -/
namespace Sys2Proof.Machine

variable {s₀ s : State} (h : Keeps s₀ s)
include h

theorem Keeps.setKiln {f} : Keeps s₀ (setKiln f s) := h.upd
theorem Keeps.kSet {f x} : Keeps s₀ (kSet f x s) := h.wrF
theorem Keeps.kWarn {bit code kind idx d} : Keeps s₀ (kWarn bit code kind idx d s) := .ite h h.kSet.ibiEvent.log

theorem Keeps.droopStart : Keeps s₀ (droopStart s) := by
  unfold Machine.droopStart
  split
  · exact h.setKiln
  · exact h.kSet.bump.setKiln

theorem Keeps.droopEnd : Keeps s₀ (droopEnd s) := by
  unfold Machine.droopEnd
  split
  · exact h
  · exact h.advanceTo.kSet.setKiln

theorem Keeps.avsGroup {g m p} : Keeps s₀ (avsGroup g m p s) :=
  have h₁ := h.wr.setKiln.kWarn.ite h.wr.setKiln
  .ite h₁.droopStart h₁

theorem Keeps.avsInterval {margins powers} : Keeps s₀ (avsInterval margins powers s) :=
  .ite h (.foldl h fun _ _ k => k.avsGroup)
theorem Keeps.profileTurn : Keeps s₀ (profileTurn s) := .ite h h.setKiln
theorem Keeps.profileAdd {a} : Keeps s₀ (profileAdd a s) := .ite h h.setKiln

theorem Keeps.periodCounts {c0} : Keeps s₀ (periodCounts c0 s) :=
  have h₁ := h.bumpBy.bump.ite h.bumpBy
  .ite h₁.bumpBy h₁

theorem Keeps.kilnPeriod {a demand} : Keeps s₀ (kilnPeriod a demand s) :=
  .ite h h.advanceTo.periodCounts.profileTurn.profileAdd.setKiln.kSet.kSet.kSet.kSet.wr.setKiln

theorem Keeps.overpower : Keeps s₀ (overpower s) := by
  unfold Machine.overpower
  split
  · exact .ite h.advanceTo.enterFault h
  · exact h

theorem Keeps.droopDetect {g} : Keeps s₀ (droopDetect g s) := .ite h.droopStart h
theorem Keeps.forecastSend : Keeps s₀ (forecastSend s) := .ite h h.profileTurn.bump.emit.setKiln
theorem Keeps.capFrame {bs} : Keeps s₀ (capFrame bs s) := .ite h (.ite h.wrF.kSet.setKiln h.bump)
theorem Keeps.capLoss : Keeps s₀ (capLoss s) := .ite h h.advanceTo.wrF.kSet.kWarn

theorem Keeps.thermalSample {inlet outlet jmax} : Keeps s₀ (thermalSample inlet outlet jmax s) := by
  unfold Machine.thermalSample
  refine .ite h ?_
  exact
    have h₁ := h.wr.kSet.kWarn.ite (h.wr.kSet.ite h.wr)
    (h₁.kWarn.ite h₁).setKiln

theorem Keeps.junctionTrip : Keeps s₀ (junctionTrip s) := by
  unfold Machine.junctionTrip
  split
  · exact .ite h.advanceTo.enterFault h
  · exact h

theorem Keeps.coolantTrip : Keeps s₀ (coolantTrip s) := by
  unfold Machine.coolantTrip
  split
  · exact .ite h.advanceTo.enterFault h
  · exact h

theorem Keeps.valveStep {fb} : Keeps s₀ (valveStep fb s) := .ite h h.profileTurn.setKiln.setKiln.wrF.wrF.setKiln
theorem Keeps.valveMismatch {fb} : Keeps s₀ (valveMismatch fb s) := .ite h h.wrF.kWarn.wrF.setKiln
theorem Keeps.warnClear {v} : Keeps s₀ (warnClear v s) := h.kSet
theorem Keeps.kilnWrite {off mask v src} : Keeps s₀ (kilnWrite off mask v src s) :=
  .ite h.warnClear (.ite h.refuse (.ite h.wr h))

end Sys2Proof.Machine
end

section
/-! What a step keeps: the bus, fuses, signing and reports. -/
namespace Sys2Proof.Machine

variable {s₀ s : State} (h : Keeps s₀ s)
include h

theorem Keeps.errHeadWrite {v src} : Keeps s₀ (errHeadWrite v src s) := by
  unfold Machine.errHeadWrite
  refine .ite ?_ h.upd.refuse
  exact
    have h₁ := h.upd.wr.wrF
    .ite h₁.upd.log h₁

theorem Keeps.badFirstWrite {v} : Keeps s₀ (badFirstWrite v s) := .ite h.wr h

theorem Keeps.trayWrite {v src} : Keeps s₀ (trayWrite v src s) := by
  unfold Machine.trayWrite
  split
  · exact h.refuse
  · exact .ite (.ite h h.bump.log) h.wr.wrF.wrF.refreshRank

theorem Keeps.daAssign {a} : Keeps s₀ (daAssign a s) := .ite h h.wrF.wrF
theorem Keeps.daReset : Keeps s₀ (daReset s) := .ite h h.wrF.wrF

theorem Keeps.eventsEnable {on bits} : Keeps s₀ (eventsEnable on bits s) := by
  unfold Machine.eventsEnable
  refine .ite h ?_
  exact
    have h₁ := h.upd.ite h
    .ite h₁.upd h₁

theorem Keeps.cccAnswer {bs} : Keeps s₀ (cccAnswer bs s) := .ite h.emit h
theorem Keeps.ibiSend {won} : Keeps s₀ (ibiSend won s) := .ite h h.upd.emit.bump
theorem Keeps.burnResult {x} : Keeps s₀ (burnResult x s) := h.wrF
theorem Keeps.burnStart {kind ws} : Keeps s₀ (burnStart kind ws s) := h.burnResult.wrF.setSec
theorem Keeps.burnSvn : Keeps s₀ (burnSvn s) := .ite h.burnStart h.burnResult
theorem Keeps.burnOwner : Keeps s₀ (burnOwner s) := .ite h.burnStart h.burnResult

theorem Keeps.fuseCtlWrite {v src} : Keeps s₀ (fuseCtlWrite v src s) := by
  unfold Machine.fuseCtlWrite
  refine .ite h.refuse ?_
  exact
    have h₁ := h.burnSvn.ite h
    .ite h₁ (.ite h₁.refuse h₁.burnOwner)

theorem Keeps.burnDone {ok} : Keeps s₀ (burnDone ok s) := by
  unfold Machine.burnDone
  split
  · exact h
  · refine .ite h ?_
    exact
      have h₁ := h.fuseBlow.setSec.wrF.burnResult
      .ite h₁ h₁.log

theorem Keeps.signBusy : Keeps s₀ (signBusy s).2.2 := h.nextFresh.bump
theorem Keeps.reserve : Keeps s₀ (reserve s) := h.setSec.wr

theorem Keeps.signAsk : Keeps s₀ (signAsk s).2.2 := by
  unfold Machine.signAsk
  split
  · exact h.log
  · extract_lets +onlyGivenNames s₁
    have h₁ : Keeps s₀ s₁ := h.reserve.setSec.ite (h.reserve.ite h)
    split
    · exact h₁.signBusy
    · dsimp only
      split
      · exact h₁.setSec.signBusy
      · dsimp only
        exact h₁.setSec

theorem Keeps.treeBuilt : Keeps s₀ (treeBuilt s) := .ite h h.setSec
theorem Keeps.tokenRefill {n} : Keeps s₀ (tokenRefill n s) := .ite h h.setSec

theorem Keeps.respond {src type status retry payload} : Keeps s₀ (respond src type status retry payload s) := by
  unfold Machine.respond
  dsimp only
  split
  · exact h.emit
  · exact h.upd

theorem Keeps.attest {src type k} (hk : ∀ t, Keeps s₀ t → Keeps s₀ (k t)) : Keeps s₀ (attest src type k s) := by
  unfold Machine.attest
  refine .ite h ?_
  split
  · exact .ite (hk _ h) h
  · exact .ite h (.ite (hk _ h) h.respond)

theorem Keeps.certGet {src} : Keeps s₀ (certGet src s) := .attest h fun _ k => k.respond
theorem Keeps.signed {src type nonce bind pre} : Keeps s₀ (signed src type nonce bind pre s) :=
  .ite h.signAsk.respond h.signAsk.wrF.bump.respond
theorem Keeps.reportGet {src p} : Keeps s₀ (reportGet src p s) := .attest h fun _ k => .ite k.respond k.signed

theorem Keeps.kemBegin {src p} : Keeps s₀ (kemBegin src p s) := by
  unfold Machine.kemBegin
  refine .attest h fun _ k => ?_
  refine .ite k.respond ?_
  exact
    have h₁ := k.setSec.nextFresh.signed
    .ite h₁ h₁.setSec

theorem Keeps.kemEnd {src ct} : Keeps s₀ (kemEnd src ct s) := by
  unfold Machine.kemEnd
  refine .attest h fun _ k => ?_
  split
  · exact k.respond
  · exact k.respond
  · exact .ite k.respond k.setSec.wrF.wrF.bump.respond

theorem Keeps.kemExpire : Keeps s₀ (kemExpire s) := by
  unfold Machine.kemExpire
  split
  · exact h.advanceTo.setSec
  · exact h

theorem Keeps.attestBytes {src bs} : Keeps s₀ (attestBytes src bs s) :=
  .ite (.attest h fun _ k => k.respond) (.ite (.attest h fun _ k => .ite k.respond k.certGet) (.ite h.reportGet
    (.ite h.kemBegin (.ite h.kemEnd (.attest h fun _ k => k.respond)))))

end Sys2Proof.Machine
end

section
/-! What a step keeps: images and the flash. -/
namespace Sys2Proof.Machine

variable {s₀ s : State} (h : Keeps s₀ s)
include h

theorem Keeps.setJig {f} : Keeps s₀ (setJig f s) := h.upd
theorem Keeps.programStart {src} : Keeps s₀ (programStart src s) := .ite h.refuse h.wr.setJig
theorem Keeps.programStatus {result fail tiles} : Keeps s₀ (programStatus result fail tiles s) := h.wr
theorem Keeps.programFail {result fail} : Keeps s₀ (programFail result fail s) := h.programStatus.log

theorem Keeps.programDone {ok} : Keeps s₀ (programDone ok s) := by
  unfold Machine.programDone
  split
  · exact h
  · exact .ite h (.ite h.setJig.programFail (.ite h.setJig.nextFresh.setJig.programFail (.ite
      h.setJig.setJig.programStatus.setJig.setDev h.setJig.setJig.programStatus)))

theorem Keeps.jigCtlWrite {v src} : Keeps s₀ (jigCtlWrite v src s) :=
  have h₁ := h.programStart.ite h
  .ite h₁.enterRunning.devFollow h₁

theorem Keeps.setGlue {x} : Keeps s₀ (setGlue x s) := h.wrF
theorem Keeps.glueClose {result} : Keeps s₀ (glueClose result s) := h.wrF.setGlue.upd.msixRaise
theorem Keeps.glueEnd {result} : Keeps s₀ (glueEnd result s) := h.glueClose.bump
theorem Keeps.glueCancel : Keeps s₀ (glueCancel s) := .ite h.glueEnd h

theorem Keeps.glueGoWrite : Keeps s₀ (glueGoWrite s) := by
  unfold Machine.glueGoWrite
  refine .ite h ?_
  exact
    have h₁ := h.setJig.setGlue
    .ite h₁.defer h₁

theorem Keeps.glueOpen {src} : Keeps s₀ (glueOpen src s) := .ite h.refuse h.setJig.wr

theorem Keeps.glueCtlWrite {v src} : Keeps s₀ (glueCtlWrite v src s) :=
  have h₁ := h.glueCancel.ite h
  have h₂ := h₁.glueGoWrite.ite h₁
  .ite h₂.glueOpen h₂

end Sys2Proof.Machine
end

section
/-! What a step keeps: Clamp and Mark. -/
namespace Sys2Proof.Machine

variable {s₀ s : State} (h : Keeps s₀ s)
include h

theorem Keeps.clampCtlWrite {v src} : Keeps s₀ (clampCtlWrite v src s) := .ite h.refuse (.ite h.wr.wr.upd h.wr)
theorem Keeps.clampSend : Keeps s₀ (clampSend s) := .ite h h.upd.pushPacket
theorem Keeps.clampReceive {p} : Keeps s₀ (clampReceive p s) := .foldl h fun _ _ k => k.clampArrive
theorem Keeps.clampFirstWrite {v} : Keeps s₀ (clampFirstWrite v s) := .ite h.wr.wr h
theorem Keeps.markWaiting {x} : Keeps s₀ (markWaiting x s) := h.wrF
theorem Keeps.markCopies {r lead id replayed} : Keeps s₀ (markCopies r lead id replayed s) :=
  .foldl h fun _ _ k => k.sendCtlRank

theorem Keeps.markRoot {r} : Keeps s₀ (markRoot r s) := by
  unfold Machine.markRoot
  split
  · exact h.upd.markCopies
  · exact
      have h₁ := h.upd.markCopies
      .ite h₁.markT0 h₁

theorem Keeps.twinFlush : Keeps s₀ (twinFlush s) := .ite (.foldl h.upd fun _ _ k => k.pushPacket) h
theorem Keeps.twinJoin : Keeps s₀ (twinJoin s) := .ite h.upd.twinFlush h

theorem Keeps.markArrived {r} : Keeps s₀ (markArrived r s) := by
  unfold Machine.markArrived
  refine .ite ?_ (.ite h.upd.markWaiting.twinFlush.twinJoin h.upd.markRoot)
  extract_lets +onlyGivenNames s₁
  have h₁ : Keeps s₀ s₁ := h.upd.markWaiting
  split
  · exact h₁.sendCtlRank
  · exact h₁

theorem Keeps.markCheck : Keeps s₀ (markCheck s) := by
  unfold Machine.markCheck
  extract_lets +onlyGivenNames s₁
  have h₁ : Keeps s₀ s₁ := h.twinFlush.twinJoin
  split
  · exact h₁
  · exact .ite h₁.markArrived (.ite h₁.markRoot h₁)

theorem Keeps.arriveReceive {p} : Keeps s₀ (arriveReceive p s) := .ite h (.ite h h.upd.markCheck)

theorem Keeps.markReceive {n a} : Keeps s₀ (markReceive n a s) := by
  unfold Machine.markReceive
  refine .ite h ?_
  split
  · exact h
  · exact h.upd.markCopies

theorem Keeps.twinReceive {n a} : Keeps s₀ (twinReceive n a s) := by
  unfold Machine.twinReceive
  refine .ite h ?_
  refine .ite h.upd.twinJoin ?_
  refine .ite ?_ h
  split
  · exact h.upd.markRoot
  · exact h

theorem Keeps.markFree : Keeps s₀ (markFree s) := .foldl h fun _ _ k => .ite k.setBench k

theorem Keeps.markEnd : Keeps s₀ (markEnd s) := by
  unfold Machine.markEnd
  refine .foldl h fun _ _ k => ?_
  refine .foldl k fun _ _ k => ?_
  split
  · exact .ite k.syncRelease k
  · exact k

theorem Keeps.markRelease : Keeps s₀ (markRelease s) := by
  unfold Machine.markRelease
  split
  · exact h
  · exact
      have h₁ := h.advanceTo.wr.wr.bump
      (h₁.bump.log.ite h₁).upd.markFree.markEnd.defer

theorem Keeps.markTimeout : Keeps s₀ (markTimeout s) := .ite h h.advanceTo.upd.log
theorem Keeps.markCfgWrite {v src} : Keeps s₀ (markCfgWrite v src s) := .ite h.refuse h.wr.markCheck
theorem Keeps.markCancel : Keeps s₀ (markCancel s) := h.markFree.markWaiting.wrF.upd.markEnd

theorem Keeps.markCtlWrite {v} : Keeps s₀ (markCtlWrite v s) :=
  have h₁ := h.markCancel.ite h
  .ite h₁.upd.markCheck h₁

theorem Keeps.twinBack {p} : Keeps s₀ (twinBack p s) := h.upd
theorem Keeps.clampBack {p} : Keeps s₀ (clampBack p s) := h.upd

end Sys2Proof.Machine
end

section
/-! What a step keeps: register accesses. -/
namespace Sys2Proof.Machine

variable {s₀ s : State} (h : Keeps s₀ s)
include h

theorem Keeps.plainWrite {r off v} : Keeps s₀ (plainWrite r off v s) := h.wr
theorem Keeps.maskedPut {key mask ok i v} : OptKeeps s₀ (maskedPut key mask ok i v s) := .ite (.some h.tbW) .none
theorem Keeps.xdescAccess {a src} : Keeps s₀ (xdescAccess a src s) := .fabAccess h fun _ _ _ k => k.maskedPut
theorem Keeps.groupAccess {a src} : Keeps s₀ (groupAccess a src s) := .fabAccess h fun _ _ _ k => k.maskedPut
theorem Keeps.listAccess {a src} : Keeps s₀ (listAccess a src s) := .fabAccess h fun _ _ _ k => k.maskedPut
theorem Keeps.descAccess {a src} : Keeps s₀ (descAccess a src s) := .fabAccess h fun _ _ _ k => k.maskedPut
theorem Keeps.gseqAccess {a src} : Keeps s₀ (gseqAccess a src s) :=
  .fabAccess h fun _ _ _ k => .ite (.some k.tbW) .none

theorem Keeps.benWrite {r b off v src} : Keeps s₀ (benWrite r b off v src s) :=
  .ite h.benCtlWrite (.ite h.clearOnValid (.ite h.excCtlWrite (.ite h.imemWrite (.ite h.benStartWrite (.ite
    h.benResetWrite (.ite h.fdescAccess (.ite h.floorSysWrite h.plainWrite)))))))

theorem Keeps.glbWrite {r k off v src} : Keeps s₀ (glbWrite r k off v src s) :=
  .ite h.stateCtlWrite (.ite h.resetCtlWrite (.ite h.supplyWrite (.ite h (.ite h.badFirstWrite (.ite h.floorCtlWrite
    (.ite (.ite h.plainWrite h.refuse) (.ite h.irBaseWrite (.ite h.irCfgWrite (.ite h.crCfgWrite h.plainWrite)))))))))

theorem Keeps.jigWrite {r off v src} : Keeps s₀ (jigWrite r off v src s) :=
  .ite h.jigCtlWrite (.ite h.glueCtlWrite (.ite h h.plainWrite))

theorem Keeps.dovWrite {r c off v src} : Keeps s₀ (dovWrite r c off v src s) :=
  .ite h.dovCtlWrite (.ite h.layerAccess (.ite h.selAccess (.ite h.dispAccess (.ite h.mapAccess (.ite h.locAccess
    (.ite h.tokensWrite (.ite h.dovRegWrite h.plainWrite)))))))

theorem Keeps.poolWrite {r off v src} : Keeps s₀ (poolWrite r off v src s) :=
  .ite h.objAccess (.ite h.wr (.ite h.submitReq (.ite h.poisonFirstWrite (.ite h.poolCtlWrite (.ite h.poolSubmit
    (.ite h.stepEndWrite (.ite h.slotReq h.plainWrite)))))))

theorem Keeps.ctxWrite {r c off v src} : Keeps s₀ (ctxWrite r c off v src s) :=
  .ite h.benchTabAccess (.ite h.semDataWrite (.ite h.ctxCtlWrite (.ite h.ctxResetWrite (.ite (.ite h.plainWrite
    h.refuse) h.plainWrite))))

theorem Keeps.fabWrite {r n off v src} : Keeps s₀ (fabWrite r n off v src s) :=
  .ite h.portCtlWrite (.ite h (.ite h.linkCfgWrite (.ite h.jobCtlWrite (.ite h.setupWrite (.ite h.rankAccess (.ite
    h.planeAccess (.ite h.treeAccess (.ite h.xdescAccess (.ite (.ite h.plainWrite h.refuse) (.ite h.clearOnValid
    h.plainWrite))))))))))

theorem Keeps.colWriteReg {r off v src} : Keeps s₀ (colWriteReg r off v src s) :=
  .ite h.groupAccess (.ite h.listAccess (.ite h.descAccess (.ite h.gseqAccess (.ite h.colStartDesc h.plainWrite))))

theorem Keeps.detWrite {r off v src} : Keeps s₀ (detWrite r off v src s) :=
  .ite h.clampCtlWrite (.ite h.clampFirstWrite (.ite h.markCfgWrite (.ite h.markCtlWrite (.ite h.clearOnValid
    h.plainWrite))))

theorem Keeps.secWrite {r off v src} : Keeps s₀ (secWrite r off v src s) :=
  .ite h.fuseCtlWrite (.ite h.trayWrite (.ite h.errHeadWrite h.plainWrite))

theorem Keeps.regWrite {src r off v} : Keeps s₀ (regWrite src r off v s) :=
  .ite h.glbWrite (.ite h.jigWrite (.ite h.kilnWrite (.ite h.dovWrite (.ite h.poolWrite (.ite h.ctxWrite (.ite
    h.fabWrite (.ite h.colWriteReg (.ite h.detWrite (.ite h.benWrite h.secWrite)))))))))

theorem Keeps.busWrite {src off v} : Keeps s₀ (busWrite src off v s) := by
  unfold Machine.busWrite
  split
  · exact h.regWrite
  · exact .ite h h.badAccess

theorem Keeps.regRead {src r off} : Keeps s₀ (regRead src r off s) :=
  .ite h.imemRead (.ite h.fdescAccess (.ite h.objAccess (.ite h.slotDataRead (.ite h.layerAccess (.ite h.selAccess
    (.ite h.dispAccess (.ite h.mapAccess (.ite h.locAccess (.ite h.benchTabAccess (.ite h.semDataRead (.ite
    h.rankAccess (.ite h.planeAccess (.ite h.treeAccess (.ite h.xdescAccess (.ite h.groupAccess (.ite h.listAccess
    (.ite h.descAccess (.ite h.gseqAccess h.reply))))))))))))))))))

theorem Keeps.busRead {src off} : Keeps s₀ (busRead src off s) := by
  unfold Machine.busRead
  split
  · exact h.regRead
  · exact .ite h.reply h.badAccess.reply

theorem Keeps.busAccess {src off a} : Keeps s₀ (busAccess src off a s) := by
  unfold Machine.busAccess
  split
  · exact h.busRead
  · exact h.busWrite

theorem Keeps.sbLast {x} : Keeps s₀ (sbLast x s) := h.wrF
theorem Keeps.sbFail {x} : Keeps s₀ (sbFail x s) := h.sbLast.bump.upd

theorem Keeps.gluedAccess {src off a k} (hk : ∀ t, Keeps s₀ t → Keeps s₀ (k t)) :
    Keeps s₀ (gluedAccess src off a k s) := by
  unfold Machine.gluedAccess
  split
  · exact (hk _ h)
  · exact .ite h.refuse (hk _ h)

theorem Keeps.access {src off a k} (hk : ∀ t, Keeps s₀ t → Keeps s₀ (k t)) : Keeps s₀ (access src off a k s) := by
  unfold Machine.access
  split
  · refine .ite h ?_
    split
    · exact (hk _ h)
    · exact .ite h.refuse (.gluedAccess h fun _ k => (hk _ k))
  · exact .ite h (.ite (.gluedAccess h.bump.sbLast fun _ k => (hk _ k)) h.bump.sbFail)

theorem Keeps.regAccess {src off a} : Keeps s₀ (regAccess src off a s) := .access h fun _ k => k.busAccess

theorem Keeps.sizedAccess {src off size a} : Keeps s₀ (sizedAccess src off size a s) := by
  unfold Machine.sizedAccess
  refine .access h fun _ k => ?_
  refine .ite ?_ ?_
  · dsimp only
    split
    · exact k.badAccess.reply
    · exact k.badAccess
  · refine .ite ?_ k.busAccess
    dsimp only
    split
    · exact k.badAccess.reply
    · exact k.badAccess

end Sys2Proof.Machine
end

section
/-! What a step keeps: the Jig. -/
namespace Sys2Proof.Machine

variable {s₀ s : State} (h : Keeps s₀ s)
include h

theorem Keeps.privWrite {off v} : Keeps s₀ (privWrite off v s) := h.upd.busWrite.upd
theorem Keeps.mapApply {d} : Keeps s₀ (mapApply d s) := .ite h (.wrF (.foldl h fun _ _ k => k.tbW))
theorem Keeps.writeRec {off v} : Keeps s₀ (writeRec off v s) := .ite h.setJig h.privWrite.setJig

theorem Keeps.recApply {w0 w1} : Keeps s₀ (recApply w0 w1 s) := by
  unfold Machine.recApply
  split
  · exact h.writeRec
  · exact h.mapApply
  · exact h

theorem Keeps.recReset {c} : Keeps s₀ (recReset c s) := h.ctxResetWrite.ctxResetDone
theorem Keeps.recWhole {w0 w1} : Keeps s₀ (recWhole w0 w1 s) := .ite h.recReset h.recApply
theorem Keeps.secWriteRec {t off v} : Keeps s₀ (secWriteRec t off v s) := .ite h.wr h.privWrite
omit h in
theorem Keeps.secStep {t w} {a : Bool × State} (k : Keeps s₀ a.2) : Keeps s₀ (secStep t a w).2 := k.secWriteRec
theorem Keeps.sectionsApply {r} : Keeps s₀ (sectionsApply r s).2 :=
  .foldl_snd (a := (true, s)) h fun _ _ k => .foldl_snd k fun _ _ k => k.secStep
theorem Keeps.devTile {n payload} : Keeps s₀ (devTile n payload s) := h.setRurilTile
theorem Keeps.devTiles {n ps} : Keeps s₀ (devTiles n ps s) := .foldl h fun _ _ k => k.devTile
theorem Keeps.devWord {n i v} : Keeps s₀ (devWord n i v s) := h.hostWriteTile

theorem Keeps.initRuns {f bs} : Keeps s₀ (initRuns f bs s) := by
  induction f generalizing s bs with
  | zero => exact h
  | succ f ih => exact .ite h (ih (.foldl h fun _ _ k => k.devTile))

theorem Keeps.initApply {r} : Keeps s₀ (initApply r s) := .foldl h fun _ _ k => k.initRuns
theorem Keeps.jrnlEmpty {slot} : Keeps s₀ (jrnlEmpty slot s) := h.devWord.devWord.wr
theorem Keeps.imageKept {r} : Keeps s₀ (imageKept r s) := h.setJig
theorem Keeps.loadStatus {source fail svn loaded} : Keeps s₀ (loadStatus source fail svn loaded s) := h.wr
theorem Keeps.loadLeave {d} (hd : d ≤ 8 := by decide) : Keeps s₀ (loadLeave d s) :=
  (h.setGlue.enterRunning hd).devFollow

theorem Keeps.loadFail {code} : Keeps s₀ (loadFail code s) := by
  unfold Machine.loadFail
  exact .setDev h.setGlue.loadStatus.log

theorem Keeps.loadFlash {clean} : Keeps s₀ (loadFlash clean s) :=
  .ite h.loadFail (.ite h.loadFail h.sectionsApply.initApply.devTiles.jrnlEmpty.imageKept.loadStatus.setJig.loadLeave)
theorem Keeps.rebuildSec {t w} : Keeps s₀ (rebuildSec t s w) := .ite h h.secWriteRec
theorem Keeps.rebuildRec {w} : Keeps s₀ (rebuildRec s w) := .ite h h.recWhole
theorem Keeps.measNext {digest} : Keeps s₀ (measNext digest s) := h.setJig
theorem Keeps.rebuildEntry {t} : Keeps s₀ (rebuildEntry s t) := .bump (.measNext (.foldl h fun _ _ k => k.rebuildRec))

theorem Keeps.rebuild : Keeps s₀ (rebuild s) := by
  unfold Machine.rebuild
  extract_lets +onlyGivenNames _ _ _ _ _ s₁ _ s₂ _ _ s₃
  have h₁ : Keeps s₀ s₁ := .foldl h.imageKept fun _ _ k => .foldl k fun _ _ k => k.rebuildSec
  have h₂ : Keeps s₀ s₂ := .foldl h₁.setJig fun _ _ k => k.rebuildEntry
  have h₃ : Keeps s₀ s₃ := h₂.wr.setJig.loadStatus
  split
  · exact h.setGlue.enterFault
  · split
    · exact .loadLeave h₃.devWord.wr.log
    · exact .ite (.loadLeave h₃.setGlue.wrF.log.bump) (.loadLeave h₃.setGlue)

theorem Keeps.loadComplete' {clean} : Keeps s₀ (loadComplete' clean s) := .ite h (.ite h.rebuild h.loadFlash)
theorem Keeps.compact : Keeps s₀ (compact s) := h.devTiles.jrnlEmpty.imageKept

end Sys2Proof.Machine
end

section
/-! What a step keeps: glue-up. -/
namespace Sys2Proof.Machine

variable {s₀ s : State} (h : Keeps s₀ s)
include h

theorem Keeps.fitFailed {k} : Keeps s₀ (fitFailed k s) := h.nextFresh.wrF.wrF
theorem Keeps.glueRecord : Keeps s₀ (glueRecord s) := h.log

theorem Keeps.dryfitDone : Keeps s₀ (dryfitDone s) := by
  unfold Machine.dryfitDone
  refine .ite h ?_
  split
  · exact h.setDv.setGlue
  · exact h.fitFailed.glueEnd.glueRecord

theorem Keeps.journalOpen : Keeps s₀ (journalOpen s) := by
  unfold Machine.journalOpen
  extract_lets +onlyGivenNames _ _ _ _ s₁ _ _ _
  have h₁ : Keeps s₀ s₁ := .foldl h fun _ _ k => k.devTile
  exact (h₁.devWord.ite h₁).devTile.devWord.setJig.wr

theorem Keeps.journalDone : Keeps s₀ (journalDone s) := h.devWord

theorem Keeps.glueRestart : Keeps s₀ (glueRestart s) := by
  unfold Machine.glueRestart
  extract_lets +onlyGivenNames _ s₁ _
  have h₁ : Keeps s₀ s₁ := .ite h.upd.wrF.floorCheckDone h.upd
  split
  · refine .ite ?_ h₁.setJig
    refine .boundaryOn ?_
    split
    · exact .ite h₁.setJig.setBnd.dovLoops.setBnd h₁.setJig.setBnd.dovLoops
    · exact h₁.setJig.setBnd.dovLoops
  · exact h₁.setJig

theorem Keeps.glueFails {result} : Keeps s₀ (glueFails result s) := h.glueEnd.glueRecord.glueRestart

theorem Keeps.applyEnd : Keeps s₀ (applyEnd s) :=
  have h₁ := h.digestNow.ite h
  (h₁.compact.ite h₁.journalDone).measNext.glueClose.bump.glueRestart

theorem Keeps.applyFrom {n i} : Keeps s₀ (applyFrom n i s) := by
  induction n generalizing s i with
  | zero => exact h.applyEnd
  | succ n ih => exact .ite (.ite h.ctxResetWrite.setJig (ih h.ctxResetWrite)) (ih h.recApply)

theorem Keeps.applyBegin : Keeps s₀ (applyBegin s) := h.journalOpen.setGlue.setJig.applyFrom

theorem Keeps.applyOn : Keeps s₀ (applyOn s) := by
  unfold Machine.applyOn
  split
  · exact .ite h.setJig.applyFrom h
  · exact h

theorem Keeps.glueVoted {sum} : Keeps s₀ (glueVoted sum s) := .ite h (.ite h.applyBegin h.glueFails)

theorem Keeps.glueVoteBegin {bad} : Keeps s₀ (glueVoteBegin bad s) :=
  have h₁ := h.setJig.setGlue
  .ite h₁.glueVoted h₁.setJig.defer

theorem Keeps.voteTimeout : Keeps s₀ (voteTimeout s) := by
  unfold Machine.voteTimeout
  refine .ite h ?_
  refine .glueFails ?_
  split
  · exact h.advanceTo.setGlue.instFail
  · exact h.advanceTo.setGlue.setC.colFail

theorem Keeps.glueGo : Keeps s₀ (glueGo s) := .ite h.applyBegin h.applyOn

theorem Keeps.glueFetched {tiles} : Keeps s₀ (glueFetched tiles s) := by
  unfold Machine.glueFetched
  refine .ite h ?_
  dsimp only
  split
  · exact .ite h (.glueGo (.setJig (.foldl h fun _ _ k => k.setRurilTile)))
  · exact h.fitFailed.glueEnd.glueRecord

theorem Keeps.glueStop : Keeps s₀ (glueStop s) := h.upd.setJig.setGlue

theorem Keeps.glueStopped : Keeps s₀ (glueStopped s) := by
  unfold Machine.glueStopped
  refine .ite h ?_
  refine .ite h.glueVoteBegin ?_
  split
  · exact h.glueVoteBegin
  · exact h.fitFailed.glueVoteBegin

theorem Keeps.stopTimeout : Keeps s₀ (stopTimeout s) := .ite h h.advanceTo.glueVoteBegin

end Sys2Proof.Machine
end

section
/-! What a step keeps: the sideband. -/
namespace Sys2Proof.Machine

variable {s₀ s : State} (h : Keeps s₀ s)
include h

theorem Keeps.sbTransfer {k} (hk : ∀ t, Keeps s₀ t → Keeps s₀ (k t)) : Keeps s₀ (sbTransfer k s) :=
  .ite h (hk _ h.bump)
theorem Keeps.sbData {bs} : Keeps s₀ (sbData bs s) := h.upd

theorem Keeps.winWrite {addr data} : Keeps s₀ (winWrite addr data s) := by
  unfold Machine.winWrite
  refine .sbTransfer h fun _ k => ?_
  refine .ite k.sbFail ?_
  refine .ite k.sbFail ?_
  exact
    have h₁ := k.sbLast.hostWriteTile
    .ite h₁.hostWriteTile h₁

theorem Keeps.mboxWrite {addr data} : Keeps s₀ (mboxWrite addr data s) :=
  .sbTransfer h fun _ k => .ite k.sbFail k.sbLast.upd
theorem Keeps.mboxGo : Keeps s₀ (mboxGo s) := .sbTransfer h fun _ k => .ite k.sbFail k.sbLast.attestBytes
theorem Keeps.mboxRead {addr} : Keeps s₀ (mboxRead addr s) := .sbTransfer h fun _ k => k.sbLast.sbData
theorem Keeps.privateRead {n} : Keeps s₀ (privateRead n s) := .ite h h.emit
theorem Keeps.sbUndefined {cmd} : Keeps s₀ (sbUndefined cmd s) := .ite h (.sbTransfer h fun _ k => k.sbFail)
theorem Keeps.cblOff {n} : Keeps s₀ (cblOff n s) := .ite h.setPort h
theorem Keeps.cblRetry {n} : Keeps s₀ (cblRetry n s) := .ite h.setPort h

end Sys2Proof.Machine
end

section
/-! What a step keeps: the work that a step leaves for its end, and the reception of packets. -/
namespace Sys2Proof.Machine

variable {s₀ s : State} (h : Keeps s₀ s)
include h

theorem Keeps.teardownCtx {c} : Keeps s₀ (teardownCtx c s) :=
  h.ctxSeqsStop.colTeardown.fabricTeardown.dovTeardown.tierTeardown.ctxLocks.endDeferrals.upd.pumpAll.devFollow.defer

theorem Keeps.boundaryWork : Keeps s₀ (boundaryWork s) := by
  unfold Machine.boundaryWork
  split
  · exact h
  · exact
      have h₁ := h.dovCuts.tierPhase1.cutBoundary
      .ite h₁.setX.glueStop.setBnd (.ite h₁.setX.setBnd.dovLoops.setBnd h₁.setX.setBnd.dovLoops.runPhase2)

theorem Keeps.giveBackOne {p} : Keeps s₀ (giveBackOne s p) := by
  unfold Machine.giveBackOne
  refine .ite ?_ h.giveBackJob
  split
  · exact h.clampBack
  · exact h.twinBack
  · exact h.netSend

theorem Keeps.colAdvanceAll : Keeps s₀ (colAdvanceAll s) := .foldl h fun _ _ k => k.colAdvance
theorem Keeps.colStartWork {code g ctx tiles} : Keeps s₀ (colStartWork code g ctx tiles s) := h.colStartDov.colAdvance
theorem Keeps.colDoneWork {code tiles} : Keeps s₀ (colDoneWork code tiles s) := .ite h.glueVoted h.dovColDone
theorem Keeps.colErrorWork {code cause} : Keeps s₀ (colErrorWork code cause s) := .ite h.glueVoted h.dovColError

theorem Keeps.ackedWork {o} : Keeps s₀ (ackedWork o s) := by
  unfold Machine.ackedWork
  split
  · exact h.sendAcked
  · exact h.colAcked
  · exact h

theorem Keeps.doWork {w} : Keeps s₀ (doWork w s) := by
  unfold Machine.doWork
  split
  · exact (h.boundaryTry.ite h).colTriggers.colAdvanceAll
  · exact h.teardownCtx
  · exact h.colStartWork
  · exact h.colDoneWork
  · exact h.colErrorWork
  · exact h.colTriggers.colAdvanceAll
  · exact h.glueVoted
  · exact h.glueGo
  · exact h.dovMiss
  · exact h.bookHeld
  · exact h.failHeld
  · exact h.markCheck
  · exact h.boundaryWork
  · exact .pumpAll (.foldl h fun _ _ k => k.giveBackOne)
  · exact h.colArrive.colAdvance
  · exact h.dovMessage
  · exact h.ackedWork
  · exact h.partArrive
  · exact h.dovRound

theorem Keeps.settleN {n} : Keeps s₀ (settleN n s) := by
  induction n generalizing s with
  | zero => exact h
  | succ n ih =>
    unfold Machine.settleN
    split
    · exact h
    · exact ih h.upd.doWork

theorem Keeps.settle : Keeps s₀ (settle s) := h.settleN
theorem Keeps.settleAll : Keeps s₀ (settleAll s) := h.colAdvanceAll.colRunAgain.settle

theorem Keeps.packetTake {n p is k} (hk : ∀ p t, Keeps s₀ t → Keeps s₀ (k p t)) :
    Keeps s₀ (packetTake n p is k s) := by
  unfold Machine.packetTake
  refine .ite h ?_
  split
  · exact h
  · dsimp only
    split
    · exact h.takePacket.bump
    · exact (hk _ _ h.takePacket).settle

theorem Keeps.xportTake {k p} (hk : ∀ t, Keeps s₀ t → Keeps s₀ (k t)) : Keeps s₀ (xportTake k p s) :=
  .ite (hk _ h) h.bump
theorem Keeps.chunkTake {p} : Keeps s₀ (chunkTake p s) :=
  .ite (.ite h.bump h.bump.snackSend) (.ite h.treeReceive h.pairReceive)
theorem Keeps.emptyTake {p} : Keeps s₀ (emptyTake p s) := .ite h.treeReceive h.pairReceive
theorem Keeps.ackTake' {p} : Keeps s₀ (ackTake' p s) := .ite h h.ackReceive
theorem Keeps.snackTake {p} : Keeps s₀ (snackTake p s) := .ite h h.snackReceive
theorem Keeps.syncTake {p} : Keeps s₀ (syncTake p s) := .ite h h.syncReceive

theorem Keeps.fabTransfer {i e} : Keeps s₀ (fabTransfer i e s) := by
  unfold Machine.fabTransfer
  split
  · exact h
  · split
    · exact h.sendRead
    · exact h.recvLand
    · exact h.colRead.colAdvance
    · exact h.colWrite.colAdvance

theorem Keeps.recvComplete {b q} : Keeps s₀ (recvComplete b q s) := by
  unfold Machine.recvComplete
  split
  · exact .ite h.inboxRecv h.recvDone
  · exact h

theorem Keeps.stepBegins : Keeps s₀ (stepBegins s) := by
  unfold Machine.stepBegins
  split
  · exact .ite h.newStep.dovNewStep.boundaryTry h
  · exact h

theorem Keeps.ctxResetEnds {c} : Keeps s₀ (ctxResetEnds c s) := by
  unfold Machine.ctxResetEnds
  split
  · exact h.advanceTo.ctxResetDone.defer
  · exact h

end Sys2Proof.Machine
end

section
/-! What a step keeps: the rows of the commands. -/
namespace Sys2Proof.Machine

variable {s₀ s : State} (h : Keeps s₀ s)
include h

theorem Keeps.seqRow {b q f} (hf : ∀ t, Keeps s₀ t → Keeps s₀ (f t)) : NextKeeps s₀ (seqRow b q f s) :=
  .check (.check (.next (.ite (hf _ h).settle h)))
theorem Keeps.benchRow {b f} (hf : ∀ t, Keeps s₀ t → Keeps s₀ (f t)) : NextKeeps s₀ (benchRow b f s) :=
  .check (.next (.ite (hf _ h).settle h))
theorem Keeps.regRow {off a src} : NextKeeps s₀ (regRow off a src s) := .next h.regAccess.settleAll
theorem Keeps.benchReg {b off a src} : NextKeeps s₀ (benchReg b off a src s) := h.regRow.check
theorem Keeps.unitRow {f} (hf : ∀ t, Keeps s₀ t → Keeps s₀ (f t)) : NextKeeps s₀ (unitRow f s) :=
  .next (.ite (hf _ h).settle h)
theorem Keeps.objRow {o f} (hf : ∀ t, Keeps s₀ t → Keeps s₀ (f t)) : NextKeeps s₀ (objRow o f s) :=
  .check (.unitRow h fun _ k => (hf _ k))
theorem Keeps.slotRow {n f} (hf : ∀ t, Keeps s₀ t → Keeps s₀ (f t)) : NextKeeps s₀ (slotRow n f s) :=
  .check (.unitRow h fun _ k => (hf _ k))
theorem Keeps.softReq {op c obj w1} : Keeps s₀ (softReq op c obj w1 s) := h.wr.submitReq
theorem Keeps.portRow {n f} (hf : ∀ t, Keeps s₀ t → Keeps s₀ (f t)) : NextKeeps s₀ (portRow n f s) :=
  .check (.unitRow h fun _ k => (hf _ k))
theorem Keeps.portReg {n off v src} : NextKeeps s₀ (portReg n off v src s) := h.regRow.check

theorem Keeps.packetRow {n p is k} (hk : ∀ x t, Keeps s₀ t → Keeps s₀ (k x t)) :
    NextKeeps s₀ (packetRow n p is k s) :=
  .check (.next (.packetTake h fun _ _ k => (hk _ _ k)))

theorem Keeps.xportRow {n p type k} (hk : ∀ x t, Keeps s₀ t → Keeps s₀ (k x t)) :
    NextKeeps s₀ (xportRow n p type k s) :=
  .packetRow h fun _ _ k => .xportTake k fun _ k => (hk _ _ k)

theorem Keeps.ctlRow {n p type k} (hk : ∀ t, Keeps s₀ t → Keeps s₀ (k t)) : NextKeeps s₀ (ctlRow n p type k s) :=
  .packetRow h fun _ _ k => (hk _ k)
theorem Keeps.ctxRow {c f} (hf : ∀ t, Keeps s₀ t → Keeps s₀ (f t)) : NextKeeps s₀ (ctxRow c f s) :=
  .check (.unitRow h fun _ k => (hf _ k))
theorem Keeps.ctxReg {c off v src} : NextKeeps s₀ (ctxReg c off v src s) := h.regRow.check

theorem Keeps.doorbell {r off src f} (hf : ∀ t, Keeps s₀ t → Keeps s₀ (f t)) :
    NextKeeps s₀ (doorbell r off src f s) :=
  .check (.next (.ite (.ite h.refuse (hf _ h).settle) h))

theorem Keeps.ringReg {r off v src} : NextKeeps s₀ (ringReg r off v src s) := h.regRow.check
theorem Keeps.busRow {f} (hf : ∀ t, Keeps s₀ t → Keeps s₀ (f t)) : NextKeeps s₀ (busRow f s) := .next (hf _ h)

end Sys2Proof.Machine
end

section
/-! What a step keeps: every command, and the step (O54). -/
namespace Sys2Proof.Machine

/-- Every command keeps the canonical form, the range of the device state and the queue. -/
theorem exec_keeps (i : Instr) (s : State) : NextKeeps s (exec i s) := by
  have h := Keeps.refl s
  cases i with
  | nop => exact .seqRow h fun _ k => .issue k fun _ _ k => k.issueNop
  | pass => exact .seqRow h fun _ k => .issue k fun _ _ k => k.issuePass
  | passDispatch => exact .seqRow h fun _ k => .unitAct k fun _ k => k.passDispatch
  | passAccumulate => exact .seqRow h fun _ k => k.passAccumulate
  | swap => exact .seqRow h fun _ k => .issue k fun _ _ k => k.issueSwap
  | shave => exact .seqRow h fun _ k => .issue k fun _ _ k => k.issueShave
  | shaveStart => exact .seqRow h fun _ k => .unitAct k fun _ k => k.shaveStart
  | shaveComplete => exact .seqRow h fun _ k => k.shaveComplete
  | sand => exact .seqRow h fun _ k => .issue k fun _ _ k => k.issueSand
  | sandStart => exact .seqRow h fun _ k => .unitAct k fun _ k => k.sandStart
  | sandComplete => exact .seqRow h fun _ k => .unitAct k fun _ k => k.sandComplete
  | loadStile | loadHold => exact .seqRow h fun _ k => .issue k fun _ _ k => k.issueLoad
  | loadUnitBegin => exact .seqRow h fun _ k => .unitAct k fun _ k => k.loadBegin
  | loadComplete => exact .seqRow h fun _ k => k.loadComplete
  | store => exact .seqRow h fun _ k => .issue k fun _ _ k => k.issueStore
  | storeStart => exact .seqRow h fun _ k => .unitAct k fun _ k => k.storeStart
  | storeComplete => exact .seqRow h fun _ k => .unitAct k fun _ k => k.storeComplete
  | moveISet | moveIAdd | moveIShl => exact .seqRow h fun _ k => .issue k fun _ _ k => k.issueMoveI
  | moveIGet => exact .seqRow h fun _ k => .issue k fun _ _ k => k.issueMoveGet
  | moveTOut | moveTIn => exact .seqRow h fun _ k => .issue k fun _ _ k => k.issueMoveT
  | moveTComplete => exact .seqRow h fun _ k => k.moveComplete
  | send => exact .seqRow h fun _ k => .issue k fun _ _ k => k.issueSend
  | recv => exact .seqRow h fun _ k => .issue k fun _ _ k => k.issueRecv
  | recvTakeMessage => exact .seqRow h fun _ k => k.recvTake
  | recvComplete => exact .seqRow h fun _ k => k.recvComplete
  | semWait => exact .seqRow h fun _ k => .issue k fun _ _ k => k.issueSemWait
  | semWaitServed => exact .seqRow h fun _ k => k.semServe
  | semSignal => exact .seqRow h fun _ k => .issue k fun _ _ k => k.issueSemSignal
  | sync => exact .seqRow h fun _ k => .issue k fun _ _ k => k.issueSync
  | syncRelease => exact .seqRow h fun _ k => k.syncRelease
  | loop => exact .seqRow h fun _ k => .issue k fun _ _ k => k.issueLoop
  | branchEq | branchNe | branchLt | branchGe | branchLtu | branchGeu | branchAl =>
    exact .seqRow h fun _ k => .issue k fun _ _ k => k.issueBranch
  | halt => exact .seqRow h fun _ k => .issue k fun _ _ k => k.issueHalt
  | trap => exact .seqRow h fun _ k => .issue k fun _ _ k => k.issueTrap
  | executionPastEnd => exact .seqRow h fun _ k => k.pastEnd
  | tileRefetchDone => exact .benchRow h fun _ k => k.refetchDone
  | benCtlWrite | benImemDataWrite | benImemDataRead | benStartGo0 | benStartGo1 | benReset
  | benExcFirstClear | benCheckFirstClear | benExcCtlWrite | benFdescDataAccess | benFloorSysWrite => exact h.benchReg
  | sequencerStart => exact .seqRow h fun _ k => k.seqStart
  | benchResetSettle => exact .benchRow h fun _ k => k.benchSettle
  | benFaultClear => exact h.benchReg.check
  | glbFloorArm | glbFloorDisarm | tirObjDataAccess | tirPoisonFirstClear | bpmPoolInit | bpmStepEnd
  | bpmSlotReq | bpmSlotDataRead | dovCtlEnWrite | dovLayerDataAccess | dovSelDataAccess | dovDispDataAccess
  | dovMapDataAccess | dovLocDataAccess | fabJobCtlStart | fabJobCtlTeardown | fabRankDataAccess
  | fabPlaneDataAccess | fabTreeDataAccess | fabXdescDataAccess | fabTreeFailedClear | colStart
  | colGroupDataAccess | colListDataAccess | colDescDataAccess | colGseqDataWrite | ctxBenchDataAccess
  | ctxSemDataWrite | detClampCtlWrite | detClampFirstClear | detMarkCfgWrite | detMarkCtlArrive
  | detMarkCtlCancel | jigCtlProgram | jigCtlResume | jigGlueDryfit | jigGlueGo | jigGlueCancel
  | glbStateCtlStop | glbResetCtlWarm | glbSupplyAuxLostClear | klnWarnClear | mgtTrayWrite | secFuseBurnSvn
  | secFuseBurnOwner | errHeadWrite | glbBadFirstClear | ctxSemDataRead | colGseqDataRead => exact h.regRow
  | floorArmCheckDone => exact .next (.ite h h.floorCheckDone)
  | tirReqPromote | tirReqEvict | tirReqFlush | tirReqUnpin => exact .check (.unitRow h fun _ k => k.softReq)
  | tierTileTransferDone => exact .unitRow h fun _ k => k.tierTransfer
  | promotionComplete => exact .objRow h fun _ k => k.promotionDone
  | writebackComplete => exact .objRow h fun _ k => k.writebackDone
  | flushComplete => exact .objRow h fun _ k => k.flushDone
  | recoveryTileReceive => exact .objRow h fun _ k => k.recoveryTile
  | recoverySourceTimeout => exact .objRow h fun _ k => k.recoveryTimeout
  | rurilScrub => exact .next (.ite h h.scrub.settle)
  | bpmAlloc | bpmShare | bpmDrop | bpmFree => exact .unitRow h fun _ k => k.poolReq
  | poolInitDone => exact .next (.ite h h.poolInit)
  | stepBoundaryBegin => exact .unitRow h fun _ k => k.boundaryTry
  | parkCopyDone => exact .slotRow h fun _ k => k.parkCopyDone
  | resumeCopyDone => exact .slotRow h fun _ k => k.resumeCopyDone
  | newStepStart => exact .unitRow h fun _ k => k.stepBegins
  | dovCtxTokensWrite => exact h.regRow.check
  | layerDescriptorStart => exact .unitRow h fun _ k => k.descStart
  | scoreTileArrive => exact .seqRow h fun _ k => k.scoreArrive
  | gaugeTokenStart => exact .unitRow h fun _ k => k.gaugeStart
  | selectionReady => exact .unitRow h fun _ k => k.selectionReady
  | capacityWalkEnter => exact .unitRow h fun _ k => k.walkEnter
  | outboxRead => exact .unitRow h fun _ k => k.outboxRead
  | dovetailTileTransferDone => exact .unitRow h fun _ k => k.dovTransfer
  | fabPortEnable | fabPortReset | fabPortRetrain | fabLinkCfgWrite => exact h.portReg
  | linkSignalDetect => exact .portRow h fun _ k => by split; exacts [k.signalDetect, k]
  | eqDone => exact .portRow h fun _ k => k.eqDone
  | eqTimeout => exact .portRow h fun _ k => k.eqTimeout
  | identExchange => exact .portRow h fun _ k => k.identExchange
  | identTimeout | alignTimeout => exact .portRow h fun _ k => k.stageTimeout
  | alignLock => exact .portRow h fun _ k => k.alignLock.pumpAll
  | retrainPatternDetect => exact .portRow h fun _ k => k.retrainPattern
  | retrainLock => exact .portRow h fun _ k => k.retrainLock.pumpAll
  | retrainTimeout => exact .portRow h fun _ k => k.retrainTimeout
  | downRetryExpire => exact .portRow h fun _ k => k.downRetry
  | fecBlockSend => exact .portRow h fun _ k => k.blockSend
  | fecBlockReceive => exact .portRow h fun _ k => k.blockReceive
  | replayTimerExpire => exact .portRow h fun _ k => k.replayTimer
  | nakWaitExpire => exact .portRow h fun _ k => k.nakWaitExpire
  | jobStart => exact .ctlRow h fun _ k => k.jobStartPacket
  | teardown => exact .ctlRow h fun _ k => k.teardownPacket
  | startPortsReady => exact .unitRow h fun _ k => k.startPortsReady
  | drainComplete => exact .unitRow h fun _ k => k.drainComplete
  | drainTimeout => exact .unitRow h fun _ k => k.drainTimeout
  | chunk => exact .xportRow h fun _ _ k => k.chunkTake
  | empty => exact .xportRow h fun _ _ k => k.emptyTake
  | ack => exact .xportRow h fun _ _ k => k.ackTake'
  | snack => exact .xportRow h fun _ _ k => k.snackTake
  | xportSync => exact .xportRow h fun _ _ k => k.syncTake
  | v2CellPacket => exact .packetRow h fun _ _ k => k.v2Receive
  | xportAckTimer => exact .unitRow h fun _ k => k.ackTimer
  | rtoExpire => exact .unitRow h fun _ k => k.rtoExpire
  | fabricTileTransferDone => exact .unitRow h fun _ k => k.fabTransfer
  | resend => exact .ctlRow h fun _ k => k.resendReceive
  | reattach => exact .ctlRow h fun _ k => k.reattachReceive
  | treeFail => exact .ctlRow h fun _ k => k.treeFailReceive
  | treeTimeout => exact .unitRow h fun _ k => k.treeTimeout
  | collectiveSlotGranted => exact .ctxRow h fun _ k => k.slotGranted
  | slotWaitTimeout => exact .ctxRow h fun _ k => k.slotWaitTimeout
  | openLimitTimeout => exact .unitRow h fun _ k => k.openLimit
  | abort => exact .ctlRow h fun _ k => k.abortReceive
  | ctxCtlStart | ctxCtlTeardown | detTccFirstClear | ctxReset => exact h.ctxReg
  | teardownSlotRelease => exact .ctxRow h fun _ k => k.ctxStep7.boundaryTry
  | holdTimeout => exact .ctxRow h fun _ k => k.holdExpire
  | clampPacketSend => exact .unitRow h fun _ k => k.clampSend
  | clamp => exact .ctlRow h fun _ k => k.clampReceive
  | arrive => exact .ctlRow h fun _ k => k.arriveReceive
  | mark => exact .packetRow h fun _ _ k => k.markReceive
  | twinMark => exact .packetRow h fun _ _ k => k.twinReceive
  | markRelease => exact .unitRow h fun _ k => k.markRelease
  | markWaitTimeout => exact .unitRow h fun _ k => k.markTimeout
  | jigLoadComplete => exact .next h.loadComplete'.settleAll
  | programComplete => exact .next h.programDone.settle
  | dryfitComplete => exact .unitRow h fun _ k => k.dryfitDone
  | glueFetchDone => exact .next (.ite h.glueFetched.settleAll h)
  | glueStopDone => exact .next (.ite h.glueStopped.settleAll h)
  | glueStopTimeout => exact .next (.ite h.stopTimeout.settleAll h)
  | glueVoteTimeout => exact .next (.ite h.voteTimeout.settleAll h)
  | auxGood => exact .next h.auxGood.settle
  | auxLost => exact .next h.auxLost.settle
  | mainGood => exact .next h.mainGood.settle
  | mainLost => exact .next h.mainLost
  | coldResetRelease => exact .next h.coldRelease.settle
  | rurilTrainDone => exact .next h.rurilTrained
  | trainComplete => exact .next h.trainDone.settleAll
  | trainTimeout => exact .next h.trainTimeout.settleAll
  | refLost => exact .next h.refLost.settle
  | rootUnlock => exact .next h.rootUnlock.settle
  | clockFault => exact .next h.clockFault.settle
  | regulatorFault => exact .next h.regulatorFault.settle
  | lanePllUnlock => exact .portRow h fun _ k => k.lanePll
  | hostPllUnlock | hostLinkLoss => exact .next h.linkLoss.settle
  | modResetNAssert => exact .next h.modReset
  | warmResetRelease => exact .next h.warmRelease.settle
  | perstNAssert => exact .next h.perstAssert.settle
  | perstNRelease => exact .next h.perstRelease.settle
  | ctxResetComplete => exact .check (.next (.ite h h.ctxResetEnds.settle))
  | hostLinkTrained => exact .next h.linkTrained.settle
  | hostLinkRetryTimer => exact .next h.linkRetry.settle
  | hotReset | linkDisable => exact .next h.linkReset.settle
  | flr => exact .next h.flr.settle
  | cxlMemRead => exact .next h.memReadReq.settle
  | cxlMemWrite => exact .next h.memWriteReq.settle
  | h2dSnoop => exact .next h.snoop
  | irTail => exact .doorbell h fun _ k => k.irTailWrite
  | intakeFetchDone => exact .check (.unitRow h fun _ k => k.fetchDone)
  | crHead => exact .doorbell h fun _ k => k.crHeadWrite
  | glbHifIrCfgWrite | glbHifCrCfgWrite => exact h.ringReg
  | hostReadTimeout => exact .next h.hostReadTimeout.settle
  | msixCoalesceExpire => exact .check (.next h.coalExpire.settle)
  | doeDiscovery => exact .next h.doeDiscovery
  | cdatTableAccess => exact .next h.cdatAccess
  | getCert => exact .next h.certGet
  | getReport => exact .next h.reportGet
  | kemStart => exact .next h.kemBegin
  | kemFinish => exact .next h.kemEnd
  | kemKeyExpire => exact .next h.kemExpire
  | ideMacFail => exact .next h.ideMacFail.settle
  | kilnControlPeriod => exact .next h.kilnPeriod.settle
  | avsInterval => exact .next h.avsInterval.settle
  | droopDetect => exact .next h.droopDetect
  | droopHoldEnd => exact .next h.droopEnd
  | kilnOverpower => exact .next h.overpower.settle
  | estoreForecastSend => exact .next h.forecastSend
  | estoreCapFrame => exact .next h.capFrame
  | estoreLossTimeout => exact .next h.capLoss.settle
  | valveLoopStep => exact .next h.valveStep
  | valveFbMismatch => exact .next h.valveMismatch.settle
  | thermalSample => exact .next h.thermalSample.settle
  | junctionTrip => exact .next h.junctionTrip.settle
  | coolantTrip => exact .next h.coolantTrip.settle
  | klnRegisterWrite => exact .ite h.regRow (.next h)
  | entdaa => exact .busRow h fun _ k => k.daAssign
  | rstdaa => exact .busRow h fun _ k => k.daReset
  | enec | disec => exact .busRow h fun _ k => k.eventsEnable
  | getpid | getbcr | getdcr | getstatus | getmwl | getmrl => exact .busRow h fun _ k => k.cccAnswer
  | ibiSend => exact .busRow h fun _ k => k.ibiSend
  | regRead | regWrite | registerWrite | registerRead => exact .next h.sizedAccess.settleAll
  | winWrite => exact .busRow h fun _ k => k.winWrite
  | mboxWrite => exact .busRow h fun _ k => k.mboxWrite
  | mboxGo => exact .busRow h fun _ k => k.mboxGo
  | mboxRead => exact .busRow h fun _ k => k.mboxRead
  | sidebandPrivateRead => exact .busRow h fun _ k => k.privateRead
  | fuseBurnDone => exact .next h.burnDone.settle
  | lowerTreeBuildDone => exact .next h.treeBuilt
  | signTokenRefill => exact .next h.tokenRefill
  | laneLockLost => exact .portRow h fun _ k => k.laneLost
  | cbl3v3Overcurrent => exact .check (.next h.cblOff)
  | cbl3v3Retry => exact .check (.next h.cblRetry)
  | configSpaceWrite => exact .next h.configWrite
  | msixTableWrite => exact .next h.msixWrite
  | sidebandUndefinedCmd => exact .busRow h fun _ k => k.sbUndefined

/-- The command that a step takes from the queue, or the idle cycle, keeps the canonical form. -/
theorem canonical_step {s t : State} (hs : s.canonical = true) (e : step s = .next t) : t.canonical = true := by
  unfold step at e
  split at e
  · cases e
    exact (Keeps.refl s).idle.form hs
  · exact (exec_keeps _ _ t e).form (canonical_of_maps rfl rfl rfl rfl rfl rfl hs)

end Sys2Proof.Machine

namespace Sys2Proof.Proofs
open Sys2Proof Sys2Proof.Machine

/-- Settles O54: every operation that a command is made of keeps the canonical form (`exec_keeps`). -/
theorem stepKeepsCanonicalForm : Obligations.StepKeepsCanonicalForm := fun _ _ hs e => canonical_step hs e

end Sys2Proof.Proofs
end

section
/-!
The data registers of the tables (O17, O19): what a read of each answers, and what a write of the object, bench and semaphore
tables stores or is refused.
-/
namespace Sys2Proof.Machine

/-! ## The data registers (R522) -/

/-- The registers through which the tables are read, each with what a read of it does. -/
def tableReads : List (Nat × (Src → State → State)) :=
  [(Reg.TIR_OBJ_DATA, objAccess .read), (Reg.DOV_LAYER_DATA, layerAccess .read), (Reg.DOV_SEL_DATA, selAccess .read),
   (Reg.DOV_DISP_DATA, dispAccess .read), (Reg.DOV_MAP_DATA, mapAccess .read), (Reg.DOV_LOC_DATA, locAccess .read),
   (Reg.FAB_RANK_DATA, rankAccess .read), (Reg.FAB_PLANE_DATA, planeAccess .read), (Reg.FAB_TREE_DATA, treeAccess .read),
   (Reg.FAB_XDESC_DATA, xdescAccess .read), (Reg.COL_GROUP_DATA, groupAccess .read), (Reg.COL_LIST_DATA, listAccess .read),
   (Reg.COL_DESC_DATA, descAccess .read), (Reg.COL_GSEQ_DATA, gseqAccess .read), (Reg.BPM_SLOT_DATA, slotDataRead),
   (Reg.CTX_SEM_DATA, semDataRead), (Reg.CTX_BENCH_DATA, benchTabAccess .read)]

/-- The registers whose writes this part is about, each with what a write does. -/
def tierWrites : List (Nat × (Word → Src → State → State)) :=
  [(Reg.TIR_OBJ_DATA, fun v => objAccess (.write v)), (Reg.CTX_BENCH_DATA, fun v => benchTabAccess (.write v)),
   (Reg.CTX_SEM_DATA, semDataWrite), (Reg.TIR_POISON_FIRST, fun v _ => poisonFirstWrite v)]

/-- The row of a register that stands alone puts it at place 0. -/
theorem rowPlace_single {off : Nat} (h : (regRowAt off).any (·.stride == 0) = true) :
    ∃ r, regRowAt off = some r ∧ rowPlace r off = 0 := by
  cases hr : regRowAt off with
  | none => simp [hr] at h
  | some r => exact ⟨r, rfl, if_pos (by simpa [hr] using h)⟩

theorem busAccess_tableReads (src : Src) (s : State) : ∀ p ∈ tableReads, busAccess src p.1 .read s = p.2 src s := by
  intro p hp
  obtain ⟨r, hr, hplace⟩ := rowPlace_single
    ((show ∀ p ∈ tableReads, (regRowAt p.1).any (·.stride == 0) = true by decide +kernel) p hp)
  rw [busRead_at src s hr, regRead, hplace]
  simp only [tableReads, List.mem_cons, List.not_mem_nil, or_false] at hp
  rcases hp with rfl | rfl | rfl | rfl | rfl | rfl | rfl | rfl | rfl | rfl | rfl | rfl | rfl | rfl | rfl | rfl | rfl <;> rfl

theorem busAccess_tierWrites (src : Src) (v : Word) (s : State) :
    ∀ p ∈ tierWrites, busAccess src p.1 (.write v) s = p.2 v src s := by
  intro p hp
  obtain ⟨r, hr, hplace⟩ := rowPlace_single
    ((show ∀ p ∈ tierWrites, (regRowAt p.1).any (·.stride == 0) = true by decide +kernel) p hp)
  rw [busWrite_at src v s hr, regWrite, hplace]
  simp only [tierWrites, List.mem_cons, List.not_mem_nil, or_false] at hp
  rcases hp with rfl | rfl | rfl | rfl <;> rfl

/-! ## Reads (R121, R125, R169, R317) -/

@[simp] theorem reply_regs (src : Src) (v : Word) (s : State) : (reply src v s).regs = s.regs := by cases src <;> rfl

/-- The index and the word of TIR_OBJ_ADDR are together its low 19 bits. -/
theorem objKey_addr (w : Word) :
    objKey (getF Fld.TIR_OBJ_ADDR_INDEX w) (getF Fld.TIR_OBJ_ADDR_WORD w) = Tab.OBJ (w.toNat % 2 ^ 19) := by
  unfold objKey getF
  congr 1
  norm_num only
  omega

theorem objAccess_read (src : Src) (s : State) : objAccess .read src s =
    wr Reg.TIR_OBJ_ADDR (w64 (((rd Reg.TIR_OBJ_ADDR s).toNat % 2 ^ 19 + 1) % 2 ^ 19))
      (reply src (tb (Tab.OBJ ((rd Reg.TIR_OBJ_ADDR s).toNat % 2 ^ 19)) s) s) := by
  rw [Nat.mod_add_mod]
  simp only [objAccess, objNext, rdF, objKey_addr, rd_of_regs _ (reply_regs ..)]

/-- A read of a bench's entry of the bench table. -/
theorem benchTabAccess_read (src : Src) {s : State} (h : rdF Reg.CTX_BENCH_ADDR Fld.CTX_BENCH_ADDR_INDEX s < 1176) :
    benchTabAccess .read src s = reply src (tb (Tab.BENCHTAB (rdF Reg.CTX_BENCH_ADDR Fld.CTX_BENCH_ADDR_INDEX s)) s)
      (wrF Reg.CTX_BENCH_ADDR Fld.CTX_BENCH_ADDR_INDEX (rdF Reg.CTX_BENCH_ADDR Fld.CTX_BENCH_ADDR_INDEX s + 1) s) := if_pos h

/-! ## Writes (R121, R122, R354, R359) -/

section
variable {o w : Nat} {v : Word} {s : State}

/-- The state with the writable bits of word `w` of descriptor `o` stored. -/
def objStored (o w : Nat) (v : Word) (s : State) : State :=
  tbW (objKey o w) ((tb (objKey o w) s &&& ~~~(objMask w)) ||| (v &&& objMask w)) s

/-- Words 6 and 7 keep their value. -/
theorem objWrite_pins (h : 6 ≤ w) : objWrite o w v s = some s := if_pos h

/-- A word of a descriptor that is not open is refused. -/
theorem objWrite_shut (hw : w < 6) (hp : s.priv = false) (ho : objOpen o s = false) : objWrite o w v s = none := by
  simp [objWrite, hp, ho]
  omega

/-- A word of an open descriptor is refused where the descriptor would be valid and not legal. -/
theorem objWrite_illegal (hw : w < 6) (hv : objF o 0 Fld.OBJ0_VALID (objStored o w v s) = 1)
    (hl : objLegal o (objStored o w v s) = false) : objWrite o w v s = none := by
  unfold objStored at hv hl
  simp [objWrite, hv, hl]
  omega

/-- A word of an open descriptor that stays legal is stored; the recovery of an object that had failed is forgotten (R138). -/
theorem objWrite_open (hw : w < 6) (ho : objOpen o s = true)
    (hl : objF o 0 Fld.OBJ0_VALID (objStored o w v s) = 1 → objLegal o (objStored o w v s) = true) :
    (¬ (objF o 0 Fld.OBJ0_VALID s = 1 ∧ objState o (objStored o w v s) = osPoisoned) →
      objWrite o w v s = some (objStored o w v s)) ∧
    (objF o 0 Fld.OBJ0_VALID s = 1 → objState o (objStored o w v s) = osPoisoned →
      objWrite o w v s = some (objW o 0 Fld.OBJ0_STATE osRuril { objStored o w v s with
        tier := { s.tier with recov := s.tier.recov.filter (fun r => r.obj != o) } })) := by
  have hbad : ¬ (objF o 0 Fld.OBJ0_VALID (objStored o w v s) == 1 && !objLegal o (objStored o w v s)) = true := by
    simpa using hl
  unfold objWrite
  rw [if_neg (by omega), if_neg (by simp [ho])]
  dsimp only
  rw [← objStored, if_neg hbad]
  constructor
  · exact fun hn => if_neg (by simpa using hn)
  · exact fun hv hs => if_pos (by simp [hv, hs])
end

/-- A write of TIR_OBJ_DATA that is taken. -/
theorem objAccess_taken {v : Word} {s t : State} (src : Src)
    (e : objWrite (rdF Reg.TIR_OBJ_ADDR Fld.TIR_OBJ_ADDR_INDEX s) (rdF Reg.TIR_OBJ_ADDR Fld.TIR_OBJ_ADDR_WORD s) v s = some t) :
    objAccess (.write v) src s = objNext t := by
  simp only [objAccess, e, Option.getD_some]

/-- A write of TIR_OBJ_DATA that is refused. -/
theorem objAccess_refused {v : Word} {s : State} (src : Src)
    (e : objWrite (rdF Reg.TIR_OBJ_ADDR Fld.TIR_OBJ_ADDR_INDEX s) (rdF Reg.TIR_OBJ_ADDR Fld.TIR_OBJ_ADDR_WORD s) v s = none) :
    objAccess (.write v) src s = objNext (refuse src Reg.TIR_OBJ_DATA s) := by
  simp only [objAccess, e, Option.getD_none]

/-- The limit of R354: the bench is there, and every context that its old or its new entry names is STOPPED or TORN. -/
def benchMay (b : Nat) (entry : Word) (s : State) : Prop :=
  b < 1176 ∧ ∀ c ∈ entryCtxs (tb (Tab.BENCHTAB b) s) ++ entryCtxs entry, ctxIdle c s = true

/-- The limits of R359: a change of the configuration wants the contexts of both entries STOPPED or TORN, and a change of VALUE
wants the lock not held. -/
def semMay (e v : Word) (s : State) : Prop :=
  (semCfg e = semCfg v ∨ ∀ c ∈ semCtxs e ++ semCtxs v, ctxIdle c s = true) ∧
    (getF Fld.SEM_VALUE e = getF Fld.SEM_VALUE v ∨ bitF Fld.SEM_HELD e = false)

section
variable {c : Nat} {e : Word}

theorem entryCtxs_lt (h : c ∈ entryCtxs e) : c < 16 := by
  have ha : getF Fld.CTX_BENCH_DATA_CTXA e < 16 := getF_lt _ _
  have hb : getF Fld.CTX_BENCH_DATA_CTXB e < 16 := getF_lt _ _
  unfold entryCtxs at h
  dsimp only at h
  split at h <;> simp at h <;> omega

theorem semCtxs_lt (h : c ∈ semCtxs e) : c < 16 := by
  have ho : getF Fld.SEM_OWNER e < 16 := getF_lt _ _
  have hp : getF Fld.SEM_PEER e < 16 := getF_lt _ _
  unfold semCtxs at h
  split at h <;> simp at h <;> omega

/-- A write of a register past the contexts' pages leaves their states. -/
theorem ctxIdle_wrF {off : Nat} (f : Fld) (x : Nat) (s : State) (ho : 0xC10000 ≤ off) (hc : c < 16) :
    ctxIdle c (wrF off f x s) = ctxIdle c s := by
  have h : Reg.CTX_STATUS c ≠ off := by unfold Reg.CTX_STATUS; omega
  simp only [ctxIdle, ctxState, rdF, rd_wrF_other _ _ _ h]

theorem benchMay_wrF {off b : Nat} (f : Fld) (x : Nat) (entry : Word) (s : State) (ho : 0xC10000 ≤ off) :
    benchMay b entry (wrF off f x s) ↔ benchMay b entry s := by
  refine and_congr_right fun _ => forall₂_congr fun c hc => ?_
  rw [ctxIdle_wrF f x s ho ((List.mem_append.1 hc).elim entryCtxs_lt entryCtxs_lt)]

theorem semMay_wrF {off : Nat} (f : Fld) (x : Nat) (e v : Word) (s : State) (ho : 0xC10000 ≤ off) :
    semMay e v (wrF off f x s) ↔ semMay e v s := by
  refine and_congr_left fun _ => or_congr_right (forall₂_congr fun c hc => ?_)
  rw [ctxIdle_wrF f x s ho ((List.mem_append.1 hc).elim semCtxs_lt semCtxs_lt)]
end

section
variable {v : Word} {s : State} (src : Src)

/-- Software's write of the bench table takes the entry's ten bits, or is refused; either way the address moves on. -/
theorem benchTabAccess_write (hp : s.priv = false) :
    let b := rdF Reg.CTX_BENCH_ADDR Fld.CTX_BENCH_ADDR_INDEX s
    let u := wrF Reg.CTX_BENCH_ADDR Fld.CTX_BENCH_ADDR_INDEX (b + 1) s
    (benchMay b (v &&& 0x3FF) s → benchTabAccess (.write v) src s = tbW (Tab.BENCHTAB b) (v &&& 0x3FF) u) ∧
    (¬ benchMay b (v &&& 0x3FF) s → benchTabAccess (.write v) src s = refuse src Reg.CTX_BENCH_DATA u) := by
  intro b u
  have hmay : (b < 1176 ∧ (u.priv || (entryCtxs (tb (Tab.BENCHTAB b) u) ++ entryCtxs (v &&& 0x3FF)).all
      (fun c => ctxIdle c u)) = true) ↔ benchMay b (v &&& 0x3FF) s := by
    have hpu : u.priv = false := hp
    rw [hpu, Bool.false_or, List.all_eq_true]
    exact benchMay_wrF _ _ _ s (by decide)
  exact ⟨fun h => if_pos (hmay.2 h), fun h => if_neg fun k => h (hmay.1 k)⟩

/-- Software's write of the semaphore table stores VALUE and the configuration, or is refused; either way the address moves on. -/
theorem semDataWrite_limits (hp : s.priv = false) :
    let n := rdF Reg.CTX_SEM_ADDR Fld.CTX_SEM_ADDR_INDEX s
    let u := wrF Reg.CTX_SEM_ADDR Fld.CTX_SEM_ADDR_INDEX (n + 1) s
    (semMay (semEntry n s) v s → semDataWrite v src s = semStore n v u) ∧
    (¬ semMay (semEntry n s) v s → semDataWrite v src s = refuse src Reg.CTX_SEM_DATA u) := by
  intro n u
  have hmay : (u.priv || ((semCfg (semEntry n u) == semCfg v || (semCtxs (semEntry n u) ++ semCtxs v).all (fun c => ctxIdle c u)) &&
      (getF Fld.SEM_VALUE (semEntry n u) == getF Fld.SEM_VALUE v || !bitF Fld.SEM_HELD (semEntry n u)))) = true ↔
      semMay (semEntry n s) v s := by
    have hpu : u.priv = false := hp
    rw [hpu, ← semMay_wrF Fld.CTX_SEM_ADDR_INDEX (n + 1) _ v s (show 0xC10000 ≤ Reg.CTX_SEM_ADDR by decide)]
    simp only [Bool.false_or, Bool.and_eq_true, Bool.or_eq_true, beq_iff_eq, List.all_eq_true, Bool.not_eq_true']
    rfl
  exact ⟨fun h => if_pos (hmay.2 h), fun h => if_neg fun k => h (hmay.1 k)⟩
end

section
variable (n : Nat) (v : Word) (s : State)

/-- The configuration of an entry is its field of bits 54 and up. -/
theorem semCfg_eq_getF (e : Word) : semCfg e = getF ⟨54, 10⟩ e := by
  have := e.isLt
  unfold semCfg getF
  norm_num only
  omega

theorem semEntry_semStore : semEntry n (semStore n v s) =
    setF ⟨54, 10⟩ (setF Fld.SEM_VALUE (semEntry n s) (getF Fld.SEM_VALUE v)) (semCfg v) := tb_tbW_same ..

/-- A stored entry has the written VALUE. -/
theorem semValue_semStore : semValue n (semStore n v s) = getF Fld.SEM_VALUE v := by
  rw [semValue, semEntry_semStore, getF_setF_other _ _ _ _ (by decide) (by decide), getF_setF_same _ _ _ (by decide)]
  exact Nat.mod_mod ..

/-- A stored entry has the written configuration. -/
theorem semCfg_semStore : semCfg (semEntry n (semStore n v s)) = semCfg v := by
  rw [semEntry_semStore, semCfg_eq_getF (setF ..), getF_setF_same _ _ _ (by decide), semCfg_eq_getF]
  exact Nat.mod_mod ..
end
end Sys2Proof.Machine

namespace Sys2Proof.Proofs
open Sys2Proof Sys2Proof.Machine

/-- Settles O17: each data register's read is its table's, which replies and moves the address on. -/
theorem tableReadsComplete : Obligations.TableReadsComplete := by
  intro src s q u place answers bench sem
  have qu : Quiet u := q.arrived src
  have through {data addr n : Nat} {key : Nat → Nat} (e : busAccess src data .read u =
      wr addr (w64 ((place addr n + 1) % 2 ^ n)) (reply src (tb (key (place addr n)) u) u)) (h : Reaches src data .read s) :
      regRow data .read src s = .next (wr addr (w64 ((place addr n + 1) % 2 ^ n)) (reply src (tb (key (place addr n)) u) u)) :=
    regRow_reaches h e ((qu.reply ..).wr _ _)
  have reads := busAccess_tableReads src u
  simp only [tableReads, List.forall_mem_cons, List.not_mem_nil, false_implies, implies_true, and_true] at reads
  obtain ⟨hobj, hlayer, hsel, hdisp, hmap, hloc, hrank, hplane, htree, hxdesc, hgroup, hlist, hdesc, hgseq,
    hslot, hsem, hbench⟩ := reads
  exact ⟨through (hobj.trans (objAccess_read src u)), through hlayer, through hsel, through hdisp, through hmap, through hloc,
    through hrank, through hplane, through htree, through hxdesc, through hgroup, through hlist, through hdesc, through hgseq,
    fun h => regRow_reaches h hslot ((qu.wr _ _).reply ..), fun h => regRow_reaches h hsem ((qu.wr _ _).reply ..),
    fun h hb => regRow_reaches h (hbench.trans (benchTabAccess_read src hb)) ((qu.wr _ _).reply ..)⟩

/-- Settles O19: a write of each table by its limits, which software meets or does not. -/
theorem contextTablesComplete : Obligations.ContextTablesComplete := by
  intro v src s q hp u o w t b bu entry mayBench n su e maySem obj
  have qu : Quiet u := q.arrived src
  have hpu : u.priv = false := (arrived_priv src s).trans hp
  have writes := busAccess_tierWrites src v u
  simp only [tierWrites, List.forall_mem_cons, List.not_mem_nil, false_implies, implies_true, and_true] at writes
  obtain ⟨hobj, hbench, hsem, -⟩ := writes
  have stored {x : State} (h : obj) (e : objWrite o w v u = some x) (k : Quiet x) :
      exec (.tirObjDataAccess (.write v) src) s = .next (objNext x) :=
    regRow_reaches h (hobj.trans (objAccess_taken src e)) (k.wr _ _)
  have qrefuse (off : Nat) {x : State} (k : Quiet x) : Quiet (refuse src off x) := k.badAccess ..
  obtain ⟨benchTaken, benchRefused⟩ := benchTabAccess_write (v := v) src hpu
  obtain ⟨semTaken, semRefused⟩ := semDataWrite_limits (v := v) src hpu
  refine ⟨fun h hw => stored h (objWrite_pins hw) qu, ?taken, ?failed, ?refused,
    fun h hm => regRow_reaches h (hbench.trans (benchTaken hm)) (qu.of_frame rfl rfl),
    fun h hm => regRow_reaches h (hbench.trans (benchRefused hm)) (qrefuse _ (qu.wr _ _)), ?semTaken,
    fun h hm => regRow_reaches h (hsem.trans (semRefused hm)) (qrefuse _ (qu.wr _ _))⟩
  case taken => exact fun h hw ho hl hn => stored h ((objWrite_open hw ho hl).1 hn) (qu.of_frame rfl rfl)
  case failed => exact fun h hw ho hl hv hs => stored h ((objWrite_open hw ho hl).2 hv hs) (qu.of_frame rfl rfl)
  case refused =>
    intro h hw hno
    have e : objWrite o w v u = none := hno.elim (objWrite_shut hw hpu) fun k => objWrite_illegal hw k.1 k.2
    exact regRow_reaches h (hobj.trans (objAccess_refused src e)) ((qrefuse _ qu).wr _ _)
  case semTaken =>
    intro h hm
    refine ⟨?_, semValue_semStore n v su, semCfg_semStore n v su⟩
    rw [← hsem.trans (semTaken hm), ← regAccess_reaches h]
    rfl

end Sys2Proof.Proofs
end

section
/-!
The tier manager (O20, O21): software requests, booked tile transfers, and the completions of promotions, write-backs and
flushes.
-/
namespace Sys2Proof.Machine

/-! ## Rows -/

section
variable {o : Nat} {f : State → State} {s t : State}

/-- A command of an object while the units run. -/
theorem objRow_runs (f : State → State) (ho : o < 65536) (h : runs s = true) : objRow o f s = .next (settle (f s)) := by
  simp [objRow, unitRow, check, ho, h]

/-- A command of an object that leaves nothing to settle. -/
theorem objRow_next (ho : o < 65536) (h : runs s = true) (e : f s = t) (w : t.work = []) : objRow o f s = .next t := by
  rw [objRow_runs f ho h, e, settle_quiet t w]
end

/-! ## Requests (R124, R125) -/

/-- The first word of a request. -/
def reqFirst (op c obj : Nat) : Word := w64 (op * 2 ^ 60 + c % 16 * 2 ^ 56 + obj % 2 ^ 40)

theorem getF_reqFirst {op c : Nat} (obj : Nat) (ho : op < 16) (hc : c < 16) : let w := reqFirst op c obj
    getF Fld.TIR_REQ0_OP w = op ∧ getF Fld.TIR_REQ0_CTX w = c ∧ getF Fld.TIR_REQ0_OBJECT w = obj % 2 ^ 40 := by
  simp only [getF, reqFirst, w64, BitVec.toNat_ofNat]
  norm_num only
  omega

theorem w64_toNat (w : Word) : w64 w.toNat = w := by simp [w64]

/-- The second word of a PROMOTE. -/
theorem getF_promoteWord (d sem n : Nat) : let w := w64 (promoteWord d sem n)
    getF Fld.TIR_REQ1_DEADLINE w = d % 2 ^ 32 ∧ getF Fld.TIR_REQ1_SEM w = sem % 4096 ∧
      getF Fld.TIR_REQ1_SIGNUM w = n % 256 := by
  intro w
  have hw : w = setF Fld.TIR_REQ1_DEADLINE (setF Fld.TIR_REQ1_SEM (setF Fld.TIR_REQ1_SIGNUM 0 n) sem) d := w64_toNat _
  refine ⟨?_, ?_, ?_⟩
  · rw [hw, getF_setF_same _ _ _ (by decide)]
  · rw [hw, getF_setF_other _ _ _ _ (by decide) (by decide), getF_setF_same _ _ _ (by decide)]
    rfl
  · rw [hw, getF_setF_other _ _ _ _ (by decide) (by decide), getF_setF_other _ _ _ _ (by decide) (by decide),
      getF_setF_same _ _ _ (by decide)]
    rfl

/-- A request's two words are written, and wait behind those submitted before. -/
theorem softReq_queues (op c obj w1 : Nat) (s : State) : softReq op c obj w1 s =
    { wr Reg.TIR_REQ0 (reqFirst op c obj) s with
      tier := { s.tier with soft := s.tier.soft ++ [⟨reqFirst op c obj, w64 w1⟩] } } := by
  rw [softReq, submitReq, rd_wr_same]
  rfl

/-- The command of a request by context `c`. -/
theorem softRow_queues {c op : Nat} {s : State} (obj w1 : Nat) (hc : c < 16) (ho : op < 16) (h : Working s) : ∃ q : SoftReq,
    check (decide (c < 16)) .noSuchContext (unitRow (softReq op c obj w1) s) =
      .next { wr Reg.TIR_REQ0 q.w0 s with tier := { s.tier with soft := s.tier.soft ++ [q] } } ∧
    getF Fld.TIR_REQ0_OP q.w0 = op ∧ getF Fld.TIR_REQ0_CTX q.w0 = c ∧ getF Fld.TIR_REQ0_OBJECT q.w0 = obj % 2 ^ 40 ∧
    q.w1 = w64 w1 := by
  obtain ⟨hr, hw⟩ := h
  obtain ⟨hop, hctx, hobj⟩ := getF_reqFirst obj ho hc
  refine ⟨⟨reqFirst op c obj, w64 w1⟩, ?_, hop, hctx, hobj, rfl⟩
  rw [check, if_pos (decide_eq_true hc)]
  exact unitRow_next _ hr (softReq_queues ..) hw

/-! ## Booked transfers (R127, R132) -/

/-- What the Mitre wants of a tile: its tag's CRC fits its payload, and it has a format that the Mitre takes (R99). -/
def MitreSound (y : Tile) : Prop :=
  tagF Fld.TAG_CRC y.tag = crc32c y.payload ∧ mitreTakes (tagF Fld.TAG_FORMAT y.tag) = true

/-- The tag of tile `y` in Ruril as tile `i` of object `o`: its ORIGIN names both. -/
def backTag (o i : Nat) (y : Tile) (s : State) : BitVec 128 :=
  mkTag (tagF Fld.TAG_CRC y.tag) (tagF Fld.TAG_FORMAT y.tag) (tagF Fld.TAG_FLAGS y.tag) (tagF Fld.TAG_SIDE y.tag)
    (tagF Fld.TAG_CBDIST y.tag) (objF o 0 Fld.OBJ0_OBJECT s + i * 2 ^ 40)

/-- The write-back of transfer `x` with tile `y`. -/
def backed (x : TierXfer) (y : Tile) (s : State) : State :=
  let t := bump Reg.TIR_TILES_OUT (setRurilTile x.rtn ⟨backTag x.obj x.tile y s, y.payload⟩ s)
  if x.kind = .flush ∧ x.saved = none then clearDirty x.obj (· == x.tile) t else t

section
variable {x : TierXfer} {s : State}

/-- A read of a Ruril tile that meets no upset. -/
theorem rurilRead_good {n : Nat} (h : s.rbad.contains n = false) : rurilRead n ⟨0, []⟩ s = (true, s) := by
  unfold rurilRead
  simpa using h

theorem promoteTile_plain (h : s.rbad.contains x.rtn = false) (hm : objF x.obj 0 Fld.OBJ0_MITRE s = 0) :
    promoteTile x ⟨0, []⟩ s = bump Reg.TIR_TILES_IN (setBenchTile x.bench x.btile (rurilTile x.rtn s) s) := by
  simp [promoteTile, rurilRead_good h, hm]

theorem promoteTile_mitre (h : s.rbad.contains x.rtn = false) (hm : objF x.obj 0 Fld.OBJ0_MITRE s ≠ 0)
    (hs : MitreSound (rurilTile x.rtn s)) : promoteTile x ⟨0, []⟩ s =
      bump Reg.TIR_TILES_IN (setBenchTile x.bench x.btile (mitreTile (objF x.obj 0 Fld.OBJ0_MITRE s) (rurilTile x.rtn s)) s) := by
  obtain ⟨hcrc, htakes⟩ := hs
  simp [promoteTile, rurilRead_good h, hm, hcrc, htakes]

theorem backTile_plain (h : s.sbad.contains (btKey x.bench x.btile) = false) (hm : objF x.obj 0 Fld.OBJ0_MITRE s = 0) :
    backTile x ⟨0, []⟩ s = backed x (x.saved.getD (benchTile x.bench x.btile s)) s := by
  have hecc : eccBad x.bench x.btile ⟨0, []⟩ (eccCount x.bench ⟨0, []⟩ s) = s := rfl
  have hbad : btKey x.bench x.btile ∉ s.sbad := by simpa using h
  unfold backTile
  rw [hecc]
  simp [hbad, hm, backed, backTag]

theorem backTile_mitre (h : s.sbad.contains (btKey x.bench x.btile) = false) (hm : objF x.obj 0 Fld.OBJ0_MITRE s ≠ 0)
    (hs : MitreSound (x.saved.getD (benchTile x.bench x.btile s))) : backTile x ⟨0, []⟩ s =
      backed x (mitreTile (objF x.obj 0 Fld.OBJ0_MITRE s) (x.saved.getD (benchTile x.bench x.btile s))) s := by
  have hecc : eccBad x.bench x.btile ⟨0, []⟩ (eccCount x.bench ⟨0, []⟩ s) = s := rfl
  have hbad : btKey x.bench x.btile ∉ s.sbad := by simpa using h
  obtain ⟨hcrc, htakes⟩ := hs
  unfold backTile
  rw [hecc]
  simp [hbad, hm, hcrc, htakes, backed, backTag]
end

section
variable {j : Nat} {x : TierXfer} {e : Ecc} {s : State}

theorem tierTransfer_promote (h : s.tier.xfers[j]? = some x) (hk : x.kind = .promote) :
    tierTransfer j e s = promoteTile x e (dropXfer x (advanceTo x.due s)) := by
  simp [tierTransfer, h, hk]

theorem tierTransfer_back (h : s.tier.xfers[j]? = some x) (hk : x.kind = .evict ∨ x.kind = .flush) :
    tierTransfer j e s = backTile x e (dropXfer x (advanceTo x.due s)) := by
  rcases hk with hk | hk <;> simp [tierTransfer, h, hk]

/-- The command of a transfer that leaves nothing to settle. -/
theorem transferRow_next {t : State} (h : Working s) (e : tierTransfer j ⟨0, []⟩ s = t) (w : t.work = s.work) :
    exec (.tierTileTransferDone j ⟨0, []⟩) s = .next t :=
  unitRow_next _ h.1 e (w.trans h.2)

theorem backed_work (x : TierXfer) (y : Tile) (s : State) : (backed x y s).work = s.work := by
  unfold backed
  dsimp only
  split <;> rfl
end
end Sys2Proof.Machine

namespace Sys2Proof.Proofs
open Sys2Proof Sys2Proof.Machine

/-- Settles O20: each request is queued by `softRow_queues`; a transfer is one lemma per direction. -/
theorem tierRequestsAndTransfersLand : Obligations.TierRequestsAndTransfersLand := by
  constructor
  · intro c obj d sem n v src s hc queued
    have plain (op : Nat) (ho : op < 16) (h : Working s) : ∃ q : SoftReq,
        check (decide (c < 16)) .noSuchContext (unitRow (softReq op c obj 0) s) =
          .next { wr Reg.TIR_REQ0 q.w0 s with tier := { s.tier with soft := s.tier.soft ++ [q] } } ∧
        getF Fld.TIR_REQ0_OP q.w0 = op ∧ getF Fld.TIR_REQ0_CTX q.w0 = c ∧ getF Fld.TIR_REQ0_OBJECT q.w0 = obj % 2 ^ 40 ∧ True := by
      obtain ⟨q, e, hop, hctx, hobj, -⟩ := softRow_queues obj 0 hc ho h
      exact ⟨q, e, hop, hctx, hobj, trivial⟩
    refine ⟨fun h => ?promote, plain 2 (by omega), plain 3 (by omega), plain 4 (by omega), fun q h => ?clear⟩
    case promote =>
      obtain ⟨q, e, hop, hctx, hobj, hsecond⟩ := softRow_queues (op := 1) obj (promoteWord d sem n) hc (by decide) h
      exact ⟨q, e, hop, hctx, hobj, hsecond ▸ getF_promoteWord d sem n⟩
    case clear =>
      have e := busAccess_tierWrites src (withBit Fld.TIR_POISON_FIRST_VALID v) (arrived src s)
        (Reg.TIR_POISON_FIRST, fun v _ => poisonFirstWrite v) (by simp [tierWrites])
      exact regRow_reaches h (e.trans (if_pos (bitF_withBit v (by decide) (by decide)))) ((q.arrived src).wr _ _)
  · intro j x s h hx u lands mode inTile outTile sound back out
    refine ⟨fun hk hr hm => ?_, fun hk hr hm hs => ?_, fun ⟨hk, hb⟩ hm => ?_, fun ⟨hk, hb⟩ hm hs => ?_⟩
    · exact transferRow_next h ((tierTransfer_promote hx hk).trans (promoteTile_plain hr hm)) rfl
    · exact transferRow_next h ((tierTransfer_promote hx hk).trans (promoteTile_mitre hr hm hs)) rfl
    · exact transferRow_next h ((tierTransfer_back hx hk).trans (backTile_plain hb hm)) (backed_work x outTile u)
    · exact transferRow_next h ((tierTransfer_back hx hk).trans (backTile_mitre hb hm hs))
        (backed_work x (mitreTile mode outTile) u)

end Sys2Proof.Proofs
end

section
/-!
The completions of the tier manager (O21): what signals leave, the fields of an object descriptor, and each booking's end.
-/
namespace Sys2Proof.Machine

/-! ## Fields of descriptors (R120) -/

section
variable {o w : Nat} {f g : Fld} {s t : State}

theorem objF_of_tb (f : Fld) (h : tb (objKey o w) t = tb (objKey o w) s) : objF o w f t = objF o w f s := congrArg (getF f) h

theorem objF_objW_same (x : Nat) (h : f.lo + f.width ≤ 64) : objF o w f (objW o w f x s) = x % 2 ^ f.width := by
  rw [objF, tbF, objW, tbWF, tb_tbW_same, getF_setF_same _ _ _ h]

/-- Storing one field of a descriptor leaves a field apart from it. -/
theorem objF_objW_other (x : Nat) (hg : g.lo + g.width ≤ 64) (h : g.lo + g.width ≤ f.lo ∨ f.lo + f.width ≤ g.lo) :
    objF o w g (objW o w f x s) = objF o w g s := by
  rw [objF, tbF, objW, tbWF, tb_tbW_same, getF_setF_other _ _ _ _ hg h]
  rfl

/-- The object table lies apart from the semaphores. -/
theorem objKey_ne_sem {n : Nat} (ho : o < 65536) (hw : w < 8) (hn : n < 4096) : objKey o w ≠ Tab.SEM n := by
  unfold objKey Tab.OBJ Tab.SEM tabKey
  omega

theorem dirtyTiles_of_dirty (o : Nat) (h : t.tier.dirty = s.tier.dirty) : dirtyTiles o t = dirtyTiles o s := by
  rw [dirtyTiles, h, dirtyTiles]

/-- A pin's release starts no eviction where none is pending. -/
theorem pinReleased_none (h : objF o 0 Fld.OBJ0_EVICT_PENDING s = 0) : pinReleased o s = s := if_neg (by simp [h])
end

/-! ## Signals (R360) -/

section
variable (n num : Nat) (s : State)

theorem semHw_tier : (semHw n num s).tier = s.tier := by
  unfold semHw semAdd
  split
  · rfl
  · dsimp only
    split <;> rfl

/-- A signal writes its semaphore's entry only. -/
theorem tb_semHw {k : Nat} (h : k ≠ Tab.SEM n) : tb k (semHw n num s) = tb k s := by
  unfold semHw semAdd
  split
  · rfl
  · dsimp only
    split <;> exact tb_tbW_other _ _ h
end

/-- The signals of a list of requests, in order. -/
def signalAll (rs : List TierReq) (s : State) : State := rs.foldl (fun t r => semHw r.sem r.num t) s

theorem signalAll_tier (rs : List TierReq) (s : State) : (signalAll rs s).tier = s.tier := by
  induction rs generalizing s with
  | nil => rfl
  | cons r rs ih => exact (ih _).trans (semHw_tier ..)

theorem tb_signalAll {k : Nat} (rs : List TierReq) (s : State) (h : ∀ r ∈ rs, k ≠ Tab.SEM r.sem) :
    tb k (signalAll rs s) = tb k s := by
  induction rs generalizing s with
  | nil => rfl
  | cons r rs ih =>
    rw [List.forall_mem_cons] at h
    obtain ⟨hr, hrs⟩ := h
    exact (ih _ hrs).trans (tb_semHw _ _ _ hr)

/-! ## Bookings that end (R130) -/

/-- The state at the end of a promotion, its requests signalled. -/
def promoEnded (p : Promo) (s : State) : State :=
  signalAll p.reqs { advanceTo p.due s with tier := { s.tier with promos := s.tier.promos.filter (· != p) } }

/-- The state at the end of a write-back. -/
def backEnded (w : WriteBack) (s : State) : State :=
  { advanceTo w.due s with tier := { s.tier with backs := s.tier.backs.filter (· != w) } }

section
variable {o : Nat} {s : State}

theorem promoEnded_dirty (p : Promo) (s : State) : (promoEnded p s).tier.dirty = s.tier.dirty := by
  rw [promoEnded, signalAll_tier]

/-- A promotion that ended early only signals. -/
theorem promotionDone_dead {p : Promo} (hp : s.tier.promos.find? (fun p => p.obj == o) = some p) (hd : p.dead = true) :
    promotionDone o s = promoEnded p s := by
  simp only [promotionDone, hp, hd]
  rfl

/-- A promotion makes its bench copy FULL. -/
theorem promotionDone_full {p : Promo} (ho : o < 65536) (hp : s.tier.promos.find? (fun p => p.obj == o) = some p)
    (hd : p.dead = false) (hx : xfersDone .promote o s = true) (hs : objState o s = osPromoting)
    (he : objF o 0 Fld.OBJ0_EVICT_PENDING s = 0) (hr : ∀ r ∈ p.reqs, r.sem < 4096) :
    promotionDone o s = objW o 0 Fld.OBJ0_STATE (if (dirtyTiles o s).isEmpty then osBoth else osDirty)
      (objW o 0 Fld.OBJ0_SRAM 2 (promoEnded p s)) := by
  have hpend : objF o 0 Fld.OBJ0_EVICT_PENDING (promoEnded p s) = 0 :=
    (objF_of_tb _ (tb_signalAll _ _ fun r h => objKey_ne_sem ho (by decide) (hr r h))).trans he
  have hdirty : dirtyTiles o (objW o 0 Fld.OBJ0_SRAM 2 (promoEnded p s)) = dirtyTiles o s :=
    dirtyTiles_of_dirty o (promoEnded_dirty p s)
  have hdone : promotionDone o s = pinReleased o (objW o 0 Fld.OBJ0_STATE
      (if (dirtyTiles o (objW o 0 Fld.OBJ0_SRAM 2 (promoEnded p s))).isEmpty then osBoth else osDirty)
      (objW o 0 Fld.OBJ0_SRAM 2 (promoEnded p s))) := by
    simp only [promotionDone, hp, hd, hx, hs]
    rfl
  rw [hdone, hdirty]
  refine pinReleased_none ?_
  rw [objF_objW_other _ (by decide) (by decide), objF_objW_other _ (by decide) (by decide), hpend]

/-- A write-back drops the bench copy; a promotion that is booked behind it goes on. -/
theorem writebackDone_drops {w : WriteBack} (hw : s.tier.backs.find? (fun w => w.obj == o && !w.flush) = some w)
    (hx : xfersDone .evict o s = true) (hs : objState o s = osEvicting) :
    writebackDone o s = if s.tier.promos.any (fun p => p.obj == o && !p.dead) then
        objW o 0 Fld.OBJ0_SRAM 1 (objW o 0 Fld.OBJ0_STATE osPromoting (dropCopy o (backEnded w s)))
      else objW o 0 Fld.OBJ0_STATE osRuril (dropCopy o (backEnded w s)) := by
  have hstate : objState o (dropCopy o (backEnded w s)) = osEvicting :=
    (objF_objW_other (f := Fld.OBJ0_SRAM) 0 (by decide) (by decide)).trans hs
  have hdone : writebackDone o s = if objState o (dropCopy o (backEnded w s)) != osEvicting then dropCopy o (backEnded w s)
      else if s.tier.promos.any (fun p => p.obj == o && !p.dead) then
        objW o 0 Fld.OBJ0_SRAM 1 (objW o 0 Fld.OBJ0_STATE osPromoting (dropCopy o (backEnded w s)))
      else objW o 0 Fld.OBJ0_STATE osRuril (dropCopy o (backEnded w s)) := by
    simp only [writebackDone, hw, hx]
    rfl
  rw [hdone, hstate, if_neg (by decide)]

/-- A flush returns its object to RESIDENT_BOTH where no tile is dirty. -/
theorem flushDone_returns {w : WriteBack} (hw : s.tier.backs.find? (fun w => w.obj == o && w.flush) = some w)
    (hx : xfersDone .flush o s = true) : flushDone o s =
      if objState o s = osDirty ∧ (dirtyTiles o s).isEmpty = true then objW o 0 Fld.OBJ0_STATE osBoth (backEnded w s)
      else backEnded w s := by
  have hnone : ¬ (w.tiles.any fun i => s.tier.xfers.any
      fun x => x.obj == o && x.tile == i && x.kind == .flush && decide (x.due ≤ w.due)) = true := by
    simp only [xfersDone, Bool.not_eq_true', List.any_eq_false, Bool.and_eq_true, beq_iff_eq, not_and] at hx
    simp only [List.any_eq_true, Bool.and_eq_true, beq_iff_eq]
    rintro ⟨i, -, x, hmem, ⟨⟨hobj, -⟩, hkind⟩, -⟩
    exact hx x hmem hobj hkind
  unfold flushDone
  rw [hw]
  exact if_neg hnone
end
end Sys2Proof.Machine

namespace Sys2Proof.Proofs
open Sys2Proof Sys2Proof.Machine

/-- Settles O21: each booking's end is one lemma; only a promotion leaves signals to settle. -/
theorem tierBookingsComplete : Obligations.TierBookingsComplete := by
  intro o s ho h signals ended again
  obtain ⟨hr, hw⟩ := h
  refine ⟨fun p hp hd => ?_, fun p hp hd hx hs he hsem => ?_, fun w hb hx hs => ?_, fun w hb hx => ?_⟩
  · exact (objRow_runs _ ho hr).trans (by rw [promotionDone_dead hp hd]; rfl)
  · exact (objRow_runs _ ho hr).trans (by rw [promotionDone_full ho hp hd hx hs he hsem]; rfl)
  · refine objRow_next ho hr (writebackDone_drops hb hx hs) ?_
    split <;> exact hw
  · refine objRow_next ho hr (flushDone_returns hb hx) ?_
    split <;> exact hw

end Sys2Proof.Proofs
end

section
/-!
Recovery (O22): what an error record and an eviction leave, and how a recovery goes on, ends or fails.
-/
namespace Sys2Proof.Machine

/-! ## Error records: what they leave (R525) -/

section
variable (code kind index : Nat) (ctx : Option Nat) (ds : List Word) (dev cycle step : Nat) (s : State)

theorem msixRaise_only (n : Nat) : ∃ sent pba, msixRaise n s = { s with sent := sent, msixPba := pba } := by
  unfold msixRaise
  split
  · exact ⟨_, _, rfl⟩
  · split <;> exact ⟨_, _, rfl⟩

theorem ibiEvent_only (n : Nat) : ∃ pend, ibiEvent n s = { s with ibiPend := pend } := by
  unfold ibiEvent
  split <;> exact ⟨_, rfl⟩

theorem errPut_only : ∃ regs tabs v16 sent pba pend, errPut code kind index ctx ds dev cycle step s =
    { s with regs := regs, tabs := tabs, v16Sent := v16, sent := sent, msixPba := pba, ibiPend := pend } := by
  have e : errPut code kind index ctx ds dev cycle step s = let u := errStored code kind index ctx ds dev cycle step s
      ibiEvent 7 (if bitF Fld.ERR_CTL_IEN (rd Reg.ERR_CTL u) && !u.v16Sent then msixRaise 16 { u with v16Sent := true } else u) := rfl
  rw [e, errStored, tbWs_eq_tabs]
  dsimp only
  split
  · obtain ⟨sent, pba, hm⟩ := msixRaise_only { bump Reg.ERR_WRITTEN (wrF Reg.ERR_STATE Fld.ERR_STATE_TAIL _ _) with v16Sent := true } 16
    obtain ⟨pend, hi⟩ := ibiEvent_only (msixRaise 16 _) 7
    exact ⟨_, _, _, _, _, _, hi.trans (by rw [hm]; rfl)⟩
  · obtain ⟨pend, hi⟩ := ibiEvent_only (bump Reg.ERR_WRITTEN _) 7
    exact ⟨_, _, _, _, _, _, hi⟩

/-- A record touches the registers, the ring, the count of lost records and the interrupts only. -/
theorem log_only : ∃ regs tabs lost v16 sent pba pend, log code kind index ctx ds s =
    { s with regs := regs, tabs := tabs, errPending := lost, v16Sent := v16, sent := sent, msixPba := pba, ibiPend := pend } := by
  unfold log logAt
  split_ifs
  · exact ⟨_, _, _, _, _, _, _, rfl⟩
  · exact ⟨_, _, _, _, _, _, _, rfl⟩
  · obtain ⟨regs, tabs, v16, sent, pba, pend, e⟩ :=
      errPut_only code kind index ctx ds s.dev s.cycle (rdF Reg.BPM_STEP_STATUS Fld.BPM_STEP_STATUS_STEP s) s
    exact ⟨_, _, _, _, _, _, _, e⟩

/-- A record writes no table but the ring. -/
theorem tb_log {k : Nat} (h : k < Tab.ERR 0) : tb k (log code kind index ctx ds s) = tb k s := by
  unfold log logAt
  split_ifs
  · rfl
  · rfl
  · obtain ⟨-, ht, -⟩ :=
      errPut_frame code kind index ctx ds s.dev s.cycle (rdF Reg.BPM_STEP_STATUS Fld.BPM_STEP_STATUS_STEP s) s
    rw [tb_of_tabs _ ht, errStored, tb_bump, tb_wrF]
    exact tb_tbWs_below _ _ (lt_of_lt_of_le h (Nat.add_le_add_left (Nat.zero_le _) _))

theorem objKey_lt_err {o w : Nat} (ho : o < 65536) (hw : w < 8) : objKey o w < Tab.ERR 0 := by
  unfold objKey Tab.OBJ Tab.ERR tabKey
  omega
end

/-! ## An eviction at the release of a pin: what it leaves (R130) -/

/-- The recoveries, their count and Ruril are as they were. -/
structure SameRecov (s t : State) : Prop where
  recov : t.tier.recov = s.tier.recov
  count : rd Reg.TIR_RECOVERED t = rd Reg.TIR_RECOVERED s
  ruril : t.ruril = s.ruril
  rtags : t.rtags = s.rtags

section
variable {s t u : State}

theorem SameRecov.refl (s : State) : SameRecov s s := ⟨rfl, rfl, rfl, rfl⟩
theorem SameRecov.trans (h : SameRecov s t) (k : SameRecov t u) : SameRecov s u :=
  ⟨k.recov.trans h.recov, k.count.trans h.count, k.ruril.trans h.ruril, k.rtags.trans h.rtags⟩

theorem objW_sameRecov (o w : Nat) (f : Fld) (x : Nat) (s : State) : SameRecov s (objW o w f x s) := ⟨rfl, rfl, rfl, rfl⟩

theorem log_sameRecov (code kind index : Nat) (ctx : Option Nat) (ds : List Word) (s : State) :
    SameRecov s (log code kind index ctx ds s) := by
  have hrd := rd_log code kind index ctx ds s (k := Reg.TIR_RECOVERED) (by decide) (by decide) (by decide)
  obtain ⟨_, _, _, _, _, _, _, e⟩ := log_only code kind index ctx ds s
  exact ⟨by rw [e], hrd, by rw [e], by rw [e]⟩

/-- Booking writes the calendar and the list of transfers. -/
theorem bookTiles_sameRecov {kind : XferKind} {o ready : Nat} {is : List Nat} {done : Nat} {r : Nat × State}
    (e : bookTiles kind o ready is done s = some r) : SameRecov s r.2 := by
  induction is generalizing s done with
  | nil => cases e; exact .refl s
  | cons i is ih =>
    unfold bookTiles at e
    dsimp only at e
    split at e
    · cases e
    · split at e
      · cases e
      · refine SameRecov.trans ?_ (ih e)
        rw [setPortNext]
        split <;> exact ⟨rfl, rfl, rfl, rfl⟩

theorem book_sameRecov {kind : XferKind} {o ready : Nat} {tiles : List Nat} {r : Nat × State}
    (e : book kind o ready tiles s = some r) : SameRecov s r.2 := by
  unfold book at e
  split at e
  · cases e
  next hb =>
    split at e
    · cases e
    · cases e
      exact bookTiles_sameRecov hb

theorem writeBack_sameRecov (o : Nat) (flush : Bool) (w0 : Nat) (s : State) : SameRecov s (writeBack o flush w0 s) := by
  unfold writeBack
  dsimp only
  split
  · exact SameRecov.trans (t := bump Reg.TIR_BAD_REQ s) ⟨rfl, rd_bump_other _ (by decide), rfl, rfl⟩ (log_sameRecov ..)
  next hb =>
    refine (book_sameRecov hb).trans ?_
    split <;> exact ⟨rfl, rfl, rfl, rfl⟩

theorem evictNow_sameRecov (o w0 : Nat) (s : State) : SameRecov s (evictNow o w0 s) := by
  unfold evictNow
  split
  · exact ⟨rfl, rfl, rfl, rfl⟩
  · split
    · exact writeBack_sameRecov ..
    · exact .refl s

theorem pinReleased_sameRecov (o : Nat) (s : State) : SameRecov s (pinReleased o s) := by
  unfold pinReleased
  split
  · exact (objW_sameRecov ..).trans (evictNow_sameRecov ..)
  · exact .refl s
end

/-! ## A recovery that goes on, or fails (R138) -/

/-- Outputs one after another. -/
theorem foldl_emit {α : Type} (f : α → Out) (l : List α) (s : State) :
    l.foldl (fun t x => emit (f x) t) s = { s with sent := s.sent ++ l.map f } := by
  induction l generalizing s with
  | nil => simp
  | cons x l ih => rw [List.foldl_cons, ih]; simp [emit]

/-- The recovery moved on to the host copy, whose tiles are read over CXL. -/
def hostAsked (r : Recovery) (s : State) : State :=
  askSource { r with src := 1, since := s.cycle } (setRecov { r with src := 1, since := s.cycle } s)

section
variable {o : Nat} {r : Recovery} {s : State}

/-- The reads of the host copy's tiles find its address the same. -/
theorem hostReads_eq {a : Nat} (l : List Nat) {t : State} (h : objF o 4 Fld.OBJ4_HOSTADDR t = a) :
    l.foldl (fun t i => emit (.hostRead ((objF o 4 Fld.OBJ4_HOSTADDR t + i) * 4096) 4096) t) t =
      l.foldl (fun t i => emit (.hostRead ((a + i) * 4096) 4096) t) t := by
  induction l generalizing t with
  | nil => simp only [List.foldl_nil]
  | cons i l ih =>
    rw [List.foldl_cons, List.foldl_cons, h]
    exact ih h

theorem hostAsked_eq (r : Recovery) (s : State) : hostAsked r s =
    r.tiles.foldl (fun t i => emit (.hostRead ((objF r.obj 4 Fld.OBJ4_HOSTADDR s + i) * 4096) 4096) t)
      (setRecov { r with src := 1, since := s.cycle } s) := by
  rw [hostAsked, askSource, if_pos rfl]
  exact hostReads_eq _ (objF_of_tb _ (tb_of_tabs _ rfl))

theorem hostAsked_work (r : Recovery) (s : State) : (hostAsked r s).work = s.work := by
  rw [hostAsked_eq, foldl_emit]
  rfl

/-- Past the first source there is the host copy, where one is registered, or none. -/
theorem trySource_next (r : Recovery) (s : State) : trySource r (r.src + 1) s =
    if r.src = 0 ∧ objF r.obj 4 Fld.OBJ4_HOST_VALID s = 1 then hostAsked r s else recoverFail r s := by
  have hsrc : r.src + 1 ≤ 1 ↔ r.src = 0 := by omega
  unfold trySource
  rw [if_neg (by omega)]
  simp only [hsrc]
  rfl

theorem recovOf_obj (h : recovOf o s = some r) : r.obj = o := by simpa using List.find?_some h

theorem recovOf_setRecov (h : r.obj = o) : recovOf o (setRecov r s) = some r := by
  subst h
  have hold : (s.tier.recov.filter (fun x => x.obj != r.obj)).find? (fun x => x.obj == r.obj) = none := by
    simp [List.find?_eq_none]
  rw [recovOf, setRecov, List.find?_append, hold]
  simp

/-- A recovery that has failed is kept as failed; the object's state and Ruril stay. -/
theorem recoverFail_keeps (ho : o < 65536) (h : r.obj = o) : recovOf o (recoverFail r s) = some { r with failed := true } ∧
    objState o (recoverFail r s) = objState o s ∧ (recoverFail r s).ruril = s.ruril := by
  have hlog := log_sameRecov 0x0502 kObject r.obj (some (objF r.obj 0 Fld.OBJ0_OWNER (setRecov { r with failed := true } s)))
    [w64 r.tiles.length] (setRecov { r with failed := true } s)
  refine ⟨?_, objF_of_tb _ (tb_log _ _ _ _ _ _ (objKey_lt_err ho (by decide))), hlog.ruril⟩
  exact (congrArg (List.find? _) hlog.recov).trans (recovOf_setRecov (r := { r with failed := true }) h)

/-! ## A recovery's end (R138) -/

/-- The state of an object whose last poisoned tile is recovered, by its bench copy. -/
def recovState (o : Nat) (s : State) : Nat :=
  if objSram o s = 0 then osRuril else if (dirtyTiles o s).isEmpty then osBoth else osDirty

/-- The end of a recovery, an eviction that waited for it aside. -/
def recovEnded (o : Nat) (s : State) : State :=
  defer (.heldBook o) (objW o 0 Fld.OBJ0_STATE (recovState o s) (bump Reg.TIR_RECOVERED
    { s with tier := { s.tier with recov := s.tier.recov.filter (fun r => r.obj != o) } }))

theorem recovered_eq (o : Nat) (s : State) : recovered o s =
    if recovState o s = osRuril then objW o 0 Fld.OBJ0_EVICT_PENDING 0 (recovEnded o s) else pinReleased o (recovEnded o s) := rfl

theorem recovState_ruril (o : Nat) (s : State) : recovState o s = osRuril ↔ objSram o s = 0 := by
  unfold recovState
  split_ifs with h <;> simp [h, osRuril, osBoth, osDirty]

theorem recovState_lt (o : Nat) (s : State) : recovState o s < 2 ^ Fld.OBJ0_STATE.width := by
  unfold recovState
  split_ifs <;> decide

theorem objState_recovEnded (o : Nat) (s : State) : objState o (recovEnded o s) = recovState o s :=
  (objF_objW_same (f := Fld.OBJ0_STATE) _ (by decide)).trans (Nat.mod_eq_of_lt (recovState_lt o s))

theorem evictPending_recovEnded (o : Nat) (s : State) :
    objF o 0 Fld.OBJ0_EVICT_PENDING (recovEnded o s) = objF o 0 Fld.OBJ0_EVICT_PENDING s :=
  objF_objW_other (f := Fld.OBJ0_STATE) _ (by decide) (by decide)

theorem recovered_sameRecov (o : Nat) (s : State) : SameRecov (recovEnded o s) (recovered o s) := by
  rw [recovered_eq]
  split
  · exact objW_sameRecov ..
  · exact pinReleased_sameRecov ..

theorem recovOf_recovEnded (o : Nat) (s : State) : recovOf o (recovEnded o s) = none := by
  simp [recovOf, recovEnded, defer, objW, tbWF, tbW, bump, bumpBy, wr, List.find?_filter]

/-- The object with no bench copy is RESIDENT_RURIL, and no eviction of it waits. -/
theorem recovered_noCopy (h : objSram o s = 0) :
    objState o (recovered o s) = osRuril ∧ objF o 0 Fld.OBJ0_EVICT_PENDING (recovered o s) = 0 := by
  have hst := (recovState_ruril o s).2 h
  rw [recovered_eq, if_pos hst]
  refine ⟨?_, objF_objW_same (f := Fld.OBJ0_EVICT_PENDING) 0 (by decide)⟩
  exact (objF_objW_other (f := Fld.OBJ0_EVICT_PENDING) 0 (by decide) (by decide)).trans ((objState_recovEnded o s).trans hst)

/-- The object with a bench copy has the state that its dirty tiles give it, where no eviction of it waits. -/
theorem recovered_copy (h : objSram o s ≠ 0) (he : objF o 0 Fld.OBJ0_EVICT_PENDING s = 0) :
    objState o (recovered o s) = if (dirtyTiles o s).isEmpty then osBoth else osDirty := by
  rw [recovered_eq, if_neg (mt (recovState_ruril o s).1 h), pinReleased_none ((evictPending_recovEnded o s).trans he),
    objState_recovEnded, recovState, if_neg h]
end

/-! ## A tile that a source delivers, or not (R138) -/

section
variable {o j : Nat} {x : Tile} {r : Recovery} {s : State} (hr : recovOf o s = some r) (hf : r.failed = false)
include hr hf

/-- A good tile is stored. -/
theorem recoveryTile_good (hj : r.tiles.contains j = true) (hg : tagF Fld.TAG_CRC x.tag = crc32c (subBytes x.payload 0 4096)) :
    recoveryTile o j x s =
      let t := setRurilTile (objF o 1 Fld.OBJ1_RBASE s + j) x s
      if (r.tiles.filter (· != j)).isEmpty then recovered o t else setRecov { r with tiles := r.tiles.filter (· != j) } t := by
  unfold recoveryTile
  rw [hr]
  dsimp only
  rw [if_neg (by rw [hf, hj]; decide), if_neg (by simp [hg])]

/-- A bad tile moves the recovery on. -/
theorem recoveryTile_bad (hj : r.tiles.contains j = true) (hg : ¬ tagF Fld.TAG_CRC x.tag = crc32c (subBytes x.payload 0 4096)) :
    recoveryTile o j x s = trySource r (r.src + 1) s := by
  unfold recoveryTile
  rw [hr]
  dsimp only
  rw [if_neg (by rw [hf, hj]; decide), if_pos (by simpa using hg)]

/-- A source that does not deliver moves the recovery on. -/
theorem recoveryTimeout_next : recoveryTimeout o s = trySource r (r.src + 1)
    (advanceTo (r.since + usCycles (rdF Reg.TIR_RECOVER_CTL Fld.TIR_RECOVER_CTL_TIMEOUT_US s)) s) := by
  unfold recoveryTimeout
  rw [hr]
  simp [hf]
end
end Sys2Proof.Machine

namespace Sys2Proof.Proofs
open Sys2Proof Sys2Proof.Machine

/-- Settles O22: a good tile goes on or ends the recovery (`recovered`); a bad one and a timeout try the next source. -/
theorem recoveryProceeds : Obligations.RecoveryProceeds := by
  intro o j x r s ho h hr hf rest good stored late host asked lost
  obtain ⟨hruns, hw⟩ := h
  have hobj : r.obj = o := recovOf_obj hr
  have hasked (u : State) (hu : u.tabs = s.tabs) (hh : host) :
      trySource r (r.src + 1) u = asked u ∧ (asked u).work = u.work := by
    have hhost (f : Fld) : objF r.obj 4 f u = objF o 4 f s := by rw [hobj]; exact objF_of_tb f (tb_of_tabs _ hu)
    have e : trySource r (r.src + 1) u = hostAsked r u := by rw [trySource_next, if_pos (by rwa [hhost])]
    have k : hostAsked r u = asked u := by rw [hostAsked_eq, hhost]
    exact ⟨e.trans k, k ▸ hostAsked_work r u⟩
  have hlost (u : State) (ht : u.tabs = s.tabs) (hu : u.ruril = s.ruril) (hh : ¬ host) :
      trySource r (r.src + 1) u = recoverFail r u ∧ lost (recoverFail r u) := by
    have hobjF (f : Fld) (w : Nat) : objF o w f u = objF o w f s := objF_of_tb f (tb_of_tabs _ ht)
    obtain ⟨hrec, hstate, hruril⟩ := recoverFail_keeps (s := u) ho hobj
    exact ⟨by rw [trySource_next, hobj, hobjF, if_neg hh], hrec, hstate.trans (hobjF ..), hruril.trans hu⟩
  have hquiet (u : State) (ht : u.tabs = s.tabs) (hu : u.work = []) (hh : host) : settle (trySource r (r.src + 1) u) = asked u := by
    obtain ⟨e, k⟩ := hasked u ht hh
    rw [e, settle_quiet _ (k.trans hu)]
  refine ⟨fun hj hg hne => ?goesOn, fun hj hg hnil => ?ends, fun hj hg hh => ?badToHost, fun hh => ?lateToHost,
    fun hj hg hh => ⟨_, ?badLost, (hlost s rfl rfl hh).2⟩, fun hh => ⟨_, ?lateLost, (hlost late rfl rfl hh).2⟩⟩
  case goesOn => exact objRow_next ho hruns ((recoveryTile_good hr hf hj hg).trans (if_neg (mt List.isEmpty_iff.1 hne))) hw
  case ends =>
    have e : recoveryTile o j x s = recovered o stored :=
      (recoveryTile_good hr hf hj hg).trans (if_pos (List.isEmpty_iff.2 hnil))
    have hsame := recovered_sameRecov o stored
    refine ⟨recovered o stored, (objRow_runs _ ho hruns).trans (by rw [e]), ?_, hsame.count.trans (rd_bump_same ..), hsame.ruril,
      hsame.rtags, recovered_noCopy (s := stored), recovered_copy (s := stored)⟩
    rw [recovOf, hsame.recov]
    exact recovOf_recovEnded o stored
  case badToHost =>
    rw [← hquiet s rfl hw hh, ← recoveryTile_bad hr hf hj hg]
    exact objRow_runs _ ho hruns
  case lateToHost =>
    rw [← hquiet late rfl hw hh, ← recoveryTimeout_next hr hf]
    exact objRow_runs _ ho hruns
  case badLost => exact (objRow_runs _ ho hruns).trans (by rw [recoveryTile_bad hr hf hj hg, (hlost s rfl rfl hh).1])
  case lateLost => exact (objRow_runs _ ho hruns).trans (by rw [recoveryTimeout_next hr hf, (hlost late rfl rfl hh).1])

end Sys2Proof.Proofs
end

section
/-!
Bytes of a memory (O46): what a run of bytes holds, and a line with some of its bytes written.
-/
namespace Sys2Proof.Machine

/-! ## A run of bytes, byte by byte -/

theorem memByte_cons (k a : Nat) (v : Byte) (m : SMap Byte) : memByte ((k, v) :: m) a = if k = a then v else memByte m a := by
  unfold memByte smGet
  rw [List.find?_cons]
  by_cases h : k = a
  · simp [h]
  · simp [h, beq_eq_false_iff_ne.2 h]

/-- A memory that lists no byte at `a` has 0 there. -/
theorem memByte_unlisted {a : Nat} {m : SMap Byte} (h : ∀ p ∈ m, p.1 ≠ a) : memByte m a = 0 := by
  have hnone : m.find? (fun p => p.1 == a) = none := List.find?_eq_none.2 (by simpa using h)
  rw [memByte, smGet, hnone]

/-- A walk over cells in rising order meets each byte at its place. -/
theorem walkBytes_getD {n a j : Nat} {m : SMap Byte} (hm : m.Pairwise (fun p q => p.1 < q.1)) (ha : ∀ p ∈ m, a ≤ p.1)
    (hj : j < n) : (walkBytes n a m).getD j 0 = memByte m (a + j) := by
  induction n generalizing a j m with
  | zero => omega
  | succ n ih =>
    cases m with
    | nil =>
      rw [walkBytes]
      cases j with
      | zero => rfl
      | succ j => exact ih hm (by simp) (by omega)
    | cons p m =>
      obtain ⟨k, v⟩ := p
      obtain ⟨hlt, hrest⟩ := List.pairwise_cons.1 hm
      have hk : a ≤ k := ha (k, v) (List.mem_cons_self ..)
      rw [walkBytes]
      split
      next hka =>
        subst hka
        cases j with
        | zero => rw [memByte_cons, if_pos (Nat.add_zero k).symm]; rfl
        | succ j =>
          rw [List.getD_cons_succ, ih hrest (fun p hp => hlt p hp) (by omega), memByte_cons, if_neg (by omega)]
          congr 1
          omega
      next hka =>
        have habove : ∀ p ∈ (k, v) :: m, a < p.1 := by
          rw [List.forall_mem_cons]
          exact ⟨by omega, fun p hp => lt_of_le_of_lt hk (hlt p hp)⟩
        cases j with
        | zero => exact (memByte_unlisted fun p hp => (habove p hp).ne').symm
        | succ j =>
          rw [List.getD_cons_succ, ih hm habove (by omega)]
          congr 1
          omega

/-- Bytes read from a canonical memory are its bytes. -/
theorem memRead_getD {m : SMap Byte} {a n j : Nat} (h : Memory.wf m = true) (hj : j < n) :
    (memRead m a n).getD j 0 = memByte m (a + j) := by
  obtain ⟨hrise, -⟩ := (smWf_iff _ m).1 h
  have hin : ∀ p ∈ m.filter (fun p => a ≤ p.1 && p.1 < a + n), a ≤ p.1 := by
    intro p hp
    have := (List.mem_filter.1 hp).2
    simp only [Bool.and_eq_true, decide_eq_true_eq] at this
    exact this.1
  rw [memRead, walkBytes_getD (hrise.filter _) hin hj, memByte, memByte, smGet, smGet,
    find_filter_key m (fun k => a ≤ k && k < a + n) (a + j) (by simpa using hj)]

/-! ## A line with byte enables (R445) -/

theorem length_lineWrite (old data : List Byte) (be : Nat) : (lineWrite old data be).length = 64 := by simp [lineWrite]

theorem lineWrite_getD (old data : List Byte) (be : Nat) {j : Nat} (h : j < 64) :
    (lineWrite old data be).getD j 0 = if bitAt be j then data.getD j 0 else old.getD j 0 := by
  simp [lineWrite, List.getD, h]

/-- The enabled bytes of the line at `d` are those of `data`, and no other byte changes. -/
theorem memByte_lineWrite (m : SMap Byte) (d be : Nat) (data : List Byte) :
    let m' := memWrite m d (lineWrite (memRead m d 64) data be)
    (Memory.wf m = true → ∀ j < 64, memByte m' (d + j) = if bitAt be j then data.getD j 0 else memByte m (d + j)) ∧
    (∀ a, a < d ∨ d + 64 ≤ a → memByte m' a = memByte m a) := by
  intro m'
  have hbyte (a : Nat) := memByte_memWrite m d a (lineWrite (memRead m d 64) data be)
  simp only [length_lineWrite] at hbyte
  constructor
  · intro hwf j hj
    rw [hbyte, if_pos (by omega), Nat.add_sub_cancel_left, lineWrite_getD _ _ _ hj, memRead_getD hwf hj]
  · intro a ha
    rw [hbyte, if_neg (by omega)]

end Sys2Proof.Machine
end

section
/-!
The host link (O46): its training and its loss, CXL.mem, scrubs, configuration space, the MSI-X table and DOE.
-/
namespace Sys2Proof.Machine

/-! ## Training, loss and resets of the link (R439, R459, R460) -/

/-- The link may train: out of reset, PERST_N released, not up, and no wait for a retry. -/
def LinkTrains (s : State) : Prop := held s = false ∧ s.power.perst = false ∧ linkUp s = false ∧ s.host.retryAt = none

section
variable {rate width : Nat} {s : State}

theorem linkTrains_iff : LinkTrains s ↔ ¬ (held s || s.power.perst || linkUp s || s.host.retryAt.isSome) = true := by
  simp [LinkTrains, and_assoc]

/-- Training ends in a link at its rate, at the greatest width that its lanes allow. -/
theorem linkTrained_up (h : LinkTrains s) (hg : 1 ≤ rate ∧ rate ≤ 3 ∧ 4 ≤ width) : linkTrained rate width s =
    (upto 16).foldl (fun t c => crDrainAll c t) (wr Reg.GLB_HIF_LINK (setF Fld.GLB_HIF_LINK_WIDTH (setF Fld.GLB_HIF_LINK_RATE
      (setF Fld.GLB_HIF_LINK_UP 0 1) rate) (if 16 ≤ width then 16 else if 8 ≤ width then 8 else 4)) s) :=
  (if_neg (linkTrains_iff.1 h)).trans (if_neg (by omega))

/-- Training that fails is tried again after 1 s. -/
theorem linkTrained_retry (h : LinkTrains s) (hg : ¬ (1 ≤ rate ∧ rate ≤ 3 ∧ 4 ≤ width)) :
    let t := linkTrained rate width s
    t.work = s.work ∧ linkUp t = false ∧ t.host.retryAt = some (s.cycle + msCycles 1000) := by
  have e : linkTrained rate width s = let u := log 0x0107 kNone 0 none [rd Reg.GLB_HIF_LINK s] s
      { u with host := { u.host with retryAt := some (u.cycle + msCycles 1000) } } :=
    (if_neg (linkTrains_iff.1 h)).trans (if_pos (by omega))
  have hlink := rd_log 0x0107 kNone 0 none [rd Reg.GLB_HIF_LINK s] s (k := Reg.GLB_HIF_LINK) (by decide) (by decide) (by decide)
  obtain ⟨_, _, _, _, _, _, _, hlog⟩ := log_only 0x0107 kNone 0 none [rd Reg.GLB_HIF_LINK s] s
  obtain ⟨-, -, hdown, -⟩ := h
  rw [e]
  refine ⟨by rw [hlog], ?_, by rw [hlog]⟩
  exact (congrArg (bitF Fld.GLB_HIF_LINK_UP) hlink).trans hdown

theorem linkTrained_not (h : ¬ LinkTrains s) : linkTrained rate width s = s := if_pos (not_not.1 (mt linkTrains_iff.2 h))

theorem linkRetry_none (h : s.host.retryAt = none) : linkRetry s = s := by rw [linkRetry, h]

theorem linkRetry_some {c : Nat} (h : s.host.retryAt = some c) :
    linkRetry s = { advanceTo c s with host := { s.host with retryAt := none } } := by rw [linkRetry, h]; rfl

/-- What happens to a link alone does nothing to a device that is held, or whose link is down. -/
theorem linkGone (h : held s = true ∨ linkUp s = false) : (held s || !linkUp s) = true := by simpa using h

theorem linkThere (hh : held s = false) (hl : linkUp s = true) : ¬ (held s || !linkUp s) = true := by simp [hh, hl]

theorem linkLoss_up (hh : held s = false) (hl : linkUp s = true) : linkLoss s = hostReset false
    (log 0x0107 kNone 0 none [0] (bump Reg.GLB_HIF_LINK_DOWNS (wr Reg.GLB_HIF_LINK 0 s))) := by
  rw [linkLoss, if_neg (linkThere hh hl), linkDown]
  dsimp only
  rw [rd_wr_same]

/-- Registers put back to their reset values one after another. -/
theorem rd_foldl_unwr {r : Nat} (l : List Nat) (s : State) (h : r ∈ l ∨ rd r s = resetOf r) :
    rd r (l.foldl (fun s r => unwr r s) s) = resetOf r := by
  induction l generalizing s with
  | nil => simpa using h
  | cons x l ih =>
    refine ih _ ?_
    by_cases hx : r = x
    · exact .inr (hx ▸ rd_wr_same ..)
    · rw [List.mem_cons] at h
      exact h.imp (Or.resolve_left · hx) fun h => (rd_wr_other _ _ hx).trans h

/-- A host link reset puts the host-interface registers back, and may then write GLB_HIF_LINK. -/
theorem hostReset_regs (keep : Bool) (s : State) : ∃ t link,
    let u := hostRegs.foldl (fun s r => unwr r s) t
    (hostReset keep s).regs = (if keep then wr Reg.GLB_HIF_LINK link u else u).regs :=
  ⟨bump Reg.GLB_HOST_RESETS (transfersFail (if keep then s else linkDown s)), _, rfl⟩

/-- A host link reset gives the host-interface registers their reset values. -/
theorem rd_hostReset (keep : Bool) {r : Nat} (h : r ∈ hostRegs) : rd r (hostReset keep s) = resetOf r := by
  have hlink : r ≠ Reg.GLB_HIF_LINK := (show ∀ r ∈ hostRegs, r ≠ Reg.GLB_HIF_LINK by decide +kernel) r h
  obtain ⟨t, link, e⟩ := hostReset_regs keep s
  have hreset := rd_foldl_unwr hostRegs t (.inl h)
  rw [rd_of_regs r e]
  cases keep with
  | false => exact hreset
  | true => exact (rd_wr_other _ _ hlink).trans hreset
end

/-! ## CXL.mem (R123, R402, R443 to R445, R497) -/

/-- The device address of a CXL.mem request that arrives (R443, R458). -/
def memAsked (a : Nat) (s : State) : Option Nat := if memOpen s then hdmAddr a s else none

/-- CXL.mem is served: Ruril is powered, and its stream is encrypted where the policy wants it (R497). -/
def MemServed (s : State) : Prop := s.power.ruril = true ∧ (bitF Fld.SEC_POLICY_IDE_REQUIRED (rd Reg.SEC_POLICY s) = true →
  bitF Fld.GLB_HIF_LINK_IDE_CM (rd Reg.GLB_HIF_LINK s) = true)

/-- A read of Ruril tile `n` finds it good, and no recovery of it runs. -/
def TileGood (n : Nat) (e : Ecc) (s : State) : Prop :=
  (rurilRead n e s).1 = true ∧ ∀ p ∈ objOfRtn n s, ∀ r ∈ recovOf p.1 s, p.2 ∉ r.tiles

/-- No object keeps the host from writing tile `n` (R123). -/
def TileFree (n : Nat) (s : State) : Prop := ∀ p ∈ objOfRtn n s, objState p.1 s = osRuril

section
variable {a d be : Nat} {e : Ecc} {data : List Byte} {s : State}

theorem memServed_iff : MemServed s ↔ ¬ (!s.power.ruril || (bitF Fld.SEC_POLICY_IDE_REQUIRED (rd Reg.SEC_POLICY s) &&
    !bitF Fld.GLB_HIF_LINK_IDE_CM (rd Reg.GLB_HIF_LINK s))) = true := by
  simp [MemServed]

theorem memReadReq_none (h : memAsked a s = none) : memReadReq a e s = s := by
  unfold memAsked at h
  rw [memReadReq, h]

theorem memWriteReq_none (h : memAsked a s = none) : memWriteReq a data be s = s := by
  unfold memAsked at h
  rw [memWriteReq, h]

/-- A read of a good tile answers its bytes, and a read of a bad one answers them with poison. -/
theorem memReadReq_open (h : memAsked a s = some d) (hs : MemServed s) (hd : d / 4096 < sysTile ∨ s.dev = 3) :
    (TileGood (d / 4096) e s →
      memReadReq a e s = emit (.cxlData (memRead s.ruril d 64) false) (rurilRead (d / 4096) e s).2) ∧
    (¬ TileGood (d / 4096) e s → memReadReq a e s =
      emit (.cxlData (memRead s.ruril d 64) true) (bump Reg.GLB_HIF_POISON_RD (rurilRead (d / 4096) e s).2)) := by
  unfold memAsked at h
  unfold memReadReq TileGood
  rw [h]
  dsimp only
  rw [if_neg (memServed_iff.1 hs), if_neg (by omega)]
  cases (rurilRead (d / 4096) e s).1 with
  | false => simp
  | true =>
    cases objOfRtn (d / 4096) s with
    | none => simp
    | some p =>
      cases hr : recovOf p.1 s with
      | none => simp [hr]
      | some r => by_cases hi : p.2 ∈ r.tiles <;> simp [hr, hi]

theorem memReadReq_shut (h : memAsked a s = some d) (hs : MemServed s) (hd : sysTile ≤ d / 4096) (hb : s.dev ≠ 3) :
    memReadReq a e s = emit (.cxlData (List.replicate 64 0) false) s := by
  unfold memAsked at h
  rw [memReadReq, h]
  exact (if_neg (memServed_iff.1 hs)).trans (if_pos ⟨hd, hb⟩)

theorem memReadReq_unserved (h : memAsked a s = some d) (hs : ¬ MemServed s) :
    memReadReq a e s = emit (.cxlData (List.replicate 64 0) true) s := by
  unfold memAsked at h
  rw [memReadReq, h]
  exact if_pos (not_not.1 (mt memServed_iff.2 hs))

theorem memWriteReq_unserved (h : memAsked a s = some d) (hs : ¬ MemServed s) : memWriteReq a data be s = emit .cxlDone s := by
  unfold memAsked at h
  rw [memWriteReq, h]
  exact if_pos (not_not.1 (mt memServed_iff.2 hs))

/-- A write of the system region is dropped but in BARE. -/
theorem memWriteReq_shut (h : memAsked a s = some d) (hs : MemServed s) (hd : sysTile ≤ d / 4096) (hb : s.dev ≠ 3) :
    memWriteReq a data be s = emit .cxlDone (bump Reg.TIR_HOST_WRITE_DROP s) := by
  unfold memAsked at h
  rw [memWriteReq, h]
  exact (if_neg (memServed_iff.1 hs)).trans (if_pos ⟨hd, hb⟩)

/-- A write of a free tile is made, and one of an object's tile that is not RESIDENT_RURIL is dropped. -/
theorem memWriteReq_open (h : memAsked a s = some d) (hs : MemServed s) (hd : d / 4096 < sysTile ∨ s.dev = 3) :
    (TileFree (d / 4096) s →
      memWriteReq a data be s = emit .cxlDone (hostWriteTile d (lineWrite (memRead s.ruril d 64) data be) s)) ∧
    (¬ TileFree (d / 4096) s → memWriteReq a data be s = emit .cxlDone (bump Reg.TIR_HOST_WRITE_DROP s)) := by
  unfold memAsked at h
  unfold memWriteReq TileFree
  rw [h]
  dsimp only
  rw [if_neg (memServed_iff.1 hs), if_neg (by omega)]
  cases objOfRtn (d / 4096) s with
  | none => simp
  | some p => by_cases hp : objState p.1 s = osRuril <;> simp [hp]
end

/-! ## Scrubs (R115) -/

/-- A scrub's corrections counted. -/
def scrubCounted (n c : Nat) (s : State) : State := if c = 0 then s else bumpBy c (Reg.TIR_ECC_CORR (stackOf n)) s

section
variable {n c : Nat} {s : State}

theorem scrubCounted_work : (scrubCounted n c s).work = s.work := by unfold scrubCounted; split <;> rfl

/-- The command of a scrub, while Ruril is powered and its clock runs. -/
theorem rurilScrub_runs (bad : Bool) (h : held s = false ∧ dead s = false ∧ s.power.ruril = true) :
    exec (.rurilScrub n c bad) s = .next (settle (scrub n c bad s)) :=
  congrArg Host.Outcome.next (if_neg (by simp [h]))

theorem rurilScrub_shut (bad : Bool) (h : ¬ (held s = false ∧ dead s = false ∧ s.power.ruril = true)) :
    exec (.rurilScrub n c bad) s = .next s :=
  congrArg Host.Outcome.next (if_pos (by simpa [imp_iff_not_or, or_assoc] using h))

theorem scrub_good : scrub n c false s = scrubCounted n c s := rfl

/-- An object's tile that a scrub finds bad is poisoned. -/
theorem scrub_bad : (objOfRtn n s = none → scrub n c true s = setRurilBad n (scrubCounted n c s)) ∧
    ∀ o i, objOfRtn n s = some (o, i) → scrub n c true s = poison o i (setRurilBad n (scrubCounted n c s)) := by
  have hobj : objOfRtn n (setRurilBad n (scrubCounted n c s)) = objOfRtn n s := by unfold scrubCounted; split <;> rfl
  have e : scrub n c true s = match objOfRtn n (setRurilBad n (scrubCounted n c s)) with
    | some (o, i) => poison o i (setRurilBad n (scrubCounted n c s))
    | none => setRurilBad n (scrubCounted n c s) := rfl
  rw [e, hobj]
  exact ⟨fun h => by rw [h], fun o i h => by rw [h]⟩
end

/-! ## Configuration space and the MSI-X table (R443, R446, R456) -/

section
variable {s : State}

theorem msixFlush_off (h : s.msixEn = false) : msixFlush s = s := by simp [msixFlush, h]

/-- The pending vectors that are open are sent. -/
theorem msixFlush_on (h : s.msixEn = true) : msixFlush s = { s with
    msixPba := s.msixPba.filter (fun v => !s.msixOpen.contains v)
    sent := s.sent ++ (s.msixPba.filter (fun v => s.msixOpen.contains v)).map .msix } := by
  rw [msixFlush, if_pos h]
  exact foldl_emit Out.msix _ _

theorem msixFlush_tab : (msixFlush s).msixTab = s.msixTab ∧ (msixFlush s).msixOpen = s.msixOpen := by
  cases h : s.msixEn with
  | false => rw [msixFlush_off h]; exact ⟨rfl, rfl⟩
  | true => rw [msixFlush_on h]; exact ⟨rfl, rfl⟩

theorem linkOpen_test (h : linkOpen s = true) : ¬ (!linkOpen s) = true := by simp [h]

theorem configWrite_hdm {base size : Nat} (h : linkOpen s = true) (hs : size % 2 ^ 28 = 0) (hl : size ≤ 768 * 2 ^ 30)
    (hb : base % 2 ^ 28 = 0) :
    configWrite (.hdm base size) s = { s with host := { s.host with hdmBase := base, hdmSize := size } } :=
  (if_neg (linkOpen_test h)).trans (if_pos ⟨hs, hl, hb⟩)

theorem configWrite_cacheEnable (h : linkOpen s = true) (on : Bool) :
    configWrite (.cacheEnable on) s = { s with host := { s.host with cacheEn := on } } := if_neg (linkOpen_test h)

theorem configWrite_msixEnable (h : linkOpen s = true) (on : Bool) :
    configWrite (.msixEnable on) s = msixFlush { s with msixEn := on } := if_neg (linkOpen_test h)

theorem configWrite_closed (h : linkOpen s = false) (x : CfgWrite) : configWrite x s = s := if_pos (by simp [h])

/-- The state with word `i` of the MSI-X table stored. -/
def msixStored (i : Nat) (v : Word) (s : State) : State := { s with msixTab := smPut (fun _ => 0) s.msixTab i v }

/-- The vectors that are open once vector `k` is masked or not. -/
def msixMasked (k : Nat) (mask : Bool) (s : State) : List Nat :=
  if mask then s.msixOpen.filter (· != k) else s.msixOpen.filter (· != k) ++ [k]

variable {i : Nat} {v : Word}

theorem msixWrite_none (h : hostOpen s = false ∨ 128 ≤ i) : msixWrite i v s = s := if_pos (by simpa using h)

theorem msixWrite_even (h : hostOpen s = true) (hi : i < 128) (he : i % 2 = 0) : msixWrite i v s = msixStored i v s :=
  (if_neg (by simpa [h] using hi)).trans (if_pos he)

theorem msixWrite_odd (h : hostOpen s = true) (hi : i < 128) (he : i % 2 = 1) : msixWrite i v s =
    msixFlush { msixStored i v s with msixOpen := msixMasked (i / 2) (bitAt v.toNat 32) s } :=
  (if_neg (by simpa [h] using hi)).trans (if_neg (by omega))

/-- Unmasking a pending vector sends its message. -/
theorem msixFlush_unmasked {k : Nat} (he : s.msixEn = true) (ho : k ∈ s.msixOpen) (hp : k ∈ s.msixPba) :
    k ∉ (msixFlush s).msixPba ∧ .msix k ∈ (msixFlush s).sent.drop s.sent.length := by
  rw [msixFlush_on he]
  simp [ho, hp]

/-- A write of a word of the table stores it. -/
theorem msixWrite_stores (h : hostOpen s = true) (hi : i < 128) : smGet (fun _ => 0) (msixWrite i v s).msixTab i = v := by
  obtain he | he := Nat.mod_two_eq_zero_or_one i
  · rw [msixWrite_even h hi he]
    exact smGet_smPut_same ..
  · rw [msixWrite_odd h hi he, msixFlush_tab.1]
    exact smGet_smPut_same ..

/-- A vector whose mask bit is written 1 is not open. -/
theorem msixWrite_masks (h : hostOpen s = true) (hi : i < 128) (he : i % 2 = 1) (hm : bitAt v.toNat 32 = true) :
    i / 2 ∉ (msixWrite i v s).msixOpen := by
  rw [msixWrite_odd h hi he, msixFlush_tab.2, hm]
  simp [msixMasked]

/-- A vector whose mask bit is written 0 is open, and its pending message goes. -/
theorem msixWrite_unmasks (h : hostOpen s = true) (hi : i < 128) (he : i % 2 = 1) (hm : bitAt v.toNat 32 = false) :
    i / 2 ∈ (msixWrite i v s).msixOpen ∧ (s.msixEn = true → i / 2 ∈ s.msixPba → i / 2 ∉ (msixWrite i v s).msixPba ∧
      .msix (i / 2) ∈ (msixWrite i v s).sent.drop s.sent.length) := by
  have hopen : i / 2 ∈ msixMasked (i / 2) false s := by simp [msixMasked]
  rw [msixWrite_odd h hi he, msixFlush_tab.2, hm]
  exact ⟨hopen, fun hen hp =>
    msixFlush_unmasked (s := { msixStored i v s with msixOpen := msixMasked (i / 2) false s }) hen hopen hp⟩
end

/-! ## DOE (R457) -/

theorem length_leBytes (n v : Nat) : (leBytes n v).length = n := by
  induction n generalizing v with
  | zero => rfl
  | succ n ih => rw [leBytes, List.length_cons, ih]

/-- The bytes of a number stand for it, modulo their range. -/
theorem leNat_leBytes (n v : Nat) : leNat (leBytes n v) = v % 256 ^ n := by
  induction n generalizing v with
  | zero => rw [leBytes, leNat, Nat.pow_zero, Nat.mod_one]
  | succ n ih => rw [leBytes, leNat, ih, BitVec.toNat_ofNat, show 256 ^ (n + 1) = 256 * 256 ^ n from Nat.pow_succ', Nat.mod_mul]

/-- A number that stands between other bytes. -/
theorem leAt_between (before bs after : List Byte) : leAt (before ++ (bs ++ after)) before.length bs.length = leNat bs := by
  simp [leAt, subBytes]

/-- The latencies and the bandwidths of the CDAT. -/
def cdatTimes (bw : Nat) : List Byte := leBytes 4 700 ++ leBytes 4 500 ++ leBytes 4 bw ++ leBytes 4 bw

/-- The entries of the CDAT: the base and the length are those of all of Ruril. -/
def cdatBytes (bw : Nat) : List Byte := leBytes 8 0 ++ (leBytes 8 (768 * 2 ^ 30) ++ cdatTimes bw)

theorem cdatBytes_reads (bw : Nat) :
    (cdatBytes bw).length = 32 ∧ leAt (cdatBytes bw) 0 8 = 0 ∧ leAt (cdatBytes bw) 8 8 = 768 * 2 ^ 30 := by
  have hbase := leAt_between [] (leBytes 8 0) (leBytes 8 (768 * 2 ^ 30) ++ cdatTimes bw)
  have hlen := leAt_between (leBytes 8 0) (leBytes 8 (768 * 2 ^ 30)) (cdatTimes bw)
  simp only [length_leBytes, leNat_leBytes, List.length_nil, List.nil_append] at hbase hlen
  exact ⟨by simp [cdatBytes, cdatTimes, length_leBytes], hbase, hlen⟩

section
variable {s : State}

theorem doeDiscovery_open (i : Nat) (h : linkOpen s = true) : doeDiscovery i s =
    let p := [(0x0001, 0x00), (0x1E98, 0x02), (0x1F3A, 0x01)].getD i (0xFFFF, 0xFF)
    emit (.doe (leBytes 2 p.1 ++ leBytes 1 p.2 ++ leBytes 1 (if i < 2 then i + 1 else 0))) s := if_neg (linkOpen_test h)

theorem doeDiscovery_closed (i : Nat) (h : linkOpen s = false) : doeDiscovery i s = s := if_pos (by simp [h])

theorem cdatAccess_open (h : linkOpen s = true) : cdatAccess s = emit (.doe (cdatBytes (240 * linkShare s / 64))) s :=
  (if_neg (linkOpen_test h)).trans (by simp only [cdatBytes, cdatTimes, List.append_assoc])

theorem cdatAccess_closed (h : linkOpen s = false) : cdatAccess s = s := if_pos (by simp [h])
end

end Sys2Proof.Machine

namespace Sys2Proof.Proofs
open Sys2Proof Sys2Proof.Machine

/-- Settles O46: each command's effect is a lemma above by the case that it meets; where it leaves no work, the step ends there. -/
theorem hostLinkComplete : Obligations.HostLinkComplete := by
  intro rate width addr be n c base size idx bad data e v s hw trains good lanes link isReset resets asked secure open' shut
    sound free scrubs counted k protocol
  have settled {t u : State} (h : t = u) (hu : u.work = []) :
      (Host.Outcome.next (settle t) : Host.Outcome State Fault Refusal) = .next u := by rw [h, settle_quiet u hu]
  have settling {t u : State} (h : t = u) : (Host.Outcome.next (settle t) : Host.Outcome State Fault Refusal) = .next (settle u) :=
    h ▸ rfl
  have gone (keep : Bool) (h : held s = true ∨ linkUp s = false) : (if held s || !linkUp s then s else hostReset keep s) = s :=
    if_pos (linkGone h)
  have resetBy (keep : Bool) (hh : held s = false) (hl : linkUp s = true) :
      (if held s || !linkUp s then s else hostReset keep s) = hostReset keep s := if_neg (linkThere hh hl)
  refine ⟨fun ht hg => settling (linkTrained_up ht hg), ?retried, fun ht => settled (linkTrained_not ht) hw,
    fun h => settled (linkRetry_none h) hw, fun h => ?retry, fun h => settled (if_pos (linkGone h)) hw,
    fun hh hl => settling (linkLoss_up hh hl),
    ⟨fun h => settled (gone false h) hw, fun hh hl => settling (resetBy false hh hl)⟩,
    ⟨fun h => settled (gone false h) hw, fun hh hl => settling (resetBy false hh hl)⟩,
    ⟨fun h => settled (gone true h) hw, fun hh hl => settling (resetBy true hh hl)⟩,
    fun keep => ⟨rfl, rfl, rfl, rfl, rfl, rfl, rfl, fun r hr => rd_hostReset keep hr⟩,
    fun h => ⟨settled (memReadReq_none h) hw, settled (memWriteReq_none h) hw⟩,
    fun d ⟨ha, hs, hd⟩ hg => settling ((memReadReq_open ha hs hd).1 hg),
    fun d ⟨ha, hs, hd⟩ hg => settling ((memReadReq_open ha hs hd).2 hg),
    fun d ⟨ha, hs, hd, hb⟩ => settled (memReadReq_shut ha hs hd hb) hw,
    fun d ha hs => ⟨settled (memReadReq_unserved ha hs) hw, settled (memWriteReq_unserved ha hs) hw⟩, ?written, ?dropped, rfl,
    rurilScrub_shut bad, ?scrubGood, ?scrubFree, ?scrubObject,
    fun h hs hl hb => congrArg Host.Outcome.next (configWrite_hdm h hs hl hb),
    fun h => congrArg Host.Outcome.next (configWrite_cacheEnable h bad), ?msixOff, ?msixOn,
    fun h x => congrArg Host.Outcome.next (configWrite_closed h x), fun h => congrArg Host.Outcome.next (doeDiscovery_open idx h),
    fun h => ⟨_, congrArg Host.Outcome.next (cdatAccess_open h), cdatBytes_reads _⟩,
    fun h => ⟨congrArg Host.Outcome.next (doeDiscovery_closed idx h), congrArg Host.Outcome.next (cdatAccess_closed h)⟩,
    fun h => congrArg Host.Outcome.next (msixWrite_none h), fun h hi => ⟨msixWrite idx v s, rfl, msixWrite_stores h hi, ?even,
      msixWrite_masks h hi, msixWrite_unmasks h hi⟩⟩
  case retried =>
    intro ht hg
    obtain ⟨hwork, hdown, hretry⟩ := linkTrained_retry ht hg
    exact ⟨_, settled rfl (hwork.trans hw), hdown, hretry⟩
  case retry => exact ⟨_, settled (linkRetry_some h) hw, rfl, rfl, rfl⟩
  case written =>
    intro d ⟨ha, hs, hd⟩ hf
    obtain ⟨henabled, hothers⟩ := memByte_lineWrite s.ruril d be data
    exact ⟨_, settled ((memWriteReq_open ha hs hd).1 hf) hw, rfl, henabled, hothers, rfl, rfl, rfl⟩
  case dropped =>
    rintro d (⟨ha, hs, hd, hb⟩ | ⟨⟨ha, hs, hd⟩, hf⟩)
    · exact settled (memWriteReq_shut ha hs hd hb) hw
    · exact settled ((memWriteReq_open ha hs hd).2 hf) hw
  case scrubGood =>
    intro h hb
    subst hb
    exact (rurilScrub_runs false h).trans (settled scrub_good (scrubCounted_work.trans hw))
  case scrubFree =>
    intro h hb ho
    subst hb
    exact (rurilScrub_runs true h).trans (settled (scrub_bad.1 ho) (scrubCounted_work.trans hw))
  case scrubObject =>
    intro h hb o i ho
    subst hb
    exact (rurilScrub_runs true h).trans (settling (scrub_bad.2 o i ho))
  case msixOff =>
    intro h
    exact congrArg Host.Outcome.next ((configWrite_msixEnable h false).trans (msixFlush_off rfl))
  case msixOn =>
    intro h
    exact ⟨_, congrArg Host.Outcome.next ((configWrite_msixEnable h true).trans (msixFlush_on rfl)), rfl, rfl, rfl⟩
  case even =>
    intro he
    rw [msixWrite_even h hi he]
    exact ⟨rfl, rfl, rfl⟩

end Sys2Proof.Proofs
end

section
/-!
Packets that a port holds (O37): taken and dropped where a check of R264 fails, left where the port does not hold them next,
and acted on where they pass.
-/
namespace Sys2Proof.Machine

section
variable {n r : Nat} {p : Packet} {a : RxPkt} {is : Packet → Bool} {s : State} (k : RxPkt → State → State)

theorem packetRow_taken (hn : n ≤ 16) : packetRow n p is k s = .next (packetTake n p is k s) := if_pos (decide_eq_true hn)

/-- A packet that the port does not hold next does nothing. -/
theorem packetTake_unheld (h : heldPacket n p s = none) : packetTake n p is k s = s := by
  unfold packetTake
  rw [h]
  exact ite_self s

/-- A packet that is next of its pool and fails a check is counted and dropped. -/
theorem packetTake_fails (hr : runs s = true) (hp : is p = true) (h : heldPacket n p s = some a)
    (hc : netCheck p (takePacket n a s) = some r) : packetTake n p is k s = bump r (takePacket n a s) := by
  unfold packetTake
  rw [if_neg (by simp [hr, hp])]
  simp only [h, hc]

/-- A packet that passes the checks acts. -/
theorem packetRow_passes (hp : is p = true) (h : Takes n p a s) :
    packetRow n p is k s = .next (settle (k a (takePacket n a s))) := by
  obtain ⟨hn, ⟨hr, -⟩, ha, hc⟩ := h
  rw [packetRow_taken k hn]
  unfold packetTake
  rw [if_neg (by simp [hr, hp])]
  simp only [ha, hc]

/-- What a packet command does without its packet's action: a packet that fails a check, and one that is not held. -/
theorem packetRow_drops (hn : n ≤ 16) (hr : runs s = true) (hp : is p = true) :
    (heldPacket n p s = some a → netCheck p (takePacket n a s) = some r →
      packetRow n p is k s = .next (bump r (takePacket n a s))) ∧
    (heldPacket n p s = none → packetRow n p is k s = .next s) :=
  ⟨fun h hc => (packetRow_taken k hn).trans (congrArg _ (packetTake_fails k hr hp h hc)),
    fun h => (packetRow_taken k hn).trans (congrArg _ (packetTake_unheld k h))⟩
end
end Sys2Proof.Machine

namespace Sys2Proof.Proofs
open Sys2Proof Sys2Proof.Machine

/-- Settles O37: every packet command is `packetRow` with its own test of the packet's type and its own action. -/
theorem failingPacketsAreDropped : Obligations.FailingPacketsAreDropped := by
  intro n r p a i s hn ⟨hr, _⟩ hi
  rcases hi with ⟨rfl, hp⟩ | ⟨rfl, hp⟩ | ⟨rfl, hp⟩ | ⟨rfl, hp⟩ | ⟨rfl, hp⟩ | ⟨rfl, hp⟩ | ⟨rfl, hp⟩ | ⟨rfl, hp⟩ | ⟨rfl, hp⟩ |
    ⟨rfl, hp⟩ | ⟨rfl, hp⟩
  case inr.inr.inr.inr.inr.inr.inr.inr.inr.inr => exact packetRow_drops _ hn hr (beq_iff_eq.2 hp)
  all_goals exact packetRow_drops _ hn hr hp

end Sys2Proof.Proofs
end

section
/-!
The step boundary (O24): the writes that reach the pool manager, the trigger, the copies that a boundary waits for, and the new
step.
-/
namespace Sys2Proof.Machine

/-! ## Writes of the pool manager's registers (R150, R157, R159) -/

/-- The registers of the pool manager whose writes are commands of their own, each with what a write does. -/
def poolWrites : List (Nat × (Word → Src → State → State)) :=
  [(Reg.BPM_POOL_CTL, poolCtlWrite), (Reg.BPM_STEP_END, fun v _ => stepEndWrite v), (Reg.BPM_SLOT_REQ, fun v _ => slotReq v)]

theorem busAccess_poolWrites (src : Src) (v : Word) (s : State) :
    ∀ p ∈ poolWrites, busAccess src p.1 (.write v) s = p.2 v src s := by
  intro p hp
  obtain ⟨r, hr, hplace⟩ := rowPlace_single
    ((show ∀ p ∈ poolWrites, (regRowAt p.1).any (·.stride == 0) = true by decide +kernel) p hp)
  rw [busWrite_at src v s hr, regWrite, hplace]
  simp only [poolWrites, List.mem_cons, List.not_mem_nil, or_false] at hp
  rcases hp with rfl | rfl | rfl <;> rfl

/-- A write of such a register that reaches it ends the step with what it does. -/
theorem poolReg_settles {src : Src} {v : Word} {s : State} : ∀ p ∈ poolWrites, Reaches src p.1 (.write v) s →
    regRow p.1 (.write v) src s = .next (settleAll (p.2 v src (arrived src s))) := by
  intro p hp h
  rw [regRow, regAccess_reaches h, busAccess_poolWrites src v _ p hp]

@[simp] theorem arrived_pool (src : Src) (s : State) : (arrived src s).pool = s.pool := by cases src <;> rfl
@[simp] theorem arrived_ctxs (src : Src) (s : State) : (arrived src s).ctxs = s.ctxs := by cases src <;> rfl
@[simp] theorem arrived_ruril (src : Src) (s : State) : (arrived src s).ruril = s.ruril := by cases src <;> rfl

/-- The sideband's arrival leaves the fields of every register but those of its own transfers. -/
theorem rdF_arrived (src : Src) (f : Fld) (s : State) {k : Nat} (hx : k ≠ Reg.MGT_SB_XFERS) (hl : k ≠ Reg.MGT_SB_STATUS) :
    rdF k f (arrived src s) = rdF k f s := congrArg (getF f) (rd_arrived src s hx hl)

/-! ## The trigger (R159) -/

/-- A boundary may begin: none runs, no teardown still has slots to empty, and the units run. -/
def BoundaryMay (s : State) : Prop := s.pool.bnd = none ∧ s.ctxs.step7 = [] ∧ 4 ≤ s.dev ∧ s.dev ≤ 7

/-- `t` is `s` with a boundary begun: the step shows BUSY and phase 1, and the boundary is the work that is left. -/
def BoundaryBegun (s t : State) : Prop :=
  t.work = [.boundary] ∧ t.pool.bnd = some ⟨1, s.cycle, 0, false, [], none, []⟩ ∧
    rdF Reg.BPM_STEP_STATUS Fld.BPM_STEP_STATUS_BUSY t = 1 ∧ rdF Reg.BPM_STEP_STATUS Fld.BPM_STEP_STATUS_PHASE t = 1 ∧
    rdF Reg.BPM_STEP_STATUS Fld.BPM_STEP_STATUS_STEP t = rdF Reg.BPM_STEP_STATUS Fld.BPM_STEP_STATUS_STEP s ∧
    t.benches = s.benches ∧ t.tabs = s.tabs

section
variable {s t u : State}

theorem rd_boundaryEnter (s : State) : rd Reg.BPM_STEP_STATUS (boundaryEnter s) =
    setF Fld.BPM_STEP_STATUS_BUSY (setF Fld.BPM_STEP_STATUS_PHASE (rd Reg.BPM_STEP_STATUS s) 1) 1 := by
  simp [boundaryEnter, showPhase]

theorem boundaryEnter_begun (hw : s.work = []) : BoundaryBegun s (boundaryEnter s) := by
  refine ⟨congrArg (· ++ [Work.boundary]) hw, rfl, ?_, ?_, ?_, rfl, rfl⟩ <;> rw [rdF, rd_boundaryEnter]
  · exact getF_setF_same _ _ _ (by decide)
  · exact (getF_setF_other _ _ _ _ (by decide) (by decide)).trans (getF_setF_same _ _ _ (by decide))
  · exact (getF_setF_other _ _ _ _ (by decide) (by decide)).trans (getF_setF_other _ _ _ _ (by decide) (by decide))

theorem BoundaryBegun.of_same (h : BoundaryBegun u t) (hc : u.cycle = s.cycle)
    (hs : rd Reg.BPM_STEP_STATUS u = rd Reg.BPM_STEP_STATUS s) (hb : u.benches = s.benches) (ht : u.tabs = s.tabs) :
    BoundaryBegun s t := by
  obtain ⟨hwork, hbnd, hbusy, hphase, hstep, hbenches, htabs⟩ := h
  exact ⟨hwork, hc ▸ hbnd, hbusy, hphase, hstep.trans (congrArg (getF _) hs), hbenches.trans hb, htabs.trans ht⟩

/-- A trigger begins a boundary that may begin. -/
theorem boundaryTry_triggered (h : BoundaryMay s) (ht : 0 < s.pool.triggers) :
    boundaryTry s = boundaryEnter { s with pool := { s.pool with triggers := s.pool.triggers - 1 } } := by
  obtain ⟨hb, h7, hlo, hhi⟩ := h
  have hno : ¬ (s.pool.bnd.isSome || !s.ctxs.step7.isEmpty || decide (s.dev < 4) || decide (7 < s.dev)) = true := by
    simp only [hb, h7, Option.isSome_none, List.isEmpty_nil, Bool.not_true, Bool.or_eq_true, decide_eq_true_eq]
    simp only [Bool.false_eq_true, or_self, false_or]
    omega
  rw [boundaryTry, if_neg hno, if_pos ht]

/-- While a boundary runs no other begins. -/
theorem boundaryTry_running (h : s.pool.bnd ≠ none) : boundaryTry s = s :=
  if_pos (by simp [Option.isSome_iff_ne_none.2 h])

/-- In MODE 0 a write of END is a trigger. -/
theorem stepEndWrite_byHand (v : Word) (h : rdF Reg.BPM_STEP_CTL Fld.BPM_STEP_CTL_MODE s = 0) :
    stepEndWrite (withBit Fld.BPM_STEP_END_END v) s =
      boundaryTry { s with pool := { s.pool with triggers := s.pool.triggers + 1 } } := by
  have hmode : bitF Fld.BPM_STEP_CTL_MODE (rd Reg.BPM_STEP_CTL s) = false := bne_eq_false_iff_eq.2 h
  exact if_pos (by rw [bitF_withBit v (by decide) (by decide), hmode]; rfl)

/-- In MODE 1 a write of END has no effect. -/
theorem stepEndWrite_bySem (v : Word) (h : rdF Reg.BPM_STEP_CTL Fld.BPM_STEP_CTL_MODE s ≠ 0) : stepEndWrite v s = s := by
  have hmode : bitF Fld.BPM_STEP_CTL_MODE (rd Reg.BPM_STEP_CTL s) = true := bne_iff_ne.2 h
  exact if_neg (by rw [hmode]; simp)
end

/-! ## Parking copies (R160, R163) -/

/-- A command of the units that leaves work for the end of its step. -/
theorem unitRow_settles {s t : State} (f : State → State) (h : runs s = true) (e : f s = t) :
    unitRow f s = .next (settle t) := by
  rw [unitRow, if_pos h, e]

/-- A command of a slot. -/
theorem slotRow_settles {n : Nat} {s t : State} (f : State → State) (hn : n < 262144) (h : runs s = true) (e : f s = t) :
    slotRow n f s = .next (settle t) := by
  rw [slotRow, check, if_pos (decide_eq_true hn), unitRow_settles f h e]

/-- The work that is left and the count of parked slots are as they were. -/
structure SameParked (s t : State) : Prop where
  work : t.work = s.work
  count : rd Reg.BPM_PARKED t = rd Reg.BPM_PARKED s

theorem SameParked.refl (s : State) : SameParked s s := ⟨rfl, rfl⟩

theorem parked_ne_crState (r : Nat) : Reg.BPM_PARKED ≠ Reg.GLB_HIF_CR_STATE r := by
  unfold Reg.BPM_PARKED Reg.GLB_HIF_CR_STATE
  omega

section
variable {s₀ s : State} (h : SameParked s₀ s)
include h

theorem SameParked.same {t : State} (hw : t.work = s.work) (hr : t.regs = s.regs) : SameParked s₀ t :=
  ⟨hw.trans h.work, (rd_of_regs _ hr).trans h.count⟩

theorem SameParked.ite {t : State} (k : SameParked s₀ t) {p : Prop} {_ : Decidable p} : SameParked s₀ (if p then s else t) := by
  split <;> assumption

theorem SameParked.foldl {α : Type} {f : State → α → State} (hf : ∀ t x, SameParked s₀ t → SameParked s₀ (f t x)) {l : List α} :
    SameParked s₀ (l.foldl f s) := by
  induction l generalizing s with
  | nil => exact h
  | cons x l ih => exact ih (hf s x h)

theorem SameParked.wr {k v} (hk : Reg.BPM_PARKED ≠ k := by decide) : SameParked s₀ (wr k v s) :=
  ⟨h.work, (rd_wr_other s v hk).trans h.count⟩
theorem SameParked.wrF {k f x} (hk : Reg.BPM_PARKED ≠ k := by decide) : SameParked s₀ (wrF k f x s) := h.wr hk
theorem SameParked.bump {k} (hk : Reg.BPM_PARKED ≠ k := by decide) : SameParked s₀ (bump k s) := h.wr hk
theorem SameParked.emit {o} : SameParked s₀ (emit o s) := h.same rfl rfl
theorem SameParked.msixRaise {v} : SameParked s₀ (msixRaise v s) := h.same (msixRaise_work ..) (msixRaise_regs ..)
theorem SameParked.setHost {x} : SameParked s₀ { s with host := x } := h.same rfl rfl
theorem SameParked.slotZero {n} : SameParked s₀ (slotZero n s) := h.same rfl rfl
theorem SameParked.setRurilBytes {a bs} : SameParked s₀ (setRurilBytes a bs s) := h.same rfl rfl
theorem SameParked.bdW {n f x} : SameParked s₀ (bdW n f x s) := h.setRurilBytes

theorem SameParked.log {code kind index ctx ds} : SameParked s₀ (log code kind index ctx ds s) := by
  have hrd := rd_log code kind index ctx ds s (k := Reg.BPM_PARKED) (by decide) (by decide) (by decide)
  obtain ⟨_, _, _, _, _, _, _, e⟩ := log_only code kind index ctx ds s
  exact ⟨(congrArg State.work e).trans h.work, hrd.trans h.count⟩

theorem SameParked.bufFree {n} : SameParked s₀ (bufFree n s) := h.setRurilBytes.bdW.wrF.bump
theorem SameParked.bufDrop {n} : SameParked s₀ (bufDrop n s) := .ite (.ite h.bdW.bdW.bufFree h.bdW.bdW) h.bdW

theorem SameParked.poolFree {k n} : SameParked s₀ (poolFree k n s).2 := by
  unfold Machine.poolFree
  split
  · exact .ite h.bufFree h.bdW
  · exact h.bump.log

theorem SameParked.poolDrop {n} : SameParked s₀ (poolDrop n s).2 := by
  unfold Machine.poolDrop
  split
  · exact h.bufDrop
  · exact h.bump

/-- Giving a slot's buffers back parks nothing. -/
theorem SameParked.slotGive {n} : SameParked s₀ (slotGive n s) :=
  .foldl (.foldl h fun _ _ k => k.poolFree) fun _ _ k => k.poolDrop

theorem SameParked.crSignal {r} : SameParked s₀ (crSignal r s) :=
  .ite (.ite h h.setHost) h.setHost.msixRaise

theorem SameParked.crPut {r bytes} : SameParked s₀ (crPut r bytes s) :=
  have hne := parked_ne_crState r
  have tail := h.emit.wrF hne
  have phase := SameParked.ite (tail.wrF hne) tail
  .ite phase.crSignal phase

/-- Posting a status parks nothing. -/
theorem SameParked.post {c status slot cookie pos pages} : SameParked s₀ (post c status slot cookie pos pages s) :=
  .ite h.crPut (.ite (h.setRurilBytes.wrF (parked_ne_crState c)) h.bump.log)
end

section
variable {n w : Nat}

/-- A slot emptied has every word of its record 0. -/
theorem tb_slotZero (hw : w < 8) (s : State) : tb (slotKey n w) (slotZero n s) = 0 := by
  have hin : slotKey n 0 ≤ slotKey n w ∧ slotKey n w < slotKey (n + 1) 0 := by
    unfold slotKey Tab.SLOT tabKey
    omega
  unfold tb slotZero tabClear smGet
  rw [find_filter_out s.tabs (fun k => !(slotKey n 0 ≤ k && k < slotKey (n + 1) 0)) _ (by simpa using hin)]

/-- The slots' records lie below the ring of error records. -/
theorem slotKey_lt_err (hn : n < 262144) (hw : w < 8) : slotKey n w < Tab.ERR 0 := by
  unfold slotKey Tab.SLOT Tab.ERR tabKey
  omega

theorem slotState_slotZero (n : Nat) (s : State) : slotState n (slotZero n s) = 0 := by
  rw [slotState, slF, tbF, tb_slotZero (by decide)]
  rfl

/-- Slot `n` emptied, its buffers given back and a status of its parking copy posted. -/
def parkEmptied (n status pages : Nat) (s : State) : State :=
  slotZero n (post (slotCtx n s) status n (tb (slotKey n 5) s).toNat (slF n 2 SL.pos s) pages (slotGive n s))

theorem parkDone_ok (n : Nat) (s : State) : parkDone n true s =
    bump Reg.BPM_PARKED (parkEmptied n 4 (slF n 2 SL.bufs s + slF n 3 SL.pbufs s) s) := by
  unfold parkDone parkEmptied
  rw [if_pos rfl]

theorem parkDone_failed (n : Nat) (s : State) : parkDone n false s =
    log 0x0603 kSlot n (some (slotCtx n s)) [w64 (slF n 2 SL.pos s)] (parkEmptied n 6 0 s) := by
  unfold parkDone parkEmptied
  rw [if_neg Bool.false_ne_true]

theorem parkEmptied_frees (n status pages : Nat) (s : State) :
    SameParked s (parkEmptied n status pages s) ∧ slotState n (parkEmptied n status pages s) = 0 :=
  ⟨(SameParked.refl s).slotGive.post.slotZero, slotState_slotZero ..⟩

/-- The end of a parking copy frees the slot; one that succeeded counts in BPM_PARKED. -/
theorem parkDone_frees (hn : n < 262144) (ok : Bool) (s : State) : (parkDone n ok s).work = s.work ∧
    slotState n (parkDone n ok s) = 0 ∧ rd Reg.BPM_PARKED (parkDone n ok s) = rd Reg.BPM_PARKED s + (if ok then 1 else 0) := by
  cases ok with
  | true =>
    obtain ⟨hsame, hfree⟩ := parkEmptied_frees n 4 (slF n 2 SL.bufs s + slF n 3 SL.pbufs s) s
    rw [parkDone_ok]
    exact ⟨hsame.work, hfree, (rd_bump_same ..).trans (congrArg (· + 1) hsame.count)⟩
  | false =>
    obtain ⟨hsame, hfree⟩ := parkEmptied_frees n 6 0 s
    rw [parkDone_failed]
    refine ⟨hsame.log.work, ?_, ?_⟩
    · rw [slotState, slF, tbF, tb_log _ _ _ _ _ _ (slotKey_lt_err hn (by decide))]
      exact hfree
    · exact hsame.log.count.trans (BitVec.add_zero _).symm
end

/-! ## Copies that a boundary waits for (R163, R452) -/

/-- The boundary `b` once the first of its parking copies has ended, with the others left. -/
def parkedOn (n : Nat) (ok : Bool) (b : Boundary) (rest : List Nat) (s : State) : Boundary :=
  { b with parking := rest, endAt := max b.endAt (parkDone n (ok && linkUp s) s).cycle }

/-- The boundary `b` once its resume copy has ended. -/
def resumedOn (b : Boundary) (s : State) : Boundary := { b with resuming := none, endAt := max b.endAt s.cycle }

/-- The slot's buffers filled with the pages that a resume copy brought. -/
def resumeFilled (n : Nat) (bytes : List Byte) (s : State) : State :=
  ((ownBufs n s).zipIdx).foldl (fun t p =>
    setRurilTile p.1 ⟨BitVec.ofNat 128 (crc32c (subBytes bytes (p.2 * 4096) 4096)), subBytes bytes (p.2 * 4096) 4096⟩ t) s

/-- A resume copy's read that fails, counted and recorded. -/
def resumeFailed (n : Nat) (j : Join) (s : State) : State :=
  log 0x0108 kSlot n (some j.ctx) [w64 (resumeAddr j)] (bump Reg.GLB_HIF_XFER_FAIL s)

section
variable {n : Nat} {ok : Bool} {bytes : List Byte} {j : Join} {b : Boundary} {rest : List Nat} {s : State}
  (hb : s.pool.bnd = some b)
include hb

/-- The parking copy that is next ends; phase 3 goes on where it was the last. -/
theorem parkCopyDone_first (hp : b.parking = n :: rest) : parkCopyDone n ok s =
    let t := setBnd (parkedOn n ok b rest s) (parkDone n (ok && linkUp s) s)
    if rest.isEmpty then runPhase3 (parkedOn n ok b rest s) t else t := by
  simp only [parkCopyDone, hb, hp, if_true]
  rfl

/-- Pages that arrive fill the slot's buffers, and the join enters the slot. -/
theorem resumeCopyDone_pages (hr : b.resuming = some (n, j)) : resumeCopyDone n (some bytes) s =
    runPhase4 (resumedOn b s) (admitted j n (resumeFilled n bytes s)) := by
  simp only [resumeCopyDone, hb, hr, if_true]
  rfl

/-- A read that fails undoes the admission. -/
theorem resumeCopyDone_failed (hr : b.resuming = some (n, j)) : resumeCopyDone n none s = runPhase4 (resumedOn b s)
    (bump Reg.BPM_JOIN_DEFERRED (postJoin j 1 (slotZero n (slotGive n (resumeFailed n j s))))) := by
  have hfail : resumeXferFail s = resumeFailed n j s := by
    simp only [resumeXferFail, hb, Option.bind_some, hr]
    rfl
  have hkept : (resumeFailed n j s).pool = s.pool ∧ (resumeFailed n j s).cycle = s.cycle := by
    obtain ⟨_, _, _, _, _, _, _, e⟩ := log_only 0x0108 kSlot n (some j.ctx) [w64 (resumeAddr j)] (bump Reg.GLB_HIF_XFER_FAIL s)
    rw [resumeFailed, e]
    exact ⟨rfl, rfl⟩
  have hundo : resumeCopyDone n none s = resumeUndo (resumeXferFail s) := by
    simp only [resumeCopyDone, hb, hr, if_true]
  rw [hundo, hfail]
  simp only [resumeUndo, hkept.1, hb, hr, hkept.2]
  rfl

/-! ## The new step (R159) -/

theorem newStep_starts (hp : b.phase = 6) : let c := max s.cycle (frameFrom (max b.endAt s.cycle))
    newStep s = wr Reg.BPM_STEP_STATUS (w64 ((rdF Reg.BPM_STEP_STATUS Fld.BPM_STEP_STATUS_STEP s + 1) % 2 ^ 32))
      (wr Reg.TIR_STEP_START (w64 c) { s with cycle := c, pool := { s.pool with bnd := none } }) := by
  have hstep (c : Nat) (x : Pool) : rdF Reg.BPM_STEP_STATUS Fld.BPM_STEP_STATUS_STEP
      (wr Reg.TIR_STEP_START (w64 c) { s with cycle := c, pool := x }) = rdF Reg.BPM_STEP_STATUS Fld.BPM_STEP_STATUS_STEP s :=
    congrArg (getF _) (rd_wr_other _ _ (by decide))
  simp only [newStep, hb, hp, if_true, advanceTo, hstep]

theorem stepBegins_next (hp : b.phase = 6) : stepBegins s = boundaryTry (dovNewStep (newStep s)) := by
  simp only [stepBegins, hb, hp, if_true]
end

/-- The first frame start at or after a cycle. -/
theorem frameFrom_bounds (c : Nat) : frameFrom c % 16 = 0 ∧ c ≤ frameFrom c ∧ frameFrom c < c + 16 := by
  unfold frameFrom
  omega

end Sys2Proof.Machine

namespace Sys2Proof.Proofs
open Sys2Proof Sys2Proof.Machine

/-- Settles O24: a trigger enters the boundary by `boundaryTry_triggered`; each copy's end and the new step are one lemma each. -/
theorem stepBoundariesRun : Obligations.StepBoundariesRun := by
  constructor
  · intro v src s fin asked u byHand begins may
    have ends (h : asked) : exec (.bpmStepEnd v src) s = .next (settleAll (stepEndWrite fin u)) :=
      poolReg_settles (Reg.BPM_STEP_END, fun v _ => stepEndWrite v) (by simp [poolWrites]) h.2
    have mode : rdF Reg.BPM_STEP_CTL Fld.BPM_STEP_CTL_MODE u = rdF Reg.BPM_STEP_CTL Fld.BPM_STEP_CTL_MODE s :=
      rdF_arrived src _ s (by decide) (by decide)
    have qu (h : asked) : Quiet u := h.1.arrived src
    refine ⟨?begins, ?held, ?bySem, ?taken⟩
    case begins =>
      intro h hh hm
      have hpool : u.pool = s.pool := arrived_pool src s
      have htrig : u.pool.triggers = s.pool.triggers := congrArg Pool.triggers hpool
      have hmay : BoundaryMay { u with pool := { u.pool with triggers := u.pool.triggers + 1 } } := by
        obtain ⟨hb, h7, hdev⟩ := hm
        exact ⟨(congrArg Pool.bnd hpool).trans hb, (congrArg CtxSt.step7 (arrived_ctxs src s)).trans h7,
          (arrived_dev src s).symm ▸ hdev⟩
      have e := (stepEndWrite_byHand v (mode.trans hh)).trans (boundaryTry_triggered hmay (Nat.succ_pos _))
      refine ⟨_, (ends h).trans (congrArg (fun t => Host.Outcome.next (settleAll t)) e), ?_, htrig⟩
      exact (boundaryEnter_begun (qu h).1).of_same arrived_cycle (rd_arrived src s (by decide) (by decide))
        (arrived_benches src s) (arrived_tabs src s)
    case held =>
      intro h hh hb
      have hbnd : u.pool.bnd ≠ none := fun k => hb ((congrArg Pool.bnd (arrived_pool src s)).symm.trans k)
      have e := (stepEndWrite_byHand v (mode.trans hh)).trans (boundaryTry_running hbnd)
      exact (ends h).trans (congrArg _ ((congrArg settleAll e).trans (settleAll_quiet _ ((qu h).of_frame rfl rfl))))
    case bySem =>
      intro h hh
      rw [ends h, stepEndWrite_bySem fin (fun k => hh (mode.symm.trans k)), settleAll_quiet _ (qu h)]
    case taken =>
      intro ⟨hr, hw⟩ hm ht
      exact ⟨_, unitRow_settles _ hr (boundaryTry_triggered hm ht),
        boundaryEnter_begun (s := { s with pool := { s.pool with triggers := s.pool.triggers - 1 } }) hw, rfl⟩
  · intro n ok bytes j b s hn ⟨hr, hw⟩ hb start filled resumed failed parked
    refine ⟨?parks, fun hp => slotRow_settles _ hn hr (parkCopyDone_first hb hp), fun hres =>
      ⟨slotRow_settles _ hn hr (resumeCopyDone_pages hb hres), slotRow_settles _ hn hr (resumeCopyDone_failed hb hres)⟩, ?starts⟩
    case parks =>
      intro rest hp hne
      obtain ⟨hwork, hfree, hcount⟩ := parkDone_frees hn (ok && linkUp s) s
      have e : parkCopyDone n ok s = setBnd (parked rest) (parkDone n (ok && linkUp s) s) :=
        (parkCopyDone_first hb hp).trans (if_neg (mt List.isEmpty_iff.1 hne))
      exact ⟨_, (slotRow_settles _ hn hr e).trans (congrArg _ (settle_quiet _ (hwork.trans hw))), hfree, rfl, hcount⟩
    case starts =>
      intro hp
      obtain ⟨hframe, hfrom, hto⟩ := frameFrom_bounds (max b.endAt s.cycle)
      have hpast : s.cycle ≤ start := (Nat.le_max_right ..).trans hfrom
      have e := newStep_starts hb hp
      dsimp only at e
      rw [show max s.cycle (frameFrom (max b.endAt s.cycle)) = start from Nat.max_eq_right hpast] at e
      refine ⟨newStep s, unitRow_settles _ hr (stepBegins_next hb hp), hframe, hpast, hto, ?_⟩
      rw [e]
      exact ⟨rfl, (rd_wr_other _ _ (by decide)).trans (rd_wr_same ..), rfl, rd_wr_same .., rfl⟩

end Sys2Proof.Proofs
end

section
/-!
The buffer pool (O23): words of Ruril read after they were written, buffer descriptors, initialisation, slot leaves, and the
buffer requests.
-/
namespace Sys2Proof.Machine

/-! ## Words of Ruril (R116, R145) -/

/-- Bytes apart from those that were written read as before. -/
theorem memRead_memWrite_apart (m : SMap Byte) {a b n : Nat} {bs : List Byte} (h : b + n ≤ a ∨ a + bs.length ≤ b) :
    memRead (memWrite m a bs) b n = memRead m b n := by
  have hin : (cellsOf a bs).filter (fun p => b ≤ p.1 && p.1 < b + n) = [] := by
    rw [List.filter_eq_nil_iff]
    intro p hp
    obtain ⟨hlo, hhi, -⟩ := cellsOf_range a bs p hp
    simp only [Bool.and_eq_true, decide_eq_true_eq]
    omega
  have hold : (m.filter (fun p => p.1 < a)).filter (fun p => b ≤ p.1 && p.1 < b + n) ++
      (m.filter (fun p => a + bs.length ≤ p.1)).filter (fun p => b ≤ p.1 && p.1 < b + n) =
      m.filter (fun p => b ≤ p.1 && p.1 < b + n) := by
    rw [List.filter_filter, List.filter_filter]
    have hnil (f g : Nat → Bool) (hno : ∀ k, f k = true → g k = true → False) :
        m.filter (fun p => f p.1 && g p.1) = [] :=
      List.filter_eq_nil_iff.2 fun p _ k => hno p.1 (Bool.and_eq_true_iff.1 k).1 (Bool.and_eq_true_iff.1 k).2
    have hall (f g : Nat → Bool) (hall : ∀ k, f k = true → g k = true) :
        m.filter (fun p => f p.1 && g p.1) = m.filter (fun p => f p.1) :=
      List.filter_congr fun p _ => by
        cases hf : f p.1 with
        | false => rfl
        | true => exact hall _ hf
    rcases h with h | h
    · rw [hnil (fun k => b ≤ k && k < b + n) (fun k => a + bs.length ≤ k) (by simp; omega), List.append_nil]
      exact hall (fun k => b ≤ k && k < b + n) (fun k => k < a) (by simp; omega)
    · rw [hnil (fun k => b ≤ k && k < b + n) (fun k => k < a) (by simp; omega), List.nil_append]
      exact hall (fun k => b ≤ k && k < b + n) (fun k => a + bs.length ≤ k) (by simp; omega)
  rw [memRead, memRead, memWrite, List.filter_append, List.filter_append, hin, List.append_nil, hold]

section
variable {a b : Nat} (v : Nat) (s : State)

/-- A word reads back as it was written, modulo 2^64. -/
theorem rurilWord_same : rurilWord a (setRurilBytes a (leBytes 8 v) s) = v % 2 ^ 64 := by
  have h := memRead_memWrite s.ruril a (leBytes 8 v)
  rw [length_leBytes] at h
  exact (congrArg leNat h).trans (leNat_leBytes 8 v)

/-- Writing a word leaves the words apart from it. -/
theorem rurilWord_apart (h : b + 8 ≤ a ∨ a + 8 ≤ b) : rurilWord b (setRurilBytes a (leBytes 8 v) s) = rurilWord b s :=
  congrArg leNat (memRead_memWrite_apart s.ruril (by rwa [length_leBytes]))
end

/-! ## Buffer descriptors (R143) -/

/-- The descriptor of buffer `n`. -/
def bdWord (n : Nat) (s : State) : Word := w64 (rurilWord (bdAddr n s) s)

theorem bdF_eq (n : Nat) (f : Fld) (s : State) : bdF n f s = getF f (bdWord n s) := rfl

section
variable {n : Nat} {f g : Fld} {s t : State}

/-- Where the descriptors lie follows from the registers of the pool. -/
theorem bdAddr_of_regs (hb : rdF Reg.BPM_POOL Fld.BPM_POOL_BASE t = rdF Reg.BPM_POOL Fld.BPM_POOL_BASE s)
    (hd : rdF Reg.BPM_POOL_CTL Fld.BPM_POOL_CTL_DBASE t = rdF Reg.BPM_POOL_CTL Fld.BPM_POOL_CTL_DBASE s) :
    bdAddr n t = bdAddr n s := by
  unfold bdAddr poolBase
  rw [hb, hd]

theorem bdWord_stored (w : Word) (s : State) : bdWord n (setRurilBytes (bdAddr n s) (leBytes 8 w.toNat) s) = w := by
  have h : rurilWord (bdAddr n s) (setRurilBytes (bdAddr n s) (leBytes 8 w.toNat) s) = w.toNat :=
    (rurilWord_same ..).trans (Nat.mod_eq_of_lt w.isLt)
  exact (congrArg w64 h).trans (w64_toNat w)

theorem bdWord_bdW (x : Nat) : bdWord n (bdW n f x s) = setF f (bdWord n s) x := bdWord_stored ..

theorem bdF_bdW_other (x : Nat) (hg : g.lo + g.width ≤ 64) (h : g.lo + g.width ≤ f.lo ∨ f.lo + f.width ≤ g.lo) :
    bdF n g (bdW n f x s) = bdF n g s := by
  rw [bdF_eq, bdWord_bdW, getF_setF_other _ _ _ _ hg h, bdF_eq]
end

/-! ## Initialisation (R150) -/

/-- Buffer `k` of the pool made free: its link word names the next one, and its descriptor is 0. -/
def bufThread (base len k : Nat) (s : State) : State :=
  let t := setRurilBytes ((base + k) * 4096) (leBytes 8 (if k + 1 = len then bufEnd else base + k + 1)) s
  setRurilBytes (bdAddr (base + k) t) (leBytes 8 0) t

/-- The first `m` buffers of the pool made free. -/
def poolThread (base len m : Nat) (s : State) : State := (upto m).foldl (fun t k => bufThread base len k t) s

section
variable {base len : Nat} {s : State}

theorem poolThread_succ (m : Nat) : poolThread base len (m + 1) s = bufThread base len m (poolThread base len m s) := by
  simp [poolThread, List.range_succ]

/-- Initialisation writes words of Ruril. -/
theorem poolThread_only (m : Nat) : ∃ r, poolThread base len m s = { s with ruril := r } := by
  induction m with
  | zero => exact ⟨_, rfl⟩
  | succ m ih =>
    obtain ⟨r, e⟩ := ih
    rw [poolThread_succ, e]
    exact ⟨_, rfl⟩

/-- Once they are free, each buffer links to the next and has the descriptor 0, where the descriptors lie apart from the pool. -/
theorem poolThread_words {m : Nat} (hbase : poolBase s = base) (hm : m ≤ len)
    (hd : bdAddr base s + len * 8 ≤ base * 4096 ∨ (base + len) * 4096 ≤ bdAddr base s) : ∀ k < m,
    rurilWord ((base + k) * 4096) (poolThread base len m s) = (if k + 1 = len then bufEnd else base + k + 1) % 2 ^ 64 ∧
      rurilWord (bdAddr base s + k * 8) (poolThread base len m s) = 0 := by
  induction m with
  | zero => simp
  | succ m ih =>
    have haddr : bdAddr (base + m) (poolThread base len m s) = bdAddr base s + m * 8 := by
      obtain ⟨r, e⟩ := poolThread_only (base := base) (len := len) (s := s) m
      rw [e]
      have hsame : bdAddr (base + m) { s with ruril := r } = bdAddr (base + m) s := rfl
      rw [hsame, bdAddr, bdAddr, hbase]
      omega
    have hstep : poolThread base len (m + 1) s = setRurilBytes (bdAddr base s + m * 8) (leBytes 8 0)
        (setRurilBytes ((base + m) * 4096) (leBytes 8 (if m + 1 = len then bufEnd else base + m + 1))
          (poolThread base len m s)) := by
      rw [poolThread_succ, ← haddr]
      rfl
    intro k hk
    rw [hstep]
    obtain rfl | hlt := Nat.eq_or_lt_of_le (Nat.le_of_lt_succ hk)
    · exact ⟨(rurilWord_apart _ _ (by omega)).trans (rurilWord_same ..), rurilWord_same ..⟩
    · obtain ⟨hlink, hdesc⟩ := ih (by omega) k hlt
      rw [rurilWord_apart _ _ (by omega), rurilWord_apart _ _ (by omega), rurilWord_apart _ _ (by omega),
        rurilWord_apart _ _ (by omega)]
      exact ⟨hlink, hdesc⟩
end

/-- What is in use follows from the tables. -/
theorem usedSlots_of_tabs {s t : State} (h : t.tabs = s.tabs) : usedSlots t = usedSlots s := by
  unfold usedSlots tabKeys slotState slF tbF tb
  rw [h]

theorem usedSlots_wrF (r : Nat) (f : Fld) (v : Nat) (s : State) : usedSlots (wrF r f v s) = usedSlots s := usedSlots_of_tabs rfl

theorem usedSlots_cleared (s : State) : usedSlots (tabClear (slotKey 0 0) (slotKey 262144 0) s) = [] := by
  have h : tabKeys (slotKey 0 0) (slotKey 262144 0) (tabClear (slotKey 0 0) (slotKey 262144 0) s) = [] := by
    unfold tabKeys tabClear
    rw [List.filter_filter, List.filter_eq_nil_iff.2 (fun p _ => by simp), List.map_nil]
  rw [usedSlots, h]
  rfl

/-- The pool as initialisation leaves it: every buffer on the free list, and every slot FREE. -/
def poolFreed (s : State) : State :=
  tabClear (slotKey 0 0) (slotKey 262144 0) (wr Reg.BPM_FREE_COUNT (w64 (poolLen s))
    (wrF Reg.BPM_FREE_HEAD Fld.BPM_FREE_HEAD_HEAD (if poolLen s = 0 then bufEnd else poolBase s)
      (poolThread (poolBase s) (poolLen s) (poolLen s) s)))

section
variable {s : State} {v : Word} {src : Src}

theorem poolInit_busy (h : rdF Reg.BPM_POOL_CTL Fld.BPM_POOL_CTL_BUSY s = 1) :
    poolInit s = wrF Reg.BPM_POOL_CTL Fld.BPM_POOL_CTL_BUSY 0 (poolFreed s) := by
  simp only [poolInit, poolFreed, poolThread, bufThread, h, if_true]

theorem poolLen_lt (s : State) : poolLen s < 2 ^ 28 := getF_lt ..
theorem poolBase_lt (s : State) : poolBase s < 2 ^ 28 := getF_lt ..

/-- Initialisation counts every buffer of the pool as free. -/
theorem freeCount_poolInit (h : rdF Reg.BPM_POOL_CTL Fld.BPM_POOL_CTL_BUSY s = 1) : freeCount (poolInit s) = poolLen s := by
  have hword : rd Reg.BPM_FREE_COUNT (poolInit s) = w64 (poolLen s) := by
    rw [poolInit_busy h, rd_wrF_other _ _ _ (by decide), poolFreed, rd_tabClear, rd_wr_same]
  rw [freeCount, hword]
  exact (BitVec.toNat_ofNat ..).trans (Nat.mod_eq_of_lt ((poolLen_lt s).trans (by decide)))

/-- The list starts at the first buffer of the pool, where there is one. -/
theorem freeHead_poolInit (h : rdF Reg.BPM_POOL_CTL Fld.BPM_POOL_CTL_BUSY s = 1) :
    freeHead (poolInit s) = if poolLen s = 0 then bufEnd else poolBase s := by
  have hlt : (if poolLen s = 0 then bufEnd else poolBase s) < 2 ^ 28 := by
    split
    · decide
    · exact poolBase_lt s
  rw [poolInit_busy h, freeHead, rdF, rd_wrF_other _ _ _ (by decide), poolFreed, rd_tabClear, rd_wr_other _ _ (by decide),
    rd_wrF_same, getF_setF_same _ _ _ (by decide)]
  exact Nat.mod_eq_of_lt hlt

theorem busy_poolInit (h : rdF Reg.BPM_POOL_CTL Fld.BPM_POOL_CTL_BUSY s = 1) :
    rdF Reg.BPM_POOL_CTL Fld.BPM_POOL_CTL_BUSY (poolInit s) = 0 := by
  rw [poolInit_busy h, rdF, rd_wrF_same, getF_setF_same _ _ _ (by decide)]
  exact Nat.zero_mod _

theorem usedSlots_poolInit (h : rdF Reg.BPM_POOL_CTL Fld.BPM_POOL_CTL_BUSY s = 1) : usedSlots (poolInit s) = [] := by
  rw [poolInit_busy h, usedSlots_wrF, poolFreed, usedSlots_cleared]

/-- Every buffer of the pool is free and links to the next, where the descriptors lie apart from the pool. -/
theorem poolInit_threads (h : rdF Reg.BPM_POOL_CTL Fld.BPM_POOL_CTL_BUSY s = 1) (hend : poolBase s + poolLen s < bufEnd)
    (hd : bdAddr (poolBase s) s + poolLen s * 8 ≤ poolBase s * 4096 ∨
      (poolBase s + poolLen s) * 4096 ≤ bdAddr (poolBase s) s) : ∀ k < poolLen s,
    bdF (poolBase s + k) BD.state (poolInit s) = 0 ∧
      linkOf (poolBase s + k) (poolInit s) = if k + 1 = poolLen s then bufEnd else poolBase s + k + 1 := by
  intro k hk
  obtain ⟨hlink, hdesc⟩ := poolThread_words rfl (Nat.le_refl _) hd k hk
  obtain ⟨r, e⟩ := poolThread_only (base := poolBase s) (len := poolLen s) (s := s) (poolLen s)
  have hruril : (poolInit s).ruril = (poolThread (poolBase s) (poolLen s) (poolLen s) s).ruril := by
    rw [poolInit_busy h]
    rfl
  have hword (a : Nat) : rurilWord a (poolInit s) = rurilWord a (poolThread (poolBase s) (poolLen s) (poolLen s) s) := by
    unfold rurilWord
    rw [hruril]
  have hrd {q : Nat} (f : Fld) (hh : q ≠ Reg.BPM_FREE_HEAD) (hc : q ≠ Reg.BPM_FREE_COUNT) :
      rdF q f (poolFreed s) = rdF q f s := by
    rw [rdF, poolFreed, rd_tabClear, rd_wr_other _ _ hc, rd_wrF_other _ _ _ hh, e]
    rfl
  have haddr : bdAddr (poolBase s + k) (poolInit s) = bdAddr (poolBase s) s + k * 8 := by
    have hsame : bdAddr (poolBase s + k) (poolInit s) = bdAddr (poolBase s + k) s := by
      refine bdAddr_of_regs ?_ ?_ <;> rw [poolInit_busy h, rdF]
      · rw [rd_wrF_other _ _ _ (by decide)]
        exact hrd _ (by decide) (by decide)
      · rw [rd_wrF_same, getF_setF_other _ _ _ _ (by decide) (by decide)]
        exact hrd _ (by decide) (by decide)
    rw [hsame, bdAddr, bdAddr]
    omega
  constructor
  · rw [bdF, haddr, hword, hdesc]
    rfl
  · have hlt : (if k + 1 = poolLen s then bufEnd else poolBase s + k + 1) < 2 ^ 28 := by
      unfold bufEnd at hend ⊢
      split <;> omega
    rw [linkOf, hword, hlink, Nat.mod_eq_of_lt (hlt.trans (by decide)), Nat.mod_eq_of_lt hlt]

/-- An initialisation begins where none runs and no slot is in use. -/
theorem poolCtlWrite_begins (hb : rdF Reg.BPM_POOL_CTL Fld.BPM_POOL_CTL_BUSY s ≠ 1) (hu : usedSlots s = []) :
    poolCtlWrite (withBit Fld.BPM_POOL_CTL_INIT v) src s = wrF Reg.BPM_POOL_CTL Fld.BPM_POOL_CTL_BUSY 1
      (wrF Reg.BPM_POOL_CTL Fld.BPM_POOL_CTL_DBASE (getF Fld.BPM_POOL_CTL_DBASE v) s) := by
  unfold poolCtlWrite
  dsimp only
  rw [if_pos (bitF_withBit v (by decide) (by decide)), if_neg (by simp [hb, hu]),
    getF_withBit_other v (by decide) (by decide)]

theorem poolCtlWrite_refused (h : ¬ (rdF Reg.BPM_POOL_CTL Fld.BPM_POOL_CTL_BUSY s ≠ 1 ∧ usedSlots s = [])) :
    poolCtlWrite (withBit Fld.BPM_POOL_CTL_INIT v) src s = refuse src Reg.BPM_POOL_CTL s := by
  unfold poolCtlWrite
  dsimp only
  rw [if_pos (bitF_withBit v (by decide) (by decide)), if_pos]
  simp only [Bool.not_eq_true', List.isEmpty_eq_false_iff]
  tauto
end

/-- Nothing is left to settle in a state that is quiet. -/
theorem next_settleAll {x y : State} (e : x = y) (q : Quiet y) :
    (.next (settleAll x) : Host.Outcome State Fault Refusal) = .next y :=
  congrArg _ ((congrArg settleAll e).trans (settleAll_quiet _ q))

/-! ## Leaves (R157) -/

/-- The two statuses with which software lets a slot leave: COMPLETE and LEFT. -/
def LeaveStatus (v : Word) : Prop := getF Fld.BPM_SLOT_REQ_STATUS v = 2 ∨ getF Fld.BPM_SLOT_REQ_STATUS v = 3

section
variable {v : Word} {s : State}

/-- An ACTIVE slot leaves with its status. -/
theorem slotReq_active (hs : LeaveStatus v) (hb : boundaryRuns s = false)
    (ha : slotState (getF Fld.BPM_SLOT_REQ_SLOT v) s = 1) : slotReq v s =
      slW (getF Fld.BPM_SLOT_REQ_SLOT v) 6 SL.status (getF Fld.BPM_SLOT_REQ_STATUS v)
        (slW (getF Fld.BPM_SLOT_REQ_SLOT v) 0 SL.state 2 s) := by
  refine (if_pos hs).trans ?_
  rw [leaveReq, if_neg (by simp [hb])]
  exact if_pos ha

/-- While a boundary runs a leave waits. -/
theorem slotReq_waits (hs : LeaveStatus v) (hb : boundaryRuns s = true) : slotReq v s = { s with pool := { s.pool with
    leaves := s.pool.leaves ++ [(getF Fld.BPM_SLOT_REQ_SLOT v, getF Fld.BPM_SLOT_REQ_STATUS v)] } } :=
  (if_pos hs).trans (if_pos hb)

/-- Another request is counted as bad. -/
theorem slotReq_bad (h : ¬ LeaveStatus v ∨ (boundaryRuns s = false ∧ slotState (getF Fld.BPM_SLOT_REQ_SLOT v) s ≠ 1)) :
    slotReq v s = bump Reg.BPM_BAD_REQ s := by
  by_cases hs : LeaveStatus v
  · obtain ⟨hb, ha⟩ := h.resolve_left (not_not.2 hs)
    refine (if_pos hs).trans ?_
    rw [leaveReq, if_neg (by simp [hb]), leave, if_neg ha]
  · exact if_neg hs
end

/-! ## Buffer requests (R146, R147, R164) -/

/-- Buffer `n` is one of the pool, in use, and FINAL names `h`. -/
def BufLive (h n : Nat) (s : State) : Prop :=
  isBuf n s = true ∧ (bdF n BD.state s = 1 ∨ bdF n BD.state s = 2) ∧ bdF n BD.final s = h

section
variable {h n num f : Nat} {soft ok : Bool} {s : State}

/-- A request leaves nothing for the end of its step. -/
theorem poolDo_work (r : PoolReq) (s : State) : (poolDo r s).work = s.work := by
  have hresult (status k : Nat) (t : State) : (setResult r.soft status k t).work = t.work := by
    unfold setResult
    split <;> rfl
  have hbroken (k : Nat) (t : State) : (listBroken k t).work = t.work := (SameParked.refl t).log.work
  unfold poolDo
  dsimp only
  by_cases h1 : r.op = 1
  · rw [if_pos h1]
    split
    · exact hresult ..
    · refine (hresult ..).trans ?_
      split
      · rfl
      · exact hbroken ..
  rw [if_neg h1]
  by_cases h2 : r.op = 2
  · rw [if_pos h2, hresult]
    unfold poolShare
    split <;> rfl
  rw [if_neg h2]
  by_cases h3 : r.op = 3
  · rw [if_pos h3, hresult]
    exact (SameParked.refl s).poolDrop.work
  rw [if_neg h3]
  by_cases h4 : r.op = 4
  · rw [if_pos h4]
    split
    · exact (hresult ..).trans (SameParked.refl s).poolFree.work
    · exact (hresult ..).trans (hbroken ..)
  · rw [if_neg h4]
    exact hresult ..

/-- While a boundary runs a request waits its turn. -/
theorem poolRow_waits (r : PoolReq) (hs : Working s) (hb : boundaryRuns s = true) :
    unitRow (poolReq r) s = .next { s with pool := { s.pool with held := s.pool.held ++ [r] } } :=
  unitRow_next _ hs.1 (if_pos hb) hs.2

/-- While none runs it is carried out. -/
theorem poolRow_does (r : PoolReq) (hs : Working s) (hb : boundaryRuns s = false) : unitRow (poolReq r) s = .next (poolDo r s) :=
  unitRow_next _ hs.1 (if_neg (by simp [hb])) ((poolDo_work r s).trans hs.2)

/-- An ALLOC from an empty list. -/
theorem poolDo_alloc_empty (hc : freeCount s = 0) :
    poolDo ⟨1, h, 0, 0, 0, soft, ok⟩ s = setResult soft 3 0 (bump Reg.BPM_ALLOC_FAIL s) := by
  unfold poolDo
  dsimp only
  rw [if_pos rfl, if_pos hc]

/-- An ALLOC of the head of the list. -/
theorem poolDo_alloc (hc : freeCount s ≠ 0) :
    poolDo ⟨1, h, 0, 0, 0, soft, true⟩ s = setResult soft 1 (freeHead s) (bufAlloc h s).2 := by
  unfold poolDo
  dsimp only
  rw [if_pos rfl, if_neg hc, if_pos rfl]
  rfl

theorem poolDo_share (hl : BufLive h n s) (hu : bdF n BD.users s + num ≤ 255) : poolDo ⟨2, h, n, num, f, soft, true⟩ s =
    setResult soft 1 n (bdW n BD.final f (bdW n BD.users (bdF n BD.users s + num) (bdW n BD.state 2 s))) := by
  obtain ⟨hbuf, hst, hfin⟩ := hl
  have e : poolShare h n num f s = (true, _) := if_pos (by simp [hbuf, hst, hfin, hu])
  simp [poolDo, e]

theorem poolDo_share_bad (hl : ¬ (BufLive h n s ∧ bdF n BD.users s + num ≤ 255)) :
    poolDo ⟨2, h, n, num, f, soft, true⟩ s = setResult soft 2 n (bump Reg.BPM_BAD_REQ s) := by
  have e : poolShare h n num f s = (false, _) := if_neg (by simpa [BufLive, and_assoc] using hl)
  simp [poolDo, e]

theorem poolDo_drop (hbuf : isBuf n s = true) (hst : bdF n BD.state s = 2) (hu : 0 < bdF n BD.users s) :
    poolDo ⟨3, h, n, 0, 0, soft, true⟩ s = setResult soft 1 n (bufDrop n s) := by
  have e : poolDrop n s = (true, _) := if_pos (by simp [hbuf, hst, hu])
  simp [poolDo, e]

theorem poolDo_drop_bad (hn : ¬ (isBuf n s = true ∧ bdF n BD.state s = 2 ∧ 0 < bdF n BD.users s)) :
    poolDo ⟨3, h, n, 0, 0, soft, true⟩ s = setResult soft 2 n (bump Reg.BPM_BAD_REQ s) := by
  have e : poolDrop n s = (false, _) := if_neg (by simpa [and_assoc] using hn)
  simp [poolDo, e]

/-- A user who is not the last is taken away. -/
theorem bufDrop_more (hu : 1 < bdF n BD.users s) : bufDrop n s = bdW n BD.users (bdF n BD.users s - 1) s :=
  if_neg (by omega)

/-- With the last user the buffer is allocated again, or free where a FREE waits for that. -/
theorem bufDrop_last (hu : bdF n BD.users s = 1) : bufDrop n s =
    if bdF n BD.freeing s = 1 then bufFree n (bdW n BD.state 1 (bdW n BD.users 0 s))
    else bdW n BD.state 1 (bdW n BD.users 0 s) := by
  have hfreeing : bdF n BD.freeing (bdW n BD.state 1 (bdW n BD.users 0 s)) = bdF n BD.freeing s :=
    (bdF_bdW_other _ (by decide) (by decide)).trans (bdF_bdW_other _ (by decide) (by decide))
  unfold bufDrop
  dsimp only
  rw [hu, if_pos rfl, hfreeing]

theorem freeOk_iff : freeOk h n s = true ↔ BufLive h n s ∧ bdF n BD.freeing s = 0 := by
  simp [freeOk, BufLive, and_assoc]

theorem poolDo_free (hl : BufLive h n s) (hf : bdF n BD.freeing s = 0) : poolDo ⟨4, h, n, 0, 0, soft, true⟩ s =
    setResult soft 1 n (if bdF n BD.users s = 0 then bufFree n s else bdW n BD.freeing 1 s) := by
  have e : poolFree h n s = (true, _) := if_pos (freeOk_iff.2 ⟨hl, hf⟩)
  simp [poolDo, e]

theorem poolDo_free_bad (hl : ¬ (BufLive h n s ∧ bdF n BD.freeing s = 0)) : poolDo ⟨4, h, n, 0, 0, soft, true⟩ s =
    setResult soft 2 n (log 0x0601 kBuffer n none [w64 h] (bump Reg.BPM_FREE_REFUSED s)) := by
  have e : poolFree h n s = (false, _) := if_neg (mt freeOk_iff.1 hl)
  simp [poolDo, e]
end

/-! ## An allocation (R146, R148) -/

/-- The descriptor of a buffer that holder `h` is given. -/
def allocWord (h : Nat) : Word := setF BD.final (setF BD.state (setF BD.next 0 bufEnd) 1) h

theorem getF_allocWord (h : Nat) : getF BD.final (allocWord h) = h % 2 ^ 24 ∧ getF BD.users (allocWord h) = 0 ∧
    getF BD.freeing (allocWord h) = 0 ∧ getF BD.state (allocWord h) = 1 ∧ getF BD.next (allocWord h) = bufEnd := by
  have hapart (g : Fld) (hg : g.lo + g.width ≤ 39) : getF g (allocWord h) = getF g (setF BD.state (setF BD.next 0 bufEnd) 1) :=
    getF_setF_other _ _ _ _ (by omega) (.inl hg)
  refine ⟨getF_setF_same _ _ _ (by decide), ?_, ?_, ?_, ?_⟩ <;> rw [hapart _ (by decide)] <;> decide

/-- The list once its head has been taken. -/
def headTaken (s : State) : State :=
  wr Reg.BPM_FREE_COUNT (rd Reg.BPM_FREE_COUNT s - 1) (wrF Reg.BPM_FREE_HEAD Fld.BPM_FREE_HEAD_HEAD (linkOf (freeHead s) s) s)

section
variable {h : Nat} {s : State}

theorem bufAlloc_eq (h : Nat) (s : State) : (bufAlloc h s).2 = spoilTag (freeHead s)
    (setRurilBytes (bdAddr (freeHead s) (headTaken s)) (leBytes 8 (allocWord h).toNat) (headTaken s)) := by
  unfold bufAlloc headTaken
  dsimp only
  rw [rd_wrF_other _ _ _ (by decide)]
  rfl

/-- An allocation writes the list's registers, its buffer's descriptor and its tag. -/
theorem bufAlloc_takes (h : Nat) (hc : freeCount s ≠ 0) : let t := (bufAlloc h s).2
    freeHead t = linkOf (freeHead s) s ∧ freeCount t = freeCount s - 1 ∧ bdWord (freeHead s) t = allocWord h ∧
      rd Reg.BPM_RESULT t = rd Reg.BPM_RESULT s := by
  have hrd (k : Nat) : rd k (bufAlloc h s).2 = rd k (headTaken s) := by
    rw [bufAlloc_eq]
    rfl
  have hlink : linkOf (freeHead s) s < 2 ^ 28 := Nat.mod_lt _ (by decide)
  refine ⟨?_, ?_, ?_, ?_⟩
  · rw [freeHead, rdF, hrd, headTaken, rd_wr_other _ _ (by decide), rd_wrF_same, getF_setF_same _ _ _ (by decide)]
    exact Nat.mod_eq_of_lt hlink
  · rw [freeCount, hrd, headTaken, rd_wr_same]
    exact BitVec.toNat_sub_of_le (by rw [BitVec.le_def]; exact Nat.one_le_iff_ne_zero.2 hc)
  · rw [bufAlloc_eq]
    exact bdWord_stored ..
  · rw [hrd, headTaken, rd_wr_other _ _ (by decide), rd_wrF_other _ _ _ (by decide)]

/-- A spoiled tag's CRC is not that of its payload. -/
theorem spoilTag_crc (n : Nat) (s : State) : tagF Fld.TAG_CRC (rurilTile n (spoilTag n s)).tag ≠
    crc32c (rurilTile n (spoilTag n s)).payload := by
  have htag : (rurilTile n (spoilTag n s)).tag = BitVec.ofNat 128 ((rurilTile n s).tag.toNat / 2 ^ 32 * 2 ^ 32 +
      (crc32c (rurilTile n s).payload + 1) % 2 ^ 32) :=
    smGet_smPut_same (fun _ => blankTag) s.rtags n _
  have hpay : (rurilTile n (spoilTag n s)).payload = (rurilTile n s).payload := rfl
  rw [htag, hpay, tagF]
  simp only [BitVec.toNat_ofNat, Fld.TAG_CRC]
  omega
end

/-- The register of results is apart from all that a buffer's state is read from. -/
theorem setResult_leaves (soft : Bool) (status k : Nat) (s : State) : let t := setResult soft status k s
    freeHead t = freeHead s ∧ freeCount t = freeCount s ∧ (∀ n, bdWord n t = bdWord n s) ∧
      (∀ n, rurilTile n t = rurilTile n s) ∧
      rd Reg.BPM_RESULT t = if soft then w64 (status * 2 ^ 60 + k % 2 ^ 28) else rd Reg.BPM_RESULT s := by
  cases soft with
  | false => exact ⟨rfl, rfl, fun _ => rfl, fun _ => rfl, rfl⟩
  | true =>
    have hrd {q : Nat} (hq : q ≠ Reg.BPM_RESULT) :
        rd q (setResult true status k s) = rd q s := rd_wr_other _ _ hq
    have haddr (n : Nat) : bdAddr n (setResult true status k s) = bdAddr n s :=
      bdAddr_of_regs (congrArg (getF _) (hrd (by decide))) (congrArg (getF _) (hrd (by decide)))
    refine ⟨congrArg (getF _) (hrd (by decide)), congrArg BitVec.toNat (hrd (by decide)), fun n => ?_, fun _ => rfl,
      rd_wr_same ..⟩
    rw [bdWord, haddr]
    rfl

end Sys2Proof.Machine

namespace Sys2Proof.Proofs
open Sys2Proof Sys2Proof.Machine

/-- Settles O23: the writes by their registers' rules, and each request by what `poolDo` does with it. -/
theorem poolAndBufferRequestsComplete : Obligations.PoolAndBufferRequestsComplete := by
  constructor
  · intro v src s init u idle asked req n st d
    have inits (h : asked) : exec (.bpmPoolInit v src) s = .next (settleAll (poolCtlWrite init src u)) :=
      poolReg_settles (Reg.BPM_POOL_CTL, poolCtlWrite) (by simp [poolWrites]) h.2
    have leaves (h : req) : exec (.bpmSlotReq v src) s = .next (settleAll (slotReq v u)) :=
      poolReg_settles (Reg.BPM_SLOT_REQ, fun v _ => slotReq v) (by simp [poolWrites]) h.2
    have quiet (h : Quiet s) : Quiet u := h.arrived src
    have hbusy : rdF Reg.BPM_POOL_CTL Fld.BPM_POOL_CTL_BUSY u = rdF Reg.BPM_POOL_CTL Fld.BPM_POOL_CTL_BUSY s :=
      rdF_arrived src _ s (by decide) (by decide)
    have hused : usedSlots u = usedSlots s := usedSlots_of_tabs (arrived_tabs src s)
    have hruns : boundaryRuns u = boundaryRuns s := by rw [boundaryRuns, arrived_pool, boundaryRuns]
    have hslot : slotState n u = slotState n s := congrArg (getF _) (tb_of_tabs _ (arrived_tabs src s))
    refine ⟨?begins, ?refused, ?done, ?active, ?held, ?bad⟩
    case begins =>
      intro h ⟨hb, hu⟩
      have e := poolCtlWrite_begins (v := v) (src := src) (by rwa [hbusy]) (hused.trans hu)
      refine ⟨_, (inits h).trans (next_settleAll e ((quiet h.1).of_frame rfl rfl)),
        ?_, ?_, ?_, arrived_tabs src s, arrived_ruril src s⟩
      · rw [rdF, rd_wrF_same, getF_setF_same _ _ _ (by decide)]
        rfl
      · rw [rdF, rd_wrF_same, getF_setF_other _ _ _ _ (by decide) (by decide), rd_wrF_same, getF_setF_same _ _ _ (by decide)]
        exact Nat.mod_eq_of_lt (getF_lt ..)
      · intro off hoff
        rw [rd_wrF_other _ _ _ hoff, rd_wrF_other _ _ _ hoff]
    case refused =>
      intro h hno
      exact (inits h).trans (next_settleAll (poolCtlWrite_refused (by rwa [hbusy, hused])) ((quiet h.1).badAccess ..))
    case done =>
      intro hh hd hp hb
      have haddr : bdAddr (poolBase s) s = d := by rw [bdAddr, Nat.sub_self, Nat.zero_mul, Nat.add_zero]
      refine ⟨poolInit s, congrArg _ (if_neg (by simp [hh, hd, hp])), freeCount_poolInit hb, freeHead_poolInit hb, busy_poolInit hb,
        usedSlots_poolInit hb, fun hend hapart => ?_⟩
      exact poolInit_threads hb hend (haddr.symm ▸ hapart)
    case active =>
      intro h hst hb ha
      exact (leaves h).trans (next_settleAll (slotReq_active hst (hruns.trans hb) (hslot.trans ha)) ((quiet h.1).of_frame rfl rfl))
    case held =>
      intro h hst hb
      exact (leaves h).trans (next_settleAll (slotReq_waits hst (hruns.trans hb)) ((quiet h.1).of_frame rfl rfl))
    case bad =>
      intro h hbad
      have hno : ¬ LeaveStatus v ∨ (boundaryRuns u = false ∧ slotState n u ≠ 1) := by
        rw [hruns, hslot]
        exact hbad.imp_left fun k => not_or.2 k
      exact (leaves h).trans (next_settleAll (slotReq_bad hno) ((quiet h.1).wr _ _))
  · intro h buf n f ok soft s hs alloc share drop free waits now users live result bad
    have does (r : PoolReq) (hb : now) : unitRow (poolReq r) s = .next (poolDo r s) := poolRow_does r hs hb
    refine ⟨fun hb => ⟨poolRow_waits _ hs hb, poolRow_waits _ hs hb, poolRow_waits _ hs hb, poolRow_waits _ hs hb⟩,
      fun hb hc => (does _ hb).trans (congrArg _ (poolDo_alloc_empty hc)), ?alloc,
      fun hb hl hu => (does _ hb).trans (congrArg _ (poolDo_share hl hu)),
      fun hb hl => (does _ hb).trans (congrArg _ (poolDo_share_bad hl)), ?dropMore, ?dropLast,
      fun hb hno => (does _ hb).trans (congrArg _ (poolDo_drop_bad hno)), ?free, ?freeBad⟩
    case alloc =>
      intro hb hc hok
      subst hok
      obtain ⟨hhead, hcount, hword, hresult⟩ := bufAlloc_takes h hc
      obtain ⟨ehead, ecount, eword, etile, eresult⟩ := setResult_leaves soft 1 (freeHead s) (bufAlloc h s).2
      obtain ⟨hfinal, husers, hfreeing, hstate, hnext⟩ := getF_allocWord h
      have hfield (g : Fld) : bdF (freeHead s) g (setResult soft 1 (freeHead s) (bufAlloc h s).2) = getF g (allocWord h) := by
        rw [bdF_eq, eword, hword]
      refine ⟨_, (does _ hb).trans (congrArg _ (poolDo_alloc hc)), ehead.trans hhead, ecount.trans hcount,
        (hfield _).trans hfinal, (hfield _).trans husers, (hfield _).trans hfreeing, (hfield _).trans hstate,
        (hfield _).trans hnext, ?_, ?_⟩
      · rw [etile, bufAlloc_eq]
        exact spoilTag_crc _ _
      · rw [eresult, hresult, Nat.one_mul, Nat.mod_eq_of_lt (show freeHead s < 2 ^ 28 from getF_lt ..)]
    case dropMore =>
      intro hb hbuf hst hu
      exact (does _ hb).trans (congrArg _ ((poolDo_drop hbuf hst (by omega)).trans (congrArg _ (bufDrop_more hu))))
    case dropLast =>
      intro hb hbuf hst hu
      exact (does _ hb).trans (congrArg _ ((poolDo_drop hbuf hst (by omega)).trans (congrArg _ (bufDrop_last hu))))
    case free =>
      intro hb hok hl hf
      subst hok
      exact (does _ hb).trans (congrArg _ (poolDo_free hl hf))
    case freeBad =>
      intro hb hok hl
      subst hok
      exact (does _ hb).trans (congrArg _ (poolDo_free_bad hl))

end Sys2Proof.Proofs
end

section
/-!
The transport outside its window (O36): what the sending side leaves as it was, the packets and cells that are taken, and the
timers.
-/
namespace Sys2Proof.Machine

/-! ## What sending keeps (R293, R294, R298, R299) -/

/-- What every operation of the sending side keeps, from `s` to `t`: it takes no time and leaves the receiving sides. -/
structure SendKeeps (s t : State) : Prop where
  cycle : t.cycle = s.cycle
  rx : t.xport.rx = s.xport.rx

/-- `SendKeeps` of an operation that may have no result. -/
def OptSendKeeps (s₀ : State) (o : Option State) : Prop := ∀ ⦃t⦄, o = some t → SendKeeps s₀ t

theorem SendKeeps.refl (s : State) : SendKeeps s s := ⟨rfl, rfl⟩

theorem OptSendKeeps.none {s₀ : State} : OptSendKeeps s₀ none := fun _ e => by cases e

theorem OptSendKeeps.ite {s₀ : State} {a b : Option State} (h : OptSendKeeps s₀ a) (k : OptSendKeeps s₀ b) {p : Prop}
    {_ : Decidable p} : OptSendKeeps s₀ (if p then a else b) := by split <;> assumption

theorem SendKeeps.of_snd {α : Type} {s₀ t : State} {p : α × State} {a : α} (k : SendKeeps s₀ p.2) (e : p = (a, t)) :
    SendKeeps s₀ t := by cases e; exact k

section
variable {s₀ s : State} (h : SendKeeps s₀ s)
include h

theorem OptSendKeeps.some : OptSendKeeps s₀ (some s) := fun _ e => by cases e; exact h

theorem SendKeeps.same {t : State} (hc : t.cycle = s.cycle) (hr : t.xport.rx = s.xport.rx) : SendKeeps s₀ t :=
  ⟨hc.trans h.cycle, hr.trans h.rx⟩

theorem SendKeeps.ite {t : State} (k : SendKeeps s₀ t) {p : Prop} {_ : Decidable p} : SendKeeps s₀ (if p then s else t) := by
  split <;> assumption

theorem SendKeeps.foldl {α : Type} {f : State → α → State} (hf : ∀ t x, SendKeeps s₀ t → SendKeeps s₀ (f t x)) {l : List α} :
    SendKeeps s₀ (l.foldl f s) := by
  induction l generalizing s with
  | nil => exact h
  | cons x l ih => exact ih (hf s x h)

theorem SendKeeps.wr {k v} : SendKeeps s₀ (wr k v s) := h.same rfl rfl
theorem SendKeeps.wrF {k f x} : SendKeeps s₀ (wrF k f x s) := h.wr
theorem SendKeeps.bumpBy {n k} : SendKeeps s₀ (bumpBy n k s) := h.wr
theorem SendKeeps.bump {k} : SendKeeps s₀ (bump k s) := h.bumpBy
theorem SendKeeps.defer {w} : SendKeeps s₀ (defer w s) := h.same rfl rfl
theorem SendKeeps.setPort {n p} : SendKeeps s₀ (setPort n p s) := h.same rfl rfl
theorem SendKeeps.setRurilBytes {a bs} : SendKeeps s₀ (setRurilBytes a bs s) := h.same rfl rfl

theorem SendKeeps.log {code kind index ctx ds} : SendKeeps s₀ (log code kind index ctx ds s) := by
  obtain ⟨_, _, _, _, _, _, _, e⟩ := log_only code kind index ctx ds s
  rw [e]
  exact h.same rfl rfl

theorem SendKeeps.ctxFault {c code} : SendKeeps s₀ (ctxFault c code s) := .ite h.wrF.wrF.bump.log.defer h
theorem SendKeeps.bookPort {b inb} : SendKeeps s₀ (bookPort b inb s).2 := h.same rfl rfl
theorem SendKeeps.pushPacket {n p} : SendKeeps s₀ (pushPacket n p s) := .ite h.setPort h.setPort

theorem SendKeeps.netSend {p dst dstRank} : SendKeeps s₀ (netSend p dst dstRank s).2 := by
  unfold Machine.netSend
  split
  · exact h.pushPacket
  · exact h.bump

theorem SendKeeps.setTx {p} : SendKeeps s₀ (setTx p s) := by
  unfold Machine.setTx
  split
  · exact h.same rfl rfl
  · exact h.same rfl rfl
theorem SendKeeps.setCut {l} : SendKeeps s₀ (setCut l s) := h.same rfl rfl
theorem SendKeeps.cutAdd {r} : SendKeeps s₀ (cutAdd r s) := h.setCut.setRurilBytes
theorem SendKeeps.cutMap {p f} : SendKeeps s₀ (cutMap p f s) := .foldl h.setCut fun _ _ k => k.setRurilBytes

theorem SendKeeps.cutStall {c on} : SendKeeps s₀ (cutStall c on s) := by
  unfold Machine.cutStall
  split
  · exact h.same rfl rfl
  · exact h.same rfl rfl
  · exact h

theorem SendKeeps.bookSrc {src} : SendKeeps s₀ (bookSrc src s) := by
  unfold Machine.bookSrc
  split
  · exact .ite h h.bookPort
  · exact h

theorem SendKeeps.treeCopy {t c p} : SendKeeps s₀ (treeCopy t c p s) := .ite h.netSend h.netSend.setTx
theorem SendKeeps.recordSent {pair x acked} : SendKeeps s₀ (recordSent pair x acked s) := h.cutAdd
theorem SendKeeps.replayLost {pair seq ctx} : SendKeeps s₀ (replayLost pair seq ctx s) := h.log.ctxFault

theorem SendKeeps.markLost {pair seq} : SendKeeps s₀ (markLost pair seq s) := by
  unfold Machine.markLost
  split
  · exact .ite h h.cutMap.bump
  · exact h

theorem SendKeeps.resendOne {pair x ctr} : SendKeeps s₀ (resendOne pair x ctr s) := by
  unfold Machine.resendOne
  refine .ite h ?_
  split
  · exact h.markLost.replayLost
  · exact h.bookSrc.netSend.bump

theorem SendKeeps.sysSend {dst ctx p} : SendKeeps s₀ (sysSend dst ctx p s) := .ite h (.ite h.netSend h.netSend.setTx)

/-- A tree packet goes to each of the device's children. -/
theorem SendKeeps.treeCopies {t p} {l : List Nat} : SendKeeps s₀ (l.foldl (fun s c => Machine.treeCopy t c p s) s) :=
  .foldl h fun _ _ k => k.treeCopy

theorem SendKeeps.pumpOne {tree dst ctx} : OptSendKeeps s₀ (pumpOne tree dst ctx s) := by
  have stall {c on} : SendKeeps s₀ (Machine.cutStall c on s) := h.cutStall
  unfold Machine.pumpOne
  dsimp only
  split
  · exact .none
  · refine .ite .none (.ite (.some stall) (.ite ?tree (.ite .none (.ite ?again (.some ?first)))))
    case tree =>
      have sent {c t pkt pair x old acked} {l : List Nat} : SendKeeps s₀ (l.foldl (fun s c => Machine.treeCopy t c pkt s)
          (Machine.recordSent pair x acked (Machine.setTx old (Machine.cutStall c false s)))) :=
        stall.setTx.recordSent.treeCopies
      exact .some (.ite (.defer (.ite (.bump sent) (.bumpBy sent))) (.ite (.bump sent) (.bumpBy sent)))
    case again =>
      split
      · have sent {c src p d r} : SendKeeps s₀ (Machine.netSend p d r (Machine.bookSrc src (Machine.cutStall c false s))).2 :=
          stall.bookSrc.netSend
        exact .some (.ite (.ite sent.setTx.bump sent.setTx.bump.recordSent) sent.setTx)
      · exact .some stall.setTx.markLost.replayLost
    case first => exact .ite (.ite stall.netSend.setTx.bump stall.netSend.setTx.bump.recordSent) stall.netSend.setTx

theorem SendKeeps.pumpN {tree dst ctx n} : SendKeeps s₀ (pumpN tree dst ctx n s) := by
  induction n generalizing s with
  | zero => exact h
  | succ n ih =>
    unfold Machine.pumpN
    split
    · exact h
    · next e => exact .ite (ih (h.pumpOne e)) (h.pumpOne e)

theorem SendKeeps.pump {tree dst ctx} : SendKeeps s₀ (pump tree dst ctx s) := h.pumpN

theorem SendKeeps.retryCtl {pair} : SendKeeps s₀ (retryCtl pair s) := by
  refine .foldl h.setTx fun _ _ k => .ite k.treeCopy (.ite ?_ k.sysSend)
  split
  next e => exact .ite (k.netSend.of_snd e) (k.netSend.of_snd e).setTx

/-- The resends of a pass of the timer. -/
theorem SendKeeps.resends {pair : TxPair} {ctr} : SendKeeps s₀ 
    (pair.unack.foldl (fun s x => Machine.resendOne pair x ctr s) s) :=
  .foldl h fun _ _ k => k.resendOne
end

/-! ## Resends (R292, R294) -/

theorem rd_netSend {k : Nat} (hk : k ≠ Reg.FAB_NOROUTE) (p : Packet) (dst dstRank : Nat) (s : State) :
    rd k (netSend p dst dstRank s).2 = rd k s := by
  unfold netSend
  split
  · exact rd_of_regs _ (by unfold pushPacket; dsimp only; split <;> rfl)
  · exact rd_bump_other _ hk

theorem rd_bookSrc (k : Nat) (src : SrcRef) (s : State) : rd k (bookSrc src s) = rd k s := by
  unfold bookSrc
  split
  · split <;> rfl
  · rfl

section
variable {pair : TxPair} {x : TxPkt} {ctr : Nat} {q : Packet} {s : State}

/-- A packet whose source still holds it goes out once more and is counted. -/
theorem resendOne_counts (hm : mayXmit s = true) (hl : rankLive pair.dst s = true) (hq : again pair x s = some q)
    (hc : ctr ≠ Reg.FAB_NOROUTE) : rd ctr (resendOne pair x ctr s) = rd ctr s + 1 := by
  have e : resendOne pair x ctr s = bump ctr (netSend q (rankPhys pair.dst s) pair.dst (bookSrc x.src s)).2 := by
    simp [resendOne, hm, hl, hq]
  rw [e, rd_bump_same, rd_netSend hc, rd_bookSrc]
end

/-! ## Acknowledgements (R294, R296) -/

section
variable {dst ctx a : Nat} {wait : Bool} {s : State}

/-- An ACK that releases nothing. -/
theorem ackReceive_none (h : (txPair false dst ctx s).unack.filter (fun x => !seqLt a x.seq) = []) :
    ackReceive dst ctx a false s = s := by
  unfold ackReceive
  dsimp only
  rw [h]
  exact (if_pos rfl).trans (if_neg (by simp))

/-- The pair as an ACK of SEQ `a` leaves it. -/
def ackedPair (a : Nat) (s : State) (pair : TxPair) : TxPair :=
  { pair with unack := pair.unack.filter (fun x => seqLt a x.seq), retries := 0, suspect := false, ticks := 0, advAt := s.cycle }

/-- An ACK releases the packets up to its SEQ and marks their records; what they held up then goes out. -/
theorem ackReceive_releases (h : (txPair false dst ctx s).unack.filter (fun x => !seqLt a x.seq) ≠ []) :
    let pair := txPair false dst ctx s
    let done := pair.unack.filter (fun x => !seqLt a x.seq)
    ackReceive dst ctx a wait s = pump false dst ctx ((done.filter (·.last)).foldl (fun t x => defer (.acked x.owner) t)
      (cutMap (fun r => r.ofPair pair && done.any (fun x => x.seq == r.seq)) (fun r => { r with acked := true })
        (setTx (ackedPair a s pair) s))) := by
  unfold ackReceive
  dsimp only
  rw [if_neg (mt List.isEmpty_iff.1 h)]
  rfl
end

/-! ## The receiving side (R296, R305, R306) -/

/-- A receiving side that was stored is found. -/
theorem rxPair_setRx (r : RxPair) (s : State) : rxPair r.src r.ctx (setRx r s) = r := by
  have hself : (r.src == r.src && r.ctx == r.ctx) = true := by simp
  unfold rxPair setRx
  split
  next h =>
    obtain ⟨z, hz⟩ := Option.isSome_iff_exists.1 (List.find?_isSome.2 (List.any_eq_true.1 h))
    have hzr := List.find?_some hz
    have hkey : (fun x : RxPair => x.src == r.src && x.ctx == r.ctx) ∘
        (fun x => if x.src == r.src && x.ctx == r.ctx then r else x) = fun x => x.src == r.src && x.ctx == r.ctx := by
      funext x
      rw [Function.comp_apply]
      split
      next hx => exact hself.trans hx.symm
      next => rfl
    dsimp only [setX]
    rw [List.find?_map, hkey, hz, Option.map_some, if_pos hzr, Option.getD_some]
  next h =>
    have hnone : s.xport.rx.find? (fun x => x.src == r.src && x.ctx == r.ctx) = none :=
      List.find?_eq_none.2 fun x hx hxr => h (List.any_eq_true.2 ⟨x, hx, hxr⟩)
    dsimp only [setX]
    rw [List.find?_append, hnone, Option.none_or, List.find?_singleton, if_pos hself, Option.getD_some]

/-- The receiving sides name a pair only by what is stored. -/
theorem rxPair_of_rx {src ctx : Nat} {s t : State} (h : t.xport.rx = s.xport.rx) : rxPair src ctx t = rxPair src ctx s := by
  rw [rxPair, h, rxPair]

theorem rxPair_names (src ctx : Nat) (s : State) : (rxPair src ctx s).src = src ∧ (rxPair src ctx s).ctx = ctx := by
  unfold rxPair
  cases h : s.xport.rx.find? (fun r => r.src == src && r.ctx == ctx) with
  | none => exact ⟨rfl, rfl⟩
  | some r => simpa using List.find?_some h

/-- An ACK leaves the pair owing none, with the same E. -/
theorem ackSend_pays (src ctx wait : Nat) (s : State) : (ackSend src ctx wait s).cycle = s.cycle ∧
    rxPair src ctx (ackSend src ctx wait s) = { rxPair src ctx s with owed := 0 } := by
  obtain ⟨hsrc, hctx⟩ := rxPair_names src ctx s
  have hset : rxPair src ctx (setRx { rxPair src ctx s with owed := 0 } s) = { rxPair src ctx s with owed := 0 } := by
    have e := rxPair_setRx { rxPair src ctx s with owed := 0 } s
    dsimp only at e ⊢
    rwa [hsrc, hctx] at e ⊢
  have k : SendKeeps (setRx { rxPair src ctx s with owed := 0 } s) (ackSend src ctx wait s) := (SendKeeps.refl _).sysSend
  refine ⟨k.cycle.trans ?_, (rxPair_of_rx k.rx).trans hset⟩
  unfold setRx
  split <;> rfl

theorem syncReceive_new {p : Packet} {s : State} (h : ∀ z ∈ s.xport.rx, ¬ (z.src = pkN0 p Pk.SRCRANK ∧ z.ctx = pkN0 p Pk.CTX)) :
    syncReceive p s = setRx ⟨pkN0 p Pk.SRCRANK, pkN0 p Pk.CTX, pkT p 1 Pk.SEQ, [], 0, 0⟩ s :=
  if_neg (by simpa using h)

theorem syncReceive_known {p : Packet} {s : State} (h : ∃ z ∈ s.xport.rx, z.src = pkN0 p Pk.SRCRANK ∧ z.ctx = pkN0 p Pk.CTX) :
    syncReceive p s = s := if_pos (by simpa using h)

/-! ## Version 2 cells (R153, R307) -/

section
variable {phys d c : Nat} {cell : List Byte} {s : State}

theorem v2Receive_cell {p : Packet} (h : p.cells.length = 256) (s : State) :
    v2Receive p s = v2Cell (pkN0 p Pk.SRC) (subBytes p.cells 0 256) s := by
  unfold v2Receive
  rw [h]
  rfl

/-- A first cell without a descriptor is counted; its chain is not kept. -/
theorem v2Cell_noDesc (hd : v2Desc phys s = none) (hf : bitAt (leAt cell 0 8) 63 = true) :
    v2Cell phys cell s = noDesc phys 0 0 s := by
  simp [v2Cell, hd, hf]

/-- What counting a message without a descriptor leaves. -/
theorem noDesc_counts (src ctx chan : Nat) (s : State) : (noDesc src ctx chan s).work = s.work ∧
    rd Reg.FAB_NO_DESC (noDesc src ctx chan s) = rd Reg.FAB_NO_DESC s + 1 ∧ (noDesc src ctx chan s).xport.v2 = s.xport.v2 := by
  unfold noDesc
  dsimp only
  split
  · exact ⟨rfl, rd_bump_same .., rfl⟩
  · obtain ⟨_, _, _, _, _, _, _, e⟩ := log_only 0x080C kRank src (some ctx) [w64 chan]
      (setX (fun x => { x with noDescSeen := x.noDescSeen ++ [ctx] }) (bump Reg.FAB_NO_DESC s))
    refine ⟨?_, ?_, ?_⟩
    · rw [e]
      rfl
    · rw [rd_log _ _ _ _ _ _ (by decide) (by decide) (by decide)]
      exact rd_bump_same ..
    · rw [e]
      rfl

/-- The first cell of a chain, kept in a staging buffer of the context. -/
def v2Begun (phys c : Nat) (part : List Byte) (s : State) : State :=
  let dropped := stageFree c 0 (setX (fun y => { y with v2 := y.v2.filter (fun z => z.src != phys) }) s)
  stageTake c 1 (setX (fun y => { y with v2 := y.v2.filter (fun z => z.src != phys) ++ [⟨phys, part, 1⟩] }) dropped)

/-- A first cell that is not the last begins a chain, where no other of its source is kept and a buffer is free. -/
theorem v2Cell_begins (hd : v2Desc phys s = some (d, c)) (hf : bitAt (leAt cell 0 8) 63 = true)
    (hl : bitAt (leAt cell 0 8) 62 = false) (hold : ∀ z ∈ s.xport.v2, z.src ≠ phys) (hr : stageRoom c s = true) :
    v2Cell phys cell s = v2Begun phys c (subBytes (cell.drop 8) 0 (min 248 (bitsOf (leAt cell 0 8) 47 40))) s := by
  have hnone : s.xport.v2.find? (fun x => x.src == phys) = none := by simpa using hold
  have hroom : stageRoom c (stageFree c (cellBufs 0) (setX (fun y => { y with v2 := y.v2.filter (fun z => z.src != phys) }) s)) = true := by
    have hst : staged c (stageFree c (cellBufs 0) (setX (fun y => { y with v2 := y.v2.filter (fun z => z.src != phys) }) s)) =
        staged c s := smGet_smPut_same ..
    rw [stageRoom, hst]
    exact hr
  unfold v2Cell
  dsimp only
  simp only [hd, hf, hl, hnone, Option.isNone_some, Option.map_some, Option.getD_some, Option.getD_none, if_true, hroom]
  rfl

/-- A chain stored in place of the others of its source is found. -/
theorem find_chain_kept (l : List V2Chain) (x : V2Chain) :
    (l.filter (fun z => z.src != x.src) ++ [x]).find? (fun z => z.src == x.src) = some x := by
  have hgone : (l.filter (fun z => z.src != x.src)).find? (fun z => z.src == x.src) = none := by simp
  rw [List.find?_append, hgone, Option.none_or, List.find?_singleton, if_pos (beq_self_eq_true x.src)]

/-- The chain that begins takes one buffer more and is kept under its source. -/
theorem v2Begun_kept (part : List Byte) : (v2Begun phys c part s).work = s.work ∧ staged c (v2Begun phys c part s) = staged c s + 1 ∧
    (v2Begun phys c part s).xport.v2.find? (fun z => z.src == phys) = some ⟨phys, part, 1⟩ := by
  refine ⟨rfl, ?_, ?_⟩
  · have htake (k n : Nat) (t : State) : staged k (stageTake k n t) = staged k t + n := smGet_smPut_same ..
    have hfree (k n : Nat) (t : State) : staged k (stageFree k n t) = staged k t - n := smGet_smPut_same ..
    unfold v2Begun
    dsimp only
    rw [htake]
    exact congrArg (· + 1) (hfree ..)
  · exact find_chain_kept _ ⟨phys, part, 1⟩
end

/-! ## Timers (R294, R296) -/

section
variable {tree : Bool} {dst ctx : Nat} {s : State}

theorem ackTimer_idle (h : (rxPair dst ctx s).owed = 0) : ackTimer dst ctx s = s := if_pos h

theorem ackTimer_due (h : (rxPair dst ctx s).owed ≠ 0) :
    ackTimer dst ctx s = ackSend dst ctx 0 (advanceTo ((rxPair dst ctx s).since + usCycles 1) s) := if_neg h

theorem rtoExpire_idle (h : (txPair tree dst ctx s).timed = false) : rtoExpire tree dst ctx s = s := if_pos (by simp [h])

/-- The pass of the timer begins: the pair's time starts afresh at the cycle in which it is due. -/
def rtoDue (tree : Bool) (dst ctx : Nat) (s : State) : State :=
  let pair := txPair tree dst ctx s
  setTx { pair with advAt := max s.cycle (pair.advAt + rtoCycles s) } (advanceTo (pair.advAt + rtoCycles s) s)

theorem rtoDue_work (tree : Bool) (dst ctx : Nat) (s : State) : (rtoDue tree dst ctx s).work = s.work := by
  unfold rtoDue setTx
  dsimp only
  split <;> rfl

/-- Toward a rank that is not LIVE the timer only starts afresh. -/
theorem rtoExpire_waits (ht : (txPair tree dst ctx s).timed = true) (hu : tree = false) (hd : dst < 2 ^ 15)
    (hl : rankLive dst s = false) : rtoExpire tree dst ctx s = rtoDue tree dst ctx s := by
  subst hu
  have hlive : rankLive dst (rtoDue false dst ctx s) = false := by
    refine Eq.trans ?_ hl
    unfold rtoDue setTx
    dsimp only
    split <;> rfl
  unfold rtoExpire
  dsimp only
  rw [if_neg (by simp [ht])]
  refine if_pos ?_
  rw [Bool.and_eq_true, Bool.not_eq_true']
  exact ⟨(Bool.true_and _).trans (decide_eq_true hd), hlive⟩

/-- A pass takes place in the cycle in which it is due. -/
theorem rtoExpire_cycle (ht : (txPair tree dst ctx s).timed = true) :
    (rtoExpire tree dst ctx s).cycle = max s.cycle ((txPair tree dst ctx s).advAt + rtoCycles s) := by
  have h := SendKeeps.refl (advanceTo ((txPair tree dst ctx s).advAt + rtoCycles s) s)
  refine SendKeeps.cycle (s := advanceTo ((txPair tree dst ctx s).advAt + rtoCycles s) s) ?_
  unfold rtoExpire
  rw [if_neg (by simp [ht])]
  refine .ite h.setTx ?_
  extract_lets +onlyGivenNames _ _ _ _ _ s₁ _ _
  have h₁ : SendKeeps _ s₁ := .ite h.setTx.retryCtl.setTx.resends h.setTx.retryCtl.setTx
  exact .ite h₁.pump (.ite h₁.pump.setTx.setTx.bump.log h₁.pump.setTx)
end

/-! ## The packets (R264, R292) -/

section
variable {n type : Nat} {p : Packet} {a : RxPkt} {s t : State}

/-- A transport packet that passes every check acts on its pair. -/
theorem xportRow_passes {k : Packet → State → State} (h : Takes n p a s ∧ xportIs type p = true ∧ hcrcOk p = true ∧ isTree p = false)
    (e : k p (takePacket n a s) = t) : xportRow n p type k s = .next (settle t) := by
  obtain ⟨htakes, htype, hcrc, -⟩ := h
  rw [xportRow, packetRow_passes _ htype htakes, xportTake, if_pos hcrc, e]

/-- Taking a packet leaves nothing for the end of the step. -/
theorem settle_takePacket (h : Working s) : settle (takePacket n a s) = takePacket n a s := settle_quiet _ h.2
end

end Sys2Proof.Machine

namespace Sys2Proof.Proofs
open Sys2Proof Sys2Proof.Machine

/-- Settles O36: each packet by its receive function once the checks have passed, and each timer by its own function. -/
theorem transportRepliesAndTimers : Obligations.TransportRepliesAndTimers := by
  intro n r c phys dsc ctx p a y q s v mine dst cx seq pair done left acked cell v2 tree timer
  have pairPacket {ty : Nat} (h : mine ty) (f : State → State) : (if isTree p then v else f v) = f v := if_neg (by simp [h.2.2.2])
  have quiet {ty : Nat} (h : mine ty) : settle v = v := settle_takePacket h.1.2.1
  have cellPacket (h : Takes n p a s ∧ pkN0 p Pk.VER = 2) : exec (.v2CellPacket n p) s = .next (settle (v2Receive p v)) :=
    packetRow_passes (fun _ => v2Receive p) (is := fun p => pkN0 p Pk.VER == 2) (beq_iff_eq.2 h.2) h.1
  refine ⟨?acks, ?ackOld, ?resends, ?snackOld, ?syncs, ?syncKnown, ?cellBegins, ?cellDrops, ?ackIdle, ?ackDue, ?rtoIdle, ?rtoWaits,
    ?rtoDue⟩
  case acks =>
    intro h hdone
    exact xportRow_passes h ((pairPacket h _).trans (ackReceive_releases hdone))
  case ackOld =>
    intro h hdone hw
    have e : ackReceive dst cx seq (pkT p 0 Pk.WAIT == 1) v = v := by
      rw [beq_eq_false_iff_ne.2 hw]
      exact ackReceive_none hdone
    exact (xportRow_passes h ((pairPacket h _).trans e)).trans (congrArg _ (quiet h))
  case resends =>
    intro h hy hm hl hq
    have e : snackReceive dst cx seq v = resendOne pair y Reg.FAB_RESENT_CHUNKS v := by
      have hfind : (txPair false dst cx v).unack.find? (fun z => z.seq == seq) = some y := hy
      rw [snackReceive, hfind]
      rfl
    exact ⟨_, xportRow_passes h ((pairPacket h _).trans e), resendOne_counts hm hl hq (by decide)⟩
  case snackOld =>
    intro h hy
    have e : snackReceive dst cx seq v = v := by
      have hfind : (txPair false dst cx v).unack.find? (fun z => z.seq == seq) = none := hy
      rw [snackReceive, hfind]
    exact (xportRow_passes h ((pairPacket h _).trans e)).trans (congrArg _ (quiet h))
  case syncs =>
    intro h hnew
    have hwork : (setRx ⟨dst, cx, seq, [], 0, 0⟩ v).work = [] := by
      refine Eq.trans ?_ h.1.2.1.2
      unfold setRx
      split <;> rfl
    exact (xportRow_passes h ((pairPacket h _).trans (syncReceive_new hnew))).trans (congrArg _ (settle_quiet _ hwork))
  case syncKnown =>
    intro h hold
    exact (xportRow_passes h ((pairPacket h _).trans (syncReceive_known hold))).trans (congrArg _ (quiet h))
  case cellBegins =>
    intro ⟨htakes, hver, hsrc, hlen⟩ hd hf hl hold hr
    have e : v2Receive p v = v2Begun phys ctx (subBytes (cell.drop 8) 0 (min 248 (bitsOf (leAt cell 0 8) 47 40))) v := by
      rw [v2Receive_cell hlen, hsrc]
      exact v2Cell_begins (s := v) hd hf hl hold hr
    obtain ⟨hwork, hstaged, hfind⟩ := v2Begun_kept (phys := phys) (c := ctx) (s := v)
      (subBytes (cell.drop 8) 0 (min 248 (bitsOf (leAt cell 0 8) 47 40)))
    refine ⟨_, (cellPacket ⟨htakes, hver⟩).trans (congrArg _ ?_), hstaged, hfind⟩
    exact (congrArg settle e).trans (settle_quiet _ (hwork.trans htakes.2.1.2))
  case cellDrops =>
    intro ⟨htakes, hver, hsrc, hlen⟩ hd hf
    have e : v2Receive p v = noDesc phys 0 0 v := by
      rw [v2Receive_cell hlen, hsrc]
      exact v2Cell_noDesc (s := v) hd hf
    obtain ⟨hwork, hcount, hchains⟩ := noDesc_counts phys 0 0 v
    refine ⟨_, (cellPacket ⟨htakes, hver⟩).trans (congrArg _ ?_), hcount, hchains⟩
    exact (congrArg settle e).trans (settle_quiet _ (hwork.trans htakes.2.1.2))
  case ackIdle =>
    intro hs ho
    exact unitRow_next _ hs.1 (ackTimer_idle ho) hs.2
  case ackDue =>
    intro hs ho
    obtain ⟨hcycle, hpair⟩ := ackSend_pays r c 0 (advanceTo ((rxPair r c s).since + usCycles 1) s)
    exact ⟨_, unitRow_settles _ hs.1 (ackTimer_due ho), hcycle, (congrArg RxPair.owed hpair).trans rfl, (congrArg RxPair.e hpair).trans rfl⟩
  case rtoIdle =>
    intro hs ht
    exact unitRow_next _ hs.1 (rtoExpire_idle ht) hs.2
  case rtoWaits =>
    intro hs ht htree hr hl
    have hmod : r % 2 ^ 17 = r := Nat.mod_eq_of_lt (by omega)
    have e : rtoExpire tree (r % 2 ^ 17) c s = rtoDue tree (r % 2 ^ 17) c s :=
      rtoExpire_waits ht htree (by omega) (by rwa [hmod])
    have hwork : (rtoDue tree (r % 2 ^ 17) c s).work = [] := (rtoDue_work ..).trans hs.2
    exact unitRow_next _ hs.1 e hwork
  case rtoDue =>
    intro hs ht
    exact ⟨_, unitRow_settles _ hs.1 rfl, rtoExpire_cycle ht⟩

end Sys2Proof.Proofs
end

section
/-!
The Dovetail's registers (O25): what a write of its control register, of the token counts and of its tables' data registers does.
-/
namespace Sys2Proof.Machine

/-! ## The registers that are written (R522) -/

/-- The registers of the Dovetail that stand alone and whose writes are commands of their own, each with what a write does. -/
def dovWrites : List (Nat × (Word → Src → State → State)) :=
  [(Reg.DOV_CTL, dovCtlWrite), (Reg.DOV_LAYER_DATA, fun v => layerAccess (.write v)),
   (Reg.DOV_SEL_DATA, fun v => selAccess (.write v)), (Reg.DOV_DISP_DATA, fun v => dispAccess (.write v)),
   (Reg.DOV_MAP_DATA, fun v => mapAccess (.write v)), (Reg.DOV_LOC_DATA, fun v => locAccess (.write v))]

theorem busAccess_dovWrites (src : Src) (v : Word) (s : State) :
    ∀ p ∈ dovWrites, busAccess src p.1 (.write v) s = p.2 v src s := by
  intro p hp
  obtain ⟨r, hr, hplace⟩ := rowPlace_single
    ((show ∀ p ∈ dovWrites, (regRowAt p.1).any (·.stride == 0) = true by decide +kernel) p hp)
  rw [busWrite_at src v s hr, regWrite, hplace]
  simp only [dovWrites, List.mem_cons, List.not_mem_nil, or_false] at hp
  rcases hp with rfl | rfl | rfl | rfl | rfl | rfl <;> rfl

/-- A context's token count lies in its row at the context's place. -/
theorem regRowAt_dovTokens {c : Nat} (hc : c < 16) :
    ∃ r, regRowAt (Reg.DOV_CTX_TOKENS c) = some r ∧ rowPlace r (Reg.DOV_CTX_TOKENS c) = c := by
  have hrow := (show ∀ c < 16, (regRowAt (Reg.DOV_CTX_TOKENS c)).any (fun r => rowPlace r (Reg.DOV_CTX_TOKENS c) == c) = true by
    decide +kernel) c hc
  obtain ⟨r, hr, hplace⟩ := (Option.any_eq_true ..).1 hrow
  exact ⟨r, hr, beq_iff_eq.1 hplace⟩

theorem busAccess_dovTokens {c : Nat} (hc : c < 16) (src : Src) (v : Word) (s : State) :
    busAccess src (Reg.DOV_CTX_TOKENS c) (.write v) s = tokensWrite c v src s := by
  obtain ⟨r, hr, hplace⟩ := regRowAt_dovTokens hc
  have hlo : 0x0400800 < Reg.DOV_CTX_TOKENS c := by unfold Reg.DOV_CTX_TOKENS; omega
  have hhi : Reg.DOV_CTX_TOKENS c < 0x0800000 := by unfold Reg.DOV_CTX_TOKENS; omega
  have below {n : Nat} (hn : n ≤ 0x0400800) : ¬ Reg.DOV_CTX_TOKENS c < n := by omega
  have apart {off : Nat} (hoff : off ≤ 0x0400800) : ¬ Reg.DOV_CTX_TOKENS c = off := by omega
  rw [busWrite_at src v s hr, regWrite, hplace]
  simp only [if_neg (below (n := 0x0100000) (by decide)), if_neg (below (n := 0x0200000) (by decide)),
    if_neg (below (n := 0x0400000) (by decide)), if_pos hhi, dovWrite, if_neg (apart (off := Reg.DOV_CTL) (by decide)),
    if_neg (apart (off := Reg.DOV_LAYER_DATA) (by decide)), if_neg (apart (off := Reg.DOV_SEL_DATA) (by decide)),
    if_neg (apart (off := Reg.DOV_DISP_DATA) (by decide)), if_neg (apart (off := Reg.DOV_MAP_DATA) (by decide)),
    if_neg (apart (off := Reg.DOV_LOC_DATA) (by decide)), if_true]

/-! ## What the writes do (R168, R169, R192, R193) -/

@[simp] theorem arrived_dov (src : Src) (s : State) : (arrived src s).dov = s.dov := by cases src <;> rfl

theorem dovRun_arrived (src : Src) (s : State) : dovRun (arrived src s) = dovRun s :=
  congrArg (bitF _) (rd_arrived src s (by decide) (by decide))

section
variable {v : Word} {src : Src} {s : State}

theorem dovCtlWrite_runs (hv : bitF Fld.DOV_CTL_EN v = true) (hr : dovRun s = true) :
    dovCtlWrite v src s = wr Reg.DOV_CTL 1 s := by
  rw [dovCtlWrite, if_pos hv, if_pos hr]

theorem dovCtlWrite_enables (hv : bitF Fld.DOV_CTL_EN v = true) (hr : dovRun s = false) (hok : dovEnableOk s = true) :
    dovCtlWrite v src s = wrF Reg.DOV_STATUS Fld.DOV_STATUS_RUN 1 (wr Reg.DOV_CTL 1 s) := by
  rw [dovCtlWrite, if_pos hv, if_neg (by simp [hr]), if_pos hok]

theorem dovCtlWrite_refused (hv : bitF Fld.DOV_CTL_EN v = true) (hr : dovRun s = false) (hok : dovEnableOk s = false) :
    dovCtlWrite v src s = refuse src Reg.DOV_CTL s := by
  rw [dovCtlWrite, if_pos hv, if_neg (by simp [hr]), if_neg (by simp [hok])]

theorem dovCtlWrite_disables (hv : ¬ bitF Fld.DOV_CTL_EN v = true) : dovCtlWrite v src s = wr Reg.DOV_CTL 0 s := if_neg hv

/-- The low 15 bits of a word are the token count that it holds. -/
theorem tokens_masked (v : Word) : v &&& 0x7FFF = w64 (getF Fld.DOV_CTX_TOKENS_TOKENS v) := by
  refine BitVec.eq_of_toNat_eq ?_
  have hmask : (v &&& 0x7FFF).toNat = v.toNat % 2 ^ 15 := (BitVec.toNat_and ..).trans (Nat.and_two_pow_sub_one_eq_mod v.toNat 15)
  rw [hmask, w64, BitVec.toNat_ofNat, getF]
  norm_num only
  omega

theorem tokensWrite_takes {c : Nat} (h : getF Fld.DOV_CTX_TOKENS_TOKENS v ≤ 16384) :
    tokensWrite c v src s = wr (Reg.DOV_CTX_TOKENS c) (w64 (getF Fld.DOV_CTX_TOKENS_TOKENS v)) s := by
  rw [tokensWrite, if_neg (Nat.not_lt.2 h), tokens_masked]

theorem tokensWrite_refused {c : Nat} (h : 16384 < getF Fld.DOV_CTX_TOKENS_TOKENS v) :
    tokensWrite c v src s = refuse src (Reg.DOV_CTX_TOKENS c) s := if_pos h

/-- Software's write of a table stores the word's writable bits where the Dovetail does not run and the table stays sound, and
is refused otherwise; either way the address moves on. -/
theorem dovAccess_write {addr data n : Nat} {key : Nat → Nat} {mask : Nat → Word} {ok : Nat → State → Bool}
    (hp : s.priv = false) :
    let k := (rd addr s).toNat % 2 ^ n
    let t := tbW (key k) ((tb (key k) s &&& ~~~(mask k)) ||| (v &&& mask k)) s
    dovAccess addr data n key mask ok (.write v) src s =
      wr addr (w64 ((k + 1) % 2 ^ n)) (if dovRun s = false ∧ ok k t = true then t else refuse src data s) := by
  intro k t
  cases hr : dovRun s with
  | true => simp [dovAccess, hr, hp, k]
  | false => simp [dovAccess, hr, k, t]
end
end Sys2Proof.Machine

namespace Sys2Proof.Proofs
open Sys2Proof Sys2Proof.Machine

/-- Settles O25: the control register by its cases, the token count by its limit, and each data register by its table's write. -/
theorem dovetailControlAndTablesComplete : Obligations.DovetailControlAndTablesComplete := by
  constructor
  case left =>
    intro c v src s hc q u ctl tok en
    have qu : Quiet u := q.arrived src
    have hrun : dovRun u = dovRun s := dovRun_arrived src s
    have hctl := busAccess_dovWrites src v u (Reg.DOV_CTL, dovCtlWrite) (List.mem_cons_self ..)
    have htok := busAccess_dovTokens hc src v u
    refine ⟨fun h hv hr => regRow_reaches h (hctl.trans (dovCtlWrite_runs hv (hrun.trans hr))) (qu.wr _ _),
      fun h hv hr hok => regRow_reaches h (hctl.trans (dovCtlWrite_enables hv (hrun.trans hr) hok)) ((qu.wr _ _).wr _ _),
      fun h hv hr hok => regRow_reaches h (hctl.trans (dovCtlWrite_refused hv (hrun.trans hr) hok)) (qu.badAccess ..),
      fun h hv => regRow_reaches h (hctl.trans (dovCtlWrite_disables hv)) (qu.wr _ _), ?takes, ?refused⟩
    case takes =>
      intro h hle
      exact ⟨_, (if_pos (decide_eq_true hc)).trans (regRow_reaches h (htok.trans (tokensWrite_takes hle)) (qu.wr _ _)),
        rd_wr_same .., fun off hoff => rd_wr_other _ _ hoff, arrived_tabs .., arrived_dov ..⟩
    case refused =>
      intro h hlt
      exact (if_pos (decide_eq_true hc)).trans (regRow_reaches h (htok.trans (tokensWrite_refused hlt)) (qu.badAccess ..))
  case right =>
    intro v src s q hp u writes
    have qu : Quiet u := q.arrived src
    have through {data addr n : Nat} {key : Nat → Nat} {mask : Nat → Word} {ok : Nat → State → Bool}
        (e : busAccess src data (.write v) u = dovAccess addr data n key mask ok (.write v) src u) {i : Instr}
        (hi : exec i s = regRow data (.write v) src s) : writes i data addr n key mask ok := by
      intro h k t
      have e' := e.trans (dovAccess_write ((arrived_priv src s).trans hp))
      rw [dovRun_arrived] at e'
      refine hi.trans (regRow_reaches h e' (Quiet.wr ?_ _ _))
      split
      · exact qu.of_frame rfl rfl
      · exact qu.badAccess ..
    have access := busAccess_dovWrites src v u
    simp only [dovWrites, List.forall_mem_cons, List.not_mem_nil, false_implies, implies_true, and_true] at access
    obtain ⟨-, hlayer, hsel, hdisp, hmap, hloc⟩ := access
    exact ⟨through hlayer rfl, through hsel rfl, through hdisp rfl, through hmap rfl, through hloc rfl⟩

end Sys2Proof.Proofs
end

section
/-!
Layers (O26): what the Dovetail's sending and booking leave of a step's descriptors, a descriptor's start and its end, the
capacity walk of a token, and the reading of an outbox.
-/
namespace Sys2Proof.Machine

/-! ## What sending, booking and walking leave of the descriptors (R170, R185, R201, R204) -/

/-- It takes no time, the descriptors of the step are as they were, and no token was counted as skipped. -/
structure DescsStay (s t : State) : Prop where
  cycle : t.cycle = s.cycle
  descs : t.dov.descs = s.dov.descs
  skips : rd Reg.DOV_TOKEN_SKIP t = rd Reg.DOV_TOKEN_SKIP s

theorem DescsStay.refl (s : State) : DescsStay s s := ⟨rfl, rfl, rfl⟩

/-- `DescsStay` of an operation that may have no result. -/
def OptDescsStay (s₀ : State) (o : Option State) : Prop := ∀ ⦃t⦄, o = some t → DescsStay s₀ t

theorem OptDescsStay.none {s₀ : State} : OptDescsStay s₀ none := fun _ e => by cases e

theorem OptDescsStay.ite {s₀ : State} {a b : Option State} (h : OptDescsStay s₀ a) (k : OptDescsStay s₀ b) {p : Prop}
    {_ : Decidable p} : OptDescsStay s₀ (if p then a else b) := by split <;> assumption

section
variable {s₀ s : State} (h : DescsStay s₀ s)
include h

theorem DescsStay.same {t : State} (hc : t.cycle = s.cycle) (hd : t.dov.descs = s.dov.descs) (hr : t.regs = s.regs) :
    DescsStay s₀ t := ⟨hc.trans h.cycle, hd.trans h.descs, (rd_of_regs _ hr).trans h.skips⟩

theorem DescsStay.ite {t : State} (k : DescsStay s₀ t) {p : Prop} {_ : Decidable p} : DescsStay s₀ (if p then s else t) := by
  split <;> assumption

theorem DescsStay.foldl {α : Type} {f : State → α → State} (hf : ∀ t x, DescsStay s₀ t → DescsStay s₀ (f t x))
    {l : List α} : DescsStay s₀ (l.foldl f s) := by
  induction l generalizing s with
  | nil => exact h
  | cons x l ih => exact ih (hf s x h)

theorem DescsStay.wr {k v} (hk : Reg.DOV_TOKEN_SKIP ≠ k := by decide) : DescsStay s₀ (wr k v s) :=
  ⟨h.cycle, h.descs, (rd_wr_other s v hk).trans h.skips⟩
theorem DescsStay.bumpBy {n k} (hk : Reg.DOV_TOKEN_SKIP ≠ k := by decide) : DescsStay s₀ (bumpBy n k s) := h.wr hk
theorem DescsStay.bump {k} (hk : Reg.DOV_TOKEN_SKIP ≠ k := by decide) : DescsStay s₀ (bump k s) := h.wr hk
theorem DescsStay.defer {w} : DescsStay s₀ (defer w s) := h.same rfl rfl rfl
theorem DescsStay.tbWF {k f x} : DescsStay s₀ (tbWF k f x s) := h.same rfl rfl rfl
theorem DescsStay.setRurilBytes {a bs} : DescsStay s₀ (setRurilBytes a bs s) := h.same rfl rfl rfl
theorem DescsStay.bookPort {b inb} : DescsStay s₀ (bookPort b inb s).2 := h.same rfl rfl rfl
theorem DescsStay.setX {f} : DescsStay s₀ (setX f s) := h.same rfl rfl rfl
theorem DescsStay.setPort {n p} : DescsStay s₀ (setPort n p s) := h.same rfl rfl rfl
theorem DescsStay.setDv {f} (hf : (f s.dov).descs = s.dov.descs := by rfl) : DescsStay s₀ (setDv f s) := h.same rfl hf rfl
theorem DescsStay.setDovX {x} : DescsStay s₀ (setDovX x s) := h.setDv

theorem DescsStay.log {code kind index ctx ds} : DescsStay s₀ (log code kind index ctx ds s) := by
  have hrd := rd_log code kind index ctx ds s (k := Reg.DOV_TOKEN_SKIP) (by decide) (by decide) (by decide)
  obtain ⟨_, _, _, _, _, _, _, e⟩ := log_only code kind index ctx ds s
  exact ⟨(congrArg State.cycle e).trans h.cycle, (congrArg (·.dov.descs) e).trans h.descs, hrd.trans h.skips⟩

/-- The registers of the contexts lie past those of the Dovetail. -/
theorem DescsStay.ctxFault {c code} : DescsStay s₀ (ctxFault c code s) :=
  have hst : Reg.DOV_TOKEN_SKIP ≠ Reg.CTX_STATUS c := by unfold Reg.DOV_TOKEN_SKIP Reg.CTX_STATUS; omega
  have ht : Reg.DOV_TOKEN_SKIP ≠ Reg.CTX_TEARDOWNS c := by unfold Reg.DOV_TOKEN_SKIP Reg.CTX_TEARDOWNS; omega
  .ite ((((h.wr hst).wr hst).bump ht).log.defer) h

theorem DescsStay.dovFault {code kind index c ds} : DescsStay s₀ (dovFault code kind index c ds s) := h.log.ctxFault

theorem DescsStay.dovBook {d n c b t use} : DescsStay s₀ (dovBook d n c b t use s) :=
  .ite h (.ite h.dovFault h.bookPort.setDv)

theorem DescsStay.pushPacket {n p} : DescsStay s₀ (pushPacket n p s) := .ite h.setPort h.setPort

theorem DescsStay.netSend {p dst dstRank} : DescsStay s₀ (netSend p dst dstRank s).2 := by
  unfold Machine.netSend
  split
  · exact h.pushPacket
  · exact h.bump

theorem DescsStay.setTx {p} : DescsStay s₀ (setTx p s) := .ite h.setX h.setX
theorem DescsStay.recordSent {pair x acked} : DescsStay s₀ (recordSent pair x acked s) := .setRurilBytes h.setX.wr
theorem DescsStay.replayLost {pair seq ctx} : DescsStay s₀ (replayLost pair seq ctx s) := h.log.ctxFault

theorem DescsStay.cutStall {c on} : DescsStay s₀ (cutStall c on s) := by
  unfold Machine.cutStall
  split
  · exact h.setX
  · exact h.setX.bumpBy
  · exact h

theorem DescsStay.bookSrc {src} : DescsStay s₀ (bookSrc src s) := by
  unfold Machine.bookSrc
  split
  · exact .ite h h.bookPort
  · exact h

theorem DescsStay.markLost {pair seq} : DescsStay s₀ (markLost pair seq s) := by
  unfold Machine.markLost
  split
  · exact .ite h (.bump (.foldl h.setX.wr fun _ _ k => k.setRurilBytes))
  · exact h

theorem OptDescsStay.some : OptDescsStay s₀ (some s) := fun _ e => by cases e; exact h

/-- The Dovetail's messages go to ranks, not over trees. -/
theorem DescsStay.pumpOne {dst ctx} : OptDescsStay s₀ (pumpOne false dst ctx s) := by
  have stall {c on} : DescsStay s₀ (Machine.cutStall c on s) := h.cutStall
  unfold Machine.pumpOne
  dsimp only
  split
  · exact .none
  · simp only [Bool.false_eq_true, if_false]
    refine .ite .none (.ite (.some stall) (.ite .none (.ite ?again (.some ?first))))
    case again =>
      split
      · have sent {c src p d r} : DescsStay s₀ (Machine.netSend p d r (Machine.bookSrc src (Machine.cutStall c false s))).2 :=
          stall.bookSrc.netSend
        exact .some (.ite (.ite sent.setTx.bump sent.setTx.bump.recordSent) sent.setTx)
      · exact .some stall.setTx.markLost.replayLost
    case first => exact .ite (.ite stall.netSend.setTx.bump stall.netSend.setTx.bump.recordSent) stall.netSend.setTx

theorem DescsStay.pump {dst ctx} : DescsStay s₀ (pump false dst ctx s) := by
  unfold Machine.pump
  generalize (txPair false dst ctx s).waiting.length = n
  induction n generalizing s with
  | zero => exact h
  | succ n ih =>
    unfold Machine.pumpN
    split
    · exact h
    next e => exact .ite (ih (h.pumpOne e)) (h.pumpOne e)

theorem DescsStay.chunkReady {dst ordered ctx chan i n base w2 tile src owner} :
    DescsStay s₀ (chunkReady false dst ordered ctx chan i n base w2 tile src owner s) := h.setTx.pump

theorem DescsStay.msgSend {dst ordered ctx chan w2 tiles owner} :
    DescsStay s₀ (msgSend dst ordered ctx chan w2 tiles owner s) :=
  .ite h.setTx.chunkReady (.foldl h.setTx fun _ _ k => k.chunkReady)

theorem DescsStay.dovSend {d c dst kind ps} : DescsStay s₀ (dovSend d c dst kind ps s) :=
  h.setDv.msgSend

theorem DescsStay.sendParts {x kind round torn copies} : DescsStay s₀ (sendParts x kind round torn copies s) := by
  unfold Machine.sendParts
  refine .foldl (.foldl (.ite h.bumpBy.defer h.bumpBy) fun _ _ k => k.dovSend) fun _ _ k => ?_
  split
  · exact k.dovSend
  · exact k

theorem DescsStay.dispatchBegin {x} : DescsStay s₀ (dispatchBegin x s) :=
  .ite h.setDovX.bumpBy.setDovX.sendParts (.foldl h.setDovX fun _ _ k => k.dovBook)

theorem DescsStay.walkOut {x k w} : DescsStay s₀ (walkOut x k w s) := by
  unfold Machine.walkOut
  split
  · exact h
  · exact h.setDovX

theorem DescsStay.walkRank {d k r tag cand w} : DescsStay s₀ (walkRank d k r tag cand w s).2 := by
  unfold Machine.walkRank
  extract_lets +onlyGivenNames _ _ s₁ _ s₂
  have h₁ : DescsStay s₀ s₁ := .ite h.tbWF h
  have h₂ : DescsStay s₀ s₂ := .ite h₁.tbWF h₁
  split
  · exact h₂.bump
  · dsimp only
    split
    · exact h₂
    · split
      · exact h₂.bump
      · split
        · exact h₂.tbWF.bump
        · exact h₂.tbWF.bump
        · split
          · exact h₂.tbWF.bump
          · exact h₂.tbWF.bump

theorem DescsStay.walkRanks {d k tag cand rs w} : DescsStay s₀ (walkRanks d k tag cand rs w s).2 := by
  induction rs generalizing s w with
  | nil => exact h
  | cons r rs ih => exact ih h.walkRank
end

/-! ## Descriptors and exchanges stored and found (R170) -/

/-- Where the elements that satisfy `p` are replaced by one that satisfies it, that one is found. -/
theorem find?_map_replace {α : Type} {p : α → Bool} {x : α} {l : List α} (hx : p x = true) (h : ∃ y ∈ l, p y = true) :
    (l.map (fun y => if p y then x else y)).find? p = some x := by
  have hkey : p ∘ (fun y => if p y then x else y) = p := by
    funext y
    rw [Function.comp_apply]
    split
    next hy => exact hx.trans hy.symm
    next => rfl
  obtain ⟨z, hz⟩ := Option.isSome_iff_exists.1 (List.find?_isSome.2 h)
  rw [List.find?_map, hkey, hz, Option.map_some, if_pos (List.find?_some hz)]

section
variable {d n : Nat} {x y : DovDesc} {s t : State}

theorem dovDesc_of_descs (d : Nat) (h : t.dov.descs = s.dov.descs) : dovDesc d t = dovDesc d s := by rw [dovDesc, h, dovDesc]

/-- A descriptor of the step is found under its own index. -/
theorem dovDesc_index (h : dovDesc d s = some x) : x.d = d :=
  beq_iff_eq.1 (List.find?_some (p := fun y : DovDesc => y.d == d) h)

/-- A descriptor that is stored in the place of one of the step is found. -/
theorem dovDesc_setDesc (h : dovDesc d s = some y) (hd : x.d = d) : dovDesc d (setDesc x s) = some x := by
  subst hd
  have e := find?_map_replace (p := fun y : DovDesc => y.d == x.d) (x := x) (beq_self_eq_true _)
    ⟨y, List.mem_of_find?_eq_some h, List.find?_some (p := fun y : DovDesc => y.d == x.d) h⟩
  simp only [beq_iff_eq] at e
  exact e

/-- An exchange that is stored in the place of one with the same descriptor and step is found. -/
theorem dovX_setDovX {x : DovX} (h : ∃ y ∈ s.dov.xs, (y.d == x.d && y.step == x.step) = true) :
    dovX x.d x.step (setDovX x s) = some x :=
  find?_map_replace (p := fun y : DovX => y.d == x.d && y.step == x.step) (by simp) h

/-- A descriptor that is done holds no tiles; sending its parts or booking their source rows changes no descriptor. -/
theorem descDone_finishes (h : dovDesc d s = some x) : let u := descDone d s
    dovDesc d u = some { x with done := some s.cycle, store := [] } ∧ u.cycle = s.cycle ∧
      rd Reg.DOV_TOKEN_SKIP u = rd Reg.DOV_TOKEN_SKIP s := by
  have hd := dovDesc_index h
  have hstored := dovDesc_setDesc (x := { x with done := some s.cycle, store := [] }) h hd
  have stays : DescsStay (setDesc { x with done := some s.cycle, store := [] } s) (descDone d s) := by
    simp only [descDone, h]
    split
    · exact .ite (.refl _) (DescsStay.refl _).dispatchBegin
    · exact .refl _
  exact ⟨(dovDesc_of_descs d stays.descs).trans hstored, stays.cycle, stays.skips⟩
end

/-! ## The start of a descriptor (R170, R181) -/

/-- The descriptor `x` started in cycle `c`, its intake open. -/
def startedAt (c : Nat) (x : DovDesc) : DovDesc := { x with started := some c, walkFree := c }

/-- The descriptor `x` started in cycle `c` with all its tokens skipped. -/
def skippedAt (c : Nat) (x : DovDesc) : DovDesc := { x with started := some c, walked := x.num }

section
variable {d c : Nat} {x : DovDesc} {s : State} (hx : dovDesc d s = some x) (hs : x.started = none)
  (hc : startCycle x s = some c) (hrun : ctxState x.ctx s = 1) (hheld : bitAt s.glueHold x.ctx = false)
include hx hs hc hrun hheld

/-- A descriptor that may start does so: with LAYER_SKIP or without tokens it is done at once. -/
theorem descStart_starts : descStart d s =
    let at' := max s.cycle c
    let u := setDesc (startedAt at' x) (advanceTo c s)
    if lyF d 0 Fld.LAYER0_LAYER_SKIP s = 1 then descDone d (setDesc (skippedAt at' x) (bumpBy x.num Reg.DOV_TOKEN_SKIP u))
    else if x.num = 0 then descDone d u else u := by
  simp only [descStart, hx, hs, hc]
  rw [if_neg (by simp [hrun, hheld])]
  rfl

/-- It opens its intake where it has tokens to take. -/
theorem descStart_opens (hskip : ¬ lyF d 0 Fld.LAYER0_LAYER_SKIP s = 1) (hn : x.num ≠ 0) :
    descStart d s = setDesc (startedAt (max s.cycle c) x) (advanceTo c s) := by
  rw [descStart_starts hx hs hc hrun hheld]
  exact (if_neg hskip).trans (if_neg hn)

/-- With LAYER_SKIP, or without tokens, it is done at once and each of its tokens counts as skipped. -/
theorem descStart_done (h : lyF d 0 Fld.LAYER0_LAYER_SKIP s = 1 ∨ x.num = 0) : ∃ y, let u := descStart d s
    u.cycle = max s.cycle c ∧ dovDesc d u = some y ∧ y.started = some (max s.cycle c) ∧ y.done = some (max s.cycle c) ∧
      y.store = [] ∧ rd Reg.DOV_TOKEN_SKIP u = rd Reg.DOV_TOKEN_SKIP s + w64 x.num := by
  have hd := dovDesc_index hx
  have hu := dovDesc_setDesc (s := advanceTo c s) (x := startedAt (max s.cycle c) x) hx hd
  rw [descStart_starts hx hs hc hrun hheld]
  dsimp only
  split
  · have hall := dovDesc_setDesc (x := skippedAt (max s.cycle c) x)
      (s := bumpBy x.num Reg.DOV_TOKEN_SKIP (setDesc (startedAt (max s.cycle c) x) (advanceTo c s))) hu hd
    obtain ⟨hdesc, hcyc, hskips⟩ := descDone_finishes hall
    exact ⟨_, hcyc, hdesc, rfl, rfl, rfl, hskips.trans (rd_bumpBy_same ..)⟩
  next hno =>
    have hn : x.num = 0 := h.resolve_left hno
    rw [if_pos hn, hn]
    obtain ⟨hdesc, hcyc, hskips⟩ := descDone_finishes hu
    exact ⟨_, hcyc, hdesc, rfl, rfl, rfl, hskips.trans (BitVec.add_zero _).symm⟩
end

/-! ## The capacity walk of a token (R182 to R189) -/

/-- The walk of a token before its first rank: the copies that its descriptor has booked so far. -/
def walkInit (x : DovDesc) : Walk := ⟨x.used, [], 0, []⟩

/-- The descriptor `x` once token `t` has walked from cycle `c` on. -/
def walkedOn (t c : Nat) (w : Walk) (x : DovDesc) : DovDesc :=
  { x with walked := t + 1, walkFree := c + w.tests + 1, used := w.used }

/-- The state after the walk `w` of token `k`, its descriptor then being `y`: after the last one the descriptor is done. -/
def walkLeaves (d t : Nat) (y : DovDesc) (k : DovTok) (w : Walk) (s : State) : State :=
  let u := walkOut y k w (setDesc y s)
  if t + 1 = y.num then descDone d (advanceTo (u.cycle + w.tests) u) else u

section
variable {d t : Nat} {x y : DovDesc} {k : DovTok} {w : Walk} {s : State}

/-- The end of a token's walk leaves the descriptor as it was stored, but for what being done changes. -/
theorem walkLeaves_desc (hx : dovDesc d s = some x) (hd : y.d = d) (hdone : y.done = none) :
    ∃ z, let u := walkLeaves d t y k w s
      dovDesc d u = some z ∧ z.walked = y.walked ∧ z.used = y.used ∧ z.walkFree = y.walkFree ∧
        rd Reg.DOV_TOKEN_SKIP u = rd Reg.DOV_TOKEN_SKIP s ∧ (t + 1 = y.num → z.done = some u.cycle ∧ z.store = []) ∧
        (t + 1 ≠ y.num → z.done = none ∧ z.store = y.store ∧ u.cycle = s.cycle) := by
  have out : DescsStay (setDesc y s) (walkOut y k w (setDesc y s)) := (DescsStay.refl _).walkOut
  have hy : dovDesc d (walkOut y k w (setDesc y s)) = some y := (dovDesc_of_descs d out.descs).trans (dovDesc_setDesc hx hd)
  unfold walkLeaves
  dsimp only
  split
  next hlast =>
    obtain ⟨hdesc, hcyc, hskips⟩ := descDone_finishes (s := advanceTo ((walkOut y k w (setDesc y s)).cycle + w.tests) _) hy
    exact ⟨_, hdesc, rfl, rfl, rfl, hskips.trans out.skips, fun _ => ⟨congrArg some hcyc.symm, rfl⟩, absurd hlast⟩
  next hmore => exact ⟨y, hy, rfl, rfl, rfl, out.skips, fun h => absurd h hmore, fun _ => ⟨hdone, rfl, out.cycle⟩⟩

section
variable (hx : dovDesc d s = some x) (hk : x.toks.find? (fun k => k.t == t && k.formed) = some k) (ht : x.walked = t)
  (hd : x.done = none)
include hx hk ht hd

/-- A skipped token walks no rank, and is counted. -/
theorem walkEnter_skips (hskip : k.skip = true) : walkEnter d t s =
    let v := advanceTo (max k.ready x.walkFree) s
    walkLeaves d t (walkedOn t v.cycle (walkInit x) x) k (walkInit x) (bump Reg.DOV_TOKEN_SKIP v) := by
  simp only [walkEnter, hx, hk, hskip, if_true]
  rw [if_neg (by simp [ht, hd])]
  rfl

/-- Another token walks its ranks in order. -/
theorem walkEnter_walks (hskip : k.skip = false) :
    let v := advanceTo (max k.ready x.walkFree) s
    let p := walkRanks d (lyF d 0 Fld.LAYER0_K s) (tokenTag x t v) k.cand (upto (lyF d 0 Fld.LAYER0_K s)) (walkInit x) v
    walkEnter d t s = walkLeaves d t (walkedOn t v.cycle p.1 x) k p.1 p.2 := by
  intro v p
  have hcyc : p.2.cycle = v.cycle := (DescsStay.refl v).walkRanks.cycle
  rw [← hcyc]
  simp only [walkEnter, hx, hk, hskip, Bool.false_eq_true, if_false]
  rw [if_neg (by simp [ht, hd])]
  rfl
end
end

/-! ## The reading of an outbox (R201, R216) -/

/-- The exchanges and the tables but for the ring of error records are as they were. -/
structure ExchangesStay (s t : State) : Prop where
  xs : t.dov.xs = s.dov.xs
  tables : ∀ k < Tab.ERR 0, tb k t = tb k s

theorem ExchangesStay.log {s₀ s : State} (h : ExchangesStay s₀ s) {code kind index ctx ds} :
    ExchangesStay s₀ (log code kind index ctx ds s) := by
  obtain ⟨_, _, _, _, _, _, _, e⟩ := log_only code kind index ctx ds s
  exact ⟨(congrArg (·.dov.xs) e).trans h.xs, fun k hk => (tb_log _ _ _ _ _ _ hk).trans (h.tables k hk)⟩

theorem ExchangesStay.ctxFault {s₀ s : State} (h : ExchangesStay s₀ s) {c code} : ExchangesStay s₀ (ctxFault c code s) := by
  unfold Machine.ctxFault
  split
  · obtain ⟨hxs, htabs⟩ := ExchangesStay.log (s₀ := s₀) (s := Machine.bump (Reg.CTX_TEARDOWNS c)
      (wrF (Reg.CTX_STATUS c) Fld.CTX_STATUS_CAUSE code (wrF (Reg.CTX_STATUS c) Fld.CTX_STATUS_STATE 2 s))) ⟨h.xs, h.tables⟩
      (code := 0x0701) (kind := kContext) (index := c) (ctx := some c) (ds := [w64 code])
    exact ⟨hxs, htabs⟩
  · exact h

/-- Booking a transfer changes no exchange. -/
theorem ExchangesStay.dovBook {s₀ s : State} (h : ExchangesStay s₀ s) {d n c b t use} :
    ExchangesStay s₀ (dovBook d n c b t use s) := by
  unfold Machine.dovBook
  split
  · exact h
  · split
    · exact h.log.ctxFault
    · exact ⟨h.xs, h.tables⟩

theorem ExchangesStay.books {s₀ s : State} (h : ExchangesStay s₀ s) {d n c use} (l : List (Nat × Nat)) :
    ExchangesStay s₀ (l.foldl (fun s p => Machine.dovBook d n c p.1 p.2 use s) s) := by
  induction l generalizing s with
  | nil => exact h
  | cons p l ih => exact ih h.dovBook

/-- A field apart from the one stored reads as before, under every key. -/
theorem tbF_tbWF_apart {k j x : Nat} {f g : Fld} {s : State} (hg : g.lo + g.width ≤ 64)
    (h : g.lo + g.width ≤ f.lo ∨ f.lo + f.width ≤ g.lo) : tbF k g (tbWF j f x s) = tbF k g s := by
  rw [tbF, tbWF, tb_tbW]
  split
  next hk => rw [getF_setF_other _ _ _ _ hg h, tbF, hk]
  next => rfl

/-- The semaphore's VALUE after some of it was taken. -/
theorem semValue_take (n num : Nat) (s : State) :
    semValue n (tbWF (Tab.SEM n) Fld.SEM_VALUE (semValue n s - num) s) = semValue n s - num := by
  have hlt : semValue n s < 2 ^ 16 := getF_lt ..
  rw [semValue, semEntry, tbWF, tb_tbW_same, getF_setF_same _ _ _ (by decide)]
  exact Nat.mod_eq_of_lt ((Nat.sub_le ..).trans_lt hlt)

/-- An exchange of the current step that holds a local entry is one of the exchanges. -/
theorem entNow_mem {l : Nat} {x : DovX} {e : DovEnt} {s : State} (h : entNow l s = some (x, e)) : x ∈ s.dov.xs := by
  obtain ⟨y, hy, hfound⟩ := List.exists_of_findSome?_eq_some h
  split at hfound
  · obtain ⟨_, -, heq⟩ := Option.map_eq_some_iff.1 hfound
    cases heq
    exact hy
  · cases hfound

/-- Where RSEM holds RNUM, the semaphore falls by RNUM and every tile of the result rows is asked for once. -/
theorem outboxRead_asks {l : Nat} {x : DovX} {e : DovEnt} {s : State} (h : entNow l s = some (x, e)) (hfin : x.final = true)
    (hleft : e.left = some 0) (hrows : e.rows ≠ []) (hask : e.asked = false)
    (hnum : lcF' l 2 Fld.LOC2_RNUM s ≤ semValue (lcF' l 2 Fld.LOC2_RSEM s) s) (hrun : ctxState x.ctx s = 1) :
    let sem := lcF' l 2 Fld.LOC2_RSEM s
    let per := 16 / elBytes (partFmt x.d 1 s)
    let u := tbWF (Tab.SEM sem) Fld.SEM_VALUE (semValue sem s - lcF' l 2 Fld.LOC2_RNUM s) s
    ExchangesStay (setDovX (setEnt x { e with asked := true, toRead := (e.rows.length + per - 1) / per * colBlocks x.d s }) u)
      (outboxRead l s) := by
  intro sem per u
  have hfmt (j v : Nat) : partFmt x.d 1 (tbWF j Fld.SEM_VALUE v s) = partFmt x.d 1 s := tbF_tbWF_apart (by decide) (by decide)
  have hcols (j v : Nat) : colBlocks x.d (tbWF j Fld.SEM_VALUE v s) = colBlocks x.d s := tbF_tbWF_apart (by decide) (by decide)
  simp only [outboxRead, h]
  rw [if_neg (by simp [hfin, hleft, hrows, hask, hrun, Nat.not_lt.2 hnum])]
  simp only [hfmt, hcols, List.length_flatMap, List.length_map, List.length_range, List.map_const', List.sum_replicate,
    smul_eq_mul]
  exact ExchangesStay.books ⟨rfl, fun _ _ => rfl⟩ _
end Sys2Proof.Machine

namespace Sys2Proof.Proofs
open Sys2Proof Sys2Proof.Machine

/-- Settles O26: a descriptor's start, a token's walk by whether it is skipped, and an outbox's reading, by one lemma each. -/
theorem layersRun : Obligations.LayersRun := by
  refine ⟨?starts, ?walks, ?reads⟩
  case starts =>
    intro d c x s ⟨hrun, hw⟩ hx hs hc hctx hheld at' skips
    refine ⟨fun hskip hn => unitRow_next _ hrun (descStart_opens hx hs hc hctx hheld hskip hn) hw, fun h => ?_⟩
    obtain ⟨y, hy⟩ := descStart_done hx hs hc hctx hheld h
    exact ⟨_, y, unitRow_settles _ hrun rfl, hy⟩
  case walks =>
    intro d t x k s ⟨hrun, _⟩ hx hk ht hd v w
    have hindex := dovDesc_index hx
    cases hskip : k.skip with
    | true =>
      obtain ⟨y, hy, hwalked, hused, hfree, hskips, hlast, hmore⟩ := walkLeaves_desc (t := t) (k := k) (w := walkInit x)
        (s := bump Reg.DOV_TOKEN_SKIP v) (y := walkedOn t v.cycle (walkInit x) x) hx hindex hd
      exact ⟨_, y, unitRow_settles _ hrun (walkEnter_skips hx hk ht hd hskip), hy, hwalked,
        fun _ => ⟨hused, hfree, hskips.trans (rd_bump_same ..)⟩, nofun, hlast, hmore⟩
    | false =>
      have stays : DescsStay v _ := (DescsStay.refl v).walkRanks (d := d) (k := lyF d 0 Fld.LAYER0_K s) (tag := tokenTag x t v)
        (cand := k.cand) (rs := upto (lyF d 0 Fld.LAYER0_K s)) (w := walkInit x)
      obtain ⟨y, hy, hwalked, hused, hfree, -, hlast, hmore⟩ := walkLeaves_desc (t := t) (k := k) (w := w)
        (y := walkedOn t v.cycle w x) ((dovDesc_of_descs d stays.descs).trans hx) hindex hd
      exact ⟨_, y, unitRow_settles _ hrun (walkEnter_walks hx hk ht hd hskip), hy, hwalked, nofun, fun _ => ⟨hused, hfree⟩,
        hlast, fun h => (hmore h).imp_right (And.imp_right (·.trans stays.cycle))⟩
  case reads =>
    intro l x e s ⟨hrun, _⟩ he sem num per hfin hleft hrows hask hnum hctx
    have stays := outboxRead_asks he hfin hleft hrows hask hnum hctx
    have hsem : Tab.SEM sem < Tab.ERR 0 := by
      have : sem < 2 ^ 12 := getF_lt ..
      unfold Tab.SEM Tab.ERR tabKey
      omega
    refine ⟨_, unitRow_settles _ hrun rfl, ?_, ?_⟩
    · rw [semValue, semEntry, stays.tables _ hsem]
      exact semValue_take ..
    · rw [dovX, stays.xs]
      exact dovX_setDovX (x := setEnt x _) (s := tbWF _ _ _ s) ⟨x, entNow_mem he, by simp [setEnt]⟩

end Sys2Proof.Proofs
end

section
/-!
Score intake and selection (O27): where a tile goes that lands at a Dovetail port, and the record that a Gauge unit makes of a
token.
-/
namespace Sys2Proof.Machine

/-! ## A tile at a Dovetail port (R173 to R176) -/

/-- The state in which the next tile of a MOVE.T has landed at its Dovetail port. -/
def scoreLanded (b q : Nat) (r : Run) (s : State) : State :=
  let f := fdescOf b r.op.aux s
  let last := (slotsFrom (getF Fld.FDESC_SLOTS f) (16 * (r.prog + 1)) r.start).getLastD r.start
  setMove b q r (some { r with prog := r.prog + 1 }) (advanceTo (last + floorLatency f) s)

/-- A source tile that is not BAD reaches its port as the bench holds it. -/
theorem scoreArrive_lands {b q : Nat} {r : Run} {s : State} (hm : dovMove b q s = some r)
    (hbad : s.sbad.contains (btKey b (r.op.tile + r.prog)) = false) :
    scoreArrive b q ⟨0, []⟩ s =
      let f := fdescOf b r.op.aux s
      tileArrive (getF Fld.FDESC_ENDPOINT f - 0x600) (getF Fld.FDESC_REMOTE f) (benchTile b (r.op.tile + r.prog) s)
        (scoreLanded b q r s) := by
  have hgood (c : Nat) : ¬ (eccBad b (r.op.tile + r.prog) ⟨0, []⟩ (eccCount b ⟨0, []⟩ (advanceTo c s))).sbad.contains
      (btKey b (r.op.tile + r.prog)) = true := Bool.not_eq_true _ ▸ hbad
  simp only [scoreArrive, hm]
  rw [if_neg (hgood _)]
  rfl

/-- The context whose Dovetail port `p` is, where it is one's. -/
def portOwner (p : Nat) (s : State) : Option Nat := (upto 16).find? (fun k => bitAt (dovPorts k s) p)

/-- A descriptor of context `c` that is not done and still takes tiles of a kind. -/
def ScoreWanted (c kind : Nat) (s : State) (y : DovDesc) : Prop :=
  y.ctx = c ∧ y.done = none ∧ tilesTaken y kind < tilesWanted y kind s

/-- The descriptor to which a tile of a kind belongs: the first that wants one. -/
def ScoreFirst (c kind : Nat) (s : State) (y : DovDesc) : Prop :=
  ∃ before after, s.dov.descs = before ++ y :: after ∧ ScoreWanted c kind s y ∧ ∀ z ∈ before, ¬ ScoreWanted c kind s z

/-- A score tile as R174 wants it: its checksum fits and it is FP32. -/
def ScoreSound (x : Tile) : Prop := tagF Fld.TAG_CRC x.tag = crc32c x.payload ∧ tagF Fld.TAG_FORMAT x.tag = fmtFP32

section
variable {p kind c : Nat} {x : Tile} {y : DovDesc} {s : State}

theorem scoreWanted_iff : (y.ctx == c && y.done.isNone && decide (tilesTaken y kind < tilesWanted y kind s)) = true ↔
    ScoreWanted c kind s y := by
  simp [ScoreWanted, and_assoc]

theorem ScoreFirst.ctx (h : ScoreFirst c kind s y) : y.ctx = c := by
  obtain ⟨_, _, -, ⟨hctx, -, -⟩, -⟩ := h
  exact hctx

theorem find_scoreFirst (h : ScoreFirst c kind s y) : s.dov.descs.find? (fun z => z.ctx == c && z.done.isNone &&
    decide (tilesTaken z kind < tilesWanted z kind s)) = some y := by
  obtain ⟨before, after, hsplit, hy, hbefore⟩ := h
  refine List.find?_eq_some_iff_append.2 ⟨scoreWanted_iff.2 hy, before, after, hsplit, fun z hz => ?_⟩
  rw [Bool.not_eq_true', Bool.eq_false_iff]
  exact mt scoreWanted_iff.1 (hbefore z hz)

section
variable (ho : portOwner p s = some c) (hc : ctxState c s = 1) (hk : kind ≤ 32) (hy : ScoreFirst c kind s y)
include ho hc hk hy

/-- A tile that a descriptor wants is judged for it. -/
theorem tileArrive_wanted : tileArrive p kind x s =
    if tagF Fld.TAG_CRC x.tag ≠ crc32c x.payload ∨ tagF Fld.TAG_FORMAT x.tag ≠ fmtFP32 then
      dovFault 0x0401 kLayer y.d c [w64 (0x600 + p), w64 (tagF Fld.TAG_CRC x.tag)] s
    else if storeShare c s ≤ shareUsed c s then dovFault 0x0402 kLayer y.d c [w64 (0x600 + p)] s
    else setDesc { y with cnt := smPut (fun _ => 0) y.cnt kind (tilesTaken y kind + 1),
                          store := y.store ++ [(kind, tilesTaken y kind, x)] } (bump Reg.DOV_SCORE_TILES s) := by
  obtain rfl := hy.ctx
  unfold portOwner at ho
  simp only [tileArrive, ho, if_neg (not_or.2 ⟨not_not.2 hc, Nat.not_lt.2 hk⟩), find_scoreFirst hy]

/-- A sound tile for which the share has room is held and counted. -/
theorem tileArrive_held (hx : ScoreSound x) (hroom : shareUsed c s < storeShare c s) : tileArrive p kind x s =
    setDesc { y with cnt := smPut (fun _ => 0) y.cnt kind (tilesTaken y kind + 1),
                     store := y.store ++ [(kind, tilesTaken y kind, x)] } (bump Reg.DOV_SCORE_TILES s) := by
  rw [tileArrive_wanted ho hc hk hy, if_neg (not_or.2 ⟨not_not.2 hx.1, not_not.2 hx.2⟩), if_neg (Nat.not_le.2 hroom)]

/-- A tile of a bad checksum or format stops the context. -/
theorem tileArrive_unsound (hx : ¬ ScoreSound x) : tileArrive p kind x s =
    dovFault 0x0401 kLayer y.d c [w64 (0x600 + p), w64 (tagF Fld.TAG_CRC x.tag)] s := by
  rw [tileArrive_wanted ho hc hk hy, if_pos (not_and_or.1 hx)]

/-- A sound tile for which the share has no room stops the context. -/
theorem tileArrive_full (hx : ScoreSound x) (hroom : storeShare c s ≤ shareUsed c s) : tileArrive p kind x s =
    dovFault 0x0402 kLayer y.d c [w64 (0x600 + p)] s := by
  rw [tileArrive_wanted ho hc hk hy, if_neg (not_or.2 ⟨not_not.2 hx.1, not_not.2 hx.2⟩), if_pos hroom]
end

/-- A tile that no descriptor wants is discarded and counted; the step's first discard is on record already. -/
theorem tileArrive_unwanted (ho : portOwner p s = some c)
    (hno : ctxState c s ≠ 1 ∨ 32 < kind ∨ ∀ y ∈ s.dov.descs, ¬ ScoreWanted c kind s y) (hd : s.dov.disc.contains c = true) :
    tileArrive p kind x s = bump Reg.DOV_INTAKE_DISCARD s := by
  have hnone : (if ctxState c s ≠ 1 ∨ kind > 32 then none else s.dov.descs.find? (fun z => z.ctx == c && z.done.isNone &&
      decide (tilesTaken z kind < tilesWanted z kind s))) = none := by
    split
    · rfl
    next hrun =>
      obtain ⟨hc, hk⟩ := not_or.1 hrun
      have hall := (hno.resolve_left hc).resolve_left hk
      exact List.find?_eq_none.2 fun z hz => mt scoreWanted_iff.1 (hall z hz)
  unfold portOwner at ho
  simp only [tileArrive, ho, hnone, bump_dov, hd, if_true]

/-- A tile at a port that is no context's is discarded and counted. -/
theorem tileArrive_unowned (ho : portOwner p s = none) : tileArrive p kind x s = bump Reg.DOV_INTAKE_DISCARD s := by
  unfold portOwner at ho
  simp only [tileArrive, ho]
end

/-! ## Selection (R177 to R181) -/

/-- The record of token `t` that a Gauge unit begins in cycle `c`. -/
def gaugeRecord (d t c : Nat) (x : DovDesc) (s : State) : DovTok :=
  let skip := tokenSkips x t s
  let raw := if skip then [] else rawScores x t s
  let k := lyF d 0 Fld.LAYER0_K s
  let top := (ranked x raw s).take (k + lyF d 0 Fld.LAYER0_DEPTH s)
  let ws := if skip then [] else weights (lyF d 0 Fld.LAYER0_NORM s) ((top.take k).map (fun e => raw.getD e .nan)) raw
    (f32 (lyF d 1 Fld.LAYER1_WSCALE s))
  let fin := c + gaugeCycles d skip s
  ⟨t, skip, raw.any isNan, top, ws.map toF32, fin, fin - 1 + readyCycles d s, false⟩

/-- The cycle from which the Gauge unit of token `t` is free, once it is known. -/
def gaugeFree (t : Nat) (x : DovDesc) (s : State) : Option Nat :=
  if t < (gauges x.ctx s).length then some 0 else (x.toks.find? (fun k => k.t + (gauges x.ctx s).length == t)).map (·.readEnd)

/-- A free Gauge unit takes a token whose group is ready, when its descriptor has started. -/
theorem gaugeStart_takes {d t c0 c1 : Nat} {x : DovDesc} {s : State} (hx : dovDesc d s = some x) (hs : x.started = some c0)
    (hf : gaugeFree t x s = some c1) (hd : x.done = none) (hn : 0 < (gauges x.ctx s).length) (ht : t < x.num)
    (hnew : ∀ y ∈ x.toks, y.t ≠ t) (hg : groupReady x t s = true) : gaugeStart d t s =
      setDesc { x with toks := x.toks ++ [gaugeRecord d t (max s.cycle (max c0 c1)) x s] } (advanceTo (max c0 c1) s) := by
  have hmay : ¬ (x.done.isSome || (gauges x.ctx s).length == 0 || decide (x.num ≤ t) || x.toks.any (fun k => k.t == t) ||
      !groupReady x t s) = true := by
    simpa [hd, hg, hn.ne', ht] using hnew
  unfold gaugeFree at hf
  simp only [gaugeStart, hx, hs, hf]
  rw [if_neg hmay]
  rfl

/-- A record is formed in its cycle, and a NaN score of its token counted. -/
theorem selectionReady_forms {d t : Nat} {x : DovDesc} {k : DovTok} {s : State} (hx : dovDesc d s = some x)
    (hk : x.toks.find? (fun k => k.t == t && !k.formed) = some k) : selectionReady d t s =
      setDesc { x with toks := x.toks.map (fun z => if z.t = t then { z with formed := true } else z) }
        (if k.nan then bump Reg.DOV_SCORE_NAN (advanceTo k.ready s) else advanceTo k.ready s) := by
  simp only [selectionReady, hx, hk]
end Sys2Proof.Machine

namespace Sys2Proof.Proofs
open Sys2Proof Sys2Proof.Machine

/-- Settles O27: a tile's landing by the lemma of its case, and each token's record by its Gauge unit's start and its end. -/
theorem scoresAreSelected : Obligations.ScoresAreSelected := by
  constructor
  case left =>
    intro b q c r s ⟨hb, hq, hrun, hw⟩ hm hbad f p kind x lastSlot u owned wants first good lands
    have arrives : scoreArrive b q ⟨0, []⟩ s = tileArrive p kind x u := scoreArrive_lands hm hbad
    have stays {t : State} (e : tileArrive p kind x u = t) (k : t.work = u.work) : lands t :=
      seqRow_next _ hb hq hrun (arrives.trans e) (k.trans hw)
    have settles {t : State} (e : tileArrive p kind x u = t) : lands (settle t) :=
      (seqRow_runs _ hb hq hrun).trans (by rw [arrives, e])
    exact ⟨fun ho hc hk y hy hx hroom => stays (tileArrive_held ho hc hk hy hx hroom) rfl,
      fun ho hc hk y hy hx => settles (tileArrive_unsound ho hc hk hy hx),
      fun ho hc hk y hy hx hroom => settles (tileArrive_full ho hc hk hy hx hroom),
      fun ho hno hd => stays (tileArrive_unwanted ho hno hd) rfl,
      fun ho => stays (tileArrive_unowned ho) rfl⟩
  case right =>
    intro d t c0 c1 x s ⟨hrun, hw⟩ hx n free at' skip raw k top ws fin
    exact ⟨fun hs hf hd hn ht hnew hg => unitRow_next _ hrun (gaugeStart_takes hx hs hf hd hn ht hnew hg) hw,
      fun y hy => unitRow_next _ hrun (selectionReady_forms hx hy) (by split <;> exact hw)⟩

end Sys2Proof.Proofs
end

section
/-!
The moves of a port (O29 to O32): what each operation of the link does to the registers of its port and to the port itself, and
what it leaves.
-/
namespace Sys2Proof.Machine

/-! ## The registers of a port (R259) -/

/-- A register that neither the status of port `n` nor one of its lanes' is, and that lies below the ERR block: no move of the
port writes it but the counters' own. -/
structure Beside (n k : Nat) : Prop where
  status : k ≠ Reg.FAB_PORT_STATUS n
  lanes : ∀ l < 8, k ≠ Reg.FAB_LANE_STATUS n l
  below : k < Reg.ERR_CTL

theorem beside_at {n d : Nat} (hn : n < 16) (hd : d < 8 ∨ 0x10 ≤ d ∧ d < 0x100 ∨ 0x140 ≤ d ∧ d < 0x10000) :
    Beside n (0x1000000 + d + n * 0x10000) := by
  constructor
  case status => unfold Reg.FAB_PORT_STATUS; omega
  case lanes => intro l hl; unfold Reg.FAB_LANE_STATUS; omega
  case below => unfold Reg.ERR_CTL; omega

/-- A register outside the block of the ports and below the ERR block. -/
theorem beside_out {n k : Nat} (hn : n < 16) (hk : k < 0x1000000 ∨ 0x1100000 ≤ k) (he : k < Reg.ERR_CTL) : Beside n k := by
  constructor
  case status => unfold Reg.FAB_PORT_STATUS; omega
  case lanes => intro l hl; unfold Reg.FAB_LANE_STATUS; omega
  case below => exact he

section
variable {n : Nat} (hn : n < 16)
include hn
@[simp] theorem beside_portCtl : Beside n (Reg.FAB_PORT_CTL n) := beside_at hn (d := 0) (by decide)
@[simp] theorem beside_partner : Beside n (Reg.FAB_PORT_PARTNER n) := beside_at hn (d := 0x10) (by decide)
@[simp] theorem beside_fecCorr : Beside n (Reg.FAB_FEC_CORR n) := beside_at hn (d := 0x210) (by decide)
@[simp] theorem beside_fecUncorr : Beside n (Reg.FAB_FEC_UNCORR n) := beside_at hn (d := 0x218) (by decide)
@[simp] theorem beside_retrains : Beside n (Reg.FAB_RETRAINS n) := beside_at hn (d := 0x240) (by decide)
@[simp] theorem beside_degrades : Beside n (Reg.FAB_DEGRADES n) := beside_at hn (d := 0x248) (by decide)
@[simp] theorem beside_downs : Beside n (Reg.FAB_DOWNS n) := beside_at hn (d := 0x250) (by decide)
@[simp] theorem beside_delay : Beside n (Reg.DET_PORT_DELAY n) := by
  refine beside_out hn ?_ ?_ <;> unfold Reg.DET_PORT_DELAY
  · omega
  · unfold Reg.ERR_CTL; omega

theorem status_lt_err : Reg.FAB_PORT_STATUS n < Reg.ERR_CTL := by unfold Reg.FAB_PORT_STATUS Reg.ERR_CTL; omega
theorem lane_lt_err {l : Nat} (hl : l < 8) : Reg.FAB_LANE_STATUS n l < Reg.ERR_CTL := by
  unfold Reg.FAB_LANE_STATUS Reg.ERR_CTL; omega
end

theorem status_ne_lane (n l : Nat) : Reg.FAB_PORT_STATUS n ≠ Reg.FAB_LANE_STATUS n l := by
  unfold Reg.FAB_PORT_STATUS Reg.FAB_LANE_STATUS; omega
theorem lane_ne_lane {n l m : Nat} (h : l ≠ m) : Reg.FAB_LANE_STATUS n l ≠ Reg.FAB_LANE_STATUS n m := by
  unfold Reg.FAB_LANE_STATUS; omega

theorem downs_ne_partner (n : Nat) : Reg.FAB_DOWNS n ≠ Reg.FAB_PORT_PARTNER n := by
  unfold Reg.FAB_DOWNS Reg.FAB_PORT_PARTNER; omega

/-- A field of FAB_LANE_STATUS. -/
def laneF (n l : Nat) (f : Fld) (s : State) : Nat := rdF (Reg.FAB_LANE_STATUS n l) f s

section
variable (n : Nat) (f : Fld) (s : State)

theorem portState_psF : portState n s = psF n Fld.FAB_PORT_STATUS_STATE s := rfl
theorem widthCode_psF : widthCode n s = psF n Fld.FAB_PORT_STATUS_WIDTH s := rfl

@[simp] theorem psF_setPort (m : Nat) (p : Port) : psF n f (setPort m p s) = psF n f s := rfl
@[simp] theorem psF_advanceTo (c : Nat) : psF n f (advanceTo c s) = psF n f s := rfl

theorem psF_congr {t : State} (h : rd (Reg.FAB_PORT_STATUS n) t = rd (Reg.FAB_PORT_STATUS n) s) : psF n f t = psF n f s :=
  congrArg (getF f) h
theorem laneF_congr {l : Nat} {t : State} (h : rd (Reg.FAB_LANE_STATUS n l) t = rd (Reg.FAB_LANE_STATUS n l) s) :
    laneF n l f t = laneF n l f s := congrArg (getF f) h

variable {n} {k : Nat} (hk : Beside n k)
include hk
@[simp] theorem psF_wr (v : Word) : psF n f (wr k v s) = psF n f s := psF_congr n f s (rd_wr_other s v (Ne.symm hk.status))
@[simp] theorem psF_bump : psF n f (bump k s) = psF n f s := psF_wr f s hk _
@[simp] theorem laneF_wr {l : Nat} (hl : l < 8) (v : Word) : laneF n l f (wr k v s) = laneF n l f s :=
  laneF_congr n f s (rd_wr_other s v (Ne.symm (hk.lanes l hl)))
@[simp] theorem laneF_bump {l : Nat} (hl : l < 8) : laneF n l f (bump k s) = laneF n l f s := laneF_wr f s hk hl _
end

/-! ## Fields of the status and of the lanes -/

section
variable (n : Nat) (f : Fld) (x : Nat) (s : State)

-- Proved by `rw`, not by `rfl`: `simp` then records each use as a step, where the kernel would unfold and compare whole states.
@[simp] theorem portOf_psW (m : Nat) : portOf m (psW n f x s) = portOf m s := by rw [psW, portOf_wrF]
@[simp] theorem psW_cycle : (psW n f x s).cycle = s.cycle := by rw [psW, wrF_cycle]
@[simp] theorem psW_dev : (psW n f x s).dev = s.dev := by rw [psW, wrF_dev]
@[simp] theorem psW_work : (psW n f x s).work = s.work := by rw [psW, wrF_work]
@[simp] theorem psW_col : (psW n f x s).col = s.col := by rw [psW, wrF_col]
@[simp] theorem rd_psW {k : Nat} (hk : Beside n k) : rd k (psW n f x s) = rd k s := rd_wrF_other s _ _ hk.status
@[simp] theorem laneF_psW (l : Nat) (g : Fld) : laneF n l g (psW n f x s) = laneF n l g s :=
  laneF_congr n g s (rd_wrF_other s _ _ (Ne.symm (status_ne_lane n l)))
@[simp] theorem psF_psW_same (h : f.lo + f.width ≤ 64) : psF n f (psW n f x s) = x % 2 ^ f.width := by
  rw [psF, psW, rdF, rd_wrF_same, getF_setF_same _ _ _ h]
variable {f} in
@[simp] theorem psF_psW_other {g : Fld} (hg : g.lo + g.width ≤ 64) (h : g.lo + g.width ≤ f.lo ∨ f.lo + f.width ≤ g.lo) :
    psF n g (psW n f x s) = psF n g s := by
  rw [psF, psW, rdF, rd_wrF_same, getF_setF_other _ _ _ _ hg h]
  rfl

variable (l : Nat)
theorem psF_laneW (g : Fld) : psF n g (wrF (Reg.FAB_LANE_STATUS n l) f x s) = psF n g s :=
  psF_congr n g s (rd_wrF_other s _ _ (status_ne_lane n l))
theorem laneF_laneW_same (h : f.lo + f.width ≤ 64) :
    laneF n l f (wrF (Reg.FAB_LANE_STATUS n l) f x s) = x % 2 ^ f.width := by
  rw [laneF, rdF, rd_wrF_same, getF_setF_same _ _ _ h]
variable {f l} in
theorem laneF_laneW_field {g : Fld} (hg : g.lo + g.width ≤ 64) (h : g.lo + g.width ≤ f.lo ∨ f.lo + f.width ≤ g.lo) :
    laneF n l g (wrF (Reg.FAB_LANE_STATUS n l) f x s) = laneF n l g s := by
  rw [laneF, rdF, rd_wrF_same, getF_setF_other _ _ _ _ hg h]
  rfl
variable {l} in
theorem laneF_laneW_lane {m : Nat} (g : Fld) (h : m ≠ l) :
    laneF n m g (wrF (Reg.FAB_LANE_STATUS n l) f x s) = laneF n m g s :=
  laneF_congr n g s (rd_wrF_other s _ _ (lane_ne_lane h))
end

/-! ## Two fields of every lane -/

/-- Fields `g` and then `f` of a list of lanes follow `b` and `a`. -/
def lanesPut (n : Nat) (f : Fld) (a : Nat → Nat) (g : Fld) (b : Nat → Nat) (ls : List Nat) (s : State) : State :=
  ls.foldl (fun s l => wrF (Reg.FAB_LANE_STATUS n l) f (a l) (wrF (Reg.FAB_LANE_STATUS n l) g (b l) s)) s

section
variable (n : Nat) (f : Fld) (a : Nat → Nat) (g : Fld) (b : Nat → Nat) (ls : List Nat) (s : State)

theorem lanesPut_onlyRegs : OnlyRegs s (lanesPut n f a g b ls s) := by
  induction ls generalizing s with
  | nil => exact ⟨_, rfl⟩
  | cons l ls ih => exact OnlyRegs.trans ⟨_, rfl⟩ (ih _)

theorem rd_lanesPut {k : Nat} (hk : ∀ l ∈ ls, k ≠ Reg.FAB_LANE_STATUS n l) : rd k (lanesPut n f a g b ls s) = rd k s := by
  induction ls generalizing s with
  | nil => rfl
  | cons l ls ih =>
    have hl : k ≠ Reg.FAB_LANE_STATUS n l := hk l List.mem_cons_self
    exact (ih _ fun m hm => hk m (List.mem_cons_of_mem _ hm)).trans ((rd_wrF_other _ _ _ hl).trans (rd_wrF_other _ _ _ hl))

variable {ls}

/-- Each of the lanes has its own values, which the later ones do not write again. -/
theorem rd_lanesPut_lane {l : Nat} (hd : ls.Nodup) (hl : l ∈ ls) : rd (Reg.FAB_LANE_STATUS n l) (lanesPut n f a g b ls s) =
    setF f (setF g (rd (Reg.FAB_LANE_STATUS n l) s) (b l)) (a l) := by
  induction ls generalizing s with
  | nil => simp at hl
  | cons m ls ih =>
    obtain ⟨hm, hd⟩ := List.nodup_cons.1 hd
    rcases List.mem_cons.1 hl with rfl | hl
    · refine (rd_lanesPut n f a g b ls _ fun k hk => lane_ne_lane (show l ≠ k from fun e => hm (e ▸ hk))).trans ?_
      rw [rd_wrF_same, rd_wrF_same]
    · have hne : Reg.FAB_LANE_STATUS n l ≠ Reg.FAB_LANE_STATUS n m := lane_ne_lane (show l ≠ m from fun e => hm (e ▸ hl))
      refine (ih _ hd hl).trans ?_
      rw [rd_wrF_other _ _ _ hne, rd_wrF_other _ _ _ hne]

theorem psF_lanesPut (h : Fld) : psF n h (lanesPut n f a g b ls s) = psF n h s :=
  psF_congr n h s (rd_lanesPut n f a g b ls s fun l _ => status_ne_lane n l)

variable {l : Nat} (hl : l < 8)
include hl

theorem laneF_lanesPut_first (hf : f.lo + f.width ≤ 64) : laneF n l f (lanesPut n f a g b (upto 8) s) = a l % 2 ^ f.width := by
  rw [laneF, rdF, rd_lanesPut_lane n f a g b s List.nodup_range (List.mem_range.2 hl), getF_setF_same _ _ _ hf]

variable {f g}

theorem laneF_lanesPut_second (hg : g.lo + g.width ≤ 64) (h : g.lo + g.width ≤ f.lo ∨ f.lo + f.width ≤ g.lo) :
    laneF n l g (lanesPut n f a g b (upto 8) s) = b l % 2 ^ g.width := by
  rw [laneF, rdF, rd_lanesPut_lane n f a g b s List.nodup_range (List.mem_range.2 hl), getF_setF_other _ _ _ _ hg h,
    getF_setF_same _ _ _ hg]

theorem laneF_lanesPut_other {h : Fld} (hh : h.lo + h.width ≤ 64) (hf : h.lo + h.width ≤ f.lo ∨ f.lo + f.width ≤ h.lo)
    (hg : h.lo + h.width ≤ g.lo ∨ g.lo + g.width ≤ h.lo) :
    laneF n l h (lanesPut n f a g b (upto 8) s) = laneF n l h s := by
  rw [laneF, rdF, rd_lanesPut_lane n f a g b s List.nodup_range (List.mem_range.2 hl), getF_setF_other _ _ _ _ hh hf,
    getF_setF_other _ _ _ _ hh hg]
  rfl
end

theorem b2n_mod_two (x : Bool) : b2n x % 2 = b2n x := by cases x <;> rfl

section
variable (n lock bad : Nat) (s : State)

theorem lanesSet_onlyRegs : OnlyRegs s (lanesSet n lock bad s) := OnlyRegs.trans ⟨_, rfl⟩ (lanesPut_onlyRegs ..)

@[simp] theorem portOf_lanesSet (m : Nat) : portOf m (lanesSet n lock bad s) = portOf m s := by
  obtain ⟨_, e⟩ := lanesSet_onlyRegs n lock bad s; rw [e]; rfl
@[simp] theorem lanesSet_cycle : (lanesSet n lock bad s).cycle = s.cycle := by
  obtain ⟨_, e⟩ := lanesSet_onlyRegs n lock bad s; rw [e]
@[simp] theorem lanesSet_dev : (lanesSet n lock bad s).dev = s.dev := by
  obtain ⟨_, e⟩ := lanesSet_onlyRegs n lock bad s; rw [e]
@[simp] theorem lanesSet_work : (lanesSet n lock bad s).work = s.work := by
  obtain ⟨_, e⟩ := lanesSet_onlyRegs n lock bad s; rw [e]
@[simp] theorem lanesSet_col : (lanesSet n lock bad s).col = s.col := by
  obtain ⟨_, e⟩ := lanesSet_onlyRegs n lock bad s; rw [e]

@[simp] theorem rd_lanesSet {k : Nat} (hk : Beside n k) : rd k (lanesSet n lock bad s) = rd k s :=
  (rd_lanesPut _ _ _ _ _ _ _ fun l hl => hk.lanes l (List.mem_range.1 hl)).trans (rd_psW n _ _ s hk)

@[simp] theorem psF_lanesSet_bad : psF n Fld.FAB_PORT_STATUS_BAD (lanesSet n lock bad s) = bad % 256 :=
  (psF_lanesPut ..).trans (psF_psW_same n _ _ s (by decide))
@[simp] theorem psF_lanesSet_other {f : Fld} (hf : f.lo + f.width ≤ 64)
    (h : f.lo + f.width ≤ Fld.FAB_PORT_STATUS_BAD.lo ∨ Fld.FAB_PORT_STATUS_BAD.lo + Fld.FAB_PORT_STATUS_BAD.width ≤ f.lo) :
    psF n f (lanesSet n lock bad s) = psF n f s := (psF_lanesPut ..).trans (psF_psW_other n _ s hf h)

@[simp] theorem laneF_lanesSet_lock {l : Nat} (hl : l < 8) :
    laneF n l Fld.FAB_LANE_STATUS_LOCK (lanesSet n lock bad s) = b2n (bitAt lock l) :=
  (laneF_lanesPut_first n _ _ _ _ _ hl (by decide)).trans (b2n_mod_two _)
@[simp] theorem laneF_lanesSet_bad {l : Nat} (hl : l < 8) :
    laneF n l Fld.FAB_LANE_STATUS_BAD (lanesSet n lock bad s) = b2n (bitAt bad l) :=
  (laneF_lanesPut_second n _ _ _ hl (by decide) (by decide)).trans (b2n_mod_two _)
end

section
variable (n invert : Nat) (eyes : List Nat) (s : State)

theorem lanesMeasured_onlyRegs : OnlyRegs s (lanesMeasured n invert eyes s) := lanesPut_onlyRegs ..

@[simp] theorem portOf_lanesMeasured (m : Nat) : portOf m (lanesMeasured n invert eyes s) = portOf m s := by
  obtain ⟨_, e⟩ := lanesMeasured_onlyRegs n invert eyes s; rw [e]; rfl
@[simp] theorem lanesMeasured_cycle : (lanesMeasured n invert eyes s).cycle = s.cycle := by
  obtain ⟨_, e⟩ := lanesMeasured_onlyRegs n invert eyes s; rw [e]
@[simp] theorem lanesMeasured_work : (lanesMeasured n invert eyes s).work = s.work := by
  obtain ⟨_, e⟩ := lanesMeasured_onlyRegs n invert eyes s; rw [e]
@[simp] theorem rd_lanesMeasured {k : Nat} (hk : Beside n k) : rd k (lanesMeasured n invert eyes s) = rd k s :=
  rd_lanesPut _ _ _ _ _ _ _ fun l hl => hk.lanes l (List.mem_range.1 hl)
@[simp] theorem psF_lanesMeasured (f : Fld) : psF n f (lanesMeasured n invert eyes s) = psF n f s := psF_lanesPut ..

variable {l : Nat} (hl : l < 8)
include hl
@[simp] theorem laneF_lanesMeasured_invert :
    laneF n l Fld.FAB_LANE_STATUS_INVERT (lanesMeasured n invert eyes s) = b2n (bitAt invert l) :=
  (laneF_lanesPut_first n _ _ _ _ _ hl (by decide)).trans (b2n_mod_two _)
@[simp] theorem laneF_lanesMeasured_eye :
    laneF n l Fld.FAB_LANE_STATUS_EYE (lanesMeasured n invert eyes s) = eyes.getD l 0 % 256 :=
  laneF_lanesPut_second n _ _ _ hl (by decide) (by decide)
@[simp] theorem laneF_lanesMeasured_lock :
    laneF n l Fld.FAB_LANE_STATUS_LOCK (lanesMeasured n invert eyes s) = laneF n l Fld.FAB_LANE_STATUS_LOCK s :=
  laneF_lanesPut_other n _ _ _ hl (by decide) (by decide) (by decide)
@[simp] theorem laneF_lanesMeasured_bad :
    laneF n l Fld.FAB_LANE_STATUS_BAD (lanesMeasured n invert eyes s) = laneF n l Fld.FAB_LANE_STATUS_BAD s :=
  laneF_lanesPut_other n _ _ _ hl (by decide) (by decide) (by decide)
end

/-! ## Records, widths and states (R254, R257) -/

section
variable (code n : Nat) (s : State)

@[simp] theorem portOf_portLog (m : Nat) : portOf m (portLog code n s) = portOf m s := by
  obtain ⟨_, _, _, _, _, _, _, e⟩ := log_only (code := code) (kind := kPort) (index := n) (ctx := none)
    (ds := [rd (Reg.FAB_PORT_STATUS n) s, rd (Reg.FAB_PORT_PARTNER n) s]) (s := s)
  rw [portLog, e]; rfl
@[simp] theorem portLog_cycle : (portLog code n s).cycle = s.cycle := by
  obtain ⟨_, _, _, _, _, _, _, e⟩ := log_only (code := code) (kind := kPort) (index := n) (ctx := none)
    (ds := [rd (Reg.FAB_PORT_STATUS n) s, rd (Reg.FAB_PORT_PARTNER n) s]) (s := s)
  rw [portLog, e]
@[simp] theorem portLog_work : (portLog code n s).work = s.work := by
  obtain ⟨_, _, _, _, _, _, _, e⟩ := log_only (code := code) (kind := kPort) (index := n) (ctx := none)
    (ds := [rd (Reg.FAB_PORT_STATUS n) s, rd (Reg.FAB_PORT_PARTNER n) s]) (s := s)
  rw [portLog, e]

theorem rd_portLog_below {k : Nat} (hk : k < Reg.ERR_CTL) : rd k (portLog code n s) = rd k s := by
  unfold Reg.ERR_CTL at hk
  refine rd_log _ _ _ _ _ _ ?_ ?_ ?_
  · unfold Reg.ERR_STATE; omega
  · unfold Reg.ERR_WRITTEN; omega
  · unfold Reg.ERR_LOST; omega

@[simp] theorem rd_portLog {k : Nat} (hk : Beside n k) : rd k (portLog code n s) = rd k s := rd_portLog_below _ _ _ hk.below
@[simp] theorem psF_portLog (hn : n < 16) (f : Fld) : psF n f (portLog code n s) = psF n f s :=
  psF_congr n f s (rd_portLog_below _ _ _ (status_lt_err hn))
@[simp] theorem laneF_portLog (hn : n < 16) {l : Nat} (hl : l < 8) (f : Fld) : laneF n l f (portLog code n s) = laneF n l f s :=
  laneF_congr n f s (rd_portLog_below _ _ _ (lane_lt_err hn hl))
end

/-- Only the beginning of ACTIVE may leave work: the Mark is looked at again. -/
theorem portEnter_eq {st : Nat} (n : Nat) (s : State) (h : st ≠ 5) :
    portEnter n st s = setPort n { portOf n s with entered := s.cycle } (psW n Fld.FAB_PORT_STATUS_STATE st s) :=
  if_neg fun k => h k.2

section
variable (n st : Nat) (s : State)

/-- Whether or not the Mark is looked at again, a state is entered in this cycle. -/
theorem portEnter_cases : ∃ work, portEnter n st s =
    { setPort n { portOf n s with entered := s.cycle } (psW n Fld.FAB_PORT_STATUS_STATE st s) with work := work } := by
  unfold portEnter
  dsimp only
  split <;> exact ⟨_, rfl⟩

@[simp] theorem portOf_portEnter : portOf n (portEnter n st s) = { portOf n s with entered := s.cycle } := by
  obtain ⟨_, e⟩ := portEnter_cases n st s; rw [e]; exact portOf_setPort_same ..
@[simp] theorem portEnter_cycle : (portEnter n st s).cycle = s.cycle := by obtain ⟨_, e⟩ := portEnter_cases n st s; rw [e]; rfl
@[simp] theorem portEnter_col : (portEnter n st s).col = s.col := by obtain ⟨_, e⟩ := portEnter_cases n st s; rw [e]; rfl
theorem rd_portEnter_status (k : Nat) : rd k (portEnter n st s) = rd k (psW n Fld.FAB_PORT_STATUS_STATE st s) := by
  obtain ⟨_, e⟩ := portEnter_cases n st s; rw [e]; rfl
@[simp] theorem rd_portEnter {k : Nat} (hk : Beside n k) : rd k (portEnter n st s) = rd k s :=
  (rd_portEnter_status n st s k).trans (rd_psW n _ _ s hk)
@[simp] theorem psF_portEnter_state : psF n Fld.FAB_PORT_STATUS_STATE (portEnter n st s) = st % 8 :=
  (psF_congr n _ _ (rd_portEnter_status n st s _)).trans (psF_psW_same n _ _ s (by decide))
@[simp] theorem psF_portEnter_other {f : Fld} (h : f.lo + f.width ≤ Fld.FAB_PORT_STATUS_STATE.lo) :
    psF n f (portEnter n st s) = psF n f s :=
  (psF_congr n _ _ (rd_portEnter_status n st s _)).trans
    (psF_psW_other n _ s (h.trans (show Fld.FAB_PORT_STATUS_STATE.lo ≤ 64 by decide)) (.inl h))
@[simp] theorem laneF_portEnter (l : Nat) (f : Fld) : laneF n l f (portEnter n st s) = laneF n l f s :=
  (laneF_congr n f _ (rd_portEnter_status n st s _)).trans (laneF_psW n _ _ s l f)
variable {st} in
@[simp] theorem portEnter_work (h : st ≠ 5) : (portEnter n st s).work = s.work := by rw [portEnter_eq n s h]; rfl
end

section
variable (n w : Nat) (s : State)

@[simp] theorem portOf_portRetrain :
    portOf n (portRetrain n w s) = { portOf n s with entered := s.cycle, tries := 0, fallback := w } := by
  simp [portRetrain]
@[simp] theorem portRetrain_cycle : (portRetrain n w s).cycle = s.cycle := portEnter_cycle ..
@[simp] theorem portRetrain_work : (portRetrain n w s).work = s.work := portEnter_work n s (by decide)
@[simp] theorem portRetrain_col : (portRetrain n w s).col = s.col := portEnter_col ..
@[simp] theorem rd_portRetrain {k : Nat} (hk : Beside n k) : rd k (portRetrain n w s) = rd k s := rd_portEnter n 6 s hk
@[simp] theorem psF_portRetrain_state : psF n Fld.FAB_PORT_STATUS_STATE (portRetrain n w s) = 6 := psF_portEnter_state ..
@[simp] theorem psF_portRetrain_other {f : Fld} (h : f.lo + f.width ≤ Fld.FAB_PORT_STATUS_STATE.lo) :
    psF n f (portRetrain n w s) = psF n f s := psF_portEnter_other n 6 s h
@[simp] theorem laneF_portRetrain (l : Nat) (f : Fld) : laneF n l f (portRetrain n w s) = laneF n l f s := laneF_portEnter ..

@[simp] theorem portOf_portDetect : portOf n (portDetect n s) = { portOf n s with entered := s.cycle, attempts := 0 } := by
  simp [portDetect]
@[simp] theorem portDetect_cycle : (portDetect n s).cycle = s.cycle := portEnter_cycle ..
@[simp] theorem portDetect_work : (portDetect n s).work = s.work := portEnter_work n s (by decide)
@[simp] theorem portDetect_col : (portDetect n s).col = s.col := portEnter_col ..
@[simp] theorem rd_portDetect {k : Nat} (hk : Beside n k) : rd k (portDetect n s) = rd k s := rd_portEnter n 1 s hk
@[simp] theorem psF_portDetect_state : psF n Fld.FAB_PORT_STATUS_STATE (portDetect n s) = 1 := psF_portEnter_state ..

@[simp] theorem portOf_degrade : portOf n (degrade n w s) = portOf n s := portOf_portLog ..
@[simp] theorem degrade_cycle : (degrade n w s).cycle = s.cycle := portLog_cycle ..
@[simp] theorem degrade_work : (degrade n w s).work = s.work := portLog_work ..

section
variable (hn : n < 16)
include hn
@[simp] theorem rd_degrade_degrades : rd (Reg.FAB_DEGRADES n) (degrade n w s) = rd (Reg.FAB_DEGRADES n) s + 1 := by
  simp [degrade, hn]
@[simp] theorem psF_degrade_width : psF n Fld.FAB_PORT_STATUS_WIDTH (degrade n w s) = w % 4 := by simp [degrade, hn]
@[simp] theorem psF_degrade_bad : psF n Fld.FAB_PORT_STATUS_BAD (degrade n w s) = psF n Fld.FAB_PORT_STATUS_BAD s := by
  simp [degrade, hn]
@[simp] theorem laneF_degrade {l : Nat} (hl : l < 8) (f : Fld) : laneF n l f (degrade n w s) = laneF n l f s := by
  simp [degrade, hn, hl]
end
end

/-! ## A port that leaves (R258) -/

/-- A port in DOWN or DISABLED, before its cause is recorded and its packets are given back. -/
def portLeft (n st : Nat) (s : State) : State :=
  bump (Reg.FAB_DOWNS n) (lanesSet n 0 0 (psW n Fld.FAB_PORT_STATUS_WIDTH 0 (psW n Fld.FAB_PORT_STATUS_STATE st
    (setPort n (portCleared (portOf n s) s.cycle) s))))

/-- Packets that are given back are work for the end of the step. -/
def handBack (n : Nat) (back : List Packet) (s : State) : State := if back.isEmpty then s else defer (.giveBack n back) s

theorem portLeave_quietly (n st : Nat) (s : State) :
    portLeave n st none s = handBack n (undelivered (portOf n s)) (portLeft n st s) := rfl

theorem portDown_eq (n cause : Nat) (s : State) : portDown n cause s = handBack n (undelivered (portOf n s))
    (portLog (0x0800 + cause) n (psW n Fld.FAB_PORT_STATUS_DOWN_CAUSE cause (portLeft n 7 s))) := rfl

section
variable (n : Nat) (back : List Packet) (s : State)

theorem handBack_cases : ∃ work, handBack n back s = { s with work := work } := by
  unfold handBack
  split <;> exact ⟨_, rfl⟩

theorem handBack_work : (handBack n back s).work = s.work ++ if back = [] then [] else [.giveBack n back] := by
  cases back with
  | nil => exact (List.append_nil _).symm
  | cons p back => rfl

@[simp] theorem portOf_handBack (m : Nat) : portOf m (handBack n back s) = portOf m s := by
  obtain ⟨_, e⟩ := handBack_cases n back s; rw [e]; rfl
@[simp] theorem rd_handBack (k : Nat) : rd k (handBack n back s) = rd k s := by
  obtain ⟨_, e⟩ := handBack_cases n back s; rw [e]; rfl
@[simp] theorem psF_handBack (m : Nat) (f : Fld) : psF m f (handBack n back s) = psF m f s := psF_congr m f _ (rd_handBack ..)
@[simp] theorem laneF_handBack (m l : Nat) (f : Fld) : laneF m l f (handBack n back s) = laneF m l f s :=
  laneF_congr m f _ (rd_handBack ..)
@[simp] theorem handBack_cycle : (handBack n back s).cycle = s.cycle := by
  obtain ⟨_, e⟩ := handBack_cases n back s; rw [e]
@[simp] theorem handBack_dev : (handBack n back s).dev = s.dev := by
  obtain ⟨_, e⟩ := handBack_cases n back s; rw [e]
end

section
variable (n st : Nat) (s : State)

@[simp] theorem portOf_portLeft : portOf n (portLeft n st s) = portCleared (portOf n s) s.cycle := by
  rw [portLeft, portOf_bump, portOf_lanesSet, portOf_psW, portOf_psW, portOf_setPort_same]
@[simp] theorem portLeft_cycle : (portLeft n st s).cycle = s.cycle := by
  rw [portLeft, bump_cycle, lanesSet_cycle, psW_cycle, psW_cycle, setPort_cycle]
@[simp] theorem portLeft_dev : (portLeft n st s).dev = s.dev := by
  rw [portLeft, bump_dev, lanesSet_dev, psW_dev, psW_dev, setPort_dev]
@[simp] theorem portLeft_work : (portLeft n st s).work = s.work := by
  rw [portLeft, bump_work, lanesSet_work, psW_work, psW_work, setPort_work]

section
variable (hn : n < 16)
include hn
@[simp] theorem psF_portLeft_state : psF n Fld.FAB_PORT_STATUS_STATE (portLeft n st s) = st % 8 := by simp [portLeft, hn]
@[simp] theorem rd_portLeft_downs : rd (Reg.FAB_DOWNS n) (portLeft n st s) = rd (Reg.FAB_DOWNS n) s + 1 := by
  simp [portLeft, hn]
@[simp] theorem laneF_portLeft_lock {l : Nat} (hl : l < 8) : laneF n l Fld.FAB_LANE_STATUS_LOCK (portLeft n st s) = 0 := by
  simp [portLeft, hn, hl, b2n, bitAt]
end
@[simp] theorem rd_portLeft {k : Nat} (hk : Beside n k) (hd : k ≠ Reg.FAB_DOWNS n) : rd k (portLeft n st s) = rd k s := by
  simp [portLeft, hk, rd_bump_other _ hd]
end

section
variable (n cause : Nat) (s : State)

@[simp] theorem portOf_portDown : portOf n (portDown n cause s) = portCleared (portOf n s) s.cycle := by simp [portDown_eq]

variable (hn : n < 16)
include hn
@[simp] theorem psF_portDown_state : psF n Fld.FAB_PORT_STATUS_STATE (portDown n cause s) = 7 := by simp [portDown_eq, hn]
@[simp] theorem psF_portDown_cause : psF n Fld.FAB_PORT_STATUS_DOWN_CAUSE (portDown n cause s) = cause % 256 := by
  simp [portDown_eq, hn]
@[simp] theorem rd_portDown_downs : rd (Reg.FAB_DOWNS n) (portDown n cause s) = rd (Reg.FAB_DOWNS n) s + 1 := by
  simp [portDown_eq, hn]
@[simp] theorem laneF_portDown_lock {l : Nat} (hl : l < 8) : laneF n l Fld.FAB_LANE_STATUS_LOCK (portDown n cause s) = 0 := by
  simp [portDown_eq, hn, hl]
end
@[simp] theorem rd_portDown {n k : Nat} (cause : Nat) (s : State) (hk : Beside n k) (hd : k ≠ Reg.FAB_DOWNS n) :
    rd k (portDown n cause s) = rd k s := by
  simp [portDown_eq, hk, hd]

/-! ## The commands of a port -/

/-- A command of a port that leaves work for the end of its step. -/
theorem portRow_settles {n : Nat} {s t : State} {f : State → State} (hn : n < 16) (h : Working s) (e : f s = t) :
    portRow n f s = .next (settle t) :=
  (if_pos (decide_eq_true hn)).trans (unitRow_settles f h.1 e)

/-- A command of a port that leaves nothing to settle. -/
theorem portRow_next {n : Nat} {s t : State} {f : State → State} (hn : n < 16) (h : Working s) (e : f s = t)
    (w : t.work = s.work) : portRow n f s = .next t :=
  (if_pos (decide_eq_true hn)).trans (unitRow_next f h.1 e (w.trans h.2))

end Sys2Proof.Machine
end

section
/-!
Training of a port (O30): the stages, the width at which EQ leaves, and what an attempt that fails costs.
-/
namespace Sys2Proof.Machine

/-! ## The stages (R254) -/

/-- A state that is entered shows its number, and its time runs from this cycle. -/
theorem portEnter_enters {st : Nat} (n : Nat) (s : State) (h : st < 8) : let t := portEnter n st s
    portState n t = st ∧ (portOf n t).entered = s.cycle ∧ t.cycle = s.cycle := by
  exact ⟨(psF_portEnter_state ..).trans (Nat.mod_eq_of_lt h), congrArg Port.entered (portOf_portEnter ..), portEnter_cycle ..⟩

theorem signalDetect_powered {n : Nat} {s : State} (hs : portState n s = 1) (hc : (portOf n s).cblOn = true) :
    signalDetect n s = portEnter n 2 s := if_pos ⟨hs, hc⟩

theorem signalDetect_unpowered {n : Nat} {s : State} (hc : (portOf n s).cblOn = false) : signalDetect n s = s :=
  if_neg fun k => by simp [hc] at k

/-- What EQ measures of each lane, and which lanes it finds clean. -/
def Measured (n lock invert : Nat) (eyes : List Nat) (t : State) : Prop := ∀ l < 8,
  laneF n l Fld.FAB_LANE_STATUS_INVERT t = b2n (bitAt invert l) ∧ laneF n l Fld.FAB_LANE_STATUS_EYE t = eyes.getD l 0 % 256 ∧
  laneF n l Fld.FAB_LANE_STATUS_LOCK t = b2n (bitAt lock l) ∧ laneF n l Fld.FAB_LANE_STATUS_BAD t = 1 - b2n (bitAt lock l)

/-- The lanes as EQ leaves them. -/
def lanesTuned (n lock invert : Nat) (eyes : List Nat) (s : State) : State :=
  lanesMeasured n invert eyes (lanesSet n lock (0xFF - lock) s)

/-- The lanes that are not clean are BAD. -/
theorem bad_of_clean : ∀ lock < 256, ∀ l < 8, b2n (bitAt (0xFF - lock) l) = 1 - b2n (bitAt lock l) := by decide +kernel

section
variable (n invert : Nat) (eyes : List Nat) (s : State)

theorem lanesTuned_measured {lock : Nat} (h : lock < 256) : Measured n lock invert eyes (lanesTuned n lock invert eyes s) := by
  intro l hl
  unfold lanesTuned
  exact ⟨laneF_lanesMeasured_invert n _ _ _ hl, laneF_lanesMeasured_eye n _ _ _ hl,
    (laneF_lanesMeasured_lock n _ _ _ hl).trans (laneF_lanesSet_lock n _ _ _ hl),
    ((laneF_lanesMeasured_bad n _ _ _ hl).trans (laneF_lanesSet_bad n _ _ _ hl)).trans (bad_of_clean lock h l hl)⟩

variable {n s}

theorem Measured.of_lanes {lock : Nat} {t : State} {invert : Nat} {eyes : List Nat} (h : Measured n lock invert eyes s)
    (e : ∀ l < 8, ∀ f, laneF n l f t = laneF n l f s) : Measured n lock invert eyes t := by
  intro l hl
  simp only [e l hl]
  exact h l hl

/-- EQ in time goes on to IDENT at width 8. -/
theorem eqDone_timely (hs : portState n s = 2) (ht : s.cycle ≤ (portOf n s).entered + msCycles 50) :
    eqDone n invert eyes s = portEnter n 3 (lanesTuned n 0xFF invert eyes (psW n Fld.FAB_PORT_STATUS_WIDTH 3 s)) :=
  if_pos ⟨hs, ht⟩

/-- The port as EQ leaves it with one half clean: the lower where `low`. -/
def halfTuned (n : Nat) (low : Bool) (invert : Nat) (eyes : List Nat) (s : State) : State :=
  degrade n (if low then 1 else 2) (lanesTuned n (if low then 0x0F else 0xF0) invert eyes s)

/-- Where one half alone is clean when the time of EQ runs out, the port goes on to IDENT at that half. -/
theorem eqTimeout_half {clean0 clean1 : Bool} (hs : portState n s = 2) (hc : clean0 ≠ clean1)
    (hm : pcBit n Fld.FAB_PORT_CTL_MINW s = false) : eqTimeout n clean0 clean1 invert eyes s =
      portEnter n 3 (halfTuned n clean0 invert eyes (advanceTo ((portOf n s).entered + msCycles 50) s)) := by
  unfold eqTimeout
  rw [if_neg (not_not.2 hs)]
  refine if_pos ?_
  rw [show pcBit n Fld.FAB_PORT_CTL_MINW (advanceTo _ s) = false from hm]
  simp [hc]

theorem halfTuned_cycle (low : Bool) : (halfTuned n low invert eyes s).cycle = s.cycle := by simp [halfTuned, lanesTuned]

theorem halfTuned_measured (hn : n < 16) (low : Bool) (s : State) :
    Measured n (if low then 0x0F else 0xF0) invert eyes (halfTuned n low invert eyes s) :=
  (lanesTuned_measured n invert eyes s (by split <;> decide)).of_lanes fun _ hl f => laneF_degrade _ _ _ hn hl f

/-- What such a port shows. -/
theorem eqTimeout_half_shows {clean0 clean1 : Bool} (hn : n < 16) (hs : portState n s = 2) (hc : clean0 ≠ clean1)
    (hm : pcBit n Fld.FAB_PORT_CTL_MINW s = false) : let t := eqTimeout n clean0 clean1 invert eyes s
      let now := max s.cycle ((portOf n s).entered + msCycles 50)
      t.work = s.work ∧ (portState n t = 3 ∧ (portOf n t).entered = now ∧ t.cycle = now) ∧
        widthCode n t = (if clean0 then 1 else 2) ∧ Measured n (if clean0 then 0x0F else 0xF0) invert eyes t ∧
        rd (Reg.FAB_DEGRADES n) t = rd (Reg.FAB_DEGRADES n) s + 1 := by
  rw [eqTimeout_half invert eyes hs hc hm]
  intro t now
  obtain ⟨hst, hin, hcyc⟩ := portEnter_enters n (halfTuned n clean0 invert eyes (advanceTo ((portOf n s).entered + msCycles 50) s))
    (show 3 < 8 by decide)
  rw [halfTuned_cycle] at hin hcyc
  refine ⟨?work, ⟨hst, hin, hcyc⟩, ?width, ?lanes, ?count⟩
  case work => simp [t, halfTuned, lanesTuned]
  case width =>
    refine (psF_portEnter_other n 3 _ (by decide)).trans ((psF_degrade_width _ _ _ hn).trans ?_)
    cases clean0 <;> rfl
  case lanes => exact (halfTuned_measured invert eyes hn clean0 _).of_lanes fun l _ f => laneF_portEnter ..
  case count => simp [t, halfTuned, lanesTuned, hn]

/-! ## An attempt that fails (R254) -/

/-- Before the last attempt the port detects again. -/
theorem attemptFailed_again (h : (portOf n s).attempts + 1 < lcF n Fld.FAB_LINK_CFG_ATTEMPTS s) : attemptFailed n s =
    portEnter n 1 (lanesSet n 0 0 (psW n Fld.FAB_PORT_STATUS_WIDTH 0
      (setPort n { portOf n s with attempts := (portOf n s).attempts + 1 } s))) := if_neg (Nat.not_le.2 h)

/-- After the last one it is DOWN. -/
theorem attemptFailed_last (h : lcF n Fld.FAB_LINK_CFG_ATTEMPTS s ≤ (portOf n s).attempts + 1) : attemptFailed n s =
    portDown n 1 (setPort n { portOf n s with attempts := (portOf n s).attempts + 1 } s) := if_pos h

/-- A port that goes DOWN shows the cause and counts it. -/
theorem portDown_shows (hn : n < 16) {cause : Nat} (hc : cause < 256) (s : State) : let u := portDown n cause s
    portState n u = 7 ∧ psF n Fld.FAB_PORT_STATUS_DOWN_CAUSE u = cause ∧ rd (Reg.FAB_DOWNS n) u = rd (Reg.FAB_DOWNS n) s + 1 :=
  ⟨psF_portDown_state _ _ _ hn, (psF_portDown_cause _ _ _ hn).trans (Nat.mod_eq_of_lt hc), rd_portDown_downs _ _ _ hn⟩

/-- A command that lets the time of a stage run out: DETECT again with one attempt more, or DOWN. -/
theorem portRow_attemptFails {f : State → State} {due : Nat} (hn : n < 16) (hw : Working s)
    (e : f s = attemptFailed n (advanceTo due s)) :
    ((portOf n s).attempts + 1 < lcF n Fld.FAB_LINK_CFG_ATTEMPTS s → ∃ t, portRow n f s = .next t ∧
      (portState n t = 1 ∧ (portOf n t).entered = max s.cycle due ∧ t.cycle = max s.cycle due) ∧
      (portOf n t).attempts = (portOf n s).attempts + 1 ∧ widthCode n t = 0) ∧
    (lcF n Fld.FAB_LINK_CFG_ATTEMPTS s ≤ (portOf n s).attempts + 1 → ∃ u, portRow n f s = .next (settle u) ∧
      portState n u = 7 ∧ psF n Fld.FAB_PORT_STATUS_DOWN_CAUSE u = 1 ∧ rd (Reg.FAB_DOWNS n) u = rd (Reg.FAB_DOWNS n) s + 1) := by
  constructor
  · intro h
    refine ⟨_, portRow_next hn hw (e.trans (attemptFailed_again h)) (by simp), ?_, by simp, by simp [widthCode_psF]⟩
    simp [portState_psF, advanceTo]
  · intro h
    exact ⟨_, portRow_settles hn hw (e.trans (attemptFailed_last h)), portDown_shows hn (by decide) _⟩

theorem eqTimeout_fails {clean0 clean1 : Bool} (hs : portState n s = 2)
    (hc : clean0 = clean1 ∨ ¬ pcBit n Fld.FAB_PORT_CTL_MINW s = false) : eqTimeout n clean0 clean1 invert eyes s =
      attemptFailed n (advanceTo ((portOf n s).entered + msCycles 50) s) := by
  unfold eqTimeout
  rw [if_neg (not_not.2 hs)]
  refine if_neg ?_
  rcases hc with rfl | hm
  · simp
  · rw [show pcBit n Fld.FAB_PORT_CTL_MINW (advanceTo _ s) = true from Bool.not_eq_false _ ▸ hm]
    simp

theorem stageTimeout_fails {st : Nat} (hs : portState n s = st) :
    stageTimeout n st s = attemptFailed n (advanceTo ((portOf n s).entered + msCycles 1) s) := if_pos hs
end

/-! ## Identities (R256, R279) -/

/-- The identity as FAB_PORT_PARTNER keeps it. -/
def partnerWord (ident : Word) : Word := ident &&& ~~~(maskF ⟨43, 5⟩) &&& ~~~(maskF ⟨0, 24⟩)

section
variable {n : Nat} {ident : Word} {s : State} (pools : List Nat)

/-- An exchange in time, while the device knows its own number. -/
theorem identExchange_timely (hs : portState n s = 3) (hv : selfValid s = true)
    (ht : s.cycle ≤ (portOf n s).entered + msCycles 1) : identExchange n ident pools s =
      let u := wr (Reg.FAB_PORT_PARTNER n) (partnerWord ident) s
      if !partnerOk n ident u then portDown n 0x02 u
      else if !versionOk n ident then portDown n 0x07 u
      else portEnter n 4 (setPort n { portOf n u with adv := numMap (pools.take 17), ownAdv := ownPools u } u) :=
  if_neg (by simp [hs, hv, ht])

/-- The identity that is stored changes neither FAB_SELF nor the pools. -/
theorem partnerOk_wr (v w : Word) : partnerOk n w (wr (Reg.FAB_PORT_PARTNER n) v s) = partnerOk n w s := by
  have hself : selfPhys (wr (Reg.FAB_PORT_PARTNER n) v s) = selfPhys s := by
    unfold selfPhys
    rw [rd_wr_other]
    unfold Reg.FAB_SELF Reg.FAB_PORT_PARTNER
    omega
  unfold partnerOk
  simp only [hself]

theorem ownPools_wr (v : Word) : ownPools (wr (Reg.FAB_PORT_PARTNER n) v s) = ownPools s := by
  have hpool : ∀ c ∈ upto 16, rdF (Reg.CTX_FABRIC c) Fld.CTX_FABRIC_POOL (wr (Reg.FAB_PORT_PARTNER n) v s) =
      rdF (Reg.CTX_FABRIC c) Fld.CTX_FABRIC_POOL s := by
    intro c hc
    have hc := List.mem_range.1 hc
    refine congrArg (getF _) (rd_wr_other _ _ ?_)
    unfold Reg.CTX_FABRIC Reg.FAB_PORT_PARTNER
    omega
  unfold ownPools
  rw [List.map_congr_left fun c hc => congrArg (Prod.mk c) (hpool c hc)]

variable {pools} (hs : portState n s = 3) (hv : selfValid s = true)
  (ht : s.cycle ≤ (portOf n s).entered + msCycles 1)
include hs hv ht

theorem identExchange_fits (hn : n < 16) (hp : partnerOk n ident s = true) (hver : versionOk n ident = true) :
    let t := identExchange n ident pools s
    t.work = s.work ∧ (portState n t = 4 ∧ (portOf n t).entered = s.cycle ∧ t.cycle = s.cycle) ∧
      rd (Reg.FAB_PORT_PARTNER n) t = partnerWord ident ∧ (portOf n t).ownAdv = ownPools s := by
  rw [identExchange_timely pools hs hv ht]
  simp [partnerOk_wr, ownPools_wr, hp, hver, hn, portState_psF]

theorem identExchange_misfit (hp : partnerOk n ident s = false) : identExchange n ident pools s =
    portDown n 0x02 (wr (Reg.FAB_PORT_PARTNER n) (partnerWord ident) s) := by
  rw [identExchange_timely pools hs hv ht]
  exact if_pos (by simp [partnerOk_wr, hp])

theorem identExchange_noVersion (hp : partnerOk n ident s = true) (hver : versionOk n ident = false) :
    identExchange n ident pools s = portDown n 0x07 (wr (Reg.FAB_PORT_PARTNER n) (partnerWord ident) s) := by
  rw [identExchange_timely pools hs hv ht]
  exact (if_neg (by simp [partnerOk_wr, hp])).trans (if_pos (by simp [hver]))
end

/-! ## Block lock, and the retry of a DOWN port -/

/-- A port whose counts start again at 0; what it has to send and the partner's pools stay. -/
def portAligned (p : Port) : Port :=
  { Port.reset with
    txq := p.txq, arrived := p.arrived, adv := p.adv, ownAdv := p.ownAdv, attempts := p.attempts, cblOn := p.cblOn }

section
variable {n : Nat} {s : State}

theorem alignLock_timely (delay : Nat) (hs : portState n s = 4) (ht : s.cycle ≤ (portOf n s).entered + msCycles 1) :
    alignLock n delay s = delaySet n delay (portEnter n 5 (setPort n (portAligned (portOf n s)) s)) := if_pos ⟨hs, ht⟩

theorem delaySet_shows (hn : n < 16) (delay : Nat) (s : State) : let u := delaySet n delay s
    rd (Reg.DET_PORT_DELAY n) u = w64 (2 ^ 63 + delay % 2 ^ 20) ∧ portOf n u = portOf n s ∧ u.cycle = s.cycle ∧
      ∀ f, psF n f u = psF n f s :=
  ⟨rd_wr_same .., rfl, rfl, fun f => psF_wr f s (beside_delay hn) _⟩

theorem downRetry_auto (hs : portState n s = 7) (ha : pcBit n Fld.FAB_PORT_CTL_AUTO s = true) : downRetry n s =
    portDetect n (advanceTo ((portOf n s).entered + msCycles (lcF n Fld.FAB_LINK_CFG_DOWN_RETRY_MS s)) s) := if_pos ⟨hs, ha⟩
end

end Sys2Proof.Machine

namespace Sys2Proof.Proofs
open Sys2Proof Sys2Proof.Machine

/-- Settles O30: one lemma for what each stage does in time, and one for every stage whose time runs out. -/
theorem portTrains : Obligations.PortTrains := by
  intro n half invert delay eyes pools ident s hn hw p st enters lane measured down fails word timely wide
  refine ⟨?signal, ?unpowered, ?eqDone, ?lower, ?upper, ?eqFails, ?ident, ?misfit, ?noVersion, ?identFails, ?alignFails, ?align,
    ?retry⟩
  case signal =>
    intro hh hs hc
    have e : (if half < 2 then signalDetect n else id) s = portEnter n 2 s := by rw [if_pos hh, signalDetect_powered hs hc]
    exact ⟨_, portRow_next hn hw e (portEnter_work n s (by decide)), portEnter_enters n s (by decide)⟩
  case unpowered =>
    intro hh hs hc
    exact portRow_next hn hw (by rw [if_pos hh, signalDetect_unpowered hc]) rfl
  case eqDone =>
    intro hs ht
    refine ⟨_, portRow_next hn hw (eqDone_timely invert eyes hs ht) (by simp [lanesTuned]), ?_, ?_, ?_⟩
    · simp [enters, lanesTuned, portState_psF]
    · simp [lanesTuned, widthCode_psF]
    · exact (lanesTuned_measured n invert eyes _ (by decide)).of_lanes fun l _ f => laneF_portEnter ..
  case lower =>
    intro hs hm
    obtain ⟨work, shows⟩ := eqTimeout_half_shows (clean0 := true) (clean1 := false) invert eyes hn hs (by decide) hm
    exact ⟨_, portRow_next hn hw rfl work, shows⟩
  case upper =>
    intro hs hm
    obtain ⟨work, shows⟩ := eqTimeout_half_shows (clean0 := false) (clean1 := true) invert eyes hn hs (by decide) hm
    exact ⟨_, portRow_next hn hw rfl work, shows⟩
  case eqFails => exact fun hs x y hc => portRow_attemptFails hn hw (eqTimeout_fails invert eyes hs hc)
  case ident =>
    intro hs ht hp hver
    obtain ⟨work, shows⟩ := identExchange_fits (pools := pools) hs ht.1 ht.2 hn hp hver
    exact ⟨_, portRow_next hn hw rfl work, shows⟩
  case misfit =>
    intro hs ht hp
    refine ⟨_, portRow_settles hn hw (identExchange_misfit hs ht.1 ht.2 hp), ?_⟩
    obtain ⟨hst, hc, hd⟩ := portDown_shows hn (show 2 < 256 by decide) (wr (Reg.FAB_PORT_PARTNER n) (partnerWord ident) s)
    exact ⟨hst, hc, hd.trans (congrArg (· + 1) (rd_wr_other _ _ (downs_ne_partner n)))⟩
  case noVersion =>
    intro hs ht hp hver
    refine ⟨_, portRow_settles hn hw (identExchange_noVersion hs ht.1 ht.2 hp hver), ?_⟩
    obtain ⟨hst, hc, hd⟩ := portDown_shows hn (show 7 < 256 by decide) (wr (Reg.FAB_PORT_PARTNER n) (partnerWord ident) s)
    exact ⟨hst, hc, hd.trans (congrArg (· + 1) (rd_wr_other _ _ (downs_ne_partner n)))⟩
  case identFails => exact fun hs => portRow_attemptFails hn hw (stageTimeout_fails hs)
  case alignFails => exact fun hs => portRow_attemptFails hn hw (stageTimeout_fails hs)
  case align =>
    intro hs ht
    refine ⟨_, portRow_settles hn hw (congrArg pumpAll (alignLock_timely delay hs ht)), ?_⟩
    obtain ⟨hdelay, hport, hcycle, hstatus⟩ := delaySet_shows hn delay (portEnter n 5 (setPort n (portAligned p) s))
    have hp : portOf n (portEnter n 5 (setPort n (portAligned p) s)) = { portAligned p with entered := s.cycle } := by
      simp
    rw [hport, hp]
    refine ⟨⟨?_, ?_, ?_⟩, hdelay, rfl, rfl, rfl, rfl, rfl⟩
    · rw [portState_psF, hstatus, psF_portEnter_state]
    · rw [hport, hp]
    · rw [hcycle, portEnter_cycle]; rfl
  case retry =>
    intro hs ha
    refine ⟨_, portRow_next hn hw (downRetry_auto hs ha) (by simp), ?_, by simp⟩
    simp [enters, portState_psF, advanceTo, p]

end Sys2Proof.Proofs
end

section
/-!
RETRAIN of a port (O31): how it begins and ends, and what a lane that is lost costs.
-/
namespace Sys2Proof.Machine

/-! ## RETRAIN begins, locks, or runs out of time (R254, R255) -/

theorem portActive_iff {n : Nat} {s : State} : portActive n s = true ↔ portState n s = 5 := beq_iff_eq

/-- A port that has locked in RETRAIN: it owes a NAK and replays nothing of its own accord. -/
def portRelocked (p : Port) : Port :=
  { p with
    txPrbs := 0x7FFFFFFF, rxPrbs := 0x7FFFFFFF, nakOwed := true, replay := [], badBlocks := 0, laneHist := [], blocks := 0 }

section
variable {n : Nat} {s : State}

theorem retrainPattern_active (h : portState n s = 5) : retrainPattern n s = portRetrain n (widthCode n s) s :=
  if_pos (portActive_iff.2 h)

/-- The state of a port that has locked again, before its own record. -/
def retrainDone (n delay : Nat) (s : State) : State := bump (Reg.FAB_RETRAINS n) (delaySet n delay (portEnter n 5 s))

theorem retrainLock_timely (delay : Nat) (hs : portState n s = 6) (ht : s.cycle ≤ (portOf n s).entered + 17000) :
    retrainLock n delay s = setPort n (portRelocked (portOf n (retrainDone n delay s))) (retrainDone n delay s) := if_pos ⟨hs, ht⟩

theorem retrains_ne_delay (hn : n < 16) : Reg.FAB_RETRAINS n ≠ Reg.DET_PORT_DELAY n := by
  unfold Reg.FAB_RETRAINS Reg.DET_PORT_DELAY; omega

/-- What a port that has locked again shows. -/
theorem retrainDone_shows (hn : n < 16) (delay : Nat) (s : State) : let u := retrainDone n delay s
    portState n u = 5 ∧ (portOf n u).retry = (portOf n s).retry ∧ rd (Reg.FAB_RETRAINS n) u = rd (Reg.FAB_RETRAINS n) s + 1 ∧
      rd (Reg.DET_PORT_DELAY n) u = w64 (2 ^ 63 + delay % 2 ^ 20) := by
  intro u
  have hne := retrains_ne_delay hn
  refine ⟨?_, ?_, ?_, ?_⟩
  · exact (psF_bump _ _ (beside_retrains hn)).trans ((psF_wr _ _ (beside_delay hn) _).trans (psF_portEnter_state ..))
  · have hp : portOf n u = { portOf n s with entered := s.cycle } := portOf_portEnter n 5 s
    rw [hp]
  · refine (rd_bump_same ..).trans (congrArg (· + 1) ?_)
    exact (rd_wr_other _ _ hne).trans (rd_portEnter n 5 s (beside_retrains hn))
  · exact (rd_bump_other _ hne.symm).trans (rd_wr_same ..)

/-- Another try, at the width to which the port falls back. -/
theorem retrainTimeout_again (hs : portState n s = 6) (h : (portOf n s).tries + 1 < lcF n Fld.FAB_LINK_CFG_ATTEMPTS s) :
    retrainTimeout n s =
      setPort n { portOf n s with tries := (portOf n s).tries + 1, entered := max s.cycle ((portOf n s).entered + 17000) }
        (psW n Fld.FAB_PORT_STATUS_WIDTH (portOf n s).fallback (advanceTo ((portOf n s).entered + 17000) s)) :=
  (if_neg (not_not.2 hs)).trans (if_neg (Nat.not_le.2 h))

theorem retrainTimeout_last (hs : portState n s = 6) (h : lcF n Fld.FAB_LINK_CFG_ATTEMPTS s ≤ (portOf n s).tries + 1) :
    retrainTimeout n s = portDown n 4 (advanceTo ((portOf n s).entered + 17000) s) := (if_neg (not_not.2 hs)).trans (if_pos h)
end

/-! ## A lane that is lost (R257) -/

/-- Lane `l` is one that an ACTIVE port uses. -/
def LaneInUse (n l : Nat) (s : State) : Prop := portState n s = 5 ∧ bitAt (widthLanes (widthCode n s)) l = true

/-- No half is left to which the port could fall back with these BAD lanes. -/
def NoHalf (n bad : Nat) (s : State) : Prop := pcBit n Fld.FAB_PORT_CTL_MINW s = true ∨ bad % 16 ≠ 0 ∧ bad / 16 ≠ 0

/-- The lane is marked BAD. -/
def laneMarked (n l : Nat) (s : State) : State :=
  wrF (Reg.FAB_LANE_STATUS n l) Fld.FAB_LANE_STATUS_BAD 1 (psW n Fld.FAB_PORT_STATUS_BAD (badLanes n s ||| 2 ^ l) s)

/-- The half without BAD lanes. -/
def goodHalf (bad : Nat) : Nat := if bad % 16 = 0 then 1 else 2

theorem bad_lt {n l : Nat} (s : State) (hl : l < 8) : badLanes n s ||| 2 ^ l < 256 :=
  Nat.or_lt_two_pow (n := 8) (getF_lt Fld.FAB_PORT_STATUS_BAD _) (Nat.pow_lt_pow_right (by decide) hl)

section
variable {n l : Nat} {s : State}

theorem ctl_ne_lane (n l : Nat) : Reg.FAB_PORT_CTL n ≠ Reg.FAB_LANE_STATUS n l := by
  unfold Reg.FAB_PORT_CTL Reg.FAB_LANE_STATUS; omega

@[simp] theorem pcBit_laneW (f g : Fld) (x : Nat) (s : State) :
    pcBit n g (wrF (Reg.FAB_LANE_STATUS n l) f x s) = pcBit n g s := congrArg (bitF g) (rd_wrF_other _ _ _ (ctl_ne_lane n l))

theorem rd_laneW {k : Nat} (f : Fld) (x : Nat) (s : State) (hl : l < 8) (hk : Beside n k) :
    rd k (wrF (Reg.FAB_LANE_STATUS n l) f x s) = rd k s := rd_wrF_other _ _ _ (hk.lanes l hl)

theorem psF_laneMarked_bad (hl : l < 8) : psF n Fld.FAB_PORT_STATUS_BAD (laneMarked n l s) = badLanes n s ||| 2 ^ l :=
  (psF_laneW ..).trans ((psF_psW_same n _ _ s (by decide)).trans (Nat.mod_eq_of_lt (bad_lt s hl)))

theorem laneF_laneMarked_lock {k : Nat} : laneF n k Fld.FAB_LANE_STATUS_LOCK (laneMarked n l s) =
    laneF n k Fld.FAB_LANE_STATUS_LOCK s := by
  refine Eq.trans ?_ (laneF_psW n Fld.FAB_PORT_STATUS_BAD (badLanes n s ||| 2 ^ l) s k _)
  by_cases h : k = l
  · subst h
    exact laneF_laneW_field n _ _ (by decide) (by decide)
  · exact laneF_laneW_lane n _ _ _ _ h

theorem rd_laneMarked {k : Nat} (hl : l < 8) (hk : Beside n k) : rd k (laneMarked n l s) = rd k s :=
  (rd_laneW _ _ _ hl hk).trans (rd_psW n _ _ s hk)

theorem laneBad_unused (h : ¬ LaneInUse n l s) : laneBad n l s = s := by
  refine if_pos ?_
  rw [Bool.or_eq_true, Bool.not_eq_true', Bool.not_eq_true', ← Bool.not_eq_true, ← Bool.not_eq_true, portActive_iff]
  exact not_and_or.1 h

theorem laneBad_used (h : LaneInUse n l s) : laneBad n l s =
    if pcBit n Fld.FAB_PORT_CTL_MINW (laneMarked n l s) ||
      ((badLanes n s ||| 2 ^ l) % 16 != 0 && (badLanes n s ||| 2 ^ l) / 16 != 0) then portDown n 0x06 (laneMarked n l s)
    else portRetrain n (goodHalf (badLanes n s ||| 2 ^ l)) (degrade n (goodHalf (badLanes n s ||| 2 ^ l)) (laneMarked n l s)) := by
  obtain ⟨hs, hw⟩ := h
  exact if_neg (by simp [portActive_iff.2 hs, hw])

theorem noHalf_iff : (pcBit n Fld.FAB_PORT_CTL_MINW (laneMarked n l s) ||
    ((badLanes n s ||| 2 ^ l) % 16 != 0 && (badLanes n s ||| 2 ^ l) / 16 != 0)) = true ↔ NoHalf n (badLanes n s ||| 2 ^ l) s := by
  have hm : pcBit n Fld.FAB_PORT_CTL_MINW (laneMarked n l s) = pcBit n Fld.FAB_PORT_CTL_MINW s := by
    refine (pcBit_laneW ..).trans (congrArg (bitF _) (rd_wrF_other _ _ _ ?_))
    unfold Reg.FAB_PORT_CTL Reg.FAB_PORT_STATUS
    omega
  simp [hm, NoHalf]

/-- Without a half to fall back to, the port goes DOWN. -/
theorem laneBad_down (h : LaneInUse n l s) (hb : NoHalf n (badLanes n s ||| 2 ^ l) s) :
    laneBad n l s = portDown n 0x06 (laneMarked n l s) := (laneBad_used h).trans (if_pos (noHalf_iff.2 hb))

/-- Else it goes to the half without BAD lanes and retrains there. -/
theorem laneBad_half (h : LaneInUse n l s) (hb : ¬ NoHalf n (badLanes n s ||| 2 ^ l) s) : laneBad n l s =
    portRetrain n (goodHalf (badLanes n s ||| 2 ^ l)) (degrade n (goodHalf (badLanes n s ||| 2 ^ l)) (laneMarked n l s)) :=
  (laneBad_used h).trans (if_neg (mt noHalf_iff.1 hb))

/-- A lane that becomes BAD moves its port. -/
theorem laneBad_state (hn : n < 16) (h : LaneInUse n l s) :
    portState n (laneBad n l s) = 6 ∨ portState n (laneBad n l s) = 7 := by
  by_cases hb : NoHalf n (badLanes n s ||| 2 ^ l) s
  · rw [laneBad_down h hb]
    exact .inr (psF_portDown_state _ _ _ hn)
  · rw [laneBad_half h hb]
    exact .inl (psF_portRetrain_state ..)

/-- A lane without lock does not gain it when another becomes BAD. -/
theorem laneBad_lock (hn : n < 16) {k : Nat} (hk : k < 8) (h : laneF n k Fld.FAB_LANE_STATUS_LOCK s = 0) :
    laneF n k Fld.FAB_LANE_STATUS_LOCK (laneBad n l s) = 0 := by
  by_cases hu : LaneInUse n l s
  · by_cases hb : NoHalf n (badLanes n s ||| 2 ^ l) s
    · rw [laneBad_down hu hb, laneF_portDown_lock _ _ _ hn hk]
    · rw [laneBad_half hu hb, laneF_portRetrain, laneF_degrade _ _ _ hn hk, laneF_laneMarked_lock, h]
  · rwa [laneBad_unused hu]

/-- The lane shows that it has no lock. -/
def laneUnlocked (n l : Nat) (s : State) : State := wrF (Reg.FAB_LANE_STATUS n l) Fld.FAB_LANE_STATUS_LOCK 0 s

theorem laneLost_eq (hl : l < 8) : laneLost n l s = laneBad n l (laneUnlocked n l s) := if_pos hl

@[simp] theorem psF_laneUnlocked (f : Fld) : psF n f (laneUnlocked n l s) = psF n f s := psF_laneW ..
theorem portState_laneUnlocked : portState n (laneUnlocked n l s) = portState n s := psF_laneUnlocked _
theorem widthCode_laneUnlocked : widthCode n (laneUnlocked n l s) = widthCode n s := psF_laneUnlocked _
theorem badLanes_laneUnlocked : badLanes n (laneUnlocked n l s) = badLanes n s := psF_laneUnlocked _

theorem laneInUse_laneUnlocked : LaneInUse n l (laneUnlocked n l s) ↔ LaneInUse n l s := by
  unfold LaneInUse
  rw [portState_laneUnlocked, widthCode_laneUnlocked]

theorem noHalf_laneUnlocked {bad : Nat} : NoHalf n bad (laneUnlocked n l s) ↔ NoHalf n bad s := by
  unfold NoHalf laneUnlocked
  rw [pcBit_laneW]

theorem laneF_laneUnlocked : laneF n l Fld.FAB_LANE_STATUS_LOCK (laneUnlocked n l s) = 0 := laneF_laneW_same n _ 0 s l (by decide)

theorem laneLost_unused (hl : l < 8) (h : ¬ LaneInUse n l s) : laneLost n l s = laneUnlocked n l s :=
  (laneLost_eq hl).trans (laneBad_unused (mt laneInUse_laneUnlocked.1 h))

/-- A lane in use that is lost with a half left: the port falls back to it in RETRAIN. -/
theorem laneLost_half (hn : n < 16) (hl : l < 8) (h : LaneInUse n l s) (hb : ¬ NoHalf n (badLanes n s ||| 2 ^ l) s) :
    let t := laneLost n l s
    let half := goodHalf (badLanes n s ||| 2 ^ l)
    t.work = s.work ∧ portState n t = 6 ∧ widthCode n t = half ∧ badLanes n t = (badLanes n s ||| 2 ^ l) ∧
      laneF n l Fld.FAB_LANE_STATUS_LOCK t = 0 ∧ (portOf n t).fallback = half ∧
      rd (Reg.FAB_DEGRADES n) t = rd (Reg.FAB_DEGRADES n) s + 1 := by
  intro t half
  have e : t = portRetrain n half (degrade n half (laneMarked n l (laneUnlocked n l s))) := by
    have k := laneBad_half (laneInUse_laneUnlocked.2 h) (by rwa [badLanes_laneUnlocked, noHalf_laneUnlocked])
    rw [badLanes_laneUnlocked] at k
    exact (laneLost_eq hl).trans k
  have hhalf : half % 4 = half := by
    unfold half goodHalf
    split <;> rfl
  rw [e]
  refine ⟨?work, psF_portRetrain_state .., ?width, ?bad, ?lock, ?fallback, ?count⟩
  case work => exact (portRetrain_work ..).trans (degrade_work ..)
  case width => exact (psF_portRetrain_other _ _ _ (by decide)).trans ((psF_degrade_width _ _ _ hn).trans hhalf)
  case bad =>
    refine (psF_portRetrain_other _ _ _ (by decide)).trans ((psF_degrade_bad _ _ _ hn).trans ((psF_laneMarked_bad hl).trans ?_))
    rw [badLanes_laneUnlocked]
  case lock =>
    exact (laneF_portRetrain ..).trans ((laneF_degrade _ _ _ hn hl _).trans (laneF_laneMarked_lock.trans laneF_laneUnlocked))
  case fallback => exact congrArg Port.fallback (portOf_portRetrain ..)
  case count =>
    have hd := beside_degrades hn
    refine (rd_portRetrain _ _ _ hd).trans ((rd_degrade_degrades _ _ _ hn).trans (congrArg (· + 1) ?_))
    exact (rd_laneMarked hl hd).trans (rd_laneW _ _ _ hl hd)

/-- A lane in use that is lost with no half left. -/
theorem laneLost_down (hl : l < 8) (h : LaneInUse n l s) (hb : NoHalf n (badLanes n s ||| 2 ^ l) s) :
    laneLost n l s = portDown n 0x06 (laneMarked n l (laneUnlocked n l s)) :=
  (laneLost_eq hl).trans (laneBad_down (laneInUse_laneUnlocked.2 h) (by rwa [badLanes_laneUnlocked, noHalf_laneUnlocked]))

theorem laneLost_state (hn : n < 16) (hl : l < 8) (h : LaneInUse n l s) :
    portState n (laneLost n l s) = 6 ∨ portState n (laneLost n l s) = 7 := by
  rw [laneLost_eq hl]
  exact laneBad_state hn (laneInUse_laneUnlocked.2 h)

theorem laneLost_inactive (hl : l < 8) (h : portState n s ≠ 5) : portState n (laneLost n l s) = portState n s := by
  rw [laneLost_unused hl fun k => h k.1, portState_laneUnlocked]

/-- After a lane is lost it has no lock, and neither has one that had none. -/
theorem laneLost_lock (hn : n < 16) (hl : l < 8) {k : Nat} (hk : k < 8) (h : k = l ∨ laneF n k Fld.FAB_LANE_STATUS_LOCK s = 0) :
    laneF n k Fld.FAB_LANE_STATUS_LOCK (laneLost n l s) = 0 := by
  rw [laneLost_eq hl]
  refine laneBad_lock hn hk ?_
  by_cases e : k = l
  · subst e
    exact laneF_laneUnlocked
  · exact (laneF_laneW_lane n _ _ _ _ e).trans (h.resolve_left e)
end

/-! ## A lane PLL (R427) -/

section
variable {n : Nat} {ls : List Nat}

theorem foldl_laneLost_lock (hn : n < 16) (hls : ∀ l ∈ ls, l < 8) {k : Nat} (hk : k < 8) (s : State)
    (h : k ∈ ls ∨ laneF n k Fld.FAB_LANE_STATUS_LOCK s = 0) :
    laneF n k Fld.FAB_LANE_STATUS_LOCK (ls.foldl (fun s l => laneLost n l s) s) = 0 := by
  induction ls generalizing s with
  | nil => exact h.resolve_left (by simp)
  | cons l ls ih =>
    obtain ⟨hl, hls⟩ := List.forall_mem_cons.1 hls
    refine ih hls _ ?_
    by_cases hm : k ∈ ls
    · exact .inl hm
    · exact .inr (laneLost_lock hn hl hk (h.imp_left fun k => (List.mem_cons.1 k).resolve_right hm))

theorem foldl_laneLost_inactive (hls : ∀ l ∈ ls, l < 8) (s : State) (h : portState n s ≠ 5) :
    portState n (ls.foldl (fun s l => laneLost n l s) s) = portState n s := by
  induction ls generalizing s with
  | nil => rfl
  | cons l ls ih =>
    obtain ⟨hl, hls⟩ := List.forall_mem_cons.1 hls
    have e := laneLost_inactive hl h
    exact (ih hls _ (e ▸ h)).trans e

/-- The first lane in use that is lost moves the port into RETRAIN or DOWN, and the others leave it there. -/
theorem foldl_laneLost_active (hn : n < 16) (hls : ∀ l ∈ ls, l < 8) (s : State) (h : portState n s = 5)
    (hu : ∃ l ∈ ls, bitAt (widthLanes (widthCode n s)) l = true) : let t := ls.foldl (fun s l => laneLost n l s) s
      portState n t = 6 ∨ portState n t = 7 := by
  induction ls generalizing s with
  | nil => simp at hu
  | cons l ls ih =>
    obtain ⟨hl, hls⟩ := List.forall_mem_cons.1 hls
    by_cases hlane : bitAt (widthLanes (widthCode n s)) l = true
    · have hmoved := laneLost_state hn hl ⟨h, hlane⟩
      have e := foldl_laneLost_inactive (n := n) hls (laneLost n l s) (by rcases hmoved with k | k <;> simp [k])
      rwa [← e] at hmoved
    · have e := laneLost_unused hl fun k : LaneInUse n l s => hlane k.2
      obtain ⟨m, hm, hbit⟩ := hu
      have hm := (List.mem_cons.1 hm).resolve_left fun k => hlane (k ▸ hbit)
      refine ih hls (laneLost n l s) ?_ ⟨m, hm, ?_⟩
      · rw [e, portState_laneUnlocked, h]
      · rwa [e, widthCode_laneUnlocked]
end

/-- A width that is not 0 uses some lane. -/
theorem widthLanes_uses : ∀ w < 4, w ≠ 0 → ∃ l ∈ upto 8, bitAt (widthLanes w) l = true := by decide

/-- A lane PLL that loses lock: no lane keeps it, and only an ACTIVE port moves. -/
theorem lanePll_shows {n : Nat} (hn : n < 16) (s : State) : let u := lanePll n s
    (∀ k < 8, laneF n k Fld.FAB_LANE_STATUS_LOCK u = 0) ∧
      (portState n s = 5 → widthCode n s ≠ 0 → portState n u = 6 ∨ portState n u = 7) ∧
      (portState n s ≠ 5 → portState n u = portState n s) := by
  have hls : ∀ l ∈ upto 8, l < 8 := fun l => List.mem_range.1
  exact ⟨fun k hk => foldl_laneLost_lock hn hls hk s (.inl (List.mem_range.2 hk)),
    fun h hw => foldl_laneLost_active hn hls s h (widthLanes_uses _ (getF_lt Fld.FAB_PORT_STATUS_WIDTH _) hw),
    foldl_laneLost_inactive hls s⟩

/-! ## CBL_3V3 (R510) -/

section
variable {n : Nat} {s : State} (hn : n < 16) (h : powerGood s = true)
include hn h

theorem cbl3v3Overcurrent_next : execCbl3v3Overcurrent n s = .next (setPort n { portOf n s with cblOn := false } s) :=
  (if_pos (decide_eq_true hn)).trans (congrArg _ (if_pos h))

theorem cbl3v3Retry_next : execCbl3v3Retry n s = .next (setPort n { portOf n s with cblOn := true } s) :=
  (if_pos (decide_eq_true hn)).trans (congrArg _ (if_pos h))
end

end Sys2Proof.Machine

namespace Sys2Proof.Proofs
open Sys2Proof Sys2Proof.Machine

/-- Settles O31: how RETRAIN begins and ends, then the loss of one lane and of all. -/
theorem portRetrains : Obligations.PortRetrains := by
  intro n l delay s hn hl hw p st bad lock active narrow half down
  refine ⟨?pattern, ?lock, ?again, ?last, ?unused, ?half, ?down, ?pll, ?supply⟩
  case pattern =>
    intro hs
    refine ⟨_, portRow_next hn hw (retrainPattern_active hs) (portRetrain_work ..), psF_portRetrain_state ..,
      psF_portRetrain_other _ _ _ (by decide), ?_⟩
    rw [portOf_portRetrain]
    exact ⟨rfl, rfl, rfl⟩
  case lock =>
    intro hs ht
    obtain ⟨hst, hretry, hcount, hdelay⟩ := retrainDone_shows hn delay s
    refine ⟨_, portRow_settles hn hw (congrArg pumpAll (retrainLock_timely delay hs ht)), hst, ?_⟩
    rw [portOf_setPort_same]
    exact ⟨rfl, rfl, hretry, hcount, hdelay⟩
  case again =>
    intro hs h
    refine ⟨_, portRow_next hn hw (retrainTimeout_again hs h) rfl, ?_⟩
    rw [portOf_setPort_same]
    refine ⟨(psF_psW_other n _ _ (by decide) (by decide)).trans hs, psF_psW_same n _ _ _ (by decide), rfl, rfl, rfl⟩
  case last =>
    intro hs h
    exact ⟨_, portRow_settles hn hw (retrainTimeout_last hs h), portDown_shows hn (by decide) _⟩
  case unused => exact fun h => portRow_next hn hw (laneLost_unused hl h) rfl
  case half =>
    intro h hb
    obtain ⟨work, shows⟩ := laneLost_half hn hl h hb
    exact ⟨_, portRow_next hn hw rfl work, shows⟩
  case down =>
    intro h hb
    obtain ⟨hst, hc, hd⟩ := portDown_shows hn (show 6 < 256 by decide) (laneMarked n l (laneUnlocked n l s))
    have hb' := beside_downs hn
    exact ⟨_, portRow_settles hn hw (laneLost_down hl h hb), hst, hc,
      hd.trans (congrArg (· + 1) ((rd_laneMarked hl hb').trans (rd_laneW _ _ _ hl hb')))⟩
  case pll => exact ⟨_, portRow_settles hn hw rfl, lanePll_shows hn s⟩
  case supply => exact fun h => ⟨cbl3v3Overcurrent_next hn h, cbl3v3Retry_next hn h⟩

end Sys2Proof.Proofs
end

section
/-!
An ACTIVE port (O32): the blocks that it sends and receives, and its two timers.
-/
namespace Sys2Proof.Machine

/-! ## RETRAIN where a count says so (R239, R250) -/

/-- A port that goes into RETRAIN where `c` holds, at the width that it has. -/
def retrainWhen (c : Prop) [Decidable c] (n : Nat) (s : State) : State := if c then portRetrain n (widthCode n s) s else s

section
variable (c : Prop) [Decidable c] (n : Nat) (s : State)

theorem retrainWhen_port : ∃ entered tries fallback, portOf n (retrainWhen c n s) =
    { portOf n s with entered := entered, tries := tries, fallback := fallback } := by
  unfold retrainWhen
  split
  · exact ⟨_, _, _, portOf_portRetrain ..⟩
  · exact ⟨_, _, _, rfl⟩

theorem retrainWhen_work : (retrainWhen c n s).work = s.work := by
  unfold retrainWhen
  split
  · exact portRetrain_work ..
  · rfl

theorem retrainWhen_cycle : (retrainWhen c n s).cycle = s.cycle := by
  unfold retrainWhen
  split
  · exact portRetrain_cycle ..
  · rfl

theorem rd_retrainWhen {k : Nat} (hk : Beside n k) : rd k (retrainWhen c n s) = rd k s := by
  unfold retrainWhen
  split
  · exact rd_portRetrain _ _ _ hk
  · rfl

variable {n s} in
theorem retrainWhen_state (h : portState n s = 5) : portState n (retrainWhen c n s) = if c then 6 else 5 := by
  unfold retrainWhen
  split
  · exact psF_portRetrain_state ..
  · exact h
end

/-! ## The replay timer and NAK-wait (R249, R250) -/

/-- A port that begins to replay every unacknowledged flit, from `seq` on. -/
def portReplaying (p : Port) (seq now : Nat) : Port :=
  { p with
    replay := p.retry, replayFirst := true, replays := p.replays + 1, lastReplay := some (seq, now), since := now }

/-- A port that finds a gap: outside NAK-wait a NAK is owed, and NAK-wait begins. -/
def portGapped (p : Port) (now : Nat) : Port :=
  match p.nakWait with
  | some _ => p
  | none => { p with nakOwed := true, nakWait := some now }

section
variable {n : Nat} {s : State}

theorem replayStart_nil (h : (portOf n s).retry = []) : replayStart n s = s := by
  unfold replayStart
  dsimp only
  split
  · rfl
  next hc => simp [h] at hc

theorem replayStart_cons {seq : Nat} {f : Flit} {rest : List (Nat × Flit)} (h : (portOf n s).retry = (seq, f) :: rest) :
    replayStart n s = retrainWhen ((portOf n s).replays + 1 = lcF n Fld.FAB_LINK_CFG_RETRY_MAX s) n
      (setPort n (portReplaying (portOf n s) seq s.cycle) s) := by
  unfold replayStart
  dsimp only
  split
  next hc => simp [h] at hc
  next hc =>
    obtain rfl : seq = _ := congrArg Prod.fst (List.cons.inj (h.symm.trans hc)).1
    rfl

/-- What the begin of a replay shows. -/
theorem replayStart_shows {seq : Nat} {f : Flit} {rest : List (Nat × Flit)} (hs : portState n s = 5)
    (h : (portOf n s).retry = (seq, f) :: rest) : let t := replayStart n s
      t.work = s.work ∧ t.cycle = s.cycle ∧ (portOf n t).replay = (portOf n s).retry ∧ (portOf n t).replayFirst = true ∧
        (portOf n t).replays = (portOf n s).replays + 1 ∧ (portOf n t).lastReplay = some (seq, s.cycle) ∧
        portState n t = if (portOf n s).replays + 1 = lcF n Fld.FAB_LINK_CFG_RETRY_MAX s then 6 else 5 := by
  intro t
  have e : t = _ := replayStart_cons h
  obtain ⟨_, _, _, hp⟩ := retrainWhen_port ((portOf n s).replays + 1 = lcF n Fld.FAB_LINK_CFG_RETRY_MAX s) n
    (setPort n (portReplaying (portOf n s) seq s.cycle) s)
  rw [← e, portOf_setPort_same] at hp
  rw [hp]
  refine ⟨?_, ?_, rfl, rfl, rfl, rfl, ?_⟩ <;> rw [e]
  · exact retrainWhen_work ..
  · exact retrainWhen_cycle ..
  · exact retrainWhen_state _ hs

theorem replayTimer_due (hs : portState n s = 5) (h : (portOf n s).retry ≠ []) : replayTimer n s =
    replayStart n (advanceTo ((portOf n s).since + nsCycles (lcF n Fld.FAB_LINK_CFG_REPLAY_NS s)) s) :=
  if_pos (by simp [portActive_iff.2 hs, h])

theorem nakWaitExpire_due {t0 : Nat} (hs : portState n s = 5) (h : (portOf n s).nakWait = some t0) : nakWaitExpire n s =
    let u := advanceTo (t0 + nsCycles (lcF n Fld.FAB_LINK_CFG_REPLAY_NS s)) s
    setPort n { portOf n s with nakOwed := true, nakWait := some u.cycle } u := by
  simp only [nakWaitExpire, portActive_iff.2 hs, h, portOf_advanceTo]

theorem gap_none (n : Nat) (s : State) : gap n none s = setPort n (portGapped (portOf n s) s.cycle) s := by
  cases hw : (portOf n s).nakWait <;> simp only [gap, portGapped, hw]
end

section
variable (p : Port) (now : Nat)

theorem portGapped_waits : (portGapped p now).nakWait.isSome = true := by
  unfold portGapped
  split
  next h => simp [h]
  · rfl

theorem portGapped_badBlocks : (portGapped p now).badBlocks = p.badBlocks := by unfold portGapped; split <;> rfl
theorem portGapped_rxPrbs : (portGapped p now).rxPrbs = p.rxPrbs := by unfold portGapped; split <;> rfl

variable {p} in
theorem portGapped_begins (h : p.nakWait = none) : portGapped p now = { p with nakOwed := true, nakWait := some now } := by
  simp only [portGapped, h]
end

/-! ## A block that cannot be corrected (R239) -/

/-- The port with the block descrambled. -/
def portDescrambled (p : Port) (prbs : Nat) : Port := { p with rxPrbs := prbs, blocks := p.blocks + 1 }

/-- The port after a block that is lost. -/
def portBlockLost (p : Port) (prbs now : Nat) : Port :=
  { portGapped (portDescrambled p prbs) now with badBlocks := p.badBlocks + 1 }

/-- The state that a lost block leaves, before RETRAIN may begin. -/
def blockLost (n prbs : Nat) (s : State) : State :=
  setPort n (portBlockLost (portOf n s) prbs s.cycle)
    (gap n none (bump (Reg.FAB_FEC_UNCORR n) (setPort n (portDescrambled (portOf n s) prbs) s)))

theorem portOf_blockLost (n prbs : Nat) (s : State) : portOf n (blockLost n prbs s) = portBlockLost (portOf n s) prbs s.cycle :=
  portOf_setPort_same ..

theorem blockLost_shows {n : Nat} (hn : n < 16) (prbs : Nat) {s : State} (hs : portState n s = 5) : let t := blockLost n prbs s
    t.work = s.work ∧ rd (Reg.FAB_FEC_UNCORR n) t = rd (Reg.FAB_FEC_UNCORR n) s + 1 ∧ portState n t = 5 := by
  unfold blockLost
  rw [gap_none]
  exact ⟨rfl, rd_bump_same .., (psF_bump _ _ (beside_fecUncorr hn)).trans hs⟩

section
variable {n : Nat} {bytes : List Byte} {s : State} (hs : portState n s = 5) (hb : bytes.length = 800)
include hs hb

theorem blockReceive_active : blockReceive n bytes s =
    let raw := scramble (laneNum n s) (portOf n s).rxPrbs bytes
    let u := setPort n (portDescrambled (portOf n s) raw.2) s
    match fecDecode raw.1 with
    | none =>
      let u := gap n none (bump (Reg.FAB_FEC_UNCORR n) u)
      retrainWhen ((portOf n u).badBlocks + 1 = 8) n (setPort n { portOf n u with badBlocks := (portOf n u).badBlocks + 1 } u)
    | some (fl, fixed) =>
      let u := fixed.foldl (fun s b => symbolFixed n b s) (setPort n { portOf n u with badBlocks := 0 } u)
      laneScan n ((upto 3).foldl (fun s i => flitReceive n ((fl.drop (256 * i)).take 256) s) u) := by
  unfold blockReceive
  rw [if_neg (by simp [portActive_iff.2 hs, hb])]
  rfl

omit hs hb in
/-- The port finds a gap where the lost block was. -/
theorem portOf_blockGap (prbs : Nat) (s : State) :
    portOf n (gap n none (bump (Reg.FAB_FEC_UNCORR n) (setPort n (portDescrambled (portOf n s) prbs) s))) =
      portGapped (portDescrambled (portOf n s) prbs) s.cycle := by
  rw [gap_none, portOf_setPort_same, portOf_bump, portOf_setPort_same, bump_cycle, setPort_cycle]

theorem blockReceive_lost (hd : fecDecode (scramble (laneNum n s) (portOf n s).rxPrbs bytes).1 = none) :
    blockReceive n bytes s = retrainWhen ((portOf n s).badBlocks + 1 = 8) n
      (blockLost n (scramble (laneNum n s) (portOf n s).rxPrbs bytes).2 s) := by
  rw [blockReceive_active hs hb]
  simp only [hd, portOf_blockGap, portGapped_badBlocks]
  rfl

/-- A block that is lost asks for a NAK and is counted; the eighth in a row starts RETRAIN. -/
theorem blockReceive_lost_shows (hn : n < 16) (hd : fecDecode (scramble (laneNum n s) (portOf n s).rxPrbs bytes).1 = none) :
    let t := blockReceive n bytes s
    let p := portOf n s
    t.work = s.work ∧ rd (Reg.FAB_FEC_UNCORR n) t = rd (Reg.FAB_FEC_UNCORR n) s + 1 ∧ (portOf n t).badBlocks = p.badBlocks + 1 ∧
      (portOf n t).rxPrbs = (scramble (laneNum n s) (portOf n s).rxPrbs bytes).2 ∧ (portOf n t).nakWait.isSome = true ∧
      (p.nakWait = none → (portOf n t).nakOwed = true ∧ (portOf n t).nakWait = some s.cycle) ∧
      portState n t = if p.badBlocks + 1 = 8 then 6 else 5 := by
  have e := blockReceive_lost hs hb hd
  generalize (scramble (laneNum n s) (portOf n s).rxPrbs bytes).2 = prbs at e ⊢
  intro t p
  have hc := beside_fecUncorr hn
  obtain ⟨hwork, hcount, hst⟩ := blockLost_shows hn prbs hs
  obtain ⟨_, _, _, hp⟩ := retrainWhen_port (p.badBlocks + 1 = 8) n (blockLost n prbs s)
  rw [← e, portOf_blockLost] at hp
  rw [hp]
  refine ⟨?_, ?_, rfl, portGapped_rxPrbs .., portGapped_waits .., fun hnw => ?_, ?_⟩
  · exact (congrArg State.work e).trans ((retrainWhen_work ..).trans hwork)
  · exact (congrArg (rd _) e).trans ((rd_retrainWhen _ _ _ hc).trans hcount)
  · have hg := portGapped_begins (p := portDescrambled p prbs) s.cycle hnw
    exact ⟨congrArg Port.nakOwed hg, congrArg Port.nakWait hg⟩
  · exact (congrArg (portState n) e).trans (retrainWhen_state _ hst)
end

/-! ## A block that can be corrected (R239, R241, R257) -/

/-- The port counts no block as lost, and its count of corrections stands at `c`. -/
structure BlockGood (n : Nat) (c : Word) (s : State) : Prop where
  bad : (portOf n s).badBlocks = 0
  corr : rd (Reg.FAB_FEC_CORR n) s = c

theorem BlockGood.foldl {n : Nat} {c : Word} {α : Type} {f : State → α → State} {l : List α}
    (hf : ∀ t x, BlockGood n c t → BlockGood n c (f t x)) {s : State} (h : BlockGood n c s) : BlockGood n c (l.foldl f s) := by
  induction l generalizing s with
  | nil => exact h
  | cons x l ih => exact ih (hf s x h)

/-- The counters of the checks of R264 lie outside the block of the ports. -/
theorem netCheck_out {p : Packet} {s : State} {r : Nat} (h : netCheck p s = some r) : 0x1100000 ≤ r := by
  unfold netCheck at h
  dsimp only at h
  split_ifs at h <;> exact Option.some.inj h ▸ by decide

section
variable {n : Nat} {c : Word} {s : State} (h : BlockGood n c s)
include h

theorem BlockGood.ite {t : State} (k : BlockGood n c t) {p : Prop} {_ : Decidable p} : BlockGood n c (if p then s else t) := by
  split <;> assumption

theorem BlockGood.wr {k v} (hk : Reg.FAB_FEC_CORR n ≠ k) : BlockGood n c (wr k v s) := ⟨h.bad, (rd_wr_other _ _ hk).trans h.corr⟩
theorem BlockGood.bump {k} (hk : Reg.FAB_FEC_CORR n ≠ k) : BlockGood n c (bump k s) := h.wr hk
theorem BlockGood.setPort {p} (hp : p.badBlocks = (portOf n s).badBlocks := by rfl) : BlockGood n c (setPort n p s) :=
  ⟨(congrArg Port.badBlocks (portOf_setPort_same ..)).trans (hp.trans h.bad), h.corr⟩
theorem BlockGood.takePacket {a} : BlockGood n c (takePacket n a s) := h.setPort

theorem BlockGood.gap {seq} : BlockGood n c (gap n seq s) := by
  unfold Machine.gap
  cases seq
  all_goals
    dsimp only
    split
    · exact h.setPort
    · exact h.setPort

theorem BlockGood.ackTake {a} : BlockGood n c (ackTake n a s) := by
  unfold Machine.ackTake
  dsimp only
  split
  · exact h
  · exact .ite h h.setPort

section
variable (hn : n < 16)
include hn

theorem BlockGood.portDown {cause} : BlockGood n c (portDown n cause s) := by
  refine ⟨congrArg Port.badBlocks (portOf_portDown ..), (rd_portDown _ _ (beside_fecCorr hn) ?_).trans h.corr⟩
  unfold Reg.FAB_FEC_CORR Reg.FAB_DOWNS
  omega

theorem BlockGood.portRetrain {w} : BlockGood n c (portRetrain n w s) :=
  ⟨(congrArg Port.badBlocks (portOf_portRetrain ..)).trans h.bad, (rd_portRetrain _ _ _ (beside_fecCorr hn)).trans h.corr⟩

theorem BlockGood.degrade {w} : BlockGood n c (degrade n w s) := by
  have hb := beside_fecCorr hn
  refine ⟨(congrArg Port.badBlocks (portOf_degrade ..)).trans h.bad, (rd_portLog _ _ _ hb).trans ?_⟩
  rw [rd_bump_other, rd_psW _ _ _ _ hb, h.corr]
  unfold Reg.FAB_FEC_CORR Reg.FAB_DEGRADES
  omega

theorem BlockGood.laneMarked {l} (hl : l < 8) : BlockGood n c (laneMarked n l s) :=
  ⟨h.bad, (rd_laneMarked hl (beside_fecCorr hn)).trans h.corr⟩

theorem BlockGood.laneBad {l} (hl : l < 8) : BlockGood n c (laneBad n l s) := by
  by_cases hu : LaneInUse n l s
  · rw [laneBad_used hu]
    exact .ite ((h.laneMarked hn hl).portDown hn) (((h.laneMarked hn hl).degrade hn).portRetrain hn)
  · rwa [laneBad_unused hu]

theorem BlockGood.replayStart : BlockGood n c (replayStart n s) := by
  cases hr : (portOf n s).retry with
  | nil => rwa [replayStart_nil hr]
  | cons x rest =>
    rw [replayStart_cons hr]
    have k : BlockGood n c (Machine.setPort n (portReplaying (portOf n s) x.1 s.cycle) s) := h.setPort
    exact .ite (k.portRetrain hn) k

theorem BlockGood.nakTake {a} : BlockGood n c (nakTake n a s) := by
  have k := h.bump (k := Reg.FAB_NAK_RCVD n) (by unfold Reg.FAB_FEC_CORR Reg.FAB_NAK_RCVD; omega)
  exact .ite k (k.replayStart hn)

theorem BlockGood.packetWhole {a} : BlockGood n c (packetWhole n a s) := by
  have apart {r : Nat} (hr : 0x1100000 ≤ r) : Reg.FAB_FEC_CORR n ≠ r := by unfold Reg.FAB_FEC_CORR; omega
  unfold Machine.packetWhole
  extract_lets _ held taken
  have hheld : BlockGood n c held := h.setPort
  have htaken : BlockGood n c taken := hheld.takePacket
  refine .ite hheld ?_
  split
  next hc => exact htaken.bump (apart (netCheck_out hc))
  · exact .ite (htaken.bump (apart (by decide))) htaken

theorem BlockGood.flitAccept {replay f} : BlockGood n c (flitAccept n replay f s) := by
  unfold Machine.flitAccept
  refine .ite (h.portDown hn) (.ite (h.portDown hn) ?_)
  extract_lets _ _ _ _ _ p t
  have ht : BlockGood n c t := BlockGood.bump h.setPort (by unfold Reg.FAB_FEC_CORR Reg.FAB_RX_FLITS; omega)
  exact .ite (ht.packetWhole hn) ht

theorem BlockGood.flitReceive {bs} : BlockGood n c (flitReceive n bs s) := by
  have crc := h.bump (k := Reg.FAB_CRC_FAIL n) (by unfold Reg.FAB_FEC_CORR Reg.FAB_CRC_FAIL; omega)
  unfold Machine.flitReceive
  refine .ite h (.ite crc.gap (.ite (h.portDown hn) ?_))
  extract_lets _ _ _ _ _ credited acked
  have hcredited : BlockGood n c credited := h.setPort
  have hacked : BlockGood n c acked := hcredited.ackTake
  exact .ite (hacked.nakTake hn) (.ite (.ite (hacked.flitAccept hn) (.ite hacked hacked.gap)) hacked)

theorem BlockGood.laneScan : BlockGood n c (laneScan n s) := by
  have fold {ls : List Nat} (hls : ∀ l ∈ ls, l < 8) {t : State} (k : BlockGood n c t) :
      BlockGood n c (ls.foldl (fun s l => Machine.laneBad n l s) t) := by
    induction ls generalizing t with
    | nil => exact k
    | cons l ls ih =>
      obtain ⟨hl, hls⟩ := List.forall_mem_cons.1 hls
      exact ih hls (k.laneBad hn hl)
  exact fold (fun l hl => List.mem_range.1 (List.mem_of_mem_filter hl)) h.setPort
end

/-- A correction counts once. -/
theorem BlockGood.symbolFixed {b} : BlockGood n (c + 1) (symbolFixed n b s) := by
  have hlane : b % laneNum n s < 8 := by
    have hpos : 0 < laneNum n s := by unfold laneNum; split <;> decide
    have hle : laneNum n s ≤ 8 := by unfold laneNum; split <;> decide
    exact lt_of_lt_of_le (Nat.mod_lt _ hpos) hle
  have hl : b % laneNum n s + (if widthCode n s = 2 then 4 else 0) < 12 := by split <;> omega
  have hne : Reg.FAB_FEC_CORR n ≠ Reg.FAB_LANE_CORR n (b % laneNum n s + if widthCode n s = 2 then 4 else 0) := by
    unfold Reg.FAB_FEC_CORR Reg.FAB_LANE_CORR
    omega
  have k : BlockGood n (c + 1) (Machine.bump (Reg.FAB_FEC_CORR n) s) :=
    ⟨h.bad, (rd_bump_same ..).trans (congrArg (· + 1) h.corr)⟩
  exact (k.bump hne).setPort
end

/-- Each correction of a block counts. -/
theorem BlockGood.symbolsFixed {n : Nat} {c : Word} {s : State} (h : BlockGood n c s) (fixed : List Nat) :
    BlockGood n (c + w64 fixed.length) (fixed.foldl (fun s b => Machine.symbolFixed n b s) s) := by
  induction fixed generalizing c s with
  | nil => exact ⟨h.bad, h.corr.trans (BitVec.add_zero c).symm⟩
  | cons b fixed ih =>
    have e : c + w64 (b :: fixed).length = c + 1 + w64 fixed.length := by
      rw [List.length_cons, w64, BitVec.ofNat_add, BitVec.add_comm (BitVec.ofNat 64 fixed.length), ← BitVec.add_assoc]
      rfl
    rw [e]
    exact ih h.symbolFixed

/-- A block that can be corrected ends the run of those that were not, and counts its corrections. -/
theorem blockReceive_fixed {n : Nat} {bytes : List Byte} {s : State} (hn : n < 16) (hs : portState n s = 5)
    (hb : bytes.length = 800) {fl : List Byte} {fixed : List Nat}
    (hd : fecDecode (scramble (laneNum n s) (portOf n s).rxPrbs bytes).1 = some (fl, fixed)) :
    BlockGood n (rd (Reg.FAB_FEC_CORR n) s + w64 fixed.length) (blockReceive n bytes s) := by
  rw [blockReceive_active hs hb]
  simp only [hd]
  refine BlockGood.laneScan (BlockGood.foldl (fun _ _ k => k.flitReceive hn)
    (BlockGood.symbolsFixed ?_ fixed)) hn
  exact ⟨congrArg Port.badBlocks (portOf_setPort_same ..), rfl⟩

/-! ## A block that is sent (R241, R245, R248 to R250) -/

/-- The outputs, the port's NAKs and their count are as they were. -/
structure SameNaks (n : Nat) (s t : State) : Prop where
  sent : t.sent = s.sent
  owed : (portOf n t).nakOwed = (portOf n s).nakOwed
  count : rd (Reg.FAB_NAK_SENT n) t = rd (Reg.FAB_NAK_SENT n) s

theorem SameNaks.refl (n : Nat) (s : State) : SameNaks n s s := ⟨rfl, rfl, rfl⟩

theorem markStamp_sameNaks (n : Nat) (p : Packet) (s : State) : SameNaks n s (markStamp p s).2 := by
  have fixed : SameNaks n s (if s.mark.phase = .copiesSent then markT0 s else s) := by split <;> exact ⟨rfl, rfl, rfl⟩
  unfold markStamp
  split
  · exact .refl n s
  · split
    · dsimp only
      split <;> exact fixed
    · split <;> exact ⟨rfl, rfl, rfl⟩

theorem startPacket_nakOwed (p : Port) : (startPacket p).nakOwed = p.nakOwed := by
  unfold startPacket
  split
  · rfl
  · split <;> rfl

section
variable {n : Nat} {s₀ s : State} (h : SameNaks n s₀ s)
include h

theorem SameNaks.ite {t : State} (k : SameNaks n s₀ t) {p : Prop} {_ : Decidable p} : SameNaks n s₀ (if p then s else t) := by
  split <;> assumption
theorem SameNaks.trans {t : State} (k : SameNaks n s t) : SameNaks n s₀ t :=
  ⟨k.sent.trans h.sent, k.owed.trans h.owed, k.count.trans h.count⟩
theorem SameNaks.bumpBy {m k} (hk : Reg.FAB_NAK_SENT n ≠ k) : SameNaks n s₀ (bumpBy m k s) :=
  ⟨h.sent, h.owed, (rd_bumpBy_other s m hk).trans h.count⟩
theorem SameNaks.setPort {p} (hp : p.nakOwed = (portOf n s).nakOwed) : SameNaks n s₀ (setPort n p s) :=
  ⟨h.sent, (congrArg Port.nakOwed (portOf_setPort_same ..)).trans (hp.trans h.owed), h.count⟩

theorem SameNaks.stampNext : SameNaks n s₀ (stampNext n s) := by
  unfold Machine.stampNext
  refine .ite h ?_
  split
  next x _ =>
    have k := markStamp_sameNaks n x.pkt s
    exact .ite (h.trans k) ((h.trans k).setPort (by exact k.owed.symm))
  · exact h
end

/-- The outputs are as they were, and no NAK is owed: one that was has been sent and counted. -/
structure NakTaken (n : Nat) (s t : State) : Prop where
  sent : t.sent = s.sent
  owed : (portOf n t).nakOwed = false
  count : rd (Reg.FAB_NAK_SENT n) t = rd (Reg.FAB_NAK_SENT n) s + if (portOf n s).nakOwed then 1 else 0

/-- A flit other than a NAK, where none is owed. -/
theorem SameNaks.taken {n : Nat} {s t : State} (h : SameNaks n s t) (hs : (portOf n s).nakOwed = false) : NakTaken n s t :=
  ⟨h.sent, h.owed.trans hs, by simp [h.count, hs]⟩

/-- The flits after one that took the NAK have none to take. -/
theorem NakTaken.trans {n : Nat} {s t u : State} (h : NakTaken n s t) (k : NakTaken n t u) : NakTaken n s u :=
  ⟨k.sent.trans h.sent, k.owed, by rw [k.count, h.owed, h.count]; simp⟩

theorem nextFlit_nakTaken (n : Nat) (s : State) : NakTaken n s (nextFlit n s).2 := by
  unfold nextFlit
  extract_lets s' p _ _ _ _ _ _ _ s₁ s₂
  have credit : Reg.FAB_NAK_SENT n ≠ Reg.FAB_CREDIT_STALL n := by unfold Reg.FAB_NAK_SENT Reg.FAB_CREDIT_STALL; omega
  have retry : Reg.FAB_NAK_SENT n ≠ Reg.FAB_RETRY_STALL n := by unfold Reg.FAB_NAK_SENT Reg.FAB_RETRY_STALL; omega
  have stamped : SameNaks n s s' := (SameNaks.refl n s).stampNext
  have h₁ : SameNaks n s s₁ := .ite (stamped.bumpBy credit) stamped
  have h₂ : SameNaks n s s₂ := .ite (h₁.bumpBy retry) h₁
  split
  next ho =>
    have hs : (portOf n s).nakOwed = true := stamped.owed.symm.trans ho
    refine ⟨h₂.sent, congrArg Port.nakOwed (portOf_setPort_same ..), (rd_bump_same ..).trans ?_⟩
    rw [if_pos hs]
    exact congrArg (· + 1) h₂.count
  next ho =>
    have hs : (portOf n s).nakOwed = false := stamped.owed.symm.trans (Bool.not_eq_true _ ▸ ho)
    have put {q : Port} (hq : q.nakOwed = p.nakOwed) : SameNaks n s (setPort n q s₂) :=
      h₂.setPort (hq.trans (stamped.owed.trans h₂.owed.symm))
    have replayed : Reg.FAB_NAK_SENT n ≠ Reg.FAB_REPLAY_FLITS n := by unfold Reg.FAB_NAK_SENT Reg.FAB_REPLAY_FLITS; omega
    have new : Reg.FAB_NAK_SENT n ≠ Reg.FAB_TX_FLITS n := by unfold Reg.FAB_NAK_SENT Reg.FAB_TX_FLITS; omega
    split
    · exact (SameNaks.bumpBy (put (by rfl)) replayed).taken hs
    · dsimp only
      split
      · exact (put (by rfl)).taken hs
      · split
        · exact (SameNaks.bumpBy (put (by exact startPacket_nakOwed p)) new).taken hs
        · exact (put (by rfl)).taken hs

/-- The state after the three flits of a block. -/
def flitsSent (n : Nat) (s : State) : State := (nextFlit n (nextFlit n (nextFlit n s).2).2).2

theorem flitsSent_nakTaken (n : Nat) (s : State) : NakTaken n s (flitsSent n s) :=
  ((nextFlit_nakTaken n s).trans (nextFlit_nakTaken n _)).trans (nextFlit_nakTaken n _)

theorem blockSend_active {n : Nat} {s : State} (hs : portState n s = 5) : ∃ block prbs, blockSend n s =
    emit (.block n block) (setPort n { portOf n (flitsSent n s) with txPrbs := prbs } (flitsSent n s)) := by
  unfold blockSend flitsSent
  rw [if_neg (by simp [portActive_iff.2 hs])]
  obtain ⟨_, s₁⟩ := nextFlit n s
  dsimp only
  obtain ⟨_, s₂⟩ := nextFlit n s₁
  dsimp only
  obtain ⟨_, s₃⟩ := nextFlit n s₂
  exact ⟨_, _, rfl⟩

/-- A port that is ACTIVE sends one block; its first flit takes the NAK that is owed. -/
theorem blockSend_shows {n : Nat} {s : State} (hs : portState n s = 5) : ∃ block, let t := blockSend n s
    t.sent = s.sent ++ [.block n block] ∧
      rd (Reg.FAB_NAK_SENT n) t = rd (Reg.FAB_NAK_SENT n) s + (if (portOf n s).nakOwed then 1 else 0) ∧
      (portOf n t).nakOwed = false := by
  obtain ⟨block, prbs, e⟩ := blockSend_active hs
  have taken := flitsSent_nakTaken n s
  generalize flitsSent n s = u at e taken
  obtain ⟨sent, owed, count⟩ := taken
  refine ⟨block, ?_⟩
  rw [e]
  exact ⟨congrArg (· ++ _) sent, count, (congrArg Port.nakOwed (portOf_setPort_same ..)).trans owed⟩

/-! ## A port that is not ACTIVE -/

section
variable {n : Nat} {s : State} (h : portState n s ≠ 5)
include h

theorem portActive_false : portActive n s = false := Bool.eq_false_iff.2 (mt portActive_iff.1 h)
theorem blockSend_inactive : blockSend n s = s := if_pos (by rw [portActive_false h]; rfl)
theorem blockReceive_inactive (bytes : List Byte) : blockReceive n bytes s = s := if_pos (by rw [portActive_false h]; rfl)
theorem replayTimer_inactive : replayTimer n s = s := if_neg (by simp [portActive_false h])
theorem nakWaitExpire_inactive : nakWaitExpire n s = s := by simp only [nakWaitExpire, portActive_false h]
end

end Sys2Proof.Machine

namespace Sys2Proof.Proofs
open Sys2Proof Sys2Proof.Machine

/-- Settles O32: the block that is sent, the two kinds of block that arrive, and the two timers. -/
theorem portCarriesBlocks : Obligations.PortCarriesBlocks := by
  intro n seq t0 f rest bytes s hn hw p cfg raw got replay
  refine ⟨?send, ?lost, ?fixed, ?timer, ?wait, ?inactive⟩
  case send =>
    intro hs
    obtain ⟨block, shows⟩ := blockSend_shows hs
    exact ⟨_, block, portRow_settles hn hw rfl, shows⟩
  case lost =>
    intro hs hb hd
    obtain ⟨work, shows⟩ := blockReceive_lost_shows hs hb hn hd
    exact ⟨_, portRow_next hn hw rfl work, shows⟩
  case fixed =>
    intro hs hb fl fixed hd
    obtain ⟨hbad, hcorr⟩ := blockReceive_fixed hn hs hb hd
    exact ⟨_, portRow_settles hn hw rfl, hbad, hcorr⟩
  case timer =>
    intro hs hr
    obtain ⟨work, hcycle, hreplay, hfirst, hcount, hlast, hst⟩ := replayStart_shows (s := advanceTo replay s) hs hr
    have e : replayTimer n s = replayStart n (advanceTo replay s) := replayTimer_due hs (by rw [hr]; simp)
    exact ⟨_, portRow_next hn hw e work, hcycle, hreplay, hfirst, hcount, hlast.trans (by rw [hcycle]), hst⟩
  case wait =>
    intro hs hwait
    refine ⟨_, portRow_next hn hw (nakWaitExpire_due hs hwait) rfl, rfl, ?_⟩
    rw [portOf_setPort_same]
    exact ⟨rfl, rfl⟩
  case inactive =>
    intro hs
    exact ⟨portRow_next hn hw (blockSend_inactive hs) rfl, portRow_next hn hw (blockReceive_inactive hs bytes) rfl,
      portRow_next hn hw (replayTimer_inactive hs) rfl, portRow_next hn hw (nakWaitExpire_inactive hs) rfl⟩

end Sys2Proof.Proofs
end

section
/-!
The controls of a port (O29): the writes of FAB_PORT_CTL and FAB_LINK_CFG over the bus.
-/
namespace Sys2Proof.Machine

/-! ## The two registers over the bus (R259) -/

theorem portRegs_placed : ∀ n < 16, ∀ off ∈ [Reg.FAB_PORT_CTL n, Reg.FAB_LINK_CFG n],
    (regRowAt off).any (fun r => rowPlace r off == n) = true := by decide +kernel

section
variable {n : Nat} (hn : n < 16) (src : Src) (v : Word) (s : State)
include hn

/-- A write of one of the two registers reaches the FAB block with its port. -/
theorem busAccess_portRegs {off : Nat} (h : off ∈ [Reg.FAB_PORT_CTL n, Reg.FAB_LINK_CFG n]) :
    ∃ r, busAccess src off (.write v) s = fabWrite r n off v src s := by
  have hplaced := portRegs_placed n hn off h
  have hbounds : 0x1000000 ≤ off ∧ off < 0x1800000 := by
    simp only [Reg.FAB_PORT_CTL, Reg.FAB_LINK_CFG, List.mem_cons, List.not_mem_nil, or_false] at h
    omega
  have below {m : Nat} (hm : m ≤ 0x1000000) : ¬ off < m := by omega
  cases hr : regRowAt off with
  | none => simp [hr] at hplaced
  | some r =>
    have hplace : rowPlace r off = n := by simpa [hr] using hplaced
    refine ⟨r, (busWrite_at src v s hr).trans ?_⟩
    rw [regWrite, hplace]
    simp only [if_neg (below (m := 0x0100000) (by decide)), if_neg (below (m := 0x0200000) (by decide)),
      if_neg (below (m := 0x0400000) (by decide)), if_neg (below (m := 0x0800000) (by decide)),
      if_neg (below (m := 0x0C00000) (by decide)), if_neg (below (m := 0x1000000) (by decide)), if_pos hbounds.2]

theorem busAccess_portCtl : busAccess src (Reg.FAB_PORT_CTL n) (.write v) s = portCtlWrite n v s := by
  obtain ⟨r, e⟩ := busAccess_portRegs hn src v s (off := Reg.FAB_PORT_CTL n) (by simp)
  exact e.trans (if_pos rfl)

theorem busAccess_linkCfg : busAccess src (Reg.FAB_LINK_CFG n) (.write v) s = linkCfgWrite n v src s := by
  obtain ⟨r, e⟩ := busAccess_portRegs hn src v s (off := Reg.FAB_LINK_CFG n) (by simp)
  have hctl : Reg.FAB_LINK_CFG n ≠ Reg.FAB_PORT_CTL n := by unfold Reg.FAB_LINK_CFG Reg.FAB_PORT_CTL; omega
  have hstatus : ¬ (Reg.FAB_LINK_CFG n = Reg.FAB_PORT_STATUS n ∨ Reg.FAB_LINK_CFG n = Reg.FAB_CUT_USED) := by
    unfold Reg.FAB_LINK_CFG Reg.FAB_PORT_STATUS Reg.FAB_CUT_USED
    omega
  exact e.trans ((if_neg hctl).trans ((if_neg hstatus).trans (if_pos rfl)))
end

section
variable {n : Nat} {v : Word} {src : Src} {s t : State} (hn : n < 16)
include hn

/-- A write of FAB_PORT_CTL that reaches it ends the step with what it does. -/
theorem portCtl_settles (h : Reaches src (Reg.FAB_PORT_CTL n) (.write v) s) (e : portCtlWrite n v (arrived src s) = t) :
    portReg n (Reg.FAB_PORT_CTL n) v src s = .next (settleAll t) := by
  refine (if_pos (decide_eq_true hn)).trans ?_
  rw [regRow, regAccess_reaches h, busAccess_portCtl hn, e]

theorem portCtl_next (h : Reaches src (Reg.FAB_PORT_CTL n) (.write v) s) (e : portCtlWrite n v (arrived src s) = t) (q : Quiet t) :
    portReg n (Reg.FAB_PORT_CTL n) v src s = .next t :=
  (portCtl_settles hn h e).trans (congrArg _ (settleAll_quiet t q))

theorem linkCfg_next (h : Reaches src (Reg.FAB_LINK_CFG n) (.write v) s) (e : linkCfgWrite n v src (arrived src s) = t)
    (q : Quiet t) : portReg n (Reg.FAB_LINK_CFG n) v src s = .next t :=
  (if_pos (decide_eq_true hn)).trans (regRow_reaches h ((busAccess_linkCfg hn ..).trans e) q)
end

/-! ## What a sender's arrival leaves of a port -/

section
variable (src : Src) (s : State)

@[simp] theorem portOf_arrived (n : Nat) : portOf n (arrived src s) = portOf n s := by cases src <;> rfl

/-- The registers of the ports are none of those that the sideband counts in. -/
theorem rd_arrived_below {k : Nat} (hk : k < 0x1100000) : rd k (arrived src s) = rd k s := by
  refine rd_arrived src s ?_ ?_
  · unfold Reg.MGT_SB_XFERS; omega
  · unfold Reg.MGT_SB_STATUS; omega

theorem psF_arrived {n : Nat} (hn : n < 16) (f : Fld) : psF n f (arrived src s) = psF n f s :=
  psF_congr n f s (rd_arrived_below src s (by unfold Reg.FAB_PORT_STATUS; omega))

theorem fabricOn_arrived : fabricOn (arrived src s) = fabricOn s := by rw [fabricOn, arrived_dev, fabricOn]
end

/-! ## Bits of FAB_PORT_CTL -/

theorem bitF_iff_one {f : Fld} (hf : f.width = 1) (v : Word) : bitF f v = true ↔ getF f v = 1 := by
  have hlt : getF f v < 2 ^ f.width := getF_lt f v
  rw [hf] at hlt
  rw [bitF, bne_iff_ne]
  omega

/-- ENABLE is among the bits that are stored. -/
theorem enable_stored (v : Word) : bitF Fld.FAB_PORT_CTL_ENABLE (v &&& 0x19) = bitF Fld.FAB_PORT_CTL_ENABLE v := by
  refine congrArg (· != 0) (getF_eq_iff.2 fun i hi => ?_)
  obtain rfl : i = 0 := by simpa [Fld.has] using hi
  rw [BitVec.toNat_and, Nat.testBit_and]
  exact Bool.and_true _

/-- A command bit is not. -/
theorem stored_withBit {f : Fld} (hf : maskF f &&& 0x19 = 0) (v : Word) : withBit f v &&& 0x19 = v &&& 0x19 := by
  rw [withBit, BitVec.and_or_distrib_right, hf]
  exact BitVec.or_zero

/-- The state in which a write of FAB_PORT_CTL is stored. -/
def ctlStored (n : Nat) (v : Word) (s : State) : State := wr (Reg.FAB_PORT_CTL n) (v &&& 0x19) s

section
variable {n : Nat} {v : Word} {s : State}

@[simp] theorem psF_ctlStored (hn : n < 16) (f : Fld) : psF n f (ctlStored n v s) = psF n f s := psF_wr f s (beside_portCtl hn) _
theorem portState_ctlStored (hn : n < 16) : portState n (ctlStored n v s) = portState n s := psF_ctlStored hn _
theorem rd_ctlStored : rd (Reg.FAB_PORT_CTL n) (ctlStored n v s) = v &&& 0x19 := rd_wr_same ..
theorem downs_ne_portCtl (n : Nat) : Reg.FAB_DOWNS n ≠ Reg.FAB_PORT_CTL n := by unfold Reg.FAB_DOWNS Reg.FAB_PORT_CTL; omega
theorem downs_ctlStored : rd (Reg.FAB_DOWNS n) (ctlStored n v s) = rd (Reg.FAB_DOWNS n) s := rd_wr_other _ _ (downs_ne_portCtl n)

/-! ## DISABLED, and out of it again (R254, R258) -/

/-- A DISABLED port that is enabled in a running device detects. -/
theorem portWake_enters (h : portState n s = 0) (he : bitF Fld.FAB_PORT_CTL_ENABLE (rd (Reg.FAB_PORT_CTL n) s) = true)
    (hf : fabricOn s = true) : portWake n s = portDetect n s := if_pos ⟨h, he, hf⟩

theorem portWake_enabled (h : portState n s ≠ 0) : portWake n s = s := if_neg fun k => h k.1

theorem portWake_shut (he : bitF Fld.FAB_PORT_CTL_ENABLE (rd (Reg.FAB_PORT_CTL n) s) = false) : portWake n s = s :=
  if_neg fun k => Bool.eq_false_iff.1 he k.2.1

/-- What a port that is disabled shows. -/
theorem portLeave_disabled (hn : n < 16) (s : State) : let t := portLeave n 0 none s
    portState n t = 0 ∧ portOf n t = portCleared (portOf n s) s.cycle ∧ t.cycle = s.cycle ∧ t.dev = s.dev ∧
      t.work = (s.work ++ if undelivered (portOf n s) = [] then [] else [.giveBack n (undelivered (portOf n s))]) ∧
      rd (Reg.FAB_DOWNS n) t = rd (Reg.FAB_DOWNS n) s + 1 ∧ rd (Reg.FAB_PORT_CTL n) t = rd (Reg.FAB_PORT_CTL n) s := by
  rw [portLeave_quietly]
  refine ⟨?state, ?port, ?cycle, ?dev, ?work, ?downs, ?ctl⟩
  case state => exact (psF_handBack ..).trans (psF_portLeft_state n 0 s hn)
  case port => exact (portOf_handBack ..).trans (portOf_portLeft n 0 s)
  case cycle => exact (handBack_cycle ..).trans (portLeft_cycle n 0 s)
  case dev => exact (handBack_dev ..).trans (portLeft_dev n 0 s)
  case work => exact (handBack_work ..).trans (congrArg (· ++ _) (portLeft_work n 0 s))
  case downs => exact (rd_handBack ..).trans (rd_portLeft_downs n 0 s hn)
  case ctl => exact (rd_handBack ..).trans (rd_portLeft n 0 s (beside_portCtl hn) (downs_ne_portCtl n).symm)

/-! ## A write of FAB_PORT_CTL, by its bits (R254, R257) -/

/-- Whether or not it goes into RETRAIN at the end, a write stores its bits, disables the port where it is to be disabled, and
lets it out again where it may. -/
theorem portCtlWrite_quietly (hr : bitF Fld.FAB_PORT_CTL_RETRAIN v = false ∨ portState n (portWake n
      (if !bitF Fld.FAB_PORT_CTL_ENABLE v || bitF Fld.FAB_PORT_CTL_RESET v then portDisable n (ctlStored n v s)
        else ctlStored n v s)) ≠ 5) : portCtlWrite n v s = portWake n
      (if !bitF Fld.FAB_PORT_CTL_ENABLE v || bitF Fld.FAB_PORT_CTL_RESET v then portDisable n (ctlStored n v s)
        else ctlStored n v s) := by
  refine if_neg ?_
  rw [Bool.and_eq_true, portActive_iff]
  exact fun k => hr.elim (fun hr => Bool.eq_false_iff.1 hr k.1) (fun hr => hr k.2)

section
variable (hn : n < 16)
include hn

theorem portCtlWrite_enables (hr : bitF Fld.FAB_PORT_CTL_RESET v = false) (ht : bitF Fld.FAB_PORT_CTL_RETRAIN v = false)
    (he : bitF Fld.FAB_PORT_CTL_ENABLE v = true) (hs : portState n s = 0) (hf : fabricOn s = true) :
    portCtlWrite n v s = portDetect n (ctlStored n v s) := by
  rw [portCtlWrite_quietly (.inl ht), if_neg (by simp [he, hr])]
  exact portWake_enters ((portState_ctlStored hn).trans hs) (by rw [rd_ctlStored, enable_stored, he]) hf

theorem portCtlWrite_stores (hr : bitF Fld.FAB_PORT_CTL_RESET v = false) (ht : bitF Fld.FAB_PORT_CTL_RETRAIN v = false)
    (he : bitF Fld.FAB_PORT_CTL_ENABLE v = true) (hs : portState n s ≠ 0) : portCtlWrite n v s = ctlStored n v s := by
  rw [portCtlWrite_quietly (.inl ht), if_neg (by simp [he, hr])]
  exact portWake_enabled ((portState_ctlStored hn).trans_ne hs)

theorem portDisable_leaves (hs : portState n s ≠ 0) : portDisable n (ctlStored n v s) = portLeave n 0 none (ctlStored n v s) :=
  if_neg ((portState_ctlStored hn).trans_ne hs)

theorem portCtlWrite_disables (he : bitF Fld.FAB_PORT_CTL_ENABLE v = false) (hs : portState n s ≠ 0) :
    portCtlWrite n v s = portLeave n 0 none (ctlStored n v s) := by
  obtain ⟨hst, -, -, -, -, -, hctl⟩ := portLeave_disabled hn (ctlStored n v s)
  have hstay : portWake n (portLeave n 0 none (ctlStored n v s)) = portLeave n 0 none (ctlStored n v s) :=
    portWake_shut (by rw [hctl, rd_ctlStored, enable_stored, he])
  have hif : (if !bitF Fld.FAB_PORT_CTL_ENABLE v || bitF Fld.FAB_PORT_CTL_RESET v then portDisable n (ctlStored n v s)
      else ctlStored n v s) = portLeave n 0 none (ctlStored n v s) := by
    rw [if_pos (by simp [he]), portDisable_leaves hn hs]
  have e := portCtlWrite_quietly (v := v) (s := s) (.inr (by rw [hif, hstay, hst]; decide))
  rw [e, hif, hstay]

theorem portCtlWrite_resets (hr : bitF Fld.FAB_PORT_CTL_RESET v = true) (ht : bitF Fld.FAB_PORT_CTL_RETRAIN v = false)
    (he : bitF Fld.FAB_PORT_CTL_ENABLE v = true) (hs : portState n s ≠ 0) (hf : fabricOn s = true) :
    portCtlWrite n v s = portDetect n (portLeave n 0 none (ctlStored n v s)) := by
  obtain ⟨hst, -, -, hdev, -, -, hctl⟩ := portLeave_disabled hn (ctlStored n v s)
  rw [portCtlWrite_quietly (.inl ht), if_pos (by simp [hr]), portDisable_leaves hn hs]
  refine portWake_enters hst (by rw [hctl, rd_ctlStored, enable_stored, he]) ?_
  rw [fabricOn, hdev]
  exact hf

/-- RETRAIN of an ACTIVE port: every lane is tried again, and the width that it had is what it falls back to. -/
theorem portCtlWrite_retrains (hr : bitF Fld.FAB_PORT_CTL_RESET v = false) (ht : bitF Fld.FAB_PORT_CTL_RETRAIN v = true)
    (he : bitF Fld.FAB_PORT_CTL_ENABLE v = true) (hs : portState n s = 5) : portCtlWrite n v s =
      portRetrain n (widthCode n (ctlStored n v s))
        (psW n Fld.FAB_PORT_STATUS_WIDTH 3 (lanesSet n 0xFF 0 (ctlStored n v s))) := by
  have hact : portState n (ctlStored n v s) = 5 := (portState_ctlStored hn).trans hs
  have hwake : portWake n (if !bitF Fld.FAB_PORT_CTL_ENABLE v || bitF Fld.FAB_PORT_CTL_RESET v then
      portDisable n (ctlStored n v s) else ctlStored n v s) = ctlStored n v s := by
    rw [if_neg (by simp [he, hr])]
    exact portWake_enabled (by rw [hact]; decide)
  unfold portCtlWrite
  dsimp only
  rw [show wr (Reg.FAB_PORT_CTL n) (v &&& w64 0x19) s = ctlStored n v s from rfl, hwake,
    if_pos (by rw [ht, portActive_iff.2 hact]; rfl)]
end

/-- What such a port shows. -/
theorem retrained_shows (hn : n < 16) (w : Nat) (s : State) :
    let t := portRetrain n w (psW n Fld.FAB_PORT_STATUS_WIDTH 3 (lanesSet n 0xFF 0 s))
    t.work = s.work ∧ t.col = s.col ∧ portState n t = 6 ∧ widthCode n t = 3 ∧ badLanes n t = 0 ∧ (portOf n t).tries = 0 ∧
      (portOf n t).fallback = w ∧ rd (Reg.FAB_PORT_CTL n) t = rd (Reg.FAB_PORT_CTL n) s := by
  have hb := beside_portCtl hn
  refine ⟨?work, ?col, psF_portRetrain_state .., ?width, ?bad, ?tries, ?fallback, ?ctl⟩
  case work => rw [portRetrain_work, psW_work, lanesSet_work]
  case col => rw [portRetrain_col, psW_col, lanesSet_col]
  case width => exact (psF_portRetrain_other _ _ _ (by decide)).trans (psF_psW_same _ _ _ _ (by decide))
  case bad =>
    exact (psF_portRetrain_other _ _ _ (by decide)).trans
      ((psF_psW_other _ _ _ (by decide) (by decide)).trans (psF_lanesSet_bad n 0xFF 0 s))
  case tries => exact congrArg Port.tries (portOf_portRetrain ..)
  case fallback => exact congrArg Port.fallback (portOf_portRetrain ..)
  case ctl => rw [rd_portRetrain _ _ _ hb, rd_psW _ _ _ _ hb, rd_lanesSet _ _ _ _ hb]
end

/-! ## A write of FAB_LINK_CFG (R259) -/

theorem linkCfgWrite_taken {n : Nat} {v : Word} {src : Src} {s : State} (h : portState n s = 0 ∨ portState n s = 7) :
    linkCfgWrite n v src s = wr (Reg.FAB_LINK_CFG n) v s := if_pos (h.imp_right .inl)

theorem linkCfgWrite_refused {n : Nat} {v : Word} {src : Src} {s : State} (h0 : portState n s ≠ 0) (h7 : portState n s ≠ 7)
    (hp : s.priv = false) : linkCfgWrite n v src s = refuse src (Reg.FAB_LINK_CFG n) s :=
  if_neg (by simp [h0, h7, hp])

end Sys2Proof.Machine

namespace Sys2Proof.Proofs
open Sys2Proof Sys2Proof.Machine

/-- Settles O29: a write of FAB_PORT_CTL by its bits, and FAB_LINK_CFG by the state of its port. -/
theorem portControlCompletes : Obligations.PortControlCompletes := by
  intro n v src s hn hq hf hp u at' p bit reset retrain kept detects left quietly
  have hst : portState n u = portState n s := psF_arrived src s hn _
  have hwidth : widthCode n u = widthCode n s := psF_arrived src s hn _
  have hdowns : rd (Reg.FAB_DOWNS n) u = rd (Reg.FAB_DOWNS n) s :=
    rd_arrived_below src s (by unfold Reg.FAB_DOWNS; omega)
  have hport : portOf n u = p := portOf_arrived src s n
  have hcycle : u.cycle = s.cycle := arrived_cycle
  have hfab : fabricOn u = true := (fabricOn_arrived src s).trans hf
  have hquiet : Quiet u := hq.arrived src
  have set {f : Fld} (hw : f.width = 1) (h : bit f) : bitF f v = true := (bitF_iff_one hw v).2 h
  have clear {f : Fld} (hw : f.width = 1) (h : ¬ bit f) : bitF f v = false := Bool.eq_false_iff.2 (mt (bitF_iff_one hw v).1 h)
  have disabled (m : Word) : let t := portLeave n 0 none (ctlStored n m u)
      portState n t = 0 ∧ left t ∧ kept m t ∧ t.cycle = s.cycle := by
    obtain ⟨hst, hpo, hcyc, -, hwork, hd, hctl⟩ := portLeave_disabled hn (ctlStored n m u)
    have hpo' : portOf n (ctlStored n m u) = p := hport
    rw [hpo'] at hpo hwork
    refine ⟨hst, ⟨?_, congrArg Port.txq hpo, congrArg Port.retry hpo, ?_⟩, hctl.trans rd_ctlStored, hcyc.trans hcycle⟩
    · rw [hd, downs_ctlStored, hdowns]
    · rw [hwork, show (ctlStored n m u).work = [] from hquiet.1, List.nil_append]
  refine ⟨?enable, ?stays, ?disable, ?reset, ?retrain, ?taken, ?refused⟩
  case enable =>
    rintro h ⟨hr, ht⟩ he hs
    have e := portCtlWrite_enables hn (clear rfl hr) (clear rfl ht) (set rfl he) (hst.trans hs) hfab
    refine ⟨_, portCtl_next hn h e ((hquiet.wr _ _).of_frame (portDetect_work ..) (portDetect_col ..)),
      ⟨psF_portDetect_state .., ?_, ?_⟩, (rd_portDetect _ _ (beside_portCtl hn)).trans rd_ctlStored⟩
    · exact congrArg Port.attempts (portOf_portDetect ..)
    · exact (congrArg Port.entered (portOf_portDetect ..)).trans hcycle
  case stays =>
    rintro h ⟨hr, ht⟩ he hs
    exact portCtl_next hn h (portCtlWrite_stores hn (clear rfl hr) (clear rfl ht) (set rfl he) (hst.trans_ne hs)) (hquiet.wr _ _)
  case disable =>
    intro h he hs
    obtain ⟨hst', hleft, hkept, -⟩ := disabled v
    exact ⟨_, portCtl_settles hn h (portCtlWrite_disables hn (clear rfl he) (hst.trans_ne hs)), hst', hleft, hkept⟩
  case reset =>
    intro h ht he hs
    have e := portCtlWrite_resets (v := reset) hn (bitF_withBit v (by decide) (by decide))
      ((bitF_withBit_other v (by decide) (by decide)).trans (clear rfl ht))
      ((bitF_withBit_other v (by decide) (by decide)).trans (set rfl he)) (hst.trans_ne hs) hfab
    obtain ⟨-, ⟨hd, htxq, hretry, hwork⟩, hkept, hcyc⟩ := disabled reset
    have hdetect := portOf_portDetect n (portLeave n 0 none (ctlStored n reset u))
    refine ⟨_, portCtl_settles hn h e, ⟨psF_portDetect_state .., congrArg Port.attempts hdetect, ?_⟩, ⟨?_, ?_, ?_, ?_⟩, ?_⟩
    · exact (congrArg Port.entered hdetect).trans hcyc
    · exact (rd_portDetect _ _ (beside_downs hn)).trans hd
    · exact (congrArg Port.txq hdetect).trans htxq
    · exact (congrArg Port.retry hdetect).trans hretry
    · exact (portDetect_work ..).trans hwork
    · exact ((rd_portDetect _ _ (beside_portCtl hn)).trans hkept).trans (stored_withBit (by decide) v)
  case retrain =>
    intro h hr he hs
    have e := portCtlWrite_retrains (v := retrain) hn ((bitF_withBit_other v (by decide) (by decide)).trans (clear rfl hr))
      (bitF_withBit v (by decide) (by decide)) ((bitF_withBit_other v (by decide) (by decide)).trans (set rfl he)) (hst.trans hs)
    have hw : widthCode n (ctlStored n retrain u) = widthCode n s := (psF_ctlStored hn _).trans hwidth
    obtain ⟨hwork, hcol, hst', hwid, hbad, htries, hfall, hctl⟩ :=
      retrained_shows hn (widthCode n (ctlStored n retrain u)) (ctlStored n retrain u)
    exact ⟨_, portCtl_next hn h e ((hquiet.wr _ _).of_frame hwork hcol), hst', hwid, hbad, htries, hfall.trans hw,
      (hctl.trans rd_ctlStored).trans (stored_withBit (by decide) v)⟩
  case taken =>
    intro h hs
    exact linkCfg_next hn h (linkCfgWrite_taken (by rwa [hst])) (hquiet.wr _ _)
  case refused =>
    intro h h0 h7
    exact linkCfg_next hn h (linkCfgWrite_refused (hst.trans_ne h0) (hst.trans_ne h7) ((arrived_priv src s).trans hp))
      (hquiet.badAccess _ _ _)

end Sys2Proof.Proofs
end
